-- ==== Sys2Proof/Word.lean ====
section
/-! DEFINITION. The words of the hardware: bytes, 32-bit register words, 64-bit registers. -/

namespace Sys2Proof

/-- One byte (R7: little-endian in every structure). -/
abbrev Byte := BitVec 8
/-- A 32-bit register word (R8). -/
abbrev Word := BitVec 32
/-- A 64-bit register (R9, R10). -/
abbrev DWord := BitVec 64

end Sys2Proof
end

