-- ==== Sys2Proof/Syntax.lean ====
section
/-! DEFINITION. The commands of the block: one constructor of `Instr` per row of the spec's opcode table, in the table's
order, and the types of their operands. -/

namespace Sys2Proof

/-! Indexes: how many of each unit the device has (01_islands_and_planes.md and each chapter's instance counts). -/

abbrev PortIx := Fin 8
abbrev TrailIx := Fin 12
abbrev HomeIx := Fin 8
abbrev DivIx := Fin 4
abbrev DomIx := Fin 4
abbrev TpgIx := Fin 16
abbrev StakeIx := Fin 64
abbrev PinIx := Fin 24
abbrev LaneIx := Fin 32
abbrev StreamIx := Fin 64
abbrev CompassIx := Fin 32
abbrev EngineIx := Fin 256
abbrev CampIx := Fin 16
abbrev QidIx := Fin 1048576
abbrev GroupIx := Fin 256
abbrev DmaIx := Fin 128
abbrev MbxIx := Fin 8
abbrev ChanIx := Fin 256
abbrev RelayIx := Fin 16
abbrev WindowIx := Fin 128
abbrev RuleIx := Fin 32
abbrev RecPortIx := Fin 4

/-! Operands of the register and mode commands. -/

/-- The size of a register access (R8): one dword, two, or any other size. -/
inductive Size where
  | dword | qword | other
  deriving DecidableEq, Repr

/-- A differential pair of an encoder port (R65). -/
inductive Pair where
  | a | b | z
  deriving DecidableEq, Repr

/-- The number of a pair. -/
def Pair.num : Pair → Nat
  | .a => 0 | .b => 1 | .z => 2

/-- A unit with the enable of Table 2-6. -/
inductive Block where
  | lane (n : LaneIx) | camStr (st : StreamIx) | frm (st : StreamIx) | stake (n : StakeIx) | camp (c : CampIx)
  | group (g : GroupIx) | dmaCh (c : DmaIx) | tpg (g : TpgIx) | vtrail (v : Fin 4) | divider (d : DivIx)
  | compass (u : CompassIx) | tether | window (w : WindowIx)
  deriving DecidableEq, Repr

/-- A block whose counters one clear register clears. -/
inductive CntBlock where
  | lane (n : LaneIx) | frm (st : StreamIx) | mlk (u : CompassIx) | pxe (st : StreamIx) | dlv | hep | tth
  deriving DecidableEq, Repr

/-! Operands of the time commands (04_time_domains.md). -/

/-- An offset sample (R107): offset in 1/256 ns, interval in ns, a meanPathDelay sample in 1/256 ns if it brings one (R115), whether a new master gave it. From PTP the offset is the ball stamp
of a Sync less its origin time, and the delay is that between the balls (R112, R113). -/
structure OffSample where
  theta : Int
  tau : Nat
  mpd : Option Int
  newMaster : Bool
  deriving DecidableEq, Repr

/-- A completed PTM dialogue (R108): offset in 1/256 ns and delay in ns. -/
structure PtmSample where
  theta : Int
  delay : Nat
  deriving DecidableEq, Repr

/-! Operands of the lane commands (06_camera_lanes.md). -/

/-- Why a lane lost its link (R163, Table 6-16). -/
inductive LossCause where
  | signal | clock | alignment | highBer
  deriving DecidableEq, Repr

/-- What connection discovery found (R164): the MODE and the BOND code. -/
structure Discovered where
  mode : BitVec 4
  bond : BitVec 2
  deriving DecidableEq, Repr

/-- A camera's answer to a control command (R167): whether its CRC is good (R187), whether it refused it, and the bytes of a read. -/
structure CtlAnswer where
  crcOk : Bool
  refused : Bool
  data : List Byte
  deriving DecidableEq, Repr

/-- The body of a CoaXPress packet (R166): an image header, image data, or a packet of a type that is not supported. -/
inductive CxpBody where
  | header (width height : BitVec 16)
  | data (bytes : List Byte)
  | other
  deriving DecidableEq, Repr

/-- A CoaXPress stream packet (R165, R166): stream ID, packet tag, size on the link, whether its CRC is good, 8b/10b errors in it, body. -/
structure CxpPacket where
  sid : Byte
  tag : Byte
  size : BitVec 16
  crcOk : Bool
  codeErrs : Byte
  body : CxpBody
  deriving DecidableEq, Repr

/-- The body of a GVSP packet (R174, R182): leader (image payload or not, width, height, pixel format, timestamp), data, trailer. -/
inductive GvspBody where
  | leader (image : Bool) (width height : BitVec 16) (pfnc : BitVec 32) (ts : BitVec 64)
  | data (bytes : List Byte)
  | trailer
  deriving DecidableEq, Repr

/-- A GVSP packet: extended IDs or not, block ID, packet ID, body. -/
structure GvspPkt where
  ext : Bool
  block : BitVec 64
  id : BitVec 32
  body : GvspBody
  deriving DecidableEq, Repr

/-- A PTP message as the firmware sees it (R110): an event message (Sync, Delay_Req, Pdelay_Req, Pdelay_Resp by messageType) with its sequenceId, an Announce with its sender, another supported message, one that uses an
option that is not supported. -/
inductive PtpMsg where
  | event (ty : BitVec 2) (seq : BitVec 16)
  | announce (master : BitVec 64)
  | general
  | unsupported
  deriving DecidableEq, Repr

/-- A PTP frame: over UDP or Ethernet, its domainNumber, the message. -/
structure PtpFrame where
  udp : Bool
  dn : BitVec 8
  msg : PtpMsg
  deriving DecidableEq, Repr

/-- What an Ethernet frame carries, as the classification of Table 6-5 sees it; addresses are IPv4 destinations, and the address an ARP request asks for. -/
inductive EthKind where
  | udp (ip : BitVec 32) (port : BitVec 16) (gvsp : Option GvspPkt)
  | ptp (m : PtpFrame)
  | gvcpAck (req : BitVec 16)
  | gvcp
  | arp (ip : BitVec 32)
  | icmpEcho (ip : BitVec 32)
  | pause
  | other
  deriving DecidableEq, Repr

/-- A received Ethernet frame: whether the FCS is good, sync-header errors in it, destination MAC, kind, and its bytes without FCS. -/
structure EthFrame where
  fcsOk : Bool
  codeErrs : Byte
  dst : BitVec 48
  kind : EthKind
  data : List Byte
  deriving DecidableEq, Repr

/-- A line that reaches its pairing (R185): whether it is missing, whether it is the first and the last of its image, its bytes. -/
structure CamLine where
  missing : Bool
  first : Bool
  last : Bool
  data : List Byte
  deriving DecidableEq, Repr

/-- An ECC event met while a chain processes a line (R288): none, a corrected error, an uncorrectable one in an engine's local memory, in the line buffer, or in an
HBM read of a reference or table. -/
inductive ChainEcc where
  | none
  | corrected (lineBuffer : Bool)
  | localMem (e : Fin 16) (addr : BitVec 35)
  | lineBuffer (addr : BitVec 35)
  | hbm (addr : BitVec 35)
  deriving DecidableEq, Repr

/-- Where an item comes from (R306): a camp's FIFO, or the FIFO of event copies. -/
inductive OfferFrom where
  | camp (c : CampIx)
  | event
  deriving DecidableEq, Repr

/-- What the read of a queue's context meets (R323): nothing, or an uncorrectable ECC error in HBM, where the cache does not hold the context, or in the cache, where it does. -/
inductive CtxEcc where
  | none
  | hbm
  | cache (addr : BitVec 35)
  deriving DecidableEq, Repr

/-- An offer (R306): where the item comes from, and what the read of its queue's context meets. -/
structure OfferSrc where
  src : OfferFrom
  ecc : CtxEcc := .none
  deriving DecidableEq, Repr

/-- A queue that a command names, and what the read of its context meets. -/
structure QAccess where
  q : QidIx
  ecc : CtxEcc := .none
  deriving DecidableEq, Repr

/-- The status of a completion (R344, R381). -/
inductive CplRes where
  | ok | unsupported | abort | poisoned
  deriving DecidableEq, Repr

/-- A completion, or a piece of one (R377): its status and data, and of its header the completer and requester IDs, Byte Count and Lower Address (R380). -/
structure Cpl where
  status : CplRes
  data : List Byte
  completer : BitVec 16 := 0
  requester : BitVec 16 := 0
  count : BitVec 12 := 0
  lower : BitVec 7 := 0
  deriving DecidableEq, Repr

/-! Operands of the tether commands (16_tether_link.md). -/

/-- A 64b/66b block after descrambling (R443, Table 16-2): whether it is a control block, and its payload bytes 0 to 7, byte 0 in the low bits. -/
structure TthBlock where
  ctl : Bool
  bytes : BitVec 64
  deriving DecidableEq, Repr

/-- The delta part of a beat as a port receives it (Table 16-1): on TTH_DN (`down`) or TTH_UP, there or missing, its blocks 0 and 1, and the phase of its reference instant after the TIM edge in steps of
125 ps (R453). -/
structure DeltaPart where
  down : Bool := false
  present : Bool
  b0 : TthBlock
  b1 : TthBlock
  phase : BitVec 3 := 0
  deriving DecidableEq, Repr

/-- The anchor part of a beat (Table 16-1): its blocks 2 and 3. -/
structure AnchorPart where
  b0 : TthBlock
  b1 : TthBlock
  deriving DecidableEq, Repr

/-- A message as a port receives it (R449): its blocks in order, on TTH_DN (`down`) or TTH_UP, and how many beats have begun since the one that carried its header (R463). -/
structure TthIn where
  blocks : List TthBlock
  down : Bool := false
  beats : Nat := 0
  deriving DecidableEq, Repr

/-- A record as its source offers it (R494, R499): SOURCE, SEVERITY, CODE, PAYLOAD. -/
structure RecOffer where
  source : BitVec 8
  sev : BitVec 3
  code : BitVec 16
  payload : List Byte
  deriving DecidableEq, Repr

/-! Operands of the host's requests (13_host_endpoint.md). -/

/-- What an HBM read meets (R526): nothing, a corrected or an uncorrectable ECC error. -/
inductive EccResult where
  | none | corrected | uncorrectable
  deriving DecidableEq, Repr

/-- A DMA channel, with what the read of its parked descriptor meets where the command makes it re-fetch one that is in HBM (R334, R346). -/
structure DmaTouch where
  c : DmaIx
  refetch : EccResult := .none
  deriving DecidableEq, Repr

/-- What a read of a memory meets (R526): nothing, a corrected ECC error, or an uncorrectable one at an address. -/
inductive MemEcc where
  | none | corrected
  | uncorrectable (addr : BitVec 35)
  deriving DecidableEq, Repr

/-- What the writing of an item meets (R323, Table 19-5): nothing, a corrected ECC error in HBM or in the staging buffer, an uncorrectable one in the read of the queue's context (from HBM, or
from the context cache), or in the item's staging page. -/
inductive ItemEcc where
  | none
  | corrected (hbm : Bool)
  | context
  | cache (addr : BitVec 35)
  | staging (addr : BitVec 35)
  deriving DecidableEq, Repr

/-- Where a memory request of the host lands: a BAR, the Expansion ROM, outside them (the offset is then the address), or a request of Table 13-7 that the device never serves (I/O, locked read,
AtomicOp, message), with the dwords of its header. -/
inductive HostSpace where
  | bar0 | bar2 | rom | outside
  | unserved (h0 h1 h2 h3 : BitVec 32)
  deriving DecidableEq, Repr

/-- What identifies a request of the host beside its address: the requester, its tag, its attributes (ID-based ordering, Relaxed Ordering, No Snoop). -/
structure TlpId where
  requester : BitVec 16 := 0
  tag : BitVec 10 := 0
  attr : BitVec 3 := 0
  deriving DecidableEq, Repr

/-- A memory read request (R361, R362, R364): offset within its space, bytes from the first to the last enabled one, what reading HBM meets, the bytes among the first eight that the byte enables of
a request of one or two dwords leave out. -/
structure ReadReq where
  space : HostSpace
  off : BitVec 64
  len : Fin 4097
  ecc : EccResult
  skip : BitVec 8 := 0
  id : TlpId := {}
  deriving DecidableEq, Repr

/-- A posted memory write request (R361, R362, R365): its bytes from the first on, `none` for one that the byte enables leave out. -/
structure WriteReq where
  space : HostSpace
  off : BitVec 64
  data : List (Option Byte)
  poisoned : Bool
  id : TlpId := {}
  deriving DecidableEq, Repr

/-- A configuration request (R355): Type 1 or Type 0, read or write, the dword's offset, byte enables, data, the bus, device and function it names. -/
structure CfgReq where
  type1 : Bool
  write : Bool
  off : BitVec 12
  be : BitVec 4
  data : BitVec 32
  target : BitVec 16 := 0
  id : TlpId := {}
  deriving DecidableEq, Repr

/-- An event of the link (R385): its state (speed, width, Flit Mode, data link up, LTSSM), or a correctable error by its AER bit. -/
inductive LinkEvt where
  | state (speed : BitVec 4) (width : BitVec 5) (flit dlUp : Bool) (ltssm : BitVec 3)
  | correctable (bit : BitVec 4)
  deriving DecidableEq, Repr

/-! Operands of boot and of the commands the MP runs in the background (20_boot_identity_lifetime.md, 14_mailbox_commands.md). -/

/-- What the MP has loaded when BOOT completes (R530, R531, R354, R364): the bank, the failure causes of the banks, the image's version, SVN and SVN_COMMIT, library version and
kernel versions (KID, KVER), boot time, option ROM, the OEM slots whose two store copies fail (R538). -/
structure BootImage where
  bank : Bool
  selected : Bool
  cause0 : BitVec 3
  cause1 : BitVec 3
  fwVer : BitVec 32
  svn : BitVec 6
  svnCommit : Bool
  libVer : BitVec 32
  kernels : List (BitVec 5 × BitVec 8)
  ms : BitVec 16
  optRom : List Byte
  badSlots : BitVec 4
  deriving DecidableEq, Repr

/-- A signature that verifies under ECDSA P-384 (R403, R535, R537): the public key, the bytes it covers, r and then s. -/
structure SigFact where
  key : List Byte
  msg : List Byte
  rs : List Byte
  deriving DecidableEq, Repr

/-- A recipe as the MP holds it in a slot (R243, R411, R412): job and version, the HBM area it takes (base address, 4 KB units), shadowed registers by BAR0 offset, trigger-table
entries by their place in the region it names, that region (base, length), shadowed parameters by ID, bytes of its HBM area by offset. -/
structure RecipeImage where
  job : BitVec 16
  ver : BitVec 16
  base : BitVec 35
  area : BitVec 32
  regs : List (BitVec 26 × BitVec 64)
  tables : List (BitVec 17 × BitVec 128)
  regBase : BitVec 17
  regLen : BitVec 18
  params : List (BitVec 16 × Nat)
  blobs : List (BitVec 35 × List Byte)
  deriving DecidableEq, Repr

/-- How a long command ends (R394, R395, R411, R535): done; with the bytes of the image it read from SRC, the signature among them that verifies, and for a recipe what the body carries; with lack of
room, an abort, a hardware error. -/
inductive LongEnd where
  | done
  | recipe (img : List Byte) (sig : Option SigFact) (body : RecipeImage)
  | firmware (img : List Byte) (sig : Option SigFact)
  | noSpace (missing : BitVec 32)
  | aborted (progress : BitVec 16)
  | hwError (code : BitVec 16)
  deriving DecidableEq, Repr

/-- How far RECIPE_STAGE runs: what the read of the recipe's image meets (Table 19-5); after how many of its writes it is interrupted, so that other commands come before it goes on (R413); none where
it completes. -/
structure StageEvents where
  image : MemEcc := .none
  upto : Option Nat := none
  deriving DecidableEq, Repr

/-- What CALIBRATE's routines measured: the tether's link delay (R457), the skew of each lane that the lane routine deskewed (R165), the calibration parameters that the flat-field routine found for each
stream (R410, R415). -/
structure CalResults where
  linkDly : BitVec 32
  skews : List (LaneIx × BitVec 16)
  flats : List (StreamIx × List (BitVec 16 × BitVec 64)) := []
  deriving DecidableEq, Repr

/-- An edge of a port's Z input (R67, R97). -/
structure ZEdge where
  port : PortIx
  rise : Bool
  deriving DecidableEq, Repr

/-- A CoaXPress event packet (R169): whether its CRC is good (R187), and its data. -/
structure EventPacket where
  crcOk : Bool
  data : List (BitVec 8)
  deriving DecidableEq, Repr

/-- A command of the block. One constructor per row of spec/opcode_table.json. -/
inductive Instr where
  /-- REGISTER_WRITE (R13). -/
  | registerWrite (off : BitVec 26) (size : Size) (val : BitVec 64)
  /-- REG64_LOW_READ (R9). -/
  | reg64LowRead (off : BitVec 26)
  /-- REG64_HIGH_WRITE (R10). -/
  | reg64HighWrite (off : BitVec 26) (val : BitVec 32)
  /-- MEMORY_READ_REQUEST (R361). -/
  | memoryReadRequest (r : ReadReq)
  /-- MEMORY_WRITE_REQUEST (R361). -/
  | memoryWriteRequest (w : WriteReq)
  /-- CONFIG_REQUEST (R355). -/
  | configRequest (c : CfgReq)
  /-- BUS_MASTER_ENABLE_CLEAR (R382). -/
  | busMasterEnableClear
  /-- POWER_STATE_CHANGE (R371). -/
  | powerStateChange (d3 : Bool)
  /-- VECTOR_UNMASK (R369). -/
  | vectorUnmask (v : Fin 2048)
  /-- ENABLE_WRITE (R58). -/
  | enableWrite (b : Block) (en : Bool)
  /-- ENABLE_SETUP_COMPLETE (R58). -/
  | enableSetupComplete (b : Block)
  /-- QUIESCE_COMPLETE (R58). -/
  | quiesceComplete (b : Block)
  /-- COUNTER_CLEAR_GO (R190). -/
  | counterClearGo (b : CntBlock)
  /-- MODE_REQUEST (R50). -/
  | modeRequest (req : BitVec 4)
  /-- HOLD_LIMIT_EXPIRE (R46). -/
  | holdLimitExpire (st : StreamIx)
  /-- STOP_REACHED (R571). -/
  | stopReached
  /-- DRAIN_COMPLETE (R48). -/
  | drainComplete
  /-- DRAIN_TIMEOUT (R48). -/
  | drainTimeout
  /-- CALIBRATE_ROUTINE_END (R410). -/
  | calibrateRoutineEnd (done failed : BitVec 3) (meas : CalResults) (aborted : Bool)
  /-- ENCODER_EDGE (R68). -/
  | encoderEdge (p : PortIx) (a b : Bool)
  /-- LINE_BREAK_ENTER (R66). -/
  | lineBreakEnter (p : PortIx) (pair : Pair)
  /-- LINE_BREAK_CLEAR (R65). -/
  | lineBreakClear (p : PortIx) (pair : Pair)
  /-- Z_INDEX_EDGE (R67). -/
  | zIndexEdge (e : ZEdge)
  /-- SPEED_WINDOW_END (R77). -/
  | speedWindowEnd (t : TrailIx)
  /-- STANDSTILL_TIMEOUT (R80). -/
  | standstillTimeout (t : TrailIx)
  /-- SERIAL_FRAME_START (R81). -/
  | serialFrameStart (p : PortIx)
  /-- SERIAL_SAMPLE (R83). -/
  | serialSample (p : PortIx) (word : BitVec 64) (crcOk ne : Bool)
  /-- SERIAL_START_BIT_TIMEOUT (R85). -/
  | serialStartBitTimeout (p : PortIx)
  /-- TRAIL_PRESET (R72). -/
  | trailPreset (t : TrailIx) (hi : BitVec 32)
  /-- HOME_CAPTURE (R87). -/
  | homeCapture (k : HomeIx)
  /-- HOME_LIMIT_CHANGE (R88). -/
  | homeLimitChange (k : HomeIx) (level : Bool)
  /-- TRL_PORT_CFG_WRITE (R80). -/
  | trlPortCfgWrite (p : PortIx) (v : BitVec 32)
  /-- TRL_UNTRUSTED_CLEAR (R96). -/
  | trlUntrustedClear (t : TrailIx)
  /-- LANTERN_CORRECTION (R94). -/
  | lanternCorrection (p : PortIx)
  /-- DIVIDER_EDGE (R91). -/
  | dividerEdge (d : DivIx)
  /-- DOMAIN_SET (R101). -/
  | domainSet (d : DomIx) (hi : BitVec 32)
  /-- DOMAIN_ADJUST (R101). -/
  | domainAdjust (d : DomIx) (hi : BitVec 32)
  /-- TIME_SNAPSHOT (R102). -/
  | timeSnapshot
  /-- DOMAIN_SRC_WRITE (R107). -/
  | domainSrcWrite (d : DomIx) (v : BitVec 32)
  /-- OFFSET_SAMPLE (R107). -/
  | offsetSample (d : DomIx) (x : OffSample)
  /-- PTM_DIALOGUE (R108). -/
  | ptmDialogue (d : DomIx) (x : PtmSample)
  /-- SAMPLE_LOSS_HOLDOVER (R107). -/
  | sampleLossHoldover (d : DomIx)
  /-- PATH_WINDOW_EXPIRE (R115). -/
  | pathWindowExpire (n : LaneIx)
  /-- TXQ_ID_READ (R118). -/
  | txqIdRead (n : LaneIx)
  /-- TPG_FIRE (R121). -/
  | tpgFire (g : TpgIx)
  /-- TPG_START_WRITE (R124). -/
  | tpgStartWrite (g : TpgIx) (hi : BitVec 32)
  /-- STAKE_FIRE (R134). -/
  | stakeFire (n : StakeIx) (reads : List MemEcc)
  /-- STAKE_SEEK_COMPLETE (R139). -/
  | stakeSeekComplete (n : StakeIx) (reads : List MemEcc)
  /-- STK_TABLE_ADDR_WRITE (R155). -/
  | stkTableAddrWrite (v : BitVec 32)
  /-- STK_TABLE_DATA3_WRITE (R155). -/
  | stkTableData3Write (v : BitVec 32)
  /-- STK_TABLE_DATA3_READ (R155). -/
  | stkTableData3Read
  /-- STAKE_REARM (R138). -/
  | stakeRearm (n : StakeIx)
  /-- PIN_PULSE_END (R143). -/
  | pinPulseEnd (p : PinIx)
  /-- CXP_TRIGGER_SEND (R147). -/
  | cxpTriggerSend (n : LaneIx)
  /-- CXP_FALL_TRIGGER_SEND (R147). -/
  | cxpFallTriggerSend (n : LaneIx)
  /-- LANE_SIGNAL_DETECT (R163). -/
  | laneSignalDetect (n : LaneIx) (disc : Option Discovered)
  /-- LANE_NO_SIGNAL_TIMEOUT (R163). -/
  | laneNoSignalTimeout (n : LaneIx)
  /-- LANE_ALIGNED (R163). -/
  | laneAligned (n : LaneIx)
  /-- LANE_ALIGN_TIMEOUT (R163). -/
  | laneAlignTimeout (n : LaneIx)
  /-- LANE_DESKEW_DONE (R163). -/
  | laneDeskewDone (n : LaneIx) (skews : List (BitVec 16))
  /-- LANE_LINK_LOSS (R163). -/
  | laneLinkLoss (n : LaneIx) (cause : LossCause)
  /-- LANE_RETRAIN_DONE (R163). -/
  | laneRetrainDone (n : LaneIx)
  /-- CAM_CTL_READ (R167). -/
  | camCtlRead (n : LaneIx) (len : BitVec 9)
  /-- CAM_CTL_WRITE (R167). -/
  | camCtlWrite (n : LaneIx) (len : BitVec 9)
  /-- CAM_CTL_ANSWER (R167). -/
  | camCtlAnswer (n : LaneIx) (code : BitVec 16) (x : CtlAnswer)
  /-- CAM_CTL_TIMEOUT (R167). -/
  | camCtlTimeout (n : LaneIx)
  /-- CXP_EVENT_PACKET (R169). -/
  | cxpEventPacket (n : LaneIx) (x : EventPacket)
  /-- CXP_STREAM_PACKET (R182). -/
  | cxpStreamPacket (n : LaneIx) (x : CxpPacket)
  /-- ETH_FRAME_RECEIVE (R172). -/
  | ethFrameReceive (n : LaneIx) (x : EthFrame)
  /-- GVSP_RESEND_WAIT (R175). -/
  | gvspResendWait (st : StreamIx)
  /-- GVSP_BLOCK_TIMEOUT (R175). -/
  | gvspBlockTimeout (st : StreamIx)
  /-- GVCP_HEARTBEAT_SEND (R176). -/
  | gvcpHeartbeatSend (n : LaneIx)
  /-- RAW_RX_POP (R177). -/
  | rawRxPop (n : LaneIx)
  /-- RAW_TX_SEND (R178). -/
  | rawTxSend (n : LaneIx) (len : BitVec 12)
  /-- CAMERA_LINE (R185). -/
  | cameraLine (st : StreamIx) (x : Option CamLine)
  /-- LINE_ASSEMBLE (R203). -/
  | lineAssemble (st : StreamIx)
  /-- MARK_REPORT_ARRIVE (R227). -/
  | markReportArrive (u : CompassIx)
  /-- CHG_COMMIT_GO (R247). -/
  | chgCommitGo (v : BitVec 32)
  /-- CHG_COMMIT_WITHDRAW (R249). -/
  | chgCommitWithdraw
  /-- HANDOVER_CYCLE (R31). -/
  | handoverCycle
  /-- SHADOW_COPY_COMPLETE (R253). -/
  | shadowCopyComplete
  /-- LEAD_COPY_COMPLETE (R261). -/
  | leadCopyComplete (st : StreamIx)
  /-- CONJUNCTION_END (R264). -/
  | conjunctionEnd
  /-- CONJUNCTION_LIMIT_EXPIRE (R264). -/
  | conjunctionLimitExpire
  /-- CHAIN_LINE_PROCESS (R272). -/
  | chainLineProcess (st : StreamIx) (x : ChainEcc)
  /-- FRAME_CHAIN_COMPLETE (R273). -/
  | frameChainComplete (st : StreamIx)
  /-- RATE_WINDOW_END (R286). -/
  | rateWindowEnd (st : StreamIx)
  /-- ENGINE_WATCHDOG (R288). -/
  | engineWatchdog (e : EngineIx)
  /-- CAMP_SELF_TEST_COMPLETE (R290). -/
  | campSelfTestComplete (c : CampIx) (failed : BitVec 16)
  /-- ITEM_OFFER (R306). -/
  | itemOffer (x : OfferSrc)
  /-- ITEM_WRITTEN (R300). -/
  | itemWritten (q : QidIx) (x : ItemEcc)
  /-- ELLIPSIS_WRITE (R308). -/
  | ellipsisWrite (q : QidIx)
  /-- QUEUE_DOORBELL (R297). -/
  | queueDoorbell (q : QAccess) (lo hi : Option (BitVec 32))
  /-- DOORBELL_APPLY (R298). -/
  | doorbellApply
  /-- QCMD_READ (R294). -/
  | qcmdRead (q : QAccess)
  /-- QCMD_WRITE (R294). -/
  | qcmdWrite (q : QAccess)
  /-- QCMD_ENABLE (R294). -/
  | qcmdEnable (q : QAccess)
  /-- QCMD_DISABLE (R313). -/
  | qcmdDisable (q : QAccess)
  /-- QCMD_FLUSH (R312). -/
  | qcmdFlush (q : QAccess)
  /-- FLUSHED_WRITE (R312). -/
  | flushedWrite (q : QidIx)
  /-- GROUP_FIFO_READ (R316). -/
  | groupFifoRead (g : GroupIx)
  /-- GROUP_HOLDOFF_END (R317). -/
  | groupHoldoffEnd (g : GroupIx)
  /-- DELIVERY_RESUME (R324). -/
  | deliveryResume
  /-- DMA_DOORBELL (R332). -/
  | dmaDoorbell (t : DmaTouch)
  /-- DMA_DESCRIPTOR_COMPLETE (R332). -/
  | dmaDescriptorComplete (t : DmaTouch) (ecc : EccResult) (staging : Bool) (addr : BitVec 35)
  /-- BARRIER_READ_COMPLETE (R339). -/
  | barrierReadComplete (t : DmaTouch)
  /-- DMA_HEAD_WRITE (R336). -/
  | dmaHeadWrite (c : DmaIx) (v : BitVec 64)
  /-- DMA_RESTART (R347). -/
  | dmaRestart (c : DmaIx)
  /-- ENGINE_HALT_CLEAR (R344). -/
  | engineHaltClear
  /-- COMPLETION_RECEIVE (R377). -/
  | completionReceive (tag : Fin 1024) (x : Cpl)
  /-- COMPLETION_TIMEOUT (R378). -/
  | completionTimeout (tag : Fin 1024)
  /-- QUARANTINE_EXPIRE (R379). -/
  | quarantineExpire (tag : Fin 1024)
  /-- L0S_IDLE_EXPIRE (R372). -/
  | l0sIdleExpire
  /-- L1_IDLE_EXPIRE (R373). -/
  | l1IdleExpire
  /-- PERST_ASSERT (R506). -/
  | perstAssert
  /-- HOT_RESET (R383). -/
  | hotReset
  /-- DL_DOWN (R383). -/
  | dlDown
  /-- RESET_HOLD_END (R383). -/
  | resetHoldEnd
  /-- PERST_DEASSERT (R530). -/
  | perstDeassert (role : BitVec 2) (wid : BitVec 4)
  /-- BOOT_COMPLETE (R530). -/
  | bootComplete (x : BootImage)
  /-- BOOT_FAIL (R533). -/
  | bootFail (cause0 cause1 : BitVec 3) (fuseErr : Bool)
  /-- QSPI_RELEASE (R533). -/
  | qspiRelease
  /-- MBX_GO (R390). -/
  | mbxGo (m : MbxIx)
  /-- MBX_ABORT (R394). -/
  | mbxAbort (m : MbxIx)
  /-- MBX_ACK (R390). -/
  | mbxAck (m : MbxIx)
  /-- MP_TAKE_COMMAND (R395). -/
  | mpTakeCommand (sig : Option SigFact)
  /-- LONG_COMMAND_COMPLETE (R395). -/
  | longCommandComplete (m : MbxIx) (x : LongEnd)
  /-- FW_WATCHDOG (R398). -/
  | fwWatchdog (mem : Option (BitVec 35))
  /-- NOP (R409). -/
  | nop (m : MbxIx)
  /-- GET_VERSION (R409). -/
  | getVersion (m : MbxIx)
  /-- GET_IDENTITY (R409). -/
  | getIdentity (m : MbxIx)
  /-- AUTH_NONCE (R402). -/
  | authNonce (m : MbxIx)
  /-- MODE_GET (R409). -/
  | modeGet (m : MbxIx)
  /-- SERVICE_ENTER (R410). -/
  | serviceEnter (m : MbxIx)
  /-- SERVICE_EXIT (R410). -/
  | serviceExit (m : MbxIx)
  /-- CALIBRATE (R410). -/
  | calibrate (m : MbxIx)
  /-- PARAM_LIST (R415). -/
  | paramList (m : MbxIx)
  /-- PARAM_DESC (R415). -/
  | paramDesc (m : MbxIx)
  /-- PARAM_GET (R418). -/
  | paramGet (m : MbxIx)
  /-- PARAM_SET (R416). -/
  | paramSet (m : MbxIx)
  /-- RECIPE_LOAD (R411). -/
  | recipeLoad (m : MbxIx)
  /-- RECIPE_STAGE (R412). -/
  | recipeStage (m : MbxIx) (x : StageEvents)
  /-- RECIPE_COMMIT (R414). -/
  | recipeCommit (m : MbxIx)
  /-- RECIPE_FREE (R244). -/
  | recipeFree (m : MbxIx)
  /-- RECIPE_INFO (R409). -/
  | recipeInfo (m : MbxIx)
  /-- REC_FLUSH (R504). -/
  | recFlush (m : MbxIx)
  /-- REC_READ (R409). -/
  | recRead (m : MbxIx)
  /-- REC_CLEAR (R511). -/
  | recClear (m : MbxIx)
  /-- REC_INFO (R409). -/
  | recInfo (m : MbxIx)
  /-- FW_WRITE (R535). -/
  | fwWrite (m : MbxIx)
  /-- FW_SELECT (R536). -/
  | fwSelect (m : MbxIx)
  /-- BOARD_READ (R534). -/
  | boardRead (m : MbxIx)
  /-- BOARD_WRITE (R534). -/
  | boardWrite (m : MbxIx)
  /-- CHAIN_INFO (R409). -/
  | chainInfo (m : MbxIx)
  /-- AGEING_READ (R542). -/
  | ageingRead (m : MbxIx)
  /-- TETHER_MBX_TIMEOUT (R408). -/
  | tetherMbxTimeout
  /-- GUYLINE_EVENT (R424). -/
  | guylineEvent (ch : ChanIx) (hop : Fin 8)
  /-- RELAY_EXPIRE (R422). -/
  | relayExpire (r : RelayIx)
  /-- TTH_FWD_SEND (R422). -/
  | tthFwdSend
  /-- GYL_CH_EN_WRITE (R425). -/
  | gylChEnWrite (owner : BitVec 2) (ch : ChanIx) (v : BitVec 8)
  /-- BEAT_TRANSMIT (R447). -/
  | beatTransmit
  /-- POSITION_DELTA_RECEIVE (R452). -/
  | positionDeltaReceive (x : DeltaPart)
  /-- POSITION_ANCHOR_RECEIVE (R452). -/
  | positionAnchorReceive (x : AnchorPart)
  /-- SLOT_STALE_EXPIRE (R454). -/
  | slotStaleExpire (j : Fin 4)
  /-- GUYLINE_MESSAGE_RECEIVE (R465). -/
  | guylineMessageReceive (down : Bool) (x : TthIn)
  /-- HEARTBEAT_SEND (R459). -/
  | heartbeatSend (down : Bool)
  /-- HEARTBEAT_RECEIVE (R460). -/
  | heartbeatReceive (x : TthIn)
  /-- HEARTBEAT_LOSS (R461). -/
  | heartbeatLoss (w : Option (BitVec 4))
  /-- TIME_MESSAGE_SEND (R463). -/
  | timeMessageSend (d : DomIx)
  /-- TIME_MESSAGE_RECEIVE (R463). -/
  | timeMessageReceive (x : TthIn)
  /-- HANDOVER_MESSAGE_SEND (R464). -/
  | handoverMessageSend
  /-- HANDOVER_MESSAGE_RECEIVE (R267). -/
  | handoverMessageReceive (x : TthIn)
  /-- MGMT_FRAGMENT_RECEIVE (R466). -/
  | mgmtFragmentReceive (x : TthIn)
  /-- MGMT_RESPONSE_RECEIVE (R406). -/
  | mgmtResponseReceive (x : TthIn)
  /-- CAL_MESSAGE_RECEIVE (R457). -/
  | calMessageReceive (x : TthIn)
  /-- LANTERN_EDGE (R473). -/
  | lanternEdge (p : PortIx) (a b : Bool)
  /-- LANTERN_LINE_BREAK_ENTER (R475). -/
  | lanternLineBreakEnter (p : PortIx) (pair : Pair)
  /-- LANTERN_LINE_BREAK_CLEAR (R475). -/
  | lanternLineBreakClear (p : PortIx) (pair : Pair)
  /-- LANTERN_TICK (R484). -/
  | lanternTick (homes : BitVec 8)
  /-- RULE_ENABLE_WRITE (R486). -/
  | ruleEnableWrite (k : RuleIx) (en : Bool)
  /-- LAN_OVR_CLEAR (R489). -/
  | lanOvrClear (mask : BitVec 32)
  /-- XTAL_FAIL (R482). -/
  | xtalFail
  /-- XTAL_GOOD (R482). -/
  | xtalGood
  /-- RC_TRIM (R481). -/
  | rcTrim
  /-- DUC_CHECKPOINT (R483). -/
  | ducCheckpoint
  /-- AON_POWER_ON (R483). -/
  | aonPowerOn
  /-- VDD_AON_LOSS (R556). -/
  | vddAonLoss
  /-- MAIN_RAILS_UP (R490). -/
  | mainRailsUp
  /-- MAIN_RAILS_DOWN (R490). -/
  | mainRailsDown
  /-- PWRFAIL_FALL (R507). -/
  | pwrfailFall
  /-- PWRFAIL_RISE (R555). -/
  | pwrfailRise
  /-- RECORD_OFFER (R499). -/
  | recordOffer (p : RecPortIx) (r : RecOffer)
  /-- RECORD_ACCEPT (R499). -/
  | recordAccept
  /-- MRAM_RECORD_WRITE (R505). -/
  | mramRecordWrite (fails : Nat) (x : MemEcc)
  /-- FLUSH_COMPLETE (R504). -/
  | flushComplete
  /-- REC_CTRL_FLUSH (R503). -/
  | recCtrlFlush
  /-- REC_CTRL_REWIND (R515). -/
  | recCtrlRewind
  /-- REC_MARK_WRITE (R515). -/
  | recMarkWrite (v : BitVec 32)
  /-- REC_CFG_WRITE (R513). -/
  | recCfgWrite (v : BitVec 32)
  /-- REC_CURSOR_WRITE (R513). -/
  | recCursorWrite (v : BitVec 32)
  /-- REC_WINDOW_READ (R513). -/
  | recWindowRead (off : Fin 1024) (len : Nat)
  /-- INT_ENABLE_WRITE (R519). -/
  | intEnableWrite (g : Fin 48) (v : BitVec 32)
  /-- INT_TEST (R520). -/
  | intTest (src : BitVec 11)
  /-- FAULT_WINDOW_INCREMENT (R521). -/
  | faultWindowIncrement (w : WindowIx) (n : BitVec 16)
  /-- FAULT_WINDOW_SUBPERIOD (R521). -/
  | faultWindowSubperiod (w : WindowIx)
  /-- FAULT_WINDOW_CONFIG_WRITE (R522). -/
  | faultWindowConfigWrite (w : WindowIx) (k : Bool) (v : BitVec 32)
  /-- PATROL_SCRUB (R527). -/
  | patrolScrub (addr : BitVec 35) (x : EccResult)
  /-- AGEING_MEASURE (R542). -/
  | ageingMeasure (drifts : List (BitVec 16))
  /-- POWERED_HOUR (R544). -/
  | poweredHour
  /-- MRAM_REFRESH_UNIT (R544). -/
  | mramRefreshUnit
  /-- SEC_KEY_PROGRAM (R539). -/
  | secKeyProgram (slot : BitVec 2) (recipe command : Bool)
  /-- SEC_KEY_REVOKE (R539). -/
  | secKeyRevoke (slot : BitVec 2)
  /-- SEC_KEY_RESTORE (R539). -/
  | secKeyRestore (slot : BitVec 2)
  /-- SEC_KEY_OP_DONE (R539). -/
  | secKeyOpDone (fuseErr : Bool)
  /-- THERMAL_SENSE (R565). -/
  | thermalSense (mC : Int)
  /-- THERMTRIP (R565). -/
  | thermtrip
  /-- TETHER_BLOCK_LOCK_CHANGE (R446). -/
  | tetherBlockLockChange (down : Bool) (lock : Bool)
  /-- PCIE_LINK_EVENT (R385). -/
  | pcieLinkEvent (x : LinkEvt)
  /-- PTP_EVENT_TRANSMIT (R117). -/
  | ptpEventTransmit (n : LaneIx) (ty : BitVec 4) (seq : BitVec 16)
  deriving DecidableEq, Repr

end Sys2Proof
end

