-- ==== Sys2Proof/Decode.lean ====
section
/-! DEFINITION. Commands by word. The spec's opcode table gives no row any bits: commands come from outside as they are (log 1). -/

namespace Sys2Proof

/-- The command that a word of `nbits` bits spells by the table's bits: none, since no row of the table has any. DESIGN CHOICE (log 1). -/
def decodeTableWord (_nbits _w : Nat) : Option Instr := none

end Sys2Proof
end

