-- ==== Sys2Proof/Machine/Operands.lean ====
section
/-! DEFINITION. Bit fields, signed and unsigned numbers of a given width, byte order, checksums: the small functions that
every block's meaning uses to read and write what its registers and records hold. -/

namespace Sys2Proof.Machine

/-- The field [hi:lo] of a number (the spec's bit ranges, 00_scope.md, Number formats). -/
def bitsOf (v hi lo : Nat) : Nat := v / 2 ^ lo % 2 ^ (hi + 1 - lo)

/-- Bit `k` of a number. -/
def bitOf (v k : Nat) : Bool := v / 2 ^ k % 2 == 1

/-- 1 for true, 0 for false. -/
def b2n (b : Bool) : Nat := if b then 1 else 0

/-- A `w`-bit pattern read as a two's complement number. -/
def toSigned (w v : Nat) : Int :=
  let u := v % 2 ^ w
  if 2 ^ w ≤ 2 * u then (u : Int) - (2 : Int) ^ w else u

/-- The `w`-bit two's complement pattern of a number, wrapping. -/
def ofSigned (w : Nat) (i : Int) : Nat := (i % (2 : Int) ^ w).toNat

/-- A number limited to the range of a signed `w`-bit field. -/
def satSigned (w : Nat) (i : Int) : Int :=
  let m := (2 : Int) ^ (w - 1)
  if i < -m then -m else if m - 1 < i then m - 1 else i

/-- A number limited to lo..hi. -/
def clampInt (lo hi i : Int) : Int := if i < lo then lo else if hi < i then hi else i

/-- Division rounding towards minus infinity by a positive number (0 for a zero divisor). -/
def floorDiv (a b : Int) : Int := a / b

/-- Division truncating towards zero. -/
def truncDiv (a b : Int) : Int := Int.tdiv a b

/-- A signed magnitude: `m` with the sign of a direction (true is negative). -/
def signBy (neg : Bool) (m : Int) : Int := if neg then -m else m

/-- The number little-endian bytes spell (R7). -/
def leNat : List Byte → Nat
  | [] => 0
  | b :: bs => b.toNat + 256 * leNat bs

/-- The `n` little-endian bytes of a number (R7). -/
def leBytes : Nat → Nat → List Byte
  | 0, _ => []
  | n + 1, v => BitVec.ofNat 8 v :: leBytes n (v / 256)

/-- A number of `n` bytes at `o` of a list. -/
def atBytes (l : List Byte) (o n : Nat) : Nat := leNat ((l.drop o).take n)

/-- The first `n` bytes of a list, padded with zeros. -/
def padTo (n : Nat) (l : List Byte) : List Byte := (l ++ List.replicate (n - l.length) 0).take n

/-- One byte into a CRC of width `w` with polynomial `poly`, most significant bit first, not reflected. -/
def crcStepMsb (w poly : Nat) (crc : Nat) (b : Byte) : Nat :=
  let c0 := Nat.xor crc (b.toNat * 2 ^ (w - 8))
  (List.range 8).foldl (fun c _ =>
    if 2 ^ (w - 1) ≤ c then Nat.xor (c * 2 % 2 ^ w) poly else c * 2 % 2 ^ w) c0

/-- CRC-16 with polynomial 0x1021, initial value 0xFFFF, no reflection, no final XOR (R495). -/
def crc16 (l : List Byte) : Nat := l.foldl (crcStepMsb 16 0x1021) 0xFFFF

/-- One byte into a reflected CRC-32 with reflected polynomial `poly`. -/
def crcStepLsb (poly : Nat) (crc : Nat) (b : Byte) : Nat :=
  (List.range 8).foldl (fun c _ => if c % 2 = 1 then Nat.xor (c / 2) poly else c / 2) (Nat.xor crc b.toNat)

/-- CRC-32C (Castagnoli): reflected polynomial 0x82F63B78, initial value and final XOR all ones (R217). -/
def crc32c (l : List Byte) : Nat := Nat.xor (l.foldl (crcStepLsb 0x82F63B78) 0xFFFFFFFF) 0xFFFFFFFF

/-- The frame check sequence of Ethernet: CRC-32, reflected polynomial 0xEDB88320, initial value and final XOR all ones. PRESUMED (log 19). -/
def crc32 (l : List Byte) : Nat := Nat.xor (l.foldl (crcStepLsb 0xEDB88320) 0xFFFFFFFF) 0xFFFFFFFF

/-- The number of a list's elements that satisfy a test. -/
def countIf {α : Type} (p : α → Bool) (l : List α) : Nat := (l.filter p).length

/-- All numbers below `n` that satisfy a test, rising. -/
def below (n : Nat) (p : Nat → Bool) : List Nat := (List.range n).filter p

/-! The canonical sparse map: pairs with strictly rising keys, none equal to what an unlisted key reads as. -/

/-- What key `k` reads as: its entry, or `d` where the map lists none. -/
def mget {α : Type} (d : α) : List (Nat × α) → Nat → α
  | [], _ => d
  | (a, v) :: m, k => if k = a then v else if k < a then d else mget d m k

/-- Write `v` at key `k`, keeping the form: writing what an unlisted key reads as removes the entry. -/
def mput {α : Type} [DecidableEq α] (d : α) : List (Nat × α) → Nat → α → List (Nat × α)
  | [], k, v => if v = d then [] else [(k, v)]
  | (a, w) :: m, k, v =>
    if k = a then (if v = d then m else (k, v) :: m)
    else if k < a then (if v = d then (a, w) :: m else (k, v) :: (a, w) :: m)
    else (a, w) :: mput d m k v

/-- The form of a sparse map whose unlisted keys read as `d`: keys rise strictly, no entry equals `d`. -/
def mwf {α : Type} [DecidableEq α] (d : Nat → α) : List (Nat × α) → Bool
  | [] => true
  | [(k, v)] => decide (v ≠ d k)
  | (k, v) :: (k', v') :: m => decide (v ≠ d k) && decide (k < k') && mwf d ((k', v') :: m)

end Sys2Proof.Machine
end

