-- ==== Sys2Proof/Config.lean ====
section
/-! DEFINITION. What one implementation fixes and what the spec leaves open: fused values, and the free values (opaque
constants with no body) that stand where the spec gives no value. -/

namespace Sys2Proof.Config

/-- The value the spec leaves open at the `n`-th place a run meets one (log 7). -/
opaque freeValue : Nat → BitVec 64

/-- What a buffer word holds that nothing has written since the `n`-th conventional reset (log 3). -/
opaque undefinedWord (n a : Nat) : BitVec 32

/-- What a trigger-table entry holds that nothing has written since the `n`-th power-on of the main rails (05_stakes_and_triggers.md, log 3). -/
opaque undefinedEntry (n a : Nat) : BitVec 128

/-- What a byte of HBM holds that nothing has written since the `n`-th conventional reset (log 3). -/
opaque undefinedByte (n a : Nat) : BitVec 8

/-- The fused fields of the die identity word (R359): die Y and X, wafer, lot, fab site. DESIGN CHOICE (log 4). -/
opaque dieFields : BitVec 49

/-- The die identity word (R359): bits [63:49] are 0. -/
def dieId : BitVec 64 := dieFields.setWidth 64

/-- The fused package serial number. DESIGN CHOICE (log 4). -/
opaque pkgSerial : BitVec 32

/-- The Civatha root public key (Table 20-5): the 97 bytes whose SHA-384 is fused (log 8). -/
opaque rootKey : BitVec 776

/-- A parameter of the dictionary (Table 14-6). -/
structure ParamDesc where
  id : Nat
  ty : Nat
  unit : Nat
  attr : Nat
  len : Nat
  min : Nat
  max : Nat
  dflt : Nat
  name : List Byte
  deriving DecidableEq, Repr, Inhabited

/-- The parameters of the dictionary that the spec does not name (R415 gives their number, not their IDs; log 9). -/
opaque otherParams : List ParamDesc

/-- A field of a named parameter's descriptor that the spec does not state (log 9). -/
opaque paramField (id field : Nat) : BitVec 64

/-- The default of a named parameter whose default the spec does not state (log 9). -/
opaque paramDefault (id : Nat) : BitVec 8

/-- The unit of a CoaXPress trigger packet's delay field in ps, by the lane's MODE: CoaXPress 2.1 defines it for the uplink rate (R147, log 18). -/
opaque cxpUnitPs (mode : Nat) : BitVec 16

/-- What stands for a quotient by 0 where the spec divides by a field that may be 0 and names no result (COMPARE's ROW_NUM, log 22). -/
opaque noQuotient : Int → Int

/-- The level at trigger pin `p` at time `t` in CALIBRATE: SAFE, or what the running routine drives (R146, log 18). -/
opaque calLevel (t p : Nat) : Bool

/-- An image in a flash bank, as the checks of R531 find it: its failure cause (0 where it passes, Table 20-8), version, SVN, SVN_COMMIT. -/
structure FwImage where
  cause : Nat
  ver : Nat
  svn : Nat
  commit : Bool
  deriving DecidableEq, Repr, Inhabited

/-- The image a bank holds after `n` writes that left it unknown (log 4). -/
opaque flashImage (bank n : Nat) : FwImage

/-- A byte of the board area that nothing has written (R534, log 4). -/
opaque boardByte (a : Nat) : BitVec 8

/-- The version of the MP ROM (Table 14-5). DESIGN CHOICE (log 4). -/
opaque romVer : BitVec 32

end Sys2Proof.Config
end

