-- ==== Sys2Proof/Machine/RegMap.lean ====
section
/-! DEFINITION. The register map of BAR0: one row per register of the spec's register tables (place, width, which bits are
RW, W1C, W1S, the reset value, which bits are held in the AON domain), and one field reference per named field.
The rows are in the order of the spec's chapters; the row's docstring-comment names the register. -/

namespace Sys2Proof.Machine

/-- A register of BAR0 (Tables 0-5 and 2-6 of 00_scope.md and 02_operating_modes.md, and every block's register
tables): `base` the BAR0 offset of the first instance, two strides and counts, whether it is 64 bits wide (R9, R10), whether
it is shadowed (R245), the masks of its RW, W1C and W1S bits (R13), its reset value (R14), and the mask of bits held in
the AON domain, which conventional reset does not change (R14). -/
structure Reg where
  base : Nat
  stride1 : Nat
  count1 : Nat
  stride2 : Nat
  count2 : Nat
  wide : Bool
  shadowed : Bool
  rw : Nat
  w1c : Nat
  w1s : Nat
  reset : Nat
  aon : Nat
  deriving DecidableEq, Repr

/-- A named field of one register instance: `a` the BAR0 offset of its register, `lo` its lowest bit, `w` its width. -/
structure FRef where
  a : Nat
  lo : Nat
  w : Nat
  deriving DecidableEq, Repr

/-- Rows of the BOOT block. ID_PART: which ordering code and stepping the fuses say is the model's: ORDER = 0 (GLR5120-C), STEPPING = 1. DESIGN CHOICE (log 4). -/
def regsBoot : List Reg := [
  -- MODE_STATUS
  ⟨0x170200, 0x0, 1, 0x0, 1, false, false, 0x0, 0x0, 0x0, 0x1001F21, 0x0⟩,
  -- MODE_REQ
  ⟨0x170204, 0x0, 1, 0x0, 1, false, false, 0x0, 0x0, 0x0, 0x0, 0x0⟩,
  -- MODE_CTRL
  ⟨0x170208, 0x0, 1, 0x0, 1, false, false, 0x1FFFFFF, 0x0, 0x0, 0x13203E8, 0x0⟩,
  -- MODE_CAUSE
  ⟨0x17020C, 0x0, 1, 0x0, 1, false, false, 0x0, 0x10000, 0x0, 0x0, 0x0⟩,
  -- ID_DIE
  ⟨0x170000, 0x0, 1, 0x0, 1, true, false, 0x0, 0x0, 0x0, 0x0, 0x0⟩,
  -- ID_PKG_SERIAL
  ⟨0x170008, 0x0, 1, 0x0, 1, false, false, 0x0, 0x0, 0x0, 0x0, 0x0⟩,
  -- ID_PART
  ⟨0x17000C, 0x0, 1, 0x0, 1, false, false, 0x0, 0x0, 0x0, 0x15120, 0x0⟩,
  -- BOOT_STATUS
  ⟨0x170100, 0x0, 1, 0x0, 1, false, false, 0x0, 0x0, 0x0, 0x0, 0x0⟩,
  -- BOOT_FW_VER
  ⟨0x170104, 0x0, 1, 0x0, 1, false, false, 0x0, 0x0, 0x0, 0x0, 0x0⟩,
  -- BOOT_SVN
  ⟨0x170108, 0x0, 1, 0x0, 1, false, false, 0x0, 0x0, 0x0, 0x0, 0x0⟩,
  -- BOOT_TIME
  ⟨0x17010C, 0x0, 1, 0x0, 1, false, false, 0x0, 0x0, 0x0, 0x0, 0x0⟩,
  -- BOOT_HOURS
  ⟨0x170110, 0x0, 1, 0x0, 1, false, false, 0x0, 0x0, 0x0, 0x0, 0xFFFFFFFF⟩,
  -- BOOT_REFRESH
  ⟨0x170114, 0x0, 1, 0x0, 1, false, false, 0x0, 0x0, 0x0, 0x0, 0x1FFFF⟩,
  -- AGE_ISLAND
  ⟨0x170300, 0x4, 55, 0x0, 1, false, false, 0x0, 0x0, 0x0, 0x0, 0x0⟩,
  -- SEC_STATUS
  ⟨0x170400, 0x0, 1, 0x0, 1, false, false, 0x0, 0x0, 0x0, 0x10000, 0x0⟩,
  -- SEC_KEY_CTRL
  ⟨0x170404, 0x0, 1, 0x0, 1, false, false, 0x0, 0x0, 0x0, 0x0, 0x0⟩,
  -- SEC_KEY_RESULT
  ⟨0x170408, 0x0, 1, 0x0, 1, false, false, 0x0, 0x2, 0x0, 0x0, 0x0⟩,
  -- SEC_KEY_WIN
  ⟨0x170480, 0x4, 32, 0x0, 1, false, false, 0xFFFFFFFF, 0x0, 0x0, 0x0, 0x0⟩]

/-- Rows of the TRL block. TRL_PIN: the levels at reset are 0 and no pair is in line break. DESIGN CHOICE (log 5). -/
def regsTrl : List Reg := [
  -- TRL_POS
  ⟨0x40000, 0x100, 12, 0x0, 1, true, false, 0x0, 0x0, 0x0, 0x0, 0x0⟩,
  -- TRL_SPD
  ⟨0x40008, 0x100, 12, 0x0, 1, false, false, 0x0, 0x0, 0x0, 0x0, 0x0⟩,
  -- TRL_STATUS
  ⟨0x4000C, 0x100, 12, 0x0, 1, false, false, 0x0, 0xCD80, 0x0, 0x800, 0x0⟩,
  -- TRL_SOFT_MIN
  ⟨0x40010, 0x100, 12, 0x0, 1, true, false, 0xFFFFFFFFFFFFFF00, 0x0, 0x0, 0x8000000000000000, 0x0⟩,
  -- TRL_SOFT_MAX
  ⟨0x40018, 0x100, 12, 0x0, 1, true, false, 0xFFFFFFFFFFFFFF00, 0x0, 0x0, 0x7FFFFFFFFFFFFF00, 0x0⟩,
  -- TRL_PRESET
  ⟨0x40020, 0x100, 12, 0x0, 1, true, false, 0x0, 0x0, 0x0, 0x0, 0x0⟩,
  -- TRL_HOME_VAL
  ⟨0x40028, 0x100, 12, 0x0, 1, true, false, 0xFFFFFFFFFFFFFFFF, 0x0, 0x0, 0x0, 0x0⟩,
  -- TRL_HOMECAP
  ⟨0x40030, 0x100, 12, 0x0, 1, true, false, 0x0, 0x0, 0x0, 0x0, 0x0⟩,
  -- TRL_ZCAP
  ⟨0x40038, 0x100, 12, 0x0, 1, true, false, 0x0, 0x0, 0x0, 0x0, 0x0⟩,
  -- TRL_SPDCFG
  ⟨0x40040, 0x100, 12, 0x0, 1, false, false, 0xFFFFFF, 0x0, 0x0, 0x32400A, 0x0⟩,
  -- TRL_ZCFG
  ⟨0x40044, 0x100, 12, 0x0, 1, false, false, 0xFFFFFFFF, 0x0, 0x0, 0x4000000, 0x0⟩,
  -- TRL_CNT_ILLEGAL
  ⟨0x40048, 0x100, 12, 0x0, 1, false, false, 0x0, 0x0, 0x0, 0x0, 0x0⟩,
  -- TRL_CNT_Z
  ⟨0x4004C, 0x100, 12, 0x0, 1, false, false, 0x0, 0x0, 0x0, 0x0, 0x0⟩,
  -- TRL_VEN
  ⟨0x40850, 0x100, 4, 0x0, 1, false, false, 0x1, 0x0, 0x0, 0x0, 0x0⟩,
  -- TRL_VCFG
  ⟨0x40854, 0x100, 4, 0x0, 1, false, false, 0x7F, 0x0, 0x0, 0x0, 0x0⟩,
  -- TRL_VNUM
  ⟨0x40858, 0x100, 4, 0x0, 1, false, false, 0xFFFFFFFF, 0x0, 0x0, 0x1, 0x0⟩,
  -- TRL_VDEN
  ⟨0x4085C, 0x100, 4, 0x0, 1, false, false, 0xFFFFFFFF, 0x0, 0x0, 0x1, 0x0⟩,
  -- TRL_VOFFSET
  ⟨0x40860, 0x100, 4, 0x0, 1, true, false, 0xFFFFFFFFFFFFFFFF, 0x0, 0x0, 0x0, 0x0⟩,
  -- TRL_PORT_CFG
  ⟨0x41000, 0x40, 8, 0x0, 1, false, false, 0x3FFF, 0x0, 0x0, 0x100, 0x3FFF⟩,
  -- TRL_LB_CFG
  ⟨0x41004, 0x40, 8, 0x0, 1, false, false, 0xFFFF, 0x0, 0x0, 0xA, 0x0⟩,
  -- TRL_SER_CFG
  ⟨0x41008, 0x40, 8, 0x0, 1, false, false, 0x3FFFFFFF, 0x0, 0x0, 0x191818, 0x3FFFFFFF⟩,
  -- TRL_SER_RAW
  ⟨0x41010, 0x40, 8, 0x0, 1, true, false, 0x0, 0x0, 0x0, 0x0, 0x0⟩,
  -- TRL_PIN
  ⟨0x41018, 0x40, 8, 0x0, 1, false, false, 0x0, 0x0, 0x0, 0x0, 0x0⟩,
  -- TRL_ABS_OFFSET
  ⟨0x41020, 0x40, 8, 0x0, 1, true, false, 0xFFFFFFFFFFFFFFFF, 0x0, 0x0, 0x0, 0xFFFFFFFFFFFFFFFF⟩,
  -- TRL_HOME_CFG
  ⟨0x42000, 0x10, 8, 0x0, 1, false, false, 0xFFFF01FF, 0x0, 0x200, 0x640000, 0x0⟩,
  -- TRL_DIV_EN
  ⟨0x43000, 0x10, 4, 0x0, 1, false, false, 0x1, 0x0, 0x0, 0x0, 0x0⟩,
  -- TRL_DIV_CFG
  ⟨0x43004, 0x10, 4, 0x0, 1, false, false, 0x7FFF, 0x0, 0x0, 0x500, 0x0⟩,
  -- TRL_DIV_RATIO
  ⟨0x43008, 0x10, 4, 0x0, 1, false, false, 0xFFFFFFFF, 0x0, 0x0, 0x10001, 0x0⟩,
  -- TRL_DIV_STATUS
  ⟨0x4300C, 0x10, 4, 0x0, 1, false, false, 0x0, 0x10000, 0x0, 0x0, 0x0⟩]

/-- Rows of the TMB block. -/
def regsTmb : List Reg := [
  -- TMB_DOM_NOW
  ⟨0x60000, 0x100, 4, 0x0, 1, true, false, 0x0, 0x0, 0x0, 0x0, 0x0⟩,
  -- TMB_DOM_SET
  ⟨0x60008, 0x100, 4, 0x0, 1, true, false, 0x0, 0x0, 0x0, 0x0, 0x0⟩,
  -- TMB_DOM_ADJ
  ⟨0x60010, 0x100, 4, 0x0, 1, true, false, 0x0, 0x0, 0x0, 0x0, 0x0⟩,
  -- TMB_DOM_RATE
  ⟨0x60018, 0x100, 4, 0x0, 1, false, false, 0xFFFFFFFF, 0x0, 0x0, 0x0, 0x0⟩,
  -- TMB_DOM_CFG
  ⟨0x6001C, 0x100, 4, 0x0, 1, false, false, 0x3FFFF7F, 0x0, 0x0, 0x640400, 0x0⟩,
  -- TMB_DOM_STATUS
  ⟨0x60020, 0x100, 4, 0x0, 1, false, false, 0x0, 0x10, 0x0, 0x0, 0x0⟩,
  -- TMB_DOM_SERVO
  ⟨0x60024, 0x100, 4, 0x0, 1, false, false, 0x3FFFFFFF, 0x0, 0x0, 0x20014114, 0x0⟩,
  -- TMB_DOM_OFFSET
  ⟨0x60028, 0x100, 4, 0x0, 1, false, false, 0x0, 0x0, 0x0, 0x0, 0x0⟩,
  -- TMB_DOM_HO_RATE
  ⟨0x6002C, 0x100, 4, 0x0, 1, false, false, 0x0, 0x0, 0x0, 0x0, 0x0⟩,
  -- TMB_DOM_STEP_OLD
  ⟨0x60030, 0x100, 4, 0x0, 1, true, false, 0x0, 0x0, 0x0, 0x0, 0x0⟩,
  -- TMB_DOM_STEP_NEW
  ⟨0x60038, 0x100, 4, 0x0, 1, true, false, 0x0, 0x0, 0x0, 0x0, 0x0⟩,
  -- TMB_SNAP_CTRL
  ⟨0x60400, 0x0, 1, 0x0, 1, false, false, 0x0, 0x0, 0x0, 0x0, 0x0⟩,
  -- TMB_SNAP_D
  ⟨0x60408, 0x8, 4, 0x0, 1, true, false, 0x0, 0x0, 0x0, 0x0, 0x0⟩,
  -- TMB_SNAP_FRAC
  ⟨0x60428, 0x0, 1, 0x0, 1, false, false, 0x0, 0x0, 0x0, 0x0, 0x0⟩,
  -- TMB_SNAP_DUC
  ⟨0x60430, 0x0, 1, 0x0, 1, true, false, 0x0, 0x0, 0x0, 0x0, 0x0⟩,
  -- TMB_PORT_PTP
  ⟨0x61000, 0x40, 32, 0x0, 1, false, false, 0xFF01FF, 0x0, 0x0, 0x0, 0x0⟩,
  -- TMB_PORT_INGRESS_ADJ
  ⟨0x61004, 0x40, 32, 0x0, 1, false, false, 0xFFFFFFFF, 0x0, 0x0, 0x0, 0x0⟩,
  -- TMB_PORT_EGRESS_ADJ
  ⟨0x61008, 0x40, 32, 0x0, 1, false, false, 0xFFFFFFFF, 0x0, 0x0, 0x0, 0x0⟩,
  -- TMB_PORT_DELAY_ASYM
  ⟨0x6100C, 0x40, 32, 0x0, 1, false, false, 0xFFFFFFFF, 0x0, 0x0, 0x0, 0x0⟩,
  -- TMB_PORT_PATH
  ⟨0x61010, 0x40, 32, 0x0, 1, false, false, 0xFFFFFFFF, 0x0, 0x0, 0x10080020, 0x0⟩,
  -- TMB_PORT_STATUS
  ⟨0x61014, 0x40, 32, 0x0, 1, false, false, 0x0, 0x2, 0x0, 0x0, 0x0⟩,
  -- TMB_PORT_MPD
  ⟨0x61018, 0x40, 32, 0x0, 1, false, false, 0x0, 0x0, 0x0, 0x0, 0x0⟩,
  -- TMB_TXQ_ID
  ⟨0x61020, 0x40, 32, 0x0, 1, true, false, 0x0, 0x0, 0x0, 0x0, 0x0⟩,
  -- TMB_TXQ_TS
  ⟨0x61028, 0x40, 32, 0x0, 1, true, false, 0x0, 0x0, 0x0, 0x0, 0x0⟩,
  -- TMB_TXQ_STATUS
  ⟨0x61030, 0x40, 32, 0x0, 1, false, false, 0x0, 0x80, 0x0, 0x0, 0x0⟩,
  -- TPG_EN
  ⟨0x62000, 0x40, 16, 0x0, 1, false, false, 0x1, 0x0, 0x0, 0x0, 0x0⟩,
  -- TPG_CFG
  ⟨0x62004, 0x40, 16, 0x0, 1, false, false, 0x1F, 0x0, 0x0, 0x0, 0x0⟩,
  -- TPG_START
  ⟨0x62008, 0x40, 16, 0x0, 1, true, false, 0xFFFFFFFFFFFFFFFF, 0x0, 0x0, 0x0, 0x0⟩,
  -- TPG_PERIOD
  ⟨0x62010, 0x40, 16, 0x0, 1, true, false, 0xFFFFFFFFFFFF, 0x0, 0x0, 0x0, 0x0⟩,
  -- TPG_WIDTH
  ⟨0x62018, 0x40, 16, 0x0, 1, false, false, 0xFFFFFFFF, 0x0, 0x0, 0x4, 0x0⟩,
  -- TPG_COUNT
  ⟨0x6201C, 0x40, 16, 0x0, 1, false, false, 0xFFFFFFFF, 0x0, 0x0, 0x0, 0x0⟩,
  -- TPG_STATUS
  ⟨0x62020, 0x40, 16, 0x0, 1, false, false, 0x0, 0x7, 0x0, 0x0, 0x0⟩,
  -- TPG_SKIPPED
  ⟨0x62024, 0x40, 16, 0x0, 1, false, false, 0x0, 0x0, 0x0, 0x0, 0x0⟩,
  -- TPG_FIRED
  ⟨0x62028, 0x40, 16, 0x0, 1, false, false, 0x0, 0x0, 0x0, 0x0, 0x0⟩]

/-- Rows of the STK block. -/
def regsStk : List Reg := [
  -- STK_EN
  ⟨0x50000, 0x100, 64, 0x0, 1, false, false, 0x1, 0x0, 0x0, 0x0, 0x0⟩,
  -- STK_CTRL
  ⟨0x50004, 0x100, 64, 0x0, 1, false, true, 0xFFF, 0x0, 0x0, 0x0, 0x0⟩,
  -- STK_LEAD
  ⟨0x50008, 0x100, 64, 0x0, 1, false, true, 0xFFFFF, 0x0, 0x0, 0x0, 0x0⟩,
  -- STK_TBL_BASE
  ⟨0x5000C, 0x100, 64, 0x0, 1, false, true, 0x1FFFF, 0x0, 0x0, 0x0, 0x0⟩,
  -- STK_TBL_LEN
  ⟨0x50010, 0x100, 64, 0x0, 1, false, true, 0x3FFFF, 0x0, 0x0, 0x0, 0x0⟩,
  -- STK_CYCLE
  ⟨0x50018, 0x100, 64, 0x0, 1, true, true, 0x7FFFFFFFFFFFFFFF, 0x0, 0x0, 0x0, 0x0⟩,
  -- STK_OFFSET
  ⟨0x50020, 0x100, 64, 0x0, 1, true, true, 0xFFFFFFFFFFFFFFFF, 0x0, 0x0, 0x0, 0x0⟩,
  -- STK_OFFSET_NOW
  ⟨0x50028, 0x100, 64, 0x0, 1, true, false, 0x0, 0x0, 0x0, 0x0, 0x0⟩,
  -- STK_ARMED_TGT
  ⟨0x50030, 0x100, 64, 0x0, 1, true, false, 0x0, 0x0, 0x0, 0x0, 0x0⟩,
  -- STK_STATUS
  ⟨0x50038, 0x100, 64, 0x0, 1, false, false, 0x0, 0xC, 0x0, 0x0, 0x0⟩,
  -- STK_ARMED_K
  ⟨0x5003C, 0x100, 64, 0x0, 1, false, false, 0x0, 0x0, 0x0, 0x0, 0x0⟩,
  -- STK_CNT_FIRE
  ⟨0x50040, 0x100, 64, 0x0, 1, false, false, 0x0, 0x0, 0x0, 0x0, 0x0⟩,
  -- STK_CNT_SKIP
  ⟨0x50044, 0x100, 64, 0x0, 1, false, false, 0x0, 0x0, 0x0, 0x0, 0x0⟩,
  -- STK_CNT_LATEFIRE
  ⟨0x50048, 0x100, 64, 0x0, 1, false, false, 0x0, 0x0, 0x0, 0x0, 0x0⟩,
  -- STK_REARM
  ⟨0x5004C, 0x100, 64, 0x0, 1, false, false, 0x0, 0x0, 0x0, 0x0, 0x0⟩,
  -- STK_LAST_POS
  ⟨0x50050, 0x100, 64, 0x0, 1, true, false, 0x0, 0x0, 0x0, 0x0, 0x0⟩,
  -- STK_LAST_FIRE
  ⟨0x50058, 0x100, 64, 0x0, 1, false, false, 0x0, 0x0, 0x0, 0x0, 0x0⟩,
  -- STK_TRG_CFG
  ⟨0x54000, 0x10, 24, 0x0, 1, false, false, 0x1FFF, 0x0, 0x0, 0x800, 0x0⟩,
  -- STK_TRG_WIDTH
  ⟨0x54004, 0x10, 24, 0x0, 1, false, false, 0xFFFFF, 0x0, 0x0, 0x64, 0x0⟩,
  -- STK_TRG_SKEW
  ⟨0x54008, 0x10, 24, 0x0, 1, false, false, 0xFF, 0x0, 0x0, 0x0, 0x0⟩,
  -- STK_TRG_STATUS
  ⟨0x5400C, 0x10, 24, 0x0, 1, false, false, 0x0, 0x2, 0x0, 0x0, 0x0⟩,
  -- STK_CXP_CFG
  ⟨0x55000, 0x10, 32, 0x0, 1, false, false, 0x3FF, 0x0, 0x0, 0x0, 0x0⟩,
  -- STK_CXP_WIDTH
  ⟨0x55004, 0x10, 32, 0x0, 1, false, false, 0xFFFFF, 0x0, 0x0, 0x64, 0x0⟩,
  -- STK_CXP_STATUS
  ⟨0x55008, 0x10, 32, 0x0, 1, false, false, 0x0, 0x1, 0x0, 0x2, 0x0⟩,
  -- STK_CXP_LASTDLY
  ⟨0x5500C, 0x10, 32, 0x0, 1, false, false, 0x0, 0x0, 0x0, 0x0, 0x0⟩,
  -- STK_TW_ADDR
  ⟨0x56000, 0x0, 1, 0x0, 1, false, false, 0x1FFFF, 0x0, 0x0, 0x0, 0x0⟩,
  -- STK_TW_DATA
  ⟨0x56010, 0x4, 4, 0x0, 1, false, false, 0xFFFFFFFF, 0x0, 0x0, 0x0, 0x0⟩]

/-- Rows of the CAM block. -/
def regsCam : List Reg := [
  -- CAM_LANE_EN
  ⟨0x70000, 0x2000, 32, 0x0, 1, false, false, 0x1, 0x0, 0x0, 0x0, 0x0⟩,
  -- CAM_LANE_CFG
  ⟨0x70004, 0x2000, 32, 0x0, 1, false, false, 0x7FF, 0x0, 0x0, 0x0, 0x0⟩,
  -- CAM_LANE_STATUS
  ⟨0x70008, 0x2000, 32, 0x0, 1, false, false, 0x0, 0x0, 0x0, 0x0, 0x0⟩,
  -- CAM_CNT_CRC
  ⟨0x70010, 0x2000, 32, 0x0, 1, false, false, 0x0, 0x0, 0x0, 0x0, 0x0⟩,
  -- CAM_CNT_CODE
  ⟨0x70014, 0x2000, 32, 0x0, 1, false, false, 0x0, 0x0, 0x0, 0x0, 0x0⟩,
  -- CAM_CNT_ALIGN
  ⟨0x70018, 0x2000, 32, 0x0, 1, false, false, 0x0, 0x0, 0x0, 0x0, 0x0⟩,
  -- CAM_CNT_DROP
  ⟨0x7001C, 0x2000, 32, 0x0, 1, false, false, 0x0, 0x0, 0x0, 0x0, 0x0⟩,
  -- CAM_CNT_UNSUP
  ⟨0x70020, 0x2000, 32, 0x0, 1, false, false, 0x0, 0x0, 0x0, 0x0, 0x0⟩,
  -- CAM_CNT_FILTERED
  ⟨0x70024, 0x2000, 32, 0x0, 1, false, false, 0x0, 0x0, 0x0, 0x0, 0x0⟩,
  -- CAM_CNT_RESEND_REQ
  ⟨0x70028, 0x2000, 32, 0x0, 1, false, false, 0x0, 0x0, 0x0, 0x0, 0x0⟩,
  -- CAM_CNT_RESEND_FAIL
  ⟨0x7002C, 0x2000, 32, 0x0, 1, false, false, 0x0, 0x0, 0x0, 0x0, 0x0⟩,
  -- CAM_CNT_CLR
  ⟨0x70030, 0x2000, 32, 0x0, 1, false, false, 0x0, 0x0, 0x0, 0x0, 0x0⟩,
  -- CAM_SKEW
  ⟨0x70034, 0x2000, 32, 0x0, 1, false, false, 0x0, 0x0, 0x0, 0x0, 0x0⟩,
  -- CAM_ETH_MAC
  ⟨0x70040, 0x2000, 32, 0x0, 1, true, false, 0xFFFFFFFFFFFF, 0x0, 0x0, 0x0, 0x0⟩,
  -- CAM_ETH_IP
  ⟨0x70048, 0x2000, 32, 0x0, 1, false, false, 0xFFFFFFFF, 0x0, 0x0, 0x0, 0x0⟩,
  -- CAM_ETH_MASK
  ⟨0x7004C, 0x2000, 32, 0x0, 1, false, false, 0xFFFFFFFF, 0x0, 0x0, 0x0, 0x0⟩,
  -- CAM_ETH_CFG
  ⟨0x70050, 0x2000, 32, 0x0, 1, false, false, 0x7, 0x0, 0x0, 0x2, 0x0⟩,
  -- CAM_CTL_CMD
  ⟨0x70100, 0x2000, 32, 0x0, 1, false, false, 0x0, 0x0, 0x0, 0x0, 0x0⟩,
  -- CAM_CTL_ADDR
  ⟨0x70108, 0x2000, 32, 0x0, 1, true, false, 0xFFFFFFFF, 0x0, 0x0, 0x0, 0x0⟩,
  -- CAM_CTL_STATUS
  ⟨0x70110, 0x2000, 32, 0x0, 1, false, false, 0x0, 0x2, 0x0, 0x0, 0x0⟩,
  -- CAM_CTL_TIMEOUT
  ⟨0x70114, 0x2000, 32, 0x0, 1, false, false, 0xFFFF, 0x0, 0x0, 0xC8, 0x0⟩,
  -- CAM_CTL_BUF
  ⟨0x70200, 0x2000, 32, 0x4, 64, false, false, 0xFFFFFFFF, 0x0, 0x0, 0x0, 0x0⟩,
  -- CAM_RAW_RX
  ⟨0x70400, 0x2000, 32, 0x0, 1, true, false, 0x0, 0x0, 0x0, 0x0, 0x0⟩,
  -- CAM_RAW_RX_POP
  ⟨0x70408, 0x2000, 32, 0x0, 1, false, false, 0x0, 0x0, 0x0, 0x0, 0x0⟩,
  -- CAM_RAW_RX_STATUS
  ⟨0x7040C, 0x2000, 32, 0x0, 1, false, false, 0x0, 0x10, 0x0, 0x0, 0x0⟩,
  -- CAM_RAW_TX_CTRL
  ⟨0x70410, 0x2000, 32, 0x0, 1, false, false, 0x0, 0x0, 0x0, 0x0, 0x0⟩,
  -- CAM_RAW_TX_STATUS
  ⟨0x70414, 0x2000, 32, 0x0, 1, false, false, 0x0, 0x6, 0x0, 0x0, 0x0⟩,
  -- CAM_RAW_RX_BUF
  ⟨0x70800, 0x2000, 32, 0x4, 512, false, false, 0x0, 0x0, 0x0, 0x0, 0x0⟩,
  -- CAM_RAW_TX_BUF
  ⟨0x71800, 0x2000, 32, 0x4, 512, false, false, 0xFFFFFFFF, 0x0, 0x0, 0x0, 0x0⟩,
  -- CAM_STR_EN
  ⟨0x71000, 0x2000, 32, 0x100, 2, false, false, 0x1, 0x0, 0x0, 0x0, 0x0⟩,
  -- CAM_STR_BIND
  ⟨0x71004, 0x2000, 32, 0x100, 2, false, false, 0x7FFFFFFF, 0x0, 0x0, 0x0, 0x0⟩,
  -- CAM_STR_FMT
  ⟨0x71008, 0x2000, 32, 0x100, 2, false, true, 0x7F, 0x0, 0x0, 0x40, 0x0⟩,
  -- CAM_STR_GEOM
  ⟨0x7100C, 0x2000, 32, 0x100, 2, false, true, 0xFFFFFFFF, 0x0, 0x0, 0x0, 0x0⟩,
  -- CAM_STR_RESEND
  ⟨0x71010, 0x2000, 32, 0x100, 2, false, false, 0xFFFFFFF, 0x0, 0x0, 0x14332, 0x0⟩,
  -- CAM_STR_STATUS
  ⟨0x71014, 0x2000, 32, 0x100, 2, false, false, 0x0, 0xA, 0x0, 0x0, 0x0⟩,
  -- CAM_CNT_LINES
  ⟨0x71018, 0x2000, 32, 0x100, 2, false, false, 0x0, 0x0, 0x0, 0x0, 0x0⟩,
  -- CAM_CNT_MISSING
  ⟨0x7101C, 0x2000, 32, 0x100, 2, false, false, 0x0, 0x0, 0x0, 0x0, 0x0⟩,
  -- CAM_CNT_IMAGES
  ⟨0x71020, 0x2000, 32, 0x100, 2, false, false, 0x0, 0x0, 0x0, 0x0, 0x0⟩,
  -- CAM_CNT_SIZE
  ⟨0x71024, 0x2000, 32, 0x100, 2, false, false, 0x0, 0x0, 0x0, 0x0, 0x0⟩,
  -- CAM_STR_CAMTS
  ⟨0x71028, 0x2000, 32, 0x100, 2, true, false, 0x0, 0x0, 0x0, 0x0, 0x0⟩]

/-- Rows of the FRM block. -/
def regsFrm : List Reg := [
  -- FRM_STR_EN
  ⟨0xB0000, 0x100, 64, 0x0, 1, false, false, 0x1, 0x0, 0x0, 0x0, 0x0⟩,
  -- FRM_STR_BIND
  ⟨0xB0004, 0x100, 64, 0x0, 1, false, true, 0xFFFFFF, 0x0, 0x0, 0x0, 0x0⟩,
  -- FRM_STR_CUT
  ⟨0xB0008, 0x100, 64, 0x0, 1, false, true, 0xFFFFF, 0x0, 0x0, 0x1, 0x0⟩,
  -- FRM_STR_XDLY
  ⟨0xB000C, 0x100, 64, 0x0, 1, false, true, 0xFFFFF, 0x0, 0x0, 0x0, 0x0⟩,
  -- FRM_STR_ORIGIN
  ⟨0xB0010, 0x100, 64, 0x0, 1, true, true, 0xFFFFFFFFFFFFFFFF, 0x0, 0x0, 0x0, 0x0⟩,
  -- FRM_STR_REPEAT
  ⟨0xB0018, 0x100, 64, 0x0, 1, true, true, 0x7FFFFFFFFFFFFFFF, 0x0, 0x0, 0x0, 0x0⟩,
  -- FRM_STR_STEPMAX
  ⟨0xB0020, 0x100, 64, 0x0, 1, false, true, 0xFFFFFFFF, 0x0, 0x0, 0x100000, 0x0⟩,
  -- FRM_STR_MAXLINES
  ⟨0xB0024, 0x100, 64, 0x0, 1, false, true, 0xFFFF, 0x0, 0x0, 0x1000, 0x0⟩,
  -- FRM_STR_RSMP
  ⟨0xB0028, 0x100, 64, 0x0, 1, false, true, 0xFFFFFFFF, 0x0, 0x0, 0x1000000, 0x0⟩,
  -- FRM_STR_FILL
  ⟨0xB002C, 0x100, 64, 0x0, 1, false, true, 0xFFFFFFF, 0x0, 0x0, 0x40000, 0x0⟩,
  -- FRM_SLOT_BASE
  ⟨0xB0030, 0x100, 64, 0x0, 1, true, false, 0x7FFFFF000, 0x0, 0x0, 0x0, 0x0⟩,
  -- FRM_SLOT_CFG
  ⟨0xB0038, 0x100, 64, 0x0, 1, false, false, 0xFFFFFF, 0x0, 0x0, 0x0, 0x0⟩,
  -- FRM_SLOT_COUNT
  ⟨0xB003C, 0x100, 64, 0x0, 1, false, false, 0xFFFF, 0x0, 0x0, 0x0, 0x0⟩,
  -- FRM_STR_MAXAGE
  ⟨0xB0040, 0x100, 64, 0x0, 1, false, false, 0xFFFF, 0x0, 0x0, 0x0, 0x0⟩,
  -- FRM_STR_STATUS
  ⟨0xB0044, 0x100, 64, 0x0, 1, false, false, 0x0, 0xF8, 0x0, 0x0, 0x0⟩,
  -- FRM_STR_SEQ
  ⟨0xB0048, 0x100, 64, 0x0, 1, true, false, 0x0, 0x0, 0x0, 0x0, 0x0⟩,
  -- FRM_OPEN_BOUND
  ⟨0xB0050, 0x100, 64, 0x0, 1, true, false, 0x0, 0x0, 0x0, 0x0, 0x0⟩,
  -- FRM_CNT_FRAMES
  ⟨0xB0058, 0x100, 64, 0x0, 1, false, false, 0x0, 0x0, 0x0, 0x0, 0x0⟩,
  -- FRM_CNT_DROPPED
  ⟨0xB005C, 0x100, 64, 0x0, 1, false, false, 0x0, 0x0, 0x0, 0x0, 0x0⟩,
  -- FRM_CNT_NOSAMPLE
  ⟨0xB0060, 0x100, 64, 0x0, 1, false, false, 0x0, 0x0, 0x0, 0x0, 0x0⟩,
  -- FRM_CNT_STALE
  ⟨0xB0064, 0x100, 64, 0x0, 1, false, false, 0x0, 0x0, 0x0, 0x0, 0x0⟩,
  -- FRM_CNT_LOSTSAMP
  ⟨0xB0068, 0x100, 64, 0x0, 1, false, false, 0x0, 0x0, 0x0, 0x0, 0x0⟩,
  -- FRM_CNT_STEP
  ⟨0xB006C, 0x100, 64, 0x0, 1, false, false, 0x0, 0x0, 0x0, 0x0, 0x0⟩,
  -- FRM_CNT_CLR
  ⟨0xB0070, 0x100, 64, 0x0, 1, false, false, 0x0, 0x0, 0x0, 0x0, 0x0⟩,
  -- FRM_TAG_VER
  ⟨0xB4000, 0x0, 1, 0x0, 1, false, false, 0x0, 0x0, 0x0, 0x1, 0x0⟩]

/-- Rows of the MLK block. -/
def regsMlk : List Reg := [
  -- MLK_EN
  ⟨0xC0000, 0x100, 32, 0x0, 1, false, false, 0x1, 0x0, 0x0, 0x0, 0x0⟩,
  -- MLK_SRC
  ⟨0xC0004, 0x100, 32, 0x0, 1, false, true, 0xFF7F, 0x0, 0x0, 0x8000, 0x0⟩,
  -- MLK_COLS
  ⟨0xC0008, 0x100, 32, 0x0, 1, false, true, 0xFFFFFFFF, 0x0, 0x0, 0x0, 0x0⟩,
  -- MLK_QUAL
  ⟨0xC000C, 0x100, 32, 0x0, 1, false, true, 0xFFFFFFFF, 0x0, 0x0, 0x40020001, 0x0⟩,
  -- MLK_ORIGIN
  ⟨0xC0010, 0x100, 32, 0x0, 1, true, true, 0xFFFFFFFFFFFFFFFF, 0x0, 0x0, 0x0, 0x0⟩,
  -- MLK_REPEAT
  ⟨0xC0018, 0x100, 32, 0x0, 1, true, true, 0x7FFFFFFFFFFFFFFF, 0x0, 0x0, 0x0, 0x0⟩,
  -- MLK_WIN_BEFORE
  ⟨0xC0020, 0x100, 32, 0x0, 1, false, true, 0xFFFFFFFF, 0x0, 0x0, 0x10000, 0x0⟩,
  -- MLK_WIN_AFTER
  ⟨0xC0024, 0x100, 32, 0x0, 1, false, true, 0xFFFFFFFF, 0x0, 0x0, 0x10000, 0x0⟩,
  -- MLK_CUT_OFS
  ⟨0xC0028, 0x100, 32, 0x0, 1, false, true, 0xFFFFFFFF, 0x0, 0x0, 0x10000, 0x0⟩,
  -- MLK_GAIN
  ⟨0xC002C, 0x100, 32, 0x0, 1, false, true, 0xFFFFFFFF, 0x0, 0x0, 0x10008000, 0x0⟩,
  -- MLK_LOCK_THR
  ⟨0xC0030, 0x100, 32, 0x0, 1, false, true, 0xFFFFFFFF, 0x0, 0x0, 0x4000400, 0x0⟩,
  -- MLK_UNLOCK_THR
  ⟨0xC0034, 0x100, 32, 0x0, 1, false, true, 0xFFFFFFFF, 0x0, 0x0, 0x8001000, 0x0⟩,
  -- MLK_CTRL
  ⟨0xC0038, 0x100, 32, 0x0, 1, false, true, 0x1, 0x0, 0x0, 0x0, 0x0⟩,
  -- MLK_STATUS
  ⟨0xC0040, 0x100, 32, 0x0, 1, false, false, 0x0, 0x8, 0x0, 0x0, 0x0⟩,
  -- MLK_PRED
  ⟨0xC0048, 0x100, 32, 0x0, 1, true, false, 0x0, 0x0, 0x0, 0x0, 0x0⟩,
  -- MLK_RHAT
  ⟨0xC0050, 0x100, 32, 0x0, 1, true, false, 0x0, 0x0, 0x0, 0x0, 0x0⟩,
  -- MLK_TRIM
  ⟨0xC0058, 0x100, 32, 0x0, 1, false, false, 0x0, 0x0, 0x0, 0x0, 0x0⟩,
  -- MLK_ERR
  ⟨0xC005C, 0x100, 32, 0x0, 1, false, false, 0x0, 0x0, 0x0, 0x0, 0x0⟩,
  -- MLK_LAST_MARK
  ⟨0xC0060, 0x100, 32, 0x0, 1, true, false, 0x0, 0x0, 0x0, 0x0, 0x0⟩,
  -- MLK_CNT_MARKS
  ⟨0xC0068, 0x100, 32, 0x0, 1, false, false, 0x0, 0x0, 0x0, 0x0, 0x0⟩,
  -- MLK_CNT_MISS
  ⟨0xC006C, 0x100, 32, 0x0, 1, false, false, 0x0, 0x0, 0x0, 0x0, 0x0⟩,
  -- MLK_CNT_REJECT
  ⟨0xC0070, 0x100, 32, 0x0, 1, false, false, 0x0, 0x0, 0x0, 0x0, 0x0⟩,
  -- MLK_CNT_EXTRA
  ⟨0xC0074, 0x100, 32, 0x0, 1, false, false, 0x0, 0x0, 0x0, 0x0, 0x0⟩,
  -- MLK_CNT_CLR
  ⟨0xC0078, 0x100, 32, 0x0, 1, false, false, 0x0, 0x0, 0x0, 0x0, 0x0⟩]

/-- Rows of the CHG block. -/
def regsChg : List Reg := [
  -- CHG_COMMIT
  ⟨0xD0000, 0x0, 1, 0x0, 1, false, false, 0x0, 0x0, 0x0, 0x0, 0x0⟩,
  -- CHG_STATUS
  ⟨0xD0004, 0x0, 1, 0x0, 1, false, false, 0x0, 0xFC0, 0x0, 0x0, 0x0⟩,
  -- CHG_CFG
  ⟨0xD0008, 0x0, 1, 0x0, 1, false, false, 0x7FFFF, 0x0, 0x0, 0x0, 0x0⟩,
  -- CHG_AT_POS
  ⟨0xD0010, 0x0, 1, 0x0, 1, true, false, 0xFFFFFFFFFFFFFFFF, 0x0, 0x0, 0x0, 0x0⟩,
  -- CHG_AT_TIME
  ⟨0xD0018, 0x0, 1, 0x0, 1, true, false, 0xFFFFFFFFFFFFFFFF, 0x0, 0x0, 0x0, 0x0⟩,
  -- CHG_AT_MARKS
  ⟨0xD0020, 0x0, 1, 0x0, 1, false, false, 0xFFFF, 0x0, 0x0, 0x1, 0x0⟩,
  -- CHG_CONJ_LEAD
  ⟨0xD0024, 0x0, 1, 0x0, 1, false, false, 0xFFFFFFFF, 0x0, 0x0, 0x8000, 0x0⟩,
  -- CHG_CONJ_TRAIL
  ⟨0xD0028, 0x0, 1, 0x0, 1, false, false, 0xFFFFFFFF, 0x0, 0x0, 0x8000, 0x0⟩,
  -- CHG_CONJ_LIMIT
  ⟨0xD002C, 0x0, 1, 0x0, 1, false, false, 0xFFFF, 0x0, 0x0, 0x3E8, 0x0⟩,
  -- CHG_JOB
  ⟨0xD0030, 0x0, 1, 0x0, 1, false, true, 0xFFFFFFFF, 0x0, 0x0, 0x0, 0x0⟩,
  -- CHG_RCP
  ⟨0xD0034, 0x0, 1, 0x0, 1, false, true, 0x3F, 0x0, 0x0, 0x0, 0x0⟩,
  -- CHG_H_POS
  ⟨0xD0038, 0x0, 1, 0x0, 1, true, false, 0x0, 0x0, 0x0, 0x0, 0x0⟩,
  -- CHG_H_TIME
  ⟨0xD0040, 0x0, 1, 0x0, 1, true, false, 0x0, 0x0, 0x0, 0x0, 0x0⟩,
  -- CHG_ARMED_POS
  ⟨0xD0048, 0x0, 1, 0x0, 1, true, false, 0x0, 0x0, 0x0, 0x0, 0x0⟩,
  -- CHG_COUNT
  ⟨0xD0050, 0x0, 1, 0x0, 1, false, false, 0x0, 0x0, 0x0, 0x0, 0x0⟩,
  -- CHG_CHAIN
  ⟨0xD0054, 0x0, 1, 0x0, 1, false, false, 0x0, 0xFFFF0000, 0x0, 0x0, 0x0⟩,
  -- CHG_RCP_STATE
  ⟨0xD0100, 0x4, 64, 0x0, 1, false, false, 0x0, 0x0, 0x0, 0x0, 0x0⟩]

/-- Rows of the PXE block. -/
def regsPxe : List Reg := [
  -- PXE_CAMP_EN
  ⟨0xE0000, 0x100, 16, 0x0, 1, false, false, 0x1, 0x0, 0x0, 0x0, 0x0⟩,
  -- PXE_CAMP_SPARE
  ⟨0xE0004, 0x100, 16, 0x0, 1, false, false, 0xFFFF, 0x0, 0x0, 0x0, 0x0⟩,
  -- PXE_CAMP_FAILED
  ⟨0xE0008, 0x100, 16, 0x0, 1, false, false, 0x0, 0x0, 0x0, 0x0, 0x0⟩,
  -- PXE_CAMP_PORT
  ⟨0xE000C, 0x100, 16, 0x0, 1, false, false, 0x0, 0x0, 0x0, 0x0, 0x0⟩,
  -- PXE_CNT_ECC_CORR
  ⟨0xE0010, 0x100, 16, 0x0, 1, false, false, 0x0, 0x0, 0x0, 0x0, 0x0⟩,
  -- PXE_CNT_ECC_UNC
  ⟨0xE0014, 0x100, 16, 0x0, 1, false, false, 0x0, 0x0, 0x0, 0x0, 0x0⟩,
  -- PXE_ENG_STATUS
  ⟨0xF0000, 0x10, 256, 0x0, 1, false, false, 0x0, 0x40, 0x0, 0x0, 0x0⟩,
  -- PXE_ENG_LOAD
  ⟨0xF0004, 0x10, 256, 0x0, 1, false, false, 0x0, 0x0, 0x0, 0x0, 0x0⟩,
  -- PXE_ENG_CNT_LINES
  ⟨0xF0008, 0x10, 256, 0x0, 1, false, false, 0x0, 0x0, 0x0, 0x0, 0x0⟩,
  -- PXE_CHAIN_BASE
  ⟨0x100000, 0x100, 64, 0x0, 1, true, true, 0x7FFFFFFC0, 0x0, 0x0, 0x0, 0x0⟩,
  -- PXE_CHAIN_GROUP
  ⟨0x100008, 0x100, 64, 0x0, 1, false, true, 0xFFFF, 0x0, 0x0, 0x0, 0x0⟩,
  -- PXE_STR_RATE
  ⟨0x10000C, 0x100, 64, 0x0, 1, false, true, 0xFFFFFF, 0x0, 0x0, 0x0, 0x0⟩,
  -- PXE_STR_FRATE
  ⟨0x100010, 0x100, 64, 0x0, 1, false, true, 0xFFFF, 0x0, 0x0, 0x0, 0x0⟩,
  -- PXE_STR_LAGMAX
  ⟨0x100014, 0x100, 64, 0x0, 1, false, true, 0xFFFF, 0x0, 0x0, 0x1000, 0x0⟩,
  -- PXE_STR_STATUS
  ⟨0x100018, 0x100, 64, 0x0, 1, false, false, 0x0, 0x500, 0x0, 0x0, 0x0⟩,
  -- PXE_STR_LAG
  ⟨0x10001C, 0x100, 64, 0x0, 1, false, false, 0x0, 0x0, 0x0, 0x0, 0x0⟩,
  -- PXE_CNT_FRAMES
  ⟨0x100020, 0x100, 64, 0x0, 1, false, false, 0x0, 0x0, 0x0, 0x0, 0x0⟩,
  -- PXE_CNT_DROP
  ⟨0x100024, 0x100, 64, 0x0, 1, false, false, 0x0, 0x0, 0x0, 0x0, 0x0⟩,
  -- PXE_CNT_CAND
  ⟨0x100028, 0x100, 64, 0x0, 1, false, false, 0x0, 0x0, 0x0, 0x0, 0x0⟩,
  -- PXE_CNT_UNREF
  ⟨0x10002C, 0x100, 64, 0x0, 1, false, false, 0x0, 0x0, 0x0, 0x0, 0x0⟩,
  -- PXE_STR_RATE_MEAS
  ⟨0x100030, 0x100, 64, 0x0, 1, false, false, 0x0, 0x0, 0x0, 0x0, 0x0⟩,
  -- PXE_CNT_CLR
  ⟨0x100034, 0x100, 64, 0x0, 1, false, false, 0x0, 0x0, 0x0, 0x0, 0x0⟩,
  -- PXE_LIB_VER
  ⟨0x110000, 0x0, 1, 0x0, 1, false, false, 0x0, 0x0, 0x0, 0x0, 0x0⟩,
  -- PXE_CHK
  ⟨0x110008, 0x0, 1, 0x0, 1, false, false, 0x0, 0x0, 0x0, 0x0, 0x0⟩,
  -- PXE_LIB_KVER
  ⟨0x110100, 0x4, 256, 0x0, 1, false, false, 0x0, 0x0, 0x0, 0x0, 0x0⟩]

/-- Rows of the DLV block. -/
def regsDlv : List Reg := [
  -- DLV_CTRL
  ⟨0x120000, 0x0, 1, 0x0, 1, false, false, 0x0, 0x0, 0x0, 0x0, 0x0⟩,
  -- DLV_STATUS
  ⟨0x120004, 0x0, 1, 0x0, 1, false, false, 0x0, 0x6, 0x0, 0x0, 0x0⟩,
  -- DLV_QCTX_BASE
  ⟨0x120008, 0x0, 1, 0x0, 1, true, false, 0x7FC000000, 0x0, 0x0, 0x0, 0x0⟩,
  -- DLV_STAGE
  ⟨0x120010, 0x0, 1, 0x0, 1, false, false, 0x7, 0x0, 0x0, 0x4, 0x0⟩,
  -- DLV_QCMD
  ⟨0x120020, 0x0, 1, 0x0, 1, false, false, 0x0, 0x0, 0x0, 0x0, 0x0⟩,
  -- DLV_QCMD_STATUS
  ⟨0x120024, 0x0, 1, 0x0, 1, false, false, 0x0, 0x2, 0x0, 0x0, 0x0⟩,
  -- DLV_QWIN
  ⟨0x120040, 0x4, 16, 0x0, 1, false, false, 0xFFFFFFFF, 0x0, 0x0, 0x0, 0x0⟩,
  -- DLV_EVT_ROUTE
  ⟨0x120080, 0x8, 4, 0x0, 1, true, false, 0xFFFFFFFF00FFFFFF, 0x0, 0x0, 0x0, 0x0⟩,
  -- DLV_CNT_ITEMS
  ⟨0x1200C0, 0x0, 1, 0x0, 1, false, false, 0x0, 0x0, 0x0, 0x0, 0x0⟩,
  -- DLV_CNT_DROP
  ⟨0x1200C4, 0x0, 1, 0x0, 1, false, false, 0x0, 0x0, 0x0, 0x0, 0x0⟩,
  -- DLV_CNT_INACTIVE
  ⟨0x1200C8, 0x0, 1, 0x0, 1, false, false, 0x0, 0x0, 0x0, 0x0, 0x0⟩,
  -- DLV_CNT_EVLOST
  ⟨0x1200CC, 0x0, 1, 0x0, 1, false, false, 0x0, 0x0, 0x0, 0x0, 0x0⟩,
  -- DLV_CNT_MISS
  ⟨0x1200D0, 0x0, 1, 0x0, 1, false, false, 0x0, 0x0, 0x0, 0x0, 0x0⟩,
  -- DLV_CNT_BYTES
  ⟨0x1200D8, 0x0, 1, 0x0, 1, true, false, 0x0, 0x0, 0x0, 0x0, 0x0⟩,
  -- DLV_CNT_CLR
  ⟨0x1200E0, 0x0, 1, 0x0, 1, false, false, 0x0, 0x0, 0x0, 0x0, 0x0⟩,
  -- DLV_XOFF_CFG
  ⟨0x120100, 0x4, 8, 0x0, 1, false, false, 0x3, 0x0, 0x0, 0x0, 0x0⟩,
  -- DLV_STR_FQ
  ⟨0x121000, 0x10, 64, 0x0, 1, false, true, 0x1FFFFF, 0x0, 0x0, 0x0, 0x0⟩,
  -- DLV_STR_CQ
  ⟨0x121004, 0x10, 64, 0x0, 1, false, true, 0x1FFFFF, 0x0, 0x0, 0x0, 0x0⟩,
  -- DLV_STR_CONTENT
  ⟨0x121008, 0x10, 64, 0x0, 1, false, true, 0x1F, 0x0, 0x0, 0x5, 0x0⟩,
  -- DLV_GRP_EN
  ⟨0x124000, 0x40, 256, 0x0, 1, false, false, 0x1, 0x0, 0x0, 0x0, 0x0⟩,
  -- DLV_GRP_CFG
  ⟨0x124004, 0x40, 256, 0x0, 1, false, false, 0xFFFF00FF, 0x0, 0x0, 0x0, 0x0⟩,
  -- DLV_GRP_HI
  ⟨0x124008, 0x40, 256, 0x0, 1, false, false, 0xFFFFFFFF, 0x0, 0x0, 0x10000, 0x0⟩,
  -- DLV_GRP_LO
  ⟨0x12400C, 0x40, 256, 0x0, 1, false, false, 0xFFFFFFFF, 0x0, 0x0, 0x8000, 0x0⟩,
  -- DLV_GRP_LEVEL
  ⟨0x124010, 0x40, 256, 0x0, 1, false, false, 0x0, 0x0, 0x0, 0x0, 0x0⟩,
  -- DLV_GRP_STATUS
  ⟨0x124014, 0x40, 256, 0x0, 1, false, false, 0x0, 0x78, 0x0, 0x0, 0x0⟩,
  -- DLV_GRP_FIFO
  ⟨0x124018, 0x40, 256, 0x0, 1, true, false, 0x0, 0x0, 0x0, 0x0, 0x0⟩,
  -- DLV_GRP_FIFO_WMARK
  ⟨0x124020, 0x40, 256, 0x0, 1, false, false, 0x7F7F, 0x0, 0x0, 0x1030, 0x0⟩,
  -- DLV_GRP_FIFO_LEVEL
  ⟨0x124024, 0x40, 256, 0x0, 1, false, false, 0x0, 0x0, 0x0, 0x0, 0x0⟩,
  -- DLV_GRP_CNT_DROP
  ⟨0x124028, 0x40, 256, 0x0, 1, false, false, 0x0, 0x0, 0x0, 0x0, 0x0⟩,
  -- DLV_GRP_CNT_LOST
  ⟨0x12402C, 0x40, 256, 0x0, 1, false, false, 0x0, 0x0, 0x0, 0x0, 0x0⟩]

/-- Rows of the DMA block. -/
def regsDma : List Reg := [
  -- DMA_STATUS
  ⟨0x130000, 0x0, 1, 0x0, 1, false, false, 0x0, 0x1, 0x0, 0x0, 0x0⟩,
  -- DMA_HALT_ADDR
  ⟨0x130008, 0x0, 1, 0x0, 1, true, false, 0x0, 0x0, 0x0, 0x0, 0x0⟩,
  -- DMA_OUTSTANDING
  ⟨0x130010, 0x0, 1, 0x0, 1, false, false, 0x0, 0x0, 0x0, 0x0, 0x0⟩,
  -- DMA_CNT_BOUND
  ⟨0x130014, 0x0, 1, 0x0, 1, false, false, 0x0, 0x0, 0x0, 0x0, 0x0⟩,
  -- DMA_CNT_HALT_MORE
  ⟨0x130018, 0x0, 1, 0x0, 1, false, false, 0x0, 0x0, 0x0, 0x0, 0x0⟩,
  -- DMA_STAGE_USE
  ⟨0x13001C, 0x0, 1, 0x0, 1, false, false, 0x0, 0x0, 0x0, 0x0, 0x0⟩,
  -- DMA_CH_EN
  ⟨0x131000, 0x40, 128, 0x0, 1, false, false, 0x1, 0x0, 0x0, 0x0, 0x0⟩,
  -- DMA_CH_CFG
  ⟨0x131004, 0x40, 128, 0x0, 1, false, false, 0xFF03FF, 0x0, 0x0, 0x1000C1, 0x0⟩,
  -- DMA_CH_HEAD
  ⟨0x131008, 0x40, 128, 0x0, 1, true, false, 0xFFFFFFFFFFFFFFC0, 0x0, 0x0, 0x0, 0x0⟩,
  -- DMA_CH_CUR
  ⟨0x131010, 0x40, 128, 0x0, 1, true, false, 0x0, 0x0, 0x0, 0x0, 0x0⟩,
  -- DMA_CH_CPL_BASE
  ⟨0x131018, 0x40, 128, 0x0, 1, true, false, 0xFFFFFFFFFFFFFFF0, 0x0, 0x0, 0x0, 0x0⟩,
  -- DMA_CH_CPL_CI
  ⟨0x131020, 0x40, 128, 0x0, 1, false, false, 0xFFFF, 0x0, 0x0, 0x0, 0x0⟩,
  -- DMA_CH_CPL_PI
  ⟨0x131024, 0x40, 128, 0x0, 1, false, false, 0x0, 0x0, 0x0, 0x0, 0x0⟩,
  -- DMA_CH_DB
  ⟨0x131028, 0x40, 128, 0x0, 1, false, false, 0x0, 0x0, 0x0, 0x0, 0x0⟩,
  -- DMA_CH_CTRL
  ⟨0x13102C, 0x40, 128, 0x0, 1, false, false, 0x0, 0x0, 0x0, 0x0, 0x0⟩,
  -- DMA_CH_STATUS
  ⟨0x131030, 0x40, 128, 0x0, 1, false, false, 0x0, 0x60, 0x0, 0x0, 0x0⟩,
  -- DMA_CH_DONE
  ⟨0x131034, 0x40, 128, 0x0, 1, false, false, 0x0, 0x0, 0x0, 0x0, 0x0⟩,
  -- DMA_CH_BYTES
  ⟨0x131038, 0x40, 128, 0x0, 1, true, false, 0x0, 0x0, 0x0, 0x0, 0x0⟩]

/-- Rows of the HEP block. -/
def regsHep : List Reg := [
  -- HEP_LINK
  ⟨0x1000, 0x0, 1, 0x0, 1, false, false, 0x0, 0x0, 0x0, 0x0, 0x0⟩,
  -- HEP_LINK_EVT
  ⟨0x1004, 0x0, 1, 0x0, 1, false, false, 0x0, 0x7, 0x0, 0x0, 0x0⟩,
  -- HEP_LTR
  ⟨0x1008, 0x0, 1, 0x0, 1, false, false, 0xFFFFFFFF, 0x0, 0x0, 0x3E807D0, 0x0⟩,
  -- HEP_ASPM
  ⟨0x100C, 0x0, 1, 0x0, 1, false, false, 0xFFFFFFFF, 0x0, 0x0, 0x1003E8, 0x0⟩,
  -- HEP_BAR2_BASE
  ⟨0x1010, 0x0, 1, 0x0, 1, true, false, 0x7FFFFFFFF, 0x0, 0x0, 0x0, 0x0⟩,
  -- HEP_TAGS
  ⟨0x1018, 0x0, 1, 0x0, 1, false, false, 0x0, 0x0, 0x0, 0x0, 0x0⟩,
  -- HEP_QUAR
  ⟨0x101C, 0x0, 1, 0x0, 1, false, false, 0x0, 0x0, 0x0, 0x0, 0x0⟩,
  -- HEP_CNT_CPL_TO
  ⟨0x1020, 0x0, 1, 0x0, 1, false, false, 0x0, 0x0, 0x0, 0x0, 0x0⟩,
  -- HEP_CNT_LATE_CPL
  ⟨0x1024, 0x0, 1, 0x0, 1, false, false, 0x0, 0x0, 0x0, 0x0, 0x0⟩,
  -- HEP_CNT_CORR
  ⟨0x1028, 0x0, 1, 0x0, 1, false, false, 0x0, 0x0, 0x0, 0x0, 0x0⟩,
  -- HEP_CNT_RECOVERY
  ⟨0x102C, 0x0, 1, 0x0, 1, false, false, 0x0, 0x0, 0x0, 0x0, 0x0⟩,
  -- HEP_CNT_UR
  ⟨0x1030, 0x0, 1, 0x0, 1, false, false, 0x0, 0x0, 0x0, 0x0, 0x0⟩,
  -- HEP_CNT_CLR
  ⟨0x1034, 0x0, 1, 0x0, 1, false, false, 0x0, 0x0, 0x0, 0x0, 0x0⟩,
  -- HEP_SSID
  ⟨0x1038, 0x0, 1, 0x0, 1, false, false, 0x0, 0x0, 0x0, 0x0, 0x0⟩]

/-- Rows of the MBX block. -/
def regsMbx : List Reg := [
  -- MBX_PAGE
  ⟨0x10000, 0x1000, 8, 0x4, 1024, false, false, 0xFFFFFFFF, 0x0, 0x0, 0x0, 0x0⟩,
  -- MBX_DB
  ⟨0x18000, 0x20, 8, 0x0, 1, false, false, 0x0, 0x0, 0x0, 0x0, 0x0⟩,
  -- MBX_STATUS
  ⟨0x18004, 0x20, 8, 0x0, 1, false, false, 0x0, 0x1C, 0x0, 0x0, 0x0⟩,
  -- MBX_LAST
  ⟨0x18008, 0x20, 8, 0x0, 1, false, false, 0x0, 0x0, 0x0, 0x0, 0x0⟩,
  -- MBX_OWNER
  ⟨0x1800C, 0x20, 8, 0x0, 1, false, false, 0x0, 0x0, 0x0, 0x0, 0x0⟩,
  -- MBX_CNT
  ⟨0x18010, 0x20, 8, 0x0, 1, false, false, 0x0, 0x0, 0x0, 0x0, 0x0⟩,
  -- MBX_FW_STATUS
  ⟨0x18100, 0x0, 1, 0x0, 1, false, false, 0x0, 0x4, 0x0, 0x1000000, 0x0⟩]

/-- Rows of the GYL block. -/
def regsGyl : List Reg := [
  -- GYL_CH_EN
  ⟨0x30000, 0x10, 256, 0x0, 1, false, false, 0xFF, 0x0, 0x0, 0x0, 0x0⟩,
  -- GYL_CH_CFG
  ⟨0x30004, 0x10, 256, 0x0, 1, false, false, 0x3F0, 0x0, 0x0, 0x0, 0x0⟩,
  -- GYL_CH_STATUS
  ⟨0x30008, 0x10, 256, 0x0, 1, false, false, 0x0, 0x7, 0x0, 0x0, 0x0⟩,
  -- GYL_CNT
  ⟨0x3000C, 0x10, 256, 0x0, 1, false, false, 0x0, 0x0, 0x0, 0x0, 0x0⟩,
  -- GYL_SEEN
  ⟨0x31000, 0x4, 8, 0x0, 1, false, false, 0x0, 0xFFFFFFFF, 0x0, 0x0, 0x0⟩,
  -- GYL_IRQ_EN
  ⟨0x31020, 0x4, 8, 0x0, 1, false, false, 0xFFFFFFFF, 0x0, 0x0, 0x0, 0x0⟩,
  -- GYL_CNT_LOOP
  ⟨0x31040, 0x0, 1, 0x0, 1, false, false, 0x0, 0x0, 0x0, 0x0, 0x0⟩,
  -- GYL_TASK_STATUS
  ⟨0x31100, 0x8, 100, 0x0, 1, false, false, 0x0, 0x3, 0x0, 0x0, 0x0⟩,
  -- GYL_TASK_CNT
  ⟨0x31104, 0x8, 100, 0x0, 1, false, false, 0x0, 0x0, 0x0, 0x0, 0x0⟩,
  -- GYL_RLY_DELAY
  ⟨0x31800, 0x4, 16, 0x0, 1, false, false, 0xFFFF, 0x0, 0x0, 0x0, 0x0⟩,
  -- GYL_CHG_WORD
  ⟨0x31840, 0x0, 1, 0x0, 1, false, false, 0xFFFFFFFF, 0x0, 0x0, 0x0, 0x0⟩]

/-- Rows of the TTH block. -/
def regsTth : List Reg := [
  -- TTH_EN
  ⟨0x140000, 0x0, 1, 0x0, 1, false, false, 0x1, 0x0, 0x0, 0x0, 0x0⟩,
  -- TTH_CFG
  ⟨0x140004, 0x0, 1, 0x0, 1, false, false, 0x3FFF, 0x0, 0x0, 0xA0, 0x0⟩,
  -- TTH_HB
  ⟨0x140008, 0x0, 1, 0x0, 1, false, false, 0xFFFFFF, 0x0, 0x0, 0x8000A, 0x0⟩,
  -- TTH_SLOT_CFG
  ⟨0x140010, 0x4, 4, 0x0, 1, false, false, 0x1F, 0x0, 0x0, 0x0, 0x0⟩,
  -- TTH_STATUS
  ⟨0x140020, 0x0, 1, 0x0, 1, false, false, 0x0, 0xC00, 0x0, 0x100, 0x100⟩,
  -- TTH_PRESENT
  ⟨0x140024, 0x0, 1, 0x0, 1, false, false, 0x0, 0x0, 0x0, 0x0, 0x0⟩,
  -- TTH_LINKDLY
  ⟨0x140028, 0x0, 1, 0x0, 1, false, false, 0x0, 0x0, 0x0, 0x0, 0x0⟩,
  -- TTH_PAD
  ⟨0x14002C, 0x0, 1, 0x0, 1, false, false, 0x0, 0x0, 0x0, 0xA00, 0xFFFFFFFF⟩,
  -- TTH_CNT_CRC
  ⟨0x140030, 0x0, 1, 0x0, 1, false, false, 0x0, 0x0, 0x0, 0x0, 0x0⟩,
  -- TTH_CNT_BEAT_LOST
  ⟨0x140034, 0x0, 1, 0x0, 1, false, false, 0x0, 0x0, 0x0, 0x0, 0x0⟩,
  -- TTH_CNT_ANCHOR_MISMATCH
  ⟨0x140038, 0x0, 1, 0x0, 1, false, false, 0x0, 0x0, 0x0, 0x0, 0x0⟩,
  -- TTH_CNT_MSG_DROP
  ⟨0x14003C, 0x0, 1, 0x0, 1, false, false, 0x0, 0x0, 0x0, 0x0, 0x0⟩,
  -- TTH_CNT_CLR
  ⟨0x140040, 0x0, 1, 0x0, 1, false, false, 0x0, 0x0, 0x0, 0x0, 0x0⟩]

/-- Rows of the LAN block. -/
def regsLan : List Reg := [
  -- LAN_STATUS
  ⟨0x150000, 0x0, 1, 0x0, 1, false, false, 0x0, 0x6, 0x0, 0x0, 0xF⟩,
  -- LAN_DUC
  ⟨0x150008, 0x0, 1, 0x0, 1, true, false, 0x0, 0x0, 0x0, 0x0, 0xFFFFFFFFFFFFFFFF⟩,
  -- LAN_WAKE
  ⟨0x150010, 0x0, 1, 0x0, 1, false, false, 0x0, 0x1, 0x0, 0x0, 0x3F⟩,
  -- LAN_OVR
  ⟨0x150014, 0x0, 1, 0x0, 1, false, false, 0x0, 0xFFFFFFFF, 0x0, 0x0, 0xFFFFFFFF⟩,
  -- LAN_SOFTLIM
  ⟨0x150018, 0x0, 1, 0x0, 1, false, false, 0x0, 0xFF, 0x0, 0x0, 0xFF⟩,
  -- LAN_CNT_LOGLOST
  ⟨0x15001C, 0x0, 1, 0x0, 1, false, false, 0x0, 0x0, 0x0, 0x0, 0xFFFFFFFF⟩,
  -- LAN_SHADOW
  ⟨0x150100, 0x20, 8, 0x0, 1, true, false, 0x0, 0x0, 0x0, 0x0, 0xFFFFFFFFFFFFFFFF⟩,
  -- LAN_SHADOW_SPD
  ⟨0x150108, 0x20, 8, 0x0, 1, false, false, 0x0, 0x0, 0x0, 0x0, 0xFFFFFFFF⟩,
  -- LAN_PORT_STATUS
  ⟨0x15010C, 0x20, 8, 0x0, 1, false, false, 0x0, 0x16, 0x0, 0x81, 0xFFFF03FF⟩,
  -- LAN_RULE_CFG
  ⟨0x150400, 0x20, 32, 0x0, 1, false, false, 0x7FF, 0x0, 0x0, 0x0, 0x7FF⟩,
  -- LAN_RULE_THR
  ⟨0x150408, 0x20, 32, 0x0, 1, true, false, 0xFFFFFFFFFFFFFFFF, 0x0, 0x0, 0x0, 0xFFFFFFFFFFFFFFFF⟩,
  -- LAN_RULE_TIME
  ⟨0x150410, 0x20, 32, 0x0, 1, false, false, 0xFFFFFF, 0x0, 0x0, 0x0, 0xFFFFFF⟩,
  -- LAN_RULE_ACT
  ⟨0x150414, 0x20, 32, 0x0, 1, false, false, 0x703FF, 0x0, 0x0, 0x0, 0x703FF⟩,
  -- LAN_RULE_STATUS
  ⟨0x150418, 0x20, 32, 0x0, 1, false, false, 0x0, 0x0, 0x0, 0x0, 0xFFFF0003⟩]

/-- Rows of the REC block. -/
def regsRec : List Reg := [
  -- REC_CTRL
  ⟨0x160000, 0x0, 1, 0x0, 1, false, false, 0x0, 0x0, 0x0, 0x0, 0x0⟩,
  -- REC_STATUS
  ⟨0x160004, 0x0, 1, 0x0, 1, false, false, 0x0, 0x78, 0x0, 0x0, 0x0⟩,
  -- REC_CFG
  ⟨0x160008, 0x0, 1, 0x0, 1, false, false, 0x3, 0x0, 0x0, 0x1, 0x0⟩,
  -- REC_WIN_STATUS
  ⟨0x16000C, 0x0, 1, 0x0, 1, false, false, 0x0, 0x0, 0x0, 0x0, 0x0⟩,
  -- REC_CURSOR
  ⟨0x160010, 0x0, 1, 0x0, 1, false, false, 0xFFFFFFFF, 0x0, 0x0, 0x0, 0x0⟩,
  -- REC_MARK
  ⟨0x160014, 0x0, 1, 0x0, 1, false, false, 0xFFFFFFFF, 0x0, 0x0, 0x0, 0x0⟩,
  -- REC_GAP
  ⟨0x160018, 0x0, 1, 0x0, 1, false, false, 0x0, 0x0, 0x0, 0x0, 0x0⟩,
  -- REC_RING_LEVEL
  ⟨0x16001C, 0x0, 1, 0x0, 1, false, false, 0x0, 0x0, 0x0, 0x0, 0x0⟩,
  -- REC_CIRC_OLDEST
  ⟨0x160020, 0x0, 1, 0x0, 1, false, false, 0x0, 0x0, 0x0, 0x0, 0xFFFFFFFF⟩,
  -- REC_CIRC_NEWEST
  ⟨0x160024, 0x0, 1, 0x0, 1, false, false, 0x0, 0x0, 0x0, 0x0, 0xFFFFFFFF⟩,
  -- REC_FIRST_USED
  ⟨0x160028, 0x0, 1, 0x0, 1, false, false, 0x0, 0x0, 0x0, 0x0, 0xFFF⟩,
  -- REC_SEQ
  ⟨0x160030, 0x0, 1, 0x0, 1, false, false, 0x0, 0x0, 0x0, 0x0, 0xFFFFFFFF⟩,
  -- REC_TOTAL
  ⟨0x160038, 0x0, 1, 0x0, 1, true, false, 0x0, 0x0, 0x0, 0x0, 0xFFFFFFFFFFFFFFFF⟩,
  -- REC_CNT_LOST
  ⟨0x160040, 0x0, 1, 0x0, 1, false, false, 0x0, 0x0, 0x0, 0x0, 0x0⟩,
  -- REC_CNT_OVERWRITTEN
  ⟨0x160044, 0x0, 1, 0x0, 1, false, false, 0x0, 0x0, 0x0, 0x0, 0x0⟩,
  -- REC_CNT_FLUSH
  ⟨0x160048, 0x0, 1, 0x0, 1, false, false, 0x0, 0x0, 0x0, 0x0, 0x0⟩,
  -- REC_LAST_FLUSH
  ⟨0x16004C, 0x0, 1, 0x0, 1, false, false, 0x0, 0x0, 0x0, 0x0, 0x0⟩,
  -- REC_WINDOW
  ⟨0x160400, 0x4, 256, 0x0, 1, false, false, 0x0, 0x0, 0x0, 0x0, 0x0⟩]

/-- Rows of the INT block. -/
def regsInt : List Reg := [
  -- INT_STATUS
  ⟨0x20000, 0x10, 48, 0x0, 1, false, false, 0x0, 0xFFFFFFFF, 0x0, 0x0, 0x0⟩,
  -- INT_ENABLE
  ⟨0x20004, 0x10, 48, 0x0, 1, false, false, 0xFFFFFFFF, 0x0, 0x0, 0x0, 0x0⟩,
  -- INT_PEND
  ⟨0x20008, 0x10, 48, 0x0, 1, false, false, 0x0, 0x0, 0x0, 0x0, 0x0⟩,
  -- INT_GROUP_PEND
  ⟨0x20400, 0x0, 1, 0x0, 1, true, false, 0x0, 0x0, 0x0, 0x0, 0x0⟩,
  -- INT_TEST
  ⟨0x20408, 0x0, 1, 0x0, 1, false, false, 0x0, 0x0, 0x0, 0x0, 0x0⟩,
  -- INT_ROUTE
  ⟨0x21000, 0x4, 1536, 0x0, 1, false, false, 0xFFF, 0x0, 0x0, 0x0, 0x0⟩,
  -- INT_FW_EN
  ⟨0x23000, 0x20, 128, 0x0, 1, false, false, 0x1, 0x0, 0x0, 0x0, 0x0⟩,
  -- INT_FW_CFG
  ⟨0x23004, 0x20, 128, 0x0, 1, false, false, 0x1FFFFF, 0x0, 0x0, 0x0, 0x0⟩,
  -- INT_FW_K
  ⟨0x23008, 0x20, 128, 0x0, 1, false, false, 0xFFFF, 0x0, 0x0, 0x0, 0x0⟩,
  -- INT_FW_STATUS
  ⟨0x2300C, 0x20, 128, 0x0, 1, false, false, 0x0, 0xC, 0x0, 0x0, 0x0⟩,
  -- INT_FW_COUNT
  ⟨0x23010, 0x20, 128, 0x0, 1, false, false, 0x0, 0x0, 0x0, 0x0, 0x0⟩,
  -- INT_FW_TOTAL
  ⟨0x23014, 0x20, 128, 0x0, 1, false, false, 0x0, 0x0, 0x0, 0x0, 0x0⟩,
  -- INT_ECC_HBM_CORR
  ⟨0x24000, 0x0, 1, 0x0, 1, false, false, 0x0, 0x0, 0x0, 0x0, 0x0⟩,
  -- INT_ECC_HBM_UNC
  ⟨0x24004, 0x0, 1, 0x0, 1, false, false, 0x0, 0x0, 0x0, 0x0, 0x0⟩,
  -- INT_ECC_SRAM_CORR
  ⟨0x24008, 0x0, 1, 0x0, 1, false, false, 0x0, 0x0, 0x0, 0x0, 0x0⟩,
  -- INT_ECC_SRAM_UNC
  ⟨0x2400C, 0x0, 1, 0x0, 1, false, false, 0x0, 0x0, 0x0, 0x0, 0x0⟩,
  -- INT_ECC_LAST
  ⟨0x24010, 0x0, 1, 0x0, 1, true, false, 0x0, 0x0, 0x0, 0x0, 0x0⟩,
  -- INT_ECC_SCRUB
  ⟨0x24018, 0x0, 1, 0x0, 1, false, false, 0x0, 0x0, 0x0, 0x0, 0x0⟩]

/-- The rows of the block that a BAR0 offset falls in (Table 13-8): the 64 KB block number picks the list. -/
def regsOf (a : Nat) : List Reg :=
  match a / 0x10000 with
  | 0 => regsHep | 1 => regsMbx | 2 => regsInt | 3 => regsGyl | 4 => regsTrl | 5 => regsStk | 6 => regsTmb
  | 7 => regsCam | 8 => regsCam | 9 => regsCam | 10 => regsCam
  | 11 => regsFrm | 12 => regsMlk | 13 => regsChg
  | 14 => regsPxe | 15 => regsPxe | 16 => regsPxe | 17 => regsPxe
  | 18 => regsDlv | 19 => regsDma | 20 => regsTth | 21 => regsLan | 22 => regsRec | 23 => regsBoot
  | _ => []

/-- Whether the register instance that `r` places over `a` starts at or just below `a`: the instance's own offset when
`a` lies in it. -/
def Reg.instAt (r : Reg) (a : Nat) : Option Nat :=
  if a < r.base then none else
  let d := a - r.base
  let i := if r.stride1 = 0 then 0 else d / r.stride1
  let d1 := d - i * r.stride1
  let j := if r.stride2 = 0 then 0 else d1 / r.stride2
  let d2 := d1 - j * r.stride2
  if i < r.count1 ∧ j < r.count2 ∧ d2 < (if r.wide then 8 else 4) then some (a - d2) else none

/-- The row of a list that covers offset `a`, with the offset of the instance. -/
def findReg : List Reg → Nat → Option (Reg × Nat)
  | [], _ => none
  | r :: rs, a =>
    match r.instAt a with
    | some b => some (r, b)
    | none => findReg rs a

/-- The register that covers BAR0 offset `a`, and the offset of its instance; none where the map marks the offset
reserved (R12). -/
def regAt (a : Nat) : Option (Reg × Nat) := findReg (regsOf a) a

/-! Fields of the BOOT block. -/

/-- MODE_STATUS.MODE [3:0] RO (02_operating_modes.md, Table 2-7). -/
def MODE_STATUS_MODE : FRef := ⟨0x170200, 0, 4⟩
/-- MODE_STATUS.TARGET [7:4] RO (02_operating_modes.md, Table 2-7). -/
def MODE_STATUS_TARGET : FRef := ⟨0x170200, 4, 4⟩
/-- MODE_STATUS.PREV [11:8] RO (02_operating_modes.md, Table 2-7). -/
def MODE_STATUS_PREV : FRef := ⟨0x170200, 8, 4⟩
/-- MODE_STATUS.TRANSITION [12:12] RO (02_operating_modes.md, Table 2-7). -/
def MODE_STATUS_TRANSITION : FRef := ⟨0x170200, 12, 1⟩
/-- MODE_STATUS.ROLE [14:13] RO (02_operating_modes.md, Table 2-7). -/
def MODE_STATUS_ROLE : FRef := ⟨0x170200, 13, 2⟩
/-- MODE_STATUS.NOT_FOLLOWING [15:15] RO (02_operating_modes.md, Table 2-7). -/
def MODE_STATUS_NOT_FOLLOWING : FRef := ⟨0x170200, 15, 1⟩
/-- MODE_STATUS.WORKER_ID [19:16] RO (02_operating_modes.md, Table 2-7). -/
def MODE_STATUS_WORKER_ID : FRef := ⟨0x170200, 16, 4⟩
/-- MODE_STATUS.REFUSE [23:20] RO (02_operating_modes.md, Table 2-7). -/
def MODE_STATUS_REFUSE : FRef := ⟨0x170200, 20, 4⟩
/-- MODE_STATUS.COLD [24:24] RO (02_operating_modes.md, Table 2-7). -/
def MODE_STATUS_COLD : FRef := ⟨0x170200, 24, 1⟩
/-- MODE_REQ.REQ [3:0] WO (02_operating_modes.md, Table 2-8). -/
def MODE_REQ_REQ : FRef := ⟨0x170204, 0, 4⟩
/-- MODE_CTRL.DRAIN_TIMEOUT [15:0] RW (02_operating_modes.md, Table 2-9). -/
def MODE_CTRL_DRAIN_TIMEOUT : FRef := ⟨0x170208, 0, 16⟩
/-- MODE_CTRL.HOLD_LIMIT [23:16] RW (02_operating_modes.md, Table 2-9). -/
def MODE_CTRL_HOLD_LIMIT : FRef := ⟨0x170208, 16, 8⟩
/-- MODE_CTRL.CHAIN_HOLD [24:24] RW (02_operating_modes.md, Table 2-9). -/
def MODE_CTRL_CHAIN_HOLD : FRef := ⟨0x170208, 24, 1⟩
/-- MODE_CAUSE.SOURCE [7:0] RO (02_operating_modes.md, Table 2-10). -/
def MODE_CAUSE_SOURCE : FRef := ⟨0x17020C, 0, 8⟩
/-- MODE_CAUSE.INDEX [15:8] RO (02_operating_modes.md, Table 2-10). -/
def MODE_CAUSE_INDEX : FRef := ⟨0x17020C, 8, 8⟩
/-- MODE_CAUSE.STICKY [16:16] W1C (02_operating_modes.md, Table 2-10). -/
def MODE_CAUSE_STICKY : FRef := ⟨0x17020C, 16, 1⟩
/-- ID_DIE.DIE [63:0] RO (20_boot_identity_lifetime.md, Table 20-9). -/
def ID_DIE_DIE : FRef := ⟨0x170000, 0, 64⟩
/-- ID_PKG_SERIAL.SERIAL [31:0] RO (20_boot_identity_lifetime.md, Table 20-9). -/
def ID_PKG_SERIAL_SERIAL : FRef := ⟨0x170008, 0, 32⟩
/-- ID_PART.PART [15:0] RO (20_boot_identity_lifetime.md, Table 20-9). -/
def ID_PART_PART : FRef := ⟨0x17000C, 0, 16⟩
/-- ID_PART.STEPPING [23:16] RO (20_boot_identity_lifetime.md, Table 20-9). -/
def ID_PART_STEPPING : FRef := ⟨0x17000C, 16, 8⟩
/-- ID_PART.ORDER [24:24] RO (20_boot_identity_lifetime.md, Table 20-9). -/
def ID_PART_ORDER : FRef := ⟨0x17000C, 24, 1⟩
/-- BOOT_STATUS.BANK [0:0] RO (20_boot_identity_lifetime.md, Table 20-10). -/
def BOOT_STATUS_BANK : FRef := ⟨0x170100, 0, 1⟩
/-- BOOT_STATUS.SELECTED [1:1] RO (20_boot_identity_lifetime.md, Table 20-10). -/
def BOOT_STATUS_SELECTED : FRef := ⟨0x170100, 1, 1⟩
/-- BOOT_STATUS.FALLBACK [2:2] RO (20_boot_identity_lifetime.md, Table 20-10). -/
def BOOT_STATUS_FALLBACK : FRef := ⟨0x170100, 2, 1⟩
/-- BOOT_STATUS.ROM [3:3] RO (20_boot_identity_lifetime.md, Table 20-10). -/
def BOOT_STATUS_ROM : FRef := ⟨0x170100, 3, 1⟩
/-- BOOT_STATUS.CAUSE0 [6:4] RO (20_boot_identity_lifetime.md, Table 20-10). -/
def BOOT_STATUS_CAUSE0 : FRef := ⟨0x170100, 4, 3⟩
/-- BOOT_STATUS.CAUSE1 [9:7] RO (20_boot_identity_lifetime.md, Table 20-10). -/
def BOOT_STATUS_CAUSE1 : FRef := ⟨0x170100, 7, 3⟩
/-- BOOT_STATUS.QSPI_RELEASED [10:10] RO (20_boot_identity_lifetime.md, Table 20-10). -/
def BOOT_STATUS_QSPI_RELEASED : FRef := ⟨0x170100, 10, 1⟩
/-- BOOT_STATUS.FUSE_ERR [11:11] RO (20_boot_identity_lifetime.md, Table 20-10). -/
def BOOT_STATUS_FUSE_ERR : FRef := ⟨0x170100, 11, 1⟩
/-- BOOT_FW_VER.VER [31:0] RO (20_boot_identity_lifetime.md, Table 20-9). -/
def BOOT_FW_VER_VER : FRef := ⟨0x170104, 0, 32⟩
/-- BOOT_SVN.MIN [5:0] RO (20_boot_identity_lifetime.md, Table 20-9). -/
def BOOT_SVN_MIN : FRef := ⟨0x170108, 0, 6⟩
/-- BOOT_SVN.RUN [13:8] RO (20_boot_identity_lifetime.md, Table 20-9). -/
def BOOT_SVN_RUN : FRef := ⟨0x170108, 8, 6⟩
/-- BOOT_TIME.MS [31:0] RO (20_boot_identity_lifetime.md, Table 20-9). -/
def BOOT_TIME_MS : FRef := ⟨0x17010C, 0, 32⟩
/-- BOOT_HOURS.HOURS [31:0] RO (20_boot_identity_lifetime.md, Table 20-9). -/
def BOOT_HOURS_HOURS : FRef := ⟨0x170110, 0, 32⟩
/-- BOOT_REFRESH.PROGRESS [15:0] RO (20_boot_identity_lifetime.md, Table 20-9). -/
def BOOT_REFRESH_PROGRESS : FRef := ⟨0x170114, 0, 16⟩
/-- BOOT_REFRESH.RUNNING [16:16] RO (20_boot_identity_lifetime.md, Table 20-9). -/
def BOOT_REFRESH_RUNNING : FRef := ⟨0x170114, 16, 1⟩
/-- AGE_ISLAND.DRIFT [15:0] RO (20_boot_identity_lifetime.md, Table 20-9). -/
def AGE_ISLAND_DRIFT (i : Nat) : FRef := ⟨0x170300 + 0x4 * i, 0, 16⟩
/-- AGE_ISLAND.STATE [17:16] RO (20_boot_identity_lifetime.md, Table 20-9). -/
def AGE_ISLAND_STATE (i : Nat) : FRef := ⟨0x170300 + 0x4 * i, 16, 2⟩
/-- AGE_ISLAND.STEP [19:18] RO (20_boot_identity_lifetime.md, Table 20-9). -/
def AGE_ISLAND_STEP (i : Nat) : FRef := ⟨0x170300 + 0x4 * i, 18, 2⟩
/-- SEC_STATUS.SLOT_STATE [7:0] RO (20_boot_identity_lifetime.md, Table 20-11). -/
def SEC_STATUS_SLOT_STATE : FRef := ⟨0x170400, 0, 8⟩
/-- SEC_STATUS.ROLES [15:8] RO (20_boot_identity_lifetime.md, Table 20-11). -/
def SEC_STATUS_ROLES : FRef := ⟨0x170400, 8, 8⟩
/-- SEC_STATUS.PROVISION_OPEN [16:16] RO (20_boot_identity_lifetime.md, Table 20-11). -/
def SEC_STATUS_PROVISION_OPEN : FRef := ⟨0x170400, 16, 1⟩
/-- SEC_STATUS.ROOT_OK [17:17] RO (20_boot_identity_lifetime.md, Table 20-11). -/
def SEC_STATUS_ROOT_OK : FRef := ⟨0x170400, 17, 1⟩
/-- SEC_KEY_CTRL.SLOT [1:0] WO (20_boot_identity_lifetime.md, Table 20-9). -/
def SEC_KEY_CTRL_SLOT : FRef := ⟨0x170404, 0, 2⟩
/-- SEC_KEY_CTRL.OP [3:2] WO (20_boot_identity_lifetime.md, Table 20-9). -/
def SEC_KEY_CTRL_OP : FRef := ⟨0x170404, 2, 2⟩
/-- SEC_KEY_CTRL.RECIPE [4:4] WO (20_boot_identity_lifetime.md, Table 20-9). -/
def SEC_KEY_CTRL_RECIPE : FRef := ⟨0x170404, 4, 1⟩
/-- SEC_KEY_CTRL.COMMAND [5:5] WO (20_boot_identity_lifetime.md, Table 20-9). -/
def SEC_KEY_CTRL_COMMAND : FRef := ⟨0x170404, 5, 1⟩
/-- SEC_KEY_CTRL.GO [31:31] WO (20_boot_identity_lifetime.md, Table 20-9). -/
def SEC_KEY_CTRL_GO : FRef := ⟨0x170404, 31, 1⟩
/-- SEC_KEY_RESULT.BUSY [0:0] RO (20_boot_identity_lifetime.md, Table 20-9). -/
def SEC_KEY_RESULT_BUSY : FRef := ⟨0x170408, 0, 1⟩
/-- SEC_KEY_RESULT.DONE [1:1] W1C (20_boot_identity_lifetime.md, Table 20-9). -/
def SEC_KEY_RESULT_DONE : FRef := ⟨0x170408, 1, 1⟩
/-- SEC_KEY_RESULT.RESULT [4:2] RO (20_boot_identity_lifetime.md, Table 20-9). -/
def SEC_KEY_RESULT_RESULT : FRef := ⟨0x170408, 2, 3⟩
/-- SEC_KEY_WIN.DATA [31:0] RW (20_boot_identity_lifetime.md, Table 20-9). -/
def SEC_KEY_WIN_DATA (i : Nat) : FRef := ⟨0x170480 + 0x4 * i, 0, 32⟩

/-! Fields of the TRL block. -/

/-- TRL_POS.POS [63:0] RO (03_position_trails.md, Table 3-6). -/
def TRL_POS_POS (i : Nat) : FRef := ⟨0x40000 + 0x100 * i, 0, 64⟩
/-- TRL_SPD.SPD [31:0] RO (03_position_trails.md, Table 3-6). -/
def TRL_SPD_SPD (i : Nat) : FRef := ⟨0x40008 + 0x100 * i, 0, 32⟩
/-- TRL_STATUS.SPEED_VALID [0:0] RO (03_position_trails.md, Table 3-7). -/
def TRL_STATUS_SPEED_VALID (i : Nat) : FRef := ⟨0x4000C + 0x100 * i, 0, 1⟩
/-- TRL_STATUS.STILL [1:1] RO (03_position_trails.md, Table 3-7). -/
def TRL_STATUS_STILL (i : Nat) : FRef := ⟨0x4000C + 0x100 * i, 1, 1⟩
/-- TRL_STATUS.STARTING [2:2] RO (03_position_trails.md, Table 3-7). -/
def TRL_STATUS_STARTING (i : Nat) : FRef := ⟨0x4000C + 0x100 * i, 2, 1⟩
/-- TRL_STATUS.REVERSED [3:3] RO (03_position_trails.md, Table 3-7). -/
def TRL_STATUS_REVERSED (i : Nat) : FRef := ⟨0x4000C + 0x100 * i, 3, 1⟩
/-- TRL_STATUS.DIR [4:4] RO (03_position_trails.md, Table 3-7). -/
def TRL_STATUS_DIR (i : Nat) : FRef := ⟨0x4000C + 0x100 * i, 4, 1⟩
/-- TRL_STATUS.METHOD [5:5] RO (03_position_trails.md, Table 3-7). -/
def TRL_STATUS_METHOD (i : Nat) : FRef := ⟨0x4000C + 0x100 * i, 5, 1⟩
/-- TRL_STATUS.SAT_NOW [6:6] RO (03_position_trails.md, Table 3-7). -/
def TRL_STATUS_SAT_NOW (i : Nat) : FRef := ⟨0x4000C + 0x100 * i, 6, 1⟩
/-- TRL_STATUS.SAT [7:7] W1C (03_position_trails.md, Table 3-7). -/
def TRL_STATUS_SAT (i : Nat) : FRef := ⟨0x4000C + 0x100 * i, 7, 1⟩
/-- TRL_STATUS.ILLEGAL [8:8] W1C (03_position_trails.md, Table 3-7). -/
def TRL_STATUS_ILLEGAL (i : Nat) : FRef := ⟨0x4000C + 0x100 * i, 8, 1⟩
/-- TRL_STATUS.LINE_BREAK [9:9] RO (03_position_trails.md, Table 3-7). -/
def TRL_STATUS_LINE_BREAK (i : Nat) : FRef := ⟨0x4000C + 0x100 * i, 9, 1⟩
/-- TRL_STATUS.LB_SEEN [10:10] W1C (03_position_trails.md, Table 3-7). -/
def TRL_STATUS_LB_SEEN (i : Nat) : FRef := ⟨0x4000C + 0x100 * i, 10, 1⟩
/-- TRL_STATUS.UNTRUSTED [11:11] W1C (03_position_trails.md, Table 3-7). -/
def TRL_STATUS_UNTRUSTED (i : Nat) : FRef := ⟨0x4000C + 0x100 * i, 11, 1⟩
/-- TRL_STATUS.LIMIT_MIN [12:12] RO (03_position_trails.md, Table 3-7). -/
def TRL_STATUS_LIMIT_MIN (i : Nat) : FRef := ⟨0x4000C + 0x100 * i, 12, 1⟩
/-- TRL_STATUS.LIMIT_MAX [13:13] RO (03_position_trails.md, Table 3-7). -/
def TRL_STATUS_LIMIT_MAX (i : Nat) : FRef := ⟨0x4000C + 0x100 * i, 13, 1⟩
/-- TRL_STATUS.Z_ERR [14:14] W1C (03_position_trails.md, Table 3-7). -/
def TRL_STATUS_Z_ERR (i : Nat) : FRef := ⟨0x4000C + 0x100 * i, 14, 1⟩
/-- TRL_STATUS.SER_ERR [15:15] W1C (03_position_trails.md, Table 3-7). -/
def TRL_STATUS_SER_ERR (i : Nat) : FRef := ⟨0x4000C + 0x100 * i, 15, 1⟩
/-- TRL_STATUS.LIM_ERR [16:16] RO (03_position_trails.md, Table 3-7). -/
def TRL_STATUS_LIM_ERR (i : Nat) : FRef := ⟨0x4000C + 0x100 * i, 16, 1⟩
/-- TRL_STATUS.SRC_ERR [17:17] RO (03_position_trails.md, Table 3-7). -/
def TRL_STATUS_SRC_ERR (i : Nat) : FRef := ⟨0x4000C + 0x100 * i, 17, 1⟩
/-- TRL_SOFT_MIN.MIN [63:8] RW (03_position_trails.md, Table 3-6). -/
def TRL_SOFT_MIN_MIN (i : Nat) : FRef := ⟨0x40010 + 0x100 * i, 8, 56⟩
/-- TRL_SOFT_MAX.MAX [63:8] RW (03_position_trails.md, Table 3-6). -/
def TRL_SOFT_MAX_MAX (i : Nat) : FRef := ⟨0x40018 + 0x100 * i, 8, 56⟩
/-- TRL_PRESET.PRESET [63:0] WO (03_position_trails.md, Table 3-6). -/
def TRL_PRESET_PRESET (i : Nat) : FRef := ⟨0x40020 + 0x100 * i, 0, 64⟩
/-- TRL_HOME_VAL.HOME_VAL [63:0] RW (03_position_trails.md, Table 3-6). -/
def TRL_HOME_VAL_HOME_VAL (i : Nat) : FRef := ⟨0x40028 + 0x100 * i, 0, 64⟩
/-- TRL_HOMECAP.HOMECAP [63:0] RO (03_position_trails.md, Table 3-6). -/
def TRL_HOMECAP_HOMECAP (i : Nat) : FRef := ⟨0x40030 + 0x100 * i, 0, 64⟩
/-- TRL_ZCAP.ZCAP [63:0] RO (03_position_trails.md, Table 3-6). -/
def TRL_ZCAP_ZCAP (i : Nat) : FRef := ⟨0x40038 + 0x100 * i, 0, 64⟩
/-- TRL_SPDCFG.WIN [9:0] RW (03_position_trails.md, Table 3-8). -/
def TRL_SPDCFG_WIN (i : Nat) : FRef := ⟨0x40040 + 0x100 * i, 0, 10⟩
/-- TRL_SPDCFG.PINT [15:10] RW (03_position_trails.md, Table 3-8). -/
def TRL_SPDCFG_PINT (i : Nat) : FRef := ⟨0x40040 + 0x100 * i, 10, 6⟩
/-- TRL_SPDCFG.STILL_MS [23:16] RW (03_position_trails.md, Table 3-8). -/
def TRL_SPDCFG_STILL_MS (i : Nat) : FRef := ⟨0x40040 + 0x100 * i, 16, 8⟩
/-- TRL_ZCFG.ZREV [23:0] RW (03_position_trails.md, Table 3-9). -/
def TRL_ZCFG_ZREV (i : Nat) : FRef := ⟨0x40044 + 0x100 * i, 0, 24⟩
/-- TRL_ZCFG.ZTOL [31:24] RW (03_position_trails.md, Table 3-9). -/
def TRL_ZCFG_ZTOL (i : Nat) : FRef := ⟨0x40044 + 0x100 * i, 24, 8⟩
/-- TRL_CNT_ILLEGAL.COUNT [31:0] RO (03_position_trails.md, Table 3-6). -/
def TRL_CNT_ILLEGAL_COUNT (i : Nat) : FRef := ⟨0x40048 + 0x100 * i, 0, 32⟩
/-- TRL_CNT_Z.COUNT [31:0] RO (03_position_trails.md, Table 3-6). -/
def TRL_CNT_Z_COUNT (i : Nat) : FRef := ⟨0x4004C + 0x100 * i, 0, 32⟩
/-- TRL_VEN.EN [0:0] RW (03_position_trails.md, Table 2-6). -/
def TRL_VEN_EN (i : Nat) : FRef := ⟨0x40850 + 0x100 * i, 0, 1⟩
/-- TRL_VEN.STATE [2:1] RO (03_position_trails.md, Table 2-6). -/
def TRL_VEN_STATE (i : Nat) : FRef := ⟨0x40850 + 0x100 * i, 1, 2⟩
/-- TRL_VEN.ENABLE_PENDING [3:3] RO (03_position_trails.md, Table 2-6). -/
def TRL_VEN_ENABLE_PENDING (i : Nat) : FRef := ⟨0x40850 + 0x100 * i, 3, 1⟩
/-- TRL_VCFG.SRC [3:0] RW (03_position_trails.md, Table 3-10). -/
def TRL_VCFG_SRC (i : Nat) : FRef := ⟨0x40854 + 0x100 * i, 0, 4⟩
/-- TRL_VCFG.TETHER [4:4] RW (03_position_trails.md, Table 3-10). -/
def TRL_VCFG_TETHER (i : Nat) : FRef := ⟨0x40854 + 0x100 * i, 4, 1⟩
/-- TRL_VCFG.MGR_TRAIL [6:5] RW (03_position_trails.md, Table 3-10). -/
def TRL_VCFG_MGR_TRAIL (i : Nat) : FRef := ⟨0x40854 + 0x100 * i, 5, 2⟩
/-- TRL_VNUM.NUM [31:0] RW (03_position_trails.md, Table 3-6). -/
def TRL_VNUM_NUM (i : Nat) : FRef := ⟨0x40858 + 0x100 * i, 0, 32⟩
/-- TRL_VDEN.DEN [31:0] RW (03_position_trails.md, Table 3-6). -/
def TRL_VDEN_DEN (i : Nat) : FRef := ⟨0x4085C + 0x100 * i, 0, 32⟩
/-- TRL_VOFFSET.OFFSET [63:0] RW (03_position_trails.md, Table 3-6). -/
def TRL_VOFFSET_OFFSET (i : Nat) : FRef := ⟨0x40860 + 0x100 * i, 0, 64⟩
/-- TRL_PORT_CFG.MODE [1:0] RW (03_position_trails.md, Table 3-12). -/
def TRL_PORT_CFG_MODE (i : Nat) : FRef := ⟨0x41000 + 0x40 * i, 0, 2⟩
/-- TRL_PORT_CFG.INVERT [2:2] RW (03_position_trails.md, Table 3-12). -/
def TRL_PORT_CFG_INVERT (i : Nat) : FRef := ⟨0x41000 + 0x40 * i, 2, 1⟩
/-- TRL_PORT_CFG.DECODE [4:3] RW (03_position_trails.md, Table 3-12). -/
def TRL_PORT_CFG_DECODE (i : Nat) : FRef := ⟨0x41000 + 0x40 * i, 3, 2⟩
/-- TRL_PORT_CFG.FILT_N [12:5] RW (03_position_trails.md, Table 3-12). -/
def TRL_PORT_CFG_FILT_N (i : Nat) : FRef := ⟨0x41000 + 0x40 * i, 5, 8⟩
/-- TRL_PORT_CFG.Z_EN [13:13] RW (03_position_trails.md, Table 3-12). -/
def TRL_PORT_CFG_Z_EN (i : Nat) : FRef := ⟨0x41000 + 0x40 * i, 13, 1⟩
/-- TRL_LB_CFG.LB_TIME [15:0] RW (03_position_trails.md, Table 3-13). -/
def TRL_LB_CFG_LB_TIME (i : Nat) : FRef := ⟨0x41004 + 0x40 * i, 0, 16⟩
/-- TRL_SER_CFG.WORD_BITS [5:0] RW (03_position_trails.md, Table 3-14). -/
def TRL_SER_CFG_WORD_BITS (i : Nat) : FRef := ⟨0x41008 + 0x40 * i, 0, 6⟩
/-- TRL_SER_CFG.FRAC_BITS [9:6] RW (03_position_trails.md, Table 3-14). -/
def TRL_SER_CFG_FRAC_BITS (i : Nat) : FRef := ⟨0x41008 + 0x40 * i, 6, 4⟩
/-- TRL_SER_CFG.GRAY [10:10] RW (03_position_trails.md, Table 3-14). -/
def TRL_SER_CFG_GRAY (i : Nat) : FRef := ⟨0x41008 + 0x40 * i, 10, 1⟩
/-- TRL_SER_CFG.CRC_EN [11:11] RW (03_position_trails.md, Table 3-14). -/
def TRL_SER_CFG_CRC_EN (i : Nat) : FRef := ⟨0x41008 + 0x40 * i, 11, 1⟩
/-- TRL_SER_CFG.CLK [13:12] RW (03_position_trails.md, Table 3-14). -/
def TRL_SER_CFG_CLK (i : Nat) : FRef := ⟨0x41008 + 0x40 * i, 12, 2⟩
/-- TRL_SER_CFG.CYCLE [29:14] RW (03_position_trails.md, Table 3-14). -/
def TRL_SER_CFG_CYCLE (i : Nat) : FRef := ⟨0x41008 + 0x40 * i, 14, 16⟩
/-- TRL_SER_RAW.RAW [63:0] RO (03_position_trails.md, Table 3-11). -/
def TRL_SER_RAW_RAW (i : Nat) : FRef := ⟨0x41010 + 0x40 * i, 0, 64⟩
/-- TRL_PIN.A [0:0] RO (03_position_trails.md, Table 3-11). -/
def TRL_PIN_A (i : Nat) : FRef := ⟨0x41018 + 0x40 * i, 0, 1⟩
/-- TRL_PIN.B [1:1] RO (03_position_trails.md, Table 3-11). -/
def TRL_PIN_B (i : Nat) : FRef := ⟨0x41018 + 0x40 * i, 1, 1⟩
/-- TRL_PIN.Z [2:2] RO (03_position_trails.md, Table 3-11). -/
def TRL_PIN_Z (i : Nat) : FRef := ⟨0x41018 + 0x40 * i, 2, 1⟩
/-- TRL_PIN.A_LB [3:3] RO (03_position_trails.md, Table 3-11). -/
def TRL_PIN_A_LB (i : Nat) : FRef := ⟨0x41018 + 0x40 * i, 3, 1⟩
/-- TRL_PIN.B_LB [4:4] RO (03_position_trails.md, Table 3-11). -/
def TRL_PIN_B_LB (i : Nat) : FRef := ⟨0x41018 + 0x40 * i, 4, 1⟩
/-- TRL_PIN.Z_LB [5:5] RO (03_position_trails.md, Table 3-11). -/
def TRL_PIN_Z_LB (i : Nat) : FRef := ⟨0x41018 + 0x40 * i, 5, 1⟩
/-- TRL_ABS_OFFSET.OFFSET [63:0] RW (03_position_trails.md, Table 3-11). -/
def TRL_ABS_OFFSET_OFFSET (i : Nat) : FRef := ⟨0x41020 + 0x40 * i, 0, 64⟩
/-- TRL_HOME_CFG.TRAIL [3:0] RW (03_position_trails.md, Table 3-15). -/
def TRL_HOME_CFG_TRAIL (i : Nat) : FRef := ⟨0x42000 + 0x10 * i, 0, 4⟩
/-- TRL_HOME_CFG.FUNC [5:4] RW (03_position_trails.md, Table 3-15). -/
def TRL_HOME_CFG_FUNC (i : Nat) : FRef := ⟨0x42000 + 0x10 * i, 4, 2⟩
/-- TRL_HOME_CFG.POL [6:6] RW (03_position_trails.md, Table 3-15). -/
def TRL_HOME_CFG_POL (i : Nat) : FRef := ⟨0x42000 + 0x10 * i, 6, 1⟩
/-- TRL_HOME_CFG.PRESET [7:7] RW (03_position_trails.md, Table 3-15). -/
def TRL_HOME_CFG_PRESET (i : Nat) : FRef := ⟨0x42000 + 0x10 * i, 7, 1⟩
/-- TRL_HOME_CFG.ZGATE [8:8] RW (03_position_trails.md, Table 3-15). -/
def TRL_HOME_CFG_ZGATE (i : Nat) : FRef := ⟨0x42000 + 0x10 * i, 8, 1⟩
/-- TRL_HOME_CFG.ARM [9:9] W1S (03_position_trails.md, Table 3-15). -/
def TRL_HOME_CFG_ARM (i : Nat) : FRef := ⟨0x42000 + 0x10 * i, 9, 1⟩
/-- TRL_HOME_CFG.FILT_US [31:16] RW (03_position_trails.md, Table 3-15). -/
def TRL_HOME_CFG_FILT_US (i : Nat) : FRef := ⟨0x42000 + 0x10 * i, 16, 16⟩
/-- TRL_DIV_EN.EN [0:0] RW (03_position_trails.md, Table 3-16). -/
def TRL_DIV_EN_EN (i : Nat) : FRef := ⟨0x43000 + 0x10 * i, 0, 1⟩
/-- TRL_DIV_EN.STATE [2:1] RO (03_position_trails.md, Table 3-16). -/
def TRL_DIV_EN_STATE (i : Nat) : FRef := ⟨0x43000 + 0x10 * i, 1, 2⟩
/-- TRL_DIV_EN.ENABLE_PENDING [3:3] RO (03_position_trails.md, Table 3-16). -/
def TRL_DIV_EN_ENABLE_PENDING (i : Nat) : FRef := ⟨0x43000 + 0x10 * i, 3, 1⟩
/-- TRL_DIV_CFG.SRC [3:0] RW (03_position_trails.md, Table 3-17). -/
def TRL_DIV_CFG_SRC (i : Nat) : FRef := ⟨0x43004 + 0x10 * i, 0, 4⟩
/-- TRL_DIV_CFG.INVERT [4:4] RW (03_position_trails.md, Table 3-17). -/
def TRL_DIV_CFG_INVERT (i : Nat) : FRef := ⟨0x43004 + 0x10 * i, 4, 1⟩
/-- TRL_DIV_CFG.SAFE_A [5:5] RW (03_position_trails.md, Table 3-17). -/
def TRL_DIV_CFG_SAFE_A (i : Nat) : FRef := ⟨0x43004 + 0x10 * i, 5, 1⟩
/-- TRL_DIV_CFG.SAFE_B [6:6] RW (03_position_trails.md, Table 3-17). -/
def TRL_DIV_CFG_SAFE_B (i : Nat) : FRef := ⟨0x43004 + 0x10 * i, 6, 1⟩
/-- TRL_DIV_CFG.MINSP [14:7] RW (03_position_trails.md, Table 3-17). -/
def TRL_DIV_CFG_MINSP (i : Nat) : FRef := ⟨0x43004 + 0x10 * i, 7, 8⟩
/-- TRL_DIV_RATIO.NUM [15:0] RW (03_position_trails.md, Table 3-18). -/
def TRL_DIV_RATIO_NUM (i : Nat) : FRef := ⟨0x43008 + 0x10 * i, 0, 16⟩
/-- TRL_DIV_RATIO.DEN [31:16] RW (03_position_trails.md, Table 3-18). -/
def TRL_DIV_RATIO_DEN (i : Nat) : FRef := ⟨0x43008 + 0x10 * i, 16, 16⟩
/-- TRL_DIV_STATUS.DEBT [15:0] RO (03_position_trails.md, Table 3-19). -/
def TRL_DIV_STATUS_DEBT (i : Nat) : FRef := ⟨0x4300C + 0x10 * i, 0, 16⟩
/-- TRL_DIV_STATUS.LAG [16:16] W1C (03_position_trails.md, Table 3-19). -/
def TRL_DIV_STATUS_LAG (i : Nat) : FRef := ⟨0x4300C + 0x10 * i, 16, 1⟩
/-- TRL_DIV_STATUS.RATIO_ERR [17:17] RO (03_position_trails.md, Table 3-19). -/
def TRL_DIV_STATUS_RATIO_ERR (i : Nat) : FRef := ⟨0x4300C + 0x10 * i, 17, 1⟩

/-! Fields of the TMB block. -/

/-- TMB_DOM_NOW.NOW [63:0] RO (04_time_domains.md, Table 4-3). -/
def TMB_DOM_NOW_NOW (i : Nat) : FRef := ⟨0x60000 + 0x100 * i, 0, 64⟩
/-- TMB_DOM_SET.SET [63:0] WO (04_time_domains.md, Table 4-3). -/
def TMB_DOM_SET_SET (i : Nat) : FRef := ⟨0x60008 + 0x100 * i, 0, 64⟩
/-- TMB_DOM_ADJ.ADJ [63:0] WO (04_time_domains.md, Table 4-3). -/
def TMB_DOM_ADJ_ADJ (i : Nat) : FRef := ⟨0x60010 + 0x100 * i, 0, 64⟩
/-- TMB_DOM_RATE.RATE [31:0] RW (04_time_domains.md, Table 4-3). -/
def TMB_DOM_RATE_RATE (i : Nat) : FRef := ⟨0x60018 + 0x100 * i, 0, 32⟩
/-- TMB_DOM_CFG.SRC [1:0] RW (04_time_domains.md, Table 4-4). -/
def TMB_DOM_CFG_SRC (i : Nat) : FRef := ⟨0x6001C + 0x100 * i, 0, 2⟩
/-- TMB_DOM_CFG.PORT [6:2] RW (04_time_domains.md, Table 4-4). -/
def TMB_DOM_CFG_PORT (i : Nat) : FRef := ⟨0x6001C + 0x100 * i, 2, 5⟩
/-- TMB_DOM_CFG.LOSS [15:8] RW (04_time_domains.md, Table 4-4). -/
def TMB_DOM_CFG_LOSS (i : Nat) : FRef := ⟨0x6001C + 0x100 * i, 8, 8⟩
/-- TMB_DOM_CFG.PTM_MS [25:16] RW (04_time_domains.md, Table 4-4). -/
def TMB_DOM_CFG_PTM_MS (i : Nat) : FRef := ⟨0x6001C + 0x100 * i, 16, 10⟩
/-- TMB_DOM_STATUS.STATE [1:0] RO (04_time_domains.md, Table 4-5). -/
def TMB_DOM_STATUS_STATE (i : Nat) : FRef := ⟨0x60020 + 0x100 * i, 0, 2⟩
/-- TMB_DOM_STATUS.VALID [2:2] RO (04_time_domains.md, Table 4-5). -/
def TMB_DOM_STATUS_VALID (i : Nat) : FRef := ⟨0x60020 + 0x100 * i, 2, 1⟩
/-- TMB_DOM_STATUS.HOLDOVER [3:3] RO (04_time_domains.md, Table 4-5). -/
def TMB_DOM_STATUS_HOLDOVER (i : Nat) : FRef := ⟨0x60020 + 0x100 * i, 3, 1⟩
/-- TMB_DOM_STATUS.STEPPED [4:4] W1C (04_time_domains.md, Table 4-5). -/
def TMB_DOM_STATUS_STEPPED (i : Nat) : FRef := ⟨0x60020 + 0x100 * i, 4, 1⟩
/-- TMB_DOM_STATUS.SRC_ERR [5:5] RO (04_time_domains.md, Table 4-5). -/
def TMB_DOM_STATUS_SRC_ERR (i : Nat) : FRef := ⟨0x60020 + 0x100 * i, 5, 1⟩
/-- TMB_DOM_STATUS.PATH_HOLD [6:6] RO (04_time_domains.md, Table 4-5). -/
def TMB_DOM_STATUS_PATH_HOLD (i : Nat) : FRef := ⟨0x60020 + 0x100 * i, 6, 1⟩
/-- TMB_DOM_STATUS.PTM_DISCARD [31:16] RO (04_time_domains.md, Table 4-5). -/
def TMB_DOM_STATUS_PTM_DISCARD (i : Nat) : FRef := ⟨0x60020 + 0x100 * i, 16, 16⟩
/-- TMB_DOM_SERVO.LOCK_NS [7:0] RW (04_time_domains.md, Table 4-6). -/
def TMB_DOM_SERVO_LOCK_NS (i : Nat) : FRef := ⟨0x60024 + 0x100 * i, 0, 8⟩
/-- TMB_DOM_SERVO.KP_SHIFT [11:8] RW (04_time_domains.md, Table 4-6). -/
def TMB_DOM_SERVO_KP_SHIFT (i : Nat) : FRef := ⟨0x60024 + 0x100 * i, 8, 4⟩
/-- TMB_DOM_SERVO.KI_SHIFT [15:12] RW (04_time_domains.md, Table 4-6). -/
def TMB_DOM_SERVO_KI_SHIFT (i : Nat) : FRef := ⟨0x60024 + 0x100 * i, 12, 4⟩
/-- TMB_DOM_SERVO.STEP_US [23:16] RW (04_time_domains.md, Table 4-6). -/
def TMB_DOM_SERVO_STEP_US (i : Nat) : FRef := ⟨0x60024 + 0x100 * i, 16, 8⟩
/-- TMB_DOM_SERVO.NO_STEP [24:24] RW (04_time_domains.md, Table 4-6). -/
def TMB_DOM_SERVO_NO_STEP (i : Nat) : FRef := ⟨0x60024 + 0x100 * i, 24, 1⟩
/-- TMB_DOM_SERVO.HO_AVG [29:25] RW (04_time_domains.md, Table 4-6). -/
def TMB_DOM_SERVO_HO_AVG (i : Nat) : FRef := ⟨0x60024 + 0x100 * i, 25, 5⟩
/-- TMB_DOM_OFFSET.OFFSET [31:0] RO (04_time_domains.md, Table 4-3). -/
def TMB_DOM_OFFSET_OFFSET (i : Nat) : FRef := ⟨0x60028 + 0x100 * i, 0, 32⟩
/-- TMB_DOM_HO_RATE.HO_RATE [31:0] RO (04_time_domains.md, Table 4-3). -/
def TMB_DOM_HO_RATE_HO_RATE (i : Nat) : FRef := ⟨0x6002C + 0x100 * i, 0, 32⟩
/-- TMB_DOM_STEP_OLD.OLD [63:0] RO (04_time_domains.md, Table 4-3). -/
def TMB_DOM_STEP_OLD_OLD (i : Nat) : FRef := ⟨0x60030 + 0x100 * i, 0, 64⟩
/-- TMB_DOM_STEP_NEW.NEW [63:0] RO (04_time_domains.md, Table 4-3). -/
def TMB_DOM_STEP_NEW_NEW (i : Nat) : FRef := ⟨0x60038 + 0x100 * i, 0, 64⟩
/-- TMB_SNAP_CTRL.GO [0:0] WO (04_time_domains.md, Table 4-7). -/
def TMB_SNAP_CTRL_GO : FRef := ⟨0x60400, 0, 1⟩
/-- TMB_SNAP_CTRL.DONE [1:1] RO (04_time_domains.md, Table 4-7). -/
def TMB_SNAP_CTRL_DONE : FRef := ⟨0x60400, 1, 1⟩
/-- TMB_SNAP_D.TS [63:0] RO (04_time_domains.md, Table 4-7). -/
def TMB_SNAP_D_TS (i : Nat) : FRef := ⟨0x60408 + 0x8 * i, 0, 64⟩
/-- TMB_SNAP_FRAC.FRAC [31:0] RO (04_time_domains.md, Table 4-7). -/
def TMB_SNAP_FRAC_FRAC : FRef := ⟨0x60428, 0, 32⟩
/-- TMB_SNAP_DUC.DUC [63:0] RO (04_time_domains.md, Table 4-7). -/
def TMB_SNAP_DUC_DUC : FRef := ⟨0x60430, 0, 64⟩
/-- TMB_PORT_PTP.EN [0:0] RW (04_time_domains.md, Table 4-9). -/
def TMB_PORT_PTP_EN (i : Nat) : FRef := ⟨0x61000 + 0x40 * i, 0, 1⟩
/-- TMB_PORT_PTP.DOM [2:1] RW (04_time_domains.md, Table 4-9). -/
def TMB_PORT_PTP_DOM (i : Nat) : FRef := ⟨0x61000 + 0x40 * i, 1, 2⟩
/-- TMB_PORT_PTP.ROLE [4:3] RW (04_time_domains.md, Table 4-9). -/
def TMB_PORT_PTP_ROLE (i : Nat) : FRef := ⟨0x61000 + 0x40 * i, 3, 2⟩
/-- TMB_PORT_PTP.P2P [5:5] RW (04_time_domains.md, Table 4-9). -/
def TMB_PORT_PTP_P2P (i : Nat) : FRef := ⟨0x61000 + 0x40 * i, 5, 1⟩
/-- TMB_PORT_PTP.UDP4 [6:6] RW (04_time_domains.md, Table 4-9). -/
def TMB_PORT_PTP_UDP4 (i : Nat) : FRef := ⟨0x61000 + 0x40 * i, 6, 1⟩
/-- TMB_PORT_PTP.ONE_STEP [7:7] RW (04_time_domains.md, Table 4-9). -/
def TMB_PORT_PTP_ONE_STEP (i : Nat) : FRef := ⟨0x61000 + 0x40 * i, 7, 1⟩
/-- TMB_PORT_PTP.HOST_STACK [8:8] RW (04_time_domains.md, Table 4-9). -/
def TMB_PORT_PTP_HOST_STACK (i : Nat) : FRef := ⟨0x61000 + 0x40 * i, 8, 1⟩
/-- TMB_PORT_PTP.PTP_DOMAIN [23:16] RW (04_time_domains.md, Table 4-9). -/
def TMB_PORT_PTP_PTP_DOMAIN (i : Nat) : FRef := ⟨0x61000 + 0x40 * i, 16, 8⟩
/-- TMB_PORT_INGRESS_ADJ.ADJ [31:0] RW (04_time_domains.md, Table 4-8). -/
def TMB_PORT_INGRESS_ADJ_ADJ (i : Nat) : FRef := ⟨0x61004 + 0x40 * i, 0, 32⟩
/-- TMB_PORT_EGRESS_ADJ.ADJ [31:0] RW (04_time_domains.md, Table 4-8). -/
def TMB_PORT_EGRESS_ADJ_ADJ (i : Nat) : FRef := ⟨0x61008 + 0x40 * i, 0, 32⟩
/-- TMB_PORT_DELAY_ASYM.ASYM [31:0] RW (04_time_domains.md, Table 4-8). -/
def TMB_PORT_DELAY_ASYM_ASYM (i : Nat) : FRef := ⟨0x6100C + 0x40 * i, 0, 32⟩
/-- TMB_PORT_PATH.STEP_THR [15:0] RW (04_time_domains.md, Table 4-8). -/
def TMB_PORT_PATH_STEP_THR (i : Nat) : FRef := ⟨0x61010 + 0x40 * i, 0, 16⟩
/-- TMB_PORT_PATH.K [23:16] RW (04_time_domains.md, Table 4-8). -/
def TMB_PORT_PATH_K (i : Nat) : FRef := ⟨0x61010 + 0x40 * i, 16, 8⟩
/-- TMB_PORT_PATH.W [31:24] RW (04_time_domains.md, Table 4-8). -/
def TMB_PORT_PATH_W (i : Nat) : FRef := ⟨0x61010 + 0x40 * i, 24, 8⟩
/-- TMB_PORT_STATUS.PATH_SUSPECT [0:0] RO (04_time_domains.md, Table 4-10). -/
def TMB_PORT_STATUS_PATH_SUSPECT (i : Nat) : FRef := ⟨0x61014 + 0x40 * i, 0, 1⟩
/-- TMB_PORT_STATUS.PATH_STEP [1:1] W1C (04_time_domains.md, Table 4-10). -/
def TMB_PORT_STATUS_PATH_STEP (i : Nat) : FRef := ⟨0x61014 + 0x40 * i, 1, 1⟩
/-- TMB_PORT_STATUS.PORT_STATE [3:2] RO (04_time_domains.md, Table 4-10). -/
def TMB_PORT_STATUS_PORT_STATE (i : Nat) : FRef := ⟨0x61014 + 0x40 * i, 2, 2⟩
/-- TMB_PORT_STATUS.UNSUP [31:16] RO (04_time_domains.md, Table 4-10). -/
def TMB_PORT_STATUS_UNSUP (i : Nat) : FRef := ⟨0x61014 + 0x40 * i, 16, 16⟩
/-- TMB_PORT_MPD.MPD [31:0] RO (04_time_domains.md, Table 4-8). -/
def TMB_PORT_MPD_MPD (i : Nat) : FRef := ⟨0x61018 + 0x40 * i, 0, 32⟩
/-- TMB_TXQ_ID.SEQ_ID [15:0] RO (04_time_domains.md, Table 4-11). -/
def TMB_TXQ_ID_SEQ_ID (i : Nat) : FRef := ⟨0x61020 + 0x40 * i, 0, 16⟩
/-- TMB_TXQ_ID.MSG_TYPE [19:16] RO (04_time_domains.md, Table 4-11). -/
def TMB_TXQ_ID_MSG_TYPE (i : Nat) : FRef := ⟨0x61020 + 0x40 * i, 16, 4⟩
/-- TMB_TXQ_ID.PTP_DOMAIN [27:20] RO (04_time_domains.md, Table 4-11). -/
def TMB_TXQ_ID_PTP_DOMAIN (i : Nat) : FRef := ⟨0x61020 + 0x40 * i, 20, 8⟩
/-- TMB_TXQ_ID.FRAC [35:28] RO (04_time_domains.md, Table 4-11). -/
def TMB_TXQ_ID_FRAC (i : Nat) : FRef := ⟨0x61020 + 0x40 * i, 28, 8⟩
/-- TMB_TXQ_ID.DOM [37:36] RO (04_time_domains.md, Table 4-11). -/
def TMB_TXQ_ID_DOM (i : Nat) : FRef := ⟨0x61020 + 0x40 * i, 36, 2⟩
/-- TMB_TXQ_ID.VALID [63:63] RO (04_time_domains.md, Table 4-11). -/
def TMB_TXQ_ID_VALID (i : Nat) : FRef := ⟨0x61020 + 0x40 * i, 63, 1⟩
/-- TMB_TXQ_TS.TS [63:0] RO (04_time_domains.md, Table 4-8). -/
def TMB_TXQ_TS_TS (i : Nat) : FRef := ⟨0x61028 + 0x40 * i, 0, 64⟩
/-- TMB_TXQ_STATUS.LEVEL [6:0] RO (04_time_domains.md, Table 4-8). -/
def TMB_TXQ_STATUS_LEVEL (i : Nat) : FRef := ⟨0x61030 + 0x40 * i, 0, 7⟩
/-- TMB_TXQ_STATUS.OVF [7:7] W1C (04_time_domains.md, Table 4-8). -/
def TMB_TXQ_STATUS_OVF (i : Nat) : FRef := ⟨0x61030 + 0x40 * i, 7, 1⟩
/-- TMB_TXQ_STATUS.LOST [31:16] RO (04_time_domains.md, Table 4-8). -/
def TMB_TXQ_STATUS_LOST (i : Nat) : FRef := ⟨0x61030 + 0x40 * i, 16, 16⟩
/-- TPG_EN.EN [0:0] RW (04_time_domains.md, Table 4-12). -/
def TPG_EN_EN (i : Nat) : FRef := ⟨0x62000 + 0x40 * i, 0, 1⟩
/-- TPG_EN.STATE [2:1] RO (04_time_domains.md, Table 4-12). -/
def TPG_EN_STATE (i : Nat) : FRef := ⟨0x62000 + 0x40 * i, 1, 2⟩
/-- TPG_EN.ENABLE_PENDING [3:3] RO (04_time_domains.md, Table 4-12). -/
def TPG_EN_ENABLE_PENDING (i : Nat) : FRef := ⟨0x62000 + 0x40 * i, 3, 1⟩
/-- TPG_CFG.DOM [1:0] RW (04_time_domains.md, Table 4-12). -/
def TPG_CFG_DOM (i : Nat) : FRef := ⟨0x62004 + 0x40 * i, 0, 2⟩
/-- TPG_CFG.PERIODIC [2:2] RW (04_time_domains.md, Table 4-12). -/
def TPG_CFG_PERIODIC (i : Nat) : FRef := ⟨0x62004 + 0x40 * i, 2, 1⟩
/-- TPG_CFG.IMMEDIATE [3:3] RW (04_time_domains.md, Table 4-12). -/
def TPG_CFG_IMMEDIATE (i : Nat) : FRef := ⟨0x62004 + 0x40 * i, 3, 1⟩
/-- TPG_CFG.POL [4:4] RW (04_time_domains.md, Table 4-12). -/
def TPG_CFG_POL (i : Nat) : FRef := ⟨0x62004 + 0x40 * i, 4, 1⟩
/-- TPG_START.START [63:0] RW (04_time_domains.md, Table 4-12). -/
def TPG_START_START (i : Nat) : FRef := ⟨0x62008 + 0x40 * i, 0, 64⟩
/-- TPG_PERIOD.PERIOD [47:0] RW (04_time_domains.md, Table 4-12). -/
def TPG_PERIOD_PERIOD (i : Nat) : FRef := ⟨0x62010 + 0x40 * i, 0, 48⟩
/-- TPG_WIDTH.WIDTH [31:0] RW (04_time_domains.md, Table 4-12). -/
def TPG_WIDTH_WIDTH (i : Nat) : FRef := ⟨0x62018 + 0x40 * i, 0, 32⟩
/-- TPG_COUNT.COUNT [31:0] RW (04_time_domains.md, Table 4-12). -/
def TPG_COUNT_COUNT (i : Nat) : FRef := ⟨0x6201C + 0x40 * i, 0, 32⟩
/-- TPG_STATUS.LATE [0:0] W1C (04_time_domains.md, Table 4-12). -/
def TPG_STATUS_LATE (i : Nat) : FRef := ⟨0x62020 + 0x40 * i, 0, 1⟩
/-- TPG_STATUS.FIRED_LATE [1:1] W1C (04_time_domains.md, Table 4-12). -/
def TPG_STATUS_FIRED_LATE (i : Nat) : FRef := ⟨0x62020 + 0x40 * i, 1, 1⟩
/-- TPG_STATUS.CFG_LOCK [2:2] W1C (04_time_domains.md, Table 4-12). -/
def TPG_STATUS_CFG_LOCK (i : Nat) : FRef := ⟨0x62020 + 0x40 * i, 2, 1⟩
/-- TPG_STATUS.CFG_ERR [3:3] RO (04_time_domains.md, Table 4-12). -/
def TPG_STATUS_CFG_ERR (i : Nat) : FRef := ⟨0x62020 + 0x40 * i, 3, 1⟩
/-- TPG_SKIPPED.COUNT [31:0] RO (04_time_domains.md, Table 4-12). -/
def TPG_SKIPPED_COUNT (i : Nat) : FRef := ⟨0x62024 + 0x40 * i, 0, 32⟩
/-- TPG_FIRED.COUNT [31:0] RO (04_time_domains.md, Table 4-12). -/
def TPG_FIRED_COUNT (i : Nat) : FRef := ⟨0x62028 + 0x40 * i, 0, 32⟩

/-! Fields of the STK block. -/

/-- STK_EN.EN [0:0] RW (05_stakes_and_triggers.md, Table 5-6). -/
def STK_EN_EN (i : Nat) : FRef := ⟨0x50000 + 0x100 * i, 0, 1⟩
/-- STK_EN.STATE [2:1] RO (05_stakes_and_triggers.md, Table 5-6). -/
def STK_EN_STATE (i : Nat) : FRef := ⟨0x50000 + 0x100 * i, 1, 2⟩
/-- STK_EN.ENABLE_PENDING [3:3] RO (05_stakes_and_triggers.md, Table 5-6). -/
def STK_EN_ENABLE_PENDING (i : Nat) : FRef := ⟨0x50000 + 0x100 * i, 3, 1⟩
/-- STK_CTRL.TRAIL [3:0] RW (05_stakes_and_triggers.md, Table 5-7). -/
def STK_CTRL_TRAIL (i : Nat) : FRef := ⟨0x50004 + 0x100 * i, 0, 4⟩
/-- STK_CTRL.DIR [4:4] RW (05_stakes_and_triggers.md, Table 5-7). -/
def STK_CTRL_DIR (i : Nat) : FRef := ⟨0x50004 + 0x100 * i, 4, 1⟩
/-- STK_CTRL.LATE_FIRE [5:5] RW (05_stakes_and_triggers.md, Table 5-7). -/
def STK_CTRL_LATE_FIRE (i : Nat) : FRef := ⟨0x50004 + 0x100 * i, 5, 1⟩
/-- STK_CTRL.STEER [6:6] RW (05_stakes_and_triggers.md, Table 5-7). -/
def STK_CTRL_STEER (i : Nat) : FRef := ⟨0x50004 + 0x100 * i, 6, 1⟩
/-- STK_CTRL.STEER_SRC [11:7] RW (05_stakes_and_triggers.md, Table 5-7). -/
def STK_CTRL_STEER_SRC (i : Nat) : FRef := ⟨0x50004 + 0x100 * i, 7, 5⟩
/-- STK_LEAD.LEAD [19:0] RW (05_stakes_and_triggers.md, Table 5-6). -/
def STK_LEAD_LEAD (i : Nat) : FRef := ⟨0x50008 + 0x100 * i, 0, 20⟩
/-- STK_TBL_BASE.BASE [16:0] RW (05_stakes_and_triggers.md, Table 5-6). -/
def STK_TBL_BASE_BASE (i : Nat) : FRef := ⟨0x5000C + 0x100 * i, 0, 17⟩
/-- STK_TBL_LEN.LEN [17:0] RW (05_stakes_and_triggers.md, Table 5-6). -/
def STK_TBL_LEN_LEN (i : Nat) : FRef := ⟨0x50010 + 0x100 * i, 0, 18⟩
/-- STK_CYCLE.CYCLE [62:0] RW (05_stakes_and_triggers.md, Table 5-6). -/
def STK_CYCLE_CYCLE (i : Nat) : FRef := ⟨0x50018 + 0x100 * i, 0, 63⟩
/-- STK_OFFSET.OFFSET [63:0] RW (05_stakes_and_triggers.md, Table 5-6). -/
def STK_OFFSET_OFFSET (i : Nat) : FRef := ⟨0x50020 + 0x100 * i, 0, 64⟩
/-- STK_OFFSET_NOW.OFFSET_NOW [63:0] RO (05_stakes_and_triggers.md, Table 5-6). -/
def STK_OFFSET_NOW_OFFSET_NOW (i : Nat) : FRef := ⟨0x50028 + 0x100 * i, 0, 64⟩
/-- STK_ARMED_TGT.TGT [63:0] RO (05_stakes_and_triggers.md, Table 5-6). -/
def STK_ARMED_TGT_TGT (i : Nat) : FRef := ⟨0x50030 + 0x100 * i, 0, 64⟩
/-- STK_STATUS.WALK [1:0] RO (05_stakes_and_triggers.md, Table 5-8). -/
def STK_STATUS_WALK (i : Nat) : FRef := ⟨0x50038 + 0x100 * i, 0, 2⟩
/-- STK_STATUS.LATE [2:2] W1C (05_stakes_and_triggers.md, Table 5-8). -/
def STK_STATUS_LATE (i : Nat) : FRef := ⟨0x50038 + 0x100 * i, 2, 1⟩
/-- STK_STATUS.RESEEK [3:3] W1C (05_stakes_and_triggers.md, Table 5-8). -/
def STK_STATUS_RESEEK (i : Nat) : FRef := ⟨0x50038 + 0x100 * i, 3, 1⟩
/-- STK_STATUS.CFG_ERR [4:4] RO (05_stakes_and_triggers.md, Table 5-8). -/
def STK_STATUS_CFG_ERR (i : Nat) : FRef := ⟨0x50038 + 0x100 * i, 4, 1⟩
/-- STK_STATUS.ARMED_IDX [24:8] RO (05_stakes_and_triggers.md, Table 5-8). -/
def STK_STATUS_ARMED_IDX (i : Nat) : FRef := ⟨0x50038 + 0x100 * i, 8, 17⟩
/-- STK_ARMED_K.K [31:0] RO (05_stakes_and_triggers.md, Table 5-6). -/
def STK_ARMED_K_K (i : Nat) : FRef := ⟨0x5003C + 0x100 * i, 0, 32⟩
/-- STK_CNT_FIRE.COUNT [31:0] RO (05_stakes_and_triggers.md, Table 5-6). -/
def STK_CNT_FIRE_COUNT (i : Nat) : FRef := ⟨0x50040 + 0x100 * i, 0, 32⟩
/-- STK_CNT_SKIP.COUNT [31:0] RO (05_stakes_and_triggers.md, Table 5-6). -/
def STK_CNT_SKIP_COUNT (i : Nat) : FRef := ⟨0x50044 + 0x100 * i, 0, 32⟩
/-- STK_CNT_LATEFIRE.COUNT [31:0] RO (05_stakes_and_triggers.md, Table 5-6). -/
def STK_CNT_LATEFIRE_COUNT (i : Nat) : FRef := ⟨0x50048 + 0x100 * i, 0, 32⟩
/-- STK_REARM.GO [0:0] WO (05_stakes_and_triggers.md, Table 5-6). -/
def STK_REARM_GO (i : Nat) : FRef := ⟨0x5004C + 0x100 * i, 0, 1⟩
/-- STK_LAST_POS.POS [63:0] RO (05_stakes_and_triggers.md, Table 5-6). -/
def STK_LAST_POS_POS (i : Nat) : FRef := ⟨0x50050 + 0x100 * i, 0, 64⟩
/-- STK_LAST_FIRE.FINE [3:0] RO (05_stakes_and_triggers.md, Table 5-9). -/
def STK_LAST_FIRE_FINE (i : Nat) : FRef := ⟨0x50058 + 0x100 * i, 0, 4⟩
/-- STK_LAST_FIRE.PREDICTED [4:4] RO (05_stakes_and_triggers.md, Table 5-9). -/
def STK_LAST_FIRE_PREDICTED (i : Nat) : FRef := ⟨0x50058 + 0x100 * i, 4, 1⟩
/-- STK_LAST_FIRE.LATE [5:5] RO (05_stakes_and_triggers.md, Table 5-9). -/
def STK_LAST_FIRE_LATE (i : Nat) : FRef := ⟨0x50058 + 0x100 * i, 5, 1⟩
/-- STK_LAST_FIRE.SPEED_VALID [6:6] RO (05_stakes_and_triggers.md, Table 5-9). -/
def STK_LAST_FIRE_SPEED_VALID (i : Nat) : FRef := ⟨0x50058 + 0x100 * i, 6, 1⟩
/-- STK_TRG_CFG.SRC_TYPE [1:0] RW (05_stakes_and_triggers.md, Table 5-11). -/
def STK_TRG_CFG_SRC_TYPE (i : Nat) : FRef := ⟨0x54000 + 0x10 * i, 0, 2⟩
/-- STK_TRG_CFG.SRC_IDX [7:2] RW (05_stakes_and_triggers.md, Table 5-11). -/
def STK_TRG_CFG_SRC_IDX (i : Nat) : FRef := ⟨0x54000 + 0x10 * i, 2, 6⟩
/-- STK_TRG_CFG.OUT [8:8] RW (05_stakes_and_triggers.md, Table 5-11). -/
def STK_TRG_CFG_OUT (i : Nat) : FRef := ⟨0x54000 + 0x10 * i, 8, 1⟩
/-- STK_TRG_CFG.POL [9:9] RW (05_stakes_and_triggers.md, Table 5-11). -/
def STK_TRG_CFG_POL (i : Nat) : FRef := ⟨0x54000 + 0x10 * i, 9, 1⟩
/-- STK_TRG_CFG.SAFE [10:10] RW (05_stakes_and_triggers.md, Table 5-11). -/
def STK_TRG_CFG_SAFE (i : Nat) : FRef := ⟨0x54000 + 0x10 * i, 10, 1⟩
/-- STK_TRG_CFG.FINE_EN [11:11] RW (05_stakes_and_triggers.md, Table 5-11). -/
def STK_TRG_CFG_FINE_EN (i : Nat) : FRef := ⟨0x54000 + 0x10 * i, 11, 1⟩
/-- STK_TRG_CFG.LEVEL [12:12] RW (05_stakes_and_triggers.md, Table 5-11). -/
def STK_TRG_CFG_LEVEL (i : Nat) : FRef := ⟨0x54000 + 0x10 * i, 12, 1⟩
/-- STK_TRG_WIDTH.WIDTH [19:0] RW (05_stakes_and_triggers.md, Table 5-10). -/
def STK_TRG_WIDTH_WIDTH (i : Nat) : FRef := ⟨0x54004 + 0x10 * i, 0, 20⟩
/-- STK_TRG_SKEW.SKEW [7:0] RW (05_stakes_and_triggers.md, Table 5-10). -/
def STK_TRG_SKEW_SKEW (i : Nat) : FRef := ⟨0x54008 + 0x10 * i, 0, 8⟩
/-- STK_TRG_STATUS.ACTIVE [0:0] RO (05_stakes_and_triggers.md, Table 5-12). -/
def STK_TRG_STATUS_ACTIVE (i : Nat) : FRef := ⟨0x5400C + 0x10 * i, 0, 1⟩
/-- STK_TRG_STATUS.OVR [1:1] W1C (05_stakes_and_triggers.md, Table 5-12). -/
def STK_TRG_STATUS_OVR (i : Nat) : FRef := ⟨0x5400C + 0x10 * i, 1, 1⟩
/-- STK_TRG_STATUS.OVR_CNT [31:16] RO (05_stakes_and_triggers.md, Table 5-12). -/
def STK_TRG_STATUS_OVR_CNT (i : Nat) : FRef := ⟨0x5400C + 0x10 * i, 16, 16⟩
/-- STK_CXP_CFG.SRC_TYPE [1:0] RW (05_stakes_and_triggers.md, Table 5-13). -/
def STK_CXP_CFG_SRC_TYPE (i : Nat) : FRef := ⟨0x55000 + 0x10 * i, 0, 2⟩
/-- STK_CXP_CFG.SRC_IDX [7:2] RW (05_stakes_and_triggers.md, Table 5-13). -/
def STK_CXP_CFG_SRC_IDX (i : Nat) : FRef := ⟨0x55000 + 0x10 * i, 2, 6⟩
/-- STK_CXP_CFG.OUT [8:8] RW (05_stakes_and_triggers.md, Table 5-13). -/
def STK_CXP_CFG_OUT (i : Nat) : FRef := ⟨0x55000 + 0x10 * i, 8, 1⟩
/-- STK_CXP_CFG.FALL [9:9] RW (05_stakes_and_triggers.md, Table 5-13). -/
def STK_CXP_CFG_FALL (i : Nat) : FRef := ⟨0x55000 + 0x10 * i, 9, 1⟩
/-- STK_CXP_WIDTH.WIDTH [19:0] RW (05_stakes_and_triggers.md, Table 5-13). -/
def STK_CXP_WIDTH_WIDTH (i : Nat) : FRef := ⟨0x55004 + 0x10 * i, 0, 20⟩
/-- STK_CXP_STATUS.OVR [0:0] W1C (05_stakes_and_triggers.md, Table 5-13). -/
def STK_CXP_STATUS_OVR (i : Nat) : FRef := ⟨0x55008 + 0x10 * i, 0, 1⟩
/-- STK_CXP_STATUS.NO_UPLINK [1:1] RO (05_stakes_and_triggers.md, Table 5-13). -/
def STK_CXP_STATUS_NO_UPLINK (i : Nat) : FRef := ⟨0x55008 + 0x10 * i, 1, 1⟩
/-- STK_CXP_STATUS.SENT [31:16] RO (05_stakes_and_triggers.md, Table 5-13). -/
def STK_CXP_STATUS_SENT (i : Nat) : FRef := ⟨0x55008 + 0x10 * i, 16, 16⟩
/-- STK_CXP_LASTDLY.DELAY [15:0] RO (05_stakes_and_triggers.md, Table 5-13). -/
def STK_CXP_LASTDLY_DELAY (i : Nat) : FRef := ⟨0x5500C + 0x10 * i, 0, 16⟩
/-- STK_TW_ADDR.ADDR [16:0] RW (05_stakes_and_triggers.md, Table 5-14). -/
def STK_TW_ADDR_ADDR : FRef := ⟨0x56000, 0, 17⟩
/-- STK_TW_DATA.DATA [31:0] RW (05_stakes_and_triggers.md, Table 5-14). -/
def STK_TW_DATA_DATA (i : Nat) : FRef := ⟨0x56010 + 0x4 * i, 0, 32⟩

/-! Fields of the CAM block. -/

/-- CAM_LANE_EN.EN [0:0] RW (06_camera_lanes.md, Table 6-8). -/
def CAM_LANE_EN_EN (i : Nat) : FRef := ⟨0x70000 + 0x2000 * i, 0, 1⟩
/-- CAM_LANE_EN.STATE [2:1] RO (06_camera_lanes.md, Table 6-8). -/
def CAM_LANE_EN_STATE (i : Nat) : FRef := ⟨0x70000 + 0x2000 * i, 1, 2⟩
/-- CAM_LANE_EN.ENABLE_PENDING [3:3] RO (06_camera_lanes.md, Table 6-8). -/
def CAM_LANE_EN_ENABLE_PENDING (i : Nat) : FRef := ⟨0x70000 + 0x2000 * i, 3, 1⟩
/-- CAM_LANE_CFG.MODE [3:0] RW (06_camera_lanes.md, Table 6-9). -/
def CAM_LANE_CFG_MODE (i : Nat) : FRef := ⟨0x70004 + 0x2000 * i, 0, 4⟩
/-- CAM_LANE_CFG.BOND [5:4] RW (06_camera_lanes.md, Table 6-9). -/
def CAM_LANE_CFG_BOND (i : Nat) : FRef := ⟨0x70004 + 0x2000 * i, 4, 2⟩
/-- CAM_LANE_CFG.DISCOVER [6:6] RW (06_camera_lanes.md, Table 6-9). -/
def CAM_LANE_CFG_DISCOVER (i : Nat) : FRef := ⟨0x70004 + 0x2000 * i, 6, 1⟩
/-- CAM_LANE_CFG.FEC [8:7] RW (06_camera_lanes.md, Table 6-9). -/
def CAM_LANE_CFG_FEC (i : Nat) : FRef := ⟨0x70004 + 0x2000 * i, 7, 2⟩
/-- CAM_LANE_CFG.RX_INV [9:9] RW (06_camera_lanes.md, Table 6-9). -/
def CAM_LANE_CFG_RX_INV (i : Nat) : FRef := ⟨0x70004 + 0x2000 * i, 9, 1⟩
/-- CAM_LANE_CFG.TX_INV [10:10] RW (06_camera_lanes.md, Table 6-9). -/
def CAM_LANE_CFG_TX_INV (i : Nat) : FRef := ⟨0x70004 + 0x2000 * i, 10, 1⟩
/-- CAM_LANE_STATUS.TRAIN [2:0] RO (06_camera_lanes.md, Table 6-10). -/
def CAM_LANE_STATUS_TRAIN (i : Nat) : FRef := ⟨0x70008 + 0x2000 * i, 0, 3⟩
/-- CAM_LANE_STATUS.UP [3:3] RO (06_camera_lanes.md, Table 6-10). -/
def CAM_LANE_STATUS_UP (i : Nat) : FRef := ⟨0x70008 + 0x2000 * i, 3, 1⟩
/-- CAM_LANE_STATUS.NO_SIGNAL [4:4] RO (06_camera_lanes.md, Table 6-10). -/
def CAM_LANE_STATUS_NO_SIGNAL (i : Nat) : FRef := ⟨0x70008 + 0x2000 * i, 4, 1⟩
/-- CAM_LANE_STATUS.CFG_ERR [5:5] RO (06_camera_lanes.md, Table 6-10). -/
def CAM_LANE_STATUS_CFG_ERR (i : Nat) : FRef := ⟨0x70008 + 0x2000 * i, 5, 1⟩
/-- CAM_LANE_STATUS.MEMBER [6:6] RO (06_camera_lanes.md, Table 6-10). -/
def CAM_LANE_STATUS_MEMBER (i : Nat) : FRef := ⟨0x70008 + 0x2000 * i, 6, 1⟩
/-- CAM_LANE_STATUS.MASTER [11:7] RO (06_camera_lanes.md, Table 6-10). -/
def CAM_LANE_STATUS_MASTER (i : Nat) : FRef := ⟨0x70008 + 0x2000 * i, 7, 5⟩
/-- CAM_LANE_STATUS.UPLINK_UP [12:12] RO (06_camera_lanes.md, Table 6-10). -/
def CAM_LANE_STATUS_UPLINK_UP (i : Nat) : FRef := ⟨0x70008 + 0x2000 * i, 12, 1⟩
/-- CAM_LANE_STATUS.HIGH_BER [13:13] RO (06_camera_lanes.md, Table 6-10). -/
def CAM_LANE_STATUS_HIGH_BER (i : Nat) : FRef := ⟨0x70008 + 0x2000 * i, 13, 1⟩
/-- CAM_LANE_STATUS.RETRAINS [31:16] RO (06_camera_lanes.md, Table 6-10). -/
def CAM_LANE_STATUS_RETRAINS (i : Nat) : FRef := ⟨0x70008 + 0x2000 * i, 16, 16⟩
/-- CAM_CNT_CRC.COUNT [31:0] RO (06_camera_lanes.md, Table 6-8). -/
def CAM_CNT_CRC_COUNT (i : Nat) : FRef := ⟨0x70010 + 0x2000 * i, 0, 32⟩
/-- CAM_CNT_CODE.COUNT [31:0] RO (06_camera_lanes.md, Table 6-8). -/
def CAM_CNT_CODE_COUNT (i : Nat) : FRef := ⟨0x70014 + 0x2000 * i, 0, 32⟩
/-- CAM_CNT_ALIGN.COUNT [31:0] RO (06_camera_lanes.md, Table 6-8). -/
def CAM_CNT_ALIGN_COUNT (i : Nat) : FRef := ⟨0x70018 + 0x2000 * i, 0, 32⟩
/-- CAM_CNT_DROP.COUNT [31:0] RO (06_camera_lanes.md, Table 6-8). -/
def CAM_CNT_DROP_COUNT (i : Nat) : FRef := ⟨0x7001C + 0x2000 * i, 0, 32⟩
/-- CAM_CNT_UNSUP.COUNT [31:0] RO (06_camera_lanes.md, Table 6-8). -/
def CAM_CNT_UNSUP_COUNT (i : Nat) : FRef := ⟨0x70020 + 0x2000 * i, 0, 32⟩
/-- CAM_CNT_FILTERED.COUNT [31:0] RO (06_camera_lanes.md, Table 6-8). -/
def CAM_CNT_FILTERED_COUNT (i : Nat) : FRef := ⟨0x70024 + 0x2000 * i, 0, 32⟩
/-- CAM_CNT_RESEND_REQ.COUNT [31:0] RO (06_camera_lanes.md, Table 6-8). -/
def CAM_CNT_RESEND_REQ_COUNT (i : Nat) : FRef := ⟨0x70028 + 0x2000 * i, 0, 32⟩
/-- CAM_CNT_RESEND_FAIL.COUNT [31:0] RO (06_camera_lanes.md, Table 6-8). -/
def CAM_CNT_RESEND_FAIL_COUNT (i : Nat) : FRef := ⟨0x7002C + 0x2000 * i, 0, 32⟩
/-- CAM_CNT_CLR.GO [0:0] WO (06_camera_lanes.md, Table 6-8). -/
def CAM_CNT_CLR_GO (i : Nat) : FRef := ⟨0x70030 + 0x2000 * i, 0, 1⟩
/-- CAM_SKEW.SKEW [15:0] RO (06_camera_lanes.md, Table 6-8). -/
def CAM_SKEW_SKEW (i : Nat) : FRef := ⟨0x70034 + 0x2000 * i, 0, 16⟩
/-- CAM_ETH_MAC.MAC [47:0] RW (06_camera_lanes.md, Table 6-8). -/
def CAM_ETH_MAC_MAC (i : Nat) : FRef := ⟨0x70040 + 0x2000 * i, 0, 48⟩
/-- CAM_ETH_IP.IP [31:0] RW (06_camera_lanes.md, Table 6-8). -/
def CAM_ETH_IP_IP (i : Nat) : FRef := ⟨0x70048 + 0x2000 * i, 0, 32⟩
/-- CAM_ETH_MASK.MASK [31:0] RW (06_camera_lanes.md, Table 6-8). -/
def CAM_ETH_MASK_MASK (i : Nat) : FRef := ⟨0x7004C + 0x2000 * i, 0, 32⟩
/-- CAM_ETH_CFG.GVCP_HOST [0:0] RW (06_camera_lanes.md, Table 6-11). -/
def CAM_ETH_CFG_GVCP_HOST (i : Nat) : FRef := ⟨0x70050 + 0x2000 * i, 0, 1⟩
/-- CAM_ETH_CFG.ARP_FW [1:1] RW (06_camera_lanes.md, Table 6-11). -/
def CAM_ETH_CFG_ARP_FW (i : Nat) : FRef := ⟨0x70050 + 0x2000 * i, 1, 1⟩
/-- CAM_ETH_CFG.PROMISC [2:2] RW (06_camera_lanes.md, Table 6-11). -/
def CAM_ETH_CFG_PROMISC (i : Nat) : FRef := ⟨0x70050 + 0x2000 * i, 2, 1⟩
/-- CAM_CTL_CMD.GO [0:0] WO (06_camera_lanes.md, Table 6-8). -/
def CAM_CTL_CMD_GO (i : Nat) : FRef := ⟨0x70100 + 0x2000 * i, 0, 1⟩
/-- CAM_CTL_CMD.WRITE [1:1] WO (06_camera_lanes.md, Table 6-8). -/
def CAM_CTL_CMD_WRITE (i : Nat) : FRef := ⟨0x70100 + 0x2000 * i, 1, 1⟩
/-- CAM_CTL_CMD.LEN [10:2] WO (06_camera_lanes.md, Table 6-8). -/
def CAM_CTL_CMD_LEN (i : Nat) : FRef := ⟨0x70100 + 0x2000 * i, 2, 9⟩
/-- CAM_CTL_ADDR.ADDR [31:0] RW (06_camera_lanes.md, Table 6-8). -/
def CAM_CTL_ADDR_ADDR (i : Nat) : FRef := ⟨0x70108 + 0x2000 * i, 0, 32⟩
/-- CAM_CTL_STATUS.BUSY [0:0] RO (06_camera_lanes.md, Table 6-12). -/
def CAM_CTL_STATUS_BUSY (i : Nat) : FRef := ⟨0x70110 + 0x2000 * i, 0, 1⟩
/-- CAM_CTL_STATUS.DONE [1:1] W1C (06_camera_lanes.md, Table 6-12). -/
def CAM_CTL_STATUS_DONE (i : Nat) : FRef := ⟨0x70110 + 0x2000 * i, 1, 1⟩
/-- CAM_CTL_STATUS.ERR [4:2] RO (06_camera_lanes.md, Table 6-12). -/
def CAM_CTL_STATUS_ERR (i : Nat) : FRef := ⟨0x70110 + 0x2000 * i, 2, 3⟩
/-- CAM_CTL_STATUS.CAM_CODE [31:16] RO (06_camera_lanes.md, Table 6-12). -/
def CAM_CTL_STATUS_CAM_CODE (i : Nat) : FRef := ⟨0x70110 + 0x2000 * i, 16, 16⟩
/-- CAM_CTL_TIMEOUT.TIMEOUT [15:0] RW (06_camera_lanes.md, Table 6-8). -/
def CAM_CTL_TIMEOUT_TIMEOUT (i : Nat) : FRef := ⟨0x70114 + 0x2000 * i, 0, 16⟩
/-- CAM_CTL_BUF.DATA [31:0] RW (06_camera_lanes.md, Table 6-8). -/
def CAM_CTL_BUF_DATA (i j : Nat) : FRef := ⟨0x70200 + 0x2000 * i + 0x4 * j, 0, 32⟩
/-- CAM_RAW_RX.LEN [11:0] RO (06_camera_lanes.md, Table 6-13). -/
def CAM_RAW_RX_LEN (i : Nat) : FRef := ⟨0x70400 + 0x2000 * i, 0, 12⟩
/-- CAM_RAW_RX.KIND [16:16] RO (06_camera_lanes.md, Table 6-13). -/
def CAM_RAW_RX_KIND (i : Nat) : FRef := ⟨0x70400 + 0x2000 * i, 16, 1⟩
/-- CAM_RAW_RX.VALID [63:63] RO (06_camera_lanes.md, Table 6-13). -/
def CAM_RAW_RX_VALID (i : Nat) : FRef := ⟨0x70400 + 0x2000 * i, 63, 1⟩
/-- CAM_RAW_RX_POP.GO [0:0] WO (06_camera_lanes.md, Table 6-8). -/
def CAM_RAW_RX_POP_GO (i : Nat) : FRef := ⟨0x70408 + 0x2000 * i, 0, 1⟩
/-- CAM_RAW_RX_STATUS.LEVEL [3:0] RO (06_camera_lanes.md, Table 6-8). -/
def CAM_RAW_RX_STATUS_LEVEL (i : Nat) : FRef := ⟨0x7040C + 0x2000 * i, 0, 4⟩
/-- CAM_RAW_RX_STATUS.OVF [4:4] W1C (06_camera_lanes.md, Table 6-8). -/
def CAM_RAW_RX_STATUS_OVF (i : Nat) : FRef := ⟨0x7040C + 0x2000 * i, 4, 1⟩
/-- CAM_RAW_RX_STATUS.LOST [31:16] RO (06_camera_lanes.md, Table 6-8). -/
def CAM_RAW_RX_STATUS_LOST (i : Nat) : FRef := ⟨0x7040C + 0x2000 * i, 16, 16⟩
/-- CAM_RAW_TX_CTRL.LEN [11:0] WO (06_camera_lanes.md, Table 6-8). -/
def CAM_RAW_TX_CTRL_LEN (i : Nat) : FRef := ⟨0x70410 + 0x2000 * i, 0, 12⟩
/-- CAM_RAW_TX_CTRL.GO [12:12] WO (06_camera_lanes.md, Table 6-8). -/
def CAM_RAW_TX_CTRL_GO (i : Nat) : FRef := ⟨0x70410 + 0x2000 * i, 12, 1⟩
/-- CAM_RAW_TX_STATUS.BUSY [0:0] RO (06_camera_lanes.md, Table 6-8). -/
def CAM_RAW_TX_STATUS_BUSY (i : Nat) : FRef := ⟨0x70414 + 0x2000 * i, 0, 1⟩
/-- CAM_RAW_TX_STATUS.DONE [1:1] W1C (06_camera_lanes.md, Table 6-8). -/
def CAM_RAW_TX_STATUS_DONE (i : Nat) : FRef := ⟨0x70414 + 0x2000 * i, 1, 1⟩
/-- CAM_RAW_TX_STATUS.REFUSED [2:2] W1C (06_camera_lanes.md, Table 6-8). -/
def CAM_RAW_TX_STATUS_REFUSED (i : Nat) : FRef := ⟨0x70414 + 0x2000 * i, 2, 1⟩
/-- CAM_RAW_RX_BUF.DATA [31:0] RO (06_camera_lanes.md, Table 6-8). -/
def CAM_RAW_RX_BUF_DATA (i j : Nat) : FRef := ⟨0x70800 + 0x2000 * i + 0x4 * j, 0, 32⟩
/-- CAM_RAW_TX_BUF.DATA [31:0] RW (06_camera_lanes.md, Table 6-8). -/
def CAM_RAW_TX_BUF_DATA (i j : Nat) : FRef := ⟨0x71800 + 0x2000 * i + 0x4 * j, 0, 32⟩
/-- CAM_STR_EN.EN [0:0] RW (06_camera_lanes.md, Table 6-14). -/
def CAM_STR_EN_EN (st : Nat) : FRef := ⟨0x71000 + 0x2000 * (st / 2) + 0x100 * (st % 2), 0, 1⟩
/-- CAM_STR_EN.STATE [2:1] RO (06_camera_lanes.md, Table 6-14). -/
def CAM_STR_EN_STATE (st : Nat) : FRef := ⟨0x71000 + 0x2000 * (st / 2) + 0x100 * (st % 2), 1, 2⟩
/-- CAM_STR_EN.ENABLE_PENDING [3:3] RO (06_camera_lanes.md, Table 6-14). -/
def CAM_STR_EN_ENABLE_PENDING (st : Nat) : FRef := ⟨0x71000 + 0x2000 * (st / 2) + 0x100 * (st % 2), 3, 1⟩
/-- CAM_STR_BIND.LANE [4:0] RW (06_camera_lanes.md, Table 6-15). -/
def CAM_STR_BIND_LANE (st : Nat) : FRef := ⟨0x71004 + 0x2000 * (st / 2) + 0x100 * (st % 2), 0, 5⟩
/-- CAM_STR_BIND.LINE [5:5] RW (06_camera_lanes.md, Table 6-15). -/
def CAM_STR_BIND_LINE (st : Nat) : FRef := ⟨0x71004 + 0x2000 * (st / 2) + 0x100 * (st % 2), 5, 1⟩
/-- CAM_STR_BIND.SRC_ID [13:6] RW (06_camera_lanes.md, Table 6-15). -/
def CAM_STR_BIND_SRC_ID (st : Nat) : FRef := ⟨0x71004 + 0x2000 * (st / 2) + 0x100 * (st % 2), 6, 8⟩
/-- CAM_STR_BIND.UDP [29:14] RW (06_camera_lanes.md, Table 6-15). -/
def CAM_STR_BIND_UDP (st : Nat) : FRef := ⟨0x71004 + 0x2000 * (st / 2) + 0x100 * (st % 2), 14, 16⟩
/-- CAM_STR_BIND.EXT_ID [30:30] RW (06_camera_lanes.md, Table 6-15). -/
def CAM_STR_BIND_EXT_ID (st : Nat) : FRef := ⟨0x71004 + 0x2000 * (st / 2) + 0x100 * (st % 2), 30, 1⟩
/-- CAM_STR_FMT.FORMAT [4:0] RW (06_camera_lanes.md, Table 6-14). -/
def CAM_STR_FMT_FORMAT (st : Nat) : FRef := ⟨0x71008 + 0x2000 * (st / 2) + 0x100 * (st % 2), 0, 5⟩
/-- CAM_STR_FMT.WIRE_P [5:5] RW (06_camera_lanes.md, Table 6-14). -/
def CAM_STR_FMT_WIRE_P (st : Nat) : FRef := ⟨0x71008 + 0x2000 * (st / 2) + 0x100 * (st % 2), 5, 1⟩
/-- CAM_STR_FMT.UNPACK [6:6] RW (06_camera_lanes.md, Table 6-14). -/
def CAM_STR_FMT_UNPACK (st : Nat) : FRef := ⟨0x71008 + 0x2000 * (st / 2) + 0x100 * (st % 2), 6, 1⟩
/-- CAM_STR_GEOM.WIDTH [15:0] RW (06_camera_lanes.md, Table 6-14). -/
def CAM_STR_GEOM_WIDTH (st : Nat) : FRef := ⟨0x7100C + 0x2000 * (st / 2) + 0x100 * (st % 2), 0, 16⟩
/-- CAM_STR_GEOM.HEIGHT [31:16] RW (06_camera_lanes.md, Table 6-14). -/
def CAM_STR_GEOM_HEIGHT (st : Nat) : FRef := ⟨0x7100C + 0x2000 * (st / 2) + 0x100 * (st % 2), 16, 16⟩
/-- CAM_STR_RESEND.WAIT [7:0] RW (06_camera_lanes.md, Table 6-14). -/
def CAM_STR_RESEND_WAIT (st : Nat) : FRef := ⟨0x71010 + 0x2000 * (st / 2) + 0x100 * (st % 2), 0, 8⟩
/-- CAM_STR_RESEND.MAX [11:8] RW (06_camera_lanes.md, Table 6-14). -/
def CAM_STR_RESEND_MAX (st : Nat) : FRef := ⟨0x71010 + 0x2000 * (st / 2) + 0x100 * (st % 2), 8, 4⟩
/-- CAM_STR_RESEND.TIMEOUT [27:12] RW (06_camera_lanes.md, Table 6-14). -/
def CAM_STR_RESEND_TIMEOUT (st : Nat) : FRef := ⟨0x71010 + 0x2000 * (st / 2) + 0x100 * (st % 2), 12, 16⟩
/-- CAM_STR_STATUS.IN_IMAGE [0:0] RO (06_camera_lanes.md, Table 6-14). -/
def CAM_STR_STATUS_IN_IMAGE (st : Nat) : FRef := ⟨0x71014 + 0x2000 * (st / 2) + 0x100 * (st % 2), 0, 1⟩
/-- CAM_STR_STATUS.CFG_LOCK [1:1] W1C (06_camera_lanes.md, Table 6-14). -/
def CAM_STR_STATUS_CFG_LOCK (st : Nat) : FRef := ⟨0x71014 + 0x2000 * (st / 2) + 0x100 * (st % 2), 1, 1⟩
/-- CAM_STR_STATUS.CFG_ERR [2:2] RO (06_camera_lanes.md, Table 6-14). -/
def CAM_STR_STATUS_CFG_ERR (st : Nat) : FRef := ⟨0x71014 + 0x2000 * (st / 2) + 0x100 * (st % 2), 2, 1⟩
/-- CAM_STR_STATUS.SIZE_ERR [3:3] W1C (06_camera_lanes.md, Table 6-14). -/
def CAM_STR_STATUS_SIZE_ERR (st : Nat) : FRef := ⟨0x71014 + 0x2000 * (st / 2) + 0x100 * (st % 2), 3, 1⟩
/-- CAM_CNT_LINES.COUNT [31:0] RO (06_camera_lanes.md, Table 6-14). -/
def CAM_CNT_LINES_COUNT (st : Nat) : FRef := ⟨0x71018 + 0x2000 * (st / 2) + 0x100 * (st % 2), 0, 32⟩
/-- CAM_CNT_MISSING.COUNT [31:0] RO (06_camera_lanes.md, Table 6-14). -/
def CAM_CNT_MISSING_COUNT (st : Nat) : FRef := ⟨0x7101C + 0x2000 * (st / 2) + 0x100 * (st % 2), 0, 32⟩
/-- CAM_CNT_IMAGES.COUNT [31:0] RO (06_camera_lanes.md, Table 6-14). -/
def CAM_CNT_IMAGES_COUNT (st : Nat) : FRef := ⟨0x71020 + 0x2000 * (st / 2) + 0x100 * (st % 2), 0, 32⟩
/-- CAM_CNT_SIZE.COUNT [31:0] RO (06_camera_lanes.md, Table 6-14). -/
def CAM_CNT_SIZE_COUNT (st : Nat) : FRef := ⟨0x71024 + 0x2000 * (st / 2) + 0x100 * (st % 2), 0, 32⟩
/-- CAM_STR_CAMTS.TS [63:0] RO (06_camera_lanes.md, Table 6-14). -/
def CAM_STR_CAMTS_TS (st : Nat) : FRef := ⟨0x71028 + 0x2000 * (st / 2) + 0x100 * (st % 2), 0, 64⟩

/-! Fields of the FRM block. -/

/-- FRM_STR_EN.EN [0:0] RW (07_frame_assembly.md, Table 7-6). -/
def FRM_STR_EN_EN (i : Nat) : FRef := ⟨0xB0000 + 0x100 * i, 0, 1⟩
/-- FRM_STR_EN.STATE [2:1] RO (07_frame_assembly.md, Table 7-6). -/
def FRM_STR_EN_STATE (i : Nat) : FRef := ⟨0xB0000 + 0x100 * i, 1, 2⟩
/-- FRM_STR_EN.ENABLE_PENDING [3:3] RO (07_frame_assembly.md, Table 7-6). -/
def FRM_STR_EN_ENABLE_PENDING (i : Nat) : FRef := ⟨0xB0000 + 0x100 * i, 3, 1⟩
/-- FRM_STR_BIND.TRAIL [3:0] RW (07_frame_assembly.md, Table 7-7). -/
def FRM_STR_BIND_TRAIL (i : Nat) : FRef := ⟨0xB0004 + 0x100 * i, 0, 4⟩
/-- FRM_STR_BIND.DIR [4:4] RW (07_frame_assembly.md, Table 7-7). -/
def FRM_STR_BIND_DIR (i : Nat) : FRef := ⟨0xB0004 + 0x100 * i, 4, 1⟩
/-- FRM_STR_BIND.SAMPLER [6:5] RW (07_frame_assembly.md, Table 7-7). -/
def FRM_STR_BIND_SAMPLER (i : Nat) : FRef := ⟨0xB0004 + 0x100 * i, 5, 2⟩
/-- FRM_STR_BIND.STAKE [12:7] RW (07_frame_assembly.md, Table 7-7). -/
def FRM_STR_BIND_STAKE (i : Nat) : FRef := ⟨0xB0004 + 0x100 * i, 7, 6⟩
/-- FRM_STR_BIND.OUT [13:13] RW (07_frame_assembly.md, Table 7-7). -/
def FRM_STR_BIND_OUT (i : Nat) : FRef := ⟨0xB0004 + 0x100 * i, 13, 1⟩
/-- FRM_STR_BIND.TPG [17:14] RW (07_frame_assembly.md, Table 7-7). -/
def FRM_STR_BIND_TPG (i : Nat) : FRef := ⟨0xB0004 + 0x100 * i, 14, 4⟩
/-- FRM_STR_BIND.DOM [19:18] RW (07_frame_assembly.md, Table 7-7). -/
def FRM_STR_BIND_DOM (i : Nat) : FRef := ⟨0xB0004 + 0x100 * i, 18, 2⟩
/-- FRM_STR_BIND.CAMP [23:20] RW (07_frame_assembly.md, Table 7-7). -/
def FRM_STR_BIND_CAMP (i : Nat) : FRef := ⟨0xB0004 + 0x100 * i, 20, 4⟩
/-- FRM_STR_CUT.MODE [1:0] RW (07_frame_assembly.md, Table 7-8). -/
def FRM_STR_CUT_MODE (i : Nat) : FRef := ⟨0xB0008 + 0x100 * i, 0, 2⟩
/-- FRM_STR_CUT.COMPASS [6:2] RW (07_frame_assembly.md, Table 7-8). -/
def FRM_STR_CUT_COMPASS (i : Nat) : FRef := ⟨0xB0008 + 0x100 * i, 2, 5⟩
/-- FRM_STR_CUT.SEAM [18:7] RW (07_frame_assembly.md, Table 7-8). -/
def FRM_STR_CUT_SEAM (i : Nat) : FRef := ⟨0xB0008 + 0x100 * i, 7, 12⟩
/-- FRM_STR_CUT.RSMP_EN [19:19] RW (07_frame_assembly.md, Table 7-8). -/
def FRM_STR_CUT_RSMP_EN (i : Nat) : FRef := ⟨0xB0008 + 0x100 * i, 19, 1⟩
/-- FRM_STR_XDLY.XDLY [19:0] RW (07_frame_assembly.md, Table 7-6). -/
def FRM_STR_XDLY_XDLY (i : Nat) : FRef := ⟨0xB000C + 0x100 * i, 0, 20⟩
/-- FRM_STR_ORIGIN.ORIGIN [63:0] RW (07_frame_assembly.md, Table 7-6). -/
def FRM_STR_ORIGIN_ORIGIN (i : Nat) : FRef := ⟨0xB0010 + 0x100 * i, 0, 64⟩
/-- FRM_STR_REPEAT.REPEAT [62:0] RW (07_frame_assembly.md, Table 7-6). -/
def FRM_STR_REPEAT_REPEAT (i : Nat) : FRef := ⟨0xB0018 + 0x100 * i, 0, 63⟩
/-- FRM_STR_STEPMAX.STEPMAX [31:0] RW (07_frame_assembly.md, Table 7-6). -/
def FRM_STR_STEPMAX_STEPMAX (i : Nat) : FRef := ⟨0xB0020 + 0x100 * i, 0, 32⟩
/-- FRM_STR_MAXLINES.MAXLINES [15:0] RW (07_frame_assembly.md, Table 7-6). -/
def FRM_STR_MAXLINES_MAXLINES (i : Nat) : FRef := ⟨0xB0024 + 0x100 * i, 0, 16⟩
/-- FRM_STR_RSMP.NUM [23:0] RW (07_frame_assembly.md, Table 7-6). -/
def FRM_STR_RSMP_NUM (i : Nat) : FRef := ⟨0xB0028 + 0x100 * i, 0, 24⟩
/-- FRM_STR_RSMP.DEN [31:24] RW (07_frame_assembly.md, Table 7-6). -/
def FRM_STR_RSMP_DEN (i : Nat) : FRef := ⟨0xB0028 + 0x100 * i, 24, 8⟩
/-- FRM_STR_FILL.FILL [15:0] RW (07_frame_assembly.md, Table 7-6). -/
def FRM_STR_FILL_FILL (i : Nat) : FRef := ⟨0xB002C + 0x100 * i, 0, 16⟩
/-- FRM_STR_FILL.GAP_MAX [27:16] RW (07_frame_assembly.md, Table 7-6). -/
def FRM_STR_FILL_GAP_MAX (i : Nat) : FRef := ⟨0xB002C + 0x100 * i, 16, 12⟩
/-- FRM_SLOT_BASE.BASE [34:12] RW (07_frame_assembly.md, Table 7-6). -/
def FRM_SLOT_BASE_BASE (i : Nat) : FRef := ⟨0xB0030 + 0x100 * i, 12, 23⟩
/-- FRM_SLOT_CFG.SIZE [23:0] RW (07_frame_assembly.md, Table 7-6). -/
def FRM_SLOT_CFG_SIZE (i : Nat) : FRef := ⟨0xB0038 + 0x100 * i, 0, 24⟩
/-- FRM_SLOT_COUNT.SLOTS [15:0] RW (07_frame_assembly.md, Table 7-6). -/
def FRM_SLOT_COUNT_SLOTS (i : Nat) : FRef := ⟨0xB003C + 0x100 * i, 0, 16⟩
/-- FRM_SLOT_COUNT.FREE [31:16] RO (07_frame_assembly.md, Table 7-6). -/
def FRM_SLOT_COUNT_FREE (i : Nat) : FRef := ⟨0xB003C + 0x100 * i, 16, 16⟩
/-- FRM_STR_MAXAGE.MAXAGE [15:0] RW (07_frame_assembly.md, Table 7-6). -/
def FRM_STR_MAXAGE_MAXAGE (i : Nat) : FRef := ⟨0xB0040 + 0x100 * i, 0, 16⟩
/-- FRM_STR_STATUS.OPEN [0:0] RO (07_frame_assembly.md, Table 7-9). -/
def FRM_STR_STATUS_OPEN (i : Nat) : FRef := ⟨0xB0044 + 0x100 * i, 0, 1⟩
/-- FRM_STR_STATUS.TAIL [1:1] RO (07_frame_assembly.md, Table 7-9). -/
def FRM_STR_STATUS_TAIL (i : Nat) : FRef := ⟨0xB0044 + 0x100 * i, 1, 1⟩
/-- FRM_STR_STATUS.CFG_ERR [2:2] RO (07_frame_assembly.md, Table 7-9). -/
def FRM_STR_STATUS_CFG_ERR (i : Nat) : FRef := ⟨0xB0044 + 0x100 * i, 2, 1⟩
/-- FRM_STR_STATUS.CFG_LOCK [3:3] W1C (07_frame_assembly.md, Table 7-9). -/
def FRM_STR_STATUS_CFG_LOCK (i : Nat) : FRef := ⟨0xB0044 + 0x100 * i, 3, 1⟩
/-- FRM_STR_STATUS.DROP [4:4] W1C (07_frame_assembly.md, Table 7-9). -/
def FRM_STR_STATUS_DROP (i : Nat) : FRef := ⟨0xB0044 + 0x100 * i, 4, 1⟩
/-- FRM_STR_STATUS.STEP [5:5] W1C (07_frame_assembly.md, Table 7-9). -/
def FRM_STR_STATUS_STEP (i : Nat) : FRef := ⟨0xB0044 + 0x100 * i, 5, 1⟩
/-- FRM_STR_STATUS.NONMONO [6:6] W1C (07_frame_assembly.md, Table 7-9). -/
def FRM_STR_STATUS_NONMONO (i : Nat) : FRef := ⟨0xB0044 + 0x100 * i, 6, 1⟩
/-- FRM_STR_STATUS.TRUNC [7:7] W1C (07_frame_assembly.md, Table 7-9). -/
def FRM_STR_STATUS_TRUNC (i : Nat) : FRef := ⟨0xB0044 + 0x100 * i, 7, 1⟩
/-- FRM_STR_STATUS.RSMP_ERR [8:8] RO (07_frame_assembly.md, Table 7-9). -/
def FRM_STR_STATUS_RSMP_ERR (i : Nat) : FRef := ⟨0xB0044 + 0x100 * i, 8, 1⟩
/-- FRM_STR_SEQ.SEQ [47:0] RO (07_frame_assembly.md, Table 7-6). -/
def FRM_STR_SEQ_SEQ (i : Nat) : FRef := ⟨0xB0048 + 0x100 * i, 0, 48⟩
/-- FRM_OPEN_BOUND.BOUND [63:0] RO (07_frame_assembly.md, Table 7-6). -/
def FRM_OPEN_BOUND_BOUND (i : Nat) : FRef := ⟨0xB0050 + 0x100 * i, 0, 64⟩
/-- FRM_CNT_FRAMES.COUNT [31:0] RO (07_frame_assembly.md, Table 7-6). -/
def FRM_CNT_FRAMES_COUNT (i : Nat) : FRef := ⟨0xB0058 + 0x100 * i, 0, 32⟩
/-- FRM_CNT_DROPPED.COUNT [31:0] RO (07_frame_assembly.md, Table 7-6). -/
def FRM_CNT_DROPPED_COUNT (i : Nat) : FRef := ⟨0xB005C + 0x100 * i, 0, 32⟩
/-- FRM_CNT_NOSAMPLE.COUNT [31:0] RO (07_frame_assembly.md, Table 7-6). -/
def FRM_CNT_NOSAMPLE_COUNT (i : Nat) : FRef := ⟨0xB0060 + 0x100 * i, 0, 32⟩
/-- FRM_CNT_STALE.COUNT [31:0] RO (07_frame_assembly.md, Table 7-6). -/
def FRM_CNT_STALE_COUNT (i : Nat) : FRef := ⟨0xB0064 + 0x100 * i, 0, 32⟩
/-- FRM_CNT_LOSTSAMP.COUNT [31:0] RO (07_frame_assembly.md, Table 7-6). -/
def FRM_CNT_LOSTSAMP_COUNT (i : Nat) : FRef := ⟨0xB0068 + 0x100 * i, 0, 32⟩
/-- FRM_CNT_STEP.COUNT [31:0] RO (07_frame_assembly.md, Table 7-6). -/
def FRM_CNT_STEP_COUNT (i : Nat) : FRef := ⟨0xB006C + 0x100 * i, 0, 32⟩
/-- FRM_CNT_CLR.GO [0:0] WO (07_frame_assembly.md, Table 7-6). -/
def FRM_CNT_CLR_GO (i : Nat) : FRef := ⟨0xB0070 + 0x100 * i, 0, 1⟩
/-- FRM_TAG_VER.VER [31:0] RO (07_frame_assembly.md, ch7). -/
def FRM_TAG_VER_VER : FRef := ⟨0xB4000, 0, 32⟩

/-! Fields of the MLK block. -/

/-- MLK_EN.EN [0:0] RW (08_mark_lock.md, Table 8-2). -/
def MLK_EN_EN (i : Nat) : FRef := ⟨0xC0000 + 0x100 * i, 0, 1⟩
/-- MLK_EN.STATE [2:1] RO (08_mark_lock.md, Table 8-2). -/
def MLK_EN_STATE (i : Nat) : FRef := ⟨0xC0000 + 0x100 * i, 1, 2⟩
/-- MLK_EN.ENABLE_PENDING [3:3] RO (08_mark_lock.md, Table 8-2). -/
def MLK_EN_ENABLE_PENDING (i : Nat) : FRef := ⟨0xC0000 + 0x100 * i, 3, 1⟩
/-- MLK_SRC.STREAM [5:0] RW (08_mark_lock.md, Table 8-3). -/
def MLK_SRC_STREAM (i : Nat) : FRef := ⟨0xC0004 + 0x100 * i, 0, 6⟩
/-- MLK_SRC.POL [6:6] RW (08_mark_lock.md, Table 8-3). -/
def MLK_SRC_POL (i : Nat) : FRef := ⟨0xC0004 + 0x100 * i, 6, 1⟩
/-- MLK_SRC.THR [15:8] RW (08_mark_lock.md, Table 8-3). -/
def MLK_SRC_THR (i : Nat) : FRef := ⟨0xC0004 + 0x100 * i, 8, 8⟩
/-- MLK_COLS.COL0 [15:0] RW (08_mark_lock.md, Table 8-2). -/
def MLK_COLS_COL0 (i : Nat) : FRef := ⟨0xC0008 + 0x100 * i, 0, 16⟩
/-- MLK_COLS.COLW [31:16] RW (08_mark_lock.md, Table 8-2). -/
def MLK_COLS_COLW (i : Nat) : FRef := ⟨0xC0008 + 0x100 * i, 16, 16⟩
/-- MLK_QUAL.MINPIX [15:0] RW (08_mark_lock.md, Table 8-4). -/
def MLK_QUAL_MINPIX (i : Nat) : FRef := ⟨0xC000C + 0x100 * i, 0, 16⟩
/-- MLK_QUAL.LEN_MIN [23:16] RW (08_mark_lock.md, Table 8-4). -/
def MLK_QUAL_LEN_MIN (i : Nat) : FRef := ⟨0xC000C + 0x100 * i, 16, 8⟩
/-- MLK_QUAL.LEN_MAX [31:24] RW (08_mark_lock.md, Table 8-4). -/
def MLK_QUAL_LEN_MAX (i : Nat) : FRef := ⟨0xC000C + 0x100 * i, 24, 8⟩
/-- MLK_ORIGIN.ORIGIN [63:0] RW (08_mark_lock.md, Table 8-2). -/
def MLK_ORIGIN_ORIGIN (i : Nat) : FRef := ⟨0xC0010 + 0x100 * i, 0, 64⟩
/-- MLK_REPEAT.REPEAT [62:0] RW (08_mark_lock.md, Table 8-2). -/
def MLK_REPEAT_REPEAT (i : Nat) : FRef := ⟨0xC0018 + 0x100 * i, 0, 63⟩
/-- MLK_WIN_BEFORE.WIN [31:0] RW (08_mark_lock.md, Table 8-2). -/
def MLK_WIN_BEFORE_WIN (i : Nat) : FRef := ⟨0xC0020 + 0x100 * i, 0, 32⟩
/-- MLK_WIN_AFTER.WIN [31:0] RW (08_mark_lock.md, Table 8-2). -/
def MLK_WIN_AFTER_WIN (i : Nat) : FRef := ⟨0xC0024 + 0x100 * i, 0, 32⟩
/-- MLK_CUT_OFS.OFS [31:0] RW (08_mark_lock.md, Table 8-2). -/
def MLK_CUT_OFS_OFS (i : Nat) : FRef := ⟨0xC0028 + 0x100 * i, 0, 32⟩
/-- MLK_GAIN.KP [15:0] RW (08_mark_lock.md, Table 8-2). -/
def MLK_GAIN_KP (i : Nat) : FRef := ⟨0xC002C + 0x100 * i, 0, 16⟩
/-- MLK_GAIN.KI [31:16] RW (08_mark_lock.md, Table 8-2). -/
def MLK_GAIN_KI (i : Nat) : FRef := ⟨0xC002C + 0x100 * i, 16, 16⟩
/-- MLK_LOCK_THR.LOCK_THR [23:0] RW (08_mark_lock.md, Table 8-2). -/
def MLK_LOCK_THR_LOCK_THR (i : Nat) : FRef := ⟨0xC0030 + 0x100 * i, 0, 24⟩
/-- MLK_LOCK_THR.ACQ_N [31:24] RW (08_mark_lock.md, Table 8-2). -/
def MLK_LOCK_THR_ACQ_N (i : Nat) : FRef := ⟨0xC0030 + 0x100 * i, 24, 8⟩
/-- MLK_UNLOCK_THR.UNLOCK_THR [23:0] RW (08_mark_lock.md, Table 8-2). -/
def MLK_UNLOCK_THR_UNLOCK_THR (i : Nat) : FRef := ⟨0xC0034 + 0x100 * i, 0, 24⟩
/-- MLK_UNLOCK_THR.COAST_K [31:24] RW (08_mark_lock.md, Table 8-2). -/
def MLK_UNLOCK_THR_COAST_K (i : Nat) : FRef := ⟨0xC0034 + 0x100 * i, 24, 8⟩
/-- MLK_CTRL.INHERIT [0:0] RW (08_mark_lock.md, Table 8-2). -/
def MLK_CTRL_INHERIT (i : Nat) : FRef := ⟨0xC0038 + 0x100 * i, 0, 1⟩
/-- MLK_STATUS.STATE [1:0] RO (08_mark_lock.md, Table 8-5). -/
def MLK_STATUS_STATE (i : Nat) : FRef := ⟨0xC0040 + 0x100 * i, 0, 2⟩
/-- MLK_STATUS.CFG_ERR [2:2] RO (08_mark_lock.md, Table 8-5). -/
def MLK_STATUS_CFG_ERR (i : Nat) : FRef := ⟨0xC0040 + 0x100 * i, 2, 1⟩
/-- MLK_STATUS.LOSS [3:3] W1C (08_mark_lock.md, Table 8-5). -/
def MLK_STATUS_LOSS (i : Nat) : FRef := ⟨0xC0040 + 0x100 * i, 3, 1⟩
/-- MLK_STATUS.INHERITED [4:4] RO (08_mark_lock.md, Table 8-5). -/
def MLK_STATUS_INHERITED (i : Nat) : FRef := ⟨0xC0040 + 0x100 * i, 4, 1⟩
/-- MLK_STATUS.EVER_LOCKED [5:5] RO (08_mark_lock.md, Table 8-5). -/
def MLK_STATUS_EVER_LOCKED (i : Nat) : FRef := ⟨0xC0040 + 0x100 * i, 5, 1⟩
/-- MLK_STATUS.GRACE [6:6] RO (08_mark_lock.md, Table 8-5). -/
def MLK_STATUS_GRACE (i : Nat) : FRef := ⟨0xC0040 + 0x100 * i, 6, 1⟩
/-- MLK_STATUS.MISS [15:8] RO (08_mark_lock.md, Table 8-5). -/
def MLK_STATUS_MISS (i : Nat) : FRef := ⟨0xC0040 + 0x100 * i, 8, 8⟩
/-- MLK_STATUS.GOOD [23:16] RO (08_mark_lock.md, Table 8-5). -/
def MLK_STATUS_GOOD (i : Nat) : FRef := ⟨0xC0040 + 0x100 * i, 16, 8⟩
/-- MLK_PRED.P [63:0] RO (08_mark_lock.md, Table 8-2). -/
def MLK_PRED_P (i : Nat) : FRef := ⟨0xC0048 + 0x100 * i, 0, 64⟩
/-- MLK_RHAT.R [63:0] RO (08_mark_lock.md, Table 8-2). -/
def MLK_RHAT_R (i : Nat) : FRef := ⟨0xC0050 + 0x100 * i, 0, 64⟩
/-- MLK_TRIM.TRIM [31:0] RO (08_mark_lock.md, Table 8-2). -/
def MLK_TRIM_TRIM (i : Nat) : FRef := ⟨0xC0058 + 0x100 * i, 0, 32⟩
/-- MLK_ERR.E [31:0] RO (08_mark_lock.md, Table 8-2). -/
def MLK_ERR_E (i : Nat) : FRef := ⟨0xC005C + 0x100 * i, 0, 32⟩
/-- MLK_LAST_MARK.M [63:0] RO (08_mark_lock.md, Table 8-2). -/
def MLK_LAST_MARK_M (i : Nat) : FRef := ⟨0xC0060 + 0x100 * i, 0, 64⟩
/-- MLK_CNT_MARKS.COUNT [31:0] RO (08_mark_lock.md, Table 8-2). -/
def MLK_CNT_MARKS_COUNT (i : Nat) : FRef := ⟨0xC0068 + 0x100 * i, 0, 32⟩
/-- MLK_CNT_MISS.COUNT [31:0] RO (08_mark_lock.md, Table 8-2). -/
def MLK_CNT_MISS_COUNT (i : Nat) : FRef := ⟨0xC006C + 0x100 * i, 0, 32⟩
/-- MLK_CNT_REJECT.COUNT [31:0] RO (08_mark_lock.md, Table 8-2). -/
def MLK_CNT_REJECT_COUNT (i : Nat) : FRef := ⟨0xC0070 + 0x100 * i, 0, 32⟩
/-- MLK_CNT_EXTRA.COUNT [31:0] RO (08_mark_lock.md, Table 8-2). -/
def MLK_CNT_EXTRA_COUNT (i : Nat) : FRef := ⟨0xC0074 + 0x100 * i, 0, 32⟩
/-- MLK_CNT_CLR.GO [0:0] WO (08_mark_lock.md, Table 8-2). -/
def MLK_CNT_CLR_GO (i : Nat) : FRef := ⟨0xC0078 + 0x100 * i, 0, 1⟩

/-! Fields of the CHG block. -/

/-- CHG_COMMIT.GO [0:0] WO (09_job_changeover.md, Table 9-6). -/
def CHG_COMMIT_GO : FRef := ⟨0xD0000, 0, 1⟩
/-- CHG_COMMIT.KIND [2:1] WO (09_job_changeover.md, Table 9-6). -/
def CHG_COMMIT_KIND : FRef := ⟨0xD0000, 1, 2⟩
/-- CHG_COMMIT.CHAIN [3:3] WO (09_job_changeover.md, Table 9-6). -/
def CHG_COMMIT_CHAIN : FRef := ⟨0xD0000, 3, 1⟩
/-- CHG_COMMIT.FOLLOW [4:4] WO (09_job_changeover.md, Table 9-6). -/
def CHG_COMMIT_FOLLOW : FRef := ⟨0xD0000, 4, 1⟩
/-- CHG_COMMIT.WITHDRAW [5:5] WO (09_job_changeover.md, Table 9-6). -/
def CHG_COMMIT_WITHDRAW : FRef := ⟨0xD0000, 5, 1⟩
/-- CHG_STATUS.PHASE [1:0] RO (09_job_changeover.md, Table 9-7). -/
def CHG_STATUS_PHASE : FRef := ⟨0xD0004, 0, 2⟩
/-- CHG_STATUS.RESULT [5:2] RO (09_job_changeover.md, Table 9-7). -/
def CHG_STATUS_RESULT : FRef := ⟨0xD0004, 2, 4⟩
/-- CHG_STATUS.LATE_WRITE [6:6] W1C (09_job_changeover.md, Table 9-7). -/
def CHG_STATUS_LATE_WRITE : FRef := ⟨0xD0004, 6, 1⟩
/-- CHG_STATUS.LATE [7:7] W1C (09_job_changeover.md, Table 9-7). -/
def CHG_STATUS_LATE : FRef := ⟨0xD0004, 7, 1⟩
/-- CHG_STATUS.RETARGETED [8:8] W1C (09_job_changeover.md, Table 9-7). -/
def CHG_STATUS_RETARGETED : FRef := ⟨0xD0004, 8, 1⟩
/-- CHG_STATUS.LEAD_SHORT [9:9] W1C (09_job_changeover.md, Table 9-7). -/
def CHG_STATUS_LEAD_SHORT : FRef := ⟨0xD0004, 9, 1⟩
/-- CHG_STATUS.CONJ_LIMIT [10:10] W1C (09_job_changeover.md, Table 9-7). -/
def CHG_STATUS_CONJ_LIMIT : FRef := ⟨0xD0004, 10, 1⟩
/-- CHG_STATUS.CHAIN_MISS [11:11] W1C (09_job_changeover.md, Table 9-7). -/
def CHG_STATUS_CHAIN_MISS : FRef := ⟨0xD0004, 11, 1⟩
/-- CHG_STATUS.ARMED_KIND [14:12] RO (09_job_changeover.md, Table 9-7). -/
def CHG_STATUS_ARMED_KIND : FRef := ⟨0xD0004, 12, 3⟩
/-- CHG_CFG.TRAIL [3:0] RW (09_job_changeover.md, Table 9-8). -/
def CHG_CFG_TRAIL : FRef := ⟨0xD0008, 0, 4⟩
/-- CHG_CFG.DIR [4:4] RW (09_job_changeover.md, Table 9-8). -/
def CHG_CFG_DIR : FRef := ⟨0xD0008, 4, 1⟩
/-- CHG_CFG.UNIT [9:5] RW (09_job_changeover.md, Table 9-8). -/
def CHG_CFG_UNIT : FRef := ⟨0xD0008, 5, 5⟩
/-- CHG_CFG.DOM [11:10] RW (09_job_changeover.md, Table 9-8). -/
def CHG_CFG_DOM : FRef := ⟨0xD0008, 10, 2⟩
/-- CHG_CFG.LATE_POLICY [12:12] RW (09_job_changeover.md, Table 9-8). -/
def CHG_CFG_LATE_POLICY : FRef := ⟨0xD0008, 12, 1⟩
/-- CHG_CFG.REF_STREAM [18:13] RW (09_job_changeover.md, Table 9-8). -/
def CHG_CFG_REF_STREAM : FRef := ⟨0xD0008, 13, 6⟩
/-- CHG_AT_POS.POS [63:0] RW (09_job_changeover.md, Table 9-5). -/
def CHG_AT_POS_POS : FRef := ⟨0xD0010, 0, 64⟩
/-- CHG_AT_TIME.TIME [63:0] RW (09_job_changeover.md, Table 9-5). -/
def CHG_AT_TIME_TIME : FRef := ⟨0xD0018, 0, 64⟩
/-- CHG_AT_MARKS.MARKS [15:0] RW (09_job_changeover.md, Table 9-5). -/
def CHG_AT_MARKS_MARKS : FRef := ⟨0xD0020, 0, 16⟩
/-- CHG_CONJ_LEAD.LEAD [31:0] RW (09_job_changeover.md, Table 9-5). -/
def CHG_CONJ_LEAD_LEAD : FRef := ⟨0xD0024, 0, 32⟩
/-- CHG_CONJ_TRAIL.TRAIL [31:0] RW (09_job_changeover.md, Table 9-5). -/
def CHG_CONJ_TRAIL_TRAIL : FRef := ⟨0xD0028, 0, 32⟩
/-- CHG_CONJ_LIMIT.LIMIT [15:0] RW (09_job_changeover.md, Table 9-5). -/
def CHG_CONJ_LIMIT_LIMIT : FRef := ⟨0xD002C, 0, 16⟩
/-- CHG_JOB.JOB_ID [15:0] RW (09_job_changeover.md, Table 9-5). -/
def CHG_JOB_JOB_ID : FRef := ⟨0xD0030, 0, 16⟩
/-- CHG_JOB.RCP_VER [31:16] RW (09_job_changeover.md, Table 9-5). -/
def CHG_JOB_RCP_VER : FRef := ⟨0xD0030, 16, 16⟩
/-- CHG_RCP.SLOT [5:0] RW (09_job_changeover.md, Table 9-5). -/
def CHG_RCP_SLOT : FRef := ⟨0xD0034, 0, 6⟩
/-- CHG_H_POS.POS [63:0] RO (09_job_changeover.md, Table 9-5). -/
def CHG_H_POS_POS : FRef := ⟨0xD0038, 0, 64⟩
/-- CHG_H_TIME.TIME [63:0] RO (09_job_changeover.md, Table 9-5). -/
def CHG_H_TIME_TIME : FRef := ⟨0xD0040, 0, 64⟩
/-- CHG_ARMED_POS.POS [63:0] RO (09_job_changeover.md, Table 9-5). -/
def CHG_ARMED_POS_POS : FRef := ⟨0xD0048, 0, 64⟩
/-- CHG_COUNT.COUNT [31:0] RO (09_job_changeover.md, Table 9-5). -/
def CHG_COUNT_COUNT : FRef := ⟨0xD0050, 0, 32⟩
/-- CHG_CHAIN.READY [15:0] RO (09_job_changeover.md, Table 9-9). -/
def CHG_CHAIN_READY : FRef := ⟨0xD0054, 0, 16⟩
/-- CHG_CHAIN.MISSED [31:16] W1C (09_job_changeover.md, Table 9-9). -/
def CHG_CHAIN_MISSED : FRef := ⟨0xD0054, 16, 16⟩
/-- CHG_RCP_STATE.STATE [2:0] RO (09_job_changeover.md, Table 9-10). -/
def CHG_RCP_STATE_STATE (i : Nat) : FRef := ⟨0xD0100 + 0x4 * i, 0, 3⟩
/-- CHG_RCP_STATE.JOB_ID [31:16] RO (09_job_changeover.md, Table 9-10). -/
def CHG_RCP_STATE_JOB_ID (i : Nat) : FRef := ⟨0xD0100 + 0x4 * i, 16, 16⟩

/-! Fields of the PXE block. -/

/-- PXE_CAMP_EN.EN [0:0] RW (10_pixel_engines.md, Table 10-12). -/
def PXE_CAMP_EN_EN (i : Nat) : FRef := ⟨0xE0000 + 0x100 * i, 0, 1⟩
/-- PXE_CAMP_EN.STATE [2:1] RO (10_pixel_engines.md, Table 10-12). -/
def PXE_CAMP_EN_STATE (i : Nat) : FRef := ⟨0xE0000 + 0x100 * i, 1, 2⟩
/-- PXE_CAMP_EN.ENABLE_PENDING [3:3] RO (10_pixel_engines.md, Table 10-12). -/
def PXE_CAMP_EN_ENABLE_PENDING (i : Nat) : FRef := ⟨0xE0000 + 0x100 * i, 3, 1⟩
/-- PXE_CAMP_SPARE.SPARE [15:0] RW (10_pixel_engines.md, Table 10-12). -/
def PXE_CAMP_SPARE_SPARE (i : Nat) : FRef := ⟨0xE0004 + 0x100 * i, 0, 16⟩
/-- PXE_CAMP_FAILED.FAILED [15:0] RO (10_pixel_engines.md, Table 10-12). -/
def PXE_CAMP_FAILED_FAILED (i : Nat) : FRef := ⟨0xE0008 + 0x100 * i, 0, 16⟩
/-- PXE_CAMP_FAILED.STANDIN [31:16] RO (10_pixel_engines.md, Table 10-12). -/
def PXE_CAMP_FAILED_STANDIN (i : Nat) : FRef := ⟨0xE0008 + 0x100 * i, 16, 16⟩
/-- PXE_CAMP_PORT.PORT [15:0] RO (10_pixel_engines.md, Table 10-12). -/
def PXE_CAMP_PORT_PORT (i : Nat) : FRef := ⟨0xE000C + 0x100 * i, 0, 16⟩
/-- PXE_CNT_ECC_CORR.COUNT [31:0] RO (10_pixel_engines.md, Table 10-12). -/
def PXE_CNT_ECC_CORR_COUNT (i : Nat) : FRef := ⟨0xE0010 + 0x100 * i, 0, 32⟩
/-- PXE_CNT_ECC_UNC.COUNT [31:0] RO (10_pixel_engines.md, Table 10-12). -/
def PXE_CNT_ECC_UNC_COUNT (i : Nat) : FRef := ⟨0xE0014 + 0x100 * i, 0, 32⟩
/-- PXE_ENG_STATUS.STATE [1:0] RO (10_pixel_engines.md, Table 10-14). -/
def PXE_ENG_STATUS_STATE (i : Nat) : FRef := ⟨0xF0000 + 0x10 * i, 0, 2⟩
/-- PXE_ENG_STATUS.FOR [5:2] RO (10_pixel_engines.md, Table 10-14). -/
def PXE_ENG_STATUS_FOR (i : Nat) : FRef := ⟨0xF0000 + 0x10 * i, 2, 4⟩
/-- PXE_ENG_STATUS.FAULT [6:6] W1C (10_pixel_engines.md, Table 10-14). -/
def PXE_ENG_STATUS_FAULT (i : Nat) : FRef := ⟨0xF0000 + 0x10 * i, 6, 1⟩
/-- PXE_ENG_STATUS.CAUSE [9:7] RO (10_pixel_engines.md, Table 10-14). -/
def PXE_ENG_STATUS_CAUSE (i : Nat) : FRef := ⟨0xF0000 + 0x10 * i, 7, 3⟩
/-- PXE_ENG_LOAD.LOAD [15:0] RO (10_pixel_engines.md, Table 10-13). -/
def PXE_ENG_LOAD_LOAD (i : Nat) : FRef := ⟨0xF0004 + 0x10 * i, 0, 16⟩
/-- PXE_ENG_CNT_LINES.COUNT [31:0] RO (10_pixel_engines.md, Table 10-13). -/
def PXE_ENG_CNT_LINES_COUNT (i : Nat) : FRef := ⟨0xF0008 + 0x10 * i, 0, 32⟩
/-- PXE_CHAIN_BASE.BASE [34:6] RW (10_pixel_engines.md, Table 10-15). -/
def PXE_CHAIN_BASE_BASE (i : Nat) : FRef := ⟨0x100000 + 0x100 * i, 6, 29⟩
/-- PXE_CHAIN_GROUP.ENG_MASK [15:0] RW (10_pixel_engines.md, Table 10-15). -/
def PXE_CHAIN_GROUP_ENG_MASK (i : Nat) : FRef := ⟨0x100008 + 0x100 * i, 0, 16⟩
/-- PXE_STR_RATE.RATE [23:0] RW (10_pixel_engines.md, Table 10-15). -/
def PXE_STR_RATE_RATE (i : Nat) : FRef := ⟨0x10000C + 0x100 * i, 0, 24⟩
/-- PXE_STR_FRATE.RATE [15:0] RW (10_pixel_engines.md, Table 10-15). -/
def PXE_STR_FRATE_RATE (i : Nat) : FRef := ⟨0x100010 + 0x100 * i, 0, 16⟩
/-- PXE_STR_LAGMAX.LAGMAX [15:0] RW (10_pixel_engines.md, Table 10-15). -/
def PXE_STR_LAGMAX_LAGMAX (i : Nat) : FRef := ⟨0x100014 + 0x100 * i, 0, 16⟩
/-- PXE_STR_STATUS.CHAIN_ERR [3:0] RO (10_pixel_engines.md, Table 10-16). -/
def PXE_STR_STATUS_CHAIN_ERR (i : Nat) : FRef := ⟨0x100018 + 0x100 * i, 0, 4⟩
/-- PXE_STR_STATUS.ERR_KIDX [7:4] RO (10_pixel_engines.md, Table 10-16). -/
def PXE_STR_STATUS_ERR_KIDX (i : Nat) : FRef := ⟨0x100018 + 0x100 * i, 4, 4⟩
/-- PXE_STR_STATUS.RATE_OVER [8:8] W1C (10_pixel_engines.md, Table 10-16). -/
def PXE_STR_STATUS_RATE_OVER (i : Nat) : FRef := ⟨0x100018 + 0x100 * i, 8, 1⟩
/-- PXE_STR_STATUS.CATCHUP [9:9] RO (10_pixel_engines.md, Table 10-16). -/
def PXE_STR_STATUS_CATCHUP (i : Nat) : FRef := ⟨0x100018 + 0x100 * i, 9, 1⟩
/-- PXE_STR_STATUS.DROP [10:10] W1C (10_pixel_engines.md, Table 10-16). -/
def PXE_STR_STATUS_DROP (i : Nat) : FRef := ⟨0x100018 + 0x100 * i, 10, 1⟩
/-- PXE_STR_STATUS.NO_ENGINE [11:11] RO (10_pixel_engines.md, Table 10-16). -/
def PXE_STR_STATUS_NO_ENGINE (i : Nat) : FRef := ⟨0x100018 + 0x100 * i, 11, 1⟩
/-- PXE_STR_LAG.LAG [15:0] RO (10_pixel_engines.md, Table 10-15). -/
def PXE_STR_LAG_LAG (i : Nat) : FRef := ⟨0x10001C + 0x100 * i, 0, 16⟩
/-- PXE_STR_LAG.MAX [31:16] RO (10_pixel_engines.md, Table 10-15). -/
def PXE_STR_LAG_MAX (i : Nat) : FRef := ⟨0x10001C + 0x100 * i, 16, 16⟩
/-- PXE_CNT_FRAMES.COUNT [31:0] RO (10_pixel_engines.md, Table 10-15). -/
def PXE_CNT_FRAMES_COUNT (i : Nat) : FRef := ⟨0x100020 + 0x100 * i, 0, 32⟩
/-- PXE_CNT_DROP.COUNT [31:0] RO (10_pixel_engines.md, Table 10-15). -/
def PXE_CNT_DROP_COUNT (i : Nat) : FRef := ⟨0x100024 + 0x100 * i, 0, 32⟩
/-- PXE_CNT_CAND.COUNT [31:0] RO (10_pixel_engines.md, Table 10-15). -/
def PXE_CNT_CAND_COUNT (i : Nat) : FRef := ⟨0x100028 + 0x100 * i, 0, 32⟩
/-- PXE_CNT_UNREF.COUNT [31:0] RO (10_pixel_engines.md, Table 10-15). -/
def PXE_CNT_UNREF_COUNT (i : Nat) : FRef := ⟨0x10002C + 0x100 * i, 0, 32⟩
/-- PXE_STR_RATE_MEAS.RATE [23:0] RO (10_pixel_engines.md, Table 10-15). -/
def PXE_STR_RATE_MEAS_RATE (i : Nat) : FRef := ⟨0x100030 + 0x100 * i, 0, 24⟩
/-- PXE_CNT_CLR.GO [0:0] WO (10_pixel_engines.md, Table 10-15). -/
def PXE_CNT_CLR_GO (i : Nat) : FRef := ⟨0x100034 + 0x100 * i, 0, 1⟩
/-- PXE_LIB_VER.VER [15:0] RO (10_pixel_engines.md, Table 10-17). -/
def PXE_LIB_VER_VER : FRef := ⟨0x110000, 0, 16⟩
/-- PXE_LIB_VER.BUILD [31:16] RO (10_pixel_engines.md, Table 10-17). -/
def PXE_LIB_VER_BUILD : FRef := ⟨0x110000, 16, 16⟩
/-- PXE_CHK.CODE [3:0] RO (10_pixel_engines.md, Table 10-17). -/
def PXE_CHK_CODE : FRef := ⟨0x110008, 0, 4⟩
/-- PXE_CHK.STREAM [9:4] RO (10_pixel_engines.md, Table 10-17). -/
def PXE_CHK_STREAM : FRef := ⟨0x110008, 4, 6⟩
/-- PXE_CHK.CAMP [13:10] RO (10_pixel_engines.md, Table 10-17). -/
def PXE_CHK_CAMP : FRef := ⟨0x110008, 10, 4⟩
/-- PXE_CHK.KIDX [17:14] RO (10_pixel_engines.md, Table 10-17). -/
def PXE_CHK_KIDX : FRef := ⟨0x110008, 14, 4⟩
/-- PXE_CHK.SET [19:18] RO (10_pixel_engines.md, Table 10-17). -/
def PXE_CHK_SET : FRef := ⟨0x110008, 18, 2⟩
/-- PXE_LIB_KVER.KVER [7:0] RO (10_pixel_engines.md, Table 10-17). -/
def PXE_LIB_KVER_KVER (i : Nat) : FRef := ⟨0x110100 + 0x4 * i, 0, 8⟩

/-! Fields of the DLV block. -/

/-- DLV_CTRL.RESUME [0:0] WO (11_delivery_queues.md, Table 11-5). -/
def DLV_CTRL_RESUME : FRef := ⟨0x120000, 0, 1⟩
/-- DLV_STATUS.MASTER_OFF [0:0] RO (11_delivery_queues.md, Table 11-5). -/
def DLV_STATUS_MASTER_OFF : FRef := ⟨0x120004, 0, 1⟩
/-- DLV_STATUS.CFG_LOCK [1:1] W1C (11_delivery_queues.md, Table 11-5). -/
def DLV_STATUS_CFG_LOCK : FRef := ⟨0x120004, 1, 1⟩
/-- DLV_STATUS.QCTX_ECC [2:2] W1C (11_delivery_queues.md, Table 11-5). -/
def DLV_STATUS_QCTX_ECC : FRef := ⟨0x120004, 2, 1⟩
/-- DLV_QCTX_BASE.BASE [34:26] RW (11_delivery_queues.md, Table 11-5). -/
def DLV_QCTX_BASE_BASE : FRef := ⟨0x120008, 26, 9⟩
/-- DLV_STAGE.SHARE [2:0] RW (11_delivery_queues.md, Table 11-5). -/
def DLV_STAGE_SHARE : FRef := ⟨0x120010, 0, 3⟩
/-- DLV_QCMD.QID [19:0] WO (11_delivery_queues.md, Table 11-6). -/
def DLV_QCMD_QID : FRef := ⟨0x120020, 0, 20⟩
/-- DLV_QCMD.OP [22:20] WO (11_delivery_queues.md, Table 11-6). -/
def DLV_QCMD_OP : FRef := ⟨0x120020, 20, 3⟩
/-- DLV_QCMD_STATUS.BUSY [0:0] RO (11_delivery_queues.md, Table 11-6). -/
def DLV_QCMD_STATUS_BUSY : FRef := ⟨0x120024, 0, 1⟩
/-- DLV_QCMD_STATUS.DONE [1:1] W1C (11_delivery_queues.md, Table 11-6). -/
def DLV_QCMD_STATUS_DONE : FRef := ⟨0x120024, 1, 1⟩
/-- DLV_QCMD_STATUS.RESULT [4:2] RO (11_delivery_queues.md, Table 11-6). -/
def DLV_QCMD_STATUS_RESULT : FRef := ⟨0x120024, 2, 3⟩
/-- DLV_QWIN.DATA [31:0] RW (11_delivery_queues.md, Table 11-5). -/
def DLV_QWIN_DATA (i : Nat) : FRef := ⟨0x120040 + 0x4 * i, 0, 32⟩
/-- DLV_EVT_ROUTE.QID [19:0] RW (11_delivery_queues.md, Table 11-7). -/
def DLV_EVT_ROUTE_QID (i : Nat) : FRef := ⟨0x120080 + 0x8 * i, 0, 20⟩
/-- DLV_EVT_ROUTE.EN [20:20] RW (11_delivery_queues.md, Table 11-7). -/
def DLV_EVT_ROUTE_EN (i : Nat) : FRef := ⟨0x120080 + 0x8 * i, 20, 1⟩
/-- DLV_EVT_ROUTE.MIN_SEV [23:21] RW (11_delivery_queues.md, Table 11-7). -/
def DLV_EVT_ROUTE_MIN_SEV (i : Nat) : FRef := ⟨0x120080 + 0x8 * i, 21, 3⟩
/-- DLV_EVT_ROUTE.SRC_MASK [63:32] RW (11_delivery_queues.md, Table 11-7). -/
def DLV_EVT_ROUTE_SRC_MASK (i : Nat) : FRef := ⟨0x120080 + 0x8 * i, 32, 32⟩
/-- DLV_CNT_ITEMS.COUNT [31:0] RO (11_delivery_queues.md, Table 11-5). -/
def DLV_CNT_ITEMS_COUNT : FRef := ⟨0x1200C0, 0, 32⟩
/-- DLV_CNT_DROP.COUNT [31:0] RO (11_delivery_queues.md, Table 11-5). -/
def DLV_CNT_DROP_COUNT : FRef := ⟨0x1200C4, 0, 32⟩
/-- DLV_CNT_INACTIVE.COUNT [31:0] RO (11_delivery_queues.md, Table 11-5). -/
def DLV_CNT_INACTIVE_COUNT : FRef := ⟨0x1200C8, 0, 32⟩
/-- DLV_CNT_EVLOST.COUNT [31:0] RO (11_delivery_queues.md, Table 11-5). -/
def DLV_CNT_EVLOST_COUNT : FRef := ⟨0x1200CC, 0, 32⟩
/-- DLV_CNT_MISS.COUNT [31:0] RO (11_delivery_queues.md, Table 11-5). -/
def DLV_CNT_MISS_COUNT : FRef := ⟨0x1200D0, 0, 32⟩
/-- DLV_CNT_BYTES.COUNT [63:0] RO (11_delivery_queues.md, Table 11-5). -/
def DLV_CNT_BYTES_COUNT : FRef := ⟨0x1200D8, 0, 64⟩
/-- DLV_CNT_CLR.GO [0:0] WO (11_delivery_queues.md, Table 11-5). -/
def DLV_CNT_CLR_GO : FRef := ⟨0x1200E0, 0, 1⟩
/-- DLV_XOFF_CFG.POL [0:0] RW (11_delivery_queues.md, Table 11-8). -/
def DLV_XOFF_CFG_POL (i : Nat) : FRef := ⟨0x120100 + 0x4 * i, 0, 1⟩
/-- DLV_XOFF_CFG.FORCE [1:1] RW (11_delivery_queues.md, Table 11-8). -/
def DLV_XOFF_CFG_FORCE (i : Nat) : FRef := ⟨0x120100 + 0x4 * i, 1, 1⟩
/-- DLV_XOFF_CFG.ACTIVE [2:2] RO (11_delivery_queues.md, Table 11-8). -/
def DLV_XOFF_CFG_ACTIVE (i : Nat) : FRef := ⟨0x120100 + 0x4 * i, 2, 1⟩
/-- DLV_STR_FQ.QID [19:0] RW (11_delivery_queues.md, Table 11-9). -/
def DLV_STR_FQ_QID (i : Nat) : FRef := ⟨0x121000 + 0x10 * i, 0, 20⟩
/-- DLV_STR_FQ.EN [20:20] RW (11_delivery_queues.md, Table 11-9). -/
def DLV_STR_FQ_EN (i : Nat) : FRef := ⟨0x121000 + 0x10 * i, 20, 1⟩
/-- DLV_STR_CQ.QID [19:0] RW (11_delivery_queues.md, Table 11-9). -/
def DLV_STR_CQ_QID (i : Nat) : FRef := ⟨0x121004 + 0x10 * i, 0, 20⟩
/-- DLV_STR_CQ.EN [20:20] RW (11_delivery_queues.md, Table 11-9). -/
def DLV_STR_CQ_EN (i : Nat) : FRef := ⟨0x121004 + 0x10 * i, 20, 1⟩
/-- DLV_STR_CONTENT.TAG [0:0] RW (11_delivery_queues.md, Table 11-9). -/
def DLV_STR_CONTENT_TAG (i : Nat) : FRef := ⟨0x121008 + 0x10 * i, 0, 1⟩
/-- DLV_STR_CONTENT.REC [1:1] RW (11_delivery_queues.md, Table 11-9). -/
def DLV_STR_CONTENT_REC (i : Nat) : FRef := ⟨0x121008 + 0x10 * i, 1, 1⟩
/-- DLV_STR_CONTENT.PAYLOAD [2:2] RW (11_delivery_queues.md, Table 11-9). -/
def DLV_STR_CONTENT_PAYLOAD (i : Nat) : FRef := ⟨0x121008 + 0x10 * i, 2, 1⟩
/-- DLV_STR_CONTENT.PROD [3:3] RW (11_delivery_queues.md, Table 11-9). -/
def DLV_STR_CONTENT_PROD (i : Nat) : FRef := ⟨0x121008 + 0x10 * i, 3, 1⟩
/-- DLV_STR_CONTENT.EMPTY_CAND [4:4] RW (11_delivery_queues.md, Table 11-9). -/
def DLV_STR_CONTENT_EMPTY_CAND (i : Nat) : FRef := ⟨0x121008 + 0x10 * i, 4, 1⟩
/-- DLV_GRP_EN.EN [0:0] RW (11_delivery_queues.md, Table 11-10). -/
def DLV_GRP_EN_EN (i : Nat) : FRef := ⟨0x124000 + 0x40 * i, 0, 1⟩
/-- DLV_GRP_EN.STATE [2:1] RO (11_delivery_queues.md, Table 11-10). -/
def DLV_GRP_EN_STATE (i : Nat) : FRef := ⟨0x124000 + 0x40 * i, 1, 2⟩
/-- DLV_GRP_EN.ENABLE_PENDING [3:3] RO (11_delivery_queues.md, Table 11-10). -/
def DLV_GRP_EN_ENABLE_PENDING (i : Nat) : FRef := ⟨0x124000 + 0x40 * i, 3, 1⟩
/-- DLV_GRP_CFG.XOFF_PIN [2:0] RW (11_delivery_queues.md, Table 11-10). -/
def DLV_GRP_CFG_XOFF_PIN (i : Nat) : FRef := ⟨0x124004 + 0x40 * i, 0, 3⟩
/-- DLV_GRP_CFG.XOFF_EN [3:3] RW (11_delivery_queues.md, Table 11-10). -/
def DLV_GRP_CFG_XOFF_EN (i : Nat) : FRef := ⟨0x124004 + 0x40 * i, 3, 1⟩
/-- DLV_GRP_CFG.FIFO_PIN [6:4] RW (11_delivery_queues.md, Table 11-10). -/
def DLV_GRP_CFG_FIFO_PIN (i : Nat) : FRef := ⟨0x124004 + 0x40 * i, 4, 3⟩
/-- DLV_GRP_CFG.FIFO_XOFF_EN [7:7] RW (11_delivery_queues.md, Table 11-10). -/
def DLV_GRP_CFG_FIFO_XOFF_EN (i : Nat) : FRef := ⟨0x124004 + 0x40 * i, 7, 1⟩
/-- DLV_GRP_CFG.HOLDOFF [31:16] RW (11_delivery_queues.md, Table 11-10). -/
def DLV_GRP_CFG_HOLDOFF (i : Nat) : FRef := ⟨0x124004 + 0x40 * i, 16, 16⟩
/-- DLV_GRP_HI.HI [31:0] RW (11_delivery_queues.md, Table 11-10). -/
def DLV_GRP_HI_HI (i : Nat) : FRef := ⟨0x124008 + 0x40 * i, 0, 32⟩
/-- DLV_GRP_LO.LO [31:0] RW (11_delivery_queues.md, Table 11-10). -/
def DLV_GRP_LO_LO (i : Nat) : FRef := ⟨0x12400C + 0x40 * i, 0, 32⟩
/-- DLV_GRP_LEVEL.LEVEL [31:0] RO (11_delivery_queues.md, Table 11-10). -/
def DLV_GRP_LEVEL_LEVEL (i : Nat) : FRef := ⟨0x124010 + 0x40 * i, 0, 32⟩
/-- DLV_GRP_STATUS.ABOVE [0:0] RO (11_delivery_queues.md, Table 11-11). -/
def DLV_GRP_STATUS_ABOVE (i : Nat) : FRef := ⟨0x124014 + 0x40 * i, 0, 1⟩
/-- DLV_GRP_STATUS.FIFO_ABOVE [1:1] RO (11_delivery_queues.md, Table 11-11). -/
def DLV_GRP_STATUS_FIFO_ABOVE (i : Nat) : FRef := ⟨0x124014 + 0x40 * i, 1, 1⟩
/-- DLV_GRP_STATUS.NOTIFY [2:2] RO (11_delivery_queues.md, Table 11-11). -/
def DLV_GRP_STATUS_NOTIFY (i : Nat) : FRef := ⟨0x124014 + 0x40 * i, 2, 1⟩
/-- DLV_GRP_STATUS.FIFO_OVF [3:3] W1C (11_delivery_queues.md, Table 11-11). -/
def DLV_GRP_STATUS_FIFO_OVF (i : Nat) : FRef := ⟨0x124014 + 0x40 * i, 3, 1⟩
/-- DLV_GRP_STATUS.RESCAN [4:4] W1C (11_delivery_queues.md, Table 11-11). -/
def DLV_GRP_STATUS_RESCAN (i : Nat) : FRef := ⟨0x124014 + 0x40 * i, 4, 1⟩
/-- DLV_GRP_STATUS.QFAULT [5:5] W1C (11_delivery_queues.md, Table 11-11). -/
def DLV_GRP_STATUS_QFAULT (i : Nat) : FRef := ⟨0x124014 + 0x40 * i, 5, 1⟩
/-- DLV_GRP_STATUS.DB_ERR [6:6] W1C (11_delivery_queues.md, Table 11-11). -/
def DLV_GRP_STATUS_DB_ERR (i : Nat) : FRef := ⟨0x124014 + 0x40 * i, 6, 1⟩
/-- DLV_GRP_STATUS.CFG_ERR [7:7] RO (11_delivery_queues.md, Table 11-11). -/
def DLV_GRP_STATUS_CFG_ERR (i : Nat) : FRef := ⟨0x124014 + 0x40 * i, 7, 1⟩
/-- DLV_GRP_FIFO.QID [19:0] RO (11_delivery_queues.md, Table 11-10). -/
def DLV_GRP_FIFO_QID (i : Nat) : FRef := ⟨0x124018 + 0x40 * i, 0, 20⟩
/-- DLV_GRP_FIFO.VALID [63:63] RO (11_delivery_queues.md, Table 11-10). -/
def DLV_GRP_FIFO_VALID (i : Nat) : FRef := ⟨0x124018 + 0x40 * i, 63, 1⟩
/-- DLV_GRP_FIFO_WMARK.HI [6:0] RW (11_delivery_queues.md, Table 11-10). -/
def DLV_GRP_FIFO_WMARK_HI (i : Nat) : FRef := ⟨0x124020 + 0x40 * i, 0, 7⟩
/-- DLV_GRP_FIFO_WMARK.LO [14:8] RW (11_delivery_queues.md, Table 11-10). -/
def DLV_GRP_FIFO_WMARK_LO (i : Nat) : FRef := ⟨0x124020 + 0x40 * i, 8, 7⟩
/-- DLV_GRP_FIFO_LEVEL.LEVEL [6:0] RO (11_delivery_queues.md, Table 11-10). -/
def DLV_GRP_FIFO_LEVEL_LEVEL (i : Nat) : FRef := ⟨0x124024 + 0x40 * i, 0, 7⟩
/-- DLV_GRP_CNT_DROP.COUNT [31:0] RO (11_delivery_queues.md, Table 11-10). -/
def DLV_GRP_CNT_DROP_COUNT (i : Nat) : FRef := ⟨0x124028 + 0x40 * i, 0, 32⟩
/-- DLV_GRP_CNT_LOST.COUNT [31:0] RO (11_delivery_queues.md, Table 11-10). -/
def DLV_GRP_CNT_LOST_COUNT (i : Nat) : FRef := ⟨0x12402C + 0x40 * i, 0, 32⟩

/-! Fields of the DMA block. -/

/-- DMA_STATUS.ENGINE_HALT [0:0] W1C (12_dma_engines.md, Table 12-8). -/
def DMA_STATUS_ENGINE_HALT : FRef := ⟨0x130000, 0, 1⟩
/-- DMA_STATUS.DRAINING [1:1] RO (12_dma_engines.md, Table 12-8). -/
def DMA_STATUS_DRAINING : FRef := ⟨0x130000, 1, 1⟩
/-- DMA_STATUS.MASTER_OFF [2:2] RO (12_dma_engines.md, Table 12-8). -/
def DMA_STATUS_MASTER_OFF : FRef := ⟨0x130000, 2, 1⟩
/-- DMA_STATUS.CAUSE [5:3] RO (12_dma_engines.md, Table 12-8). -/
def DMA_STATUS_CAUSE : FRef := ⟨0x130000, 3, 3⟩
/-- DMA_HALT_ADDR.ADDR [63:0] RO (12_dma_engines.md, Table 12-7). -/
def DMA_HALT_ADDR_ADDR : FRef := ⟨0x130008, 0, 64⟩
/-- DMA_OUTSTANDING.REQS [9:0] RO (12_dma_engines.md, Table 12-7). -/
def DMA_OUTSTANDING_REQS : FRef := ⟨0x130010, 0, 10⟩
/-- DMA_OUTSTANDING.KB [24:16] RO (12_dma_engines.md, Table 12-7). -/
def DMA_OUTSTANDING_KB : FRef := ⟨0x130010, 16, 9⟩
/-- DMA_CNT_BOUND.COUNT [31:0] RO (12_dma_engines.md, Table 12-7). -/
def DMA_CNT_BOUND_COUNT : FRef := ⟨0x130014, 0, 32⟩
/-- DMA_CNT_HALT_MORE.COUNT [31:0] RO (12_dma_engines.md, Table 12-7). -/
def DMA_CNT_HALT_MORE_COUNT : FRef := ⟨0x130018, 0, 32⟩
/-- DMA_STAGE_USE.PAGES [11:0] RO (12_dma_engines.md, Table 12-7). -/
def DMA_STAGE_USE_PAGES : FRef := ⟨0x13001C, 0, 12⟩
/-- DMA_CH_EN.EN [0:0] RW (12_dma_engines.md, Table 12-9). -/
def DMA_CH_EN_EN (i : Nat) : FRef := ⟨0x131000 + 0x40 * i, 0, 1⟩
/-- DMA_CH_EN.STATE [2:1] RO (12_dma_engines.md, Table 12-9). -/
def DMA_CH_EN_STATE (i : Nat) : FRef := ⟨0x131000 + 0x40 * i, 1, 2⟩
/-- DMA_CH_EN.ENABLE_PENDING [3:3] RO (12_dma_engines.md, Table 12-9). -/
def DMA_CH_EN_ENABLE_PENDING (i : Nat) : FRef := ⟨0x131000 + 0x40 * i, 3, 1⟩
/-- DMA_CH_CFG.WEIGHT [3:0] RW (12_dma_engines.md, Table 12-9). -/
def DMA_CH_CFG_WEIGHT (i : Nat) : FRef := ⟨0x131004 + 0x40 * i, 0, 4⟩
/-- DMA_CH_CFG.RO_DATA [4:4] RW (12_dma_engines.md, Table 12-9). -/
def DMA_CH_CFG_RO_DATA (i : Nat) : FRef := ⟨0x131004 + 0x40 * i, 4, 1⟩
/-- DMA_CH_CFG.CPL_LOG2 [9:5] RW (12_dma_engines.md, Table 12-9). -/
def DMA_CH_CFG_CPL_LOG2 (i : Nat) : FRef := ⟨0x131004 + 0x40 * i, 5, 5⟩
/-- DMA_CH_CFG.MAXSTAGE [23:16] RW (12_dma_engines.md, Table 12-9). -/
def DMA_CH_CFG_MAXSTAGE (i : Nat) : FRef := ⟨0x131004 + 0x40 * i, 16, 8⟩
/-- DMA_CH_HEAD.HEAD [63:6] RW (12_dma_engines.md, Table 12-9). -/
def DMA_CH_HEAD_HEAD (i : Nat) : FRef := ⟨0x131008 + 0x40 * i, 6, 58⟩
/-- DMA_CH_CUR.CUR [63:0] RO (12_dma_engines.md, Table 12-9). -/
def DMA_CH_CUR_CUR (i : Nat) : FRef := ⟨0x131010 + 0x40 * i, 0, 64⟩
/-- DMA_CH_CPL_BASE.BASE [62:4] RW (12_dma_engines.md, Table 12-9). -/
def DMA_CH_CPL_BASE_BASE (i : Nat) : FRef := ⟨0x131018 + 0x40 * i, 4, 59⟩
/-- DMA_CH_CPL_BASE.SPACE [63:63] RW (12_dma_engines.md, Table 12-9). -/
def DMA_CH_CPL_BASE_SPACE (i : Nat) : FRef := ⟨0x131018 + 0x40 * i, 63, 1⟩
/-- DMA_CH_CPL_CI.CI [15:0] RW (12_dma_engines.md, Table 12-9). -/
def DMA_CH_CPL_CI_CI (i : Nat) : FRef := ⟨0x131020 + 0x40 * i, 0, 16⟩
/-- DMA_CH_CPL_PI.PI [15:0] RO (12_dma_engines.md, Table 12-9). -/
def DMA_CH_CPL_PI_PI (i : Nat) : FRef := ⟨0x131024 + 0x40 * i, 0, 16⟩
/-- DMA_CH_DB.GO [0:0] WO (12_dma_engines.md, Table 12-9). -/
def DMA_CH_DB_GO (i : Nat) : FRef := ⟨0x131028 + 0x40 * i, 0, 1⟩
/-- DMA_CH_CTRL.RESTART [0:0] WO (12_dma_engines.md, Table 12-9). -/
def DMA_CH_CTRL_RESTART (i : Nat) : FRef := ⟨0x13102C + 0x40 * i, 0, 1⟩
/-- DMA_CH_STATUS.RUN [2:0] RO (12_dma_engines.md, Table 12-10). -/
def DMA_CH_STATUS_RUN (i : Nat) : FRef := ⟨0x131030 + 0x40 * i, 0, 3⟩
/-- DMA_CH_STATUS.DB_PEND [3:3] RO (12_dma_engines.md, Table 12-10). -/
def DMA_CH_STATUS_DB_PEND (i : Nat) : FRef := ⟨0x131030 + 0x40 * i, 3, 1⟩
/-- DMA_CH_STATUS.CPL_FULL [4:4] RO (12_dma_engines.md, Table 12-10). -/
def DMA_CH_STATUS_CPL_FULL (i : Nat) : FRef := ⟨0x131030 + 0x40 * i, 4, 1⟩
/-- DMA_CH_STATUS.RESTART_REF [5:5] W1C (12_dma_engines.md, Table 12-10). -/
def DMA_CH_STATUS_RESTART_REF (i : Nat) : FRef := ⟨0x131030 + 0x40 * i, 5, 1⟩
/-- DMA_CH_STATUS.CFG_LOCK [6:6] W1C (12_dma_engines.md, Table 12-10). -/
def DMA_CH_STATUS_CFG_LOCK (i : Nat) : FRef := ⟨0x131030 + 0x40 * i, 6, 1⟩
/-- DMA_CH_STATUS.CAUSE [10:8] RO (12_dma_engines.md, Table 12-10). -/
def DMA_CH_STATUS_CAUSE (i : Nat) : FRef := ⟨0x131030 + 0x40 * i, 8, 3⟩
/-- DMA_CH_DONE.DONE [31:0] RO (12_dma_engines.md, Table 12-9). -/
def DMA_CH_DONE_DONE (i : Nat) : FRef := ⟨0x131034 + 0x40 * i, 0, 32⟩
/-- DMA_CH_BYTES.BYTES [63:0] RO (12_dma_engines.md, Table 12-9). -/
def DMA_CH_BYTES_BYTES (i : Nat) : FRef := ⟨0x131038 + 0x40 * i, 0, 64⟩

/-! Fields of the HEP block. -/

/-- HEP_LINK.SPEED [3:0] RO (13_host_endpoint.md, Table 13-13). -/
def HEP_LINK_SPEED : FRef := ⟨0x1000, 0, 4⟩
/-- HEP_LINK.WIDTH [8:4] RO (13_host_endpoint.md, Table 13-13). -/
def HEP_LINK_WIDTH : FRef := ⟨0x1000, 4, 5⟩
/-- HEP_LINK.FLIT [9:9] RO (13_host_endpoint.md, Table 13-13). -/
def HEP_LINK_FLIT : FRef := ⟨0x1000, 9, 1⟩
/-- HEP_LINK.DL_UP [10:10] RO (13_host_endpoint.md, Table 13-13). -/
def HEP_LINK_DL_UP : FRef := ⟨0x1000, 10, 1⟩
/-- HEP_LINK.LTSSM [13:11] RO (13_host_endpoint.md, Table 13-13). -/
def HEP_LINK_LTSSM : FRef := ⟨0x1000, 11, 3⟩
/-- HEP_LINK.DSTATE [17:16] RO (13_host_endpoint.md, Table 13-13). -/
def HEP_LINK_DSTATE : FRef := ⟨0x1000, 16, 2⟩
/-- HEP_LINK.INTMODE [19:18] RO (13_host_endpoint.md, Table 13-13). -/
def HEP_LINK_INTMODE : FRef := ⟨0x1000, 18, 2⟩
/-- HEP_LINK.BME [20:20] RO (13_host_endpoint.md, Table 13-13). -/
def HEP_LINK_BME : FRef := ⟨0x1000, 20, 1⟩
/-- HEP_LINK.MSE [21:21] RO (13_host_endpoint.md, Table 13-13). -/
def HEP_LINK_MSE : FRef := ⟨0x1000, 21, 1⟩
/-- HEP_LINK.INTA [22:22] RO (13_host_endpoint.md, Table 13-13). -/
def HEP_LINK_INTA : FRef := ⟨0x1000, 22, 1⟩
/-- HEP_LINK_EVT.SPEED_CHG [0:0] W1C (13_host_endpoint.md, Table 13-12). -/
def HEP_LINK_EVT_SPEED_CHG : FRef := ⟨0x1004, 0, 1⟩
/-- HEP_LINK_EVT.WIDTH_CHG [1:1] W1C (13_host_endpoint.md, Table 13-12). -/
def HEP_LINK_EVT_WIDTH_CHG : FRef := ⟨0x1004, 1, 1⟩
/-- HEP_LINK_EVT.RECOVERY [2:2] W1C (13_host_endpoint.md, Table 13-12). -/
def HEP_LINK_EVT_RECOVERY : FRef := ⟨0x1004, 2, 1⟩
/-- HEP_LTR.ACQ_NS [15:0] RW (13_host_endpoint.md, Table 13-12). -/
def HEP_LTR_ACQ_NS : FRef := ⟨0x1008, 0, 16⟩
/-- HEP_LTR.IDLE_US [31:16] RW (13_host_endpoint.md, Table 13-12). -/
def HEP_LTR_IDLE_US : FRef := ⟨0x1008, 16, 16⟩
/-- HEP_ASPM.L0S_IDLE [15:0] RW (13_host_endpoint.md, Table 13-12). -/
def HEP_ASPM_L0S_IDLE : FRef := ⟨0x100C, 0, 16⟩
/-- HEP_ASPM.L1_IDLE [31:16] RW (13_host_endpoint.md, Table 13-12). -/
def HEP_ASPM_L1_IDLE : FRef := ⟨0x100C, 16, 16⟩
/-- HEP_BAR2_BASE.BASE [34:0] RW (13_host_endpoint.md, Table 13-12). -/
def HEP_BAR2_BASE_BASE : FRef := ⟨0x1010, 0, 35⟩
/-- HEP_TAGS.POOL [10:0] RO (13_host_endpoint.md, Table 13-12). -/
def HEP_TAGS_POOL : FRef := ⟨0x1018, 0, 11⟩
/-- HEP_TAGS.OUTSTANDING [26:16] RO (13_host_endpoint.md, Table 13-12). -/
def HEP_TAGS_OUTSTANDING : FRef := ⟨0x1018, 16, 11⟩
/-- HEP_QUAR.TAGS [10:0] RO (13_host_endpoint.md, Table 13-12). -/
def HEP_QUAR_TAGS : FRef := ⟨0x101C, 0, 11⟩
/-- HEP_CNT_CPL_TO.COUNT [31:0] RO (13_host_endpoint.md, Table 13-12). -/
def HEP_CNT_CPL_TO_COUNT : FRef := ⟨0x1020, 0, 32⟩
/-- HEP_CNT_LATE_CPL.COUNT [31:0] RO (13_host_endpoint.md, Table 13-12). -/
def HEP_CNT_LATE_CPL_COUNT : FRef := ⟨0x1024, 0, 32⟩
/-- HEP_CNT_CORR.COUNT [31:0] RO (13_host_endpoint.md, Table 13-12). -/
def HEP_CNT_CORR_COUNT : FRef := ⟨0x1028, 0, 32⟩
/-- HEP_CNT_RECOVERY.COUNT [31:0] RO (13_host_endpoint.md, Table 13-12). -/
def HEP_CNT_RECOVERY_COUNT : FRef := ⟨0x102C, 0, 32⟩
/-- HEP_CNT_UR.COUNT [31:0] RO (13_host_endpoint.md, Table 13-12). -/
def HEP_CNT_UR_COUNT : FRef := ⟨0x1030, 0, 32⟩
/-- HEP_CNT_CLR.GO [0:0] WO (13_host_endpoint.md, Table 13-12). -/
def HEP_CNT_CLR_GO : FRef := ⟨0x1034, 0, 1⟩
/-- HEP_SSID.SVID [15:0] RO (13_host_endpoint.md, Table 13-12). -/
def HEP_SSID_SVID : FRef := ⟨0x1038, 0, 16⟩
/-- HEP_SSID.SID [31:16] RO (13_host_endpoint.md, Table 13-12). -/
def HEP_SSID_SID : FRef := ⟨0x1038, 16, 16⟩

/-! Fields of the MBX block. -/

/-- MBX_PAGE.DATA [31:0] RW (14_mailbox_commands.md, R388). -/
def MBX_PAGE_DATA (i j : Nat) : FRef := ⟨0x10000 + 0x1000 * i + 0x4 * j, 0, 32⟩
/-- MBX_DB.GO [0:0] WO (14_mailbox_commands.md, Table 14-9). -/
def MBX_DB_GO (i : Nat) : FRef := ⟨0x18000 + 0x20 * i, 0, 1⟩
/-- MBX_DB.ABORT [1:1] WO (14_mailbox_commands.md, Table 14-9). -/
def MBX_DB_ABORT (i : Nat) : FRef := ⟨0x18000 + 0x20 * i, 1, 1⟩
/-- MBX_STATUS.STATE [1:0] RO (14_mailbox_commands.md, Table 14-10). -/
def MBX_STATUS_STATE (i : Nat) : FRef := ⟨0x18004 + 0x20 * i, 0, 2⟩
/-- MBX_STATUS.DONE [2:2] W1C (14_mailbox_commands.md, Table 14-10). -/
def MBX_STATUS_DONE (i : Nat) : FRef := ⟨0x18004 + 0x20 * i, 2, 1⟩
/-- MBX_STATUS.DB_ERR [3:3] W1C (14_mailbox_commands.md, Table 14-10). -/
def MBX_STATUS_DB_ERR (i : Nat) : FRef := ⟨0x18004 + 0x20 * i, 3, 1⟩
/-- MBX_STATUS.WR_LOCK [4:4] W1C (14_mailbox_commands.md, Table 14-10). -/
def MBX_STATUS_WR_LOCK (i : Nat) : FRef := ⟨0x18004 + 0x20 * i, 4, 1⟩
/-- MBX_STATUS.NONCE [5:5] RO (14_mailbox_commands.md, Table 14-10). -/
def MBX_STATUS_NONCE (i : Nat) : FRef := ⟨0x18004 + 0x20 * i, 5, 1⟩
/-- MBX_STATUS.ABORTING [6:6] RO (14_mailbox_commands.md, Table 14-10). -/
def MBX_STATUS_ABORTING (i : Nat) : FRef := ⟨0x18004 + 0x20 * i, 6, 1⟩
/-- MBX_STATUS.SEQ [31:16] RO (14_mailbox_commands.md, Table 14-10). -/
def MBX_STATUS_SEQ (i : Nat) : FRef := ⟨0x18004 + 0x20 * i, 16, 16⟩
/-- MBX_LAST.STATUS [15:0] RO (14_mailbox_commands.md, Table 14-9). -/
def MBX_LAST_STATUS (i : Nat) : FRef := ⟨0x18008 + 0x20 * i, 0, 16⟩
/-- MBX_LAST.SEQ [31:16] RO (14_mailbox_commands.md, Table 14-9). -/
def MBX_LAST_SEQ (i : Nat) : FRef := ⟨0x18008 + 0x20 * i, 16, 16⟩
/-- MBX_OWNER.OWNER [1:0] RO (14_mailbox_commands.md, Table 14-9). -/
def MBX_OWNER_OWNER (i : Nat) : FRef := ⟨0x1800C + 0x20 * i, 0, 2⟩
/-- MBX_OWNER.HOST_WRITABLE [2:2] RO (14_mailbox_commands.md, Table 14-9). -/
def MBX_OWNER_HOST_WRITABLE (i : Nat) : FRef := ⟨0x1800C + 0x20 * i, 2, 1⟩
/-- MBX_CNT.DONE [15:0] RO (14_mailbox_commands.md, Table 14-9). -/
def MBX_CNT_DONE (i : Nat) : FRef := ⟨0x18010 + 0x20 * i, 0, 16⟩
/-- MBX_CNT.NOTOK [31:16] RO (14_mailbox_commands.md, Table 14-9). -/
def MBX_CNT_NOTOK (i : Nat) : FRef := ⟨0x18010 + 0x20 * i, 16, 16⟩
/-- MBX_FW_STATUS.READY [0:0] RO (14_mailbox_commands.md, Table 14-11). -/
def MBX_FW_STATUS_READY : FRef := ⟨0x18100, 0, 1⟩
/-- MBX_FW_STATUS.ROM [1:1] RO (14_mailbox_commands.md, Table 14-11). -/
def MBX_FW_STATUS_ROM : FRef := ⟨0x18100, 1, 1⟩
/-- MBX_FW_STATUS.FAULT [2:2] W1C (14_mailbox_commands.md, Table 14-11). -/
def MBX_FW_STATUS_FAULT : FRef := ⟨0x18100, 2, 1⟩
/-- MBX_FW_STATUS.EDUSK_VER [31:16] RO (14_mailbox_commands.md, Table 14-11). -/
def MBX_FW_STATUS_EDUSK_VER : FRef := ⟨0x18100, 16, 16⟩

/-! Fields of the GYL block. -/

/-- GYL_CH_EN.EN [7:0] RW (15_guyline_events.md, Table 15-5). -/
def GYL_CH_EN_EN (i : Nat) : FRef := ⟨0x30000 + 0x10 * i, 0, 8⟩
/-- GYL_CH_CFG.OWNER [1:0] RO (15_guyline_events.md, Table 15-6). -/
def GYL_CH_CFG_OWNER (i : Nat) : FRef := ⟨0x30004 + 0x10 * i, 0, 2⟩
/-- GYL_CH_CFG.SEC [2:2] RO (15_guyline_events.md, Table 15-6). -/
def GYL_CH_CFG_SEC (i : Nat) : FRef := ⟨0x30004 + 0x10 * i, 2, 1⟩
/-- GYL_CH_CFG.TTH_SLOT [7:4] RW (15_guyline_events.md, Table 15-6). -/
def GYL_CH_CFG_TTH_SLOT (i : Nat) : FRef := ⟨0x30004 + 0x10 * i, 4, 4⟩
/-- GYL_CH_CFG.TTH_DIR [9:8] RW (15_guyline_events.md, Table 15-6). -/
def GYL_CH_CFG_TTH_DIR (i : Nat) : FRef := ⟨0x30004 + 0x10 * i, 8, 2⟩
/-- GYL_CH_STATUS.LOOP [0:0] W1C (15_guyline_events.md, Table 15-7). -/
def GYL_CH_STATUS_LOOP (i : Nat) : FRef := ⟨0x30008 + 0x10 * i, 0, 1⟩
/-- GYL_CH_STATUS.OWN_ERR [1:1] W1C (15_guyline_events.md, Table 15-7). -/
def GYL_CH_STATUS_OWN_ERR (i : Nat) : FRef := ⟨0x30008 + 0x10 * i, 1, 1⟩
/-- GYL_CH_STATUS.SEC_ERR [2:2] W1C (15_guyline_events.md, Table 15-7). -/
def GYL_CH_STATUS_SEC_ERR (i : Nat) : FRef := ⟨0x30008 + 0x10 * i, 2, 1⟩
/-- GYL_CH_STATUS.LAST_HOP [5:3] RO (15_guyline_events.md, Table 15-7). -/
def GYL_CH_STATUS_LAST_HOP (i : Nat) : FRef := ⟨0x30008 + 0x10 * i, 3, 3⟩
/-- GYL_CNT.COUNT [31:0] RO (15_guyline_events.md, Table 15-5). -/
def GYL_CNT_COUNT (i : Nat) : FRef := ⟨0x3000C + 0x10 * i, 0, 32⟩
/-- GYL_SEEN.SEEN [31:0] W1C (15_guyline_events.md, Table 15-5). -/
def GYL_SEEN_SEEN (i : Nat) : FRef := ⟨0x31000 + 0x4 * i, 0, 32⟩
/-- GYL_IRQ_EN.EN [31:0] RW (15_guyline_events.md, Table 15-5). -/
def GYL_IRQ_EN_EN (i : Nat) : FRef := ⟨0x31020 + 0x4 * i, 0, 32⟩
/-- GYL_CNT_LOOP.COUNT [31:0] RO (15_guyline_events.md, Table 15-5). -/
def GYL_CNT_LOOP_COUNT : FRef := ⟨0x31040, 0, 32⟩
/-- GYL_TASK_STATUS.OVERRUN [0:0] W1C (15_guyline_events.md, Table 15-8). -/
def GYL_TASK_STATUS_OVERRUN (i : Nat) : FRef := ⟨0x31100 + 0x8 * i, 0, 1⟩
/-- GYL_TASK_STATUS.MERGED [1:1] W1C (15_guyline_events.md, Table 15-8). -/
def GYL_TASK_STATUS_MERGED (i : Nat) : FRef := ⟨0x31100 + 0x8 * i, 1, 1⟩
/-- GYL_TASK_STATUS.BUSY [2:2] RO (15_guyline_events.md, Table 15-8). -/
def GYL_TASK_STATUS_BUSY (i : Nat) : FRef := ⟨0x31100 + 0x8 * i, 2, 1⟩
/-- GYL_TASK_STATUS.OVR_CNT [31:16] RO (15_guyline_events.md, Table 15-8). -/
def GYL_TASK_STATUS_OVR_CNT (i : Nat) : FRef := ⟨0x31100 + 0x8 * i, 16, 16⟩
/-- GYL_TASK_CNT.ACT [15:0] RO (15_guyline_events.md, Table 15-5). -/
def GYL_TASK_CNT_ACT (i : Nat) : FRef := ⟨0x31104 + 0x8 * i, 0, 16⟩
/-- GYL_TASK_CNT.MERGES [31:16] RO (15_guyline_events.md, Table 15-5). -/
def GYL_TASK_CNT_MERGES (i : Nat) : FRef := ⟨0x31104 + 0x8 * i, 16, 16⟩
/-- GYL_RLY_DELAY.DELAY [15:0] RW (15_guyline_events.md, Table 15-5). -/
def GYL_RLY_DELAY_DELAY (i : Nat) : FRef := ⟨0x31800 + 0x4 * i, 0, 16⟩
/-- GYL_CHG_WORD.WORD [31:0] RW (15_guyline_events.md, Table 15-5). -/
def GYL_CHG_WORD_WORD : FRef := ⟨0x31840, 0, 32⟩

/-! Fields of the TTH block. -/

/-- TTH_EN.EN [0:0] RW (16_tether_link.md, Table 16-8). -/
def TTH_EN_EN : FRef := ⟨0x140000, 0, 1⟩
/-- TTH_EN.STATE [2:1] RO (16_tether_link.md, Table 16-8). -/
def TTH_EN_STATE : FRef := ⟨0x140000, 1, 2⟩
/-- TTH_EN.ENABLE_PENDING [3:3] RO (16_tether_link.md, Table 16-8). -/
def TTH_EN_ENABLE_PENDING : FRef := ⟨0x140000, 3, 1⟩
/-- TTH_CFG.TIME_DOM [3:0] RW (16_tether_link.md, Table 16-9). -/
def TTH_CFG_TIME_DOM : FRef := ⟨0x140004, 0, 4⟩
/-- TTH_CFG.TIME_MS [13:4] RW (16_tether_link.md, Table 16-9). -/
def TTH_CFG_TIME_MS : FRef := ⟨0x140004, 4, 10⟩
/-- TTH_HB.INT [15:0] RW (16_tether_link.md, Table 16-8). -/
def TTH_HB_INT : FRef := ⟨0x140008, 0, 16⟩
/-- TTH_HB.LOSS [23:16] RW (16_tether_link.md, Table 16-8). -/
def TTH_HB_LOSS : FRef := ⟨0x140008, 16, 8⟩
/-- TTH_SLOT_CFG.TRAIL [3:0] RW (16_tether_link.md, Table 16-8). -/
def TTH_SLOT_CFG_TRAIL (i : Nat) : FRef := ⟨0x140010 + 0x4 * i, 0, 4⟩
/-- TTH_SLOT_CFG.EN [4:4] RW (16_tether_link.md, Table 16-8). -/
def TTH_SLOT_CFG_EN (i : Nat) : FRef := ⟨0x140010 + 0x4 * i, 4, 1⟩
/-- TTH_STATUS.HOP [3:0] RO (16_tether_link.md, Table 16-10). -/
def TTH_STATUS_HOP : FRef := ⟨0x140020, 0, 4⟩
/-- TTH_STATUS.UP_LOCK [4:4] RO (16_tether_link.md, Table 16-10). -/
def TTH_STATUS_UP_LOCK : FRef := ⟨0x140020, 4, 1⟩
/-- TTH_STATUS.DN_LOCK [5:5] RO (16_tether_link.md, Table 16-10). -/
def TTH_STATUS_DN_LOCK : FRef := ⟨0x140020, 5, 1⟩
/-- TTH_STATUS.CFG_ERR [6:6] RO (16_tether_link.md, Table 16-10). -/
def TTH_STATUS_CFG_ERR : FRef := ⟨0x140020, 6, 1⟩
/-- TTH_STATUS.CHAIN_LONG [7:7] RO (16_tether_link.md, Table 16-10). -/
def TTH_STATUS_CHAIN_LONG : FRef := ⟨0x140020, 7, 1⟩
/-- TTH_STATUS.UNCAL [8:8] RO (16_tether_link.md, Table 16-10). -/
def TTH_STATUS_UNCAL : FRef := ⟨0x140020, 8, 1⟩
/-- TTH_STATUS.PAD_PEND [9:9] RO (16_tether_link.md, Table 16-10). -/
def TTH_STATUS_PAD_PEND : FRef := ⟨0x140020, 9, 1⟩
/-- TTH_STATUS.CAL_ERR [10:10] W1C (16_tether_link.md, Table 16-10). -/
def TTH_STATUS_CAL_ERR : FRef := ⟨0x140020, 10, 1⟩
/-- TTH_STATUS.HB_LOST [11:11] W1C (16_tether_link.md, Table 16-10). -/
def TTH_STATUS_HB_LOST : FRef := ⟨0x140020, 11, 1⟩
/-- TTH_STATUS.HOLD_FROM [15:12] RO (16_tether_link.md, Table 16-10). -/
def TTH_STATUS_HOLD_FROM : FRef := ⟨0x140020, 12, 4⟩
/-- TTH_PRESENT.PRESENT [15:0] RO (16_tether_link.md, Table 16-8). -/
def TTH_PRESENT_PRESENT : FRef := ⟨0x140024, 0, 16⟩
/-- TTH_PRESENT.DUP [31:16] RO (16_tether_link.md, Table 16-8). -/
def TTH_PRESENT_DUP : FRef := ⟨0x140024, 16, 16⟩
/-- TTH_LINKDLY.L [31:0] RO (16_tether_link.md, Table 16-8). -/
def TTH_LINKDLY_L : FRef := ⟨0x140028, 0, 32⟩
/-- TTH_PAD.P [31:0] RO (16_tether_link.md, Table 16-8). -/
def TTH_PAD_P : FRef := ⟨0x14002C, 0, 32⟩
/-- TTH_CNT_CRC.UP [15:0] RO (16_tether_link.md, Table 16-8). -/
def TTH_CNT_CRC_UP : FRef := ⟨0x140030, 0, 16⟩
/-- TTH_CNT_CRC.DN [31:16] RO (16_tether_link.md, Table 16-8). -/
def TTH_CNT_CRC_DN : FRef := ⟨0x140030, 16, 16⟩
/-- TTH_CNT_BEAT_LOST.COUNT [31:0] RO (16_tether_link.md, Table 16-8). -/
def TTH_CNT_BEAT_LOST_COUNT : FRef := ⟨0x140034, 0, 32⟩
/-- TTH_CNT_ANCHOR_MISMATCH.COUNT [31:0] RO (16_tether_link.md, Table 16-8). -/
def TTH_CNT_ANCHOR_MISMATCH_COUNT : FRef := ⟨0x140038, 0, 32⟩
/-- TTH_CNT_MSG_DROP.COUNT [31:0] RO (16_tether_link.md, Table 16-8). -/
def TTH_CNT_MSG_DROP_COUNT : FRef := ⟨0x14003C, 0, 32⟩
/-- TTH_CNT_CLR.GO [0:0] WO (16_tether_link.md, Table 16-8). -/
def TTH_CNT_CLR_GO : FRef := ⟨0x140040, 0, 1⟩

/-! Fields of the LAN block. -/

/-- LAN_STATUS.XTAL_OK [0:0] RO (17_lantern.md, Table 17-5). -/
def LAN_STATUS_XTAL_OK : FRef := ⟨0x150000, 0, 1⟩
/-- LAN_STATUS.XTAL_FAIL [1:1] W1C (17_lantern.md, Table 17-5). -/
def LAN_STATUS_XTAL_FAIL : FRef := ⟨0x150000, 1, 1⟩
/-- LAN_STATUS.CFG_LOCK [2:2] W1C (17_lantern.md, Table 17-5). -/
def LAN_STATUS_CFG_LOCK : FRef := ⟨0x150000, 2, 1⟩
/-- LAN_STATUS.DUC_RESUMED [3:3] RO (17_lantern.md, Table 17-5). -/
def LAN_STATUS_DUC_RESUMED : FRef := ⟨0x150000, 3, 1⟩
/-- LAN_DUC.DUC [63:0] RO (17_lantern.md, Table 17-4). -/
def LAN_DUC_DUC : FRef := ⟨0x150008, 0, 64⟩
/-- LAN_WAKE.PENDING [0:0] W1C (17_lantern.md, Table 17-4). -/
def LAN_WAKE_PENDING : FRef := ⟨0x150010, 0, 1⟩
/-- LAN_WAKE.RULE [5:1] RO (17_lantern.md, Table 17-4). -/
def LAN_WAKE_RULE : FRef := ⟨0x150010, 1, 5⟩
/-- LAN_OVR.OVR [31:0] W1C (17_lantern.md, Table 17-4). -/
def LAN_OVR_OVR : FRef := ⟨0x150014, 0, 32⟩
/-- LAN_SOFTLIM.PORT [7:0] W1C (17_lantern.md, Table 17-4). -/
def LAN_SOFTLIM_PORT : FRef := ⟨0x150018, 0, 8⟩
/-- LAN_CNT_LOGLOST.COUNT [31:0] RO (17_lantern.md, Table 17-4). -/
def LAN_CNT_LOGLOST_COUNT : FRef := ⟨0x15001C, 0, 32⟩
/-- LAN_SHADOW.SHADOW [63:0] RO (17_lantern.md, Table 17-4). -/
def LAN_SHADOW_SHADOW (i : Nat) : FRef := ⟨0x150100 + 0x20 * i, 0, 64⟩
/-- LAN_SHADOW_SPD.SPD [31:0] RO (17_lantern.md, Table 17-4). -/
def LAN_SHADOW_SPD_SPD (i : Nat) : FRef := ⟨0x150108 + 0x20 * i, 0, 32⟩
/-- LAN_PORT_STATUS.UNTRUSTED [0:0] RO (17_lantern.md, Table 17-6). -/
def LAN_PORT_STATUS_UNTRUSTED (i : Nat) : FRef := ⟨0x15010C + 0x20 * i, 0, 1⟩
/-- LAN_PORT_STATUS.OVERSPEED [1:1] W1C (17_lantern.md, Table 17-6). -/
def LAN_PORT_STATUS_OVERSPEED (i : Nat) : FRef := ⟨0x15010C + 0x20 * i, 1, 1⟩
/-- LAN_PORT_STATUS.ILLEGAL [2:2] W1C (17_lantern.md, Table 17-6). -/
def LAN_PORT_STATUS_ILLEGAL (i : Nat) : FRef := ⟨0x15010C + 0x20 * i, 2, 1⟩
/-- LAN_PORT_STATUS.LINE_BREAK [3:3] RO (17_lantern.md, Table 17-6). -/
def LAN_PORT_STATUS_LINE_BREAK (i : Nat) : FRef := ⟨0x15010C + 0x20 * i, 3, 1⟩
/-- LAN_PORT_STATUS.SAT [4:4] W1C (17_lantern.md, Table 17-6). -/
def LAN_PORT_STATUS_SAT (i : Nat) : FRef := ⟨0x15010C + 0x20 * i, 4, 1⟩
/-- LAN_PORT_STATUS.SEED_QUIET [5:5] RO (17_lantern.md, Table 17-6). -/
def LAN_PORT_STATUS_SEED_QUIET (i : Nat) : FRef := ⟨0x15010C + 0x20 * i, 5, 1⟩
/-- LAN_PORT_STATUS.N_L [9:6] RO (17_lantern.md, Table 17-6). -/
def LAN_PORT_STATUS_N_L (i : Nat) : FRef := ⟨0x15010C + 0x20 * i, 6, 4⟩
/-- LAN_PORT_STATUS.CNT_ILLEGAL [31:16] RO (17_lantern.md, Table 17-6). -/
def LAN_PORT_STATUS_CNT_ILLEGAL (i : Nat) : FRef := ⟨0x15010C + 0x20 * i, 16, 16⟩
/-- LAN_RULE_CFG.EN [0:0] RW (17_lantern.md, Table 17-7). -/
def LAN_RULE_CFG_EN (i : Nat) : FRef := ⟨0x150400 + 0x20 * i, 0, 1⟩
/-- LAN_RULE_CFG.Q [4:1] RW (17_lantern.md, Table 17-7). -/
def LAN_RULE_CFG_Q (i : Nat) : FRef := ⟨0x150400 + 0x20 * i, 1, 4⟩
/-- LAN_RULE_CFG.SRC [7:5] RW (17_lantern.md, Table 17-7). -/
def LAN_RULE_CFG_SRC (i : Nat) : FRef := ⟨0x150400 + 0x20 * i, 5, 3⟩
/-- LAN_RULE_CFG.CMP [9:8] RW (17_lantern.md, Table 17-7). -/
def LAN_RULE_CFG_CMP (i : Nat) : FRef := ⟨0x150400 + 0x20 * i, 8, 2⟩
/-- LAN_RULE_CFG.MODE [10:10] RW (17_lantern.md, Table 17-7). -/
def LAN_RULE_CFG_MODE (i : Nat) : FRef := ⟨0x150400 + 0x20 * i, 10, 1⟩
/-- LAN_RULE_THR.THR [63:0] RW (17_lantern.md, Table 17-4). -/
def LAN_RULE_THR_THR (i : Nat) : FRef := ⟨0x150408 + 0x20 * i, 0, 64⟩
/-- LAN_RULE_TIME.T_W [15:0] RW (17_lantern.md, Table 17-4). -/
def LAN_RULE_TIME_T_W (i : Nat) : FRef := ⟨0x150410 + 0x20 * i, 0, 16⟩
/-- LAN_RULE_TIME.K [23:16] RW (17_lantern.md, Table 17-4). -/
def LAN_RULE_TIME_K (i : Nat) : FRef := ⟨0x150410 + 0x20 * i, 16, 8⟩
/-- LAN_RULE_ACT.WAKE [0:0] RW (17_lantern.md, Table 17-8). -/
def LAN_RULE_ACT_WAKE (i : Nat) : FRef := ⟨0x150414 + 0x20 * i, 0, 1⟩
/-- LAN_RULE_ACT.LOG [1:1] RW (17_lantern.md, Table 17-8). -/
def LAN_RULE_ACT_LOG (i : Nat) : FRef := ⟨0x150414 + 0x20 * i, 1, 1⟩
/-- LAN_RULE_ACT.OUT [2:2] RW (17_lantern.md, Table 17-8). -/
def LAN_RULE_ACT_OUT (i : Nat) : FRef := ⟨0x150414 + 0x20 * i, 2, 1⟩
/-- LAN_RULE_ACT.SOFTLIM [3:3] RW (17_lantern.md, Table 17-8). -/
def LAN_RULE_ACT_SOFTLIM (i : Nat) : FRef := ⟨0x150414 + 0x20 * i, 3, 1⟩
/-- LAN_RULE_ACT.OUT_PIN [8:4] RW (17_lantern.md, Table 17-8). -/
def LAN_RULE_ACT_OUT_PIN (i : Nat) : FRef := ⟨0x150414 + 0x20 * i, 4, 5⟩
/-- LAN_RULE_ACT.OUT_LEVEL [9:9] RW (17_lantern.md, Table 17-8). -/
def LAN_RULE_ACT_OUT_LEVEL (i : Nat) : FRef := ⟨0x150414 + 0x20 * i, 9, 1⟩
/-- LAN_RULE_ACT.SEV [18:16] RW (17_lantern.md, Table 17-8). -/
def LAN_RULE_ACT_SEV (i : Nat) : FRef := ⟨0x150414 + 0x20 * i, 16, 3⟩
/-- LAN_RULE_STATUS.STATE [1:0] RO (17_lantern.md, Table 17-4). -/
def LAN_RULE_STATUS_STATE (i : Nat) : FRef := ⟨0x150418 + 0x20 * i, 0, 2⟩
/-- LAN_RULE_STATUS.FIRES [31:16] RO (17_lantern.md, Table 17-4). -/
def LAN_RULE_STATUS_FIRES (i : Nat) : FRef := ⟨0x150418 + 0x20 * i, 16, 16⟩

/-! Fields of the REC block. -/

/-- REC_CTRL.FLUSH [0:0] WO (18_event_recorder.md, Table 18-7). -/
def REC_CTRL_FLUSH : FRef := ⟨0x160000, 0, 1⟩
/-- REC_CTRL.REWIND [1:1] WO (18_event_recorder.md, Table 18-7). -/
def REC_CTRL_REWIND : FRef := ⟨0x160000, 1, 1⟩
/-- REC_STATUS.FLUSHING [0:0] RO (18_event_recorder.md, Table 18-8). -/
def REC_STATUS_FLUSHING : FRef := ⟨0x160004, 0, 1⟩
/-- REC_STATUS.FLUSH_PEND [1:1] RO (18_event_recorder.md, Table 18-8). -/
def REC_STATUS_FLUSH_PEND : FRef := ⟨0x160004, 1, 1⟩
/-- REC_STATUS.MARK_VALID [2:2] RO (18_event_recorder.md, Table 18-8). -/
def REC_STATUS_MARK_VALID : FRef := ⟨0x160004, 2, 1⟩
/-- REC_STATUS.MARK_LOST [3:3] W1C (18_event_recorder.md, Table 18-8). -/
def REC_STATUS_MARK_LOST : FRef := ⟨0x160004, 3, 1⟩
/-- REC_STATUS.CURSOR_LOST [4:4] W1C (18_event_recorder.md, Table 18-8). -/
def REC_STATUS_CURSOR_LOST : FRef := ⟨0x160004, 4, 1⟩
/-- REC_STATUS.LOST [5:5] W1C (18_event_recorder.md, Table 18-8). -/
def REC_STATUS_LOST : FRef := ⟨0x160004, 5, 1⟩
/-- REC_STATUS.MRAM_ERR [6:6] W1C (18_event_recorder.md, Table 18-8). -/
def REC_STATUS_MRAM_ERR : FRef := ⟨0x160004, 6, 1⟩
/-- REC_STATUS.FIRST_FULL [7:7] RO (18_event_recorder.md, Table 18-8). -/
def REC_STATUS_FIRST_FULL : FRef := ⟨0x160004, 7, 1⟩
/-- REC_CFG.AREA [1:0] RW (18_event_recorder.md, Table 18-7). -/
def REC_CFG_AREA : FRef := ⟨0x160008, 0, 2⟩
/-- REC_WIN_STATUS.PRESENT [15:0] RO (18_event_recorder.md, Table 18-7). -/
def REC_WIN_STATUS_PRESENT : FRef := ⟨0x16000C, 0, 16⟩
/-- REC_WIN_STATUS.CRC_BAD [31:16] RO (18_event_recorder.md, Table 18-7). -/
def REC_WIN_STATUS_CRC_BAD : FRef := ⟨0x16000C, 16, 16⟩
/-- REC_CURSOR.CURSOR [31:0] RW (18_event_recorder.md, Table 18-7). -/
def REC_CURSOR_CURSOR : FRef := ⟨0x160010, 0, 32⟩
/-- REC_MARK.MARK [31:0] RW (18_event_recorder.md, Table 18-7). -/
def REC_MARK_MARK : FRef := ⟨0x160014, 0, 32⟩
/-- REC_GAP.GAP [31:0] RO (18_event_recorder.md, Table 18-7). -/
def REC_GAP_GAP : FRef := ⟨0x160018, 0, 32⟩
/-- REC_RING_LEVEL.UNFLUSHED [12:0] RO (18_event_recorder.md, Table 18-7). -/
def REC_RING_LEVEL_UNFLUSHED : FRef := ⟨0x16001C, 0, 13⟩
/-- REC_RING_LEVEL.LATCH [20:16] RO (18_event_recorder.md, Table 18-7). -/
def REC_RING_LEVEL_LATCH : FRef := ⟨0x16001C, 16, 5⟩
/-- REC_CIRC_OLDEST.OLDEST [31:0] RO (18_event_recorder.md, Table 18-7). -/
def REC_CIRC_OLDEST_OLDEST : FRef := ⟨0x160020, 0, 32⟩
/-- REC_CIRC_NEWEST.NEWEST [31:0] RO (18_event_recorder.md, Table 18-7). -/
def REC_CIRC_NEWEST_NEWEST : FRef := ⟨0x160024, 0, 32⟩
/-- REC_FIRST_USED.USED [11:0] RO (18_event_recorder.md, Table 18-7). -/
def REC_FIRST_USED_USED : FRef := ⟨0x160028, 0, 12⟩
/-- REC_SEQ.SEQ [31:0] RO (18_event_recorder.md, Table 18-7). -/
def REC_SEQ_SEQ : FRef := ⟨0x160030, 0, 32⟩
/-- REC_TOTAL.TOTAL [63:0] RO (18_event_recorder.md, Table 18-7). -/
def REC_TOTAL_TOTAL : FRef := ⟨0x160038, 0, 64⟩
/-- REC_CNT_LOST.COUNT [31:0] RO (18_event_recorder.md, Table 18-7). -/
def REC_CNT_LOST_COUNT : FRef := ⟨0x160040, 0, 32⟩
/-- REC_CNT_OVERWRITTEN.COUNT [31:0] RO (18_event_recorder.md, Table 18-7). -/
def REC_CNT_OVERWRITTEN_COUNT : FRef := ⟨0x160044, 0, 32⟩
/-- REC_CNT_FLUSH.COUNT [31:0] RO (18_event_recorder.md, Table 18-7). -/
def REC_CNT_FLUSH_COUNT : FRef := ⟨0x160048, 0, 32⟩
/-- REC_LAST_FLUSH.US [15:0] RO (18_event_recorder.md, Table 18-7). -/
def REC_LAST_FLUSH_US : FRef := ⟨0x16004C, 0, 16⟩
/-- REC_LAST_FLUSH.RECORDS [31:16] RO (18_event_recorder.md, Table 18-7). -/
def REC_LAST_FLUSH_RECORDS : FRef := ⟨0x16004C, 16, 16⟩
/-- REC_WINDOW.DATA [31:0] RO (18_event_recorder.md, R512). -/
def REC_WINDOW_DATA (i : Nat) : FRef := ⟨0x160400 + 0x4 * i, 0, 32⟩

/-! Fields of the INT block. -/

/-- INT_STATUS.STATUS [31:0] W1C (19_interrupts_and_fault_windows.md, Table 19-7). -/
def INT_STATUS_STATUS (i : Nat) : FRef := ⟨0x20000 + 0x10 * i, 0, 32⟩
/-- INT_ENABLE.ENABLE [31:0] RW (19_interrupts_and_fault_windows.md, Table 19-7). -/
def INT_ENABLE_ENABLE (i : Nat) : FRef := ⟨0x20004 + 0x10 * i, 0, 32⟩
/-- INT_PEND.PEND [31:0] RO (19_interrupts_and_fault_windows.md, Table 19-7). -/
def INT_PEND_PEND (i : Nat) : FRef := ⟨0x20008 + 0x10 * i, 0, 32⟩
/-- INT_GROUP_PEND.PEND [47:0] RO (19_interrupts_and_fault_windows.md, Table 19-7). -/
def INT_GROUP_PEND_PEND : FRef := ⟨0x20400, 0, 48⟩
/-- INT_TEST.SOURCE [10:0] WO (19_interrupts_and_fault_windows.md, Table 19-7). -/
def INT_TEST_SOURCE : FRef := ⟨0x20408, 0, 11⟩
/-- INT_TEST.GO [31:31] WO (19_interrupts_and_fault_windows.md, Table 19-7). -/
def INT_TEST_GO : FRef := ⟨0x20408, 31, 1⟩
/-- INT_ROUTE.VECTOR [10:0] RW (19_interrupts_and_fault_windows.md, Table 19-7). -/
def INT_ROUTE_VECTOR (i : Nat) : FRef := ⟨0x21000 + 0x4 * i, 0, 11⟩
/-- INT_ROUTE.INTA [11:11] RW (19_interrupts_and_fault_windows.md, Table 19-7). -/
def INT_ROUTE_INTA (i : Nat) : FRef := ⟨0x21000 + 0x4 * i, 11, 1⟩
/-- INT_FW_EN.EN [0:0] RW (19_interrupts_and_fault_windows.md, Table 19-7). -/
def INT_FW_EN_EN (i : Nat) : FRef := ⟨0x23000 + 0x20 * i, 0, 1⟩
/-- INT_FW_EN.STATE [2:1] RO (19_interrupts_and_fault_windows.md, Table 19-7). -/
def INT_FW_EN_STATE (i : Nat) : FRef := ⟨0x23000 + 0x20 * i, 1, 2⟩
/-- INT_FW_EN.ENABLE_PENDING [3:3] RO (19_interrupts_and_fault_windows.md, Table 19-7). -/
def INT_FW_EN_ENABLE_PENDING (i : Nat) : FRef := ⟨0x23000 + 0x20 * i, 3, 1⟩
/-- INT_FW_CFG.W_MS [16:0] RW (19_interrupts_and_fault_windows.md, Table 19-8). -/
def INT_FW_CFG_W_MS (i : Nat) : FRef := ⟨0x23004 + 0x20 * i, 0, 17⟩
/-- INT_FW_CFG.ACTION [19:17] RW (19_interrupts_and_fault_windows.md, Table 19-8). -/
def INT_FW_CFG_ACTION (i : Nat) : FRef := ⟨0x23004 + 0x20 * i, 17, 3⟩
/-- INT_FW_CFG.HOLD_DISABLE [20:20] RW (19_interrupts_and_fault_windows.md, Table 19-8). -/
def INT_FW_CFG_HOLD_DISABLE (i : Nat) : FRef := ⟨0x23004 + 0x20 * i, 20, 1⟩
/-- INT_FW_K.K [15:0] RW (19_interrupts_and_fault_windows.md, Table 19-4). -/
def INT_FW_K_K (i : Nat) : FRef := ⟨0x23008 + 0x20 * i, 0, 16⟩
/-- INT_FW_STATUS.STATE [1:0] RO (19_interrupts_and_fault_windows.md, Table 19-9). -/
def INT_FW_STATUS_STATE (i : Nat) : FRef := ⟨0x2300C + 0x20 * i, 0, 2⟩
/-- INT_FW_STATUS.ESCALATED [2:2] W1C (19_interrupts_and_fault_windows.md, Table 19-9). -/
def INT_FW_STATUS_ESCALATED (i : Nat) : FRef := ⟨0x2300C + 0x20 * i, 2, 1⟩
/-- INT_FW_STATUS.CFG_ERR [3:3] W1C (19_interrupts_and_fault_windows.md, Table 19-9). -/
def INT_FW_STATUS_CFG_ERR (i : Nat) : FRef := ⟨0x2300C + 0x20 * i, 3, 1⟩
/-- INT_FW_STATUS.ESC_CNT [31:16] RO (19_interrupts_and_fault_windows.md, Table 19-9). -/
def INT_FW_STATUS_ESC_CNT (i : Nat) : FRef := ⟨0x2300C + 0x20 * i, 16, 16⟩
/-- INT_FW_COUNT.COUNT [23:0] RO (19_interrupts_and_fault_windows.md, Table 19-7). -/
def INT_FW_COUNT_COUNT (i : Nat) : FRef := ⟨0x23010 + 0x20 * i, 0, 24⟩
/-- INT_FW_TOTAL.TOTAL [31:0] RO (19_interrupts_and_fault_windows.md, Table 19-7). -/
def INT_FW_TOTAL_TOTAL (i : Nat) : FRef := ⟨0x23014 + 0x20 * i, 0, 32⟩
/-- INT_ECC_HBM_CORR.COUNT [31:0] RO (19_interrupts_and_fault_windows.md, Table 19-7). -/
def INT_ECC_HBM_CORR_COUNT : FRef := ⟨0x24000, 0, 32⟩
/-- INT_ECC_HBM_UNC.COUNT [31:0] RO (19_interrupts_and_fault_windows.md, Table 19-7). -/
def INT_ECC_HBM_UNC_COUNT : FRef := ⟨0x24004, 0, 32⟩
/-- INT_ECC_SRAM_CORR.COUNT [31:0] RO (19_interrupts_and_fault_windows.md, Table 19-7). -/
def INT_ECC_SRAM_CORR_COUNT : FRef := ⟨0x24008, 0, 32⟩
/-- INT_ECC_SRAM_UNC.COUNT [31:0] RO (19_interrupts_and_fault_windows.md, Table 19-7). -/
def INT_ECC_SRAM_UNC_COUNT : FRef := ⟨0x2400C, 0, 32⟩
/-- INT_ECC_LAST.ADDR [34:0] RO (19_interrupts_and_fault_windows.md, Table 19-7). -/
def INT_ECC_LAST_ADDR : FRef := ⟨0x24010, 0, 35⟩
/-- INT_ECC_LAST.ARRAY [43:40] RO (19_interrupts_and_fault_windows.md, Table 19-7). -/
def INT_ECC_LAST_ARRAY : FRef := ⟨0x24010, 40, 4⟩
/-- INT_ECC_SCRUB.PASSES [15:0] RO (19_interrupts_and_fault_windows.md, Table 19-7). -/
def INT_ECC_SCRUB_PASSES : FRef := ⟨0x24018, 0, 16⟩

end Sys2Proof.Machine
end

