-- ==== Sys2Proof/Machine/State.lean ====
section
/-! DEFINITION. The machine's state as plain data: the register file, what each block holds beside its registers, what has left the device,
and the queue of commands that wait. -/

namespace Sys2Proof.Machine

/-! What leaves the device. -/

/-- How a host request completed (13_host_endpoint.md). -/
inductive CplStatus where
  | ok | unsupported | abort | retry | poisoned
  deriving DecidableEq, Repr

/-- What the device sends out of itself, as the model logs it (log 6): messages to the host, to cameras and Ethernet
partners, and along the tether. -/
inductive Out where
  /-- A posted memory write to the host (R300, R375); `ro` Relaxed Ordering. -/
  | hostWrite (addr : Nat) (data : List Byte) (ro : Bool)
  /-- A memory read request to the host under a tag (R375, R376). -/
  | hostRead (tag addr len : Nat)
  /-- The completion of a host request. -/
  | completion (status : CplStatus) (data : List Byte)
  /-- An MSI or MSI-X message (R368, R369). -/
  | message (addr data : Nat)
  /-- Assert_INTA or Deassert_INTA (R370). -/
  | inta (on : Bool)
  /-- An LTR message: scale and value of the snoop and of the no-snoop latency (R374). -/
  | ltr (sScale sValue nScale nValue : Nat)
  /-- An error message to the root: 0 correctable, 1 non-fatal, 2 fatal (R378 to R381). -/
  | errMsg (sev : Nat)
  /-- A request of the link to a lower power state or to Recovery. -/
  | link (what : Nat)
  /-- A PTM request for a domain (R108). -/
  | ptmRequest (dom : Nat)
  /-- A control command to the camera of a lane (R167). -/
  | camCommand (lane : Nat) (write : Bool) (addr len : Nat) (data : List Byte)
  /-- A CoaXPress trigger packet, rising or falling, with its delay field (R147). -/
  | cxpTrigger (lane : Nat) (rising : Bool) (delay : Nat)
  /-- An Ethernet frame (R178) or a firmware message of a port. -/
  | ethFrame (lane : Nat) (data : List Byte)
  /-- A GVCP PACKETRESEND (R175): port, req_id, block, packet range. -/
  | packetResend (lane req block first last : Nat)
  /-- A GVCP DISCOVERY of a port's firmware (Table 6-4). -/
  | gvcpDiscovery (lane : Nat)
  /-- The firmware takes or gives up the camera's control channel privilege (R176). -/
  | gvcpPrivilege (lane : Nat) (take : Bool)
  /-- The firmware answers an ARP request or an ICMP echo (Table 6-11). -/
  | ethAnswer (lane : Nat) (echo : Bool)
  /-- A CoaXPress test packet on a lane's uplink (Table 6-3). -/
  | cxpTest (lane : Nat)
  /-- Discovery reads the bootstrap registers of a lane's camera (R164). -/
  | cxpBootstrap (lane : Nat)
  /-- The GVCP control-channel heartbeat (R176). -/
  | gvcpHeartbeat (lane : Nat)
  /-- A GVCP write of the camera's stream-channel destination (R176): the port's address and the stream's UDP port. -/
  | gvcpStreamDest (lane ip udp : Nat)
  /-- A PTP event message (R117): port, messageType, sequenceId, over UDP, a one-step Sync. -/
  | ptpEvent (lane ty seq : Nat) (udp oneStep : Bool)
  /-- A PTP general message (R110): port, messageType, sequenceId. -/
  | ptpGeneral (lane ty seq : Nat)
  /-- A clock of a serial encoder frame (R81). -/
  | serialFrame (port : Nat)
  /-- A 64b/66b block on a tether port (R443): its sync header as it is written in R443, and its scrambled payload, the first bit in bit 0. -/
  | tether (down : Bool) (sync payload : Nat)
  /-- A tether port transmits Clause 49 idle blocks from the device's own clock from here on (R444). -/
  | tetherIdle (down : Bool)
  /-- A divider pin pair's new levels (R91). -/
  | divEdge (d : Nat) (a b : Bool)
  deriving DecidableEq, Repr

/-! The recorder (18_event_recorder.md). -/

/-- A 64-byte record (Table 18-1); its CRC is computed where it is read (R495). -/
structure Rec where
  duc : Nat := 0
  ts : Nat := 0
  source : Nat := 0
  sev : Nat := 0
  d0Valid : Bool := false
  byLantern : Bool := false
  code : Nat := 0
  rep : Nat := 1
  seq : Nat := 0
  lastDt : Nat := 0
  payload : List Byte := []
  deriving DecidableEq, Repr

/-- A record waiting in a port or in the pending latch, with the DUC of its last occurrence (R500). `behind` names the port whose record must be accepted before this one (R524). -/
structure WaitRec where
  r : Rec
  last : Nat
  behind : Option Nat := none
  deriving DecidableEq, Repr

/-- A record of the ring (R502): whether it is in MRAM, and at which circulating index. -/
structure RingRec where
  r : Rec
  circ : Option Nat := none
  grown : Bool := false
  deriving DecidableEq, Repr

/-- Records dropped from the full latch (R500): how many, the DUC of the first and last, and how many latch entries stand
before the LOST record. -/
structure DropInfo where
  n : Nat
  first : Nat
  last : Nat
  ahead : Nat
  deriving DecidableEq, Repr

/-- A running flush (R504): the SEQs still to write, oldest first, the records written, and when it started. -/
structure Flush where
  todo : List Nat
  written : Nat := 0
  start : Nat
  deriving DecidableEq, Repr

/-- The recorder's state that is no register: records in the ports and in the pending latch, drops (R500); the ring, oldest first; a running flush; MRAM: the circulating area by circulating
index, indices of slots that failed verification (R505), the first area, the next circulating index (R510); whether the rewind mark is lost (R515); flushes completed since reset. -/
structure Recorder where
  ports : List (Nat × WaitRec) := []
  latch : List WaitRec := []
  drop : Option DropInfo := none
  ring : List RingRec := []
  flush : Option Flush := none
  circ : List (Nat × Option Rec) := []
  badCirc : List Nat := []
  first : List Rec := []
  nextC : Nat := 0
  markLost : Bool := false
  flushDone : Nat := 0
  deriving DecidableEq, Repr

/-! Fault windows (19_interrupts_and_fault_windows.md). -/

/-- The sixteen sub-period counts of a fault window, newest first (R521). -/
structure Window where
  subs : List Nat := List.replicate 16 0
  deriving DecidableEq, Repr

/-! The guyline fabric (15_guyline_events.md). -/

/-- What a task input has taken last (R426, R427): 1 more than the MOT cycle in which events last reached it (0: none yet), whether that cycle's events are counted as merged, whether they made an
activation, and the time in ps until which the event crosses into the task's island and fills the crossing's buffer. -/
structure TaskIn where
  cycle : Nat := 0
  merged : Bool := false
  ran : Bool := false
  full : Nat := 0
  deriving DecidableEq, Repr

/-- The fabric's state that is no register. `relay` holds a relay's running activation (due time, hop of its event);
`tpg` a generator's pending FIRE activation (hop of its event); `fwd` the TTH.FWD buffer (slot, directions, hop); `ins` the task inputs' arrivals (R426, R427); `enWas` the
enables of a channel before the writes of an MOT cycle, with 1 more than that cycle (R425). -/
structure Guyline where
  ins : List (Nat × TaskIn) := []
  enWas : List (Nat × (Nat × Nat)) := []
  relay : List (Nat × Option (Nat × Nat)) := []
  tpg : List (Nat × Option Nat) := []
  fwd : Option (Nat × Nat × Nat) := none
  deriving DecidableEq, Repr

/-! The endpoint (13_host_endpoint.md). -/

/-- Who issued a host read (R377): a queue's buffer ring; a DMA channel's descriptor, the two reads of a re-fetch, its data with their place in HBM, its index table,
its barrier. -/
inductive Requester where
  | queueRing (q : Nat)
  | dmaDesc (c : Nat)
  | dmaStop (c : Nat)
  | dmaNext (c : Nat)
  | dmaData (c dst : Nat)
  | dmaIndex (c : Nat)
  | dmaBarrier (c : Nat)
  deriving DecidableEq, Repr

/-- Bytes of HBM that a write channel has still to write to the host (R329): source, destination, how many. -/
structure MoveS where
  src : Nat
  dst : Nat
  n : Nat
  deriving DecidableEq, Repr

/-- A read request: its number in the order of asking, requester, host address, length; the bytes received so far; whether its data is discarded (R344, R348, R382). -/
structure ReadReqS where
  id : Nat
  who : Requester
  addr : Nat
  len : Nat
  got : List Byte := []
  discard : Bool := false
  deriving DecidableEq, Repr

/-- The endpoint's state that is no BAR0 register: configuration space (dwords by offset, as written), the MSI-X table
dwords, the pending bits of the vectors, the INTA level sent, whether the header is loaded (R355), outstanding reads by tag and
quarantined tags, read requests that wait for a tag or buffer space (R343), reads whose data is complete behind an earlier one of the same requester (R377), the channel each DMA engine served last, the writes that wait for their channel's turn, and the channel whose writes were served last (R329), whether issuing has stopped at the bound, the option
ROM image. -/
structure Endpoint where
  cfg : List (Nat × Word) := []
  msix : List (Nat × Word) := []
  pba : List (Nat × Bool) := []
  inta : Bool := false
  loaded : Bool := false
  tags : List (Nat × ReadReqS) := []
  quar : List Nat := []
  wait : List ReadReqS := []
  ready : List ReadReqS := []
  nextId : Nat := 0
  servedRd : Nat := 31
  servedWr : Nat := 127
  moves : List (Nat × List MoveS) := []
  servedOut : Nat := 127
  atBound : Bool := false
  rom : List Host.Cell := []
  deriving DecidableEq, Repr

/-! Operating modes (02_operating_modes.md). -/

/-- The mode control's state that is no register: whether LOCK is TRACK's target, the mode CHANGEOVER and CALIBRATE came
from, whether the stop of R571 has come, streams that have stopped triggering, the unit whose disable waits for the HOLD
flush (R47), the conventional reset waiting for its flush (R506), the mode whose triggering goes on until the stop. -/
structure ModeCtl where
  lockTarget : Bool := false
  cameFrom : Nat := 2
  stopped : Bool := false
  streamsStopped : List (Nat × Bool) := []
  disableUnit : Option Nat := none
  resetWait : Bool := false
  trig : Nat := 0
  deriving DecidableEq, Repr

/-! Trails (03_position_trails.md). -/

/-- The speed state of a trail (Table 3-4); `none` for a trail that has no speed state (R80). -/
inductive SpeedState where
  | none | still | starting | startingNoDir | reversed | running
  deriving DecidableEq, Repr

/-- A change of SPD and the speed state that takes effect at `due` (R79). -/
structure SpeedUpd where
  due : Nat
  spd : Option Int
  st : SpeedState
  deriving DecidableEq, Repr

/-- A trail in the MOT cycle before the first change of cycle `cyc`: P at 2^-16 subcount, SPD and SPEED_VALID (R144 compares with that cycle). -/
structure TrailSnap where
  cyc : Nat
  p : Int
  spd : Int
  valid : Bool
  deriving DecidableEq, Repr

/-- What a trail holds beside its registers: the boundary (in subcounts) it stands on and the direction and time of the edge that
marked it, the visible speed and speed state with the updates still to come, the measured speed state and the edge times
since the last restart (newest first), the window's n, first and last edge, the last valid limits, the direction it is
held at a limit in, the previous index capture, the HOME inputs waiting for the next index edge, the MOT cycle of a preset, the trail one cycle before its last change,
and whether a line break or an invalid source still bars firing (Table 5-2). -/
structure Trail where
  base : Int := 0
  neg : Bool := false
  dir : Bool := false
  edgeAt : Nat := 0
  spd : Int := 0
  st : SpeedState := .none
  upds : List SpeedUpd := []
  mst : SpeedState := .none
  edges : List Nat := []
  lastEdge : Nat := 0
  lastIv : Nat := 0
  winN : Nat := 0
  winFirst : Nat := 0
  winLast : Nat := 0
  windowM : Bool := false
  limMin : Int := -(2 : Int) ^ 63
  limMax : Int := (2 : Int) ^ 63 - 256
  satDir : Option Bool := none
  zPrev : Option Int := none
  homeZ : List Nat := []
  presetAt : Option Nat := none
  snap : Option TrailSnap := none
  barred : Bool := false
  deriving DecidableEq, Repr

/-- A serial port's state beside its registers (R81 to R86): the time of the frame in flight, the last count word, the last samples' positions with their times, newest
first, the intervals since the last restart of the measurement, the extrapolation a STILL has left (R83) at 2^-16 subcount, consecutive discarded frames, and whether a first valid frame has come. -/
structure SerialPort where
  startAt : Option Nat := none
  word : Option Nat := none
  hist : List (Int × Nat) := []
  ivs : Nat := 0
  ext : Int := 0
  discards : Nat := 0
  valid : Bool := false
  deriving DecidableEq, Repr

/-- Corrections of a port on their way to Lantern (R94): the one that crosses, and the sum that waits behind it. -/
structure CorrS where
  fly : Option Int := none
  sum : Int := 0
  deriving DecidableEq, Repr

/-- A pulse divider's counters (R91, R92): emitted count, the source count at enable, the time of the last edge, the output phase. -/
structure DividerS where
  emitted : Int := 0
  start : Int := 0
  lastAt : Option Nat := none
  phase : Nat := 0
  lost : Int := 0
  held : Bool := false
  deriving DecidableEq, Repr

/-! Time domains (04_time_domains.md). -/

/-- A time domain beside its registers: its value in units of 2^-40 ns at `at` (R98, R99), the loop's integral in the units of
RATE, counts of consecutive samples, when which rate began (newest first, for the holdover mean) and when the domain began, the running mean of PTM delays. -/
structure DomainS where
  value : Nat := 0
  since : Nat := 0
  integ : Int := 0
  lockN : Nat := 0
  unlockN : Nat := 0
  rates : List (Nat × Int) := []
  born : Nat := 0
  ptmMean : Option Nat := none
  stepMark : Nat := 0
  deriving DecidableEq, Repr

/-- A PTP port beside its registers: the path filter's suspect samples (R115: sign, count, time of the first, sum); whether it has a filtered value; the master it follows (R110);
the ingress stamp of the last event message it received, in 1/256 ns (R112, R113). -/
structure PathS where
  suspect : Option (Bool × Nat × Nat × Int) := none
  haveMean : Bool := false
  master : Option Nat := none
  rx : Option Nat := none
  deriving DecidableEq, Repr

/-- An entry of a transmit timestamp queue (R117): the TMB_TXQ_ID word and the stamp. -/
structure TxStamp where
  id : Nat
  ts : Nat
  deriving DecidableEq, Repr

/-- A pulse generator beside its registers: the next grid point, whether the one-shot target is armed, the end of the pulse
being driven, whether it has passed at arming (R122), the end of the last pulse that a guyline FIRE caused (R422). -/
structure TpgS where
  k : Nat := 0
  armed : Bool := false
  pulseEnd : Option Nat := none
  late : Bool := false
  fireEnd : Option Nat := none
  deriving DecidableEq, Repr

/-! Stakes, pins and CoaXPress triggers (05_stakes_and_triggers.md). -/

/-- A trigger-table entry (Table 5-1). -/
structure Entry where
  target : Int
  stepN : Nat
  stepD : Nat
  count : Nat
  outA : Bool
  outB : Bool
  event : Bool
  noLead : Bool
  deriving DecidableEq, Repr

/-- A stake beside its registers: the armed entry's place in the region and its contents, k, the trim and cycle length held for
this cycle (R142), whether the armed target was passed at arming, once that is known (R136), the MOT cycle in which it is first compared, and that of the last firing (R135). -/
structure StakeS where
  idx : Nat := 0
  k : Nat := 0
  entry : Option Entry := none
  trim : Int := 0
  cyc : Nat := 0
  passed : Option Bool := none
  first : Nat := 0
  fired : Option Nat := none
  deriving DecidableEq, Repr

/-- What a later TIM edge brings of its own: whether a stake's armed target was passed becomes known (R136), or the trail's values of a generator's sample (R27: stream, sequence number, the MOT
cycle its crossing arrives in), or the skew that a bonded group absorbs has passed for a packet that came at a time (R165), or the activation of an MGT task (MODE.HOLD or REC.LOG) of a MOT cycle
arrives in MGT (R424): task, cycle, lowest channel, largest hop count, events merged. -/
inductive DueWork where
  | compare (n : Nat)
  | sample (st seq mot : Nat)
  | skew (st at_ : Nat)
  | task (t cycle c hop n : Nat)
  deriving DecidableEq, Repr

/-- A trigger pin beside its registers: the start of the pulse being driven in units of 125 ps, its end in ns, the polarity the generator adds, a
configuration write that waits for the pulse's end (Table 5-11). -/
structure PinS where
  start : Nat := 0
  until_ : Nat := 0
  genPol : Bool := false
  cfgWait : Option Nat := none
  deriving DecidableEq, Repr

/-- A lane's pending trigger packet (R148): its instant t_x in units of 125 ps, the crossing lag in the same units, whether the rising packet has gone,
whether a falling one follows. -/
structure CxpTrig where
  tx : Nat
  lag : Nat
  rose : Bool := false
  fall : Bool
  deriving DecidableEq, Repr

/-- A tag sample (R24, R193). -/
structure TagSample where
  pos : Int := 0
  spd : Int := 0
  speedValid : Bool := false
  ts : Nat := 0
  frac : Nat := 0
  dom : Nat := 0
  domValid : Bool := false
  seq : Nat := 0
  cyc : Nat := 0
  at_ : Nat := 0
  predicted : Bool := false
  late : Bool := false
  untrusted : Bool := false
  stepMark : Nat := 0
  posMark : Nat := 0
  deriving DecidableEq, Repr

/-! Camera lanes and streams (06_camera_lanes.md). -/

/-- An entry of the raw receive FIFO (R177): KIND and bytes. -/
structure RawEntry where
  kind : Nat
  data : List Byte
  deriving DecidableEq, Repr

/-- A control command waiting for its answer (R167). -/
structure CtlCmd where
  write : Bool
  addr : Nat
  len : Nat
  deriving DecidableEq, Repr

/-- A lane beside its registers: the CAM_LANE_CFG word loaded at its last enable (R58), when it entered DETECT, whether discovery has run for this training and whether it runs (R164), the outstanding
control command, the raw receive FIFO, when the frame being sent ends (R178), whether the firmware holds the camera's control channel privilege (R176), the resend requests made so far (R175). -/
structure LaneS where
  cfg : Nat := 0
  detectAt : Nat := 0
  discovered : Bool := false
  discovering : Bool := false
  ctl : Option CtlCmd := none
  raw : List RawEntry := []
  tx : Option Nat := none
  privilege : Bool := false
  reqs : Nat := 0
  deriving DecidableEq, Repr

/-- A line waiting for the cutter (R185): its sample (`none` when it found none), whether it is missing, whether it begins and ends an image (area mode), its
bytes as received, and whether it takes a sample at all (every line in line mode, the first of an image in area mode). -/
structure LineS where
  sample : Option TagSample
  missing : Bool
  first : Bool := true
  last : Bool := true
  data : List Byte := []
  deriving DecidableEq, Repr

/-- A received line before CAMERA_LINE pairs it (R182, R184): the lane whose ingress buffer holds it, when its first data word came (R194), the width and height and on GVSP the pixel-format code that its image gave
(R182), and on a camera-timed stream the trigger sequence number of its strobe, none where no strobe came (R192). -/
structure RxLine where
  lane : Nat
  line : CamLine
  at_ : Nat
  img : Option (Nat × Nat × Option Nat) := none
  strobe : Option (Option Nat) := none
  deriving DecidableEq, Repr

/-- A GVSP block being reassembled (R174, R175): block ID, whether its leader has come, lines, width, pixel-format code, bytes of a line on the wire, whether it failed its check, data packets
(by packet ID), number of data packets once the trailer has come, how often each packet was asked for, lines already passed on, when the first data word of each line came with its strobe (R192, R194). -/
structure GvspBlock where
  block : Nat
  leader : Bool := false
  height : Nat := 0
  width : Nat := 0
  code : Nat := 0
  lineBytes : Nat := 0
  bad : Bool := false
  got : List (Nat × List Byte) := []
  last : Option Nat := none
  asks : List (Nat × Nat) := []
  rowsOut : Nat := 0
  rows : List (Nat × Option (Nat × Option Nat)) := []
  deriving DecidableEq, Repr

/-- A packet of a bonded group held for its turn (R165), with the lane and the time it came. -/
structure HeldPkt where
  lane : Nat
  at_ : Nat
  ok : Bool
  pkt : CxpPacket
  deriving DecidableEq, Repr

/-- A stream's state in the data plane: the next trigger sequence number, the one the next line takes and the sample FIFO (R24, R28), received lines waiting (R184), lines waiting for
the cutter, open GVSP blocks, the last one closed, the payload bytes of a full data packet as last seen, the next CoaXPress packet tag and packets held for order, whether it discards data up to the next image (R186), whether the
image it is in failed its check, the bytes of a line of it on the wire, its rows, width and next row, the part of a line not complete yet, whether that part is bad and when it began, the strobe of the line or area image being received (R192), whether a line of
the image paired last has failed the check of its own set (R183). -/
structure StreamS where
  seq : Nat := 0
  nextSeq : Nat := 0
  samples : List TagSample := []
  rx : List RxLine := []
  lines : List LineS := []
  blocks : List GvspBlock := []
  doneBlk : Option Nat := none
  pp : Nat := 0
  nextTag : Option Nat := none
  held : List HeldPkt := []
  resync : Bool := true
  bad : Bool := false
  size : Nat := 0
  imgRows : Nat := 0
  imgW : Nat := 0
  row : Nat := 0
  part : List Byte := []
  partBad : Bool := false
  partAt : Nat := 0
  strobe : Option (Option Nat) := none
  setErr : Bool := false
  deriving DecidableEq, Repr

/-! Compass units (08_mark_lock.md). -/

/-- A mark-lock loop context: state (0 SEARCH, 1 ACQUIRE, 2 LOCKED, 3 COAST), P, repeat estimate, U, TRIM, e of its last mark, GOOD, MISS, whether LOCKED was reached since the last
SEARCH, started under INHERIT, the hand-over grace, and the P of the window that has had its mark and is not closed yet (R230). -/
structure Loop where
  st : Nat := 0
  p : Int := 0
  r : Int := 0
  u : Int := 0
  trim : Int := 0
  err : Int := 0
  good : Nat := 0
  miss : Nat := 0
  ever : Bool := false
  inherited : Bool := false
  grace : Bool := false
  prev : Option Int := none
  deriving DecidableEq, Repr

/-- A run of mark lines in progress (R225, R226): sums of counts and of counts times x, length, first and last x, whether a line spoils it, whether it has
been rejected by a closing window. -/
structure MarkRun where
  sumC : Nat := 0
  sumCx : Int := 0
  len : Nat := 0
  firstX : Int := 0
  lastX : Int := 0
  bad : Bool := false
  rejected : Bool := false
  deriving DecidableEq, Repr

/-- A compass unit: the context of the ACTIVE set, the OLD context while it is kept (R240), the copy of the loop that stands in MOT (R227), what stood there before the
MOT cycle of its last update and that cycle (R234), mark reports on their way to MOT (M, and the loop's values unless the OLD context accepted the mark), the runs of both contexts, whether the ACTIVE set is refused (R241), whether the last enable was. -/
structure MlkUnit where
  cur : Loop := {}
  old : Option Loop := none
  mot : Loop := {}
  motWas : Loop := {}
  motAt : Option Nat := none
  reports : List (Int × Option Loop) := []
  run : Option MarkRun := none
  runOld : Option MarkRun := none
  badSet : Bool := false
  refused : Bool := false
  deriving DecidableEq, Repr

/-! Frame assembly (07_frame_assembly.md). -/

/-- The settings of a stream in one set (R158), as a frame that opens under it keeps them. -/
structure SetCfg where
  job : Nat := 0
  ver : Nat := 0
  rcp : Nat := 0
  fmt : Nat := 0
  packed : Bool := false
  width : Nat := 0
  line : Bool := true
  neg : Bool := false
  sampler : Nat := 0
  dom : Nat := 0
  camp : Nat := 0
  mode : Nat := 0
  compass : Nat := 0
  seam : Nat := 0
  rsmp : Bool := false
  xdly : Nat := 0
  origin : Int := 0
  rep : Nat := 0
  stepMax : Nat := 0
  maxLines : Nat := 0
  num : Nat := 0
  den : Nat := 1
  fill : Nat := 0
  gapMax : Nat := 0
  base : Nat := 0
  group : Nat := 0
  rowStride : Nat := 0
  fq : Nat := 0
  cq : Nat := 0
  fqEn : Bool := false
  cqEn : Bool := false
  content : Nat := 0
  deriving DecidableEq, Repr

/-- A line record (Table 7-2) with the line's web position and the time of its sample (ns), its domain's step mark and its trail's position mark. -/
structure LineRec where
  pos : Int := 0
  ts : Nat := 0
  spd : Int := 0
  xofs : Int := 0
  tseq : Nat := 0
  frac : Nat := 0
  flags : Nat := 0
  x : Int := 0
  at_ : Nat := 0
  step : Nat := 0
  pm : Nat := 0
  deriving DecidableEq, Repr

/-- A line with its record, its stored bytes, and the format and width it is stored in (R183). -/
structure PLine where
  rec_ : LineRec
  data : List Byte
  fmt : Nat := 0
  packed : Bool := false
  width : Nat := 0
  deriving DecidableEq, Repr

/-- The payload's shape in the tag: lines or rows, width, PFNC, stride, holes, y of row 0. -/
structure Shape where
  lines : Nat
  width : Nat
  pfnc : Nat
  stride : Nat
  holes : Nat := 0
  row0 : Int := 0
  resampled : Bool := false
  deriving DecidableEq, Repr

/-- A frame from its opening until it is handed to delivery or dropped: its number in the stream's list, settings, the hand-over count at its opening, slot (`none`: it
found none), start and end boundary, line records, seam lengths, tag flags set by the cutter, MARK_ERR, the loop's P and repeat estimate at the opening (R283), missing lines and
stored lines of an area image, the sequence number once closed, lines processed by the chain, whether the chain is done, and why it was abandoned while open. -/
structure Frame where
  id : Nat
  cfg : SetCfg
  setNo : Nat
  slot : Option Nat
  start : Int := 0
  bnext : Int := 0
  recs : List LineRec := []
  head : Nat := 0
  tail : Nat := 0
  flags : Nat := 0
  mark : Option Int := none
  reg : Option (Int × Int) := none
  rows : Nat := 0
  missRows : Nat := 0
  area : Bool := false
  seq : Option Nat := none
  done : Nat := 0
  spill : List Nat := []
  complete : Bool := false
  cand : Nat := 0
  length : Nat := 0
  abandoned : Option Nat := none
  shape : Option Shape := none
  deriving DecidableEq, Repr

/-- A frame as the cutter tracks it; `id` is `none` once it is truncated, discarded or never opened, and its boundary still cuts the stream; lines of its body, lines stored, HEAD_OVL, lines of its
head seam. -/
structure CutFrame where
  id : Option Nat
  start : Int
  bnext : Int
  body : Nat := 0
  n : Nat := 0
  head : Nat := 0
  seamN : Nat := 0
  deriving DecidableEq, Repr

/-- A cutter (Table 7-4): its settings, the hand-over count of its set, whether that is the old one, state (0 NONE, 1 BODY, 2 TAIL), T, the frame in its body, the earlier frame in its
tail, the previous x and grid index, whether it is a new recipe's that has not opened a frame yet (R261), whether it opens no more frames (R260, R44), whether it has stopped, the previous line. -/
structure Cutter where
  cfg : SetCfg
  setNo : Nat
  old : Bool := false
  st : Nat := 0
  t : Nat := 0
  cur : Option CutFrame := none
  prev : Option CutFrame := none
  px : Option Int := none
  m : Option Int := none
  isNew : Bool := false
  final : Bool := false
  stopped : Bool := false
  last : Option PLine := none
  deriving DecidableEq, Repr

/-- A slot in use: settings of the frame in it, its line records, whether delivery has released it (R200, R262). -/
structure SlotS where
  cfg : SetCfg
  recs : List LineRec := []
  released : Bool := false
  deriving DecidableEq, Repr

/-- A stream's conjunction (R259 to R263): X_h, whether it has lead lines, whether their copy is complete, and the lines that wait for it. -/
structure ConjS where
  xh : Option Int := none
  lead : Bool := false
  copied : Bool := true
  wait : List PLine := []
  deriving DecidableEq, Repr

/-- A mark that a compass unit reported (R236): the hand-over count of its set, the unit, M, e, and the position mark of the line it was found on. -/
structure MarkS where
  setNo : Nat
  unit : Nat
  pos : Int
  err : Int
  pm : Nat
  deriving DecidableEq, Repr

/-- A stream's assembly: the cutters of the ACTIVE and of the old set, frames in assembly and in the camp, slots in use, the last two lines, the next frame identity, the slot the ring tries next (R197), the
next sequence number to hand over, whether a frame already handed over was dropped before it (R48), whether the last frame closed was dropped for want of a slot, the newest x, the XOFS of the last stored line, accepted marks,
the set of the last line, the conjunction, X_h, whether it stops at the frame boundary (R44) and when the stop began until its current frame is known, the step mark of each
domain as the last frame's first line had it, the furthest x of a line that no slot holds any more (R262), the area image being stored. -/
structure FrmS where
  cut : Option Cutter := none
  oldCut : Option Cutter := none
  frames : List Frame := []
  slots : List (Nat × SlotS) := []
  prev : List LineRec := []
  nextId : Nat := 0
  nextSlot : Nat := 0
  nextOut : Nat := 0
  ellNext : Bool := false
  dropping : Bool := false
  lastX : Option Int := none
  lastXofs : Option Int := none
  marks : List MarkS := []
  lastOld : Bool := false
  conj : Option ConjS := none
  xh : Option Int := none
  finishing : Bool := false
  judgeAt : Option Nat := none
  stepSeen : List (Nat × Nat) := []
  freedX : Option Int := none
  image : Option Nat := none
  deriving DecidableEq, Repr

/-! The tether (16_tether_link.md), as the trails see it. -/

/-- A trail slot (R452 to R454): S at 2^-8 subcount at the time `rxAt`, in steps of 125 ps, SPD and its validity, the value it is frozen at, whether it is stale, whether a STEP waits for its
anchor, VALID as last received. -/
structure TthSlot where
  s : Int := 0
  rxAt : Nat := 0
  spd : Int := 0
  spdValid : Bool := false
  st : SpeedState := .none
  frozen : Option Int := some 0
  stale : Bool := false
  step : Bool := false
  valid : Bool := false
  deriving DecidableEq, Repr

/-- A message that waits for message blocks of a port (R451): its kind (Table 16-2, or the message type of Table 16-6), the blocks still to send and how many it has in all, whether it is the device's own
rather than one it relays, and the domain of an own TIME message, whose blocks are made as its header goes (R463). -/
structure TthMsg where
  kind : Nat
  blocks : List TthBlock
  size : Nat
  own : Bool := false
  dom : Option Nat := none
  deriving DecidableEq, Repr

/-- The lock of a port (R446): block lock, good and bad delta parts in a row and the SEQ expected next. -/
structure PortLock where
  block : Bool := false
  good : Nat := 0
  bad : Nat := 0
  expect : Option Nat := none
  deriving DecidableEq, Repr

/-- A worker as its manager sees it by its HEARTBEATs (Table 16-5). -/
structure WorkerS where
  hop : Nat := 0
  mode : Nat := 0
  target : Nat := 0
  ready : Bool := false
  notFollowing : Bool := false
  hoMiss : Bool := false
  hoId : Nat := 0
  heardAt : Nat := 0
  deriving DecidableEq, Repr

/-- A HANDOVER message being sent (R464): copies left, slot, direction, HO_ID, position, JOB_ID, RCP_VER. -/
structure HoSend where
  left : Nat
  slot : Nat
  neg : Bool
  id : Nat
  pos : Int
  job : Nat
  ver : Nat
  deriving DecidableEq, Repr

/-- A MGMT message being reassembled, or sent (R466): worker, Edusk SEQ, fragments so far, bytes. -/
structure MgmtRx where
  worker : Nat
  seq : Nat
  frags : Nat
  data : List Byte
  deriving DecidableEq, Repr

/-- The tether's state that is no register: slots; the values the last beat carried and its number (R447); the locks of TTH_UP and TTH_DN (R446); whether the transmitters run from the recovered clock
(R444); the scramblers of the two transmitters (R443); the MODE, TARGET and READY last sent; workers by ID; the HANDOVER being sent, its HO_ID, the one seen last, HO_MISS, the HO_ID of the hand-over carried out (R464); the
reference instant of the last beat received or sent, in steps of 125 ps, and whether a worker's beat downstream still waits for its anchor part; the manager's h and the workers judged since; relay buffers; a pad that waits (R457);
MGMT messages being received; whether TTH_DN lost its lock since CALIBRATE was entered (R457). -/
structure Tether where
  slots : List (Nat × TthSlot) := []
  sent : List (Nat × Int) := []
  seq : Nat := 0
  up : PortLock := {}
  dn : PortLock := {}
  recovered : Bool := false
  scrUp : Nat := 0
  scrDn : Nat := 0
  half : Bool := false
  hb : Option (Nat × Nat × Bool) := none
  workers : List (Nat × WorkerS) := []
  ho : Option HoSend := none
  hoId : Nat := 0
  hoSeen : Option Nat := none
  hoMiss : Bool := false
  hoDone : Nat := 0
  beatAt : Nat := 0
  hAt : Option Nat := none
  judged : List Nat := []
  relayDn : List TthMsg := []
  relayUp : List TthMsg := []
  pad : Option Nat := none
  mgmt : Option MgmtRx := none
  calLost : Bool := false
  deriving DecidableEq, Repr

/-- A rule beside its registers (R485): consecutive ticks on which its comparison has held, whether it held on the last tick, the ticks since each occurrence, newest first. -/
structure RuleS where
  run : Nat := 0
  held : Bool := false
  occ : List Nat := []
  deriving DecidableEq, Repr

/-- The Lantern's state that is no register: levels of overridden pins (R489), the enables it owns of channels 208 to 239 (R432, R438), rules, shadows one millisecond ago (R478), times of the last
counted edges (R473), lines in its own line break by port and pair, the trim of the RC clock (R481), records that wait for MRAM (R490), checkpoint slots and the next of them (R483), WAKE# asserted (R488), escalations of AON fault windows that wait
for the main domain (R492). -/
structure Lantern where
  ovrLevel : List (Nat × Bool) := []
  chanEn : List (Nat × Nat) := []
  rules : List (Nat × RuleS) := []
  lastTick : List (Nat × Int) := []
  edgeAt : List (Nat × Option Nat) := []
  levels : List (Nat × Nat) := []
  broken : List (Nat × Nat) := []
  homes : Nat := 0
  log : List Rec := []
  slots : List (Nat × Option Nat) := []
  nextSlot : Nat := 0
  trimmed : Bool := false
  wake : Bool := false
  esc : List Nat := []
  deriving DecidableEq, Repr

/-- A hand-over that is armed, with what its commit captured (R247): kind, CHG_CFG's trail, direction, unit, domain, late policy and reference stream; the trail, direction and
position it waits for; mark reports still to come; the target time; CONJ_LIMIT; whether it waits for the manager's message (R267); whether it is a chain commit (R266); the HO_ID of the message
that a worker took it from (R464). -/
structure Armed where
  kind : Nat
  trail : Nat
  neg : Bool
  unit : Nat
  dom : Nat
  late : Bool
  ref : Nat
  onTrail : Nat
  onNeg : Bool
  pos : Int
  marks : Nat
  time : Nat
  limit : Nat
  follow : Bool
  chain : Bool
  hoId : Option Nat := none
  deriving DecidableEq, Repr

/-- The changeover sequencer's state that is no register: the cycle h of the last hand-over, how many there have been, the conjunction's lead and trail in counts, the armed hand-over,
whether the last hand-over opens a conjunction (R51), writes to the store that wait for the copy (R253). -/
structure Changeover where
  hAt : Option Nat := none
  count : Nat := 0
  lead : Nat := 0
  trail : Nat := 0
  armed : Option Armed := none
  conj : Bool := false
  waiting : List (Nat × Nat) := []
  deriving DecidableEq, Repr

/-- A stream's state in its camp that is no register: lines processed in the running 100 ms window, whether an excursion of R286 runs, whether a fault waits for the
next frame boundary to seek a substitute (R289). -/
structure PxeS where
  lines : Nat := 0
  rateOver : Bool := false
  sub : Bool := false
  deriving DecidableEq, Repr

/-! Delivery (11_delivery_queues.md). -/

/-- A piece of an item's bytes: `n` bytes of HBM at `addr`, or the literal bytes where `n` is 0. -/
structure Seg where
  addr : Nat := 0
  n : Nat := 0
  lit : List Byte := []
  deriving DecidableEq, Repr

/-- An item on its way to a queue (R301 to R304): queue, KIND (1 FRAME, 2 CANDIDATES, 3 EVENT), stream and slot it comes from, SEQ, CAND, recipe slot, FFLAGS, its
bytes and their number, the entry body of an event. -/
structure Offer where
  qid : Nat
  kind : Nat
  from_ : Option (Nat × Nat) := none
  st : Nat := 0xFF
  seq : Nat := 0
  cand : Nat := 0
  rcp : Nat := 0
  fflags : Nat := 0
  segs : List Seg := []
  len : Nat := 0
  body : List Byte := []
  deriving DecidableEq, Repr

/-- What stands in a queue to be written in PI order: an admitted item with its number, buffers and first buffer index (in an overwrite queue the buffers come later); an
ELLIPSIS entry (count, first, reason) that an admitted item follows, in an overwrite queue the numbers of dropped items; a FLUSHED entry (count, first, BUF_NEXT, PARTIAL) that an admitted item follows. -/
inductive QEnt where
  | item (o : Offer) (num : Nat) (bufs : Option (List (Nat × Nat))) (idx : Nat)
  | gap (count first reason : Nat)
  | flushed (count first bufNext : Nat) (partial_ : Bool)
  deriving DecidableEq, Repr

/-- A queue context (Table 11-1). -/
structure QCtx where
  cqBase : Nat
  bqBase : Nat
  cfg : Nat
  state : Nat
  enPending : Bool
  en : Bool
  armed : Bool
  fault : Bool
  ellPend : Bool
  fluPend : Bool
  pi : Nat
  ci : Nat
  bpi : Nat
  bci : Nat
  item : Nat
  drops : Nat
  dfirst : Nat
  dreason : Nat
  lost : Nat
  dropTotal : Nat
  deriving DecidableEq, Repr

/-- A queue beside its context: what waits to be written, the descriptors read and not used yet (address, length), how many are being read, the gap that the next admitted item closes (count, first, reason), the pending
FLUSHED entry (count, first, BUF_NEXT, PARTIAL), and of an overwrite queue the unconsumed entries, at most the ring (R311). -/
structure QueueW where
  ents : List QEnt := []
  descs : List (Nat × Nat) := []
  reading : Nat := 0
  gap : Option (Nat × Nat × Nat) := none
  flu : Option (Nat × Nat × Nat × Bool) := none
  unread : Nat := 0
  deriving DecidableEq, Repr

/-- A queue with its context. -/
structure Queue extends QueueW where
  ctx : QCtx
  deriving DecidableEq, Repr

/-- A way of the context cache (R320): the place of its context, the context, whether it differs from HBM. -/
structure CacheWay where
  key : Nat
  ctx : QCtx
  dirty : Bool := false
  deriving DecidableEq, Repr

/-- A doorbell in the FIFO (R298): queue, CI, BPI, ARM, what the read of the context for it meets. -/
structure Bell where
  q : Nat
  ci : Option Nat
  bpi : Option Nat
  arm : Bool
  ecc : CtxEcc := .none
  deriving DecidableEq, Repr

/-- Delivery's state that is no register: queues by their place (base unit and queue ID), the doorbell FIFO, each camp's item FIFO (R321), the event copies (R304), the
notification FIFOs (R314), running holdoffs and whether a cause waits (R317), the sets of the context cache, most recent first (R320), whether delivery was resumed since Bus Master Enable was last 0 (R324). -/
structure Delivery where
  qs : List (Nat × Option QueueW) := []
  bells : List Bell := []
  camp : List (Nat × List Offer) := []
  ev : List Offer := []
  fifo : List (Nat × List Nat) := []
  hold : List (Nat × Option Bool) := []
  cache : List (Nat × List CacheWay) := []
  resumed : Bool := false
  deriving DecidableEq, Repr

/-! Power and reset (21_pins_power_package.md, 13_host_endpoint.md). -/

/-- A port's front end (R479): the time of the last edge that Lantern or the front end completed, the last quiet AON edge (its time and the
shadow captured at it), the edges counted since. -/
structure FrontEnd where
  lastAt : Option Nat := none
  quiet : Option (Nat × Int) := none
  n : Int := 0
  deriving DecidableEq, Repr

/-- The pins and rails: VDD_AON present, main rails good, main domain in reset, PERST# asserted, the 1 ms hold of R383 running, PWRFAIL_N recognised low, whether the main domain came
from the unpowered state since the last boot, THERMTRIP_N asserted, the levels of ROLE[1:0] and WORKER_ID[3:0], the front ends. -/
structure Power where
  aon : Bool := true
  main : Bool := true
  reset : Bool := false
  perst : Bool := false
  hold : Bool := false
  fail : Bool := false
  cold : Bool := false
  trip : Bool := false
  straps : Nat × Nat := (0, 0)
  front : List (Nat × FrontEnd) := []
  deriving DecidableEq, Repr

/-! Mailboxes and the MP (14_mailbox_commands.md). -/

/-- A command as the MP has taken it (R400): mailbox, opcode, SEQ, NO_RESPONSE, parameter bytes (without the trailer), the key that signed it. -/
structure MpCmd where
  m : Nat
  op : Nat
  seq : Nat
  quiet : Bool
  par : List Byte
  key : Nat
  deriving DecidableEq, Repr

/-- A long command that runs in the background (R395): the command; a recipe load's slot and the state the slot had; a calibration's masks and whether its routines have ended. -/
structure LongCmd where
  cmd : MpCmd
  slot : Nat := 0
  was : Nat := 0
  done : Nat := 0
  failed : Nat := 0
  ended : Bool := false
  deriving DecidableEq, Repr

/-- A recipe slot (R243): its image, and the CHK of its last stage. -/
structure RcpSlot where
  image : Option RecipeImage := none
  chk : Nat := 0
  deriving DecidableEq, Repr

/-- A RECIPE_STAGE that is writing the store (R413): its slot, how many of its writes are done, whether a CHG_COMMIT write has landed since it began. -/
structure StageRun where
  slot : Nat
  done : Nat
  raced : Bool
  deriving DecidableEq, Repr

/-- The MP's state: mailboxes rung and not taken, in doorbell order (R395); the command being executed; long commands; the mailboxes' nonces with their expiry in DUC and their bytes (R402); authentication failures
in a row and the DUC until which authentication is locked (R405); parameters, ACTIVE and SHADOW, where not at their defaults (R415); a command forwarded to a worker (target, SEQ); responses by mailbox;
the flush a REC_FLUSH waits for; recipe slots; the board area; flash banks (an image written by the MP, or the number of writes that left it unknown); the directory (SEQ, bank of each copy); OEM keys; a key operation
that runs (slot, operation, roles, result, key); whether the temperature warning stands; when the MRAM was refreshed last; a recipe stage that is writing the store (R413). -/
structure MpS where
  order : List Nat := []
  cur : Option MpCmd := none
  long : List LongCmd := []
  nonces : List (Nat × Option (Nat × List Byte)) := []
  fails : Nat := 0
  lock : Option Nat := none
  pact : List (Nat × Option Nat) := []
  pshadow : List (Nat × Option Nat) := []
  fwd : Option (Nat × Nat) := none
  resp : List (Nat × List Byte) := []
  flushFor : Option Nat := none
  rcp : List (Nat × RcpSlot) := []
  board : List (Nat × Option Byte) := []
  banks : List (Nat × (Nat ⊕ Config.FwImage)) := []
  dir : List (Nat × Nat) := [(1, 0), (0, 0)]
  keys : List (Nat × List Byte) := []
  keyOp : Option (Nat × Nat × Nat × Nat × List Byte) := none
  warned : Bool := false
  refreshAt : Nat := 0
  stage : Option StageRun := none
  deriving DecidableEq, Repr

/-! DMA (12_dma_engines.md). -/

/-- A DMA channel beside its registers: what it does (0 nothing, 1 reads its descriptor, 2 executes it, 4 waits for its barrier, 5 and 6 the two reads of a re-fetch, 7 waits
to start the descriptor in CUR), its descriptor, offsets read from the host's index table and not used yet, index bytes asked for, elements moved or asked for, whether
the next element is refused, whether a doorbell has come while no descriptor may start (R349). -/
structure DmaS where
  stage : Nat := 0
  desc : List Byte := []
  idx : List (Nat × Option Nat) := []
  asked : Nat := 0
  moved : Nat := 0
  bad : Bool := false
  bell : Bool := false
  deriving DecidableEq, Repr

/-- Work one block leaves for another within one command (the worklist of Machine/Settle.lean): a guyline event of a channel with its hop count; a
step of a trail's position; a step of a domain; the actions of a fault window; a request of HOLD; checks of conditions
that several blocks decide together. -/
inductive Todo where
  | gyl (ch hop : Nat)
  | posStep (t : Nat)
  | moved (t : Nat)
  | domStep (d old new : Nat)
  | retrain (w : Nat)
  | disableUnit (w : Nat)
  | hold (src idx : Nat) (disable : Bool)
  | lockCheck
  | lockDrop
  | chgMark (u : Nat)
  | campDrop (st id cause : Nat)
  | frameClosed (st id : Nat)
  | handOver (st : Nat)
  | judge (st : Nat)
  | boundary (st : Nat)
  | stakesCheck
  | lagCheck (st : Nat)
  | calAbort
  | recFlushed (n written : Nat)
  | enterReset
  | dmaWake
  | oldSlots
  | pump
  | heartbeat
  deriving DecidableEq, Repr

/-- The machine's state. -/
structure State where
  /-- Time since reset in ns (R15): the index of the TIM edge; the model's clock, which a step with no command waiting advances (log 2). -/
  now : Nat := 0
  /-- How many free values the run has met: the model's own counter (log 7). -/
  free : Nat := 0
  /-- How many conventional resets have made buffer contents undefined: the model's own counter (log 3). -/
  epoch : Nat := 0
  /-- Commands that wait, first in, first out. -/
  pending : List Instr := []
  /-- Work a block has left for another within the running command (Machine/Settle.lean): the model's own list, empty between commands unless one command leaves more than its bound. -/
  todo : List Todo := []
  /-- Messages that have left the device, oldest first: the model's own log (log 6). -/
  out : List Out := []
  /-- Register values by BAR0 offset, where they differ from the reset value (R13, R14); of shadowed registers, the ACTIVE set. -/
  regs : List (Nat × DWord) := []
  /-- The shadow store (R245): the SHADOW set of the shadowed registers by BAR0 offset. -/
  shadow : List (Nat × DWord) := []
  /-- The set that was ACTIVE before the last hand-over, which old cutters and loops still use (R33, R259). -/
  old : List (Nat × DWord) := []
  /-- Held low words of 64-bit registers (R10). -/
  held : List (Nat × Word) := []
  /-- Latched high words of 64-bit registers, where pending (R9). -/
  latch : List (Nat × Option Word) := []
  /-- Configuration registers as enabled blocks loaded them (R58). -/
  loaded : List (Nat × Option DWord) := []
  /-- Words of the buffers in BAR0, where written since the last conventional reset: command buffers, camera control and raw transmit buffers, the key window. -/
  ram : List (Nat × Option Word) := []
  /-- HBM (R362): bytes by address, where they differ from what an unlisted one reads as (Ops.hbmBlank). -/
  hbm : List Host.Cell := []
  /-- How often the main rails have come up: trigger-table contents are undefined after each (05_stakes_and_triggers.md). -/
  powerOns : Nat := 0
  /-- Trigger-table entries (R128), where written since the main rails came up. -/
  sram : List (Nat × Option (BitVec 128)) := []
  /-- DUC (R104) at `ducAt`, in us. -/
  ducBase : Nat := 0
  /-- When DUC had that value (ns). -/
  ducAt : Nat := 0
  /-- The event recorder (18_event_recorder.md). -/
  rcd : Recorder := {}
  /-- The sub-periods of the fault windows (R521). -/
  fw : List (Nat × Window) := []
  /-- The guyline fabric (15_guyline_events.md). -/
  gyl : Guyline := {}
  /-- The endpoint (13_host_endpoint.md). -/
  hep : Endpoint := {}
  /-- The mode control (02_operating_modes.md). -/
  modeCtl : ModeCtl := {}
  /-- Trails T0 to T11 (03_position_trails.md). -/
  trl : List (Nat × Trail) := []
  /-- Serial encoder ports (R81 to R86). -/
  ser : List (Nat × SerialPort) := []
  /-- Pulse dividers (R91, R92). -/
  div : List (Nat × DividerS) := []
  /-- Corrections on their way to Lantern by port (R94). -/
  corr : List (Nat × CorrS) := []
  /-- Filtered levels of HOME0 to HOME7 (R87, R88): low when the filter starts at conventional reset (log 5). -/
  homeLv : List (Nat × Bool) := []
  /-- Time domains (04_time_domains.md). -/
  dom : List (Nat × DomainS) := []
  /-- Path filters of the PTP ports (R115). -/
  path : List (Nat × PathS) := []
  /-- Transmit timestamp queues (R117). -/
  txq : List (Nat × List TxStamp) := []
  /-- Pulse generators (R120 to R124). -/
  tpg : List (Nat × TpgS) := []
  /-- Stakes (05_stakes_and_triggers.md). -/
  stk : List (Nat × StakeS) := []
  /-- What later TIM edges bring of their own (R27, R136). -/
  due : List DueWork := []
  /-- Trigger pins (R143). -/
  pins : List (Nat × PinS) := []
  /-- Pending CoaXPress trigger packets (R147, R148). -/
  cxp : List (Nat × Option CxpTrig) := []
  /-- Compass units (08_mark_lock.md). -/
  mlk : List (Nat × MlkUnit) := []
  /-- Camera streams (06_camera_lanes.md). -/
  str : List (Nat × StreamS) := []
  /-- Frame assembly (07_frame_assembly.md). -/
  frm : List (Nat × FrmS) := []
  /-- Camera lanes (06_camera_lanes.md). -/
  lane : List (Nat × LaneS) := []
  /-- Streams in their camps (10_pixel_engines.md). -/
  pxe : List (Nat × PxeS) := []
  /-- Delivery (11_delivery_queues.md). -/
  dlv : Delivery := {}
  /-- The ageing state that each camp's budget is derated by (R542). -/
  derate : List (Nat × Nat) := []
  /-- How often each trail's position has stepped (R72, R87), for the frames that carry a step. -/
  posMark : List (Nat × Nat) := []
  /-- The tether (16_tether_link.md). -/
  tth : Tether := {}
  /-- Lantern (17_lantern.md). -/
  lan : Lantern := {}
  /-- The changeover sequencer (09_job_changeover.md). -/
  chg : Changeover := {}
  /-- Pins, rails and reset (21_pins_power_package.md). -/
  pwr : Power := {}
  /-- The mailboxes and the MP (14_mailbox_commands.md, 20_boot_identity_lifetime.md). -/
  mp : MpS := {}
  /-- DMA channels (12_dma_engines.md). -/
  dma : List (Nat × DmaS) := []
  deriving DecidableEq, Repr

/-- Why the machine stops with a fault: no command of the table does, since the spec gives each an effect. -/
inductive Fault where
  deriving DecidableEq, Repr

/-- Why a command is refused. -/
inductive Refusal where
  /-- Raised by an arm of Machine/Dispatch.lean whose command has no meaning yet (safe: the run stops). -/
  | notModelled (mnemonic : String)
  deriving DecidableEq, Repr

/-- The machine right after conventional reset (R14, R41, R54): registers, shadow store, latches and held words at their reset values (the maps list nothing), AON registers at their AON
power-on values, mode BOOT, role STANDALONE (both ROLE pins low), every queue, buffer and unit empty, HBM, trigger tables and MRAM not written (logs 3 to 7). -/
def State.reset : State := {}

end Sys2Proof.Machine
end

