-- ==== Sys2Proof/Machine/Ops.lean ====
section
/-! DEFINITION. The named operations over registers, memory and time that every meaning is built from: the one home of
each register value, its fields, the clock, HBM, what leaves the device, and the free values. -/

namespace Sys2Proof.Machine

/-! Registers. -/

/-- Default W in ms, K and ACTION of a fault window (Table 19-4), as (w, k, action); zero for a window with no counter. -/
def windowDefault (w : Nat) : Nat × Nat × Nat :=
  if w < 32 then (1000, 32, 2) else if w < 40 then (1000, 16, 1) else if w < 48 then (10000, 3, 1)
  else if w < 56 then (1000, 4, 0) else if w < 64 then (1000, 8, 1) else if w < 80 then (64000, 64, 1)
  else if w = 80 then (64000, 256, 1) else if w = 81 then (64000, 64, 1) else if w = 82 then (1000, 16, 1)
  else if w = 83 then (64000, 4, 1) else if w = 84 then (1000, 16, 1)
  else if w < 120 then (0, 0, 0) else (1000, 16, 0)

/-- Default owner of a guyline channel (Table 15-1): 0 HOST, 1 MP, 2 LANTERN, 3 TETHER. -/
def chanOwner (c : Nat) : Nat :=
  if c < 184 then 0 else if c < 192 then 1 else if c < 208 then 3 else if c < 240 then 2 else 0

/-- The reset value of the register instance at offset `a` (R14, R525, R438): the row's value, but for the registers whose
reset value depends on the instance: CAM_LANE_STATUS.MASTER, the fault windows (Table 19-4), the guyline owners (Table 15-1), the mailboxes' owners (Table 14-1),
and the MRAM header of an empty circulating area (log 3). -/
def regReset (a : Nat) : DWord :=
  match regAt a with
  | none => 0
  | some (r, b) =>
    if r.base = 0x70008 then BitVec.ofNat 64 ((b - 0x70008) / 0x2000 * 128)
    else if r.base = 0x23000 then (if (b - 0x23000) / 0x20 ≤ 84 then 5 else 0)
    else if r.base = 0x23004 then
      let d := windowDefault ((b - 0x23004) / 0x20)
      BitVec.ofNat 64 (d.1 + d.2.2 * 2 ^ 17)
    else if r.base = 0x23008 then BitVec.ofNat 64 (windowDefault ((b - 0x23008) / 0x20)).2.1
    else if r.base = 0x30004 then BitVec.ofNat 64 (chanOwner ((b - 0x30004) / 0x10))
    else if r.base = 0x18004 then (if 6 ≤ (b - 0x18004) / 0x20 then 3 else 0)
    else if r.base = 0x1800C then
      let m := (b - 0x1800C) / 0x20
      if m = 0 then 4 else if m < 6 then 5 else if m = 6 then 2 else 3
    else if r.base = 0x160024 then 0xFFFFFFFF
    else BitVec.ofNat 64 r.reset

/-- The value a register holds (its one home; for a shadowed register, the ACTIVE set). -/
def getReg (s : State) (a : Nat) : DWord := mget (regReset a) s.regs a

/-- Set the value a register holds. -/
def setReg (s : State) (a : Nat) (v : DWord) : State := { s with regs := mput (regReset a) s.regs a v }

/-- Read a field as a number. -/
def rd (s : State) (f : FRef) : Nat := (getReg s f.a).toNat / 2 ^ f.lo % 2 ^ f.w

/-- A register value with one field replaced by `v` (its low bits). -/
def putField (old : DWord) (lo w v : Nat) : DWord :=
  let o := old.toNat
  BitVec.ofNat 64 (o - o / 2 ^ lo % 2 ^ w * 2 ^ lo + v % 2 ^ w * 2 ^ lo)

/-- Write a field; the register's other bits stay. -/
def wr (s : State) (f : FRef) (v : Nat) : State := setReg s f.a (putField (getReg s f.a) f.lo f.w v)

/-- Read a one-bit field. -/
def rdB (s : State) (f : FRef) : Bool := rd s f != 0

/-- Write a one-bit field. -/
def wrB (s : State) (f : FRef) (b : Bool) : State := wr s f (b2n b)

/-- Read a signed field. -/
def rdI (s : State) (f : FRef) : Int := toSigned f.w (rd s f)

/-- Write a signed field, wrapping to its width. -/
def wrI (s : State) (f : FRef) (i : Int) : State := wr s f (ofSigned f.w i)

/-- A configuration field of an enabled block: as loaded when its enable reached ENABLING (R58), else as the register stands. -/
def rdC (s : State) (f : FRef) : Nat :=
  match mget none s.loaded f.a with
  | some v => v.toNat / 2 ^ f.lo % 2 ^ f.w
  | none => rd s f

/-- A one-bit configuration field, as loaded. -/
def rdCB (s : State) (f : FRef) : Bool := rdC s f != 0

/-- A signed configuration field, as loaded. -/
def rdCI (s : State) (f : FRef) : Int := toSigned f.w (rdC s f)

/-- Add to a counter that saturates at its width. -/
def addSat (s : State) (f : FRef) (n : Nat) : State := wr s f (min (rd s f + n) (2 ^ f.w - 1))

/-- Add to a counter that wraps at its width. -/
def addWrap (s : State) (f : FRef) (n : Nat) : State := wr s f (rd s f + n)

/-- The SHADOW value of a shadowed register (R245); it starts at the register's reset value. -/
def getShadow (s : State) (a : Nat) : DWord := mget (regReset a) s.shadow a

/-- Set the SHADOW value of a shadowed register. -/
def setShadow (s : State) (a : Nat) (v : DWord) : State := { s with shadow := mput (regReset a) s.shadow a v }

/-- A field of a shadowed register, read from the SHADOW set. -/
def rdShadow (s : State) (f : FRef) : Nat := (getShadow s f.a).toNat / 2 ^ f.lo % 2 ^ f.w

/-- A field of a shadowed register in the set that was ACTIVE before the last hand-over. -/
def rdOld (s : State) (f : FRef) : Nat := (mget (regReset f.a) s.old f.a).toNat / 2 ^ f.lo % 2 ^ f.w

/-- Zero is treated as one (the "0 treated as 1" of many fields). -/
def orOne (n : Nat) : Nat := if n = 0 then 1 else n

/-! Time. One tick is 1 ns (R15); a MOT cycle is two. -/

/-- The MOT cycle index of R24: every MOT cycle, 32 bits. DESIGN CHOICE (log 2). -/
def motCycle (s : State) : Nat := s.now / 2 % 2 ^ 32

/-- The rising edge of the present MOT cycle, in ns: trails, stakes and slots take values only on it (R21). DESIGN CHOICE (log 2). -/
def motNow (s : State) : Nat := s.now / 2 * 2

/-- DUC (R104): microseconds, 64 bits. DESIGN CHOICE (log 2). -/
def ducNow (s : State) : Nat := (s.ducBase + (s.now - s.ducAt) / 1000) % 2 ^ 64

/-- The value of domain `d` at TIM edge `t` in units of 2^-40 ns (R98, R99), at the rate that stands. -/
def domRawAt (s : State) (d t : Nat) : Nat :=
  let x := mget {} s.dom d
  ofSigned 104 ((x.value : Int) + (t - x.since : Nat) * ((2 : Int) ^ 40 + rdI s (TMB_DOM_RATE_RATE d)))

/-- The value of domain `d` in units of 2^-40 ns at this TIM edge (R98, R99). -/
def domRaw (s : State) (d : Nat) : Nat := domRawAt s d s.now

/-- TS64 of domain `d` (R98). -/
def domNow (s : State) (d : Nat) : Nat := domRaw s d / 2 ^ 40

/-- The top 8 bits of the fraction of domain `d` (R98). -/
def domFrac (s : State) (d : Nat) : Nat := domRaw s d / 2 ^ 32 % 256

/-! What leaves the device, the worklist of one command, free values. -/

/-- Log a message that leaves the device. DESIGN CHOICE (log 6). -/
def send (s : State) (o : Out) : State := { s with out := s.out ++ [o] }

/-- Put work that another block must do onto the worklist of this command. DESIGN CHOICE (log 6). -/
def later (s : State) (t : Todo) : State := { s with todo := s.todo ++ [t] }

/-- Put work onto the worklist unless it stands there already. DESIGN CHOICE (log 6). -/
def laterOnce (s : State) (t : Todo) : State := if s.todo.contains t then s else later s t

/-- The next free value, and the state with the counter of free values advanced (log 7). -/
def freeNat (s : State) : Nat := (Config.freeValue s.free).toNat

/-- Advance the counter of free values. DESIGN CHOICE (log 7). -/
def freeNext (s : State) : State := { s with free := s.free + 1 }

/-- Apply a state change for every element of a list, in order. -/
def each {α : Type} (l : List α) (f : State → α → State) (s : State) : State := l.foldl f s

/-- Apply a state change when a condition holds. -/
def onlyIf (b : Bool) (f : State → State) (s : State) : State := if b then f s else s

/-! HBM (13_host_endpoint.md R362; 00_scope.md): 24 GB of bytes. -/

/-- Bytes of HBM present (24 GB, R362, R527). -/
def hbmSize : Nat := 24 * 2 ^ 30

/-- What a byte of HBM reads as that nothing has written: 0 in a device just powered on, a free value since a conventional reset, which leaves HBM
undefined (R325, R350; log 3). -/
def hbmBlank (s : State) (a : Nat) : Byte := if s.epoch = 0 then 0 else Config.undefinedByte s.epoch a

/-- One byte of HBM; a read at or beyond 24 GB returns 0 (R362). -/
def hbmByte (s : State) (a : Nat) : Byte := if a < hbmSize then mget (hbmBlank s a) s.hbm a else 0

/-- Store one byte of HBM; a write at or beyond 24 GB is discarded (R362). -/
def hbmSet (s : State) (a : Nat) (b : Byte) : State := if a < hbmSize then { s with hbm := mput (hbmBlank s a) s.hbm a b } else s

/-- `n` bytes of HBM from `a` on; bytes at or beyond 24 GB read 0 (R362). -/
def hbmRead (s : State) (a n : Nat) : List Byte := (List.range n).map (fun i => hbmByte s (a + i))

/-- Store bytes of HBM from `a` on. -/
def hbmWrite (s : State) (a : Nat) : List Byte → State
  | [] => s
  | b :: bs => hbmWrite (hbmSet s a b) (a + 1) bs

/-- A little-endian number of `n` bytes in HBM (R7). -/
def hbmNat (s : State) (a n : Nat) : Nat := leNat (hbmRead s a n)

/-! Modes (Table 2-1). -/

abbrev mdSentinel : Nat := 0
abbrev mdBoot : Nat := 1
abbrev mdIdle : Nat := 2
abbrev mdArmed : Nat := 3
abbrev mdFreerun : Nat := 4
abbrev mdTrack : Nat := 5
abbrev mdLock : Nat := 6
abbrev mdChangeover : Nat := 7
abbrev mdDrain : Nat := 8
abbrev mdCalibrate : Nat := 9
abbrev mdHold : Nat := 10
abbrev mdService : Nat := 11

/-- The present mode (R40). -/
def mode (s : State) : Nat := rd s MODE_STATUS_MODE

/-- The acquisition modes (02_operating_modes.md). -/
def acquiring (s : State) : Bool := mode s == 4 || mode s == 5 || mode s == 6 || mode s == 7

/-- Whether the main domain runs: powered, and out of reset (R383, R384, R552). -/
def mainRuns (s : State) : Bool := s.pwr.aon && s.pwr.main && !s.pwr.reset

/-- The mode whose stake and trigger behaviour applies: CHANGEOVER acts as the mode it came from (Table 2-2). -/
def actingMode (s : State) : Nat := if mode s = 7 then s.modeCtl.cameFrom else mode s

/-- The device's role (R54): 0 STANDALONE, 1 MANAGER, 2 WORKER. -/
def role (s : State) : Nat := rd s MODE_STATUS_ROLE

/-- The STATE of an enable whose register is at `a` (Table 2-6): 0 DISABLED, 1 ENABLING, 2 ENABLED, 3 QUIESCING. -/
def enState (s : State) (a : Nat) : Nat := (getReg s a).toNat / 2 % 4

/-- Whether the unit whose enable register is at `a` is ENABLED. -/
def enabled (s : State) (a : Nat) : Bool := enState s a == 2

/-! Lanes and recipes: what several blocks ask. -/

/-- The CAM_LANE_CFG word lane `n` runs with (R162, Table 6-9): its group master's, as loaded at the last enable while the lane is not
DISABLED, else the register's. -/
def laneCfg (s : State) (n : Nat) : Nat :=
  let m := rd s (CAM_LANE_STATUS_MASTER n)
  if enState s (0x70000 + 0x2000 * m) = 0 then rd s ⟨0x70004 + 0x2000 * n, 0, 11⟩ else (mget ({} : LaneS) s.lane m).cfg

/-- The MODE of the lowest discovery rate (R164): CXP-1, the lowest of Table 6-1. DEDUCED (log 19). -/
abbrev lowestRate : Nat := 1

/-- The MODE a lane runs in (Table 6-1). -/
def laneMode (s : State) (n : Nat) : Nat := if (mget {} s.lane n).discovering then lowestRate else laneCfg s n % 16

/-- Whether a sample belongs to the recipe before the last hand-over (R33): it was taken in its cycle or earlier. Ages are compared without the wrap
of the 32-bit index, which R33 says never matters. -/
def sampleOld (s : State) (x : Option TagSample) : Bool :=
  match x, s.chg.hAt with
  | some y, some h => decide (y.at_ / 2 ≤ h)
  | _, _ => false

/-- A field of a shadowed register in the set of the old or the present recipe. -/
def rdSet (s : State) (old : Bool) (f : FRef) : Nat := if old then rdOld s f else rd s f

/-- A signed field of a shadowed register in one of the two sets. -/
def rdSetI (s : State) (old : Bool) (f : FRef) : Int := toSigned f.w (rdSet s old f)

/-! Buffer memories in BAR0 whose contents conventional reset leaves undefined. -/

/-- A word of a buffer: as written since the last conventional reset, else a free value (0 in a device just powered on, log 3). -/
def ramWord (s : State) (a : Nat) : Word :=
  match mget none s.ram a with
  | some w => w
  | none => if s.epoch = 0 then 0 else Config.undefinedWord s.epoch a

/-- Write a word of a buffer. -/
def ramSet (s : State) (a : Nat) (w : Word) : State := { s with ram := mput none s.ram a (some w) }

/-- Bytes of a buffer from word offset `a` on (R7). -/
def ramBytes (s : State) (a n : Nat) : List Byte :=
  ((List.range ((n + 3) / 4)).flatMap (fun i => leBytes 4 (ramWord s (a + 4 * i)).toNat)).take n

/-- Store bytes into a buffer from word offset `a` on; a last partial word is filled with zeros. -/
def ramStore (s : State) (a : Nat) (l : List Byte) : State :=
  each (List.range ((l.length + 3) / 4)) (fun s i => ramSet s (a + 4 * i) (BitVec.ofNat 32 (leNat ((l.drop (4 * i)).take 4)))) s

end Sys2Proof.Machine
end

