-- ==== Sys2Proof/Machine/Record.lean ====
section
/-! DEFINITION. Offering a record to the recorder (18_event_recorder.md R494 to R500): the stamp, the record ports, the
pending latch, and the records every block offers. The recorder's own steps are in Machine/Recorder.lean. -/

namespace Sys2Proof.Machine

/-- Severities (Table 18-2). -/
abbrev svTrace : Nat := 0
abbrev svInfo : Nat := 1
abbrev svNotice : Nat := 2
abbrev svWarning : Nat := 3
abbrev svError : Nat := 4
abbrev svFault : Nat := 5

/-- Record ports (R499, Table 18-9). -/
abbrev rpControl : Nat := 0
abbrev rpData : Nat := 1
abbrev rpMp : Nat := 2
abbrev rpLantern : Nat := 3

/-- The stamps a record takes when it leaves its port (R37): DUC, D0 and D0's VALID bit. -/
def stampRec (s : State) (r : Rec) : Rec :=
  { r with duc := ducNow s, ts := domNow s 0, d0Valid := rdB s (TMB_DOM_STATUS_VALID 0) }

/-- Two records are identical (R501): same SOURCE, SEVERITY, CODE and PAYLOAD. -/
def sameRec (a b : Rec) : Bool :=
  a.source == b.source && a.sev == b.sev && a.code == b.code && padTo 32 a.payload == padTo 32 b.payload

/-- A record of the whole device: its fields but the stamps (R494). -/
def mkRec (source sev code : Nat) (payload : List Byte) : Rec :=
  { source := source, sev := sev, code := code, payload := padTo 32 payload }

/-- An interrupt status bit as an event sets it, before any request (R518). Used by the recorder's ALARM. -/
def statusField (src : Nat) : FRef := ⟨0x20000 + 0x10 * (src / 32), src % 32, 1⟩

/-- A latch with a record added (R500): an identical entry takes its count, else a new entry joins while there is room;
none when the latch is full. DEDUCED (log 39). -/
def latchAdd : List WaitRec → WaitRec → Option (List WaitRec)
  | l, w =>
    if l.any (fun e => sameRec e.r w.r) then
      some (l.map (fun e => if sameRec e.r w.r then { e with r := { e.r with rep := e.r.rep + w.r.rep }, last := w.last } else e))
    else if l.length < 16 then some (l ++ [w]) else none

/-- A record that stands for `n` occurrences is dropped and counted; a LOST record is due (R500). DEDUCED (log 39). -/
def dropRec (s : State) (n : Nat) : State :=
  let d := ducNow s
  let dr : DropInfo := match s.rcd.drop with
    | none => { n := n, first := d, last := d, ahead := s.rcd.latch.length }
    | some x => { x with n := x.n + n, last := d }
  addSat { s with rcd := { s.rcd with drop := some dr } } REC_CNT_LOST_COUNT n

/-- Put a record into the pending latch, or drop and count it (R500). DEDUCED (log 39). -/
def toLatch (s : State) (w : WaitRec) : State :=
  match latchAdd s.rcd.latch w with
  | some l => { s with rcd := { s.rcd with latch := l } }
  | none => dropRec s w.r.rep

/-- The next SEQ (R496), and the state with the counter advanced. -/
def takeSeq (s : State) : Nat × State := (rd s REC_SEQ_SEQ, addWrap s REC_SEQ_SEQ 1)

/-- A record Lantern writes itself (R490, R508): BY_LANTERN = 1, D0_VALID = 0, TS64 = 0. DEDUCED (log 38). -/
def lanternRec (s : State) (r : Rec) : Rec × State :=
  let q := takeSeq s
  ({ r with duc := ducNow s, ts := 0, d0Valid := false, byLantern := true, seq := q.1 }, q.2)

/-- A record of Lantern while the main domain does not run (R490): one of 32 that wait for MRAM, or dropped and counted. DEDUCED (log 38). -/
def lanternHold (s : State) (r : Rec) : State :=
  if s.lan.log.length < 32 then
    let q := lanternRec s r
    { q.2 with lan := { q.2.lan with log := q.2.lan.log ++ [q.1] } }
  else addSat s LAN_CNT_LOGLOST_COUNT 1

/-- Offer a record to a record port (R36, R499, R500): an idle port holds it; at a busy port it leaves with its stamp for
the pending latch. Lantern holds its own while the main domain does not run. DEDUCED (log 39). -/
def offerRec (s : State) (port : Nat) (r : Rec) : State :=
  if port == rpLantern && !mainRuns s then lanternHold s r
  else if s.rcd.ports.any (fun p => p.1 == port) then toLatch s { r := stampRec s r, last := ducNow s }
  else { s with rcd := { s.rcd with ports := s.rcd.ports ++ [(port, { r := r, last := ducNow s })] } }

/-- Offer two records of one source that must be accepted in this order (R524): each as any record, and where the port holds one like the first, the second waits in the latch behind it. DEDUCED (log 39). -/
def offerInOrder (s : State) (port : Nat) (a b : Rec) : State :=
  if port == rpLantern && !mainRuns s then lanternHold (lanternHold s a) b
  else
    let s := offerRec s port a
    let held := s.rcd.ports.any (fun p => p.1 == port && sameRec p.2.r a)
    toLatch s { r := stampRec s b, last := ducNow s, behind := if held then some port else none }

/-- Offer a record of a block: port, SOURCE, SEVERITY, CODE, PAYLOAD (Table 18-4). -/
def record (s : State) (port source sev code : Nat) (payload : List Byte) : State :=
  offerRec s port (mkRec source sev code payload)

end Sys2Proof.Machine
end

