-- ==== Sys2Proof/Machine/Intr.lean ====
section
/-! DEFINITION. The interrupt tree and its messages (19_interrupts_and_fault_windows.md R517 to R520; 13_host_endpoint.md
R353 to R360, R368 to R370), the fault windows (R521 to R525, R528) and the ECC events (R526). -/

namespace Sys2Proof.Machine

/-! Configuration space (Tables 13-2 to 13-6): dwords, with the bits software can write. -/

/-- Reset value of a configuration dword (Tables 13-2 to 13-6); the values that are live or fused are put in by `cfgRead`. DESIGN CHOICE (log 4). -/
def cfgReset (o : Nat) : Nat :=
  match o with
  | 0x00 => 0x51201E6B | 0x04 => 0x00100000 | 0x08 => 0x11800001 | 0x0C => 0
  | 0x10 => 0x4 | 0x18 => 0xC | 0x34 => 0x40 | 0x3C => 0x0100
  | 0x40 => 0x00035001 | 0x44 => 0x8
  | 0x50 => 0x018A7005
  | 0x70 => 0x8002B010
  -- Device Capabilities: MPS 0b010, Extended Tag, L0s 0b100, L1 0b001, Role-Based Error Reporting
  | 0x74 => 0x8322
  -- Device Control: Enable Relaxed Ordering, MRRS 512 B, the specification's defaults
  | 0x78 => 0x2810
  -- Link Capabilities: speed 6, width 16, ASPM 0b11, L0s 0b100, L1 0b010, clock PM, ASPM optionality
  | 0x7C => 0x00454D06
  | 0x94 => 0x3080F | 0x9C => 0x7E
  | 0xB0 => 0x07FF0011 | 0xB4 => 0x8000 | 0xB8 => 0x7000
  -- AER: masks and severities at the specification's defaults
  | 0x108 => 0x400000 | 0x10C => 0x462030 | 0x114 => 0xE000
  | 0x100 => 0x14820001 | 0x148 => 0x15810003 | 0x158 => 0x16810015
  | 0x15C => 0xFF000 | 0x160 => 0x822
  | 0x168 => 0x17010018 | 0x170 => 0x1801001E | 0x174 => 0x280A1F | 0x17C => 0x28
  | 0x180 => 0x1B010019 | 0x1B0 => 0x1C010025 | 0x1B4 => 0x80000001
  | 0x1C0 => 0x1F010026 | 0x1F0 => 0x2201002A | 0x220 => 0x24010031 | 0x240 => 0x29010027
  | 0x290 => 0x2A01001F | 0x294 => 0x1
  | 0x2A0 => 0x2B01002F | 0x2A4 => 0x6
  | 0x2B0 => 0x0001000B | 0x2B4 => 0x04010001
  | 0x2B8 => 0x00015120 | 0x2D0 => 0x80000
  -- per lane: equalization control (8.0 GT/s: presets 0xF and hint 7; 16.0, 32.0 and 64.0 GT/s: preset 0xF), margining control (No Command)
  | _ =>
    if 0x18C ≤ o ∧ o < 0x1AC then 0x7F007F00
    else if 0x1E0 ≤ o ∧ o < 0x1F0 ∨ 0x210 ≤ o ∧ o < 0x220 ∨ 0x230 ≤ o ∧ o < 0x240 then 0xF0F0F0F0
    else if 0x248 ≤ o ∧ o < 0x288 then 0x9C38 else 0

/-- The bits of a configuration dword that software writes (Tables 13-2 to 13-5). -/
def cfgRw (o : Nat) : Nat :=
  match o with
  | 0x04 => 0x546 | 0x0C => 0xFF | 0x10 => 0xFC000000 | 0x14 => 0xFFFFFFFF | 0x18 => 0xF0000000 | 0x1C => 0xFFFFFFFF
  | 0x30 => 0xFFF00001 | 0x3C => 0xFF | 0x44 => 0x3
  | 0x50 => 0x00710000 | 0x54 => 0xFFFFFFFC | 0x58 => 0xFFFFFFFF | 0x5C => 0xFFFF | 0x60 => 0xFFFFFFFF
  | 0x78 => 0x71FF | 0x80 => 0x1C3 | 0x98 => 0x140F
  | 0xB0 => 0xC0000000
  | 0x108 => 0x57F030 | 0x10C => 0x57F030 | 0x114 => 0xF1C1
  | 0x160 => 0x3F00 | 0x16C => 0x1FFF1FFF | 0x178 => 0xE3FF000F | 0x17C => 0xFB | 0x298 => 0xFF01 | 0x2A8 => 0x4
  | _ => if 0x248 ≤ o ∧ o < 0x288 then 0xFF7F else 0

/-- The bits of a configuration dword that a written 1 clears. -/
def cfgW1c (o : Nat) : Nat :=
  match o with
  | 0x04 => 0xF9000000 | 0x78 => 0xF0000 | 0x80 => 0xC0000000 | 0x104 => 0x57F030 | 0x110 => 0xF1C1 | 0x188 => 0xFFFF | _ => 0

/-- A configuration dword as held. -/
def cfgDw (s : State) (o : Nat) : Nat := (mget (BitVec.ofNat 32 (cfgReset o)) s.hep.cfg o).toNat

/-- Set a configuration dword. -/
def cfgSet (s : State) (o v : Nat) : State :=
  { s with hep := { s.hep with cfg := mput (BitVec.ofNat 32 (cfgReset o)) s.hep.cfg o (BitVec.ofNat 32 v) } }

/-- Set bits of a configuration dword that hardware sets. -/
def cfgOr (s : State) (o m : Nat) : State := cfgSet s o (Nat.lor (cfgDw s o) m)

/-- Memory Space Enable, Bus Master Enable, Interrupt Disable (Table 13-2). -/
def mse (s : State) : Bool := bitOf (cfgDw s 0x04) 1
def bme (s : State) : Bool := bitOf (cfgDw s 0x04) 2
def intDisable (s : State) : Bool := bitOf (cfgDw s 0x04) 10

/-- D3hot (R371), from PMCSR. -/
def inD3 (s : State) : Bool := bitsOf (cfgDw s 0x44) 1 0 == 3

/-- The interrupt mode (R368): 0 INTx, 1 MSI, 2 MSI-X. -/
def intMode (s : State) : Nat := if bitOf (cfgDw s 0xB0) 31 then 2 else if bitOf (cfgDw s 0x50) 16 then 1 else 0

/-- MSI-X table dword `i` of vector `v`; vector control starts masked. -/
def msixDw (s : State) (v i : Nat) : Nat := (mget (if i = 3 then (1 : Word) else 0) s.hep.msix (4 * v + i)).toNat

/-- Write an MSI-X table dword; of the vector control dword only the mask bit is held. -/
def msixSet (s : State) (v i x : Nat) : State :=
  let x' := if i = 3 then x % 2 else if i = 0 then x / 4 * 4 else x
  { s with hep := { s.hep with msix := mput (if i = 3 then (1 : Word) else 0) s.hep.msix (4 * v + i) (BitVec.ofNat 32 x') } }

/-- Vectors granted in MSI mode (R368). -/
def msiGranted (s : State) : Nat := 2 ^ min 5 (bitsOf (cfgDw s 0x50) 22 20)

/-- Whether a vector is masked (R369). -/
def vecMasked (s : State) (v : Nat) : Bool :=
  (!bme s) || inD3 s ||
    (if intMode s = 2 then bitOf (cfgDw s 0xB0) 30 || bitOf (msixDw s v 3) 0
     else bitOf (cfgDw s 0x60) (v % 32))

/-- The vector a request for vector `v` becomes in the present mode (R368). -/
def vecOf (s : State) (v : Nat) : Nat := if intMode s = 2 then v else v % msiGranted s

/-- Send the message of vector `v` (R368). -/
def sendMessage (s : State) (v : Nat) : State :=
  if intMode s = 2 then
    send s (.message (msixDw s v 0 + 2 ^ 32 * msixDw s v 1) (msixDw s v 2))
  else
    let n := msiGranted s
    let data := cfgDw s 0x5C % 2 ^ 16
    send s (.message (cfgDw s 0x54 + 2 ^ 32 * cfgDw s 0x58) (data / n * n + v % n))

/-- Request vector `v` (R369): send its message, or record it as pending while the vector is masked. -/
def requestVector (s : State) (v0 : Nat) : State :=
  let v := vecOf s v0
  if vecMasked s v then { s with hep := { s.hep with pba := mput false s.hep.pba v true } } else sendMessage s v

/-- Send every pending message whose vector is no longer masked (R369). DEDUCED (log 40). -/
def flushPending (s : State) : State :=
  if intMode s = 0 then s else
  each (s.hep.pba.map (·.1)) (fun s v =>
    if vecMasked s v then s else sendMessage { s with hep := { s.hep with pba := mput false s.hep.pba v false } } v) s

/-- The OR of all set and enabled sources (R370). -/
def anyPend (s : State) : Bool :=
  (List.range 48).any (fun g => Nat.land (rd s (INT_STATUS_STATUS g)) (rd s (INT_ENABLE_ENABLE g)) != 0)

/-- Bring INTA to what R370 says it must be, sending Assert_INTA or Deassert_INTA on a change. DEDUCED (log 40). -/
def updateInta (s : State) : State :=
  let want := intMode s == 0 && anyPend s && !intDisable s
  if want = s.hep.inta then s else send { s with hep := { s.hep with inta := want } } (.inta want)

/-- A source's request for an interrupt (R519, R368). -/
def requestSrc (s : State) (src : Nat) : State :=
  if intMode s = 0 then updateInta s
  else if rdB s (INT_ROUTE_INTA src) then requestVector s 0
  else requestVector s (rd s (INT_ROUTE_VECTOR src))

/-- Sources that are assigned (Table 19-1); a reserved source never sets (R517). -/
def srcAssigned (src : Nat) : Bool :=
  decide (src < 1536) && !(decide (1300 ≤ src) && decide (src < 1312)) && !(decide (1382 ≤ src) && decide (src < 1408))

/-- A source's event (R518, R519): its status bit sets, and requests an interrupt when it sets while its enable is 1. -/
def raise (s : State) (src : Nat) : State :=
  if srcAssigned src && !rdB s (statusField src) then
    let s := wr s (statusField src) 1
    if bitOf (rd s (INT_ENABLE_ENABLE (src / 32))) (src % 32) then requestSrc s src else s
  else s

/-- A write of INT_STATUS of group `g` (R518): each 1 clears. -/
def intStatusWrite (s : State) (g v : Nat) : State :=
  let old := rd s (INT_STATUS_STATUS g)
  updateInta (wr s (INT_STATUS_STATUS g) (old - Nat.land old v))

/-- A write of INT_ENABLE of group `g` (R519): a source whose enable goes from 0 to 1 while its status is 1 requests. DEDUCED (log 40). -/
def intEnableWrite (s : State) (g v : Nat) : State :=
  let old := rd s (INT_ENABLE_ENABLE g)
  let s := wr s (INT_ENABLE_ENABLE g) v
  let st := rd s (INT_STATUS_STATUS g)
  let s := each (below 32 (fun b => bitOf v b && !bitOf old b && bitOf st b)) (fun s b => requestSrc s (32 * g + b)) s
  updateInta s

/-- A write of INT_TEST (R520). -/
def intTest (s : State) (src : Nat) (go : Bool) : State := if go then raise s src else s

/-! Interrupt source numbers (Table 19-1). -/

def srcLane (n k : Nat) : Nat := 12 * n + k
def srcStakeEnd (n : Nat) : Nat := 384 + 2 * n
def srcStakeAlarm (n : Nat) : Nat := 385 + 2 * n
def srcGroup (g : Nat) : Nat := 512 + g
def srcDmaDone (c : Nat) : Nat := 768 + 2 * c
def srcDmaHalt (c : Nat) : Nat := 769 + 2 * c
def srcEngine (e : Nat) : Nat := 1024 + e
def srcDomain (d : Nat) : Nat := 1280 + d
def srcTpg (g : Nat) : Nat := 1284 + g
def srcPort (p : Nat) : Nat := 1312 + p
def srcSeen (j : Nat) : Nat := 1344 + j
def srcGylAlarm : Nat := 1352
def srcTthLink : Nat := 1353
def srcTthChain : Nat := 1354
def srcTthHbLoss : Nat := 1355
def srcTthCal : Nat := 1356
def srcTthErr : Nat := 1357
def srcLanRule : Nat := 1358
def srcLanPort : Nat := 1359
def srcLanXtal : Nat := 1360
def srcFlushDone : Nat := 1361
def srcRecAlarm : Nat := 1362
def srcHepLink : Nat := 1363
def srcHepCorr : Nat := 1364
def srcHepLate : Nat := 1365
def srcMbx (m : Nat) : Nat := 1366 + m
def srcMode : Nat := 1373
def srcChg : Nat := 1374
def srcFwFault : Nat := 1375
def srcHbmCorr : Nat := 1376
def srcHbmUnc : Nat := 1377
def srcSramCorr : Nat := 1378
def srcSramUnc : Nat := 1379
def srcAgeing : Nat := 1380
def srcThermal : Nat := 1381
def srcWindow (w : Nat) : Nat := 1408 + w

/-! Fault windows. -/

/-- The SOURCE of a window's records (R528). -/
def windowSource (w : Nat) : Nat :=
  if w < 32 then 0x0B else if w < 64 then 0x08 else if w < 80 then 0x0F else if w = 80 then 0x19
  else if w = 81 then 0x06 else if w < 84 then 0x02 else if w = 84 then 0x12 else 0x13

/-- The port of a window's records (Table 18-9). -/
def windowPort (w : Nat) : Nat := if w < 120 then rpMp else rpLantern

/-- Whether an action is allowed for a window (Table 19-4); windows 85 to 119 list none. -/
def actionAllowed (w a : Nat) : Bool :=
  if w < 32 then decide (a ≤ 4) else if w < 64 then a == 0 || a == 1 || a == 4
  else if w < 80 then a == 0 || a == 1 || a == 3 || a == 4
  else if w < 82 then a == 0 || a == 1 || a == 4
  else if w = 82 then a == 0 || a == 1 || a == 2 || a == 4
  else if w = 83 then a == 0 || a == 1 || a == 4
  else if w = 84 then decide (a ≤ 4)
  else if w < 120 then false else a == 0 || a == 1 || a == 4

/-- A window's W in ms (Table 19-8): 0 treated as 1, above 65 536 as 65 536. -/
def windowMs (s : State) (w : Nat) : Nat := min 65536 (orOne (rd s (INT_FW_CFG_W_MS w)))

/-- A window's K (Table 19-7): 0 treated as 1. -/
def windowK (s : State) (w : Nat) : Nat := orOne (rd s (INT_FW_K_K w))

/-- A window's count (R521): its sixteen sub-periods, saturating at 0xFF_FFFF. -/
def windowCount (x : Window) : Nat := min 0xFFFFFF (x.subs.foldl (· + ·) 0)

/-- Set a window's sub-periods and show the count (R521). -/
def setWindow (s : State) (w : Nat) (x : Window) : State :=
  wr { s with fw := mput {} s.fw w x } (INT_FW_COUNT_COUNT w) (windowCount x)

/-- Add increments to the current sub-period. -/
def windowAdd (x : Window) (n : Nat) : Window :=
  match x.subs with
  | [] => { subs := [n] }
  | a :: l => { subs := (a + n) :: l }

/-- A WINDOW record standing for `n` increments (R524, Table 19-6). -/
def windowRec (s : State) (w n : Nat) : Rec :=
  { mkRec (windowSource w) svWarning 0x8001 (leBytes 1 w ++ leBytes 1 (enState s (0x23000 + 0x20 * w)) ++ leBytes 1 (rd s (INT_FW_CFG_ACTION w)) ++ leBytes 1 0 ++
      leBytes 4 (windowMs s w) ++ leBytes 2 (windowK s w)) with rep := n }

/-- Offer a WINDOW record standing for `n` increments (R524). DEDUCED (log 39). -/
def windowRecord (s : State) (w n : Nat) : State := if n = 0 then s else offerRec s (windowPort w) (windowRec s w n)

/-- What an escalation of a window does beyond the log (R523): the window's source, and its action. DEDUCED (log 40). -/
def windowAct (s : State) (w : Nat) : State :=
  let act := rd s (INT_FW_CFG_ACTION w)
  let s := onlyIf (act != 0) (fun s => raise s (srcWindow w)) s
  match act with
  | 2 => later s (.retrain w)
  | 3 => later s (.disableUnit w)
  | 4 => later s (.hold 1 w (rdB s (INT_FW_CFG_HOLD_DISABLE w)))
  | _ => s

/-- Escalation of a window at a count, by `n` increments (R523, R524; R492 where the main domain does not run): their WINDOW record, the ESCALATE record after it,
the window's source, and its action. DEDUCED (log 39). DEDUCED (log 40). -/
def windowEscalate (s : State) (w count n : Nat) : State :=
  let act := rd s (INT_FW_CFG_ACTION w)
  let s := wr s (INT_FW_STATUS_STATE w) 2
  let s := wr s (INT_FW_STATUS_ESCALATED w) 1
  let s := addSat s (INT_FW_STATUS_ESC_CNT w) 1
  let sev := if act < 2 then svWarning else if act = 2 then svError else svFault
  let pl := leBytes 1 w ++ leBytes 1 act ++ leBytes 2 0 ++ leBytes 4 count ++ leBytes 4 (windowMs s w) ++ leBytes 2 (windowK s w)
  let s := offerInOrder s (windowPort w) (windowRec s w n) (mkRec (windowSource w) sev 0x8002 pl)
  if !mainRuns s then { s with lan := { s.lan with esc := s.lan.esc ++ [w] } } else windowAct s w

/-- `n` increments of the counter a window watches (R521, R522, R524). DEDUCED (log 40). -/
def windowInc (s : State) (w n : Nat) : State :=
  if n = 0 || (decide (85 ≤ w) && decide (w < 120)) then s else
  let s := addSat s (INT_FW_TOTAL_TOTAL w) n
  if !enabled s (0x23000 + 0x20 * w) then s else
  let x := mget {} s.fw w
  let c := windowCount x
  let k := windowK s w
  let st := rd s (INT_FW_STATUS_STATE w)
  let s := setWindow s w (windowAdd x n)
  if st = 2 then windowRecord s w n
  else if c + n < k then windowRecord (wr s (INT_FW_STATUS_STATE w) 1) w n
  else
    let j := max 1 (k - c)
    windowRecord (windowEscalate s w (c + j) j) w (n - j)

/-- A window goes CLEAR with count 0 and its sub-periods restart (Table 19-2, last row). -/
def windowClear (s : State) (w : Nat) : State := wr (setWindow s w {}) (INT_FW_STATUS_STATE w) 0

/-- A sub-period boundary of a window (R521, R522). -/
def windowSubperiod (s : State) (w : Nat) : State :=
  if !enabled s (0x23000 + 0x20 * w) then s else
  let x : Window := { subs := 0 :: (mget ({} : Window) s.fw w).subs.take 15 }
  let s := setWindow s w x
  if windowCount x = 0 then wr s (INT_FW_STATUS_STATE w) 0 else s

/-- A write of INT_FW_CFG (R522, R525): an action not allowed is stored as 1 with CFG_ERR. -/
def windowCfgWrite (s : State) (w v : Nat) : State :=
  let a := bitsOf v 19 17
  let s := wr s (INT_FW_CFG_W_MS w) (bitsOf v 16 0)
  let s := wr s (INT_FW_CFG_HOLD_DISABLE w) (bitsOf v 20 20)
  let s := if actionAllowed w a then wr s (INT_FW_CFG_ACTION w) a
    else wr (wr s (INT_FW_CFG_ACTION w) 1) (INT_FW_STATUS_CFG_ERR w) 1
  windowClear s w

/-- A write of INT_FW_K (R522). -/
def windowKWrite (s : State) (w v : Nat) : State := windowClear (wr s (INT_FW_K_K w) (bitsOf v 15 0)) w

/-! ECC (R526). Arrays: 0 HBM, 1 local memory, 2 line buffer, 3 trigger SRAM, 4 staging, 5 queue cache, 6 recorder ring, 7 MP. -/

/-- A corrected ECC error (R526): counted in its window, in the INT counter, and raised. `camp` names the camp of a local memory or
line buffer (windows 64 to 79). -/
def eccCorrected (s : State) (array camp : Nat) : State :=
  if array = 0 then
    windowInc (raise (addSat s INT_ECC_HBM_CORR_COUNT 1) srcHbmCorr) 80 1
  else
    let s := raise (addSat s INT_ECC_SRAM_CORR_COUNT 1) srcSramCorr
    if array = 1 || array = 2 then windowInc (addSat s (PXE_CNT_ECC_CORR_COUNT camp) 1) (64 + camp) 1
    else windowInc s 81 1

/-- An uncorrectable ECC error (R526, R528): latched, recorded and raised; what the reader does about it is the reader's. -/
def eccUncorrectable (s : State) (array camp addr : Nat) : State :=
  let s := if array = 0 then raise (addSat s INT_ECC_HBM_UNC_COUNT 1) srcHbmUnc
    else raise (addSat s INT_ECC_SRAM_UNC_COUNT 1) srcSramUnc
  let s := onlyIf (array == 1 || array == 2) (fun s => addSat s (PXE_CNT_ECC_UNC_COUNT camp) 1) s
  let s := wr (wr s INT_ECC_LAST_ADDR addr) INT_ECC_LAST_ARRAY array
  record s rpMp (if array = 0 then 0x19 else 0x06) svFault 0x8003 (leBytes 1 array ++ leBytes 3 0 ++ leBytes 8 addr)

end Sys2Proof.Machine
end

