-- ==== Sys2Proof/Machine/HostIo.lean ====
section
/-! DEFINITION. What the endpoint sends for delivery and DMA (13_host_endpoint.md R375 to R382; 12_dma_engines.md R329, R342, R343): memory writes, and memory reads
with their tags; the errors it logs. -/

namespace Sys2Proof.Machine

/-- Max_Payload_Size and Max_Read_Request_Size in force (Device Control). -/
def mps (s : State) : Nat := 128 * 2 ^ min 2 (bitsOf (cfgDw s 0x78) 7 5)
def mrrs (s : State) : Nat := 128 * 2 ^ min 5 (bitsOf (cfgDw s 0x78) 14 12)

/-- Whether the endpoint may issue requests (R371, R382). -/
def mayIssue (s : State) : Bool := bme s && !inD3 s

/-- Cut (address, length) at the boundaries aligned to `size` (R375). The first argument bounds the number of pieces. -/
def pieces : Nat → Nat → Nat → Nat → List (Nat × Nat)
  | 0, _, _, _ => []
  | f + 1, size, a, n =>
    if n = 0 then [] else
    let k := min n (size - a % size)
    (a, k) :: pieces f size (a + k) (n - k)

/-- A transfer into host memory (R375): write requests of at most Max_Payload_Size. -/
def hostWrite (s : State) (addr : Nat) (data : List Byte) (ro : Bool) : State :=
  let relaxed := ro && bitOf (cfgDw s 0x78) 4
  each (pieces (data.length + 1) (mps s) addr data.length)
    (fun s p => send s (.hostWrite p.1 ((data.drop (p.1 - addr)).take p.2) relaxed)) s

/-! Tags (R376, R342, R343). -/

/-- First tag, pool size, delivery's reserve (Table 13-11). PRESUMED (log 28). -/
def tagPool (s : State) : Nat × Nat × Nat :=
  if rdB s HEP_LINK_FLIT && bitOf (cfgDw s 0x2A8) 2 then (0, 1024, 64)
  else if bitOf (cfgDw s 0x98) 12 then (256, 768, 48)
  else if bitOf (cfgDw s 0x78) 8 then (0, 256, 16)
  else (0, 32, 2)

/-- The channel of a DMA request. -/
def Requester.channel : Requester → Option Nat
  | .queueRing _ => none
  | .dmaDesc c | .dmaStop c | .dmaNext c | .dmaData c _ | .dmaIndex c | .dmaBarrier c => some c

/-- The enable register of a channel. -/
def dmaEn (c : Nat) : Nat := 0x131000 + 0x40 * c

/-- Whether two reads belong to one requester. -/
def sameRequester (a b : Requester) : Bool :=
  match a, b with
  | .queueRing p, .queueRing q => p == q
  | a, b => a.channel.isSome && a.channel == b.channel

/-- Outstanding DMA reads, and the completion buffer they hold. -/
def dmaReads (s : State) : List (Nat × ReadReqS) := s.hep.tags.filter (fun p => p.2.who.channel.isSome)
def readBytes (l : List (Nat × ReadReqS)) : Nat := l.foldl (fun a p => a + p.2.len) 0

/-! Staging of the engines (R328): a read into HBM holds its room from its issue until its data is written. A write takes its bytes from HBM in its own turn and leaves with it, so that it needs no
more than the channel's reserved page. DESIGN CHOICE (log 27). -/

/-- Bytes of host data on their way into HBM for channel `c`: asked for, or arrived and waiting behind an earlier read (R377). -/
def stagedBytes (s : State) (c : Nat) : Nat :=
  let is := fun (r : ReadReqS) => !r.discard && (match r.who with | .dmaData d _ => d == c | _ => false)
  readBytes (s.hep.tags.filter (fun p => is p.2)) + (s.hep.ready.filter is).foldl (fun a r => a + r.len) 0

/-- 4 KB pages a channel holds with so many bytes staged: the reserved page and what it takes of the pool. -/
def pagesFor (n : Nat) : Nat := max 1 ((n + 4095) / 4096)

/-- Pages the channels hold: each channel not DISABLED holds one at least. -/
def dmaPages (s : State) : Nat :=
  ((List.range 128).filter (fun c => enState s (dmaEn c) != 0)).foldl (fun a c => a + pagesFor (stagedBytes s c)) 0

/-- Whether a request finds staging for its data: within MAXSTAGE, and in the pages delivery does not own (R309). -/
def canStage (s : State) (r : ReadReqS) : Bool :=
  match r.who with
  | .dmaData c _ =>
    let old := pagesFor (stagedBytes s c)
    let new := pagesFor (stagedBytes s c + r.len)
    decide (new ≤ 4 * orOne (rd s (DMA_CH_CFG_MAXSTAGE c))) &&
      decide (new ≤ old ∨ dmaPages s + (new - old) ≤ 256 * (8 - orOne (rd s DLV_STAGE_SHARE)))
  | _ => true

/-- Whether a request finds a tag and buffer space (R342, R343, R376). -/
def canIssue (s : State) (r : ReadReqS) : Bool :=
  let p := tagPool s
  let used := s.hep.tags.length + s.hep.quar.length
  decide (used < p.2.1) && decide (readBytes s.hep.tags + r.len ≤ 524288) &&
    (r.who.channel.isNone ||
      (decide ((dmaReads s).length + s.hep.quar.length < p.2.1 - p.2.2) && decide (readBytes (dmaReads s) + r.len ≤ 491520)))

/-- The lowest free tag. -/
def freeTag (s : State) : Option Nat :=
  let p := tagPool s
  ((List.range p.2.1).map (· + p.1)).find? (fun t => !(s.hep.tags.any (fun x => x.1 == t)) && !s.hep.quar.contains t)

/-- Send a read request under a free tag. -/
def issueRead (s : State) (r : ReadReqS) : State :=
  match freeTag s with
  | none => s
  | some t => send { s with hep := { s.hep with tags := s.hep.tags ++ [(t, r)] } } (.hostRead t r.addr r.len)

/-- The waiting requests of one engine's `n` channels from `lo` on, served in turn: the channels after `last`, each with its WEIGHT of requests (R329). -/
def engineTurn (s : State) (lo n last : Nat) (l : List ReadReqS) : List ReadReqS :=
  let ofCh := fun (c : Nat) => l.filter (fun r => r.who.channel == some c)
  ((List.range n).map (fun i => lo + (last - lo + 1 + i) % n)).flatMap (fun c => (ofCh c).take (orOne (rd s (DMA_CH_CFG_WEIGHT c))))

/-- One turn of every channel of both engines. -/
def dmaTurn (s : State) (l : List ReadReqS) : List ReadReqS :=
  engineTurn s 0 32 s.hep.servedRd l ++ engineTurn s 32 96 s.hep.servedWr l

/-- The channel served last of its engine. -/
def noteServed (s : State) (w : Requester) : State :=
  match w.channel with
  | none => s
  | some c => if c < 32 then { s with hep := { s.hep with servedRd := c } } else { s with hep := { s.hep with servedWr := c } }

/-- Issue the requests of a list that find a tag, buffer space and staging, in order; a requester that cannot issue passes its turn on (R329). The requesters of `no` have done so.
Answers the requests not issued, and whether the bound of R342 stopped one of them. -/
def issueAll : State → List Requester → List ReadReqS → State × List ReadReqS × Bool
  | s, _, [] => (s, [], false)
  | s, no, r :: l =>
    if no.any (sameRequester r.who) then
      let x := issueAll s no l
      (x.1, r :: x.2.1, x.2.2)
    else if canIssue s r && canStage s r then issueAll (issueRead (noteServed s r.who) r) no l
    else
      let x := issueAll s (r.who :: no) l
      (x.1, r :: x.2.1, x.2.2 || !canIssue s r)

/-- One round of service of every waiting request: delivery's first, then one turn of each DMA channel. -/
def pumpOnce (s : State) : State :=
  let w := s.hep.wait
  let q := w.filter (fun r => r.who.channel.isNone)
  let a := issueAll { s with hep := { s.hep with wait := [] } } [] q
  let d := w.filter (fun r => r.who.channel.isSome)
  let turn := dmaTurn s d
  let b := issueAll a.1 [] turn
  let left := d.filter (fun r => !(turn.contains r) || b.2.1.contains r)
  { b.1 with hep := { b.1.hep with wait := a.2.1 ++ left, atBound := b.2.2 } }

/-- Serve waiting requests while that issues more (R329, R343). The first argument bounds the rounds. -/
def pumpReads : Nat → State → State
  | 0, s => s
  | n + 1, s =>
    if !mayIssue s || s.hep.wait.isEmpty then s else
    let t := pumpOnce s
    if t.hep.wait.length < s.hep.wait.length then pumpReads n t else t

/-- The engines' requests that wait. -/
def dmaWaiting (s : State) : Nat := (s.hep.wait.filter (fun r => r.who.channel.isSome)).length

/-- Serve the waiting reads. DMA_CNT_BOUND counts the stop at the bound of R342 when issuing had not stopped there before, or went on since (R343). -/
def serveReads (s : State) : State :=
  let t := pumpReads 1024 s
  onlyIf (t.hep.atBound && (!s.hep.atBound || decide (dmaWaiting t < dmaWaiting s))) (fun t => addWrap t DMA_CNT_BOUND_COUNT 1) t

/-- Ask for a read of host memory (R375): its requests join those that wait for tags. -/
def wantRead (s : State) (who : Requester) (addr len : Nat) : State :=
  let ps := if len = 0 then [(addr, 0)] else pieces (len + 1) (mrrs s) addr len
  let s := laterOnce s .pump
  each ps (fun s p => { s with hep := { s.hep with nextId := s.hep.nextId + 1, wait := s.hep.wait ++ [{ id := s.hep.nextId, who := who, addr := p.1, len := p.2 }] } }) s

/-! Errors. -/

/-- A correctable error (R385): counted, in its window (Table 19-4), raised; a message where Device Control and the mask let it. PRESUMED (log 28). -/
def correctable (s : State) (bit : Nat) : State :=
  let s := cfgOr (cfgOr s 0x110 (2 ^ bit)) 0x78 (2 ^ 16)
  let s := raise (windowInc (addSat s HEP_CNT_CORR_COUNT 1) 82 1) srcHepCorr
  if bitOf (cfgDw s 0x78) 0 && !bitOf (cfgDw s 0x114) bit then send s (.errMsg 0) else s

/-! Headers of TLPs as AER logs them (R365, R380), outside Flit Mode. PRESUMED (log 28). -/

/-- The first two dwords of a request's header: format and type, dwords of data, whether poisoned, who asks, byte enables of the first and last dword. -/
def reqHead (ty dws : Nat) (ep : Bool) (x : TlpId) (first last : Nat) : List Nat :=
  [ty * 2 ^ 24 + bitsOf x.tag.toNat 9 9 * 2 ^ 23 + bitsOf x.tag.toNat 8 8 * 2 ^ 19 + bitsOf x.attr.toNat 2 2 * 2 ^ 18 + 2 ^ 14 * b2n ep + bitsOf x.attr.toNat 1 0 * 2 ^ 12 + dws % 1024,
   x.requester.toNat * 2 ^ 16 + x.tag.toNat % 256 * 2 ^ 8 + last * 2 ^ 4 + first]

/-- The header of a memory request: a write or a read, the bytes it enables from an address on. -/
def memHead (write ep : Bool) (a : Nat) (en : List Bool) (x : TlpId) : List Nat :=
  let l := List.replicate (a % 4) false ++ en
  let dws := max 1 ((l.length + 3) / 4)
  let be := fun (i : Nat) => ((l.drop (4 * i)).take 4).zipIdx.foldl (fun n p => n + b2n p.1 * 2 ^ p.2) 0
  let wide := decide (2 ^ 32 ≤ a)
  reqHead (0x20 * b2n wide + 0x40 * b2n write) dws ep x (be 0) (if dws = 1 then 0 else be (dws - 1)) ++
    (if wide then [a / 2 ^ 32 % 2 ^ 32, a % 2 ^ 32 / 4 * 4] else [a / 4 * 4, 0])

/-- The header of a completion under a tag. -/
def cplHead (t : Nat) (x : Cpl) : List Nat :=
  [(if x.data.isEmpty then 0x0A else 0x4A) * 2 ^ 24 + bitsOf t 9 9 * 2 ^ 23 + bitsOf t 8 8 * 2 ^ 19 + (if x.status = .poisoned then 2 ^ 14 else 0) + (x.data.length + x.lower.toNat % 4 + 3) / 4 % 1024,
   x.completer.toNat * 2 ^ 16 + (match x.status with | .unsupported => 1 | .abort => 4 | _ => 0) * 2 ^ 13 + x.count.toNat,
   x.requester.toNat * 2 ^ 16 + t % 256 * 2 ^ 8 + x.lower.toNat, 0]

/-- The header log takes a header; in Flit Mode, whose header forms the spec does not give, its words are free values. -/
def headLog (s : State) (h : List Nat) : State :=
  each (List.range 4) (fun s i => if rdB s HEP_LINK_FLIT then cfgSet (freeNext s) (0x11C + 4 * i) (freeNat s % 2 ^ 32) else cfgSet s (0x11C + 4 * i) (h[i]?.getD 0)) s

/-- An uncorrectable error is logged (R378, R380): its status bit, and for the first one that is not masked the First Error Pointer and the header of its TLP, where it has one. PRESUMED (log 28). -/
def logError (s : State) (bit : Nat) (tlp : Option (List Nat)) : State :=
  let first := cfgDw s 0x104 == 0 && !bitOf (cfgDw s 0x108) bit
  let s := cfgOr s 0x104 (2 ^ bit)
  if !first then s else
  let s := cfgSet s 0x118 (cfgDw s 0x118 / 32 * 32 + bit)
  match tlp with
  | none => s
  | some h => headLog s h

/-- An uncorrectable error logged as Advisory Non-Fatal (R365, R380, R381), with the header of its TLP. PRESUMED (log 28). -/
def advisory (s : State) (bit : Nat) (head : List Nat) : State := correctable (logError s bit (some head)) 13

/-- An uncorrectable error signalled at its programmed severity (R378): a message where Device Control or SERR# Enable lets it, and with the latter Signaled System Error. PRESUMED (log 28). -/
def uncorrectable (s : State) (bit : Nat) (tlp : Option (List Nat)) : State :=
  let fatal := bitOf (cfgDw s 0x10C) bit
  let s := cfgOr (logError s bit tlp) 0x78 (if fatal then 2 ^ 18 else 2 ^ 17)
  let serr := bitOf (cfgDw s 0x04) 8
  if bitOf (cfgDw s 0x108) bit || !(bitOf (cfgDw s 0x78) (if fatal then 2 else 1) || serr) then s
  else send (if serr then cfgOr s 0x04 (2 ^ 30) else s) (.errMsg (if fatal then 2 else 1))

end Sys2Proof.Machine
end

