-- ==== Sys2Proof/Machine/Trails.lean ====
section
/-! DEFINITION. Encoder ports, trails and pulse dividers (03_position_trails.md): counting, interpolation, soft limits, the two
speed methods, serial ports, home and limit inputs, virtual trails, dividers, and Lantern's corrections. -/

namespace Sys2Proof.Machine

/-! Reading a trail. -/

/-- The trail's own state. -/
def trl (s : State) (t : Nat) : Trail := mget {} s.trl t

/-- Set the trail's own state. -/
def setTrl (s : State) (t : Nat) (x : Trail) : State := { s with trl := mput {} s.trl t x }

/-- The MODE of the port of trail `t` (Table 3-12): 0 off, 1 incremental, 2 BiSS-C, 3 SSI. -/
def portMode (s : State) (p : Nat) : Nat := rd s (TRL_PORT_CFG_MODE p)

/-- Whether trail `t` is an enabled virtual trail, and of which kind (R89, R90). -/
def isVirtual (t : Nat) : Bool := decide (8 ≤ t) && decide (t < 12)
def venAddr (t : Nat) : Nat := 0x40850 + 0x100 * (t - 8)
def ratioOn (s : State) (t : Nat) : Bool := isVirtual t && enabled s (venAddr t) && !rdCB s (TRL_VCFG_TETHER (t - 8))
def tetherOn (s : State) (t : Nat) : Bool := isVirtual t && enabled s (venAddr t) && rdCB s (TRL_VCFG_TETHER (t - 8))

/-- The SPD updates that have come due (R79). -/
def trlDue (now : Nat) (x : Trail) : Trail :=
  let y := (x.upds.filter (fun u => decide (u.due ≤ now))).foldl
    (fun (y : Trail) u => { y with spd := u.spd.getD y.spd, st := u.st }) x
  { y with upds := x.upds.filter (fun u => decide (now < u.due)) }

/-- The tether slot of a tether trail (R452). -/
def tthSlot (s : State) (t : Nat) : TthSlot := mget {} s.tth.slots (rdC s (TRL_VCFG_MGR_TRAIL (t - 8)))

/-- Whether the port of trail `t` is in line break (R66): A or B is; a tether trail whose slot is held behaves so (R454). -/
def lineBroken (s : State) (t : Nat) : Bool :=
  if t < 8 then rdB s (TRL_PIN_A_LB t) || rdB s (TRL_PIN_B_LB t) else tetherOn s t && (tthSlot s t).frozen.isSome

/-- The speed of a trail fed by edges (R78): reduced while no edge comes for longer than the last interval. -/
def decayed (now : Nat) (x : Trail) : Int :=
  let d := now - x.lastEdge
  if x.lastIv = 0 || decide (d ≤ x.lastIv) then x.spd
  else signBy (decide (x.spd < 0)) (min x.spd.natAbs (16 * 10 ^ 9 / d))

/-- Whether the speed of a trail with a port is valid (R80, R85, R66). -/
def portSpeedValid (s : State) (t : Nat) : Bool :=
  let x := trlDue (motNow s) (trl s t)
  !lineBroken s t && (decide (portMode s t < 2) || decide ((mget ({} : SerialPort) s.ser t).discards < 8)) &&
    (x.st == .running || (x.st == .still))

/-- Interpolated distance since the boundary (R69) at 2^-16 subcount, in whole MOT cycles. DEDUCED (log 16). -/
def travel16 (s : State) (t : Nat) (x : Trail) : Nat :=
  if portSpeedValid s t then min (255 * 65536) ((decayed (motNow s) x).natAbs * (motNow s - x.edgeAt) * 65536 / 62500000) else 0

/-- Interpolated travel since the boundary (R69), in subcounts. -/
def travel (s : State) (t : Nat) (x : Trail) : Nat := travel16 s t x / 65536

/-- Distance a serial trail has been extrapolated since its last sample (R83) at 2^-16 subcount: by SPD, limited to the change between the last two samples; none in a
line break, which holds POS (R66), nor past a STILL, which keeps what it has come to. DEDUCED (log 16). -/
def stretch16 (s : State) (t : Nat) (x : Trail) : Nat :=
  match (mget ({} : SerialPort) s.ser t).hist with
  | p1 :: p2 :: _ =>
    if lineBroken s t then 0
    else min ((p1.1 - p2.1).natAbs * 65536) (x.spd.natAbs * (motNow s - x.edgeAt) * 65536 / 62500000)
  | _ => 0

/-- How far a trail with a port stands from its base, at 2^-16 subcount, and whether backwards: nothing while it is held at a limit (R70) or its port is off (R80). -/
def move16 (s : State) (t : Nat) (x : Trail) : Nat × Bool :=
  if portMode s t = 1 then (if x.satDir.isSome then 0 else travel16 s t x, x.neg)
  else if portMode s t = 0 then (0, false)
  else
    let d := (mget ({} : SerialPort) s.ser t).ext + signBy (decide (x.spd < 0)) (stretch16 s t x : Int)
    (d.natAbs, decide (d < 0))

/-- POS before the soft limits of a trail with a port: boundary plus travel for an incremental trail (R69), the last sample
plus limited extrapolation for a serial one (R83). DEDUCED (log 16). -/
def rawPos (s : State) (t : Nat) : Int :=
  let x := trlDue (motNow s) (trl s t)
  let m := move16 s t x
  x.base + signBy m.2 ((m.1 / 65536 : Nat) : Int)

/-- POS limited to the trail's last valid soft limits (R70, R71). -/
def limited (x : Trail) (p : Int) : Int := if p < x.limMin then x.limMin else if x.limMax < p then x.limMax else p

/-- S of a slot in this MOT cycle (R453), at 2^-16 subcount, the resolution stakes compare with: with the speed term over the time since the beat's reference instant at the manager, in steps of 125 ps. -/
def slot16 (s : State) (x : TthSlot) : Int :=
  match x.frozen with
  | some v => v * 256
  | none =>
    if x.spdValid then x.s * 256 + floorDiv (65536 * x.spd * (8 * (motNow s : Int) - (x.rxAt : Int) + 384 * (rd s TTH_STATUS_HOP : Int))) 500000000 else x.s * 256

/-- S of a slot in this MOT cycle at 2^-8 subcount, rounded down. -/
def slotNow (s : State) (x : TthSlot) : Int := floorDiv (slot16 s x) 256

/-- POS of trail `t` before its own soft limits (Table 3-2), in subcounts: ports, ratio trails of a lower trail (R89), tether trails (R453), and the last value
of a virtual trail that is not ENABLED (R80). The first argument bounds the chain of ratio trails. -/
def posFuel : Nat → State → Nat → Int
  | 0, _, _ => 0
  | n + 1, s, t =>
    if t < 8 then rawPos s t
    else if ratioOn s t then
      let src := rdC s (TRL_VCFG_SRC (t - 8))
      rdI s (TRL_VOFFSET_OFFSET (t - 8)) + floorDiv (limited (trl s src) (posFuel n s src) * rdCI s (TRL_VNUM_NUM (t - 8))) (rdC s (TRL_VDEN_DEN (t - 8)))
    else if tetherOn s t then rdI s (TRL_VOFFSET_OFFSET (t - 8)) + floorDiv (slotNow s (tthSlot s t)) 256
    else (trl s t).base

/-- POS of trail `t` (R70); a null trail (R573) stands at 0. DEDUCED (log 16). -/
def posNow (s : State) (t : Nat) : Int := if t < 12 then limited (trl s t) (posFuel 5 s t) else 0

/-- The trail whose port or slot a trail follows: itself, or the source of a ratio trail (R89). -/
def rootTrail : Nat → State → Nat → Nat
  | 0, _, t => t
  | n + 1, s, t => if ratioOn s t then rootTrail n s (rdC s (TRL_VCFG_SRC (t - 8))) else t

/-- SPEED_VALID of trail `t` (R80, R89, R452, R573). -/
def speedValid (s : State) (t : Nat) : Bool :=
  let r := rootTrail 5 s t
  if 12 ≤ r then false
  else if r < 8 then portMode s r != 0 && portSpeedValid s r
  else if tetherOn s r then (tthSlot s r).spdValid && (tthSlot s r).frozen.isNone
  else false

/-- SPD of a trail that is no ratio trail (R74, R78): measured, or sent by the manager. R78's reduction is for trails with edges; on a serial trail, where samples stand for
edges, R78 does not say whether it applies: it does not. DESIGN CHOICE (log 16). -/
def spdRoot (s : State) (t : Nat) : Int :=
  if t < 8 then (if portMode s t = 0 then 0 else
    let x := trlDue (motNow s) (trl s t)
    if portMode s t = 1 then decayed (motNow s) x else x.spd)
  else if tetherOn s t then (tthSlot s t).spd
  else 0

/-- SPD of trail `t` from the speed `f` of its root, scaled by each ratio trail on the way (R89). -/
def spdFuel (f : Nat → Int) : Nat → State → Nat → Int
  | 0, _, _ => 0
  | n + 1, s, t =>
    if ratioOn s t then
      satSigned 32 (truncDiv (spdFuel f n s (rdC s (TRL_VCFG_SRC (t - 8))) * rdCI s (TRL_VNUM_NUM (t - 8))) (rdC s (TRL_VDEN_DEN (t - 8))))
    else f t

/-- SPD of trail `t`. -/
def spdNow (s : State) (t : Nat) : Int := if t < 12 then spdFuel (spdRoot s) 5 s t else 0

/-! The position stakes compare (R132), at 2^-16 subcount: without the floor of R69. -/

/-- P of a trail that is no ratio trail. -/
def root16 (s : State) (t : Nat) : Int :=
  let x := trlDue (motNow s) (trl s t)
  let m := move16 s t x
  let r := if t < 8 then x.base * 65536 + signBy m.2 (m.1 : Int)
    else if tetherOn s t then rdI s (TRL_VOFFSET_OFFSET (t - 8)) * 65536 + slot16 s (tthSlot s t)
    else x.base * 65536
  clampInt (x.limMin * 65536) (x.limMax * 65536) r

/-- P of trail `t` from P `f` of its root, scaled by each ratio trail on the way (R89). DEDUCED (log 16). -/
def chain16 (f : Nat → Int) : Nat → State → Nat → Int
  | 0, _, _ => 0
  | n + 1, s, t =>
    if ratioOn s t then
      clampInt ((trl s t).limMin * 65536) ((trl s t).limMax * 65536) (rdI s (TRL_VOFFSET_OFFSET (t - 8)) * 65536 +
        floorDiv (chain16 f n s (rdC s (TRL_VCFG_SRC (t - 8))) * rdCI s (TRL_VNUM_NUM (t - 8))) (rdC s (TRL_VDEN_DEN (t - 8))))
    else f t

/-- P of trail `t` now. -/
def pos16 (s : State) (t : Nat) : Int := if t < 12 then chain16 (root16 s) 5 s t else 0

/-- The state as the MOT cycle before this one sees the clock. -/
def cycleBefore (s : State) : State := { s with now := motNow s - 2 }

/-- The snapshot of a trail that is no ratio trail one MOT cycle ago: as kept when the trail changed in this cycle, else as it stood. -/
def snapPrev (s : State) (t : Nat) : TrailSnap :=
  let s' := cycleBefore s
  let v := if t < 8 then portMode s' t != 0 && portSpeedValid s' t else tetherOn s' t && (tthSlot s' t).spdValid && (tthSlot s' t).frozen.isNone
  let x : TrailSnap := ⟨s.now / 2, root16 s' t, spdRoot s' t, v⟩
  match (trl s t).snap with
  | some q => if q.cyc = s.now / 2 then q else x
  | none => x

/-- P, SPD and SPEED_VALID of trail `t` one MOT cycle ago (R144). -/
def pos16Prev (s : State) (t : Nat) : Int := if t < 12 then chain16 (fun r => (snapPrev s r).p) 5 s t else 0
def spdPrev (s : State) (t : Nat) : Int := if t < 12 then spdFuel (fun r => (snapPrev s r).spd) 5 s t else 0
def validPrev (s : State) (t : Nat) : Bool := if t < 12 then (snapPrev s (rootTrail 5 s t)).valid else false

/-- The speed state a trail shows (R80). -/
def speedState (s : State) (t : Nat) : SpeedState :=
  let r := rootTrail 5 s t
  if r < 8 then (trlDue (motNow s) (trl s r)).st
  else if r < 12 && tetherOn s r then (tthSlot s r).st else .none

/-- UNTRUSTED of trail `t`: a ratio trail shows its source's (R89), a null trail 1 (R573). -/
def untrusted (s : State) (t : Nat) : Bool :=
  let r := rootTrail 5 s t
  if r < 12 then rdB s (TRL_STATUS_UNTRUSTED r) else true

/-- The limit a position `r` is held at (R70): the minimum (true) or the maximum, as it passes them, and until it lies inside again. -/
def satNext (lo hi r : Int) (old : Option Bool) : Option Bool :=
  if r < lo then some true else if hi < r then some false
  else match old with
    | some true => if r = lo then some true else none
    | some false => if r = hi then some false else none
    | none => none

/-- The limit trail `t` is held at now (R70): an incremental trail once held stays so until an edge the other way. DEDUCED (log 16). -/
def satOf (s : State) (t : Nat) : Option Bool :=
  let x := trl s t
  if t < 8 && portMode s t == 1 && x.satDir.isSome then x.satDir else satNext x.limMin x.limMax (posFuel 5 s t) x.satDir

/-- Whether POS of trail `t` is held at a soft limit now (R70). -/
def satNow (s : State) (t : Nat) : Bool := (satOf s t).isSome

/-- TRL_STATUS as it reads (Table 3-7): the live bits over the sticky ones. DIR of a ratio trail is its root's: R89 does not name it. DESIGN CHOICE (log 16). -/
def trlStatus (s : State) (t : Nat) : Nat :=
  let sticky := rd s ⟨0x4000C + 0x100 * t, 0, 32⟩
  let keep := Nat.land sticky 0x3F500
  let st := speedState s t
  keep + b2n (speedValid s t) + 2 * b2n (st == .still) + 4 * b2n (st == .starting || st == .startingNoDir)
    + 8 * b2n (st == .reversed) + 16 * b2n (trl s (rootTrail 5 s t)).dir + 32 * b2n (trl s t).windowM + 64 * b2n (satNow s t)
    + 128 * b2n (bitOf sticky 7 || (satNow s t && (trl s t).satDir.isNone)) + 512 * b2n (lineBroken s t) + 2048 * b2n (untrusted s t)

/-! Moving a trail. -/

/-- Bring a trail up to date: its state one MOT cycle ago is kept, speed updates that are due and the reduction of R78 are stored, a soft limit it has come to (R70), and that a virtual trail
has moved from where an invalid source or a held slot left it (Table 5-2). -/
def trlSync (s : State) (t : Nat) : State :=
  let x := trlDue (motNow s) (trl s t)
  let sat := satOf s t
  let y := { x with snap := some (snapPrev s t), barred := x.barred && (t < 8 || posNow s t == x.base), spd := (if t < 8 && portMode s t == 1 then decayed (motNow s) x else x.spd), satDir := sat }
  onlyIf (sat.isSome && sat != x.satDir) (fun s => wr s (TRL_STATUS_SAT t) 1) (setTrl s t y)

/-- Bring the enabled virtual trails up to date. -/
def virtSync (s : State) : State := each (below 12 (fun t => isVirtual t && enabled s (venAddr t))) trlSync s

/-- Bring a trail and the virtual trails up to date before the trail changes. -/
def trlOpen (s : State) (t : Nat) : State := virtSync (trlSync s t)

/-- A trail has changed: virtual trails come to limits with it, and the dividers on it follow (R92). -/
def trlMoved (s : State) (t : Nat) : State := later (virtSync s) (.moved t)

/-- The whole count a trail stands in: the count on the upper side of its boundary after a positive edge, on the lower side after a
negative one (R68). -/
def trlCount (x : Trail) : Int := if x.neg then floorDiv x.base 256 - 1 else floorDiv x.base 256

/-- What is on its way to Lantern for a port (R94). -/
def corrInFlight (s : State) (p : Nat) : Int :=
  let v := mget ({} : CorrS) s.corr p
  v.fly.getD 0 + v.sum

/-- A correction toward Lantern (R94): it crosses as it is when the crossing is idle, else it joins the saturating 32-bit sum; a saturated sum marks the
shadow untrusted. -/
def sendCorrection (s : State) (p : Nat) (c : Int) : State :=
  if c = 0 then s else
  let v := mget ({} : CorrS) s.corr p
  if v.fly.isNone then { s with corr := mput {} s.corr p { v with fly := some c } } else
  let s1 := { s with corr := mput {} s.corr p { v with sum := satSigned 32 (v.sum + c) } }
  if satSigned 32 (v.sum + c) = v.sum + c then s1 else wr s1 (LAN_PORT_STATUS_UNTRUSTED p) 1

/-- Record an SPD change that takes effect four MOT cycles later (R79). -/
def speedLater (s : State) (x : Trail) (spd : Option Int) (st : SpeedState) : Trail :=
  { x with upds := x.upds ++ [⟨motNow s + 8, spd, st⟩] }

/-- 16 k 10^9 / d, signed (R75, R76), limited to the 32-bit register (R74). -/
def speedOf (neg : Bool) (k d : Nat) : Int := satSigned 32 (signBy neg ((16 * k * 10 ^ 9 / max d 1 : Nat) : Int))

/-- An edge's effect on the speed measurement (R75, Table 3-4); `neg` is the edge's direction. DEDUCED (log 16). -/
def speedEdge (s : State) (t : Nat) (x : Trail) (neg : Bool) : Trail :=
  let now := motNow s
  let restart : Trail := { x with edges := [now], winN := 1, winFirst := now, winLast := now, lastIv := 0, lastEdge := now, dir := neg }
  match x.mst with
  | .still => speedLater s { restart with mst := .starting } (some 0) .starting
  | .startingNoDir => speedLater s { restart with mst := .starting } none .starting
  | .none => restart
  | m =>
    if neg = x.dir then
      let es := (now :: x.edges).take 64
      let fromRun := m == .running
      let k := if fromRun then min (orOne (rd s (TRL_SPDCFG_PINT t))) (es.length - 1) else 1
      let v := speedOf neg k (now - es.getD k now)
      let y : Trail := { x with edges := es, winN := x.winN + 1, winFirst := (if x.winN = 0 then now else x.winFirst), winLast := now, lastIv := now - x.lastEdge, lastEdge := now, mst := .running }
      speedLater s y (if fromRun && x.windowM then none else some v) .running
    else speedLater s { restart with mst := .reversed } (some 0) .reversed

/-- Move the count across boundary by one edge (R68, R70, R73): at a held limit edges in the saturating direction are
discarded, the first edge the other way is the recrossing of the limit. Answers the trail and the change the shadow needs. DEDUCED (log 16). -/
def countEdge (s : State) (x : Trail) (neg : Bool) : Trail × Int × Bool :=
  let edge : Int := if neg then -1 else 1
  if x.presetAt = some (s.now / 2) then ({ x with presetAt := none }, -edge, false)
  else match x.satDir with
    | some d =>
      if neg = d then (x, -edge, false)
      else
        let y := { x with satDir := none, base := (if d then x.limMin else x.limMax), neg := neg, edgeAt := motNow s, barred := false }
        (y, trlCount y - (trlCount x + edge), false)
    | none =>
      let c := trlCount x
      let b := if neg then c * 256 else (c + 1) * 256
      if b < x.limMin || x.limMax < b then
        ({ x with satDir := some neg, base := limited x b, edgeAt := motNow s }, -edge, true)
      else ({ x with base := b, neg := neg, edgeAt := motNow s, barred := false }, 0, false)

/-- An illegal transition (R64). DEDUCED (log 16). -/
def trlIllegal (s : State) (t : Nat) : State :=
  let x := trl s t
  let y := speedLater s { x with mst := .startingNoDir, edges := [], winN := 0, lastIv := 0, lastEdge := motNow s } (some 0) .startingNoDir
  let s := setTrl s t y
  let s := wr s (TRL_STATUS_ILLEGAL t) 1
  let s := addSat s (TRL_CNT_ILLEGAL_COUNT t) 1
  let s := later s (.gyl (176 + t) 0)
  windowInc s (32 + t) 1

/-- Whether a change of A (or of B) is a decoded edge (R61), and its direction before INVERT: B leading A is positive. -/
def decodeEdge (dec : Nat) (chgA : Bool) (a b : Bool) : Option Bool :=
  if chgA then
    if dec = 2 && !a then none else some (a != b)
  else if dec = 1 || dec = 2 then none else some (a == b)

/-! The front end of a port, as Lantern hands its count back (R479). -/

/-- N_L of a port (R472): the filter length in AON samples. -/
def lanN (s : State) (p : Nat) : Nat := max 2 ((rd s (TRL_PORT_CFG_FILT_N p) * 4 + 124) / 125)

/-- A port's front end. -/
def front (s : State) (p : Nat) : FrontEnd := mget {} s.pwr.front p

/-- Whether no edge of a port has been completed in the last N_L + 2 AON cycles (R479). -/
def quietNow (s : State) (p : Nat) : Bool :=
  match (front s p).lastAt with
  | none => true
  | some t => decide ((lanN s p + 2) * 125 ≤ 2 * (s.now - t))

/-- Lantern or the front end completes an edge of a port: the instant before it, when quiet, is the capture; `d` is what the front end counts. -/
def frontNote (s : State) (p : Nat) (d : Int) : State :=
  let f := front s p
  let f : FrontEnd := if quietNow s p then { lastAt := some s.now, quiet := some (s.now, rdI s (LAN_SHADOW_SHADOW p)), n := d }
    else { f with lastAt := some s.now, n := f.n + d }
  { s with pwr := { s.pwr with front := mput {} s.pwr.front p f } }

/-- New filtered levels of A and B of a port (R61, R64, R66, R68). DEDUCED (log 16). -/
def encoderEdge (p : Nat) (a b : Bool) (s : State) : State :=
  let oa := rdB s (TRL_PIN_A p)
  let ob := rdB s (TRL_PIN_B p)
  let s := trlOpen s p
  let s := wrB (wrB s (TRL_PIN_A p) a) (TRL_PIN_B p) b
  if portMode s p != 1 || lineBroken s p then s
  else if a != oa && b != ob then trlIllegal s p
  else if a == oa && b == ob then s
  else
    match decodeEdge (rd s (TRL_PORT_CFG_DECODE p)) (a != oa) a b with
    | none => s
    | some n0 =>
      let neg := n0 != rdB s (TRL_PORT_CFG_INVERT p)
      let s := frontNote s p (if neg then -1 else 1)
      let r := countEdge s (trl s p) neg
      let s := setTrl s p (speedEdge s p r.1 neg)
      let s := onlyIf r.2.2 (fun s => wr s (TRL_STATUS_SAT p) 1) s
      trlMoved (sendCorrection s p r.2.1) p

/-- The measurement of a serial port starts over from its last sample; its extrapolation stands at `ext`, at 2^-16 subcount, until the next one (R83). -/
def serialSettle (s : State) (p : Nat) (ext : Int) : State :=
  if 2 ≤ portMode s p then
    let q := mget ({} : SerialPort) s.ser p
    { s with ser := mput {} s.ser p { q with hist := q.hist.take 1, ivs := 0, ext := ext } }
  else s

/-- A pair of a port enters line break (R65, R66): the trail holds POS, and no stake on it fires until it moves (Table 5-2). -/
def lineBreakEnter (p : Nat) (pair : Nat) (s : State) : State :=
  if pair = 2 then
    if rdB s (TRL_PORT_CFG_Z_EN p) && !rdB s (TRL_PIN_Z_LB p) then
      let s := wr (wr s (TRL_PIN_Z_LB p) 1) (TRL_STATUS_LB_SEEN p) 1
      setTrl s p { trl s p with zPrev := none }
    else s
  else
    let f := if pair = 0 then TRL_PIN_A_LB p else TRL_PIN_B_LB p
    let was := lineBroken s p
    let s := trlOpen s p
    let hold := if portMode s p < 2 then (trl s p).base else rawPos s p
    let s := wr s f 1
    if was then s else
    let s := setTrl (serialSettle s p 0) p { trl s p with base := hold, edgeAt := motNow s, barred := true }
    let s := wr (wr s (TRL_STATUS_LB_SEEN p) 1) (TRL_STATUS_UNTRUSTED p) 1
    let s := wr s (LAN_PORT_STATUS_UNTRUSTED p) 1
    let s := later s (.gyl (176 + p) 0)
    trlMoved (windowInc s (40 + p) 1) p

/-- A trail's speed state becomes STILL at once, with SPD = 0 (R79, Table 3-4); a serial trail keeps the POS it has been extrapolated to (R83). -/
def trlStill (s : State) (t : Nat) : State :=
  let s := trlOpen s t
  let x := trl s t
  if x.mst = .none then s else
  let s := serialSettle s t (let m := move16 s t (trlDue (motNow s) x); signBy m.2 (m.1 : Int))
  trlMoved (setTrl s t { x with st := .still, mst := .still, spd := 0, upds := [], edges := [], winN := 0, lastIv := 0 }) t

/-- A pair leaves line break (R65, R66): when neither A nor B is in it, the speed state is STILL; the next index capture after a break on Z is not checked (R67). -/
def lineBreakClear (p : Nat) (pair : Nat) (s : State) : State :=
  if pair = 2 then setTrl (wr s (TRL_PIN_Z_LB p) 0) p { trl s p with zPrev := none }
  else
    let was := lineBroken s p
    let s := wr s (if pair = 0 then TRL_PIN_A_LB p else TRL_PIN_B_LB p) 0
    if was && !lineBroken s p then trlStill s p else s

/-- A trail's standstill timeout (R80): no edge and no illegal transition for STILL_MS. -/
def standstill (t : Nat) (s : State) : State :=
  let x := trl s t
  if t < 8 && x.mst != .none && x.mst != .still then trlStill s t else s

/-- A window of the speed measurement ends (R76, R77). -/
def speedWindowEnd (t : Nat) (s : State) : State :=
  if !(decide (t < 8) && portMode s t == 1) then s else
  let s := trlSync s t
  let x := trl s t
  let m := if x.winN < 48 then false else if 80 < x.winN then true else x.windowM
  let y : Trail := { x with windowM := m, winN := 0 }
  if m && x.mst == .running && decide (2 ≤ x.winN) then
    setTrl s t (speedLater s y (some (speedOf x.dir (x.winN - 1) (x.winLast - x.winFirst))) .running)
  else setTrl s t y

/-- A preset or a software clear takes Lantern's untrusted mark off a port (R96), but for a port in line break, whose shadow is marked as long as that lasts (R475). DEDUCED (log 38). -/
def lanMarkClear (s : State) (p : Nat) : State := wrB s (LAN_PORT_STATUS_UNTRUSTED p) (rdB s (LAN_PORT_STATUS_LINE_BREAK p) || lineBroken s p)

/-- Load a trail's position (R72, R86, R455): clears UNTRUSTED and SAT_NOW, limits the value, corrects Lantern's shadow; a serial
trail moves TRL_ABS_OFFSET, a tether trail TRL_VOFFSET. A ratio trail's position is its formula's (log 10). DEDUCED (log 16). -/
def presetTrail (t : Nat) (value : Int) (s : State) : State :=
  let v := floorDiv value 256 * 256
  if 12 ≤ t || ratioOn s t then s else
  let s := trlOpen s t
  let x := trl s t
  let lv := limited x v
  let sat : Option Bool := if v < x.limMin then some true else if x.limMax < v then some false else none
  let s := wr s (TRL_STATUS_UNTRUSTED t) 0
  let s := onlyIf (decide (t < 8)) (fun s => lanMarkClear s t) s
  let s := onlyIf sat.isSome (fun s => wr s (TRL_STATUS_SAT t) 1) s
  let y : Trail := { x with satDir := sat, zPrev := none, barred := false }
  let s :=
    if t < 8 && decide (2 ≤ portMode s t) then
      let q := mget ({} : SerialPort) s.ser t
      let d := lv - rawPos s t
      let s := wrI s (TRL_ABS_OFFSET_OFFSET t) (rdI s (TRL_ABS_OFFSET_OFFSET t) + d)
      setTrl { s with ser := mput {} s.ser t { q with hist := q.hist.map (fun a => (a.1 + d, a.2)) } } t { y with base := x.base + d }
    else if t < 8 then
      let z : Trail := { y with base := lv, neg := x.dir, edgeAt := motNow s, presetAt := some (s.now / 2) }
      onlyIf (portMode s t == 1) (fun s => sendCorrection s t (trlCount z - trlCount x)) (setTrl s t z)
    else if tetherOn s t then
      let p := rdI s (TRL_VOFFSET_OFFSET (t - 8)) + floorDiv (slotNow s (tthSlot s t)) 256
      wrI (setTrl s t y) (TRL_VOFFSET_OFFSET (t - 8)) (rdI s (TRL_VOFFSET_OFFSET (t - 8)) + (lv - p))
    else setTrl s t { y with base := lv }
  later (virtSync s) (.posStep t)

/-- A home capture (R87): TRL_HOMECAP takes POS from before the preset, ARM clears. DEDUCED (log 16). -/
def homeTake (i : Nat) (s : State) : State :=
  let t := rd s (TRL_HOME_CFG_TRAIL i)
  if 12 ≤ t then s else
  let s := wr (wrI s (TRL_HOMECAP_HOMECAP t) (posNow s t)) (TRL_HOME_CFG_ARM i) 0
  if rdB s (TRL_HOME_CFG_PRESET i) then presetTrail t (rdI s (TRL_HOME_VAL_HOME_VAL t)) s else s

/-- The limit inputs of a trail that are active (R88): a HOME input of that function whose filtered level is its active one. Several inputs of one trail and function act together. DEDUCED (log 16). -/
def limitActive (s : State) (t f : Nat) : Bool :=
  (List.range 8).any (fun i => rd s (TRL_HOME_CFG_TRAIL i) == t && rd s (TRL_HOME_CFG_FUNC i) == f && mget false s.homeLv i != rdB s (TRL_HOME_CFG_POL i))

/-- LIMIT_MIN and LIMIT_MAX of every trail follow the limit inputs, and a limit that becomes active raises its guyline event (R88, R573). -/
def limitsFollow (s : State) : State :=
  each (List.range 12) (fun s t => each [2, 3] (fun s f =>
    let fld := if f = 2 then TRL_STATUS_LIMIT_MIN t else TRL_STATUS_LIMIT_MAX t
    let act := limitActive s t f
    let s1 := if act = rdB s fld then s else wrB s fld act
    if act && !rdB s fld then later s1 (.gyl (144 + 2 * t + (f - 2)) 0) else s1) s) s

/-- The active edge of a filtered HOME input (R87, R573). -/
def homeCapture (i : Nat) (s : State) : State :=
  let s := { s with homeLv := mput false s.homeLv i (!rdB s (TRL_HOME_CFG_POL i)) }
  let t := rd s (TRL_HOME_CFG_TRAIL i)
  if rd s (TRL_HOME_CFG_FUNC i) = 1 && rdB s (TRL_HOME_CFG_ARM i) && decide (t < 12) then
    if rdB s (TRL_HOME_CFG_ZGATE i) then
      let x := trl s t
      setTrl s t { x with homeZ := if x.homeZ.contains i then x.homeZ else x.homeZ ++ [i] }
    else homeTake i s
  else s

/-- An edge of the filtered Z: TRL_PIN follows it, and a rising edge with Z_EN = 1 captures POS (R67, R87, Table 3-11). -/
def zIndexEdge (p : Nat) (rise : Bool) (s : State) : State :=
  let s := wrB s (TRL_PIN_Z p) rise
  if !rise || !rdB s (TRL_PORT_CFG_Z_EN p) then s else
  let s := trlSync s p
  let pos := posNow s p
  let s := addWrap (wrI s (TRL_ZCAP_ZCAP p) pos) (TRL_CNT_Z_COUNT p) 1
  let zrev := rd s (TRL_ZCFG_ZREV p)
  let x := trl s p
  let bad := match x.zPrev with
    | none => false
    | some q => zrev != 0 && decide ((rd s (TRL_ZCFG_ZTOL p) : Int) * 256 < (((pos - q).natAbs : Int) - (zrev : Int) * 256).natAbs)
  let s := if bad then windowInc (wr s (TRL_STATUS_Z_ERR p) 1) (48 + p) 1 else s
  let hs := x.homeZ
  let s := setTrl s p { trl s p with zPrev := some pos, homeZ := [] }
  let s := each hs (fun s i => onlyIf (rdB s (TRL_HOME_CFG_ARM i)) (homeTake i) s) s
  later s (.gyl (168 + p) 0)

/-- The filtered level of a HOME input changes (R88). -/
def homeLimitChange (i : Nat) (level : Bool) (s : State) : State :=
  limitsFollow { s with homeLv := mput false s.homeLv i level }

/-- A virtual trail stands: no stake on it or on a trail that follows it fires until it moves (Table 5-2). -/
def trlBar (s : State) (t : Nat) : State := setTrl s t { trl s t with barred := true, base := posNow s t }

/-- A serial trail starts afresh (R86): POS = TRL_ABS_OFFSET, STARTING, UNTRUSTED. -/
def serialStart (s : State) (t : Nat) : State :=
  let off := rdI s (TRL_ABS_OFFSET_OFFSET t)
  let s := { s with ser := mput {} s.ser t {} }
  let s := wr s (TRL_STATUS_UNTRUSTED t) 1
  setTrl s t { trl s t with base := off, neg := false, spd := 0, st := .starting, mst := .starting, upds := [], edges := [], windowM := false, satDir := none }

/-- A write of TRL_PORT_CFG (R60, R67, R80). A change from BiSS-C or SSI to incremental acts as one from off does: R80 states only the latter. DESIGN CHOICE (log 16). -/
def portCfgWrite (p : Nat) (v : Nat) (s : State) : State :=
  let om := portMode s p
  let oz := rdB s (TRL_PORT_CFG_Z_EN p)
  let s := trlOpen s p
  let pos := posNow s p
  let s := wr s ⟨0x41000 + 0x40 * p, 0, 14⟩ v
  let m := portMode s p
  let z := rdB s (TRL_PORT_CFG_Z_EN p)
  let s := onlyIf (!oz && z) (fun s => setTrl s p { trl s p with zPrev := none }) s
  let s := onlyIf (!z) (fun s => wr s (TRL_PIN_Z_LB p) 0) s
  if m = om then s
  else if m = 0 then
    trlMoved (setTrl s p { trl s p with base := pos, st := .none, mst := .none, spd := 0, upds := [], edges := [] }) p
  else if m = 1 then
    let x := trl s p
    let c := floorDiv pos 256
    let s := setTrl s p { x with base := c * 256, neg := false, edgeAt := motNow s, st := .still, mst := .still, spd := 0, upds := [], edges := [], windowM := false, winN := 0, satDir := none }
    let s := wr (wr s (TRL_STATUS_UNTRUSTED p) 1) (LAN_PORT_STATUS_UNTRUSTED p) 1
    trlMoved (sendCorrection s p (c - (rdI s (LAN_SHADOW_SHADOW p) + corrInFlight s p))) p
  else trlMoved (serialStart s p) p

/-- Software's write of 1 to TRL_STATUS.UNTRUSTED (R96): a ratio trail's is discarded (R89). DEDUCED (log 10). -/
def untrustedClear (t : Nat) (s : State) : State :=
  if 12 ≤ t || ratioOn s t then s else
  let s := wr s (TRL_STATUS_UNTRUSTED t) 0
  if t < 8 then lanMarkClear s t else s

/-- A pair of soft-limit registers was written (R71): a valid pair is used from now on, and a count beyond it moves to it (R70, R94); an invalid one sets LIM_ERR. DEDUCED (log 16). -/
def softLimitWritten (t : Nat) (s : State) : State :=
  let lo := rdI s (TRL_SOFT_MIN_MIN t) * 256
  let hi := rdI s (TRL_SOFT_MAX_MAX t) * 256
  if lo < hi then
    let s := trlOpen s t
    let x := trl s t
    let y : Trail := { x with limMin := lo, limMax := hi }
    let s := wr s (TRL_STATUS_LIM_ERR t) 0
    let s :=
      if t < 8 && portMode s t == 1 then
        let b := limited y x.base
        let z : Trail := { y with base := b, edgeAt := (if b = x.base then x.edgeAt else motNow s), satDir := satNext lo hi x.base x.satDir }
        onlyIf (z.satDir.isSome && z.satDir != x.satDir) (fun s => wr s (TRL_STATUS_SAT t) 1) (sendCorrection (setTrl s t z) t (trlCount z - trlCount x))
      else trlSync (setTrl s t y) t
    trlMoved s t
  else wr s (TRL_STATUS_LIM_ERR t) 1

/-! Serial ports. -/

/-- A Gray-coded word to binary (R81). -/
def grayDecode (w v : Nat) : Nat := (List.range w).foldl (fun a i => Nat.xor a (v / 2 ^ i)) 0 % 2 ^ w

/-- The CYCLE period expires: the port clocks a new frame, unless SLO has not returned high after the last one (R81). -/
def serialFrameStart (p : Nat) (s : State) : State :=
  if portMode s p < 2 || (mget ({} : SerialPort) s.ser p).startAt.isSome then s
  else send { s with ser := mput {} s.ser p { mget ({} : SerialPort) s.ser p with startAt := some (motNow s) } } (.serialFrame p)

/-- A serial frame is discarded (R85). -/
def serialDiscard (p : Nat) (s : State) : State :=
  let q := mget ({} : SerialPort) s.ser p
  let s := { s with ser := mput {} s.ser p { q with discards := q.discards + 1, startAt := none } }
  let s := wr s (TRL_STATUS_SER_ERR p) 1
  let s := onlyIf (decide (8 ≤ q.discards + 1)) (fun s => wr s (TRL_STATUS_UNTRUSTED p) 1) s
  windowInc s (56 + p) 1

/-- The speed state after a serial sample (R84, Table 3-4): `moved` says whether its count differs from the last sample's. DEDUCED (log 16). -/
def serialState (x : Trail) (q : SerialPort) (moved : Bool) : SpeedState :=
  if q.hist.isEmpty then .starting
  else if x.mst == .still then (if moved then .starting else .still)
  else .running

/-- R75 over successive samples, newest first (R84), with a difference of POS in place of counts; `k` intervals back. -/
def serialSpeed (hist : List (Int × Nat)) (k : Nat) : Int :=
  match hist with
  | (p1, t1) :: l =>
    let o := l.getD (k - 1) (p1, t1)
    satSigned 32 (signBy (decide (p1 < o.1)) ((16 * (p1 - o.1).natAbs * 10 ^ 9 / (256 * max 1 (t1 - o.2)) : Nat) : Int))
  | [] => 0

/-- The count a serial sample gives (R82, R86): the last sample's moved by the signed difference of the count words, `w` bits wide; the first one's is TRL_ABS_OFFSET's
plus the word. -/
def serialCount (s : State) (p w cw : Nat) : Int :=
  let q := mget ({} : SerialPort) s.ser p
  match q.word, q.hist with
  | some pw, (pp, _) :: _ => floorDiv pp 256 + toSigned w (cw + 2 ^ w - pw % 2 ^ w)
  | _, _ => floorDiv (rdI s (TRL_ABS_OFFSET_OFFSET p)) 256 + cw

/-- A serial frame arrives (R81 to R86); a port in line break ignores what it says (R66). DIR of a serial trail, which has no edges, is the sign of its SPD: DESIGN CHOICE (log 16). WORD_BITS outside 8 to 48 and FRAC_BITS above 8, which the spec gives no meaning, act as the
nearest value that has one: DESIGN CHOICE (log 16). DEDUCED (log 16). -/
def serialSample (p : Nat) (word : Nat) (crcOk nE : Bool) (s : State) : State :=
  let m := portMode s p
  if m < 2 then s
  else if lineBroken s p then { s with ser := mput {} s.ser p { mget ({} : SerialPort) s.ser p with startAt := none } }
  else if m = 2 && ((rdB s (TRL_SER_CFG_CRC_EN p) && !crcOk) || !nE) then serialDiscard p s
  else
    let s := trlOpen s p
    let wb := min 48 (max 8 (rd s (TRL_SER_CFG_WORD_BITS p)))
    let fb := min 8 (rd s (TRL_SER_CFG_FRAC_BITS p))
    let w0 := word % 2 ^ wb
    let w1 := if m = 3 && rdB s (TRL_SER_CFG_GRAY p) then grayDecode wb w0 else w0
    let s := wr s (TRL_SER_RAW_RAW p) w0
    let q := mget ({} : SerialPort) s.ser p
    let x := trl s p
    let t0 := q.startAt.getD (motNow s)
    let cnt := serialCount s p (wb - fb) (w1 / 2 ^ fb)
    let pos := cnt * 256 + ((w1 % 2 ^ fb * 2 ^ (8 - fb) : Nat) : Int)
    let moved := match q.hist with | (pp, _) :: _ => decide (floorDiv pp 256 != cnt) | [] => true
    let nst := serialState x q moved
    let hist := ((pos, t0) :: q.hist).take 64
    let ivs := if nst == .running then q.ivs + 1 else 0
    let spd := if nst == .running then serialSpeed hist (min (orOne (rd s (TRL_SPDCFG_PINT p))) (min ivs 63)) else 0
    let s := { s with ser := mput {} s.ser p { q with startAt := none, word := some (w1 / 2 ^ fb), hist := hist, ivs := ivs, ext := 0, discards := 0, valid := true } }
    let s := onlyIf (!q.valid || decide (8 ≤ q.discards)) (fun s => wr s (TRL_STATUS_UNTRUSTED p) 0) s
    trlMoved (setTrl s p { x with base := pos, dir := decide (spd < 0), edgeAt := t0, spd := spd, st := nst, mst := nst, edges := [t0], lastEdge := (if moved then motNow s else x.lastEdge), barred := x.barred && decide (pos = x.base) }) p

/-- No start bit within 20 us (R85). -/
def serialStartTimeout (p : Nat) (s : State) : State :=
  if 2 ≤ portMode s p && (mget ({} : SerialPort) s.ser p).startAt.isSome then serialDiscard p s else s

/-! Lantern's corrections. -/

/-- A flag of LAN_PORT_STATUS sets; the PORT source is raised when it was clear (R493). -/
def lanFlag (s : State) (f : FRef) : State := if rdB s f then s else raise (wr s f 1) srcLanPort

/-- The shadow count takes a value, limited to 56 bits: beyond them it is left at the limit, with SAT and untrusted (R476). -/
def shadowTo (s : State) (p : Nat) (v : Int) : State :=
  let l := clampInt (-(2 ^ 55)) (2 ^ 55 - 1) v
  let s := wrI s (LAN_SHADOW_SHADOW p) l
  if l = v then s else wr (lanFlag s (LAN_PORT_STATUS_SAT p)) (LAN_PORT_STATUS_UNTRUSTED p) 1

/-- A correction reaches Lantern (R94, R476): applied whole to the shadow, which saturates; what has gathered behind it crosses next. DEDUCED (log 16). -/
def lanternCorrection (p : Nat) (s : State) : State :=
  let v := mget ({} : CorrS) s.corr p
  let s := { s with corr := mput {} s.corr p { fly := if v.sum = 0 then none else some v.sum } }
  shadowTo s p (rdI s (LAN_SHADOW_SHADOW p) + v.fly.getD 0)

/-! Pulse dividers. -/

/-- A divider's target (R91): floor of S x NUM / DEN. -/
def divTarget (s : State) (d : Nat) : Int :=
  let x := mget ({} : DividerS) s.div d
  let src := rdC s (TRL_DIV_CFG_SRC d)
  let sc := floorDiv (posNow s src) 256 - x.start
  floorDiv (sc * rdC s (TRL_DIV_RATIO_NUM d)) (rdC s (TRL_DIV_RATIO_DEN d)) + x.lost

/-- Whether a divider's ratio or source stops it (R92, R573). -/
def divRatioErr (s : State) (d : Nat) : Bool := rdC s (TRL_DIV_RATIO_DEN d) == 0 || decide (12 ≤ rdC s (TRL_DIV_CFG_SRC d))

/-- A divider starts to count afresh (R91, R93), with A = B = 0, phase 0: the spec does not give the levels of its pins at the enable. DESIGN CHOICE (log 16). -/
def divStart (s : State) (d : Nat) : State :=
  { s with div := mput {} s.div d { start := floorDiv (posNow s (rdC s (TRL_DIV_CFG_SRC d))) 256 } }

/-- The levels of a divider's A and B for a phase: B leading A is positive (R61, R91). -/
def quadLevels (phase : Nat) : Bool × Bool :=
  match phase % 4 with
  | 0 => (false, false) | 1 => (false, true) | 2 => (true, true) | _ => (true, false)

/-- Whether a divider holds still: in HOLD from the stop on, and after it until it is enabled afresh (R93, R47). -/
def divHeld (s : State) (x : DividerS) : Bool := x.held || (mode s == 10 && s.modeCtl.stopped)

/-- What a divider is behind its target by more than 65 535 counts is dropped, with LAG (R92). -/
def divDrop (s : State) (d : Nat) : State :=
  let x := mget ({} : DividerS) s.div d
  if !enabled s (0x43000 + 0x10 * d) || divRatioErr s d || divHeld s x then s else
  let debt := divTarget s d - x.emitted
  if 65535 < debt.natAbs then
    let ex : Int := signBy (decide (debt < 0)) ((debt.natAbs - 65535 : Nat) : Int)
    wr { s with div := mput {} s.div d { x with lost := x.lost - ex } } (TRL_DIV_STATUS_LAG d) 1
  else s

/-- Trail `t` has moved: the dividers on it, or on a trail that follows it, come no further behind than R92 lets them. -/
def dividersFollow (s : State) (t : Nat) : State :=
  each (below 4 (fun d => rootTrail 5 s (rdC s (TRL_DIV_CFG_SRC d)) == rootTrail 5 s t)) divDrop s

/-- A divider emits one quadrature edge (R91, R92, R93): not within MINSP of its last, not while HOLD holds it. -/
def dividerEdge (d : Nat) (s : State) : State :=
  let x := mget ({} : DividerS) s.div d
  if !enabled s (0x43000 + 0x10 * d) || divRatioErr s d || divHeld s x then s else
  let s := divDrop s d
  let x := mget ({} : DividerS) s.div d
  let debt := divTarget s d - x.emitted
  let gap := 2 * max 4 (rdC s (TRL_DIV_CFG_MINSP d))
  if debt = 0 || (match x.lastAt with | none => false | some t => decide (s.now < t + gap)) then s else
  let neg := decide (debt < 0)
  let dn := neg != rdCB s (TRL_DIV_CFG_INVERT d)
  let ph := if dn then (x.phase + 3) % 4 else (x.phase + 1) % 4
  let s := { s with div := mput {} s.div d { x with emitted := x.emitted + (if neg then -1 else 1), phase := ph, lastAt := some s.now } }
  send s (.divEdge d (quadLevels ph).1 (quadLevels ph).2)

/-- TRL_DIV_STATUS as it reads (Table 3-19). -/
def divStatus (s : State) (d : Nat) : Nat :=
  let debt := if enabled s (0x43000 + 0x10 * d) && !divRatioErr s d then (divTarget s d - (mget ({} : DividerS) s.div d).emitted).natAbs else 0
  min debt 65535 + 65536 * rd s (TRL_DIV_STATUS_LAG d) + 131072 * b2n (divRatioErr s d)

/-- At the stop in HOLD every divider stops emitting until software disables and enables it (R93, R47). -/
def dividersHold (s : State) : State :=
  each (List.range 4) (fun s d =>
    onlyIf (enabled s (0x43000 + 0x10 * d)) (fun s => { s with div := mput {} s.div d { mget ({} : DividerS) s.div d with held := true } }) s) s

/-- The levels of a divider's pins now (R91, R92, R93, Table 3-17): emitting, or the safe levels. -/
def divPins (s : State) (d : Nat) : Bool × Bool :=
  let x := mget ({} : DividerS) s.div d
  if enabled s (0x43000 + 0x10 * d) && !divHeld s x && !divRatioErr s d then quadLevels x.phase
  else (rdB s (TRL_DIV_CFG_SAFE_A d), rdB s (TRL_DIV_CFG_SAFE_B d))

end Sys2Proof.Machine
end

