-- ==== Sys2Proof/Machine/Time.lean ====
section
/-! DEFINITION. Time domains, their discipline loop, PTP ports and transmit stamps (04_time_domains.md R98 to R119). The pulse
generators stand with the triggers (Machine/Stakes.lean). -/

namespace Sys2Proof.Machine

/-- A domain's own state. -/
def domS (s : State) (d : Nat) : DomainS := mget {} s.dom d

/-- Set a domain's own state. -/
def setDom (s : State) (d : Nat) (x : DomainS) : State := { s with dom := mput {} s.dom d x }

/-- Bring a domain's held value up to this TIM edge (R99), so that its rate can change. -/
def domSync (s : State) (d : Nat) : State := setDom s d { domS s d with value := domRaw s d, since := s.now }

/-- Set a domain's rate in 2^-40 units, clamped to +-1000 ppm (R99); when it began is kept for the holdover mean, as far back as HO_AVG can reach. DEDUCED (log 17). -/
def setRate (s : State) (d : Nat) (r : Int) : State :=
  let c := clampInt (-1099511627) 1099511627 r
  let s := domSync s d
  let x := domS s d
  let near := x.rates.filter (fun e => decide (s.now ≤ e.1 + 31 * 10 ^ 9))
  let far := (x.rates.filter (fun e => decide (e.1 + 31 * 10 ^ 9 < s.now))).take 1
  wrI (setDom s d { x with rates := (s.now, c) :: (near ++ far) }) (TMB_DOM_RATE_RATE d) c

/-- A step of a domain to a new raw value (R103): the TIME_STEP record, STEP_OLD and STEP_NEW, STEPPED and its interrupt, the mark
for the frames; generators and time hand-overs look at the step. DEDUCED (log 17). -/
def domStep (s : State) (d : Nat) (raw : Nat) (loop : Bool) : State :=
  let old := domNow s d
  let s := setDom s d { domS s d with value := raw % 2 ^ 104, since := s.now, stepMark := (domS s d).stepMark + 1 }
  let new := domNow s d
  let s := wr (wr s (TMB_DOM_STEP_OLD_OLD d) old) (TMB_DOM_STEP_NEW_NEW d) new
  let s := record s rpControl 0x0A svNotice 0x1001 (leBytes 1 d ++ leBytes 1 (b2n loop) ++ leBytes 8 old ++ leBytes 8 new)
  let s := onlyIf (!rdB s (TMB_DOM_STATUS_STEPPED d)) (fun s => raise (wr s (TMB_DOM_STATUS_STEPPED d) 1) (srcDomain d)) s
  later s (.domStep d old new)

/-- Change a domain's discipline state (Table 4-1); every change raises the domain's source (Table 19-1). -/
def setDomState (s : State) (d st : Nat) : State :=
  if rd s (TMB_DOM_STATUS_STATE d) = st then s
  else
    let s := wr (wr s (TMB_DOM_STATUS_STATE d) st) (TMB_DOM_STATUS_HOLDOVER d) (b2n (st == 3))
    raise (setDom s d { domS s d with lockN := 0, unlockN := 0 }) (srcDomain d)

/-- TMB_DOM_SET or TMB_DOM_ADJ was written (R101, Table 4-1 last row): ACQUIRE when SRC is not 0. -/
def domWritten (s : State) (d : Nat) : State :=
  if rd s (TMB_DOM_CFG_SRC d) != 0 && !rdB s (TMB_DOM_STATUS_SRC_ERR d) then setDomState s d 1 else s

/-- The domain is loaded on the next TIM edge (R100, R101). -/
def domainSet (d : Nat) (v : Nat) (s : State) : State :=
  let s := domStep s d (v * 2 ^ 40) false
  domWritten (wr s (TMB_DOM_STATUS_VALID d) 1) d

/-- The signed value is added to the domain on the next TIM edge (R100, R101). -/
def domainAdjust (d : Nat) (v : Int) (s : State) : State :=
  domWritten (domStep s d (ofSigned 104 ((domRaw s d : Int) + v * 2 ^ 40)) false) d

/-- All four domains and DUC captured on one TIM edge (R102). -/
def timeSnapshot (s : State) : State :=
  let s := each (List.range 4) (fun s d => wr s (TMB_SNAP_D_TS d) (domNow s d)) s
  let s := wr s TMB_SNAP_FRAC_FRAC (domFrac s 0 + 256 * domFrac s 1 + 65536 * domFrac s 2 + 16777216 * domFrac s 3)
  wr (wr s TMB_SNAP_DUC_DUC (ducNow s)) TMB_SNAP_CTRL_DONE 1

/-- Whether the lane of Ethernet port `p` is configured for an Ethernet mode (R106, 04_time_domains.md Registers). -/
def ethMode (s : State) (p : Nat) : Bool := laneMode s p == 8 || laneMode s p == 9

/-- Whether a discipline source is accepted (R106). -/
def srcAccepted (s : State) (src port : Nat) : Bool :=
  match src with | 1 => ethMode s port | 2 => true | 3 => role s == 2 | _ => true

/-- A write of TMB_DOM_CFG (R106, Table 4-1). From one accepted source to another, or to another port, while the domain is not FREE, Table 4-1 names no step: the discipline state and the integral stay.
DESIGN CHOICE (log 17). DEDUCED (log 17). -/
def domainSrcWrite (d : Nat) (v : Nat) (s : State) : State :=
  let old := rd s (TMB_DOM_CFG_SRC d)
  let s := wr s (TMB_DOM_CFG_SRC d) (bitsOf v 1 0)
  let s := wr s (TMB_DOM_CFG_PORT d) (bitsOf v 6 2)
  let s := wr s (TMB_DOM_CFG_LOSS d) (bitsOf v 15 8)
  let s := wr s (TMB_DOM_CFG_PTM_MS d) (bitsOf v 25 16)
  let src := bitsOf v 1 0
  if src = 0 then setDomState (wr s (TMB_DOM_STATUS_SRC_ERR d) 0) d 0
  else if srcAccepted s src (bitsOf v 6 2) then
    let s := wr s (TMB_DOM_STATUS_SRC_ERR d) 0
    if old = 0 || rd s (TMB_DOM_STATUS_STATE d) = 0 then
      setDomState (setDom s d { domS s d with integ := rdI s (TMB_DOM_RATE_RATE d) }) d 1
    else s
  else setDomState (wr s (TMB_DOM_STATUS_SRC_ERR d) 1) d 0

/-- MPD after a sample, in 1/256 ns: the register is unsigned, and shows a negative delay as 0. -/
def mpdOf (v : Int) : Nat := min (2 ^ 32 - 1) v.toNat

/-- A meanPathDelay sample of a port, in 1/256 ns (R115). The filtered value is the last sample that is not suspect, and the first sample after reset is taken as it comes: R115 gives neither
the averaging nor the start. While PATH_SUSPECT = 1 a sample that is not suspect changes nothing, and a suspect one of the other sign takes the place of those before it, with a span of its own:
R115 says neither. DESIGN CHOICE (log 17). DEDUCED (log 17). -/
def pathSample (s : State) (p : Nat) (mpd : Int) : State :=
  let x := mget ({} : PathS) s.path p
  let put := fun (s : State) (x : PathS) => { s with path := mput {} s.path p x }
  if !x.haveMean then wr (put s { x with haveMean := true }) (TMB_PORT_MPD_MPD p) (mpdOf mpd)
  else
    let cur := rd s (TMB_PORT_MPD_MPD p)
    let thr := orOne (rd s (TMB_PORT_PATH_STEP_THR p))
    if (mpd - cur).natAbs ≤ thr * 256 then
      if x.suspect.isSome then s else wr s (TMB_PORT_MPD_MPD p) (mpdOf mpd)
    else
      let neg := decide (mpd < cur)
      let s := wr s (TMB_PORT_STATUS_PATH_SUSPECT p) 1
      let s := onlyIf (!rdB s (TMB_PORT_STATUS_PATH_STEP p)) (fun s => raise (wr s (TMB_PORT_STATUS_PATH_STEP p) 1) (srcPort p)) s
      let y : Bool × Nat × Nat × Int := match x.suspect with
        | some (sg, n, t0, sum) => if sg = neg then (sg, n + 1, t0, sum + mpd) else (neg, 1, s.now, mpd)
        | none => (neg, 1, s.now, mpd)
      if orOne (rd s (TMB_PORT_PATH_K p)) ≤ y.2.1 then
        let s := put s { x with suspect := none }
        let s := wr s (TMB_PORT_STATUS_PATH_SUSPECT p) 0
        wr s (TMB_PORT_MPD_MPD p) (mpdOf (floorDiv y.2.2.2 y.2.1))
      else put s { x with suspect := some y }

/-- The PATH.W span ends without K suspect samples (R115, step 4). -/
def pathWindowExpire (p : Nat) (s : State) : State :=
  let x := mget ({} : PathS) s.path p
  if x.suspect.isSome then
    wr { s with path := mput {} s.path p { x with suspect := none } } (TMB_PORT_STATUS_PATH_SUSPECT p) 0
  else s

/-- The rate summed over the time from `lo` to `hi`, from when which rate began, newest first; before the first of them it was 0 (R100). -/
def rateArea (lo : Nat) : Nat → List (Nat × Int) → Int
  | _, [] => 0
  | hi, (t, r) :: l => if hi ≤ lo then 0 else r * (hi - max t lo : Nat) + rateArea lo (max t lo) l

/-- The mean of a domain's rate over the last `span` ns, or over the time it has run (Table 4-1). -/
def meanRate (s : State) (d span : Nat) : Int :=
  let x := domS s d
  let lo := max x.born (s.now - span)
  if s.now ≤ lo then rdI s (TMB_DOM_RATE_RATE d) else floorDiv (rateArea lo s.now x.rates) (s.now - lo : Nat)

/-- Enter HOLDOVER (Table 4-1): the rate is the mean over the last HO_AVG seconds. DEDUCED (log 17). -/
def enterHoldover (s : State) (d : Nat) : State :=
  let mean := meanRate s d (orOne (rd s (TMB_DOM_SERVO_HO_AVG d)) * 10 ^ 9)
  let s := setRate s d mean
  setDomState (wrI s (TMB_DOM_HO_RATE_HO_RATE d) mean) d 3

/-- The loop on one offset sample in ACQUIRE and LOCKED (R107), theta in 1/256 ns and tau in ns; rate in 2^-40 units. DEDUCED (log 17). -/
def loopStep (s : State) (d : Nat) (theta : Int) (tau : Nat) : State :=
  let x := domS s d
  -- theta / (tau * 1e9) in ns per ns, in 2^-40 units: theta/256 ns over tau ns
  let e := fun (sh : Nat) => floorDiv (theta * 2 ^ 40) ((256 * max 1 tau * 2 ^ sh : Nat) : Int)
  let i := x.integ - e (rd s (TMB_DOM_SERVO_KI_SHIFT d))
  let r := clampInt (-1099511627) 1099511627 (i - e (rd s (TMB_DOM_SERVO_KP_SHIFT d)))
  let s := setRate s d r
  setDom s d { domS s d with integ := i }

/-- An offset sample of the domain's source (R107, R115, Table 4-1), `theta` in 1/256 ns. DEDUCED (log 17). -/
def offsetCore (d : Nat) (theta : Int) (tau : Nat) (newMaster : Bool) (s : State) : State :=
  let src := rd s (TMB_DOM_CFG_SRC d)
  if src = 0 || rdB s (TMB_DOM_STATUS_SRC_ERR d) then s else
  let port := rd s (TMB_DOM_CFG_PORT d)
  let held := src = 1 && rdB s (TMB_PORT_STATUS_PATH_SUSPECT port)
  let s := wrI s (TMB_DOM_OFFSET_OFFSET d) (satSigned 32 theta)
  if newMaster && (rd s (TMB_DOM_STATUS_STATE d) == 1 || rd s (TMB_DOM_STATUS_STATE d) == 2) then enterHoldover s d
  else if held then s else
  let s := if rd s (TMB_DOM_STATUS_STATE d) = 3 then
      setDomState (setDom s d { domS s d with integ := rdI s (TMB_DOM_HO_RATE_HO_RATE d) }) d 1 else s
  let abs := theta.natAbs
  let lock := orOne (rd s (TMB_DOM_SERVO_LOCK_NS d)) * 256
  if rd s (TMB_DOM_STATUS_STATE d) = 1 then
    if orOne (rd s (TMB_DOM_SERVO_STEP_US d)) * 1000 * 256 < abs && !rdB s (TMB_DOM_SERVO_NO_STEP d) then
      let s := domStep s d (ofSigned 104 ((domRaw s d : Int) - theta * 2 ^ 32)) true
      setDom s d { domS s d with lockN := 0 }
    else
      let s := loopStep s d theta tau
      let n := if abs ≤ lock then (domS s d).lockN + 1 else 0
      let s := setDom s d { domS s d with lockN := n }
      if 8 ≤ n then setDomState (wr s (TMB_DOM_STATUS_VALID d) 1) d 2 else s
  else if rd s (TMB_DOM_STATUS_STATE d) = 2 then
    let s := loopStep s d theta tau
    let n := if 4 * lock < abs then (domS s d).unlockN + 1 else 0
    let s := setDom s d { domS s d with unlockN := n }
    if 4 ≤ n then setDomState s d 1 else s
  else s

/-! PTP in the MP firmware (R110, R111, Table 4-2). -/

/-- Whether the firmware runs PTP on a port (R111). -/
def ptpRuns (s : State) (p : Nat) : Bool :=
  ethMode s p && rdB s (TMB_PORT_PTP_EN p) && !rdB s (TMB_PORT_PTP_HOST_STACK p) && rdB s (CAM_LANE_STATUS_UP p)

/-- PORT_STATE (Table 4-10): disabled where the firmware does not run PTP, listening until the port becomes slave or master. -/
def portState (s : State) (p : Nat) : Nat := if ptpRuns s p then max 1 (rd s (TMB_PORT_STATUS_PORT_STATE p)) else 0

/-- The offset a PTP port makes of `raw`, the ball stamp of a Sync less its origin time, in 1/256 ns (R113, R114): less INGRESS_ADJ, and less the delay from master to slave, the filtered
meanPathDelay plus DELAY_ASYM. DEDUCED (log 17). -/
def ptpTheta (s : State) (p : Nat) (raw : Int) : Int :=
  raw - rdI s (TMB_PORT_INGRESS_ADJ_ADJ p) - (rd s (TMB_PORT_MPD_MPD p) + rdI s (TMB_PORT_DELAY_ASYM_ASYM p))

/-- The meanPathDelay a port makes of one between the balls (R113): both stamps move by their adjustments. DEDUCED (log 17). -/
def ptpDelay (s : State) (p : Nat) (raw : Int) : Int :=
  raw - floorDiv (rdI s (TMB_PORT_INGRESS_ADJ_ADJ p) + rdI s (TMB_PORT_EGRESS_ADJ_ADJ p)) 2

/-- A discipline source delivers an offset sample (R107), with a meanPathDelay sample where it brings one (R115); from PTP both are as the stamps at the balls give them, and come where the
firmware runs PTP: an offset on a port that is slave, a delay there and, with P2P, on any port that takes part. -/
def offsetSample (d : Nat) (x : OffSample) (s : State) : State :=
  let port := rd s (TMB_DOM_CFG_PORT d)
  if rd s (TMB_DOM_CFG_SRC d) = 1 then
    let slave := portState s port == 2
    let s := match x.mpd with
      | some m => onlyIf (slave || (rdB s (TMB_PORT_PTP_P2P port) && ptpRuns s port)) (fun s => pathSample s port (ptpDelay s port m)) s
      | none => s
    if slave then offsetCore d (ptpTheta s port x.theta) x.tau x.newMaster s else s
  else offsetCore d x.theta x.tau x.newMaster s

/-- A PTM dialogue (R108): discarded while Bus Master Enable = 0 or D3hot lets no request out (R382, R371), or when its delay departs from
the running mean by more than 32 ns; else an offset sample. The running mean is (7 m + x) / 8 from the first dialogue on: R108 does not define it. DESIGN CHOICE (log 17). -/
def ptmDialogue (d : Nat) (x : PtmSample) (s : State) : State :=
  if rd s (TMB_DOM_CFG_SRC d) != 2 || !bme s || inD3 s then s else
  let s := send s (.ptmRequest d)
  let m := (domS s d).ptmMean.getD x.delay
  if 32 < ((x.delay : Int) - m).natAbs then addSat s (TMB_DOM_STATUS_PTM_DISCARD d) 1
  else
    let s := setDom s d { domS s d with ptmMean := some ((7 * m + x.delay) / 8) }
    offsetCore d x.theta (orOne (rd s (TMB_DOM_CFG_PTM_MS d)) * 10 ^ 6) false s

/-- No sample for LOSS intervals (R107). -/
def sampleLoss (d : Nat) (s : State) : State :=
  if rd s (TMB_DOM_STATUS_STATE d) = 1 || rd s (TMB_DOM_STATUS_STATE d) = 2 then enterHoldover s d else s

/-- Software's write of TMB_DOM_RATE (R99, R107): discarded while SRC is not 0. -/
def domRateWrite (d : Nat) (v : Nat) (s : State) : State :=
  if rd s (TMB_DOM_CFG_SRC d) = 0 then setRate s d (toSigned 32 v) else s

/-! Transmit stamps. -/

/-- A PTP event message of domainNumber `dn` leaves port `p` (R112, R113, R117, R119): its egress stamp is queued. DEDUCED (log 17). -/
def ptpEgress (s : State) (p dn ty seq : Nat) : State :=
  let d := rd s (TMB_PORT_PTP_DOM p)
  let raw := ((domRaw s d / 2 ^ 32 : Nat) : Int) + rdI s (TMB_PORT_EGRESS_ADJ_ADJ p)
  let v := ofSigned 72 raw
  let q := mget ([] : List TxStamp) s.txq p
  let id := seq % 65536 + 65536 * (ty % 16) + 2 ^ 20 * (dn % 256) + 2 ^ 28 * (v % 256) + 2 ^ 36 * d + 2 ^ 63
  if q.length < 64 then
    wr { s with txq := mput [] s.txq p (q ++ [⟨id, v / 256⟩]) } (TMB_TXQ_STATUS_LEVEL p) (q.length + 1)
  else
    let s := onlyIf (!rdB s (TMB_TXQ_STATUS_OVF p)) (fun s => raise (wr s (TMB_TXQ_STATUS_OVF p) 1) (srcPort p)) s
    addSat s (TMB_TXQ_STATUS_LOST p) 1

/-- The head entry of a transmit queue as TMB_TXQ_ID reads it: 0 with VALID = 0 when empty (R118). -/
def txqHead (s : State) (p : Nat) : Nat := match mget ([] : List TxStamp) s.txq p with | [] => 0 | e :: _ => e.id

/-- A read of TMB_TXQ_ID (R118): removes the head entry and latches its stamp. -/
def txqIdRead (p : Nat) (s : State) : State :=
  match mget ([] : List TxStamp) s.txq p with
  | [] => s
  | e :: q => wr (wr { s with txq := mput [] s.txq p q } (TMB_TXQ_TS_TS p) e.ts) (TMB_TXQ_STATUS_LEVEL p) q.length

/-! PTP in the MP firmware: messages (R110, R111, Table 4-2). -/

/-- The firmware's protocol starts afresh on a port, when its settings are written or its lane goes down. DESIGN CHOICE (log 17). -/
def ptpRestart (s : State) (p : Nat) : State :=
  wr { s with path := mput {} s.path p { mget ({} : PathS) s.path p with master := none } } (TMB_PORT_STATUS_PORT_STATE p) 0

/-- Whether the firmware may send an event message of type `ty` (Tables 4-9, 4-10): Sync as master; Delay_Req with E2E as slave; Pdelay_Req and Pdelay_Resp with P2P. DEDUCED (log 17). -/
def ptpMay (s : State) (p ty : Nat) : Bool :=
  let p2p := rdB s (TMB_PORT_PTP_P2P p)
  if ty = 0 then portState s p == 3 else if ty = 1 then !p2p && portState s p == 2 else p2p

/-- A port that hears no Announce becomes master, unless it is slave only: a master-only port at once, another once its announce receipt timeout has passed, whose length the spec does not
give: whether it has is a free value. DESIGN CHOICE (log 17). -/
def ptpTimeout (s : State) (p : Nat) : State :=
  let role := rd s (TMB_PORT_PTP_ROLE p)
  if portState s p != 1 || role = 1 then s
  else if role = 2 then wr s (TMB_PORT_STATUS_PORT_STATE p) 3
  else onlyIf (freeNat s % 2 == 1) (fun s => wr s (TMB_PORT_STATUS_PORT_STATE p) 3) (freeNext s)

/-- The firmware takes the stamps that wait in its port's transmit queue (R111). DEDUCED (log 17). -/
def ptpTake (s : State) (p : Nat) : State :=
  if (mget ([] : List TxStamp) s.txq p).isEmpty then s else wr { s with txq := mput [] s.txq p [] } (TMB_TXQ_STATUS_LEVEL p) 0

/-- The message leaves, over the port's transport: a two-step Sync's Follow_Up after it, a Pdelay_Resp's too; a master's Announce goes with its Sync, at an interval the spec does not give
(Table 4-2). DESIGN CHOICE (log 17). -/
def ptpSend (s : State) (p ty seq : Nat) : State :=
  let step := rdB s (TMB_PORT_PTP_ONE_STEP p)
  let s := onlyIf (ty = 0) (fun s => send s (.ptpGeneral p 11 seq)) s
  let s := send s (.ptpEvent p ty seq (rdB s (TMB_PORT_PTP_UDP4 p)) (ty = 0 && step))
  if ty = 0 then onlyIf (!step) (fun s => send s (.ptpGeneral p 8 seq)) s
  else if ty = 3 then send s (.ptpGeneral p 10 seq) else s

/-- The firmware sends a PTP event message on a port (R111, R117). -/
def ptpEventTransmit (p ty seq : Nat) (s : State) : State :=
  if !ptpRuns s p || decide (4 ≤ ty) then s else
  let s := onlyIf (ty = 0) (fun s => ptpTimeout s p) s
  if ptpMay s p ty then ptpEgress (ptpSend (ptpTake s p) p ty seq) p (rd s (TMB_PORT_PTP_PTP_DOMAIN p)) ty seq
  else s

/-- The ball stamp of an event message that arrives now, less INGRESS_ADJ, in 1/256 ns (R112, R113). -/
def ptpIngress (s : State) (p : Nat) : Nat :=
  ofSigned 72 (((domRaw s (rd s (TMB_PORT_PTP_DOM p)) / 2 ^ 32 : Nat) : Int) - rdI s (TMB_PORT_INGRESS_ADJ_ADJ p))

/-- The port follows a new master, as the one slave of its domain (Table 4-2): another one there listens again; a domain it feeds sees the PTP master change (Table 4-1). -/
def ptpFollow (s : State) (p m : Nat) : State :=
  let was := (mget ({} : PathS) s.path p).master
  let s := each (below 32 (fun q => q != p && portState s q == 2 && rd s (TMB_PORT_PTP_DOM q) == rd s (TMB_PORT_PTP_DOM p))) ptpRestart s
  let s := wr { s with path := mput {} s.path p { mget ({} : PathS) s.path p with master := some m } } (TMB_PORT_STATUS_PORT_STATE p) 2
  if was = none || was = some m then s else
  each (below 4 (fun d => rd s (TMB_DOM_CFG_SRC d) == 1 && rd s (TMB_DOM_CFG_PORT d) == p && (rd s (TMB_DOM_STATUS_STATE d) == 1 || rd s (TMB_DOM_STATUS_STATE d) == 2)))
    enterHoldover s

/-- An Announce message (R110, Table 4-9): a master-only port ignores it, a slave-only port with no master follows its sender where its domain has no slave; else the default BMCA of IEEE 1588,
on data sets the spec does not give, decides: a free value. DEDUCED (log 17). -/
def ptpAnnounce (s : State) (p m : Nat) : State :=
  let role := rd s (TMB_PORT_PTP_ROLE p)
  let x := (mget ({} : PathS) s.path p).master
  let other := (List.range 32).any (fun q => q != p && portState s q == 2 && rd s (TMB_PORT_PTP_DOM q) == rd s (TMB_PORT_PTP_DOM p))
  if role = 2 || x = some m then s
  else if role = 1 && x.isNone && !other then ptpFollow s p m
  else
    let better := freeNat s % 2 == 1
    let s := freeNext s
    if better then ptpFollow s p m
    else if x.isNone && role != 1 then wr s (TMB_PORT_STATUS_PORT_STATE p) 3 else s

/-- A PTP message reaches the firmware of a port (R110 to R113): of another domainNumber, transport or delay mechanism than the port's it is ignored, and one with an unsupported option is counted. DEDUCED (log 17). -/
def ptpReceive (s : State) (p : Nat) (f : PtpFrame) : State :=
  if !ptpRuns s p then s else
  match f.msg with
  | .unsupported => addSat s (TMB_PORT_STATUS_UNSUP p) 1
  | .event ty seq =>
    if f.dn.toNat != rd s (TMB_PORT_PTP_PTP_DOMAIN p) || f.udp != rdB s (TMB_PORT_PTP_UDP4 p) || (ty.toNat != 0 && rdB s (TMB_PORT_PTP_P2P p) == decide (ty.toNat = 1)) then s
    else
      let s := { s with path := mput {} s.path p { mget ({} : PathS) s.path p with rx := some (ptpIngress s p) } }
      if ty.toNat = 1 && portState s p == 3 then send s (.ptpGeneral p 9 seq.toNat) else s
  | .announce m =>
    if f.dn.toNat != rd s (TMB_PORT_PTP_PTP_DOMAIN p) || f.udp != rdB s (TMB_PORT_PTP_UDP4 p) then s else ptpAnnounce s p m.toNat
  | .general => s

end Sys2Proof.Machine
end

