-- ==== Sys2Proof/Machine/Stakes.lean ====
section
/-! DEFINITION. Stakes, trigger pins, CoaXPress triggers (05_stakes_and_triggers.md), the tag samples they and the pulse generators
take (01_islands_and_planes.md R24 to R28), and the pulse generators (04_time_domains.md R120 to R126). -/

namespace Sys2Proof.Machine

def stk (s : State) (n : Nat) : StakeS := mget {} s.stk n
def setStk (s : State) (n : Nat) (x : StakeS) : State := { s with stk := mput {} s.stk n x }
def stkEn (n : Nat) : Nat := 0x50000 + 0x100 * n
def tpgEn (g : Nat) : Nat := 0x62000 + 0x40 * g
def frmEn (st : Nat) : Nat := 0xB0000 + 0x100 * st
def camStrEn (st : Nat) : Nat := 0x71000 + 0x2000 * (st / 2) + 0x100 * (st % 2)
def laneEn (n : Nat) : Nat := 0x70000 + 0x2000 * n
def mlkEn (u : Nat) : Nat := 0xC0000 + 0x100 * u
abbrev tthEn : Nat := 0x140000
def mlk (s : State) (u : Nat) : MlkUnit := mget {} s.mlk u
def setMlk (s : State) (u : Nat) (x : MlkUnit) : State := { s with mlk := mput {} s.mlk u x }

/-! Which mode's trigger behaviour applies (Table 2-2, R146). -/

/-- The acquisition mode whose trigger behaviour applies: 4 FREERUN, 5 TRACK, 6 LOCK, 0 none. In DRAIN and HOLD, until the stop, the mode they
were entered from. -/
def trigMode (s : State) : Nat :=
  let m := mode s
  if m = 4 || m = 5 || m = 6 then m
  else if m = 7 then s.modeCtl.cameFrom
  else if (m = 8 || m = 10) && !s.modeCtl.stopped then s.modeCtl.trig
  else 0

/-- Stakes drive cameras (Table 2-2). -/
def stakesActive (s : State) : Bool := trigMode s == 5 || trigMode s == 6

/-- Whether a stream has stopped triggering (R44, R46). -/
def streamStopped (s : State) (st : Nat) : Bool := mget false s.modeCtl.streamsStopped st

/-- Whether a stream takes samples: its frame assembly is ENABLED or finishing a frame, and it has not stopped. -/
def streamOn (s : State) (st : Nat) : Bool := (enState s (frmEn st) == 2 || enState s (frmEn st) == 3) && !streamStopped s st

/-- Generators drive cameras (Table 2-2); in DRAIN and HOLD only as the sampler of a stream that has not stopped (R571). -/
def tpgActive (s : State) (g : Nat) : Bool :=
  trigMode s == 4 &&
    ((mode s != 8 && mode s != 10) ||
      (List.range 64).any (fun st => streamOn s st && rd s (FRM_STR_BIND_SAMPLER st) == 1 && rd s (FRM_STR_BIND_TPG st) == g))

/-! Tag samples. -/

/-- A sample of a stream's trail and domain (R24, R193): position, speed and cycle index of the MOT cycle that begins at `mot`, the time stamp `stamp` in units of 2^-40 ns. DEDUCED (log 18). -/
def takeSample (s : State) (st : Nat) (seq mot stamp : Nat) (predicted late : Bool) : TagSample :=
  let t := rd s (FRM_STR_BIND_TRAIL st)
  let d := rd s (FRM_STR_BIND_DOM st)
  let c := { s with now := mot }
  { pos := posNow c t, spd := spdNow c t, speedValid := speedValid c t, ts := stamp / 2 ^ 40, frac := stamp / 2 ^ 32 % 256, dom := d
    domValid := rdB s (TMB_DOM_STATUS_VALID d), seq := seq, cyc := motCycle c, at_ := mot, predicted := predicted, late := late
    untrusted := untrusted c t, stepMark := (domS s d).stepMark, posMark := mget 0 s.posMark t }

/-- A strobe of the present MOT cycle as TIM stamps it in a domain (R26): the value at the receiving edge, less 1.5 ns. -/
def timStamp (s : State) (d : Nat) : Nat := ofSigned 104 ((domRawAt s d (motNow s + 2) : Int) - 3 * 2 ^ 39)

/-- The stamp of a stake-triggered sample (R26). -/
def stakeStamp (s : State) (st : Nat) : Nat := timStamp s (rd s (FRM_STR_BIND_DOM st))

/-- The MOT cycle in which a pulse that leaves TIM now arrives (R18, R27). -/
def tpgCycle (s : State) : Nat := motNow s + 4

/-- A stream's state in the data plane. -/
def strS (s : State) (st : Nat) : StreamS := mget {} s.str st
def setStr (s : State) (st : Nat) (x : StreamS) : State := { s with str := mput {} s.str st x }

/-- Count a missing line of a stream (R185) and raise STR_MISSING of its page (Table 6-7). -/
def countMissing (s : State) (st : Nat) : State := raise (addSat s (CAM_CNT_MISSING_COUNT st) 1) (srcLane (st / 2) 7)

/-- A sample with the trail's values of this MOT cycle (R27). -/
def sampleArrived (s : State) (st : Nat) (x : TagSample) : TagSample :=
  let t := rd s (FRM_STR_BIND_TRAIL st)
  { x with pos := posNow s t, spd := spdNow s t, speedValid := speedValid s t, untrusted := untrusted s t, posMark := mget 0 s.posMark t }

/-- A sample of a stream that stops at its frame's end may be that frame's last (R44). -/
def stopLook (s : State) (st : Nat) : State := if (mget ({} : FrmS) s.frm st).finishing then laterOnce s (.judge st) else s

/-- Give a stream one tag sample (R28, R150, R186): into its FIFO, dropped and counted when 1 024 are held; while the stream's lane is not UP
it is passed on at once as a missing line. No samples are taken in a mode in which nothing triggers cameras (Table 2-2). DEDUCED (log 18). -/
def giveSample (s : State) (st mot stamp : Nat) (predicted late : Bool) : State :=
  if !streamOn s st || trigMode s == 0 then s else
  let x := strS s st
  let smp := takeSample s st x.seq mot stamp predicted late
  let s := setStr s st { x with seq := (x.seq + 1) % 65536 }
  let x := strS s st
  let lane := rd s (CAM_STR_BIND_LANE st)
  if !rdB s (CAM_LANE_STATUS_UP lane) then
    stopLook (countMissing (setStr s st { x with lines := x.lines ++ [{ sample := some smp, missing := true }] }) st) st
  else if 1024 ≤ x.samples.length then addSat s (FRM_CNT_LOSTSAMP_COUNT st) 1
  else stopLook (setStr s st { x with samples := x.samples ++ [smp] }) st

/-! Pins. -/

def pinS (s : State) (p : Nat) : PinS := mget {} s.pins p
def setPin (s : State) (p : Nat) (x : PinS) : State := { s with pins := mput {} s.pins p x }

/-- Start a pulse at a pin (R143, R144, R145): dropped and counted while the pin drives an earlier one. `frac` is the fine placement in steps
of 125 ps, `at8` the firing edge in those steps. Answers the state and whether the firing was dropped. DEDUCED (log 18). -/
def firePin (s : State) (p : Nat) (at8 width : Nat) (genPol : Bool) : State × Bool :=
  if rdB s (STK_TRG_STATUS_ACTIVE p) then
    (addSat (wr s (STK_TRG_STATUS_OVR p) 1) (STK_TRG_STATUS_OVR_CNT p) 1, true)
  else
    (wr (setPin s p { pinS s p with start := at8 + rd s (STK_TRG_SKEW_SKEW p), until_ := s.now + width, genPol := genPol })
      (STK_TRG_STATUS_ACTIVE p) 1, false)

/-- A pin's pulse width expires (R143): the pin returns to its inactive level, and a configuration write that waited takes effect. -/
def pinPulseEnd (p : Nat) (s : State) : State :=
  if !rdB s (STK_TRG_STATUS_ACTIVE p) then s else
  let s := wr s (STK_TRG_STATUS_ACTIVE p) 0
  match (pinS s p).cfgWait with
  | some v => wr (setPin s p { pinS s p with cfgWait := none }) ⟨0x54000 + 0x10 * p, 0, 13⟩ v
  | none => s

/-- A write of STK_TRG_CFG (Table 5-11): at the end of any pulse being driven. -/
def trgCfgWrite (p v : Nat) (s : State) : State :=
  if rdB s (STK_TRG_STATUS_ACTIVE p) then setPin s p { pinS s p with cfgWait := some v }
  else wr s ⟨0x54000 + 0x10 * p, 0, 13⟩ v

/-- Whether a lane is configured for a CoaXPress mode (Table 6-1). -/
def cxpMode (s : State) (n : Nat) : Bool := decide (1 ≤ laneMode s n) && decide (laneMode s n ≤ 7)

/-- The level of trigger pin `p` (R143, R146, R489): Lantern's override first, then by the mode and the source. A pulse in progress when its stake enters HELD or DONE or is
disabled lasts its width (R143), where R146 could be read to cut it short: DESIGN CHOICE (log 18). In CALIBRATE a routine may drive a pin that has a source; the spec does not say
when, so its level is a free value (log 18). -/
def trgLevel (s : State) (p : Nat) : Bool :=
  if bitOf (rd s LAN_OVR_OVR) p then mget false s.lan.ovrLevel p
  else
    let safe := rdB s (STK_TRG_CFG_SAFE p)
    let src := rd s (STK_TRG_CFG_SRC_TYPE p)
    let tm := trigMode s
    let act := rdB s (STK_TRG_STATUS_ACTIVE p)
    let pol := rdB s (STK_TRG_CFG_POL p)
    if src != 0 && mode s == 9 then Config.calLevel s.now p
    else if src = 0 || tm = 0 then safe
    else if src = 3 then rdB s (STK_TRG_CFG_LEVEL p)
    else if src = 1 then (if tm = 4 then safe else act != pol)
    else
      let gp := rdB s (TPG_CFG_POL (rd s (STK_TRG_CFG_SRC_IDX p) % 16))
      if tm = 4 then act != (pol != gp) else safe

/-! CoaXPress trigger packets. -/

/-- The word clock period of a lane's island in ps (Table 1-2), by its MODE. -/
def wordClockPs (s : State) (n : Nat) : Nat :=
  match laneMode s n with
  | 1 => 32000 | 2 => 16000 | 3 => 12800 | 4 => 8000 | 5 => 6400 | 6 => 4000 | 7 => 3200 | 8 => 6206 | _ => 2482

/-- A firing for lane `n`'s uplink (R147, R148, R162, R186): `tx` its instant in steps of 125 ps. Its crossing into the lane's island takes more than one and at most two word clocks
(R18): a free value. Answers whether it was dropped with OVR. DEDUCED (log 18). -/
def fireCxp (s : State) (n tx : Nat) : State × Bool :=
  if !cxpMode s n || !rdB s (CAM_LANE_STATUS_UP n) || rdB s (CAM_LANE_STATUS_MEMBER n) then (s, false)
  else match mget (none : Option CxpTrig) s.cxp n with
    | some _ => (wr s (STK_CXP_STATUS_OVR n) 1, true)
    | none =>
      let p := wordClockPs s n
      (freeNext { s with cxp := mput none s.cxp n (some { tx := tx, fall := rdB s (STK_CXP_CFG_FALL n), lag := (p + 1 + freeNat s % p + 124) / 125 }) }, false)

/-- The delay field for a packet that starts now, for the instant `tx` in steps of 125 ps (R147): whole units of the lane's uplink rate, which CoaXPress 2.1 fixes and the spec does
not give (log 18). A packet that starts ahead of the instant, as one of a generator may, has a field the spec does not state: a free value. -/
def delayField (s : State) (n tx : Nat) : Nat :=
  if 8 * s.now < tx then freeNat s % 65536 else 125 * (8 * s.now - tx) / orOne (Config.cxpUnitPs (laneMode s n)).toNat

/-- A delay field in ns, rounded, of the 16-bit register (Table 5-13). -/
def delayNs (s : State) (n field : Nat) : Nat := min 65535 ((field * orOne (Config.cxpUnitPs (laneMode s n)).toNat + 500) / 1000)

/-- A trigger packet goes out on lane `n` for the instant `tx` (R147). -/
def cxpSend (s : State) (n : Nat) (rising : Bool) (tx : Nat) : State :=
  let d := delayField s n tx
  let s := onlyIf (decide (8 * s.now < tx)) freeNext (send s (.cxpTrigger n rising d))
  addWrap (wr s (STK_CXP_LASTDLY_DELAY n) (delayNs s n d)) (STK_CXP_STATUS_SENT n) 1

/-- The uplink character boundary at which the rising packet goes (R147), on a lane that is UP (R186). A packet that is pending when the lane leaves UP waits for its return: the spec does not
say whether it is dropped. DESIGN CHOICE (log 18). -/
def cxpTriggerSend (n : Nat) (s : State) : State :=
  match mget (none : Option CxpTrig) s.cxp n with
  | some x =>
    if x.rose || !rdB s (CAM_LANE_STATUS_UP n) then s else
    let s := cxpSend s n true x.tx
    { s with cxp := mput none s.cxp n (if x.fall then some { x with rose := true } else none) }
  | none => s

/-- The falling packet goes, once the rising one has gone and the instant t_x + WIDTH, plus the firing's crossing lag, has come (R147), on a lane that is UP (R186). -/
def cxpFallSend (n : Nat) (s : State) : State :=
  match mget (none : Option CxpTrig) s.cxp n with
  | some x =>
    let tf := x.tx + 8 * rd s (STK_CXP_WIDTH_WIDTH n)
    if x.rose && decide (tf + x.lag ≤ 8 * s.now) && rdB s (CAM_LANE_STATUS_UP n) then
      let s := cxpSend s n false tf
      { s with cxp := mput none s.cxp n none }
    else s
  | none => s

/-! The trigger SRAM and its entries. -/

/-- The 16 bytes at an index of the trigger SRAM. DESIGN CHOICE (log 3). -/
def sramAt (s : State) (i : Nat) : BitVec 128 := (mget none s.sram i).getD (Config.undefinedEntry s.powerOns i)

/-- The fields of an entry (Table 5-1). -/
def entryOf (v : BitVec 128) : Entry :=
  let n := v.toNat
  { target := toSigned 64 n, stepN := bitsOf n 87 64, stepD := orOne (bitsOf n 95 88), count := bitsOf n 111 96
    outA := bitOf n 112, outB := bitOf n 113, event := bitOf n 114, noLead := bitOf n 120 }

/-- The entry at place `i` of stake `n`'s ACTIVE region. -/
def stkEntry (s : State) (n i : Nat) : Entry := entryOf (sramAt s (rd s (STK_TBL_BASE_BASE n) + i))

/-! Compare position (R132, R133), at 2^-16 subcount. -/

/-- The distance covered in the lead of stake `n` at speed `spd` (R132, R133), at 2^-16 subcount, rounded down: the spec gives the resolution and not the rounding. DESIGN CHOICE (log 18). -/
def leadAt (s : State) (n : Nat) (valid : Bool) (spd : Int) (noLead : Bool) : Int :=
  if noLead || !valid then 0 else floorDiv (spd * rd s (STK_LEAD_LEAD n) * 65536) 62500000

/-- L of stake `n` on trail `t` now. -/
def lead16 (s : State) (n t : Nat) (noLead : Bool) : Int := leadAt s n (speedValid s t) (spdNow s t) noLead

/-- Q of stake `n` now. -/
def cmp16 (s : State) (n : Nat) (noLead : Bool) : Int :=
  let t := rd s (STK_CTRL_TRAIL n)
  pos16 s t + lead16 s n t noLead

/-- Q one MOT cycle earlier (R144). -/
def cmp16Prev (s : State) (n : Nat) (noLead : Bool) : Int :=
  let t := rd s (STK_CTRL_TRAIL n)
  pos16Prev s t + leadAt s n (validPrev s t) (spdPrev s t) noLead

/-- Whether compare position `q` is at or past target `e` in a direction (R134). -/
def atOrPast (neg : Bool) (q e : Int) : Bool := if neg then decide (q ≤ e * 65536) else decide (e * 65536 ≤ q)

/-- The effective target of firing `k` of an entry (R130). -/
def effTarget (s : State) (n : Nat) (e : Entry) (k : Nat) (trim : Int) : Int :=
  let step : Int := (k * e.stepN / e.stepD : Nat)
  let off := rdI s (STK_OFFSET_NOW_OFFSET_NOW n)
  if rdB s (STK_CTRL_DIR n) then off + e.target - step + trim else off + e.target + step + trim

/-! Walking (Table 5-2). -/

/-- Take up firing `k` of the entry at place `i` (R135, R136): it is first compared in the next cycle, and whether it is passed is known when that cycle is over. DEDUCED (log 18). -/
def armAt (s : State) (n i k : Nat) (e : Entry) (trim : Int) (cyc : Nat) : State :=
  let s := setStk s n { stk s n with idx := i, k := k, entry := some e, trim := trim, cyc := cyc, passed := none, first := s.now / 2 + 1 }
  { s with due := s.due.filter (fun d => d != .compare n) ++ [.compare n] }

/-- The firing a stake has taken up is armed, and its registers show it (Table 5-6). -/
def armShow (s : State) (n : Nat) : State :=
  let x := stk s n
  let e := x.entry.getD (stkEntry s n x.idx)
  let s := wr (wrI s (STK_ARMED_TGT_TGT n) (effTarget s n e x.k x.trim)) (STK_ARMED_K_K n) x.k
  wr (wr s (STK_STATUS_ARMED_IDX n) (rd s (STK_TBL_BASE_BASE n) + x.idx)) (STK_STATUS_WALK n) 2

/-- Direction of the stream a unit watches, in one of the two sets: -1 for negative. DEDUCED (log 24). -/
def mlkSign (s : State) (old : Bool) (u : Nat) : Int :=
  if rdSet s old (FRM_STR_BIND_DIR (rdSet s old (MLK_SRC_STREAM u))) = 1 then -1 else 1

/-- The loop of a unit as it stood in MOT at the start of this cycle (R234). -/
def motLoop (s : State) (u : Nat) : Loop :=
  let x := mlk s u
  if x.motAt = some (s.now / 2) then x.motWas else x.mot

/-- Whether the stake is steered by a compass unit outside SEARCH (R142). -/
def steered (s : State) (n : Nat) : Bool :=
  rdB s (STK_CTRL_STEER n) && (motLoop s (rd s (STK_CTRL_STEER_SRC n))).st != 0

/-- TRIM as a position, in the direction of the stream the loop follows, and cycle length a stake takes at a cycle advance or a seek (R142, R234). -/
def steerVals (s : State) (n : Nat) : Int × Nat :=
  if steered s n then
    let u := rd s (STK_CTRL_STEER_SRC n)
    (mlkSign s false u * (motLoop s u).trim, (motLoop s u).r.toNat)
  else (0, rd s (STK_CYCLE_CYCLE n))

/-- A stake enters DONE; END is raised (Table 5-2). -/
def stkDone (s : State) (n : Nat) : State := raise (wr s (STK_STATUS_WALK n) 3) (srcStakeEnd n)

/-- Arm the first firing of the entry after the armed one (R141, R142). -/
def stkNext (s : State) (n : Nat) : State :=
  let x := stk s n
  if x.idx + 1 < rd s (STK_TBL_LEN_LEN n) then armAt s n (x.idx + 1) 0 (stkEntry s n (x.idx + 1)) x.trim x.cyc
  else
    let v := steerVals s n
    if v.2 = 0 then stkDone s n
    else
      let off := rdI s (STK_OFFSET_NOW_OFFSET_NOW n)
      let s := wrI s (STK_OFFSET_NOW_OFFSET_NOW n) (if rdB s (STK_CTRL_DIR n) then off - v.2 else off + v.2)
      armAt s n 0 0 (stkEntry s n 0) v.1 v.2

/-- Arm the next firing after the armed one (R135, R141, R142). -/
def stkAdvance (s : State) (n : Nat) : State :=
  let x := stk s n
  let e := x.entry.getD (stkEntry s n x.idx)
  if e.stepN != 0 && (e.count == 0 || decide (x.k + 1 < e.count)) then armAt s n x.idx (x.k + 1) e x.trim x.cyc
  else stkNext s n

/-- A target or an entry is skipped: SKIP counts, ALARM is raised (R136, R157). -/
def stkSkip (s : State) (n : Nat) : State := raise (addSat s (STK_CNT_SKIP_COUNT n) 1) (srcStakeAlarm n)

/-- What the walker's reads of the entries it takes up show, in order (R157, R526): an entry whose read shows an uncorrectable error is neither armed nor fired, and the walker goes on to the next;
past the list the reads are good. DEDUCED (log 18). -/
def stkReads (n : Nat) : List MemEcc → State → State
  | [], s => armShow s n
  | x :: xs, s =>
    match x with
    | .none => armShow s n
    | .corrected => armShow (eccCorrected s 3 0) n
    | .uncorrectable a =>
      let s := stkNext (stkSkip (eccUncorrectable s 3 0 a.toNat) n) n
      if rd s (STK_STATUS_WALK n) = 3 then s else stkReads n xs s

/-- Arm the next firing; a firing of another entry needs that entry's read. -/
def stkMove (s : State) (n : Nat) (reads : List MemEcc) : State :=
  let s := stkAdvance s n
  if rd s (STK_STATUS_WALK n) = 3 then s
  else if (stk s n).k = 0 then stkReads n reads s else armShow s n

/-- A stake begins to seek (Table 5-2): OFFSET_NOW = STK_OFFSET. -/
def stkSeek (s : State) (n : Nat) : State :=
  wr (wrI s (STK_OFFSET_NOW_OFFSET_NOW n) (rdI s (STK_OFFSET_OFFSET n))) (STK_STATUS_WALK n) 1

/-- Reach of an entry past its target (R139); none for an unlimited stepping entry. -/
def reachOf (e : Entry) : Option Int :=
  if e.stepN = 0 then some 0 else if e.count = 0 then none else some (((e.count - 1) * e.stepN / e.stepD : Nat) : Int)

/-- The first firing of the entries from place `i` on, at cycle base `base` (mirrored for a negative direction), whose target lies strictly ahead of its
compare position (R139): place and k. DEDUCED (log 18). -/
def seekIn (s : State) (n : Nat) (neg : Bool) (base qa qn : Int) : Nat → Nat → Option (Nat × Nat × Entry)
  | 0, _ => none
  | f + 1, i =>
    let e := stkEntry s n i
    let sg := fun (v : Int) => if neg then -v else v
    let q := sg (if e.noLead then qn else qa)
    let b := base + sg e.target
    let ahead := match reachOf e with | none => true | some r => decide (q < (b + r) * 65536)
    if ahead then
      let d := floorDiv q 65536 - b + 1
      let k : Int := if e.stepN = 0 then 0 else max 0 (-(floorDiv (-(d * e.stepD)) e.stepN))
      some (i, k.toNat, e)
    else seekIn s n neg base qa qn f (i + 1)

/-- The first cycle, counted in cycle lengths from the cycle base `base0`, in which a firing of the region lies ahead of its own compare position (R139): the least over the entries, and 0 where
nothing repeats. Where the last entry steps without end R139 gives no cycle: 0. DESIGN CHOICE (log 18). -/
def seekCycle (s : State) (n : Nat) (neg : Bool) (base0 qa qn : Int) (cyc len : Nat) : Int :=
  let sg := fun (v : Int) => if neg then -v else v
  if cyc = 0 || (reachOf (stkEntry s n (len - 1))).isNone then 0
  else
    let ms := (List.range len).filterMap (fun i =>
      let e := stkEntry s n i
      (reachOf e).map (fun r => floorDiv (sg (if e.noLead then qn else qa) - (base0 + sg e.target + r) * 65536) ((cyc : Int) * 65536) + 1))
    match ms with
    | [] => 0
    | m :: l => l.foldl min m

/-- A stake's seek completes (R139, Table 5-2); on a null trail it compares at POS 0 (R573). DEDUCED (log 18). -/
def stakeSeekComplete (n : Nat) (reads : List MemEcc) (s : State) : State :=
  if rd s (STK_STATUS_WALK n) != 1 || !enabled s (stkEn n) then s else
  let neg := rdB s (STK_CTRL_DIR n)
  let sg := fun (v : Int) => if neg then -v else v
  let len := rd s (STK_TBL_LEN_LEN n)
  let v := steerVals s n
  let base0 := sg ((if steered s n then (motLoop s (rd s (STK_CTRL_STEER_SRC n))).u else rdI s (STK_OFFSET_OFFSET n)) + v.1)
  let qa := cmp16 s n false
  let qn := cmp16 s n true
  let base := base0 + seekCycle s n neg base0 qa qn v.2 len * v.2
  match seekIn s n neg base qa qn len 0 with
  | some (i, k, e) =>
    let s := wrI s (STK_OFFSET_NOW_OFFSET_NOW n) (sg base - v.1)
    stkReads n reads (armAt s n i k e v.1 v.2)
  | none => stkDone s n

/-- A stake enters HELD (Table 5-2). -/
def stkHold (s : State) (n : Nat) : State := wr s (STK_STATUS_WALK n) 0

/-- Whether stake `n` feeds a stream that has not stopped (R140). -/
def stkFeeds (s : State) (n : Nat) : Bool :=
  (List.range 64).any (fun st => streamOn s st && rd s (FRM_STR_BIND_SAMPLER st) == 0 && rd s (FRM_STR_BIND_STAKE st) == n)

/-- In DRAIN and HOLD, stakes that feed no running stream enter HELD (R140). -/
def stakesStop (s : State) : State :=
  each (below 64 (fun n => rd s (STK_STATUS_WALK n) != 0 && !stkFeeds s n)) stkHold s

/-- Every enabled stake in HELD begins to seek, on entry to FREERUN, TRACK or LOCK from ARMED (R43). -/
def stakesStart (s : State) : State :=
  each (below 64 (fun n => enabled s (stkEn n) && rd s (STK_STATUS_WALK n) == 0)) stkSeek s

/-- Every walking stake enters HELD, on a change to a mode that is neither an acquisition mode nor DRAIN nor HOLD (Table 5-2). -/
def stakesHold (s : State) : State := each (below 64 (fun n => rd s (STK_STATUS_WALK n) != 0)) stkHold s

/-- At the hand-over cycle every ARMED or DONE stake seeks in the new set (Table 5-2, R32). -/
def stakesHandover (s : State) : State :=
  each (below 64 (fun n => enabled s (stkEn n) && (rd s (STK_STATUS_WALK n) == 2 || rd s (STK_STATUS_WALK n) == 3))) stkSeek s

/-- A position step of trail `t` re-seeks the ARMED stakes on it and on trails that follow it (Table 5-2). -/
def stakesPosStep (s : State) (t : Nat) : State :=
  each (below 64 (fun n => rd s (STK_STATUS_WALK n) == 2 && rootTrail 5 s (rd s (STK_CTRL_TRAIL n)) == rootTrail 5 s t))
    (fun s n => wr (stkSeek s n) (STK_STATUS_RESEEK n) 1) s

/-- STK_REARM.GO (Table 5-2): a DONE stake seeks again. -/
def stakeRearm (n : Nat) (s : State) : State :=
  if rd s (STK_STATUS_WALK n) = 3 && enabled s (stkEn n) then stkSeek s n else s

/-- Whether an enable of stake `n` is refused (05_stakes_and_triggers.md, after Table 5-6; R573). -/
def stkRefused (s : State) (n : Nat) : Bool :=
  rd s (STK_TBL_LEN_LEN n) == 0 || decide (131072 < rd s (STK_TBL_BASE_BASE n) + rd s (STK_TBL_LEN_LEN n)) ||
    decide (12 ≤ rd s (STK_CTRL_TRAIL n))

/-- Drive a firing's destinations (Table 5-3): pins and CoaXPress lanes that select stake `n` and one of the outputs, each stream bound to it.
`fine` is s of R144. -/
def stkDrive (s : State) (n : Nat) (outA outB : Bool) (fine : Nat) (predicted late : Bool) : State :=
  let hit := fun (o : Bool) => if o then outB else outA
  if !stakesActive s then s else
  let s := each (below 24 (fun p => rd s (STK_TRG_CFG_SRC_TYPE p) == 1 && rd s (STK_TRG_CFG_SRC_IDX p) == n && hit (rdB s (STK_TRG_CFG_OUT p))))
    (fun s p =>
      let f := if rdB s (STK_TRG_CFG_FINE_EN p) && !late then fine else 0
      let r := firePin s p (8 * motNow s + f) (max 4 (rd s (STK_TRG_WIDTH_WIDTH p))) false
      if r.2 then raise r.1 (srcStakeAlarm n) else r.1) s
  let s := each (below 32 (fun l => rd s (STK_CXP_CFG_SRC_TYPE l) == 1 && rd s (STK_CXP_CFG_SRC_IDX l) == n && hit (rdB s (STK_CXP_CFG_OUT l))))
    (fun s l =>
      let r := fireCxp s l (8 * motNow s - 16 + fine)
      if r.2 then raise r.1 (srcStakeAlarm n) else r.1) s
  each (below 64 (fun st => rd s (FRM_STR_BIND_SAMPLER st) == 0 && rd s (FRM_STR_BIND_STAKE st) == n && hit (rdB s (FRM_STR_BIND_OUT st))))
    (fun s st => giveSample s st (motNow s) (stakeStamp s st) predicted late) s

/-- One firing of the armed target (R134, R135, R144, R149, R150). DEDUCED (log 18). -/
def stkFire (s : State) (n : Nat) (e : Entry) (late : Bool) (reads : List MemEcc) : State :=
  let t := rd s (STK_CTRL_TRAIL n)
  let q := cmp16 s n e.noLead
  let q0 := cmp16Prev s n e.noLead
  let tgt := rdI s (STK_ARMED_TGT_TGT n)
  let dq := q - q0
  let fine : Nat := if late || dq ≤ 0 then 0 else (clampInt 0 15 (floorDiv (16 * (tgt * 65536 - q0)) dq)).toNat
  let predicted := lead16 s n t e.noLead != 0
  let s := setStk s n { stk s n with fired := some (s.now / 2) }
  let s := addWrap s (STK_CNT_FIRE_COUNT n) 1
  let s := wrI s (STK_LAST_POS_POS n) (posNow s t)
  let s := wr (wr (wrB (wrB s (STK_LAST_FIRE_PREDICTED n) predicted) (STK_LAST_FIRE_LATE n) late) (STK_LAST_FIRE_FINE n) fine)
    (STK_LAST_FIRE_SPEED_VALID n) (b2n (speedValid s t))
  let s := onlyIf late (fun s => raise (addSat s (STK_CNT_LATEFIRE_COUNT n) 1) (srcStakeAlarm n)) s
  let s := stkDrive s n e.outA e.outB fine predicted late
  let s := onlyIf e.event (fun s => later s (.gyl n 0)) s
  stkMove s n reads

/-- Whether a stake on trail `t` may not fire (Table 5-2, R454): its source is in SRC_ERR, in line break or a held tether slot, or was and has not moved since. DEDUCED (log 18). -/
def stkBarred (s : State) (t : Nat) : Bool :=
  let r := rootTrail 5 s t
  let stands := fun (t : Nat) => (trl s t).barred && (t < 8 || posNow s t == (trl s t).base)
  lineBroken s r || stands t || stands r || rdB s (TRL_STATUS_SRC_ERR t) || rdB s (TRL_STATUS_SRC_ERR r)

/-- Whether the armed target of stake `n` was passed at arming (R136): Q in the cycle of its first compare decides. DEDUCED (log 18). -/
def stkPassed (s : State) (n : Nat) : Bool :=
  let x := stk s n
  match x.passed with
  | some b => b
  | none => atOrPast (rdB s (STK_CTRL_DIR n)) (cmp16 s n (x.entry.getD (stkEntry s n x.idx)).noLead) (rdI s (STK_ARMED_TGT_TGT n))

/-- Whether stake `n` compares its armed target in this cycle (R135): not before the cycle after it was armed, and not twice in one cycle. -/
def stkCompares (s : State) (n : Nat) : Bool :=
  decide ((stk s n).first ≤ s.now / 2) && (stk s n).fired != some (s.now / 2)

/-- The compare position reaches the armed target of stake `n` (R134 to R136, R157): it fires, or a target passed at arming is skipped or fired late. DEDUCED (log 18). -/
def stakeFire (n : Nat) (reads : List MemEcc) (s : State) : State :=
  if rd s (STK_STATUS_WALK n) != 2 || !(enabled s (stkEn n)) then s else
  let e := (stk s n).entry.getD (stkEntry s n (stk s n).idx)
  let t := rd s (STK_CTRL_TRAIL n)
  if 12 ≤ t || stkBarred s t || !stkCompares s n then s
  else if stkPassed s n then
    if rdB s (STK_CTRL_LATE_FIRE n) then stkFire s n e true reads
    else stkMove (stkSkip s n) n reads
  else if atOrPast (rdB s (STK_CTRL_DIR n)) (cmp16 s n e.noLead) (rdI s (STK_ARMED_TGT_TGT n)) then stkFire s n e false reads
  else s

/-! The table window (R155, R156). -/

/-- Load the entry at the window's address into the data registers. -/
def twLoad (s : State) : State :=
  let v := (sramAt s (rd s STK_TW_ADDR_ADDR)).toNat
  each (List.range 4) (fun s i => wr s (STK_TW_DATA_DATA i) (v / 2 ^ (32 * i))) s

/-- A write of STK_TW_ADDR (R155). -/
def tableAddrWrite (v : Nat) (s : State) : State := twLoad (wr s STK_TW_ADDR_ADDR v)

/-- An access of STK_TW_DATA3 advances ADDR, wrapping at 131 072, and loads the entry there (R155). -/
def twAdvance (s : State) : State := twLoad (wr s STK_TW_ADDR_ADDR ((rd s STK_TW_ADDR_ADDR + 1) % 131072))

/-- A stored entry re-arms each stake whose armed entry it is (R137, R156). DEDUCED (log 18). -/
def tableStored (s : State) (a : Nat) : State :=
  each (below 64 (fun n => enabled s (stkEn n) && rd s (STK_STATUS_WALK n) == 2 && rd s (STK_STATUS_ARMED_IDX n) == a))
    (fun s n =>
      let x := stk s n
      let e := entryOf (sramAt s a)
      let t := effTarget s n e x.k x.trim
      let behind := if rdB s (STK_CTRL_DIR n) then decide (cmp16 s n e.noLead < t * 65536) else decide (t * 65536 < cmp16 s n e.noLead)
      let s := onlyIf behind (fun s => raise (wr s (STK_STATUS_LATE n) 1) (srcStakeAlarm n)) s
      armShow (armAt s n x.idx x.k e x.trim x.cyc) n) s

/-- Store an entry of the trigger SRAM whole. -/
def sramStore (s : State) (a : Nat) (v : BitVec 128) : State :=
  { s with sram := mput none s.sram a (some v) }

/-- A write of STK_TW_DATA3 (R155, R156). -/
def tableData3Write (v : Nat) (s : State) : State :=
  let a := rd s STK_TW_ADDR_ADDR
  let s := wr s (STK_TW_DATA_DATA 3) v
  let w := rd s (STK_TW_DATA_DATA 0) + 2 ^ 32 * rd s (STK_TW_DATA_DATA 1) + 2 ^ 64 * rd s (STK_TW_DATA_DATA 2) + 2 ^ 96 * rd s (STK_TW_DATA_DATA 3)
  twAdvance (tableStored (sramStore s a (BitVec.ofNat 128 w)) a)

/-- A read of STK_TW_DATA3 (R155). -/
def tableData3Read (s : State) : State := twAdvance s

/-! Pulse generators. -/

def tpg (s : State) (g : Nat) : TpgS := mget {} s.tpg g
def setTpg (s : State) (g : Nat) (x : TpgS) : State := { s with tpg := mput {} s.tpg g x }

/-- The domain time of a generator in 1/256 ns. -/
def tpgNow (s : State) (g : Nat) : Nat := domRaw s (rd s (TPG_CFG_DOM g)) / 2 ^ 32

/-- The pulse time of grid point `k` in 1/256 ns (R120). -/
def gridTime (s : State) (g k : Nat) : Nat := rd s (TPG_START_START g) * 256 + k * rd s (TPG_PERIOD_PERIOD g)

/-- Whether a pulse time has passed (R122): earlier than the firing edge's domain time plus 8 ns. -/
def tpgPassed (s : State) (g t : Nat) : Bool := decide (t < tpgNow s g + 2048)

/-- Whether this is the firing edge of a pulse time (R121): the last edge that lies 8 ns or more before it. -/
def tpgDue (s : State) (g t : Nat) : Bool := decide (t < domRawAt s (rd s (TPG_CFG_DOM g)) (s.now + 1) / 2 ^ 32 + 2048)

/-- How far a pulse time lies past the firing edge plus 8 ns, in the steps of 125 ps the pin bank places (R121). -/
def tpgFine (s : State) (g t : Nat) : Nat := min 15 ((t - (tpgNow s g + 2048)) / 32)

/-- The first grid point that has not passed (R122). -/
def firstGrid (s : State) (g : Nat) : Nat :=
  let t0 := gridTime s g 0
  let n := tpgNow s g + 2048
  if n ≤ t0 then 0 else (n - t0 + rd s (TPG_PERIOD_PERIOD g) - 1) / max 1 (rd s (TPG_PERIOD_PERIOD g))

/-- Set a sticky flag of TPG_STATUS and raise the generator's source (Table 19-1). -/
def tpgFlag (s : State) (g : Nat) (f : FRef) : State := if rdB s f then s else raise (wr s f 1) (srcTpg g)

/-- Arm a one-shot target (R122, R124): a passed one fires on the next edge with IMMEDIATE, or is dropped with LATE. -/
def tpgArmOneShot (s : State) (g : Nat) : State :=
  if tpgPassed s g (gridTime s g 0) then
    if rdB s (TPG_CFG_IMMEDIATE g) then setTpg (tpgFlag s g (TPG_STATUS_FIRED_LATE g)) g { tpg s g with armed := true, late := true }
    else setTpg (tpgFlag s g (TPG_STATUS_LATE g)) g { tpg s g with armed := false, late := false }
  else setTpg s g { tpg s g with armed := true, late := false }

/-- A generator begins to disable itself after grid point COUNT - 1 (R120). -/
def tpgFinish (s : State) (g : Nat) : State := wr (wr s (TPG_EN_EN g) 0) (TPG_EN_STATE g) 3

/-- A periodic generator that has emitted or skipped grid point COUNT - 1 disables itself (R120). -/
def tpgCounted (s : State) (g : Nat) : State :=
  let c := rd s (TPG_COUNT_COUNT g)
  if c != 0 && decide (c ≤ (tpg s g).k) then tpgFinish s g else s

/-- A generator reaches ENABLED (R122). Every grid point passed over counts in TPG_SKIPPED, those at and beyond COUNT too: R122 adds the skipped k and names no bound. DESIGN CHOICE (log 17). DEDUCED (log 17). -/
def tpgStart (s : State) (g : Nat) : State :=
  if rdB s (TPG_CFG_PERIODIC g) then
    let k := firstGrid s g
    tpgCounted (addSat (setTpg s g { tpg s g with k := k, armed := true, late := false }) (TPG_SKIPPED_COUNT g) k) g
  else tpgArmOneShot s g

/-- Whether an enable of generator `g` is refused (R125). -/
def tpgRefused (s : State) (g : Nat) : Bool :=
  let w := rd s (TPG_WIDTH_WIDTH g)
  let p := rd s (TPG_PERIOD_PERIOD g)
  decide (w < 4) || (rdB s (TPG_CFG_PERIODIC g) && (decide (p < 16 * 256) || decide (p < (w + 4) * 256)))

/-- Emit one pulse (R120, R121, R126), `fr` steps of 125 ps past the firing edge plus 8 ns: counted, its event, its pins and uplinks where the mode lets them, its tag
samples, whose trail values are those of the cycle their crossing arrives in (R27). At a pin it lasts TPG_WIDTH as R120 says, where R143 gives every pulse STK_TRG_WIDTH: DESIGN CHOICE (log 18). -/
def tpgEmit (s : State) (g hop fr : Nat) : State :=
  let s := addWrap s (TPG_FIRED_COUNT g) 1
  let s := later s (.gyl (64 + g) hop)
  let w := rd s (TPG_WIDTH_WIDTH g)
  let s := setTpg s g { tpg s g with pulseEnd := some (s.now + 8 + w), fireEnd := (if hop != 0 then some (s.now + 8 + w) else (tpg s g).fireEnd) }
  let s := if tpgActive s g then
      let s := each (below 24 (fun p => rd s (STK_TRG_CFG_SRC_TYPE p) == 2 && rd s (STK_TRG_CFG_SRC_IDX p) == g))
        (fun s p => (firePin s p (8 * (s.now + 8) + fr) (8 + w) (rdB s (TPG_CFG_POL g))).1) s
      each (below 32 (fun l => rd s (STK_CXP_CFG_SRC_TYPE l) == 2 && rd s (STK_CXP_CFG_SRC_IDX l) == g))
        (fun s l => (fireCxp s l (8 * (s.now + 8) + fr)).1) s
    else s
  each (below 64 (fun st => rd s (FRM_STR_BIND_SAMPLER st) == 1 && rd s (FRM_STR_BIND_TPG st) == g))
    (fun s st =>
      let n := (strS s st).seq
      let s := giveSample s st (tpgCycle s) (domRaw s (rd s (FRM_STR_BIND_DOM st))) false false
      { s with due := s.due ++ [.sample st n (tpgCycle s)] }) s

/-- A generator reaches its firing edge (R120, R121), or a guyline FIRE activation does (R422). DEDUCED (log 17). -/
def tpgFire (g : Nat) (s : State) : State :=
  if !enabled s (tpgEn g) then s else
  match mget (none : Option Nat) s.gyl.tpg g with
  | some hop => tpgEmit { s with gyl := { s.gyl with tpg := mput none s.gyl.tpg g none } } g (min 7 (hop + 1)) 0
  | none =>
    let x := tpg s g
    if rdB s (TPG_CFG_PERIODIC g) then
      let t := gridTime s g x.k
      if tpgDue s g t then tpgCounted (tpgEmit (setTpg s g { x with k := x.k + 1 }) g 0 (tpgFine s g t)) g else s
    else if x.armed && (x.late || tpgDue s g (gridTime s g 0)) then
      tpgEmit (setTpg s g { x with armed := false, late := false }) g 0 (if x.late then 0 else tpgFine s g (gridTime s g 0))
    else s

/-- A step of domain `d` moves the generators' grids (R123). DEDUCED (log 17). -/
def tpgDomStep (s : State) (d : Nat) (fwd : Bool) : State :=
  each (below 16 (fun g => enabled s (tpgEn g) && rd s (TPG_CFG_DOM g) == d)) (fun s g =>
    let x := tpg s g
    if rdB s (TPG_CFG_PERIODIC g) then
      let k := firstGrid s g
      if fwd then tpgCounted (addSat (setTpg s g { x with k := max x.k k }) (TPG_SKIPPED_COUNT g) (k - x.k)) g
      else setTpg s g { x with k := min x.k k }
    else if fwd && x.armed && tpgPassed s g (gridTime s g 0) then
      tpgEmit (setTpg (tpgFlag s g (TPG_STATUS_FIRED_LATE g)) g { x with armed := false, late := false }) g 0 0
    else s) s

/-- A write of the high word of TPG_START, or of the whole (R124): it arms a target of an ENABLED one-shot; else it is locked out while the generator is not
DISABLED. -/
def tpgStartWrite (g v : Nat) (s : State) : State :=
  let st := enState s (tpgEn g)
  if st = 0 then wr s (TPG_START_START g) v
  else if st = 2 && !rdB s (TPG_CFG_PERIODIC g) then tpgArmOneShot (wr s (TPG_START_START g) v) g
  else tpgFlag s g (TPG_STATUS_CFG_LOCK g)

end Sys2Proof.Machine
end

