-- ==== Sys2Proof/Machine/Lanes.lean ====
section
/-! DEFINITION. Camera lanes and streams (06_camera_lanes.md): training and bonding, the control window, the raw path, CoaXPress and GVSP
reception up to the pairing of lines with tag samples. -/

namespace Sys2Proof.Machine

def lane (s : State) (n : Nat) : LaneS := mget {} s.lane n
def setLane (s : State) (n : Nat) (x : LaneS) : State := { s with lane := mput {} s.lane n x }

/-! Groups (R162). -/

/-- Lanes of a group by its BOND code. -/
def bondSize (b : Nat) : Nat := 2 ^ (b % 4)

/-- The master of lane `n`'s group. DEDUCED (log 19). -/
def masterOf (s : State) (n : Nat) : Nat := rd s (CAM_LANE_STATUS_MASTER n)

/-- The number of lanes of master `m`'s group under a CAM_LANE_CFG word: BOND is ignored in Ethernet modes. -/
def groupSize (cfg : Nat) : Nat := if cfg % 16 = 8 || cfg % 16 = 9 then 1 else bondSize (cfg / 16)

/-- The lanes of the group that master `m` runs, as loaded. -/
def members (s : State) (m : Nat) : List Nat := (List.range (groupSize (lane s m).cfg)).map (fun i => m + i)

/-- Set TRAIN and UP of every lane of a group (Table 6-10). -/
def setTrain (s : State) (m st : Nat) : State :=
  each (members s m) (fun s n => wr (wr s (CAM_LANE_STATUS_TRAIN n) st) (CAM_LANE_STATUS_UP n) (b2n (st == 4))) s

/-- TRAIN of lane `n`. -/
def train (s : State) (n : Nat) : Nat := rd s (CAM_LANE_STATUS_TRAIN n)

/-- Show the membership of a group (Table 6-10). -/
def showMembers (s : State) (m : Nat) : State :=
  each (members s m) (fun s n => wr (wr s (CAM_LANE_STATUS_MASTER n) m) (CAM_LANE_STATUS_MEMBER n) (b2n (n != m))) s

/-- Take the group's lanes apart again: each lane is its own master. -/
def clearMembers (s : State) (m : Nat) : State :=
  each (members s m) (fun s n =>
    wr (wr (wr (wr (wr s (CAM_LANE_STATUS_MASTER n) n) (CAM_LANE_STATUS_MEMBER n) 0) (CAM_LANE_STATUS_TRAIN n) 0) (CAM_LANE_STATUS_UP n) 0)
      (CAM_LANE_STATUS_UPLINK_UP n) 0) s

/-! Enabling a lane. -/

/-- Why an enable of lane `n` is refused (R161, R162, R173), as the reason of LANE_CFG_ERR. -/
def laneRefuse (s : State) (n : Nat) : Option Nat :=
  let m := rd s (CAM_LANE_CFG_MODE n)
  let f := rd s (CAM_LANE_CFG_FEC n)
  let eth := m == 8 || m == 9
  let cxp := decide (1 ≤ m) && decide (m ≤ 7)
  if decide (10 ≤ m) || f == 3 || (f == 2 && m != 9) || (cxp && f != 0) then some 0
  else if !eth && n % bondSize (rd s (CAM_LANE_CFG_BOND n)) != 0 then some 1
  else if eth && (rd s (CAM_ETH_MAC_MAC n) == 0 || rd s (CAM_ETH_IP_IP n) == 0) then some 2
  else none

/-- A LANE_CFG_ERR record (Table 6-16) and the CFG_ERR source of the lane's page. -/
def cfgErrRecord (s : State) (page stream reason : Nat) : State :=
  raise (record s rpData 0x0B svWarning 0x3004 (leBytes 1 page ++ leBytes 1 stream ++ leBytes 1 reason)) (srcLane page 4)

/-- The lane begins detection (Table 6-2): its receiver is reset, and with it the high bit-error monitor. DEDUCED (log 19). -/
def laneDetect (s : State) (m : Nat) : State :=
  let s := each (members s m) (fun s n => setLane s n { lane s n with discovering := false }) s
  setTrain (wr (setLane s m { lane s m with detectAt := s.now }) (CAM_LANE_STATUS_HIGH_BER m) 0) m 1

/-- Training of a group begins again: with DISCOVER = 1 discovery runs at its next entry to ALIGN (R164). -/
def laneAgain (s : State) (m : Nat) : State := laneDetect (setLane s m { lane s m with discovered := false }) m

/-- A lane's enable reaches ENABLING: configuration loaded, receivers reset, DETECT (Table 6-2). With MODE 0 the lane is off and does not train. A lane of the group that was itself enabled, or trained, becomes
a member all the same, and its own enable state stays: R162 does not say. DESIGN CHOICE (log 19). -/
def laneLoad (s : State) (n : Nat) : State :=
  let s := setLane s n { lane s n with cfg := rd s ⟨0x70004 + 0x2000 * n, 0, 11⟩, discovered := false }
  let s := showMembers s n
  if rd s (CAM_LANE_CFG_MODE n) = 0 then s else laneDetect s n

/-- A LANE_DOWN record for a group that leaves UP, the DOWN source of each of its lanes (Tables 6-2, 6-7, 6-16), and what ends with the link: the firmware's hold on the camera and its PTP. DEDUCED (log 19). -/
def laneDown (s : State) (m cause : Nat) : State :=
  let s := record s rpData 0x0B svWarning 0x3002 (leBytes 1 m ++ leBytes 1 cause ++ leBytes 4 (rd s (CAM_CNT_ALIGN_COUNT m)))
  let s := ptpRestart (setLane s m { lane s m with privilege := false, tx := none }) m
  each (members s m) (fun s n => raise s (srcLane n 1)) (wr s (CAM_LANE_STATUS_UPLINK_UP m) 0)

/-- A lane reaches DISABLED: OFF (Table 6-2, last row). -/
def laneOff (s : State) (n : Nat) : State :=
  let s := onlyIf (train s n == 4) (fun s => laneDown s n 4) s
  let s := clearMembers s n
  { s with cxp := mput none s.cxp n none }

/-- A link error of lane `n` (R187): its fault window counts it. DEDUCED (log 19). -/
def linkErrors (s : State) (n k : Nat) : State := windowInc s n k

/-- A loss counted in CAM_CNT_ALIGN (Table 6-2, R187). DEDUCED (log 19). -/
def alignLoss (s : State) (m : Nat) : State := linkErrors (addSat s (CAM_CNT_ALIGN_COUNT m) 1) m 1

/-! Streams. -/

/-- Whether a stream context takes data: its enable is ENABLED or finishes a frame (R58). -/
def strActive (s : State) (st : Nat) : Bool := enState s (camStrEn st) == 2 || enState s (camStrEn st) == 3

/-- Streams bound to a lane. -/
def streamsOf (s : State) (n : Nat) : List Nat := below 64 (fun st => strActive s st && rd s (CAM_STR_BIND_LANE st) == n)

/-- Whether lanes pass data on in the present mode (Table 2-2): in the acquisition modes, DRAIN and HOLD. -/
def receiving (s : State) : Bool := acquiring s || mode s == 8 || mode s == 10

/-- Streams of a lane that returned to UP discard data up to the next image, and pair with samples taken from now on (R186). Samples taken before the loss whose lines never came, and lines that still wait, are
dropped with no missing line and no count: R186 does not say. DESIGN CHOICE (log 20). -/
def streamsUp (s : State) (m : Nat) : State :=
  each (streamsOf s m) (fun s st =>
    let x := strS s st
    wr (setStr s st { seq := x.seq, nextSeq := x.seq, lines := x.lines, pp := x.pp }) (CAM_STR_STATUS_IN_IMAGE st) 0) s

/-- The firmware finds the camera of a port and takes its control channel privilege (R170, R176). When it sends DISCOVERY the spec does not state. DESIGN CHOICE (log 19). -/
def gvcpTake (s : State) (n : Nat) : State :=
  if ethMode s n && !rdB s (CAM_ETH_CFG_GVCP_HOST n) then
    send (send (setLane s n { lane s n with privilege := true }) (.gvcpDiscovery n)) (.gvcpPrivilege n true)
  else s

/-- A lane or group reaches UP (Tables 6-2, 6-7, 6-16): one record for the group, the UP source of each lane. DEDUCED (log 19). -/
def laneUp (s : State) (m : Nat) : State :=
  let s := setTrain s m 4
  let s := wr s (CAM_LANE_STATUS_UPLINK_UP m) (b2n (cxpMode s m))
  let s := record s rpData 0x0B svNotice 0x3001 (leBytes 1 m ++ leBytes 1 (laneMode s m) ++ leBytes 1 (members s m).length)
  streamsUp (gvcpTake (each (members s m) (fun s n => raise s (srcLane n 0)) s) m) m

/-! Training events (Table 6-2). -/

/-- Whether discovery must run at the master's entry to ALIGN (R164): with DISCOVER on a CoaXPress master, unless this training is the one at the rate it found. -/
def mustDiscover (s : State) (m : Nat) : Bool := bitOf (lane s m).cfg 6 && cxpMode s m && !(lane s m).discovered

/-- Whether a discovery gives the group something to train at: a CoaXPress mode and a group size that the master's number allows. -/
def discoveryFits (m : Nat) (d : Discovered) : Bool :=
  decide (1 ≤ d.mode.toNat) && decide (d.mode.toNat ≤ 7) && m % bondSize d.bond.toNat == 0

/-- Discovery runs (R164): every lane of the group starts at the lowest discovery rate, in ALIGN, and the firmware reads the camera's bootstrap registers. DEDUCED (log 19). -/
def discoveryRun (s : State) (m : Nat) : State :=
  send (setTrain (each (members s m) (fun s n => setLane s n { lane s n with discovering := true }) s) m 2) (.cxpBootstrap m)

/-- Discovery has read the camera's bootstrap registers (R164): its result becomes MODE and BOND, and the group retrains at that rate. -/
def laneDiscover (s : State) (m : Nat) (d : Discovered) : State :=
  let s := clearMembers (laneDetect s m) m
  let s := wr (wr s (CAM_LANE_CFG_MODE m) d.mode.toNat) (CAM_LANE_CFG_BOND m) d.bond.toNat
  let s := setLane s m { lane s m with cfg := rd s ⟨0x70004 + 0x2000 * m, 0, 11⟩, discovered := true }
  laneDetect (showMembers s m) m

/-- Signal and clock on every lane of the group: ALIGN (Table 6-2). Where discovery must run, `disc` is its result; with none it still runs, and the group stays in ALIGN until a result
comes or the 10 ms pass (R164). DEDUCED (log 19). -/
def laneSignalDetect (n : Nat) (disc : Option Discovered) (s : State) : State :=
  let m := masterOf s n
  let runs := train s m == 2 && (lane s m).discovering
  if train s m != 1 && !runs then s else
  let s := each (members s m) (fun s n => wr s (CAM_LANE_STATUS_NO_SIGNAL n) 0) s
  if !runs && !mustDiscover s m then setTrain s m 2
  else
    let s := if runs then s else discoveryRun s m
    match disc with
    | some d => if discoveryFits m d then laneDiscover s m d else s
    | none => s

/-- No signal for 100 ms: NO_SIGNAL set on every lane of the group, with its source, and detection repeats. DEDUCED (log 19). -/
def laneNoSignal (n : Nat) (s : State) : State :=
  let m := masterOf s n
  if train s m != 1 then s else
  let s := each (members s m) (fun s n => wr s (CAM_LANE_STATUS_NO_SIGNAL n) 1) s
  let s := record s rpData 0x0B svInfo 0x3003 (leBytes 1 m ++ leBytes 4 ((s.now - (lane s m).detectAt) / 1000000))
  each (members s m) (fun s n => raise s (srcLane n 3)) s

/-- Alignment or block lock reached (Table 6-2): DESKEW for a group, UP otherwise. An Ethernet port needs HIGH_BER = 0, and a group that runs discovery trains no further yet (R164). -/
def laneAligned (n : Nat) (s : State) : State :=
  let m := masterOf s n
  if train s m != 2 || (lane s m).discovering || (ethMode s m && rdB s (CAM_LANE_STATUS_HIGH_BER m)) then s
  else if 1 < (members s m).length then setTrain s m 3 else laneUp s m

/-- Not aligned within 10 ms: DETECT. -/
def laneAlignTimeout (n : Nat) (s : State) : State :=
  let m := masterOf s n
  if train s m != 2 then s else alignLoss (laneAgain s m) m

/-- CAM_SKEW of lanes, in ns behind their masters (R163, R165). -/
def skewsShow (l : List (Nat × Nat)) (s : State) : State := each l (fun s p => wr s (CAM_SKEW_SKEW p.1) p.2) s

/-- Skew of every member measured, in ns behind the master: UP within 4 us, else DETECT. -/
def laneDeskewDone (n : Nat) (skews : List Nat) (s : State) : State :=
  let m := masterOf s n
  if train s m != 3 then s else
  if skews.all (fun k => decide (k ≤ 4000)) then
    laneUp (skewsShow ((members s m).zip (skews ++ List.replicate 8 0)) s) m
  else alignLoss (laneAgain s m) m

/-- CALIBRATE has measured the skew of lanes again, of which those that are UP show it (R165). -/
def lanesReskew (l : List (Nat × Nat)) (s : State) : State := skewsShow (l.filter (fun p => rdB s (CAM_LANE_STATUS_UP p.1))) s

/-- The uplinks of CoaXPress cameras send test packets in CALIBRATE (Table 6-3). When and how many the spec does not state. DESIGN CHOICE (log 19). -/
def cxpTests (s : State) : State := each (below 32 (fun n => cxpMode s n && masterOf s n == n && rdB s (CAM_LANE_STATUS_UP n))) (fun s n => send s (.cxpTest n)) s

/-- A link event of a lane (Table 6-2): loss of signal, clock, alignment or block lock on any lane of a group in UP takes it to DETECT. A high bit-error rate of an Ethernet port is none of these: it shows
in HIGH_BER, and bars the next training (R163). DEDUCED (log 19). -/
def laneLinkLoss (n : Nat) (cause : LossCause) (s : State) : State :=
  let m := masterOf s n
  if cause = .highBer then (if ethMode s m && 1 < train s m then wr s (CAM_LANE_STATUS_HIGH_BER m) 1 else s)
  else if train s m != 4 then s else
  let s := addSat (laneAgain s m) (CAM_CNT_ALIGN_COUNT m) 1
  linkErrors (laneDown s m (match cause with | .signal => 0 | .clock => 1 | _ => 2)) m 1

/-- The lane's fault window escalates with "retrain" (Table 6-2): every lane of its group is retrained, counts it and raises the source. DEDUCED (log 19). -/
def laneRetrain (n : Nat) (s : State) : State :=
  let m := masterOf s n
  if train s m != 4 then s else
  let s := each (members s m) (fun s n => addSat s (CAM_LANE_STATUS_RETRAINS n) 1) (setTrain s m 5)
  each (members s m) (fun s n => raise s (srcLane n 2)) (laneDown s m 3)

/-- Receivers reset, after 1 us: DETECT. -/
def laneRetrainDone (n : Nat) (s : State) : State :=
  let m := masterOf s n
  if train s m = 5 then laneAgain s m else s

/-! The control window (R167, R168). -/

def ctlBuf (n : Nat) : Nat := 0x70200 + 0x2000 * n

/-- A control command ends (Tables 6-12, 6-7, 6-16): DONE, ERR and CAM_CODE, its source, and a record of an error. -/
def ctlEnd (s : State) (n err code addr : Nat) : State :=
  let s := wr (wr (wr s (CAM_CTL_STATUS_DONE n) 1) (CAM_CTL_STATUS_ERR n) err) (CAM_CTL_STATUS_CAM_CODE n) code
  if err = 0 then raise s (srcLane n 8)
  else raise (record s rpData 0x0B svNotice 0x3008 (leBytes 1 n ++ leBytes 1 err ++ leBytes 2 code ++ leBytes 4 addr)) (srcLane n 9)

/-- A write of CAM_CTL_CMD with GO = 1. DEDUCED (log 19). -/
def camCtl (n : Nat) (write : Bool) (len : Nat) (s : State) : State :=
  let addr := rd s (CAM_CTL_ADDR_ADDR n) % 2 ^ 32
  if rdB s (CAM_CTL_STATUS_BUSY n) then ctlEnd s n 4 0 addr
  else if len < 4 || 256 < len || len % 4 != 0 then ctlEnd s n 5 0 addr
  else if !rdB s (CAM_LANE_STATUS_UP n) || rdB s (CAM_LANE_STATUS_MEMBER n) then ctlEnd s n 3 0 addr
  else if ethMode s n && rdB s (CAM_ETH_CFG_GVCP_HOST n) then ctlEnd s n 6 0 addr
  else
    let s := wr (wr s (CAM_CTL_STATUS_BUSY n) 1) (CAM_CTL_STATUS_ERR n) 0
    let s := setLane s n { lane s n with ctl := some ⟨write, addr, len⟩ }
    send s (.camCommand n write addr len (if write then ramBytes s (ctlBuf n) len else []))

/-- A CRC error on a lane (R187): CAM_CNT_CRC and the lane's link-error counter. -/
def crcError (s : State) (n : Nat) : State := linkErrors (addSat s (CAM_CNT_CRC_COUNT n) 1) n 1

/-- The camera answers the outstanding command; an acknowledgement with a CRC error is counted and is none (R187). DEDUCED (log 19). -/
def camCtlAnswer (n code : Nat) (x : CtlAnswer) (s : State) : State :=
  if !x.crcOk && rdB s (CAM_LANE_STATUS_UP n) then crcError s n else
  match (lane s n).ctl with
  | none => s
  | some c =>
    let s := wr (setLane s n { lane s n with ctl := none }) (CAM_CTL_STATUS_BUSY n) 0
    if x.refused then ctlEnd s n 2 code c.addr
    else
      let s := onlyIf (!c.write) (fun s => ramStore s (ctlBuf n) (padTo c.len x.data)) s
      ctlEnd s n 0 code c.addr

/-- CAM_CTL_TIMEOUT expires while BUSY. -/
def camCtlTimeout (n : Nat) (s : State) : State :=
  match (lane s n).ctl with
  | none => s
  | some c => ctlEnd (wr (setLane s n { lane s n with ctl := none }) (CAM_CTL_STATUS_BUSY n) 0) n 1 0 c.addr

/-! The raw path (R177, R178). -/

/-- An entry for the raw receive FIFO: truncated to 2 048 bytes; dropped and counted when eight are held. -/
def rawPush (s : State) (n kind : Nat) (data : List Byte) : State :=
  let q := (lane s n).raw
  if 8 ≤ q.length then addSat (wr s (CAM_RAW_RX_STATUS_OVF n) 1) (CAM_RAW_RX_STATUS_LOST n) 1
  else
    let s := wr (setLane s n { lane s n with raw := q ++ [⟨kind, data.take 2048⟩] }) (CAM_RAW_RX_STATUS_LEVEL n) (q.length + 1)
    if q.isEmpty then raise s (srcLane n 10) else s

/-- CAM_RAW_RX as it reads (Table 6-13). -/
def rawRx (s : State) (n : Nat) : Nat :=
  match (lane s n).raw with
  | [] => 0
  | e :: _ => e.data.length + 2 ^ 16 * e.kind + 2 ^ 63

/-- A write of CAM_RAW_RX_POP with GO = 1: releases the head entry. -/
def rawRxPop (n : Nat) (s : State) : State :=
  let q := (lane s n).raw.drop 1
  wr (setLane s n { lane s n with raw := q }) (CAM_RAW_RX_STATUS_LEVEL n) q.length

/-- The PTP event message in a frame: messageType, domainNumber, sequenceId (R117, R178), on Ethernet or over UDP/IPv4, with or without a VLAN tag. -/
def ptpIn (f : List Byte) : Option (Nat × Nat × Nat) :=
  let at_ := fun (i : Nat) => (f.getD i 0).toNat
  let o := if at_ 12 = 0x81 && at_ 13 = 0 then 4 else 0
  let et := 256 * at_ (12 + o) + at_ (13 + o)
  let ip := 14 + o
  let udp := ip + 4 * (at_ ip % 16)
  let p := if et = 0x88F7 then ip
    else if et = 0x0800 && at_ (ip + 9) = 17 && 256 * at_ (udp + 2) + at_ (udp + 3) = 319 then udp + 8 else 0
  if p = 0 || f.length < p + 34 || 4 ≤ at_ p % 16 then none
  else some (at_ p % 16, at_ (p + 4), 256 * at_ (p + 30) + at_ (p + 31))

/-- The frame being sent has left the port (R178): DONE. -/
def rawTxOver (s : State) (n : Nat) : State :=
  match (lane s n).tx with
  | some t => if t ≤ s.now then wr (setLane s n { lane s n with tx := none }) (CAM_RAW_TX_STATUS_DONE n) 1 else s
  | none => s

/-- CAM_RAW_TX_STATUS as it reads: BUSY while a frame leaves, DONE once it has. -/
def rawTxStatus (s : State) (n v : Nat) : Nat :=
  match (lane s n).tx with
  | some t => if t ≤ s.now then Nat.lor v 2 else v + 1
  | none => v

/-- Nanoseconds that `b` bytes and the preamble take at a port's MAC rate (Table 6-1). PRESUMED (log 19). -/
def wireNs (s : State) (n b : Nat) : Nat := if laneMode s n = 9 then ((b + 8) * 8 + 24) / 25 else ((b + 8) * 8 + 9) / 10

/-- A write of CAM_RAW_TX_CTRL with GO = 1 (R178): the frame, padded to 60 bytes, with its FCS. -/
def rawTxSend (n len : Nat) (s : State) : State :=
  let s := rawTxOver s n
  if (lane s n).tx.isSome || len < 14 || 2044 < len || !ethMode s n || !rdB s (CAM_LANE_STATUS_UP n) then wr s (CAM_RAW_TX_STATUS_REFUSED n) 1
  else
    let f := ramBytes s (0x71800 + 0x2000 * n) len
    let p := f ++ List.replicate (60 - len) 0
    let s := send s (.ethFrame n (p ++ leBytes 4 (crc32 p)))
    let s := setLane s n { lane s n with tx := some (s.now + wireNs s n (p.length + 4)) }
    match ptpIn f with
    | some (ty, dn, seq) => ptpEgress s n dn ty seq
    | none => s

/-- Whether the enable that governs a lane is QUIESCING: it accepts no new work (R58). -/
def laneStops (s : State) (n : Nat) : Bool := enState s (laneEn (masterOf s n)) == 3

/-! Pixel formats (R181, Table 6-6). -/

/-- Bits of a pixel by FORMAT. -/
def fmtBits (f : Nat) : Nat :=
  if f = 0 || (4 ≤ f && f ≤ 7) then 8 else if f = 1 || (8 ≤ f && f ≤ 11) then 10 else if f = 2 || (12 ≤ f && f ≤ 15) then 12
  else if f = 3 then 16 else 24

/-- The unpacked and the packed PFNC code of a FORMAT. -/
def fmtCode (f : Nat) (packed : Bool) : Nat :=
  if packed then
    match f with
    | 1 => 0x010A0046 | 2 => 0x010C0047 | 8 => 0x010A0056 | 9 => 0x010A0058 | 10 => 0x010A0054 | 11 => 0x010A0052
    | 12 => 0x010C0057 | 13 => 0x010C0059 | 14 => 0x010C0055 | 15 => 0x010C0053 | _ => 0
  else
    match f with
    | 0 => 0x01080001 | 1 => 0x01100003 | 2 => 0x01100005 | 3 => 0x01100007
    | 16 => 0x02180014
    | _ => if 4 ≤ f && f ≤ 7 then 0x01080008 + (f - 4) else if 8 ≤ f && f ≤ 11 then 0x0110000C + (f - 8) else 0x01100010 + (f - 12)

/-- Whether a FORMAT has a packed layout. -/
def fmtPackable (f : Nat) : Bool := fmtBits f == 10 || fmtBits f == 12

/-- Whether a FORMAT is a Bayer format. -/
def fmtBayer (f : Nat) : Bool := decide (4 ≤ f) && decide (f ≤ 15)

/-- Bytes of one stored or wire pixel when not packed. -/
def fmtBytes (f : Nat) : Nat := if fmtBits f = 8 then 1 else if fmtBits f = 24 then 3 else 2

/-- Bytes of a line of `w` pixels on the wire (R181), rounded up. -/
def wireBytes (s : State) (old : Bool) (st w : Nat) : Nat :=
  let f := rdSet s old (CAM_STR_FMT_FORMAT st)
  if rdSet s old (CAM_STR_FMT_WIRE_P st) = 1 then (w * fmtBits f + 7) / 8 else w * fmtBytes f

/-- The wire code of a stream's format (Table 6-6). -/
def wireCode (s : State) (old : Bool) (st : Nat) : Nat :=
  fmtCode (rdSet s old (CAM_STR_FMT_FORMAT st)) (rdSet s old (CAM_STR_FMT_WIRE_P st) == 1)

/-- Whether the format and geometry of a stream break Table 6-6 or R181 (R180), in the ACTIVE set. -/
def fmtBroken (s : State) (st : Nat) : Bool :=
  let f := rd s (CAM_STR_FMT_FORMAT st)
  let w := rd s (CAM_STR_GEOM_WIDTH st)
  let h := rd s (CAM_STR_GEOM_HEIGHT st)
  let p := rdB s (CAM_STR_FMT_WIRE_P st)
  decide (16 < f) || (p && !fmtPackable f) || w == 0 ||
    (if rdB s (CAM_STR_BIND_LINE st) then decide (32768 < w) else h == 0) ||
    (fmtBayer f && w % 2 == 1) || (p && w * fmtBits f % 8 != 0)

/-- Why an enable of a stream is refused (R180, R181), as the reason of LANE_CFG_ERR. -/
def strRefuse (s : State) (st : Nat) : Option Nat :=
  let l := rd s (CAM_STR_BIND_LANE st)
  let eth := ethMode s l
  let clash := (List.range 64).any (fun o => o != st && enState s (camStrEn o) != 0 && rd s (CAM_STR_BIND_LANE o) == l &&
    (if eth then rd s (CAM_STR_BIND_UDP o) == rd s (CAM_STR_BIND_UDP st) else rd s (CAM_STR_BIND_SRC_ID o) == rd s (CAM_STR_BIND_SRC_ID st)))
  if clash || (eth && rd s (CAM_STR_BIND_UDP st) == 0) then some 3
  else if fmtBroken s st then some 4 else none

/-! Reception. -/

/-- Whether a stream's lines are single lines (line mode). -/
def lineMode (s : State) (st : Nat) : Bool := rdB s (CAM_STR_BIND_LINE st)

/-- Bytes that a stream holds in lane `n`'s ingress buffer (R184): CoaXPress lines that wait, packets held for their turn, the part of a line. GVSP data goes to its block's place in HBM as it comes (R174), and
waits in no buffer. DEDUCED (log 20). -/
def streamFill (s : State) (n st : Nat) : Nat :=
  let x := strS s st
  let a := x.rx.foldl (fun a r => if r.lane = n && (r.img.bind (·.2.2)).isNone then a + r.line.data.length else a) 0
  let b := x.held.foldl (fun a p => if p.lane = n && p.ok then a + p.pkt.size.toNat else a) a
  if rd s (CAM_STR_BIND_LANE st) = n && !x.partBad then b + x.part.length else b

/-- Bytes that wait in a lane's ingress buffer (R184). DEDUCED (log 20). -/
def ingressFill (s : State) (n : Nat) : Nat := (List.range 64).foldl (fun a st => a + streamFill s n st) 0

/-- Add a received line to a stream's waiting lines. DEDUCED (log 20). -/
def rxPush (s : State) (st : Nat) (r : RxLine) : State := setStr s st { strS s st with rx := (strS s st).rx ++ [r] }

/-- The arrival strobe of a camera-timed stream (R192): it gives a sample, whose position is that of the MOT cycle its crossing arrives in and whose stamp follows R26; answers the sample's sequence number.
No strobe on a stream with another sampler. DEDUCED (log 18). -/
def lineStrobe (s : State) (st : Nat) : State × Option (Option Nat) :=
  if rd s (FRM_STR_BIND_SAMPLER st) != 2 then (s, none)
  else
    let q := (strS s st).seq
    let stamp := ofSigned 104 ((domRawAt s (rd s (FRM_STR_BIND_DOM st)) (s.now + 2) : Int) - 3 * 2 ^ 39)
    let s := giveSample s st (tpgCycle s) stamp false false
    (s, some (if (strS s st).seq = q then none else some q))

/-- Discard from a stream's FIFO the head samples that had waited too long when a line's first data word came at `t` (R194): more than `mx` us, or 2^31 MOT cycles. -/
def dropStale (mx t : Nat) (x : StreamS) : StreamS :=
  let old := fun (h : TagSample) => (mx != 0 && decide (mx * 1000 < t - h.at_)) || decide (2 * 2 ^ 31 < t - h.at_)
  match (x.samples.takeWhile old).getLast? with
  | none => x
  | some h => { x with samples := x.samples.dropWhile old, nextSeq := (h.seq + 1) % 65536 }

/-- The sample with the matching trigger sequence number for a stream's next line, and the stream after it (R28): none where that sample was dropped, where no strobe came, or where no trigger was given that
a line has not taken yet. DEDUCED (log 20). -/
def lineTake (x : StreamS) (strobe : Option (Option Nat)) : Option TagSample × StreamS :=
  match (match strobe with | some o => o | none => if x.nextSeq = x.seq then none else some x.nextSeq) with
  | none => (none, x)
  | some q => (x.samples.find? (fun y => y.seq == q), { x with samples := x.samples.filter (fun y => y.seq != q), nextSeq := (q + 1) % 65536 })

/-- The sample that a line or image beginning at `t` will take, behind `ahead`: those that take theirs before it, each with the time its first data word came and its strobe (R28, R194). DEDUCED (log 20). -/
def sampleToTake (s : State) (st t : Nat) (ahead : List (Nat × Option (Option Nat))) (strobe : Option (Option Nat)) : Option TagSample :=
  let mx := rd s (FRM_STR_MAXAGE_MAXAGE st)
  let x := ahead.foldl (fun x a => (lineTake (dropStale mx a.1 x) a.2).2) (strS s st)
  (lineTake (dropStale mx t x) strobe).1

/-- The lines and images received that wait for their samples. -/
def rxAhead (s : State) (st : Nat) : List (Nat × Option (Option Nat)) :=
  ((strS s st).rx.filter (fun r => lineMode s st || r.line.first)).map (fun r => (r.at_, r.strobe))

/-- What an open GVSP block will take samples for before the blocks after it: its rows in line mode, else its image, with a leader or without one. DEDUCED (log 20). -/
def blockAhead (s : State) (st : Nat) (b : GvspBlock) : List (Nat × Option (Option Nat)) :=
  let timed := rd s (FRM_STR_BIND_SAMPLER st) == 2
  let one := fun (r : Nat) => let m := mget none b.rows r; ((m.map (·.1)).getD s.now, if timed then some (m.bind (·.2)) else none)
  if lineMode s st then (List.range (b.height - b.rowsOut)).map (fun i => one (b.rowsOut + i)) else if b.rowsOut = 0 then [one 0] else []



/-- The recipe set that a line or image beginning now belongs to (R33, R183): that of the sample it will take, behind the lines that wait and those of blocks `bs`. DEDUCED (log 20). -/
def nextOld (s : State) (st : Nat) (bs : List GvspBlock) (strobe : Option (Option Nat)) : Bool :=
  sampleOld s (sampleToTake s st s.now (rxAhead s st ++ bs.flatMap (blockAhead s st)) strobe)

/-- An image fails its check (R182): SIZE_ERR, its counter, source and record. -/
def sizeErr (s : State) (st w h code : Nat) : State :=
  let s := addSat (wr s (CAM_STR_STATUS_SIZE_ERR st) 1) (CAM_CNT_SIZE_COUNT st) 1
  let s := record s rpData 0x0B svWarning 0x3007 (leBytes 1 st ++ leBytes 1 0 ++ leBytes 2 w ++ leBytes 2 h ++ leBytes 4 code)
  raise s (srcLane (st / 2) 6)

/-- Whether an image's size fails a stream's geometry (R182). -/
def sizeBad (s : State) (old : Bool) (st w h : Nat) : Bool :=
  w != rdSet s old (CAM_STR_GEOM_WIDTH st) || (!lineMode s st && h != rdSet s old (CAM_STR_GEOM_HEIGHT st))

/-- Cut image data into lines (R184, R185): `ok` is false when the bytes lie in a packet that was dropped or failed its CRC. A line has the image's width and the wire format of the set it belongs to (R183).
Bytes outside an image, while the stream waits for the next image, and past the line that a QUIESCING lane finishes (R58) are discarded. DEDUCED (log 20). -/
def cutLines : Nat → State → Nat → Nat → Bool → List Byte → State
  | 0, s, _, _, _, _ => s
  | fuel + 1, s, st, n, ok, bytes =>
    let x := strS s st
    if x.resync || !rdB s (CAM_STR_STATUS_IN_IMAGE st) || bytes.isEmpty || (x.part.isEmpty && laneStops s n) then s
    else
      let s := if x.part.isEmpty then
          let b := if lineMode s st then lineStrobe s st else (s, x.strobe)
          let size := if lineMode s st then wireBytes b.1 (nextOld b.1 st [] b.2) st x.imgW else x.size
          setStr b.1 st { strS b.1 st with strobe := b.2, partAt := s.now, size := size }
        else s
      let x := strS s st
      let need := x.size - x.part.length
      if x.size = 0 then s
      else if bytes.length < need then
        setStr s st { x with part := x.part ++ bytes, partBad := x.partBad || !ok }
      else
        let bad := x.partBad || !ok || x.bad
        let lastRow := x.imgRows != 0 && x.row + 1 == x.imgRows
        let l : CamLine := { missing := bad, first := x.row == 0, last := lastRow, data := if bad then [] else x.part ++ bytes.take need }
        let s := setStr s st { x with part := [], partBad := false, row := x.row + 1 }
        let s := rxPush s st { lane := n, line := l, at_ := x.partAt, img := some (x.imgW, x.imgRows, none), strobe := x.strobe }
        let s := onlyIf (!l.missing) (fun s => addWrap s (CAM_CNT_LINES_COUNT st) 1) s
        let s := onlyIf lastRow (fun s => wr s (CAM_STR_STATUS_IN_IMAGE st) 0) s
        cutLines fuel s st n ok (bytes.drop need)

/-- An image header reaches a stream (R182); one that was dropped or failed its CRC (`ok` false) begins an image of the set's own size, all of whose lines are missing (R184, R185). DEDUCED (log 20). -/
def cxpHeader (s : State) (st w h : Nat) (ok : Bool) : State :=
  if !ok && (strS s st).resync then s else
  let b := if lineMode s st then (s, none) else lineStrobe s st
  let s := b.1
  let old := nextOld s st [] b.2
  let bad := ok && sizeBad s old st w h
  let width := if ok then w else rdSet s old (CAM_STR_GEOM_WIDTH st)
  let rows := if ok then h else if lineMode s st then 0 else rdSet s old (CAM_STR_GEOM_HEIGHT st)
  let s := setStr s st { strS s st with resync := false, bad := bad || !ok, size := wireBytes s old st width, imgRows := rows, imgW := width, row := 0, part := [], partBad := false, strobe := b.2 }
  let s := wr s (CAM_STR_STATUS_IN_IMAGE st) 1
  let s := onlyIf ok (fun s => addWrap s (CAM_CNT_IMAGES_COUNT st) 1) s
  if bad then sizeErr s st w h 0 else s

/-- One packet of a stream in its turn. A QUIESCING lane begins no image (R58). -/
def cxpDeliver (s : State) (st : Nat) (p : HeldPkt) : State :=
  match p.pkt.body with
  | .header w h => if laneStops s p.lane then s else cxpHeader s st w.toNat h.toNat p.ok
  | .data bytes => cutLines (bytes.length + 1) s st p.lane p.ok bytes
  | .other => s

/-- How far a packet's tag lies behind the one a stream waits for; with none, from half the tags before the one that came first (R165). -/
def tagAhead (x : StreamS) (first : HeldPkt) (p : HeldPkt) : Nat :=
  let base := match x.nextTag with | some w => w | none => first.pkt.tag.toNat + 128
  (p.pkt.tag.toNat + 256 - base % 256) % 256

/-- Deliver held packets of a bonded group in the order of their packet tags (R165): the next tag at once, the next in order once the packet that came first has been held for the 4 us of skew that are
absorbed; so do a stream's first packets, of which none is known to be the next. DEDUCED (log 20). -/
def cxpDrain : Nat → State → Nat → State
  | 0, s, _ => s
  | fuel + 1, s, st =>
    let x := strS s st
    match x.held with
    | [] => s
    | h :: l =>
      let p := l.foldl (fun a q => if tagAhead x h q < tagAhead x h a then q else a) h
      if x.nextTag = some p.pkt.tag.toNat || h.at_ + 4000 < s.now then
        let s := setStr s st { x with held := x.held.filter (fun q => decide (q ≠ p)), nextTag := some ((p.pkt.tag.toNat + 1) % 256) }
        cxpDrain fuel (cxpDeliver s st p) st
      else s

/-- A packet of a bonded group arrives (R165): it is held for its turn. One whose turn was passed over is discarded, which R165 does not say. DESIGN CHOICE (log 20). -/
def cxpHold (s : State) (st : Nat) (p : HeldPkt) : State :=
  let x := strS s st
  if x.nextTag.isSome && 128 ≤ tagAhead x p p then s else
  let s := cxpDrain 512 (setStr s st { x with held := x.held ++ [p] }) st
  if (strS s st).held.isEmpty then s else { s with due := s.due ++ [.skew st s.now] }

/-- A packet dropped at a full ingress buffer (R184). DEDUCED (log 20). -/
def ingressDrop (s : State) (n st size : Nat) : State :=
  let s := addSat s (CAM_CNT_DROP_COUNT n) 1
  let s := record s rpData 0x0B svWarning 0x3005 (leBytes 1 n ++ leBytes 1 st ++ leBytes 2 size)
  raise s (srcLane n 5)

/-- Bytes of an image. -/
def gvspBytes (b : GvspBlock) : Nat := b.height * b.lineBytes

/-- Bytes of a full data packet of a block, by which R174 places each packet: those of any packet but the last; else what a lone last packet leaves for the others; else what the stream showed before (`pp`). DEDUCED (log 20). -/
def gvspPayload (pp : Nat) (b : GvspBlock) : Nat :=
  let top := b.last.getD (b.got.foldl (fun a p => max a p.1) 0)
  match b.got.find? (fun p => decide (p.1 < top)), b.got, b.last with
  | some p, _, _ => p.2.length
  | none, [], _ => pp
  | none, p :: _, some k => if k ≤ 1 then p.2.length else (gvspBytes b - p.2.length) / (k - 1)
  | none, p :: _, none => if pp = 0 then p.2.length else pp

/-- Whether every packet a row lies in has arrived; answers its bytes. -/
def gvspRow (pp : Nat) (b : GvspBlock) (r : Nat) : Option (List Byte) :=
  let n := gvspPayload pp b
  if n = 0 || b.lineBytes = 0 then none else
  let lo := r * b.lineBytes
  let hi := lo + b.lineBytes - 1
  let k0 := lo / n + 1
  let ks := (List.range (hi / n + 1 - lo / n)).map (fun i => k0 + i)
  let ds := ks.map (fun k => mget ([] : List Byte) b.got k)
  let l := (ds.flatten.drop (lo - (k0 - 1) * n)).take b.lineBytes
  if ks.all (fun k => b.got.any (fun p => p.1 == k)) && l.length == b.lineBytes then some l else none

/-- Whether a line of a group's streams is being received (Table 2-5): a part of it has come, or on GVSP some of its packets. DEDUCED (log 20). -/
def lineBegun (s : State) (m : Nat) : Bool :=
  receiving s && (streamsOf s m).any (fun st =>
    let x := strS s st
    !x.part.isEmpty || !x.held.isEmpty ||
      x.blocks.any (fun b => b.leader && !b.bad && !b.got.isEmpty && b.rows.any (fun r => decide (b.rowsOut ≤ r.1) && (gvspRow x.pp b r.1).isNone)))

/-- Whether a lane takes packets: it is UP, and its enable is not QUIESCING but to finish a line being received (Table 2-5). -/
def laneTakes (s : State) (n : Nat) : Bool := rdB s (CAM_LANE_STATUS_UP n) && (!laneStops s n || lineBegun s (masterOf s n))

/-- A CoaXPress event packet on a master lane (R169): a raw entry of KIND 1; one with a CRC error is counted and discarded (R187). DEDUCED (log 19). -/
def cxpEventPacket (n : Nat) (crcOk : Bool) (data : List Byte) (s : State) : State :=
  if !cxpMode s n || !laneTakes s n then s
  else if !crcOk then crcError s n
  else if rdB s (CAM_LANE_STATUS_MEMBER n) || laneStops s n then s else rawPush s n 1 data

/-- A CoaXPress stream packet arrives on a lane (R165, R166, R182, R184). DEDUCED (log 19). -/
def cxpStreamPacket (n : Nat) (x : CxpPacket) (s : State) : State :=
  if !cxpMode s n || !laneTakes s n then s else
  let s := onlyIf (!x.crcOk) (crcError · n) s
  let k := x.codeErrs.toNat
  let s := onlyIf (k != 0) (fun s => linkErrors (addSat s (CAM_CNT_CODE_COUNT n) k) n k) s
  if x.body = .other then addSat s (CAM_CNT_UNSUP_COUNT n) 1 else
  let m := masterOf s n
  match (streamsOf s m).find? (fun st => rd s (CAM_STR_BIND_SRC_ID st) == x.sid.toNat) with
  | none => s
  | some st =>
    if !receiving s then s else
    let room := decide (ingressFill s n + x.size.toNat ≤ 65536)
    let s := if room then s else ingressDrop s n st x.size.toNat
    let p : HeldPkt := ⟨n, s.now, x.crcOk && room, x⟩
    if (members s m).length ≤ 1 then cxpDeliver s st p
    else cxpHold s st p

/-! GVSP (R174, R175). A block's packets are its leader (ID 0), its data packets from 1 on, and its trailer. -/

/-- The block of a stream with an ID. -/
def blockOf (s : State) (st blk : Nat) : Option GvspBlock := (strS s st).blocks.find? (fun b => b.block == blk)

/-- Change the block with an ID. -/
def setBlock (s : State) (st blk : Nat) (g : GvspBlock → GvspBlock) : State :=
  setStr s st { strS s st with blocks := (strS s st).blocks.map (fun b => if b.block = blk then g b else b) }

/-- Whether a packet of a block has come. -/
def gvspHas (b : GvspBlock) (i : Nat) : Bool :=
  if i = 0 then b.leader else b.got.any (fun p => p.1 == i) || (match b.last with | some k => i == k + 1 | none => false)

/-- The number of data packets of a block, where the trailer or the leader and the packet size tell it. -/
def gvspCount (pp : Nat) (b : GvspBlock) : Option Nat :=
  match b.last with
  | some k => some k
  | none => let n := gvspPayload pp b
    if b.leader && n != 0 then some ((gvspBytes b + n - 1) / n) else none

/-- Whether a block is complete (R174): leader, trailer and every packet between them. -/
def gvspComplete (b : GvspBlock) : Bool :=
  match b.last with | none => false | some k => (List.range (k + 1)).all (gvspHas b)

/-- Packets missing from a block, rising: those below one that came, and all up to the trailer where the block has ended (`all`: a later block has begun, or it closes). DEDUCED (log 20). -/
def gvspMissing (pp : Nat) (b : GvspBlock) (all : Bool) : List Nat :=
  let top := (match b.last with | some k => k + 1 | none => b.got.foldl (fun a p => max a p.1) 0)
  let hi := if all then (match gvspCount pp b with | some k => k + 1 | none => top) else top
  (List.range (hi + 1)).filter (fun i => !gvspHas b i)

/-- The first data word of row `r` of a block comes (R192, R194): on a camera-timed stream in line mode its strobe; in area mode the leader's strobe stands for the image. A QUIESCING lane begins none (R58). -/
def gvspRowBegin (s : State) (st blk r : Nat) : State :=
  match blockOf s st blk with
  | none => s
  | some b =>
    if (mget none b.rows r).isSome || laneStops s (rd s (CAM_STR_BIND_LANE st)) then s else
    let x := if lineMode s st then lineStrobe s st else (s, none)
    setBlock x.1 st blk (fun b => { b with rows := mput none b.rows r (some (s.now, x.2.getD none)) })

/-- Rows of a block that begin in data packet `id` of `len` bytes. -/
def gvspRowsIn (pp : Nat) (b : GvspBlock) (id len : Nat) : List Nat :=
  let lo := (id - 1) * gvspPayload pp b
  if !b.leader || b.lineBytes = 0 then [] else
  let r0 := (lo + b.lineBytes - 1) / b.lineBytes
  (List.range (min b.height ((lo + len + b.lineBytes - 1) / b.lineBytes) - r0)).map (fun i => r0 + i)

/-- A row leaves a block for its pairing. -/
def gvspRowOut (s : State) (st n : Nat) (b : GvspBlock) (r : Nat) (d : Option (List Byte)) : State :=
  let l : CamLine := { missing := d.isNone, first := r == 0, last := r + 1 == b.height, data := d.getD [] }
  let m := mget none b.rows r
  let timed := rd s (FRM_STR_BIND_SAMPLER st) == 2
  let s := rxPush s st { lane := n, line := l, at_ := (m.map (·.1)).getD s.now, img := some (b.width, b.height, some b.code)
                         strobe := if timed then some (m.bind (·.2)) else none }
  onlyIf d.isSome (fun s => addWrap s (CAM_CNT_LINES_COUNT st) 1) s

/-- Pass on the rows of a block: those received in order, or, when it closes, all, the incomplete ones missing (R175, R182). DEDUCED (log 20). -/
def gvspRows : Nat → State → Nat → Nat → Bool → GvspBlock → State × GvspBlock
  | 0, s, _, _, _, b => (s, b)
  | fuel + 1, s, st, n, closing, b =>
    if b.height ≤ b.rowsOut then (s, b) else
    let d := if b.bad then none else gvspRow (strS s st).pp b b.rowsOut
    if d.isNone && !closing then (s, b)
    else gvspRows fuel (gvspRowOut s st n b b.rowsOut d) st n closing { b with rowsOut := b.rowsOut + 1 }

/-- Pass on what the oldest blocks of a stream allow: blocks are delivered in order. DEDUCED (log 20). -/
def gvspDrain : Nat → State → Nat → Nat → State
  | 0, s, _, _ => s
  | fuel + 1, s, st, n =>
    match (strS s st).blocks with
    | [] => wr s (CAM_STR_STATUS_IN_IMAGE st) 0
    | b :: bs =>
      let fin := gvspComplete b
      let r := gvspRows (b.height + 1) s st n fin b
      let x := strS r.1 st
      let s := setStr r.1 st (if fin then { x with blocks := bs, doneBlk := some b.block } else { x with blocks := r.2 :: bs })
      if fin then gvspDrain fuel s st n else s

/-- Whether a block ID lies ahead of the last one closed, in the width of its kind of ID. -/
def gvspNewer (ext : Bool) (blk : Nat) : Option Nat → Bool
  | none => true
  | some d => if ext then decide (d < blk) else let k := (blk + 65536 - d % 65536) % 65536
    decide (0 < k) && decide (k < 32768)

/-- A packet of a block that has not begun begins it, its leader or another one (R174: packets arrive in any order), but for a late packet of a block that has closed, while the stream waits for a leader (R186),
and on a lane that is QUIESCING (R58). DEDUCED (log 20). -/
def gvspBegin (s : State) (st : Nat) (p : GvspPkt) (leader : Bool) : State :=
  let x := strS s st
  let blk := p.block.toNat
  if (blockOf s st blk).isSome || laneStops s (rd s (CAM_STR_BIND_LANE st)) then s
  else if (if leader then x.doneBlk != some blk else !x.resync && gvspNewer p.ext blk x.doneBlk) then
    setStr s st { x with resync := false, blocks := x.blocks ++ [{ block := blk }] }
  else s

/-- A leader of an image reaches its block (R182, R192). DEDUCED (log 20). -/
def gvspLeader (s : State) (st : Nat) (p : GvspPkt) (w h code : Nat) : State :=
  let blk := p.block.toNat
  match blockOf s st blk with
  | none => s
  | some b =>
    if b.leader then s else
    let t := if lineMode s st then (s, none) else lineStrobe s st
    let s := t.1
    let old := nextOld s st ((strS s st).blocks.takeWhile (fun o => o.block != blk)) t.2
    let bad := sizeBad s old st w h || code != wireCode s old st
    let s := setBlock s st blk (fun b => { b with leader := true, height := h, width := w, code := code, lineBytes := wireBytes s old st w, bad := bad
                                                  rows := if lineMode s st then b.rows else mput none b.rows 0 (some (s.now, t.2.getD none)) })
    let s := addWrap (wr s (CAM_STR_STATUS_IN_IMAGE st) 1) (CAM_CNT_IMAGES_COUNT st) 1
    let s := if bad then sizeErr s st w h code else s
    each b.got (fun s k => each (gvspRowsIn (strS s st).pp ((blockOf s st blk).getD b) k.1 k.2.length) (fun s r => gvspRowBegin s st blk r) s) s

/-- A data packet goes to its place in its block, by its packet ID (R174). -/
def gvspData (s : State) (st blk id : Nat) (bytes : List Byte) : State :=
  match blockOf s st blk with
  | none => s
  | some b =>
    if id = 0 || gvspHas b id then s else
    let s := setBlock s st blk (fun b => { b with got := mput [] b.got id bytes })
    let b := (blockOf s st blk).getD b
    let pp := gvspPayload (strS s st).pp b
    let s := setStr s st { strS s st with pp := pp }
    each (gvspRowsIn pp b id bytes.length) (fun s r => gvspRowBegin s st blk r) s

/-- The largest packet payload (Table 6-4). -/
abbrev gvspMaxPayload : Nat := 8964

/-- A GVSP packet of stream `st` on lane `n` (R170, R174, R179, R182, R184). DEDUCED (log 20). -/
def gvspPacket (s : State) (n st size : Nat) (p : GvspPkt) : State :=
  let s := match p.body with | .leader _ _ _ _ ts => wr s (CAM_STR_CAMTS_TS st) ts.toNat | _ => s
  let wide := match p.body with | .data bytes => decide (gvspMaxPayload < bytes.length) | .leader image _ _ _ _ => !image | .trailer => false
  if !receiving s then s
  else if p.ext != rdB s (CAM_STR_BIND_EXT_ID st) || wide then addSat s (CAM_CNT_UNSUP_COUNT n) 1
  else if 65536 < ingressFill s n + size then ingressDrop s n st size
  else
    let blk := p.block.toNat
    let s := match p.body with
      | .leader _ w h code _ => gvspLeader (gvspBegin s st p true) st p w.toNat h.toNat code.toNat
      | .data bytes => gvspData (gvspBegin s st p false) st blk p.id.toNat bytes
      | .trailer => setBlock (gvspBegin s st p false) st blk (fun b => { b with last := some (p.id.toNat - 1) })
    gvspDrain ((strS s st).blocks.length + 1) s st n

/-- Runs of consecutive numbers in a rising list, as (first, last). -/
def runsOf : List Nat → List (Nat × Nat)
  | [] => []
  | a :: l => match runsOf l with
    | (b, c) :: r => if b = a + 1 then (a, c) :: r else (a, a) :: (b, c) :: r
    | [] => [(a, a)]

/-- One PACKETRESEND (R175): a req_id of 0xF000 to 0xFFFF, in turn; its packets have been asked for once more. DESIGN CHOICE (log 20). -/
def resendAsk (s : State) (st n blk : Nat) (r : Nat × Nat) : State :=
  let s := send s (.packetResend n (0xF000 + (lane s n).reqs % 4096) blk r.1 r.2)
  let s := addWrap (setLane s n { lane s n with reqs := (lane s n).reqs + 1 }) (CAM_CNT_RESEND_REQ_COUNT n) 1
  setBlock s st blk (fun b => { b with asks := (List.range (r.2 + 1 - r.1)).foldl (fun a i => mput 0 a (r.1 + i) (mget 0 a (r.1 + i) + 1)) b.asks })

/-- Gaps of a stream's blocks have stayed open for WAIT us (R175): a PACKETRESEND for each missing range that has been asked for fewer than MAX times. DEDUCED (log 20). -/
def gvspResendWait (st : Nat) (s : State) : State :=
  let n := rd s (CAM_STR_BIND_LANE st)
  if !ethMode s n then s else
  let bs := (strS s st).blocks
  each bs.zipIdx (fun s p =>
    let miss := gvspMissing (strS s st).pp p.1 (decide (p.2 + 1 < bs.length))
    each (List.range (rd s (CAM_STR_RESEND_MAX st))) (fun s c => each (runsOf (miss.filter (fun i => mget 0 p.1.asks i == c))) (fun s r => resendAsk s st n p.1.block r) s) s) s

/-- A block whose leader never came closes as one of its set's height, or in line mode of the lines its data would fill; all are missing. DEDUCED (log 20). -/
def gvspHeadless (s : State) (st : Nat) (b : GvspBlock) : GvspBlock :=
  if b.leader then b else
  let old := nextOld s st [] (if rd s (FRM_STR_BIND_SAMPLER st) == 2 then some none else none)
  let lb := wireBytes s old st (rdSet s old (CAM_STR_GEOM_WIDTH st))
  let bytes := b.got.foldl (fun a p => max a ((p.1 - 1) * gvspPayload (strS s st).pp b + p.2.length)) 0
  { b with bad := true, height := if lineMode s st then (bytes + lb - 1) / max 1 lb else rdSet s old (CAM_STR_GEOM_HEIGHT st), width := rdSet s old (CAM_STR_GEOM_WIDTH st), code := wireCode s old st }

/-- The oldest block is still incomplete TIMEOUT ms after its leader (R175): it closes, its incomplete lines missing. DEDUCED (log 20). -/
def gvspBlockTimeout (st : Nat) (s : State) : State :=
  let n := rd s (CAM_STR_BIND_LANE st)
  match (strS s st).blocks with
  | [] => s
  | b :: bs =>
    let s := addSat s (CAM_CNT_RESEND_FAIL_COUNT n) 1
    let s := record s rpData 0x0B svWarning 0x3006 (leBytes 1 st ++ leBytes 1 0 ++ leBytes 8 b.block ++ leBytes 4 (gvspMissing (strS s st).pp b true).length)
    let s := raise s (srcLane n 11)
    let b := gvspHeadless s st b
    let r := gvspRows (b.height + 1) s st n true b
    gvspDrain (bs.length + 1) (setStr r.1 st { strS r.1 st with blocks := bs, doneBlk := some b.block }) st n

/-- The firmware sends the control-channel heartbeat while it holds the privilege (R176). -/
def gvcpHeartbeat (n : Nat) (s : State) : State := if (lane s n).privilege then send s (.gvcpHeartbeat n) else s

/-- A write of CAM_ETH_CFG (Table 6-11): with GVCP_HOST = 1 the firmware gives the privilege up, with 0 it takes it on a port that is UP (R176). -/
def ethCfgWrite (n : Nat) (put : State → State) (s : State) : State :=
  let was := rdB s (CAM_ETH_CFG_GVCP_HOST n)
  let s := put s
  let is_ := rdB s (CAM_ETH_CFG_GVCP_HOST n)
  if is_ && (lane s n).privilege then send (setLane s n { lane s n with privilege := false }) (.gvcpPrivilege n false)
  else if was && !is_ && rdB s (CAM_LANE_STATUS_UP n) then gvcpTake s n else s

/-- Whether a port accepts a frame to MAC address `d` (R171). -/
def macAccepts (s : State) (n d : Nat) : Bool :=
  d == rd s (CAM_ETH_MAC_MAC n) || d == 0xFFFFFFFFFFFF || d == 0x011B19000000 || d == 0x0180C200000E || rdB s (CAM_ETH_CFG_PROMISC n)

/-- A PTP message on a port (R111 to R113): the firmware takes it, or with HOST_STACK = 1 the raw path, which carries no stamp. -/
def ptpArrives (s : State) (n : Nat) (f : PtpFrame) (data : List Byte) : State :=
  if rdB s (TMB_PORT_PTP_HOST_STACK n) then
    let ev := match f.msg with | .event _ _ => true | _ => false
    rawPush (onlyIf ev (fun s => { s with path := mput {} s.path n { mget ({} : PathS) s.path n with rx := some (ptpIngress s n) } }) s) n 0 data
  else ptpReceive s n f

/-- An accepted frame goes to the first destination of Table 6-5 whose condition it meets (R172); a QUIESCING port takes stream data alone, for the line it finishes (R58). -/
def ethClassify (s : State) (n : Nat) (x : EthFrame) : State :=
  let ip := rd s (CAM_ETH_IP_IP n)
  let host := rdB s (CAM_ETH_CFG_GVCP_HOST n)
  let fw := rdB s (CAM_ETH_CFG_ARP_FW n)
  let raw := if laneStops s n then s else rawPush s n 0 x.data
  match x.kind with
  | .udp dip port g =>
    (match (if dip.toNat = ip then (streamsOf s n).find? (fun st => rd s (CAM_STR_BIND_UDP st) == port.toNat) else none), g with
     | some st, some p => gvspPacket s n st x.data.length p
     | some _, none => addSat s (CAM_CNT_UNSUP_COUNT n) 1
     | none, _ => raw)
  | .ptp f => if laneStops s n then s else ptpArrives s n f x.data
  | .gvcpAck req => if 0xF000 ≤ req.toNat then s else if host then raw else s
  | .gvcp => if host then raw else s
  | .arp dip => if fw then onlyIf (dip.toNat == ip && !laneStops s n) (fun s => send s (.ethAnswer n false)) s else raw
  | .icmpEcho dip => if fw && dip.toNat == ip && !laneStops s n then send s (.ethAnswer n true) else raw
  | _ => raw

/-- An Ethernet frame arrives on a port (R171, R172, Table 6-5, R187): the address filter comes first; PAUSE frames and frames longer than 9 022 bytes with their FCS are ignored. DEDUCED (log 19). -/
def ethFrameReceive (n : Nat) (x : EthFrame) (s : State) : State :=
  if !ethMode s n || !laneTakes s n then s else
  let k := x.codeErrs.toNat
  let s := onlyIf (k != 0) (fun s => linkErrors (addSat s (CAM_CNT_CODE_COUNT n) k) n k) s
  if !macAccepts s n x.dst.toNat then onlyIf (!x.fcsOk) (linkErrors · n 1) (addSat s (CAM_CNT_FILTERED_COUNT n) 1)
  else if !x.fcsOk then crcError s n
  else if x.kind = .pause || 9018 < x.data.length then s
  else ethClassify s n x

/-! Pairing (R28, R185, R194). -/

/-- Discard head samples that had waited too long when a line's first data word came at `t` (R194), and count them: the next sample is offered to the same line. DEDUCED (log 20). -/
def staleDrop (s : State) (st t : Nat) : State :=
  let x := strS s st
  let y := dropStale (rd s (FRM_STR_MAXAGE_MAXAGE st)) t x
  addSat (setStr s st y) (FRM_CNT_STALE_COUNT st) (x.samples.length - y.samples.length)

/-- Whether a line or image fails the check of the set it belongs to (R182, R183): its image's width, in area mode its height, and on GVSP the pixel-format code. -/
def lineFails (s : State) (old : Bool) (st : Nat) (img : Option (Nat × Nat × Option Nat)) : Bool :=
  match img with
  | none => false
  | some (w, h, code) => sizeBad s old st w h || (match code with | some c => c != wireCode s old st | none => false)

/-- A line with its sample is passed on (R183, R185, R195): missing where it was lost or fails its own set's check, which is an image's failure once. -/
def linePass (s : State) (st : Nat) (r : RxLine) (y : Option TagSample) : State :=
  let bad := lineFails s (sampleOld s y) st r.img
  let missing := r.line.missing || bad
  let x := strS s st
  let said := x.setErr && !r.line.first
  let s := setStr s st { x with setErr := said || bad }
  let s := onlyIf (bad && !r.line.missing && !said) (fun s => sizeErr s st ((r.img.map (·.1)).getD 0) ((r.img.map (·.2.1)).getD 0) ((r.img.bind (·.2.2)).getD 0)) s
  let s := onlyIf missing (fun s => countMissing s st) s
  let s := onlyIf y.isNone (fun s => addSat s (FRM_CNT_NOSAMPLE_COUNT st) 1) s
  let area := !lineMode s st
  setStr s st { strS s st with lines := (strS s st).lines ++ [⟨y, missing, r.line.first || !area, r.line.last || !area, if missing then [] else r.line.data⟩] }

/-- A line is paired with its stream's next sample and passed on (R185, R192, R194, R195, R208, R218); a row of an area image after the first takes none. DEDUCED (log 20). -/
def pairLine (s : State) (st : Nat) (r : RxLine) : State :=
  if !receiving s || !strActive s st then s
  else if !(enState s (frmEn st) == 2 || enState s (frmEn st) == 3) then setStr s st (lineTake (strS s st) r.strobe).2
  else if !lineMode s st && !r.line.first then
    let missing := r.line.missing || (strS s st).setErr
    onlyIf missing (fun s => countMissing s st)
      (setStr s st { strS s st with lines := (strS s st).lines ++ [⟨none, missing, false, r.line.last, if missing then [] else r.line.data⟩] })
  else
    let s := staleDrop s st r.at_
    let t := lineTake (strS s st) r.strobe
    if t.1.isNone && t.2.samples.isEmpty && streamStopped s st then s
    else laterOnce (linePass (setStr s st t.2) st r t.1) (.judge st)

/-- CAMERA_LINE: the line given, which arrives as it is paired, or the oldest one that waits in the ingress buffer. -/
def cameraLine (st : Nat) (x : Option CamLine) (s : State) : State :=
  match x with
  | some l =>
    let b := if lineMode s st || l.first then lineStrobe s st else (s, none)
    pairLine b.1 st { lane := rd s (CAM_STR_BIND_LANE st), line := l, at_ := s.now, strobe := b.2 }
  | none => match (strS s st).rx with
    | [] => s
    | r :: rs => pairLine (setStr s st { strS s st with rx := rs }) st r

end Sys2Proof.Machine
end

