-- ==== Sys2Proof/Machine/Kernels.lean ====
section
/-! DEFINITION. The chain descriptor (Tables 10-1, 10-2) and the arithmetic of the kernel library (Tables 10-7, 10-9, R282 to R285, R212,
R213), on images held as numbers. -/

namespace Sys2Proof.Machine

/-! Images. -/

/-- An image in a chain: width, components (1 or 3), bits of a component, Bayer FORMAT (0 for none), PFNC code, and for every row its web position and
its component values, left to right. -/
structure Img where
  width : Nat
  comps : Nat
  bits : Nat
  bayer : Nat := 0
  code : Nat
  rows : List (Int × List Nat)
  deriving DecidableEq, Repr

/-- Largest component value. -/
def imgMax (im : Img) : Nat := 2 ^ im.bits - 1

/-- A component of a row, the nearest one where the index lies outside (edges replicated). -/
def pxAt (im : Img) (r c : Int) : Nat :=
  let row := (im.rows[(clampInt 0 (im.rows.length - 1) r).toNat]?.map (·.2)).getD []
  row.getD (clampInt 0 (im.width - 1) c).toNat 0

/-- A 16-bit number at index `i` of a table in HBM. -/
def tab16 (s : State) (a i : Nat) : Nat := hbmNat s (a + 2 * i) 2

/-- Map the values of an image by row number, index in the row and value. -/
def imgMap (im : Img) (f : Nat → Nat → Nat → Nat) : Img :=
  { im with rows := im.rows.zipIdx.map (fun p => (p.1.1, p.1.2.zipIdx.map (fun q => f p.2 q.2 q.1))) }

/-- A number limited to 0..m. -/
def clampNat (m : Nat) (i : Int) : Nat := (clampInt 0 m i).toNat

/-! Pixels in memory (R181). -/

/-- Stored bytes of a line to component values: 8-bit, 16-bit containers, or packed least significant bit first. -/
def unpackLine (bits : Nat) (packed : Bool) (n : Nat) (l : List Byte) : List Nat :=
  if packed then
    let v := leNat l
    (List.range n).map (fun i => v / 2 ^ (bits * i) % 2 ^ bits)
  else if bits ≤ 8 then (padTo n l).map (·.toNat)
  else (List.range n).map (fun i => leNat ((l.drop (2 * i)).take 2))

/-- Component values to bytes: one byte each up to 8 bits, else 16-bit containers. -/
def packLine (bits : Nat) (vs : List Nat) : List Byte :=
  if bits ≤ 8 then vs.map (BitVec.ofNat 8) else vs.flatMap (leBytes 2)

/-- A number rounded up to a multiple of `m`. -/
def roundUp (m n : Nat) : Nat := (n + m - 1) / m * m

/-! The chain descriptor. -/

/-- Chain entry (Table 10-2). -/
structure KEntry where
  kid : Nat
  kver : Nat
  input : Nat
  store : Bool
  len : Nat
  addr : Nat
  deriving DecidableEq, Repr

/-- NK of the descriptor at `base` (Table 10-1); no chain at base 0 (R274). -/
def chainNK (s : State) (base : Nat) : Nat := if base = 0 then 0 else (hbmByte s base).toNat

/-- The entries of the chain at `base`, at most 16. DEDUCED (log 22). -/
def chainEntries (s : State) (base : Nat) : List KEntry :=
  (List.range (min 16 (chainNK s base))).map (fun k =>
    let a := base + 0x20 + 0x20 * k
    { kid := hbmNat s a 1, kver := hbmNat s (a + 1) 1, input := hbmNat s (a + 2) 1, store := bitOf (hbmNat s (a + 3) 1) 0
      len := hbmNat s (a + 4) 4, addr := hbmNat s (a + 8) 8 })

abbrev kDark : Nat := 1
abbrev kFlat : Nat := 2
abbrev kDpc : Nat := 3
abbrev kDebayer : Nat := 4
abbrev kColour : Nat := 5
abbrev kBin : Nat := 6
abbrev kRoi : Nat := 7
abbrev kResample : Nat := 8
abbrev kCompare : Nat := 9
abbrev kBlob : Nat := 10
abbrev kHist : Nat := 11
abbrev kStats : Nat := 12

/-- Kernels that produce an image (R275). -/
def producesImage (kid : Nat) : Bool := (decide (1 ≤ kid) && decide (kid ≤ 6)) || kid == 8 || kid == 9

/-- Whether the input path of entry `i` holds a DEBAYER (R211). -/
def pathDebayers (es : List KEntry) : Nat → Nat → Bool
  | 0, _ => false
  | f + 1, i => match es[i]? with
    | none => false
    | some e => e.kid == kDebayer || (e.input != 0xFF && pathDebayers es f e.input)

/-- Whether a chain debayers before it resamples (R211). -/
def debayersFirst (s : State) (base : Nat) : Bool :=
  let es := chainEntries s base
  es.zipIdx.any (fun p => p.1.kid == kResample && p.1.input != 0xFF && pathDebayers es 16 p.1.input)

/-- A field of a parameter block. -/
def par (s : State) (e : KEntry) (o n : Nat) : Nat := hbmNat s (e.addr + o) n

/-- A signed field of a parameter block. -/
def parI (s : State) (e : KEntry) (o n : Nat) : Int := toSigned (8 * n) (par s e o n)

/-! Formats through a chain (Table 10-7). -/

/-- The format of an image in a chain: width, components, bits of a component, Bayer FORMAT (0 for none), PFNC code, most rows. -/
structure Fm where
  w : Nat
  comps : Nat
  bits : Nat
  bayer : Nat
  code : Nat
  rows : Nat
  deriving DecidableEq, Repr

/-- The format of a stream's lines as stored. -/
def fmOf (fmt width maxLines : Nat) : Fm :=
  { w := width, comps := if fmt = 16 then 3 else 1, bits := if fmt = 16 then 8 else fmtBits fmt
    bayer := if fmtBayer fmt then fmt else 0, code := fmtCode fmt false, rows := maxLines }

/-- Bytes of a line of a format, unpacked. -/
def fmLine (f : Fm) : Nat := f.w * f.comps * (if f.bits ≤ 8 then 1 else 2)

/-- Whether a kernel takes an input format (Table 10-7). -/
def inputFits (kid : Nat) (f : Fm) : Bool :=
  match kid with
  | 1 | 2 => true
  | 3 => f.comps == 1
  | 4 => f.bayer != 0
  | 5 => f.comps == 3
  | 6 | 8 | 11 | 12 => f.bayer == 0
  | 7 => true
  | 9 => f.bayer == 0
  | 10 => f.bayer == 0 && f.comps == 1 && decide (f.bits ≤ 8)
  | _ => false

/-- The format an image-producing kernel puts out (Table 10-7). -/
def outFm (s : State) (e : KEntry) (f : Fm) : Option Fm :=
  match e.kid with
  | 1 | 2 | 3 | 8 => some f
  | 4 => some { f with comps := 3, bits := 8, bayer := 0, code := 0x02180014 }
  | 5 => if par s e 0x10 1 = 1 then some { f with comps := 1, code := 0x01080001 } else some f
  | 6 => some { f with w := f.w / max 1 (par s e 0x10 1), rows := (f.rows + max 1 (par s e 0x11 1) - 1) / max 1 (par s e 0x11 1) }
  | 9 => some { f with comps := 1, bits := 8, bayer := 0, code := 0x01080001 }
  | _ => none

/-- The output formats of a chain's entries, in order. -/
def fmOuts (s : State) (f0 : Fm) (es : List KEntry) : List (Option Fm) :=
  es.foldl (fun outs e =>
    let f := if e.input = 0xFF then some f0 else (outs[e.input]?).getD none
    outs ++ [f.bind (outFm s e)]) []

/-- The input format of an entry. -/
def fmIn (f0 : Fm) (outs : List (Option Fm)) (k : Nat) (e : KEntry) : Option Fm :=
  if e.input = 0xFF then some f0 else if e.input < k then (outs[e.input]?).getD none else none

/-- STRIDE of the rows RESAMPLE writes (R275: the format of its input); of the stored lines in a chain without it. -/
def rowStride (s : State) (base : Nat) (f0 : Fm) : Nat :=
  let es := chainEntries s base
  match es.zipIdx.find? (fun p => p.1.kid == kResample) with
  | some p => roundUp 64 (fmLine ((fmIn f0 (fmOuts s f0 es) p.2 p.1).getD f0))
  | none => roundUp 64 (fmLine f0)

/-! The kernels (Table 10-9). -/

/-- Table index of a value: by column in per-column mode, by pixel in per-pixel mode; one value serves the components of a pixel. -/
def tabIdx (im : Img) (perPixel : Bool) (r i : Nat) : Nat := (if perPixel then r * im.width else 0) + i / max 1 im.comps

def runDark (s : State) (e : KEntry) (im : Img) : Img :=
  let a := par s e 0x10 8
  let m := par s e 0x18 1 == 1
  let ped := par s e 0x1A 2
  imgMap im (fun r i p => clampNat (imgMax im) ((p : Int) - tab16 s a (tabIdx im m r i) + ped))

def runFlat (s : State) (e : KEntry) (im : Img) : Img :=
  let a := par s e 0x10 8
  let m := par s e 0x18 1 == 1
  let blk := par s e 0x1A 2
  imgMap im (fun r i p => clampNat (imgMax im) (floorDiv (((p : Int) - blk) * tab16 s a (tabIdx im m r i) + 8192) 16384 + blk))

/-- The nearest pixel of the same colour within 8 columns in one direction that the list does not name (R282). -/
def dpcSide (bad : Nat → Bool) (row : List Nat) (w c step : Nat) (right : Bool) : Option Nat :=
  ((List.range (8 / step)).map (fun k => (k + 1) * step)).findSome? (fun d =>
    if right then (if c + d < w && !bad (c + d) then row[c + d]? else none)
    else if d ≤ c && !bad (c - d) then row[c - d]? else none)

def runDpc (s : State) (e : KEntry) (im : Img) : Img :=
  let a := par s e 0x10 8
  let n := par s e 0x18 2
  let l := (List.range n).map (fun i => (hbmNat s (a + 4 * i) 2, hbmNat s (a + 4 * i + 2) 2))
  let step := if im.bayer = 0 then 1 else 2
  { im with rows := im.rows.zipIdx.map (fun p =>
      let bad := fun (c : Nat) => l.any (fun d => d.1 == c && (d.2 == 0xFFFF || d.2 == p.2))
      let row := p.1.2
      (p.1.1, row.zipIdx.map (fun q =>
        if bad q.2 then
          match dpcSide bad row im.width q.2 step false, dpcSide bad row im.width q.2 step true with
          | some x, some y => (x + y + 1) / 2
          | some x, none => x
          | none, some y => y
          | none, none => q.1
        else q.1))) }

/-- The colour of a Bayer site (0 R, 1 G, 2 B) by FORMAT: GR, RG, GB, BG in turn (Table 6-6). -/
def bayerColour (fmt : Nat) (r c : Int) : Nat :=
  let rr := (r % 2).toNat
  let cc := (c % 2).toNat
  match fmt % 4 with
  | 0 => if rr = 0 then (if cc = 0 then 1 else 0) else (if cc = 0 then 2 else 1)
  | 1 => if rr = 0 then (if cc = 0 then 0 else 1) else (if cc = 0 then 1 else 2)
  | 2 => if rr = 0 then (if cc = 0 then 1 else 2) else (if cc = 0 then 0 else 1)
  | _ => if rr = 0 then (if cc = 0 then 2 else 1) else (if cc = 0 then 1 else 0)

/-- One component at a Bayer site: its own sample, or the rounded mean of the nearest samples of that colour in the 3 x 3 neighbourhood. -/
def bayerComp (im : Img) (r c : Nat) (k : Nat) : Nat :=
  if bayerColour im.bayer r c = k then pxAt im r c else
  let ns : List (Int × Int) := [(0, -1), (0, 1), (-1, 0), (1, 0), (-1, -1), (-1, 1), (1, -1), (1, 1)]
  let near := (ns.take 4).filter (fun d => bayerColour im.bayer (r + d.1) (c + d.2) == k)
  let use := if near.isEmpty then (ns.drop 4).filter (fun d => bayerColour im.bayer (r + d.1) (c + d.2) == k) else near
  let sum := use.foldl (fun a d => a + pxAt im (r + d.1) (c + d.2)) 0
  (sum + use.length / 2) / max 1 use.length

def runDebayer (s : State) (e : KEntry) (im : Img) : Img :=
  let sh := par s e 0x10 1
  { im with comps := 3, bits := 8, bayer := 0, code := 0x02180014
            rows := im.rows.zipIdx.map (fun p =>
              (p.1.1, (List.range im.width).flatMap (fun c => (List.range 3).map (fun k => min 255 (bayerComp im p.2 c k / 2 ^ sh))))) }

def runColour (s : State) (e : KEntry) (im : Img) : Img :=
  let mono := par s e 0x10 1 == 1
  let m := fun (i j : Nat) => parI s e (0x12 + 2 * (3 * i + j)) 2
  let o := fun (i : Nat) => parI s e (0x24 + 2 * i) 2
  { im with comps := if mono then 1 else 3, code := if mono then 0x01080001 else im.code
            rows := im.rows.map (fun p => (p.1, (List.range im.width).flatMap (fun c =>
              let v := fun (j : Nat) => (p.2.getD (3 * c + j) 0 : Int)
              (List.range (if mono then 1 else 3)).map (fun i =>
                clampNat 255 (floorDiv (m i 0 * v 0 + m i 1 * v 1 + m i 2 * v 2 + 4096) 8192 + o i))))) }

/-- Groups of `n` consecutive elements, the last one perhaps shorter. -/
def groupsOf {α : Type} (n : Nat) : Nat → List α → List (List α)
  | 0, _ => []
  | f + 1, l => match l with
    | [] => []
    | _ => l.take (max 1 n) :: groupsOf n f (l.drop (max 1 n))

def runBin (s : State) (e : KEntry) (im : Img) : Img :=
  let bx := max 1 (par s e 0x10 1)
  let by_ := max 1 (par s e 0x11 1)
  let mean := par s e 0x12 1 != 0
  let w := im.width / bx
  { im with width := w
            rows := (groupsOf by_ (im.rows.length + 1) im.rows).map (fun g =>
              ((g.head?.map (·.1)).getD 0, (List.range w).flatMap (fun c => (List.range im.comps).map (fun k =>
                let vs := g.flatMap (fun r => (List.range bx).map (fun i => r.2.getD ((c * bx + i) * im.comps + k) 0))
                let sum := vs.foldl (· + ·) 0
                if mean then (sum + vs.length / 2) / max 1 vs.length else min (imgMax im) sum)))) }

/-! COMPARE (R283, R284). -/

/-- The row of the reference nearest distance `d` (R283); a pitch of 0 divides by nothing, and the row is a free value. DEDUCED (log 22). -/
def refRow (d num den : Int) : Int := if num = 0 then Config.noQuotient (2 * d * den) else floorDiv (2 * d * den + num) (2 * num)

/-- A component of the reference at (r, c), absent outside it. -/
def refAt (s : State) (e : KEntry) (comps k : Nat) (r c : Int) : Option Nat :=
  if 0 ≤ r && decide (r < par s e 0x20 4) && 0 ≤ c && decide (c < par s e 0x24 2) then
    some (hbmByte s (par s e 0x10 8 + r.toNat * par s e 0x28 4 + c.toNat * comps + k)).toNat
  else none

/-- One component of a pixel against the reference (R284). -/
def compareComp (s : State) (e : KEntry) (comps k : Nat) (r c : Int) (p : Nat) : Nat :=
  let v := p / 2 ^ par s e 0x31 1
  let rc := c - parI s e 0x26 2
  let diff := fun (o : Option Nat) => o.map (fun x => ((v : Int) - x).natAbs)
  match refAt s e comps k r rc with
  | none => 0
  | some x =>
    let d := if par s e 0x32 1 = 1 then
        ([-1, 0, 1] : List Int).foldl (fun a i => ([-1, 0, 1] : List Int).foldl (fun a j =>
          match diff (refAt s e comps k (r + i) (rc + j)) with | some y => min a y | none => a) a) ((v : Int) - x).natAbs
      else ((v : Int) - x).natAbs
    let t := if par s e 0x18 8 = 0 then par s e 0x34 1
      else (hbmByte s (par s e 0x18 8 + r.toNat * par s e 0x24 2 + rc.toNat)).toNat
    min 255 (d - t)

/-- COMPARE of a whole frame: `rowOf` gives the reference row of input row `i` at web position `x`. Answers the excess image and the rows without reference. DEDUCED (log 22). -/
def runCompare (s : State) (e : KEntry) (im : Img) (rowOf : Nat → Int → Int) : Img × Nat :=
  let n := par s e 0x20 4
  let rs := im.rows.zipIdx.map (fun p =>
    let r := rowOf p.2 p.1.1
    if 0 ≤ r && decide (r < n) then
      ((p.1.1, (List.range im.width).map (fun (c : Nat) =>
        (List.range im.comps).foldl (fun (a k : Nat) => max a (compareComp s e im.comps k r c (p.1.2.getD (c * im.comps + k) 0))) 0)), false)
    else ((p.1.1, List.replicate im.width 0), true))
  ({ im with comps := 1, bits := 8, code := 0x01080001, bayer := 0, rows := rs.map (·.1) }, countIf (·.2) rs)

/-! BLOB (R285). -/

/-- A blob being joined: the first line's position, its rows and columns, area, sum and peak, the runs it has on the row before, the strip whose engine holds it, and
whether it is one too many. -/
structure Blob where
  x : Int
  r0 : Nat
  r1 : Nat
  c0 : Nat
  c1 : Nat
  area : Nat
  sum : Nat
  peak : Nat
  runs : List (Nat × Nat)
  eng : Nat
  dropped : Bool
  deriving DecidableEq, Repr

/-- Runs of values at or above a threshold in a row: first column, last column, sum, peak. -/
def rowRuns (thr : Nat) : Nat → List Nat → Option (Nat × Nat × Nat × Nat) → List (Nat × Nat × Nat × Nat)
  | _, [], o => o.toList
  | c, v :: l, o =>
    if thr ≤ v then
      match o with
      | some (a, _, sm, pk) => rowRuns thr (c + 1) l (some (a, c, sm + v, max pk v))
      | none => rowRuns thr (c + 1) l (some (c, c, v, v))
    else o.toList ++ rowRuns thr (c + 1) l none

/-- Whether two runs on neighbouring rows join (CONN 0 eight-connected, 1 four-connected). -/
def runsTouch (four : Bool) (a b : Nat × Nat) : Bool :=
  if four then decide (a.1 ≤ b.2) && decide (b.1 ≤ a.2) else decide (a.1 ≤ b.2 + 1) && decide (b.1 ≤ a.2 + 1)

/-- One blob out of those a run joins, and the run; the oldest keeps its place. It is held by an engine if one of those it joins is: a run that joins none is itself held, or beyond the 256. DEDUCED (log 22). -/
def joinBlobs (b : Blob) : List Blob → Blob
  | [] => b
  | o :: l =>
    let first := if o.r0 < b.r0 || (o.r0 = b.r0 && o.c0 ≤ b.c0) then o else b
    joinBlobs { first with r0 := min b.r0 o.r0, r1 := max b.r1 o.r1, c0 := min b.c0 o.c0, c1 := max b.c1 o.c1, area := b.area + o.area
                           sum := b.sum + o.sum, peak := max b.peak o.peak, runs := o.runs ++ b.runs, dropped := b.dropped && o.dropped } l

/-- One row through the open blobs. `prev` pairs each open blob with the runs it had on the row before. Answers the blobs open after the row and those completed by it. -/
def blobRow (thr strip : Nat) (four : Bool) (r : Nat) (x : Int) (row : List Nat) (open_ : List Blob) : List Blob × List Blob :=
  let tagged := open_.map (fun b => (b, ([] : List (Nat × Nat))))
  let out := (rowRuns thr 0 row none).foldl (fun (bs : List (Blob × List (Nat × Nat))) run =>
    let iv := (run.1, run.2.1)
    let hit := bs.filter (fun p => p.1.runs.any (fun q => runsTouch four q iv))
    let rest := bs.filter (fun p => !(hit.contains p))
    let eng := run.1 / max 1 strip
    let full := decide (256 ≤ countIf (fun p => p.1.eng == eng && !p.1.dropped) bs)
    let new : Blob := { x := x, r0 := r, r1 := r, c0 := run.1, c1 := run.2.1, area := run.2.1 + 1 - run.1, sum := run.2.2.1, peak := run.2.2.2
                        runs := [], eng := eng, dropped := !hit.isEmpty || full }
    let j := joinBlobs new (hit.map (·.1))
    rest ++ [(j, iv :: hit.flatMap (·.2))]) tagged
  let done := out.filter (fun p => p.2.isEmpty)
  ((out.filter (fun p => !p.2.isEmpty)).map (fun p => { p.1 with runs := p.2 }), done.map (·.1))

/-- All blobs of an image in order of completion. DEDUCED (log 22). -/
def blobsOf (thr strip : Nat) (four : Bool) (im : Img) : List Blob :=
  let p := im.rows.zipIdx.foldl (fun (a : List Blob × List Blob) q =>
    let r := blobRow thr strip four q.2 q.1.1 q.1.2 a.1
    (r.1, a.2 ++ r.2)) ([], [])
  p.2 ++ p.1

/-- A candidate record (Table 10-11). `nrows` rows in the kernel's input; rows below `head` and from `tail` on lie wholly in a seam. -/
def candRecord (b : Blob) (nrows head tail : Nat) : List Byte :=
  let sat := decide (2 ^ 32 ≤ b.sum)
  let seam := decide (b.r1 < head) || decide (tail ≤ b.r0)
  leBytes 8 (ofSigned 64 b.x) ++ leBytes 4 b.r0 ++ leBytes 4 b.r1 ++ leBytes 2 b.c0 ++ leBytes 2 b.c1 ++ leBytes 4 b.area ++
    leBytes 4 (min b.sum (2 ^ 32 - 1)) ++ leBytes 1 b.peak ++
    leBytes 1 (b2n (b.r0 == 0) + 2 * b2n (b.r1 + 1 == nrows) + 4 * b2n seam + 8 * b2n sat) ++ leBytes 2 0

/-! HIST and STATS. -/

/-- Values of one component of the columns COL0 .. COL0 + COLW - 1 (all for COLW = 0). -/
def columnVals (im : Img) (comp c0 cw : Nat) (row : List Nat) : List Nat :=
  let hi := if cw = 0 then im.width else min im.width (c0 + cw)
  let lo := if cw = 0 then 0 else c0
  (List.range (hi - lo)).map (fun i => row.getD ((lo + i) * im.comps + comp) 0)

/-- The histogram: 256 counts (Table 10-9). DEDUCED (log 22). -/
def histOf (im : Img) (comp sh c0 cw : Nat) : List Nat :=
  let vs := im.rows.flatMap (fun p => columnVals im comp c0 cw p.2)
  (List.range 256).map (fun b => min (2 ^ 32 - 1) (countIf (fun v => min 255 (v / 2 ^ sh) == b) vs))

/-- Column statistics: sum, least, largest, per column (Table 10-9). DEDUCED (log 22). -/
def statsOf (im : Img) (comp c0 cw : Nat) : List (Nat × Nat × Nat) :=
  let rows := im.rows.map (fun p => columnVals im comp c0 cw p.2)
  let n := (rows.head?.getD []).length
  (List.range n).map (fun i =>
    let vs := rows.map (fun r => r.getD i 0)
    (vs.foldl (· + ·) 0, vs.foldl min 65535, vs.foldl max 0))

/-! Resampling (R212, R213). -/

/-- y of grid row `r`, in the stream's direction measured from ORIGIN (R212), times the direction. -/
def gridRow (org : Int) (num den : Nat) (r : Int) : Int := org + floorDiv (r * num) (max 1 den)

/-- The first grid row at or ahead of `b` (all in the stream's direction). -/
def firstRow (org : Int) (num den : Nat) (b : Int) : Int :=
  -(floorDiv (-((b - org) * (max 1 den : Nat))) (max 1 num : Nat))

/-- Resample one row at `y` from the lines not excluded (direction-normalised x, values): the pair around it and the blend, or none. -/
def resampleRow (gapMax num den : Nat) (y : Int) : List (Int × List Nat) → Option (List Nat)
  | a :: b :: l =>
    if a.1 ≤ y && y ≤ b.1 then
      if decide (b.1 = a.1) || decide ((gapMax * num : Nat) < (b.1 - a.1) * (max 1 den : Nat)) then none
      else
        let w := (256 * (y - a.1) / (b.1 - a.1)).toNat
        some ((a.2.zip b.2).map (fun p => ((256 - w) * p.1 + w * p.2 + 128) / 256))
    else resampleRow gapMax num den y (b :: l)
  | _ => none

end Sys2Proof.Machine
end

