-- ==== Sys2Proof/Machine/MarkLock.lean ====
section
/-! DEFINITION. Compass units: finding marks and the mark-lock loop (08_mark_lock.md). P, U and TRIM are kept as the registers show them (absolute
positions; TRIM and errors positive ahead in the stream's direction); distances are taken in the stream's direction. -/

namespace Sys2Proof.Machine

/-- Whether a set of a unit's registers is refused (R241), as that set would stand. -/
def mlkBroken (s : State) (u : Nat) : Bool :=
  let st := rd s (MLK_SRC_STREAM u)
  let c0 := rd s (MLK_COLS_COL0 u)
  let cw := rd s (MLK_COLS_COLW u)
  let rep := rd s (MLK_REPEAT_REPEAT u)
  let wb := rd s (MLK_WIN_BEFORE_WIN u)
  let wa := rd s (MLK_WIN_AFTER_WIN u)
  let co := rd s (MLK_CUT_OFS_OFS u)
  !rdB s (CAM_STR_BIND_LINE st) || rd s (FRM_STR_BIND_CAMP st) != u / 2
    || cw == 0 || decide (rd s (CAM_STR_GEOM_WIDTH st) < c0 + cw)
    || rd s (MLK_QUAL_LEN_MIN u) == 0 || decide (rd s (MLK_QUAL_LEN_MAX u) < rd s (MLK_QUAL_LEN_MIN u))
    || rd s (MLK_QUAL_MINPIX u) == 0 || decide (cw < rd s (MLK_QUAL_MINPIX u))
    || rep == 0 || decide (rep ≤ wb + wa) || decide (co < wb) || decide (rep ≤ co + wa) || rd s (MLK_GAIN_KP u) == 0

/-- Show the context of the ACTIVE set in the unit's registers (R240, Tables 8-2, 8-5). A context that has never left SEARCH reads 0. -/
def mlkShow (s : State) (u : Nat) : State :=
  let x := mlk s u
  let l := x.cur
  let s := wr (wr (wr s (MLK_STATUS_STATE u) l.st) (MLK_STATUS_MISS u) l.miss) (MLK_STATUS_GOOD u) l.good
  let s := wrB (wrB (wrB s (MLK_STATUS_INHERITED u) l.inherited) (MLK_STATUS_EVER_LOCKED u) l.ever) (MLK_STATUS_GRACE u) l.grace
  let s := wrB s (MLK_STATUS_CFG_ERR u) (x.badSet || x.refused)
  wrI (wrI (wrI s (MLK_PRED_P u) l.p) (MLK_RHAT_R u) l.r) (MLK_TRIM_TRIM u) (satSigned 32 l.trim)

/-- Set one of a unit's contexts; the ACTIVE set's is shown. -/
def setLoop (s : State) (u : Nat) (old : Bool) (l : Loop) : State :=
  let x := mlk s u
  if old then setMlk s u { x with old := some l } else mlkShow (setMlk s u { x with cur := l }) u

/-- The context that serves a set: the OLD one is gone when its recipe is. -/
def loopOf (s : State) (u : Nat) (old : Bool) : Option Loop := if old then (mlk s u).old else some (mlk s u).cur

/-- Values arrive in MOT: what stood there at the start of the cycle stands until its end (R234). -/
def setMot (s : State) (u : Nat) (l : Loop) : State :=
  let x := mlk s u
  setMlk s u { x with mot := l, motWas := (if x.motAt = some (s.now / 2) then x.motWas else x.mot), motAt := some (s.now / 2) }

/-- The loop's values stand in MOT without a mark report (R227): a miss, a loss, a fresh context. A report on its way brings them too. -/
def toMot (s : State) (u : Nat) : State :=
  let x := mlk s u
  setMot (setMlk s u { x with reports := x.reports.map (fun r => (r.1, r.2.map (fun _ => x.cur))) }) u x.cur

/-- A context enters SEARCH (Table 8-1): TRIM = 0; by a loss LOSS is set; the lock guyline event rises when it was not in SEARCH (R239), and the mode's lock is judged where that or its grace ends (R237, R238). -/
def toSearch (s : State) (u : Nat) (old loss : Bool) : State :=
  match loopOf s u old with
  | none => s
  | some l =>
    let s := setLoop s u old { l with st := 0, trim := 0, good := 0, miss := 0, ever := false, grace := false, prev := none }
    let s := onlyIf (l.st != 0) (fun s => later s (.gyl (112 + u) 0)) s
    if old then s else
    let s := onlyIf loss (fun s => wr s (MLK_STATUS_LOSS u) 1) s
    onlyIf (l.st != 0 || l.grace) (fun s => later s .lockCheck) (toMot s u)

/-- The loop on an accepted mark outside SEARCH (R231): e and the updated values. DEDUCED (log 24). -/
def loopMark (s : State) (u : Nat) (old : Bool) (sg : Int) (l : Loop) (m : Int) : Int × Loop :=
  let e := sg * (m - l.p)
  let r := l.r + floorDiv (rdSet s old (MLK_GAIN_KI u) * e) 65536
  let corr := floorDiv (rdSet s old (MLK_GAIN_KP u) * e) 65536
  let uu := l.u + sg * r
  let p := l.p + sg * (r + corr)
  (e, { l with p := p, r := r, u := uu, trim := satSigned 32 (sg * (p - uu)), prev := some l.p, err := e })

/-- The point of ORIGIN + j x REPEAT nearest `m` (Table 8-1). -/
def nearestGrid (org : Int) (rep : Nat) (m : Int) : Int := org + floorDiv (2 * (m - org) + rep) (2 * (rep : Int)) * rep

/-- A context reaches LOCKED (Table 8-1, R238, R239). -/
def toLocked (s : State) (u : Nat) (old : Bool) (l : Loop) : State :=
  later (setLoop s u old { l with st := 2, ever := true, grace := false, miss := 0 }) (.gyl (112 + u) 0)

/-- A mark is accepted at `m` (R231, Table 8-1): its report leaves for MOT (R239), with the loop's values where the ACTIVE set's context accepted it. Answers e. DEDUCED (log 24). -/
def markAccept (s : State) (u : Nat) (old : Bool) (m : Int) : State × Int :=
  match loopOf s u old with
  | none => (s, 0)
  | some l =>
    let sg := mlkSign s old u
    let lockThr := rdSet s old (MLK_LOCK_THR_LOCK_THR u)
    let acqN := orOne (rdSet s old (MLK_LOCK_THR_ACQ_N u))
    let unlockThr := rdSet s old (MLK_UNLOCK_THR_UNLOCK_THR u)
    let rep := rdSet s old (MLK_REPEAT_REPEAT u)
    let r : State × Int :=
      if l.st = 0 then
        let g := nearestGrid (rdSetI s old (MLK_ORIGIN_ORIGIN u)) rep m
        let e := sg * (m - g)
        (setLoop s u old { l with st := 1, r := rep, u := g + sg * rep, p := m + sg * rep, trim := satSigned 32 e, good := 0, prev := none, err := e }, e)
      else
        let q := loopMark s u old sg l m
        let a := q.1.natAbs
        let l' := q.2
        if l.st = 1 then
          if a ≤ lockThr then
            if acqN ≤ l.good + 1 then (toLocked s u old { l' with good := l.good + 1 }, q.1)
            else (setLoop s u old { l' with good := l.good + 1 }, q.1)
          else (setLoop s u old { l' with good := 0 }, q.1)
        else if a ≤ unlockThr then
          if l.st = 3 then (toLocked s u old l', q.1) else (setLoop s u old l', q.1)
        else (setLoop s u old { l' with st := 1, good := 0, miss := 0 }, q.1)
    if old then
      let x := mlk r.1 u
      (setMlk r.1 u { x with reports := x.reports ++ [(m, none)] }, r.2)
    else
    let s := wrI (wrI r.1 (MLK_ERR_E u) (satSigned 32 r.2)) (MLK_LAST_MARK_M u) m
    let s := addWrap s (MLK_CNT_MARKS_COUNT u) 1
    let x := mlk s u
    (later (setMlk s u { x with reports := x.reports ++ [(m, some x.cur)] }) .lockCheck, r.2)

/-- A window closes without a mark (R230, R232, Table 8-1). DEDUCED (log 24). -/
def markMissed (s : State) (u : Nat) (old : Bool) : State :=
  match loopOf s u old with
  | none => s
  | some l =>
    let sg := mlkSign s old u
    let s := onlyIf (!old) (fun s => addSat s (MLK_CNT_MISS_COUNT u) 1) s
    let adv : Loop := { l with u := l.u + sg * l.r, p := l.p + sg * l.r }
    let quiet := fun (s : State) => if old then s else toMot s u
    if l.st = 1 then toSearch s u old true
    else if l.st = 2 then quiet (setLoop s u old { adv with st := 3, miss := 1 })
    else if l.miss < orOne (rdSet s old (MLK_UNLOCK_THR_COAST_K u)) then quiet (setLoop s u old { adv with miss := l.miss + 1 })
    else
      let s := record s rpData 0x0D svWarning 0x5002 (leBytes 1 u ++ leBytes 8 (ofSigned 64 l.r) ++ leBytes 4 (ofSigned 32 (satSigned 32 l.err)))
      toSearch s u old true

/-- Whether a position lies in the window around `p` (R229). DEDUCED (log 24). -/
def inWindow (s : State) (u : Nat) (old : Bool) (sg p x : Int) : Bool :=
  decide (sg * p - rdSet s old (MLK_WIN_BEFORE_WIN u) ≤ sg * x) && decide (sg * x ≤ sg * p + rdSet s old (MLK_WIN_AFTER_WIN u))

/-- The run of a context. -/
def runOf (s : State) (u : Nat) (old : Bool) : Option MarkRun := if old then (mlk s u).runOld else (mlk s u).run

/-- Set the run of a context. -/
def setRun (s : State) (u : Nat) (old : Bool) (r : Option MarkRun) : State :=
  let x := mlk s u
  setMlk s u (if old then { x with runOld := r } else { x with run := r })

/-- A run ends (R225, R226, R230): it is a mark, an extra mark of a window that has had its mark, or it is rejected. Answers (M, e) of a mark accepted. DEDUCED (log 24). -/
def runEnd (s : State) (u : Nat) (old : Bool) (r : MarkRun) : State × Option (Int × Int) :=
  let s := setRun s u old none
  match loopOf s u old with
  | none => (s, none)
  | some l =>
    if r.rejected then (s, none) else
    let sg := mlkSign s old u
    let shape := !r.bad && decide (rdSet s old (MLK_QUAL_LEN_MIN u) ≤ r.len) && decide (r.len ≤ rdSet s old (MLK_QUAL_LEN_MAX u))
    let within := fun (p : Int) => inWindow s u old sg p r.firstX && inWindow s u old sg p r.lastX
    let extra := match l.prev with | some p => within p | none => false
    let cnt := fun (f : FRef) (s : State) => if old then s else addSat s f 1
    if shape && l.st != 0 && extra then (cnt (MLK_CNT_EXTRA_COUNT u) s, none)
    else if shape && (l.st == 0 || within l.p) then
      let m := floorDiv r.sumCx (max 1 r.sumC : Nat)
      let a := markAccept s u old m
      (a.1, some (m, a.2))
    else (cnt (MLK_CNT_REJECT_COUNT u) s, none)

/-- Close every window that a line at `x` lies ahead of (R230); a run still open when a window closes is rejected. DEDUCED (log 24). -/
def closeWindows : Nat → State → Nat → Bool → Int → State
  | 0, s, _, _, _ => s
  | fuel + 1, s, u, old, x =>
    match loopOf s u old with
    | none => s
    | some l =>
      let sg := mlkSign s old u
      let past := fun (p : Int) => decide (sg * p + rdSet s old (MLK_WIN_AFTER_WIN u) ≤ sg * x)
      let reject := fun (s : State) =>
        match runOf s u old with
        | some r => if r.rejected then s else
            onlyIf (!old) (fun s => addSat s (MLK_CNT_REJECT_COUNT u) 1) (setRun s u old (some { r with rejected := true }))
        | none => s
      match l.prev with
      | some p => if past p then closeWindows fuel (reject (setLoop s u old { l with prev := none })) u old x else s
      | none =>
        if l.st != 0 && past l.p then closeWindows fuel (markMissed (reject s) u old) u old x else s

/-- One line as a context of a unit sees it (R223 to R230): its web position, the 8 most significant bits of its stored pixels, whether it is missing or sample-less. A mark line that closes a window does so
before it begins or continues a run; a line that ends a run decides it first. Answers a mark accepted. DEDUCED (log 24). -/
def mlkLine (s : State) (u : Nat) (old : Bool) (x : Int) (px : List Nat) (bad : Bool) : State × Option (Int × Int) :=
  let c0 := rdSet s old (MLK_COLS_COL0 u)
  let thr := rdSet s old (MLK_SRC_THR u)
  let light := rdSet s old (MLK_SRC_POL u) = 1
  let n := countIf (fun v => if light then decide (thr < v) else decide (v < thr)) ((px.drop c0).take (rdSet s old (MLK_COLS_COLW u)))
  let sg := mlkSign s old u
  if rdSet s old (MLK_QUAL_MINPIX u) ≤ n then
    let s := closeWindows 600 s u old x
    match runOf s u old with
    | some r => (setRun s u old (some { r with sumC := r.sumC + n, sumCx := r.sumCx + n * x, len := r.len + 1, lastX := x
                                               bad := r.bad || bad || decide (sg * x ≤ sg * r.lastX) }), none)
    | none => (setRun s u old (some { sumC := n, sumCx := n * x, len := 1, firstX := x, lastX := x, bad := bad }), none)
  else
    let hit := match runOf s u old with
      | some r => runEnd s u old r
      | none => (s, none)
    (closeWindows 600 hit.1 u old x, hit.2)

/-- The hand-over grace of a context still in SEARCH ends once the watched stream's line passes X_h by COAST_K repeats (R238). -/
def graceCheck (s : State) (u : Nat) (x : Int) (xh : Option Int) : State :=
  let l := (mlk s u).cur
  match xh with
  | some h =>
    let sg := mlkSign s false u
    if l.grace && l.st == 0 && decide (sg * h + orOne (rd s (MLK_UNLOCK_THR_COAST_K u)) * rd s (MLK_REPEAT_REPEAT u) < sg * x)
    then later (setLoop s u false { l with grace := false }) .lockCheck else s
  | none => s

/-- Enabled units whose set watches a stream (R222). -/
def unitsAll (s : State) (st : Nat) (old : Bool) : List Nat :=
  below 32 (fun u => enabled s (mlkEn u) && rdSet s old (MLK_SRC_STREAM u) == st && (loopOf s u old).isSome)

/-- Of these, those whose set is not refused (R241): the others stay in SEARCH. -/
def unitsOn (s : State) (st : Nat) (old : Bool) : List Nat := (unitsAll s st old).filter (fun u => old || !(mlk s u).badSet)

/-- A preset of a trail sends the contexts of the units that watch its streams to SEARCH (Table 8-1). -/
def mlkLoss (s : State) (u : Nat) (old : Bool) : State := toSearch s u old true

/-- The trail step of R72 or R87, for every context whose stream's trail follows it. -/
def mlkPosStep (s : State) (t : Nat) : State :=
  each [true, false] (fun s old => each (below 32 (fun u => enabled s (mlkEn u) &&
    rootTrail 5 s (rdSet s old (FRM_STR_BIND_TRAIL (rdSet s old (MLK_SRC_STREAM u)))) == rootTrail 5 s t)) (fun s u => mlkLoss s u old) s) s

/-- A unit's enable leaves ENABLED (Table 8-1, R237): SEARCH with TRIM = 0, in both contexts; LOCK ends with it. -/
def mlkLeave (s : State) (u : Nat) : State :=
  let s := toSearch (toSearch s u true false) u false false
  later (setRun (setRun s u true none) u false none) (.lockDrop)

/-- At the hand-over cycle every enabled unit's context becomes the OLD context and the new set starts a fresh one, or a copy under INHERIT (R238, R240); a set that is refused makes its context stay in
SEARCH and CFG_ERR read 1 (R241). `acq` is false for a commit in IDLE or ARMED, which gives no grace and keeps no OLD context. A unit that is not enabled starts afresh. -/
def mlkHandover (s : State) (acq : Bool) : State :=
  each (List.range 32) (fun s u =>
    let x := mlk s u
    let bad := enState s (mlkEn u) != 0 && mlkBroken s u
    let on := enabled s (mlkEn u)
    let same := rd s (MLK_REPEAT_REPEAT u) == rdOld s (MLK_REPEAT_REPEAT u) && rd s (MLK_SRC_STREAM u) == rdOld s (MLK_SRC_STREAM u)
    let inh := on && rdB s (MLK_CTRL_INHERIT u) && same && !bad
    let l : Loop := if inh then { x.cur with inherited := true, grace := false } else { grace := on && acq }
    toMot (mlkShow (setMlk s u { x with cur := l, old := (if on && acq then some x.cur else none), run := (if inh then x.run else none), runOld := x.run, badSet := bad }) u) u) s

/-- The OLD contexts stop when the old recipe is no longer live (R240). -/
def mlkConjEnd (s : State) : State := each (List.range 32) (fun s u => setMlk s u { mlk s u with old := none, runOld := none }) s

/-- A mark report reaches MOT (R227, R239): the loop's values stand there, the mark guyline event rises, the changeover sequencer counts it. -/
def markReportArrive (u : Nat) (s : State) : State :=
  let x := mlk s u
  match x.reports with
  | [] => s
  | r :: rs =>
    let s := setMlk s u { x with reports := rs }
    let s := match r.2 with | some l => setMot s u l | none => s
    later (later (later s (.chgMark u)) (.gyl (80 + u) 0)) .lockCheck

/-- The LOCK condition's parts (R237): some unit is enabled; every one has reached LOCKED since it last left SEARCH; some one counts as unlocked. -/
def lockUnits (s : State) : List Nat := below 32 (fun u => enabled s (mlkEn u))
def lockMet (s : State) : Bool := !(lockUnits s).isEmpty && (lockUnits s).all (fun u => (mlk s u).cur.ever)
def lockLost (s : State) : Bool := (lockUnits s).any (fun u => (mlk s u).cur.st == 0 && !(mlk s u).cur.grace)

/-- B_next of a frame that opens at `start` under STEERED cutting (R202, R235). -/
def steeredNext (s : State) (old : Bool) (u : Nat) (sg start : Int) (rep : Nat) : Int :=
  match loopOf s u old with
  | none => start + sg * rep
  | some l =>
    if l.st = 0 || !enabled s (mlkEn u) then start + sg * rep
    else
      let co := rdSet s old (MLK_CUT_OFS_OFS u)
      let b := l.p - sg * co
      if l.r < 2 * (sg * (b - start)) then b else l.p + sg * l.r - sg * co

end Sys2Proof.Machine
end

