-- ==== Sys2Proof/Machine/Frames.lean ====
section
/-! DEFINITION. Frame assembly (07_frame_assembly.md): the web position of a line, slots, the cutter of Table 7-4 for both recipes of a conjunction
(09_job_changeover.md R259 to R264), area frames, sequence numbers, the frame tag. -/

namespace Sys2Proof.Machine

def frm (s : State) (st : Nat) : FrmS := mget {} s.frm st
def setFrm (s : State) (st : Nat) (x : FrmS) : State := { s with frm := mput {} s.frm st x }

/-! Settings and the slot layout (Table 7-1). -/

/-- Whether a set can be resampled (R211): POSITION or STEERED line mode, a stored format of the list, Bayer data only behind a debayer kernel. DEDUCED (log 21). -/
def rsmpOk (s : State) (old : Bool) (st : Nat) : Bool :=
  let f := rdSet s old (CAM_STR_FMT_FORMAT st)
  let packed := rdSet s old (CAM_STR_FMT_WIRE_P st) == 1 && rdSet s old (CAM_STR_FMT_UNPACK st) == 0
  let m := rdSet s old (FRM_STR_CUT_MODE st)
  (m == 1 || m == 2) && rdB s (CAM_STR_BIND_LINE st) && !packed && (f == 0 || f == 16 || decide (8 < fmtBits f)) &&
    (!fmtBayer f || debayersFirst s (rdSet s old (PXE_CHAIN_BASE_BASE st) * 64))

/-- Whether a set is to be resampled and cannot be (R211). -/
def rsmpBroken (s : State) (st : Nat) : Bool := rdB s (FRM_STR_CUT_RSMP_EN st) && !rsmpOk s false st

/-- The settings of a stream in one of the two sets. -/
def setCfgOf (s : State) (old : Bool) (st : Nat) : SetCfg :=
  let g := fun (f : FRef) => rdSet s old f
  let base := g (PXE_CHAIN_BASE_BASE st) * 64
  { job := g CHG_JOB_JOB_ID, ver := g CHG_JOB_RCP_VER, rcp := g CHG_RCP_SLOT
    fmt := g (CAM_STR_FMT_FORMAT st), packed := g (CAM_STR_FMT_WIRE_P st) == 1 && g (CAM_STR_FMT_UNPACK st) == 0
    width := g (CAM_STR_GEOM_WIDTH st), line := rdB s (CAM_STR_BIND_LINE st)
    neg := g (FRM_STR_BIND_DIR st) == 1, sampler := g (FRM_STR_BIND_SAMPLER st), dom := g (FRM_STR_BIND_DOM st), camp := g (FRM_STR_BIND_CAMP st)
    mode := g (FRM_STR_CUT_MODE st), compass := g (FRM_STR_CUT_COMPASS st), seam := g (FRM_STR_CUT_SEAM st)
    rsmp := g (FRM_STR_CUT_RSMP_EN st) == 1 && rsmpOk s old st, xdly := g (FRM_STR_XDLY_XDLY st)
    origin := rdSetI s old (FRM_STR_ORIGIN_ORIGIN st), rep := g (FRM_STR_REPEAT_REPEAT st), stepMax := orOne (g (FRM_STR_STEPMAX_STEPMAX st))
    maxLines := orOne (g (FRM_STR_MAXLINES_MAXLINES st)), num := g (FRM_STR_RSMP_NUM st), den := orOne (g (FRM_STR_RSMP_DEN st))
    fill := g (FRM_STR_FILL_FILL st), gapMax := orOne (g (FRM_STR_FILL_GAP_MAX st)), base := base
    group := g (PXE_CHAIN_GROUP_ENG_MASK st)
    rowStride := rowStride s base (fmOf (g (CAM_STR_FMT_FORMAT st)) (g (CAM_STR_GEOM_WIDTH st)) (orOne (g (FRM_STR_MAXLINES_MAXLINES st)))), fq := g (DLV_STR_FQ_QID st), cq := g (DLV_STR_CQ_QID st), fqEn := g (DLV_STR_FQ_EN st) == 1
    cqEn := g (DLV_STR_CQ_EN st) == 1, content := g ⟨0x121008 + 0x10 * st, 0, 5⟩ }

/-- Bytes of a stored line (R198). -/
def storedLen (c : SetCfg) : Nat := if c.packed then c.width * fmtBits c.fmt / 8 else c.width * fmtBytes c.fmt

/-- STRIDE (R198). -/
def strideOf (c : SetCfg) : Nat := roundUp 64 (storedLen c)

/-- P: the payload's offset in the slot (Table 7-1). -/
def payloadOfs (c : SetCfg) : Nat := roundUp 4096 (0x80 + 32 * c.maxLines)

/-- Q: the chain area's offset in the slot (R277). -/
def chainOfs (c : SetCfg) : Nat := roundUp 4096 (payloadOfs c + c.maxLines * (if c.rsmp then c.rowStride else strideOf c))

/-- Where the captured lines of a frame begin in its slot: the payload, or the capture area of a resampled stream (Table 10-3). -/
def linesOfs (c : SetCfg) : Nat := if c.rsmp then chainOfs c + 0x1000 else payloadOfs c

/-- Bytes of a slot, and the HBM address of slot `k` (R197). -/
def slotBytes (s : State) (st : Nat) : Nat := rd s (FRM_SLOT_CFG_SIZE st) * 4096
def slotAddr (s : State) (st k : Nat) : Nat := rd s (FRM_SLOT_BASE_BASE st) * 4096 + k * slotBytes s st

/-- Lines that fit a slot (R220, last sentence). -/
def slotLines (s : State) (st : Nat) (c : SetCfg) : Nat := (slotBytes s st - linesOfs c) / max 1 (strideOf c)

/-- Why an enable of a stream's assembly is refused (R220, R211). -/
def frmRefused (s : State) (st : Nat) : Bool :=
  let c := setCfgOf s false st
  let n := rd s (FRM_SLOT_COUNT_SLOTS st)
  c.sampler == 3 || c.mode == 3 || decide (11 < rd s (FRM_STR_BIND_TRAIL st))
    || (c.mode == 1 && c.line && c.rep == 0) || (c.mode == 0 && c.line && (c.rep == 0 || decide (65535 - c.seam < c.rep)))
    || decide (c.maxLines ≤ c.seam) || rsmpBroken s st
    || n == 0 || decide (hbmSize < rd s (FRM_SLOT_BASE_BASE st) * 4096 + n * slotBytes s st)
    || decide (slotBytes s st < payloadOfs c + c.maxLines * strideOf c)

/-! The frames of a stream. -/

/-- The frame with an identity. -/
def frameOf (s : State) (st id : Nat) : Option Frame := (frm s st).frames.find? (fun f => f.id == id)

/-- Change the frame with an identity. -/
def setFrame (s : State) (st id : Nat) (g : Frame → Frame) : State :=
  setFrm s st { frm s st with frames := (frm s st).frames.map (fun f => if f.id = id then g f else f) }

/-- Take a frame out of the list. -/
def removeFrame (s : State) (st id : Nat) : State :=
  laterOnce (setFrm s st { frm s st with frames := (frm s st).frames.filter (fun f => f.id != id) }) .oldSlots

/-- Lines of a frame that have arrived. -/
def frameLines (f : Frame) : Nat := if f.area then f.rows else f.recs.length

/-- Whether a camp processes a frame's lines: it has a slot and a chain, and is neither finished nor given up. -/
def chained (s : State) (f : Frame) : Bool := chainNK s f.cfg.base != 0 && f.slot.isSome && f.abandoned.isNone && !f.complete

/-- The lag of a stream (R287): lines that have arrived and are not processed. -/
def lagOf (s : State) (st : Nat) : Nat := (frm s st).frames.foldl (fun a f => if chained s f then a + (frameLines f - f.done) else a) 0

/-- Lines of a frame not yet processed that the line buffer had no room for (R287). -/
def spilled (f : Frame) : Nat := countIf (fun i => decide (f.done ≤ i)) f.spill

/-- Lines of a stream that lie in its share of the line buffer (R272). -/
def buffered (s : State) (st : Nat) : Nat := (frm s st).frames.foldl (fun a f => if chained s f then a + (frameLines f - f.done - spilled f) else a) 0

/-- Show the stream's lag, its maximum, and CATCHUP while a line outside the buffer is outstanding (R287, Table 10-15). -/
def showLag (s : State) (st : Nat) : State :=
  let l := min 65535 (lagOf s st)
  let s := wr s (PXE_STR_LAG_LAG st) l
  wr (wr s (PXE_STR_LAG_MAX st) (max l (rd s (PXE_STR_LAG_MAX st)))) (PXE_STR_STATUS_CATCHUP st) (b2n ((frm s st).frames.any (fun f => chained s f && spilled f != 0)))

/-! Slots. -/

/-- Show the free slots (Table 7-6). -/
def showFree (s : State) (st : Nat) : State :=
  wr s (FRM_SLOT_COUNT_FREE st) (rd s (FRM_SLOT_COUNT_SLOTS st) - (frm s st).slots.length)

/-- Whether released slots of a stream are held for a conjunction's lead lines (R262). -/
def slotHold (s : State) (st : Nat) : Bool :=
  rd s CHG_STATUS_PHASE == 1 || (match (frm s st).conj with | some c => c.lead && !c.copied | none => false)

/-- Free the released slots that no longer must be held (R200, R262), and note how far the lines reach that no slot holds any more. -/
def freeSlots (s : State) (st : Nat) : State :=
  let x := frm s st
  let hold := slotHold s st
  let lead := 256 * (s.chg.lead : Int)
  let keep := fun (p : Nat × SlotS) => !p.2.released || (hold &&
    (match x.lastX with | some lx => p.2.recs.any (fun r => decide (((lx - r.x).natAbs : Int) ≤ lead)) | none => false))
  let gone := x.slots.filter (fun p => !keep p)
  let kept := x.slots.filter keep
  let lost := fun (r : LineRec) => !(kept.any (fun q => q.2.recs.any (fun t => decide (t = r))))
  let far := gone.foldl (fun (a : Option Int) p => (p.2.recs.filter lost).foldl (fun a r =>
    match a with
    | some v => some (if p.2.cfg.neg then min v r.x else max v r.x)
    | none => some r.x) a) x.freedX
  if gone.isEmpty then s else showFree (setFrm s st { x with slots := kept, freedX := far }) st

/-- Delivery, or a drop, releases a slot (R200). -/
def releaseSlot (s : State) (st k : Nat) : State :=
  let x := frm s st
  laterOnce (freeSlots (setFrm s st { x with slots := x.slots.map (fun p => if p.1 = k then (p.1, { p.2 with released := true }) else p) }) st) .oldSlots

/-- Free at once the slot of a frame that is discarded (R45, R208). -/
def discardFrame (s : State) (st id : Nat) : State :=
  match frameOf s st id with
  | none => s
  | some f =>
    let s := removeFrame s st id
    match f.slot with
    | some k => showLag (releaseSlot s st k) st
    | none => showLag s st

/-- The next free slot in the ring (R197). -/
def freeSlot (s : State) (st : Nat) : Option Nat :=
  let n := rd s (FRM_SLOT_COUNT_SLOTS st)
  ((List.range n).map (fun i => ((frm s st).nextSlot + i) % n)).find? (fun k => !((frm s st).slots.any (fun p => p.1 == k)))

/-- The loop's P and repeat estimate a frame opens with (R283), when its compass unit is outside SEARCH. -/
def openReg (s : State) (old : Bool) (c : SetCfg) : Option (Int × Int) :=
  match loopOf s c.compass old with
  | some l => if l.st != 0 && enabled s (mlkEn c.compass) then some (l.p, l.r) else none
  | none => none

/-- Open a frame (R200): it takes the ring's next free slot, or is dropped, counted at once, and tracked without one. DEDUCED (log 21). -/
def openFrame (s : State) (st : Nat) (c : SetCfg) (setNo : Nat) (old : Bool) (start bnext : Int) (area : Bool) : State × Nat :=
  let x := frm s st
  let k := freeSlot s st
  let f : Frame := { id := x.nextId, cfg := c, setNo := setNo, slot := k, start := start, bnext := bnext, area := area, reg := openReg s old c }
  let slots := match k with | some k => x.slots.filter (fun p => decide (p.1 < k)) ++ [(k, { cfg := c })] ++ x.slots.filter (fun p => decide (k < p.1)) | none => x.slots
  let s := onlyIf (mget ({} : PxeS) s.pxe st).sub (fun s => later s (.boundary st)) s
  let s := onlyIf k.isNone (fun s => wr (addSat s (FRM_CNT_DROPPED_COUNT st) 1) (FRM_STR_STATUS_DROP st) 1) s
  (showFree (setFrm s st { x with nextId := x.nextId + 1, nextSlot := (k.map (· + 1)).getD x.nextSlot, frames := x.frames ++ [f], slots := slots }) st, x.nextId)

/-- A line record's bytes (Table 7-2). -/
def recBytes (r : LineRec) : List Byte :=
  leBytes 8 (ofSigned 64 r.pos) ++ leBytes 8 r.ts ++ leBytes 4 (ofSigned 32 r.spd) ++ leBytes 4 (ofSigned 32 r.xofs) ++
    leBytes 2 r.tseq ++ leBytes 1 r.frac ++ leBytes 1 r.flags ++ leBytes 4 0

/-- Line `i` of a frame arrives in the camp: it lies in the stream's share of 8 lines of the line buffer, or is read from its slot later (R272, R287). DEDUCED (log 22). -/
def spillLine (s : State) (st id i : Nat) : State :=
  if 8 < buffered s st then setFrame s st id (fun f => if chained s f then { f with spill := f.spill ++ [i] } else f) else s

/-- Store a line in a frame's slot (R198, Table 7-1): its record and its bytes, padded to STRIDE. In a resampled frame a line behind the first row
replaces those before it (R214). -/
def storeLine (s : State) (st id : Nat) (l : PLine) : State :=
  match frameOf s st id with
  | none => s
  | some f =>
    let c := f.cfg
    let sg : Int := if c.neg then -1 else 1
    let y0 := gridRow (sg * c.origin) c.num c.den (firstRow (sg * c.origin) c.num c.den (sg * f.start))
    let fresh := c.rsmp && decide (sg * l.rec_.x < y0)
    let i := if fresh then 0 else f.recs.length
    let recs := if fresh then [l.rec_] else f.recs ++ [l.rec_]
    let s := spillLine (setFrame s st id (fun f => { f with recs := recs, rows := recs.length, done := min f.done i, spill := if fresh then [] else f.spill })) st id i
    match f.slot with
    | none => s
    | some k =>
      let a := slotAddr s st k
      let s := hbmWrite s (a + 0x80 + 32 * i) (recBytes l.rec_)
      let s := hbmWrite s (a + linesOfs c + i * strideOf c) (padTo (strideOf c) l.data)
      let x := frm s st
      setFrm s st { x with slots := x.slots.map (fun p => if p.1 = k then (p.1, { p.2 with recs := recs }) else p), lastXofs := some l.rec_.xofs }

/-! Closing. -/

abbrev flSeamHead : Nat := 2
abbrev flSeamTail : Nat := 4
abbrev flConjOld : Nat := 8
abbrev flConjNew : Nat := 16
abbrev flShort : Nat := 2 ^ 13
abbrev flTrunc : Nat := 2 ^ 14
abbrev flPosStep : Nat := 2 ^ 15
abbrev flNonMono : Nat := 2 ^ 16

/-- CONJ_OLD and CONJ_NEW of a frame (R265). DEDUCED (log 21). -/
def conjFlags (s : State) (f : Frame) : Nat :=
  match s.chg.hAt with
  | none => 0
  | some h =>
    if f.setNo + 1 = s.chg.count then (if f.recs.any (fun r => decide (h < r.at_ / 2)) then flConjOld else 0)
    else if f.setNo = s.chg.count then (if f.recs.any (fun r => decide (r.at_ / 2 ≤ h)) then flConjNew else 0) else 0

/-- The flags of Table 7-5 that a frame's records give (R216), but for TIME_STEP. -/
def recFlags (f : Frame) : Nat :=
  let all := fun (k : Nat) => f.recs.all (fun r => bitOf r.flags k)
  let any := fun (k : Nat) => f.recs.any (fun r => bitOf r.flags k)
  let ends := fun (k : Nat) => (match f.recs.head? with | some r => bitOf r.flags k | none => false) &&
    (match f.recs.getLast? with | some r => bitOf r.flags k | none => false)
  2 ^ 6 * b2n (all 0) + 2 ^ 7 * b2n (all 1) + 2 ^ 8 * b2n (any 2) + 2 ^ 9 * b2n (any 3) + 2 ^ 11 * b2n (ends 6)

/-- The step mark of a frame's domain when its first line was sampled (R103), if it lies after that of the frames before it: the frame is the first after the step. -/
def frameStep (x : FrmS) (f : Frame) : Option Nat :=
  match f.recs.head? with
  | some r => if mget 0 x.stepSeen f.cfg.dom < r.step then some r.step else none
  | none => none

/-- Whether a position lies in a frame's span, from its first to its last captured line's x (R236), with a line of the frame counted from the same origin: a preset in between makes another position of it. DEDUCED (log 21). -/
def frameSpans (f : Frame) (m : Int) (pm : Nat) : Bool :=
  f.recs.any (fun r => r.pm == pm) &&
    match f.recs.head?, f.recs.getLast? with
    | some a, some b => (decide (a.x ≤ m) && decide (m ≤ b.x)) || (decide (b.x ≤ m) && decide (m ≤ a.x))
    | _, _ => false

/-- MARK_ERR of a frame: that of the first mark its unit reported in its span, under its own set (R236). -/
def frameMark (x : FrmS) (f : Frame) : Option Int :=
  (x.marks.find? (fun k => k.setNo == f.setNo && k.unit == f.cfg.compass && frameSpans f k.pos k.pm)).map (·.err)

/-- Missing and sample-less lines of a frame (Table 7-3): every line of an area image that found no sample is without one. DEDUCED (log 21). -/
def missingOf (f : Frame) : Nat :=
  let none_ := f.recs.any (fun r => bitOf r.flags 5)
  if f.area then (if none_ then f.rows else f.missRows) else countIf (fun r => bitOf r.flags 4 || bitOf r.flags 5) f.recs

/-- A frame closes (R207, R209): it takes the next number. A frame without a slot is dropped (R200), with a record where the frame before was not; one the camp has given up is dropped there; the others
wait for their chain. DEDUCED (log 21). -/
def closeFrame (s : State) (st id flags : Nat) : State :=
  match frameOf s st id with
  | none => s
  | some f =>
    let x := frm s st
    let seq := rd s (FRM_STR_SEQ_SEQ st)
    let stp := frameStep x f
    let fl := f.flags + flags + (if f.head = 0 then 0 else flSeamHead) + (if f.tail = 0 then 0 else flSeamTail) + conjFlags s f + recFlags f + 2 ^ 10 * b2n stp.isSome
    let s := match stp with | some k => setFrm s st { x with stepSeen := mput 0 x.stepSeen f.cfg.dom k } | none => s
    let s := addWrap (addWrap s (FRM_STR_SEQ_SEQ st) 1) (FRM_CNT_FRAMES_COUNT st) 1
    let s := setFrame s st id (fun f => { f with seq := some seq, flags := fl, mark := frameMark x f })
    let s := onlyIf (mget ({} : PxeS) s.pxe st).sub (fun s => later s (.boundary st)) s
    match f.abandoned, f.slot with
    | some cause, _ => later s (.campDrop st id cause)
    | none, some _ =>
      later (setFrm s st { frm s st with dropping := false }) (.frameClosed st id)
    | none, none =>
      let s := onlyIf (!x.dropping) (fun s => record s rpData 0x0C svWarning 0x4001 (leBytes 1 st ++ leBytes 6 seq)) s
      let s := removeFrame (setFrm s st { frm s st with dropping := true }) st id
      later s (.handOver st)

/-! The cutter (Table 7-4). All tests are made in the stream's direction. -/

/-- The cutter of one of the two sets. -/
def cutOf (s : State) (st : Nat) (old : Bool) : Option Cutter := if old then (frm s st).oldCut else (frm s st).cut

/-- Whether a cutter's frame is still one: not truncated, discarded or never opened. -/
def live (f : Option CutFrame) : Bool := match f with | some f => f.id.isSome | none => false

/-- Set a cutter and show the open frame's tail and boundary (Table 7-9, FRM_OPEN_BOUND). -/
def setCut (s : State) (st : Nat) (old : Bool) (c : Cutter) : State :=
  let s := setFrm s st (if old then { frm s st with oldCut := some c } else { frm s st with cut := some c })
  if old then s else
  let bound : Int := match c.cur with | some f => if c.cfg.mode = 0 || f.id.isNone then 0 else f.bnext | none => 0
  wrI (wrB s (FRM_STR_STATUS_TAIL st) (c.st == 2)) (FRM_OPEN_BOUND_BOUND st) bound

/-- Whether a cutter holds an open frame. -/
def cutHolds (c : Option Cutter) : Bool := match c with | some c => live c.cur || live c.prev | none => false

def cutSign (c : SetCfg) : Int := if c.neg then -1 else 1

/-- The grid index of a position, and the boundary it gives (R201). -/
def gridIdx (c : SetCfg) (x : Int) : Int := floorDiv (cutSign c * (x - c.origin)) (max 1 c.rep)
def gridAt (c : SetCfg) (m : Int) : Int := c.origin + cutSign c * m * c.rep

/-- B_next of a frame that opens at `start` (R201, R202, R235). -/
def nextBound (s : State) (old : Bool) (c : SetCfg) (start : Int) : Int :=
  if c.mode = 0 then 0
  else if c.mode = 2 then steeredNext s old c.compass (cutSign c) start c.rep
  else start + cutSign c * c.rep

/-- Whether a line at `x` is ahead of a frame's B_next (R203: by lines of the body in LINES mode). -/
def pastFrame (c : SetCfg) (f : CutFrame) (x : Int) : Bool :=
  if c.mode = 0 then decide (c.rep ≤ f.body) else decide (0 ≤ cutSign c * (x - f.bnext))

/-- The start of the frame whose interval holds `x`, from boundary `b` on (R203: frames skipped in between are never produced). While the compass is in SEARCH every frame is REPEAT long (R202); outside it R235 gives at most
two boundaries ahead of one start, which the first argument bounds. -/
def nextStart : Nat → State → Bool → SetCfg → Int → Int → Int
  | 0, _, _, _, b, _ => b
  | fuel + 1, s, old, c, b, x =>
    if c.mode = 1 then gridAt c (gridIdx c x)
    else if c.mode = 0 then 0
    else
      let n := nextBound s old c b
      if !(decide (0 < cutSign c * (n - b)) && decide (0 ≤ cutSign c * (x - n))) then b
      else if n = b + cutSign c * c.rep && nextBound s old c n = n + cutSign c * c.rep then b + cutSign c * (floorDiv (cutSign c * (x - b)) (max 1 c.rep) * c.rep)
      else nextStart fuel s old c n x

/-- The number of grid rows of a resampled frame that begins at `start`, up to position `y` (R212; direction-normalised). -/
def rowsTo (c : SetCfg) (start y : Int) : Nat :=
  let o := cutSign c * c.origin
  (firstRow o c.num c.den (y + 1) - firstRow o c.num c.den (cutSign c * start)).toNat

/-- The last grid row of a resampled frame (R212): the SEAM-th row from B_next on, or the last of the body. -/
def lastRowY (c : SetCfg) (f : CutFrame) : Int :=
  let o := cutSign c * c.origin
  gridRow o c.num c.den (firstRow o c.num c.den (cutSign c * f.bnext) + c.seam - 1)

/-- A seam's length once the line at `x` is in it: `t` lines, or in a resampled stream the rows of the earlier frame's tail that the lines reach (R212). -/
def seamLen (c : SetCfg) (p : Option CutFrame) (t : Nat) (x : Int) : Nat :=
  match c.rsmp, p with
  | true, some p => min c.seam (rowsTo c p.bnext (cutSign c * x))
  | _, _ => t

/-- Open a frame in a cutter, in a resampled stream with the line behind its first row (R214); one that opens no frames only tracks the boundary (R260, R44). -/
def cutOpen (s : State) (st : Nat) (c : Cutter) (start : Int) : State × CutFrame :=
  let b := nextBound s c.old c.cfg start
  if c.final then (s, { id := none, start := start, bnext := b })
  else
    let r := openFrame s st c.cfg c.setNo c.old (if c.cfg.mode = 0 then 0 else start) b false
    let l := if c.cfg.rsmp then c.last else none
    ((match l with | some l => storeLine r.1 st r.2 l | none => r.1), { id := some r.2, start := start, bnext := b, n := b2n l.isSome })

/-- Close a cutter's frame, if it is still one, with its seam lengths. -/
def cutClose (s : State) (st : Nat) (f : CutFrame) (tail flags : Nat) : State :=
  match f.id with
  | none => s
  | some id => closeFrame (setFrame s st id (fun g => { g with head := f.head, tail := tail })) st id flags

/-- Store a line in a cutter's frame (R206, R214, R220): one that reaches MAXLINES in lines or rows, or no longer fits its slot, closes with TRUNC and is tracked on. A resampled frame closes at the
first line ahead of its last row. `tail` is TAIL_OVL if it closes. -/
def cutStore (s : State) (st : Nat) (c : Cutter) (f : CutFrame) (l : PLine) (body nonMono : Bool) (tail : Nat) : State × CutFrame :=
  let f := if body then { f with body := f.body + 1 } else f
  match f.id with
  | none => (s, f)
  | some id =>
    let y := cutSign c.cfg * l.rec_.x
    let trunc := fun (s : State) (t : Nat) => wr (cutClose s st f t flTrunc) (FRM_STR_STATUS_TRUNC st) 1
    if slotLines s st c.cfg ≤ f.n then (trunc s (tail - 1), { f with id := none })
    else
      let s := storeLine s st id l
      let s := onlyIf nonMono (fun s => setFrame s st id (fun g => { g with flags := Nat.lor g.flags flNonMono })) s
      let f := { f with n := ((frameOf s st id).map (·.recs.length)).getD 0 }
      if c.cfg.maxLines ≤ f.n || (c.cfg.rsmp && decide (c.cfg.maxLines ≤ rowsTo c.cfg f.start (min y (lastRowY c.cfg f)))) then (trunc s tail, { f with id := none })
      else if c.cfg.rsmp && decide (lastRowY c.cfg f ≤ y) then (cutClose s st f c.cfg.seam 0, { f with id := none })
      else (s, f)

/-- The cutter stops for good: its last frame has closed. -/
def cutDone (c : Cutter) : Cutter := { c with stopped := true, st := 0, t := 0, cur := none, prev := none }

/-- A cutter that opens no more frames stops once its last one has closed, in whichever way (R44, R206, R260). -/
def cutSettle (c : Cutter) : Cutter := if c.final && !live c.cur && !live c.prev then cutDone c else c

/-- Whether the tail of the earlier frame `p` is whole with the line at `x`, its `t`-th: SEAM lines, or in a resampled stream the last of SEAM rows (R212), whether or not that frame was truncated (R206). -/
def tailReached (c : SetCfg) (p : CutFrame) (t : Nat) (x : Int) : Bool :=
  if c.rsmp then decide (lastRowY c p ≤ cutSign c * x) else decide (c.seam ≤ t)

/-- The tail of the earlier frame ends at the line at `x`, after `t` lines (Table 7-4). -/
def tailEnd (s : State) (st : Nat) (c : Cutter) (t : Nat) (x : Int) : State × Cutter :=
  let n := seamLen c.cfg c.prev t x
  let s := match c.prev with | some p => cutClose s st p n 0 | none => s
  (s, cutSettle { c with prev := none, cur := c.cur.map (fun f => { f with head := n, seamN := t }), t := 0, st := 1 })

/-- A line in state BODY (Table 7-4). In a resampled stream a line ahead of B_next may be the first ahead of the open frame's last row, which is then its last record (R214). DEDUCED (log 21). -/
def cutBody (s : State) (st : Nat) (c : Cutter) (l : PLine) (nm : Bool) : State × Cutter :=
  match c.cur with
  | none => (s, c)
  | some f =>
    let x := l.rec_.x
    if !pastFrame c.cfg f x then
      let r := cutStore s st c f l true nm 0
      (r.1, cutSettle { c with cur := some r.2 })
    else
      let start := nextStart 4 s c.old c.cfg f.bnext x
      if c.cfg.seam = 0 then
        let a := if c.cfg.rsmp then cutStore s st c f l false nm 0 else (s, f)
        let s := cutClose a.1 st a.2 0 0
        if c.final then (s, cutDone c) else
        let o := cutOpen s st c start
        let r := cutStore o.1 st c o.2 l true nm 0
        (r.1, { c with cur := some r.2 })
      else
        let o := cutOpen s st c start
        let a := cutStore o.1 st c f l false nm (seamLen c.cfg (some f) 1 x)
        let b := cutStore a.1 st c o.2 l true nm 0
        let c := { c with prev := some a.2, cur := some b.2, t := 1, st := 2 }
        if tailReached c.cfg a.2 1 x then tailEnd b.1 st c 1 x else (b.1, cutSettle c)

/-- A line in state TAIL (Table 7-4). DEDUCED (log 21). -/
def cutTail (s : State) (st : Nat) (c : Cutter) (l : PLine) (nm : Bool) : State × Cutter :=
  match c.cur, c.prev with
  | some f, some p =>
    let x := l.rec_.x
    let t := c.t + 1
    if pastFrame c.cfg f x then
      let a := if c.cfg.rsmp && decide (lastRowY c.cfg p ≤ cutSign c.cfg * x) then cutStore s st c p l false nm (seamLen c.cfg (some p) t x) else (s, p)
      let r := tailEnd a.1 st { c with prev := some a.2 } c.t (c.px.getD x)
      if r.2.stopped then r else cutBody r.1 st r.2 l nm
    else
      let a := cutStore s st c p l false nm (seamLen c.cfg (some p) t x)
      let b := cutStore a.1 st c f l true nm 0
      let c := { c with prev := some a.2, cur := some b.2, t := t }
      if tailReached c.cfg a.2 t x then tailEnd b.1 st c t x else (b.1, cutSettle c)
  | _, _ => (s, c)

/-- A line in state NONE (Table 7-4); a new recipe's cutter discards lines until one is ahead of a boundary of its grid (R261). DEDUCED (log 21). -/
def cutNone (s : State) (st : Nat) (c : Cutter) (l : PLine) (nm : Bool) : State × Cutter :=
  if c.final then (s, cutDone c) else
  let m := gridIdx c.cfg l.rec_.x
  if c.isNew && c.cfg.mode != 0 && (match c.m with | none => true | some k => decide (m ≤ k)) then (s, { c with m := some m })
  else
    let c := { c with isNew := false, st := 1 }
    let o := cutOpen s st c (if c.cfg.mode = 0 then 0 else gridAt c.cfg m)
    let r := cutStore o.1 st c o.2 l true nm 0
    (r.1, { c with cur := some r.2 })

/-- Every frame in a cutter closes early: by a position step (R205), a stop or disable (R207, R45), or the end of the trail lines (R260, R264). `why` is 0, 1, 2. A later frame that holds only seam lines is discarded at a stop. -/
def cutEnd (s : State) (st : Nat) (c : Cutter) (why : Nat) : State × Cutter :=
  let n := seamLen c.cfg c.prev c.t (c.px.getD 0)
  let s := match c.prev with
    | some p => cutClose s st p n (if why = 0 then flPosStep else if why = 1 then flShort else 0)
    | none => s
  let s := match c.cur with
    | some f =>
      let f := if c.st = 2 then { f with head := n } else f
      if why = 1 && (c.st == 2 || (decide (0 < f.seamN) && decide (f.body ≤ f.seamN))) then
        (match f.id with | some id => discardFrame s st id | none => s)
      else cutClose s st f 0 (if why = 0 then flPosStep else flShort)
    | none => s
  (s, { c with prev := none, cur := none, t := 0, st := 0 })

/-- A line reaches a cutter: the tests of R205 first, then Table 7-4. Marks found before a position step lie in no frame after it. DEDUCED (log 21). -/
def cutLine (s : State) (st : Nat) (old : Bool) (l : PLine) (count : Bool) : State :=
  match cutOf s st old with
  | none => s
  | some c =>
    if c.stopped then s else
    let d : Option Int := if c.cfg.mode = 0 then none else c.px.map (fun p => cutSign c.cfg * (l.rec_.x - p))
    let step := match d with | some v => decide ((c.cfg.stepMax : Int) < v.natAbs) | none => false
    let nm := match d with | some v => !step && decide (v < 0) | none => false
    let r0 : State × Cutter :=
      if step then
        let s := onlyIf count (fun s => wr (addSat s (FRM_CNT_STEP_COUNT st) 1) (FRM_STR_STATUS_STEP st) 1) s
        let r := cutEnd s st c 0
        let r := (setFrm r.1 st { frm r.1 st with marks := (frm r.1 st).marks.filter (fun k => k.setNo != c.setNo) }, r.2)
        if c.final then (r.1, cutDone r.2) else (r.1, { r.2 with last := none })
      else (onlyIf nm (fun s => wr s (FRM_STR_STATUS_NONMONO st) 1) s, c)
    let r := if r0.2.stopped then r0
      else if r0.2.st = 0 then cutNone r0.1 st r0.2 l nm
      else if r0.2.st = 2 then cutTail r0.1 st r0.2 l nm
      else cutBody r0.1 st r0.2 l nm
    setCut r.1 st old { r.2 with px := some l.rec_.x, last := some l }

/-- Whether a line is a position step for a cutter (R205); a cutter that has stopped still tells it for its compass contexts, from the stream's latest line. -/
def isStep (s : State) (st : Nat) (old : Bool) (x : Int) : Bool :=
  match cutOf s st old with
  | some c => c.cfg.mode != 0 && (match (if c.stopped then (frm s st).lastX else c.px) with | some p => decide ((c.cfg.stepMax : Int) < (x - p).natAbs) | none => false)
  | none => false

/-! Marks (R236). -/

/-- Accepted marks that a stream keeps. -/
abbrev markKeep : Nat := 65536

/-- A mark is noted for the frames still to come, and attributed to every frame of the stream and set whose span contains it and whose cut settings name the unit (R236). DEDUCED (log 21). -/
def markFrames (s : State) (st : Nat) (k : MarkS) : State :=
  let x := frm s st
  setFrm s st { x with marks := (x.marks ++ [k]).drop (x.marks.length + 1 - markKeep)
                       frames := x.frames.map (fun f =>
    if f.setNo = k.setNo && f.cfg.compass == k.unit && f.mark.isNone && frameSpans f k.pos k.pm then { f with mark := some k.err } else f) }

/-- The 8 most significant bits of each stored pixel of a line, as the compass uses them (R223). -/
def msbs (l : PLine) : List Nat :=
  let b := fmtBits l.fmt
  if b = 24 then (List.range l.width).map (fun i => (l.data.getD (3 * i + 1) 0).toNat)
  else (unpackLine b l.packed l.width l.data).map (fun v => v / 2 ^ (b - 8))

/-- A line reaches the compass contexts of one set (R223, R225, R233, R238, R240). -/
def feedUnits (s : State) (st : Nat) (old : Bool) (l : PLine) : State :=
  let all := unitsAll s st old
  let s := onlyIf (isStep s st old l.rec_.x) (each all (fun s u => toSearch s u old true)) s
  let bad := bitOf l.rec_.flags 4 || bitOf l.rec_.flags 5
  let setNo := if old then s.chg.count - 1 else s.chg.count
  let s := each (unitsOn s st old) (fun s u =>
    let r := mlkLine s u old l.rec_.x (msbs l) bad
    match r.2 with
    | some (m, e) => markFrames r.1 st ⟨setNo, u, m, e, l.rec_.pm⟩
    | none => r.1) s
  if old then s else each all (fun s u => graceCheck s u l.rec_.x (frm s st).xh) s

/-- A line reaches the compass contexts of one set, then that set's cutter (R228). -/
def feed (s : State) (st : Nat) (old : Bool) (l : PLine) (count : Bool) : State := cutLine (feedUnits s st old l) st old l count

/-! Lines (R195, R196, R198, R199). -/

/-- The stored bytes of a line as received (R181, R198), or the fill of a missing one (R199). DEDUCED (log 21). -/
def storedLine (s : State) (old : Bool) (st : Nat) (c : SetCfg) (l : LineS) : List Byte :=
  if l.missing then
    if c.packed then List.replicate (storedLen c) 0
    else if fmtBytes c.fmt = 2 then (List.replicate c.width (leBytes 2 c.fill)).flatten
    else List.replicate (storedLen c) (BitVec.ofNat 8 c.fill)
  else if rdSet s old (CAM_STR_FMT_WIRE_P st) = 1 && !c.packed then
    packLine 16 (unpackLine (fmtBits c.fmt) true c.width l.data)
  else padTo (storedLen c) l.data

/-- The record of a line with a sample (R25, R193, R196). -/
def recOf (c : SetCfg) (y : TagSample) (missing : Bool) : LineRec :=
  let sg : Int := if c.sampler = 2 then -1 else 1
  let xofs : Int := if y.speedValid then sg * truncDiv (y.spd * c.xdly) 62500000 else 0
  { pos := y.pos, ts := y.ts, spd := y.spd, xofs := xofs, tseq := y.seq, frac := y.frac, x := y.pos + xofs, at_ := y.at_, step := y.stepMark, pm := y.posMark
    flags := b2n y.speedValid + 2 * b2n y.predicted + 4 * b2n y.late + 8 * b2n y.untrusted + 16 * b2n missing + 64 * b2n y.domValid }

/-- The record of a line without a sample (R195): extrapolated from the two previous lines; what the rule gives no value is free. None where there is no previous line. DEDUCED (log 18). -/
def recNoSample (s : State) (prev : List LineRec) (missing : Bool) : Option LineRec :=
  let fl := 32 + 16 * b2n missing
  match prev with
  | [] => none
  | [a] => some { a with flags := fl, x := a.pos, xofs := 0 }
  | a :: b :: _ =>
    let v := freeNat s
    let pos := 2 * a.pos - b.pos
    some { pos := pos, ts := 2 * a.ts - b.ts, spd := toSigned 32 v, xofs := 0, tseq := v / 2 ^ 32 % 2 ^ 16, frac := v / 2 ^ 48 % 256, flags := fl, x := pos
           at_ := a.at_, step := a.step, pm := a.pm }

/-- The settings a line is stored under: those of its set's cutter. -/
def lineCfg (s : State) (st : Nat) (old : Bool) : SetCfg :=
  match cutOf s st old with | some c => c.cfg | none => setCfgOf s old st

/-- Whether the old cutter of a stream has stopped. -/
def oldStopped (s : State) (st : Nat) : Bool := match (frm s st).oldCut with | some c => c.stopped | none => true

/-- The old cutter closes what it holds and stops (R260, R264). -/
def oldCutStop (s : State) (st why : Nat) : State :=
  match (frm s st).oldCut with
  | some c => if c.stopped then s else
      let r := cutEnd s st c why
      setCut r.1 st true (cutDone r.2)
  | none => s

/-- The image that a stream is receiving closes with SHORT. -/
def imageCut (s : State) (st : Nat) : State :=
  match (frm s st).image with
  | some id => closeFrame (setFrm s st { frm s st with image := none }) st id flShort
  | none => s

/-- A conjunction ends by its limit: the open image of an area stream's old recipe closes as its old cutter's frame would (R264). DEDUCED (log 21). -/
def oldImageStop (s : State) (st : Nat) : State :=
  match (frm s st).image.bind (frameOf s st) with
  | some f => if f.setNo != s.chg.count then imageCut s st else s
  | none => s

/-- A line that R33 assigns to the old set reaches its contexts and cutter and, the lead lines copied, the new one's (R259 to R261). Before that a line that no slot holds, its cutter having
stopped, waits in the camp for the copy. DEDUCED (log 21). -/
def routeOld (s : State) (st : Nat) (cj : ConjS) (l : PLine) : State :=
  let s := setFrm s st { frm s st with conj := some { cj with xh := some l.rec_.x }, xh := some l.rec_.x }
  let s := feed s st true l true
  if !cj.lead then s
  else if cj.copied then feed s st false l false
  else if oldStopped s st && !(frm s st).slots.any (fun p => p.2.recs.any (fun r => decide (r = l.rec_))) then setFrm s st { frm s st with conj := some { cj with xh := some l.rec_.x, wait := cj.wait ++ [l] } }
  else s

/-- Route a line between the recipes of a conjunction (R259 to R261), or to the one cutter. The compass contexts of both see the lines of the conjunction, however long their cutters run (R240). -/
def routeLine (s : State) (st : Nat) (old : Bool) (l : PLine) : State :=
  match (frm s st).conj with
  | none => if old then s else feed s st false l true
  | some cj =>
    if old then routeOld s st cj l
    else
      let sg := cutSign (lineCfg s st true)
      let inTrail := match cj.xh with
        | some h => decide (sg * (l.rec_.x - h) < 256 * (s.chg.trail : Int))
        | none => false
      let s := onlyIf inTrail (fun s => feedUnits s st true l) s
      let s := if oldStopped s st then s else if inTrail then cutLine s st true l false else oldCutStop s st 2
      if cj.lead && !cj.copied then
        (match (frm s st).conj with
         | some cj => setFrm s st { frm s st with conj := some { cj with wait := cj.wait ++ [l] } }
         | none => s)
      else feed s st false l true

/-! Area images (R208). -/

/-- One line of an area image: the first opens the frame, the last closes it, and so does the first that no longer fits (R206), but while every line so far is missing: an image whose lines are all missing is not
stored, whatever its length (R208). DEDUCED (log 21). -/
def areaLine (s : State) (st : Nat) (l : LineS) : State :=
  let x := frm s st
  let s :=
    if l.first then
      let old := match l.sample with | some _ => sampleOld s l.sample | none => x.lastOld
      let c := setCfgOf s old st
      let r : Option LineRec := match l.sample with
        | some y => some (recOf c y l.missing)
        | none => recNoSample s x.prev l.missing
      let s := onlyIf (l.sample.isNone) freeNext s
      match r with
      | none => s
      | some r =>
        let s := match x.image with | some id => closeFrame s st id flShort | none => s
        let o := openFrame s st c (if old then s.chg.count - 1 else s.chg.count) old 0 0 true
        let s := setFrame o.1 st o.2 (fun f => { f with recs := [r] })
        let s := match (frameOf s st o.2).bind (·.slot) with
          | some k =>
            let y := frm s st
            setFrm (hbmWrite s (slotAddr s st k + 0x80) (recBytes r)) st { y with slots := y.slots.map (fun p => if p.1 = k then (p.1, { p.2 with recs := [r] }) else p) }
          | none => s
        setFrm s st { frm s st with image := some o.2, prev := (r :: x.prev).take 2, lastX := some r.x, lastOld := old }
    else s
  match (frm s st).image with
  | none => s
  | some id =>
    match frameOf s st id with
    | none => setFrm s st { frm s st with image := none }
    | some f =>
      let c := f.cfg
      let i := f.rows
      let s := match f.slot with
        | some k => if i < slotLines s st c && i < c.maxLines then
            hbmWrite s (slotAddr s st k + payloadOfs c + i * strideOf c) (padTo (strideOf c) (storedLine s (f.setNo != s.chg.count) st c l)) else s
        | none => s
      let full := decide (min (slotLines s st c) c.maxLines ≤ i)
      let s := setFrame s st id (fun f => if full then f else { f with rows := f.rows + 1, missRows := f.missRows + b2n l.missing })
      let s := onlyIf (!full) (fun s => spillLine s st id i) s
      let lost := l.missing && f.missRows == f.rows
      if l.last || (full && !lost) then
        let s := setFrm s st { frm s st with image := none }
        if lost then
          let s := match f.slot with | some k => releaseSlot s st k | none => s
          let s := addWrap (addWrap s (FRM_STR_SEQ_SEQ st) 1) (FRM_CNT_FRAMES_COUNT st) 1
          later (removeFrame s st id) (.handOver st)
        else if full then wr (closeFrame s st id flTrunc) (FRM_STR_STATUS_TRUNC st) 1
        else closeFrame s st id 0
      else s

/-! Stopping (R44, R46, R207) and starting. -/

/-- Whether every cutter of a stream has stopped. -/
def cutsStopped (s : State) (st : Nat) : Bool :=
  (match (frm s st).cut with | some c => c.stopped | none => true) && oldStopped s st

/-- A finishing stream whose cutters have closed their last frame triggers no further (R44, R571). -/
def checkStream (s : State) (st : Nat) : State :=
  if (frm s st).finishing && !streamStopped s st && cutsStopped s st then
    later { s with modeCtl := { s.modeCtl with streamsStopped := mput false s.modeCtl.streamsStopped st true } } .stakesCheck
  else s

/-- A cutter opens no more frames (R44, R45): in TAIL the later frame, which holds only seam lines, is discarded; its boundary still ends the tail. -/
def cutFinish (s : State) (st : Nat) (old : Bool) : State :=
  match cutOf s st old with
  | none => s
  | some c =>
    if c.stopped then s
    else if c.st = 0 then setCut s st old (cutDone { c with final := true })
    else if c.st = 2 then
      let s := match c.cur.bind (·.id) with | some id => discardFrame s st id | none => s
      setCut s st old (cutSettle { c with final := true, cur := c.cur.map (fun f => { f with id := none }) })
    else setCut s st old (cutSettle { c with final := true })

/-- The current frame of a stream that stops is known once every line sampled by then has been cut, the lead lines of a conjunction among them: then its cutters open no more frames (R44). -/
def streamJudge (s : State) (st : Nat) : State :=
  match (frm s st).judgeAt with
  | none => s
  | some t =>
    let waits := fun (y : TagSample) => decide (y.at_ ≤ t)
    let copying := match (frm s st).conj with | some cj => cj.lead && !cj.copied | none => false
    if lineMode s st && (copying || (strS s st).samples.any waits || (strS s st).lines.any (fun l => (l.sample.map waits).getD false)) then s
    else checkStream (cutFinish (cutFinish (setFrm s st { frm s st with judgeAt := none }) st true) st false) st

/-- A stream stops at its frame boundary, on entry to DRAIN or HOLD or when its assembly leaves ENABLED (R44, R207). DEDUCED (log 21). -/
def streamFinish (s : State) (st : Nat) : State :=
  streamJudge (setFrm s st { frm s st with finishing := true, judgeAt := some s.now }) st

/-- A stream's cutters close at once what they hold: at HOLD_LIMIT, or at the end of QUIESCING (R46, R207). DEDUCED (log 14). -/
def streamCutShort (s : State) (st : Nat) : State :=
  let stop := fun (old : Bool) (s : State) =>
    match cutOf s st old with
    | some c => if c.stopped then s else
        let r := cutEnd s st c 1
        setCut r.1 st old (cutDone r.2)
    | none => s
  let s := stop false (stop true (setFrm s st { frm s st with judgeAt := none }))
  checkStream (imageCut s st) st

/-- HOLD_LIMIT expires before a stream's frame boundary (R46): in DRAIN, HOLD, or while its assembly quiesces. DEDUCED (log 14). -/
def holdLimit (st : Nat) (s : State) : State :=
  if (frm s st).finishing && (!cutsStopped s st || (frm s st).image.isSome) then streamCutShort s st else s

/-- A stream starts afresh: its assembly is enabled, or an acquisition mode is entered from ARMED. -/
def streamStart (s : State) (st : Nat) : State :=
  let s := imageCut s st
  let s := { s with modeCtl := { s.modeCtl with streamsStopped := mput false s.modeCtl.streamsStopped st false } }
  let s := setStr s st { strS s st with samples := [], lines := [], rx := [], nextSeq := (strS s st).seq }
  let c : Cutter := { cfg := setCfgOf s false st, setNo := s.chg.count }
  let x := frm s st
  let s := setFrm s st { x with finishing := false, judgeAt := none, prev := [], lastX := none, lastXofs := none, oldCut := none, conj := none, image := none, freedX := none, marks := []
                                stepSeen := (List.range 4).foldl (fun m d => mput 0 m d (domS s d).stepMark) [] }
  showFree (setCut s st false c) st

/-! LINE_ASSEMBLE. -/

/-- The cutter takes the next line of a stream (R195, R196, R203, R208, R218). -/
def lineAssemble (st : Nat) (s : State) : State :=
  match (strS s st).lines with
  | [] => s
  | l :: ls =>
    let s := setStr s st { strS s st with lines := ls }
    if !(enState s (frmEn st) == 2 || enState s (frmEn st) == 3) then s
    else if !rdB s (CAM_STR_BIND_LINE st) then later (showLag (freeSlots (areaLine s st l) st) st) (.lagCheck st)
    else
      let x := frm s st
      let old := (match l.sample with | some _ => sampleOld s l.sample | none => x.lastOld) && x.conj.isSome
      let stale := (match l.sample with | some _ => sampleOld s l.sample | none => false) && x.conj.isNone
      let c := lineCfg s st old
      let r : Option LineRec := match l.sample with
        | some y => some (recOf c y l.missing)
        | none => recNoSample s x.prev l.missing
      let s := onlyIf l.sample.isNone freeNext s
      match r with
      | none => s
      | some r =>
        if stale then s else
        let p : PLine := { rec_ := r, data := storedLine s old st c l, fmt := c.fmt, packed := c.packed, width := c.width }
        let s := routeLine s st old p
        let s := setFrm s st { frm s st with prev := (r :: x.prev).take 2, lastX := some r.x, lastOld := old }
        let s := checkStream (streamJudge (freeSlots s st) st) st
        later (showLag s st) (.lagCheck st)

/-- Whether the frame at whose end a stream stops lies wholly behind the samples given: with their lines cut, its cutters would have stopped (R44). DEDUCED (log 14). -/
def frameSampled (s : State) (st : Nat) : Bool :=
  let x := strS s st
  let l := x.lines ++ x.samples.map (fun y => { sample := some y, missing := true })
  cutsStopped (l.foldl (fun s _ => lineAssemble st s) (streamJudge (setStr s st { x with rx := [], samples := [], lines := l }) st)) st

/-- A stream that stops at its frame's end triggers nothing more once the last line of that frame, tail seam and all, has been triggered (R44, R571). -/
def triggerEnd (st : Nat) (s : State) : State :=
  if (frm s st).finishing && !streamStopped s st && lineMode s st && frameSampled s st then
    later { s with modeCtl := { s.modeCtl with streamsStopped := mput false s.modeCtl.streamsStopped st true } } .stakesCheck
  else s

/-! The conjunction (R259 to R264). -/

/-- Lead lines still held in slots, in the order of their sampling (R259, R262): each line once, read from where it is stored. DEDUCED (log 21). -/
def leadLines (s : State) (st : Nat) (xh lead sg : Int) (h : Nat) : List PLine :=
  let all := (frm s st).slots.flatMap (fun p => p.2.recs.zipIdx.filterMap (fun q =>
    if decide (q.1.at_ / 2 ≤ h) && decide (sg * xh - lead ≤ sg * q.1.x) && p.2.cfg.line then
      some ({ rec_ := q.1, data := hbmRead s (slotAddr s st p.1 + linesOfs p.2.cfg + q.2 * strideOf p.2.cfg) (storedLen p.2.cfg), fmt := p.2.cfg.fmt, packed := p.2.cfg.packed, width := p.2.cfg.width } : PLine)
    else none))
  let add := fun (acc : List PLine) (l : PLine) => if acc.any (fun a => decide (a.rec_ = l.rec_)) then acc else acc ++ [l]
  (all.foldl add []).mergeSort (fun a b => decide (a.rec_.at_ ≤ b.rec_.at_))

/-- The copy of a stream's lead lines completes (R261): the new set's compass contexts and cutter receive them, then the lines that waited. A run that an inherited context copied lies in those lines, and begins again with them. -/
def leadCopyComplete (st : Nat) (s : State) : State :=
  match (frm s st).conj with
  | none => s
  | some cj =>
    if !cj.lead || cj.copied then s else
    let hAt := s.chg.hAt
    let s := setFrm s st { frm s st with conj := some { cj with copied := true, wait := [] } }
    let s := match cj.xh, hAt with
      | some xh, some h =>
        let sg := cutSign (lineCfg s st true)
        let lead := 256 * (s.chg.lead : Int)
        let short := match (frm s st).freedX with | some v => decide (sg * xh - lead ≤ sg * v) | none => false
        let s := onlyIf short (fun s => wr s CHG_STATUS_LEAD_SHORT 1) s
        let w := cj.wait.filter (fun l => decide (l.rec_.at_ / 2 ≤ h) && decide (sg * xh - lead ≤ sg * l.rec_.x))
        let l := leadLines s st xh lead sg h ++ w
        let s := onlyIf (!l.isEmpty) (each ((unitsAll s st false).filter (fun u => (mlk s u).cur.inherited)) (fun s u => setRun s u false none)) s
        each l (fun s l => feed s st false l false) s
      | _, _ => s
    let s := each (cj.wait.filter (fun l => match hAt with | some h => decide (h < l.rec_.at_ / 2) | none => true)) (fun s l => feed s st false l true) s
    later (checkStream (streamJudge (freeSlots s st) st) st) (.judge st)



/-- Marks of the old set that a context which inherits it takes over (R236, R240). -/
def marksInherit (s : State) (x : FrmS) : List MarkS :=
  (x.marks.filter (fun k => k.setNo + 1 == s.chg.count && (mlk s k.unit).cur.inherited)).map (fun k => { k with setNo := s.chg.count })

/-- At the hand-over cycle in an acquisition mode: each enabled stream's cutter becomes the old one and a new one starts (R259 to R263). -/
def framesHandover (s : State) : State :=
  each (below 64 (fun st => enState s (frmEn st) == 2 || enState s (frmEn st) == 3)) (fun s st =>
    let x := frm s st
    let cfg := setCfgOf s false st
    let same := rd s (CAM_STR_FMT_FORMAT st) == rdOld s (CAM_STR_FMT_FORMAT st) && rd s (CAM_STR_FMT_WIRE_P st) == rdOld s (CAM_STR_FMT_WIRE_P st)
      && rd s (CAM_STR_FMT_UNPACK st) == rdOld s (CAM_STR_FMT_UNPACK st) && rd s (CAM_STR_GEOM_WIDTH st) == rdOld s (CAM_STR_GEOM_WIDTH st)
      && rd s (CAM_STR_GEOM_HEIGHT st) == rdOld s (CAM_STR_GEOM_HEIGHT st)
    let y := strS s st
    let lead := same && cfg.line && x.cut.isSome && (x.lastX.isSome || !y.samples.isEmpty || !y.lines.isEmpty)
    let s := setFrm s st { x with oldCut := x.cut.map (fun c => { c with old := true }), conj := some { xh := x.lastX, lead := lead, copied := !lead }, xh := x.lastX
                                  marks := x.marks ++ marksInherit s x }
    let s := match (frm s st).oldCut with
      | some c => if c.stopped then s else setCut s st true (if c.st = 0 then cutDone { c with final := true } else cutSettle { c with final := true })
      | none => s
    let c : Cutter := { cfg := cfg, setNo := s.chg.count, isNew := true, final := x.finishing && x.judgeAt.isNone }
    setCut s st false (if c.final then cutDone c else c)) s

/-- Streams of a commit in IDLE or ARMED take the new set at once (R51). -/
def framesRefresh (s : State) : State :=
  each (below 64 (fun st => enState s (frmEn st) == 2 || enState s (frmEn st) == 3)) streamStart s

/-- Whether the conjunction can end (R264): every old cutter has stopped, every copy is complete, no area image of the old recipe is outstanding. -/
def conjDone (s : State) : Bool :=
  (List.range 64).all (fun st =>
    let x := frm s st
    match x.conj with
    | none => true
    | some cj => oldStopped s st && (cj.copied || !cj.lead) &&
        (rdB s (CAM_STR_BIND_LINE st) || (!((strS s st).samples.any (fun y => sampleOld s (some y))) &&
          !((strS s st).lines.any (fun l => sampleOld s l.sample)) && (x.image.isNone || !x.lastOld))))

/-- The conjunctions of all streams end. -/
def framesConjEnd (s : State) : State :=
  each (List.range 64) (fun s st =>
    if (frm s st).conj.isSome then freeSlots (setFrm s st { frm s st with conj := none, oldCut := none }) st else s) s

/-! The frame tag (Table 7-3). -/

/-- The shape of a frame stored as captured. -/
def plainShape (f : Frame) : Shape :=
  { lines := if f.area then f.rows else f.recs.length, width := f.cfg.width, pfnc := fmtCode f.cfg.fmt f.cfg.packed, stride := strideOf f.cfg }

/-- The tag of a frame (R215 to R217), its CRC included; `ell` is ELLIPSIS_BEFORE. -/
def tagBytes (s : State) (st : Nat) (f : Frame) (sh : Shape) (slot : Nat) (ell : Bool) : List Byte :=
  let c := f.cfg
  let a := f.recs.head?.getD {}
  let z := f.recs.getLast?.getD {}
  let miss := missingOf f
  let fl := f.flags + b2n sh.resampled + 2 ^ 5 * b2n ell + 2 ^ 12 * b2n (miss != 0) + 2 ^ 17 * b2n f.mark.isSome
    + 2 ^ 18 * b2n (c.sampler == 2) + 2 ^ 19 * b2n f.area
  let bound : Int := if f.area || c.mode = 0 then 0 else f.start
  let b := leBytes 2 1 ++ leBytes 1 st ++ leBytes 1 c.dom ++ leBytes 2 c.job ++ leBytes 2 c.ver ++
    leBytes 8 (f.seq.getD 0 % 2 ^ 48 + 2 ^ 48 * (c.rcp % 64)) ++ leBytes 8 (ofSigned 64 a.pos) ++ leBytes 8 (ofSigned 64 z.pos) ++
    leBytes 8 a.ts ++ leBytes 8 z.ts ++ leBytes 1 a.frac ++ leBytes 1 z.frac ++ leBytes 2 f.head ++ leBytes 2 f.tail ++
    leBytes 2 (min 65535 miss) ++ leBytes 4 (ofSigned 32 (satSigned 32 (f.mark.getD 0))) ++ leBytes 2 sh.width ++ leBytes 2 (min 65535 sh.holes) ++
    leBytes 4 sh.lines ++ leBytes 4 sh.pfnc ++ leBytes 8 (sh.lines * sh.stride) ++ leBytes 4 f.cand ++ leBytes 4 fl ++ leBytes 4 f.recs.length ++
    leBytes 4 (if sh.resampled then c.num + 2 ^ 24 * c.den else 0) ++ leBytes 8 (slotAddr s st slot + payloadOfs c) ++
    leBytes 8 (ofSigned 64 sh.row0) ++ leBytes 8 (ofSigned 64 bound) ++ leBytes 4 sh.stride
  b ++ leBytes 4 (crc32c b)

end Sys2Proof.Machine
end

