-- ==== Sys2Proof/Machine/Pixel.lean ====
section
/-! DEFINITION. The camps (10_pixel_engines.md): the check of a chain (Tables 10-6 and 10-8), the run of a chain over a frame, drops in the camp,
rates, engine faults and substitution, the self-test. -/

namespace Sys2Proof.Machine

def pxe (s : State) (st : Nat) : PxeS := mget {} s.pxe st
def setPxe (s : State) (st : Nat) (x : PxeS) : State := { s with pxe := mput {} s.pxe st x }
def campEn (c : Nat) : Nat := 0xE0000 + 0x100 * c

/-! What the check of a chain looks at. -/

/-- A stream's chain and what its budget depends on, in one set of the shadowed registers. -/
structure CV where
  st : Nat
  camp : Nat
  mask : Nat
  rate : Nat
  frate : Nat
  packed : Bool
  rsmpEn : Bool
  line : Bool
  base : Nat
  fm : Fm
  deriving DecidableEq, Repr

/-- A stream's view in the set that `g` reads. -/
def viewOf (s : State) (g : FRef → Nat) (st : Nat) : CV :=
  { st := st, camp := g (FRM_STR_BIND_CAMP st), mask := g (PXE_CHAIN_GROUP_ENG_MASK st), rate := g (PXE_STR_RATE_RATE st), frate := g (PXE_STR_FRATE_RATE st)
    packed := g (CAM_STR_FMT_WIRE_P st) == 1 && g (CAM_STR_FMT_UNPACK st) == 0, rsmpEn := g (FRM_STR_CUT_RSMP_EN st) == 1
    line := rdB s (CAM_STR_BIND_LINE st), base := g (PXE_CHAIN_BASE_BASE st) * 64
    fm := fmOf (g (CAM_STR_FMT_FORMAT st)) (g (CAM_STR_GEOM_WIDTH st)) (orOne (g (FRM_STR_MAXLINES_MAXLINES st))) }

def cvEntries (s : State) (v : CV) : List KEntry := chainEntries s v.base

/-! Structure and parameters (R275, R276, Table 10-8 codes 6 to 10). -/

/-- Whether a parameter block's header or a field breaks R276 or Table 10-9. -/
def paramBad (s : State) (e : KEntry) (f : Fm) (line : Bool) : Bool :=
  let p := fun (o n : Nat) => par s e o n
  decide (4096 < e.len) || e.addr % 64 != 0 || p 0 1 != e.kid || p 1 1 != e.kver || p 4 4 != e.len ||
  (match e.kid with
    | 1 | 2 => decide (1 < p 0x18 1) || (p 0x18 1 == 1 && line)
    | 3 => p 0x18 2 == 0 || decide (4096 < p 0x18 2)
    | 4 => !(p 0x10 1 == 0 || p 0x10 1 == 2 || p 0x10 1 == 4) || p 0x11 1 != 0
    | 5 => decide (1 < p 0x10 1)
    | 6 => !(p 0x10 1 == 1 || p 0x10 1 == 2 || p 0x10 1 == 4) || !(p 0x11 1 == 1 || p 0x11 1 == 2 || p 0x11 1 == 4)
    | 7 => p 0x10 1 == 0 || decide (16 < p 0x10 1)
    | 8 => e.len != 16
    | 9 => e.len != 0x48 || p 0x30 1 == 0 || decide (1 < p 0x32 1) || decide (1 < p 0x33 1)
    | 10 => decide (1 < p 0x11 1) || p 0x14 2 == 0
    | 11 | 12 => decide (2 < p 0x10 1) || decide (f.comps ≤ p 0x10 1)
    | _ => false)

/-- The first code 6 to 9 that an entry of a chain gives, with its index; (0, 0) for none. -/
def chainWalk (s : State) (v : CV) (outs : List (Option Fm)) (es : List KEntry) : Nat × Nat :=
  (es.zipIdx.findSome? (fun p =>
    let e := p.1
    let k := p.2
    let twice := fun (kid : Nat) => e.kid == kid && (es.take k).any (fun x => x.kid == kid)
    if e.kid = 0 || decide (12 < e.kid) || rd s (PXE_LIB_KVER_KVER e.kid) == 0 || decide (rd s (PXE_LIB_KVER_KVER e.kid) < e.kver) then some (6, k)
    else if twice kBlob || twice kResample then some (7, k)
    else match fmIn v.fm outs k e with
      | none => some (7, k)
      | some f =>
        if !inputFits e.kid f || (e.input == 0xFF && v.packed) then some (8, k)
        else if paramBad s e f v.line then some (9, k)
        else none)).getD (0, 0)

/-! Engines. -/

/-- The engine of camp `c` that stands for its engine `k`: itself, its substitute, or none while it is FAILED without one (R289). -/
def engineFor (s : State) (c k : Nat) : Option Nat :=
  if rd s (PXE_ENG_STATUS_STATE (16 * c + k)) = 2 then
    (List.range 16).find? (fun j => rd s (PXE_ENG_STATUS_STATE (16 * c + j)) == 3 && rd s (PXE_ENG_STATUS_FOR (16 * c + j)) == k)
  else some k

/-- The engines of a mask, rising. -/
def engines (mask : Nat) : List Nat := below 16 (bitOf mask)

/-- Whether a mask names a FAILED engine that has no substitute. -/
def groupLost (s : State) (c mask : Nat) : Bool := (engines mask).any (fun k => (engineFor s c k).isNone)

/-- The code a chain gives before its budget: 6 to 12 of Table 10-8, with the entry's index. DEDUCED (log 22). -/
def chainCode (s : State) (v : CV) : Nat × Nat :=
  let es := cvEntries s v
  let outs := fmOuts s v.fm es
  let w := chainWalk s v outs es
  let nk := chainNK s v.base
  if decide (16 < nk) then (7, 0)
  else if w.1 != 0 then w
  else if es.any (fun e => e.kid == kResample) != v.rsmpEn then (10, ((es.zipIdx.find? (fun p => p.1.kid == kResample)).map (·.2)).getD 0)
  else if nk != 0 && (v.mask == 0 || groupLost s v.camp v.mask) then (11, 0)
  else if !enabled s (campEn v.camp) then (12, 0)
  else (0, 0)

/-! The budget (R271, R278, Table 10-6). -/

/-- The strip of engine `k` of a mask: first column, end column, processed width (R271). -/
def stripOf (v : CV) (halo : Bool) (k : Nat) : Nat × Nat × Nat :=
  let g := max 1 (engines v.mask).length
  let w := roundUp 32 ((v.fm.w + g - 1) / g)
  let i := countIf (fun j => decide (j < k)) (engines v.mask)
  let lo := min v.fm.w (i * w)
  let hi := min v.fm.w ((i + 1) * w)
  let edges := b2n (decide (0 < lo)) + b2n (decide (hi < v.fm.w))
  (lo, hi, if lo = hi then 0 else w + (if halo then 32 * edges else 0))

/-- Whether a chain's strips have a halo (R271). -/
def hasHalo (es : List KEntry) : Bool := es.any (fun e => e.kid == kDpc || e.kid == kDebayer || e.kid == kBin)

/-- A kernel's cost in 1/1000 engine cycle per pixel for an input format (Table 10-7). -/
def costOf (s : State) (e : KEntry) (f : Fm) : Nat :=
  let two := fun (a b : Nat) => if f.bits ≤ 8 then a else b
  let c := match e.kid with
    | 1 => two 31 63 | 2 => two 63 125 | 3 => two 16 31 | 4 => two 500 750 | 5 => 375 | 6 => two 31 63 | 7 => two 16 31 | 8 => two 63 125
    | 9 => if par s e 0x32 1 = 1 then two 1000 1125 else two 125 188
    | 10 => 250 | 11 => 125 | 12 => two 94 188 | _ => 0
  if f.comps = 3 && e.kid != kDebayer && e.kid != kColour then 3 * c else c

/-- Columns of the strip lo..hi that ROI's rectangles copy, counted once for each rectangle. -/
def roiPixels (s : State) (e : KEntry) (lo hi : Nat) : Nat :=
  (List.range (min 16 (par s e 0x10 1))).foldl (fun a i =>
    let c0 := par s e (0x18 + 16 * i) 2
    let c1 := c0 + par s e (0x1A + 16 * i) 2
    a + (min hi c1 - max lo c0)) 0

/-- DPC defects listed in columns lo..hi. -/
def defectsIn (s : State) (e : KEntry) (lo hi : Nat) : Nat :=
  let a := par s e 0x10 8
  countIf (fun i => let c := hbmNat s (a + 4 * i) 2; decide (lo ≤ c) && decide (c < hi)) (List.range (par s e 0x18 2))

/-- The cycles per second, in 1/1000, that a chain asks of engine `k` of its camp (Table 10-6). -/
def engineLoad (s : State) (v : CV) (k : Nat) : Nat :=
  if !bitOf v.mask k then 0 else
  let es := cvEntries s v
  let outs := fmOuts s v.fm es
  let st := stripOf v (hasHalo es) k
  let perLine := es.zipIdx.foldl (fun a p =>
    let f := (fmIn v.fm outs p.2 p.1).getD v.fm
    a + costOf s p.1 f * (if p.1.kid = kRoi then roiPixels s p.1 st.1 st.2.1 else st.2.2) +
      (if p.1.kid = kDpc then 16000 * defectsIn s p.1 st.1 st.2.1 else 0)) (48000 * es.length)
  let merge := es.foldl (fun a e => a + (if e.kid = kBlob then 2000 + 40 * par s e 0x14 2 else if e.kid = kHist || e.kid = kStats then 2000 else 0)) 0
  v.rate * perLine + (if (engines v.mask).head? = some k then 1000 * v.frate * merge else 0)

/-- HBM bytes per line that a chain's kernels and products read and write. -/
def portBytes (s : State) (v : CV) : Nat :=
  let es := cvEntries s v
  let outs := fmOuts s v.fm es
  es.zipIdx.foldl (fun a p =>
    let e := p.1
    let f := (fmIn v.fm outs p.2 e).getD v.fm
    let table := match e.kid with
      | 1 | 2 => if par s e 0x18 1 = 1 then 2 * f.w else 0
      | 8 => fmLine f
      | 9 => f.w * f.comps + (if par s e 0x18 8 = 0 then 0 else f.w)
      | 7 => roiPixels s e 0 f.w * (fmLine f / max 1 f.w)
      | _ => 0
    let stored := if e.store then (match (outs[p.2]?).getD none with
      | some o => fmLine o / (if e.kid = kBin then max 1 (par s e 0x11 1) else 1)
      | none => 0) else 0
    a + table + stored) 0

/-- Local memory that a chain takes on engine `k` of its camp (Table 10-7). -/
def localBytes (s : State) (v : CV) (k : Nat) : Nat :=
  if !bitOf v.mask k then 0 else
  let es := cvEntries s v
  let outs := fmOuts s v.fm es
  let st := stripOf v (hasHalo es) k
  let pw := st.2.2
  let bpp := fun (f : Fm) => f.comps * (if f.bits ≤ 8 then 1 else 2)
  let widest := (outs.filterMap id).foldl (fun a f => max a (bpp f)) (bpp v.fm)
  es.zipIdx.foldl (fun a p =>
    let e := p.1
    let f := (fmIn v.fm outs p.2 e).getD v.fm
    a + (match e.kid with
      | 1 | 2 => if par s e 0x18 1 = 0 then 2 * pw else 0
      | 3 => 4 * defectsIn s e st.1 st.2.1
      | 4 => 3 * pw * bpp f
      | 6 => 4 * f.comps * (pw / max 1 (par s e 0x10 1))
      | 8 => 2 * pw * bpp f
      | 9 => (if par s e 0x32 1 = 1 then 3 else 1) * (1 + f.comps) * pw
      | 10 => 4 * pw + 8192
      | 11 => 1024
      | 12 => 8 * pw
      | _ => 0)) (2 * pw * widest)

/-- KIND of an entry's product (Table 10-4): 0 none, 1 images, 2 candidates, 3 histogram, 4 column statistics. -/
def productKind (e : KEntry) : Nat :=
  if e.kid = kRoi then 1 else if e.kid = kBlob then 2 else if e.kid = kHist then 3 else if e.kid = kStats then 4
  else if e.store && producesImage e.kid then 1 else 0

/-- The largest size of an entry's product (Table 10-5), for its input and output formats. -/
def productMax (s : State) (e : KEntry) (f : Fm) (o : Option Fm) : Nat :=
  match e.kid with
  | 7 => (List.range (min 16 (par s e 0x10 1))).foldl (fun a i =>
      let w := min (par s e (0x1A + 16 * i) 2) (f.w - par s e (0x18 + 16 * i) 2)
      a + 64 + min (par s e (0x20 + 16 * i) 4) (f.rows - par s e (0x1C + 16 * i) 4) * roundUp 64 (fmLine { f with w := w })) 0
  | 10 => 32 + 32 * par s e 0x14 2
  | 11 => 32 + 1024
  | 12 => 32 + 8 * (if par s e 0x14 2 = 0 then f.w else min f.w (par s e 0x14 2))
  | _ => match o with | some g => 64 + g.rows * roundUp 64 (fmLine g) | none => 0

/-- Where each product begins from `start` on, and where the chain area ends (Table 10-3): (entry index, offset), end. -/
def productLayout (s : State) (fm : Fm) (es : List KEntry) (start : Nat) : List (Nat × Nat) × Nat :=
  let outs := fmOuts s fm es
  es.zipIdx.foldl (fun a p =>
    if productKind p.1 = 0 then a
    else (a.1 ++ [(p.2, a.2)], roundUp 4096 (a.2 + productMax s p.1 ((fmIn fm outs p.2 p.1).getD fm) ((outs[p.2]?).getD none)))) ([], roundUp 4096 start)

/-- The slot's end that a chain needs, as an offset in the slot (Table 10-6, Slot). -/
def slotEnd (s : State) (v : CV) : Nat :=
  let p := roundUp 4096 (0x80 + 32 * v.fm.rows)
  let stored := if v.packed then roundUp 64 (v.fm.w * v.fm.bits / 8) else roundUp 64 (fmLine v.fm)
  let q := roundUp 4096 (p + v.fm.rows * (if v.rsmpEn then rowStride s v.base v.fm else stored))
  (productLayout s v.fm (cvEntries s v) (q + 0x1000 + (if v.rsmpEn then v.fm.rows * stored else 0))).2

/-- The cycle limit of an engine of a camp (Table 10-6, R543): 0.9 of its clock. -/
def cycleLimit (s : State) (c : Nat) : Nat :=
  match mget 0 s.derate c with
  | 0 => 1350000000 | 1 => 1260000000 | _ => 1170000000

/-- The first test of Table 10-6 that stream `v` fails among the chains `all` of the device; 0 for none. DEDUCED (log 22). -/
def budgetCode (s : State) (all : List CV) (v : CV) : Nat :=
  let mine := all.filter (fun x => x.camp == v.camp)
  let sum := fun (f : CV → Nat) => mine.foldl (fun a x => a + f x) 0
  if (engines v.mask).any (fun k => decide (1000 * cycleLimit s v.camp < sum (fun x => engineLoad s x k))) then 1
  else if decide (22500000000 < sum (fun x => x.rate * portBytes s x)) then 2
  else if decide (1835008 < sum (fun x => 8 * (if x.packed then roundUp 64 (x.fm.w * x.fm.bits / 8) else roundUp 64 (fmLine x.fm)))) then 3
  else if (engines v.mask).any (fun k => decide (114688 < sum (fun x => localBytes s x k))) then 4
  else if decide (slotBytes s v.st < slotEnd s v) then 5
  else 0

/-- The code of stream `v` among `all`: structure first, then the budget. -/
def checkChain (s : State) (all : List CV) (v : CV) : Nat × Nat :=
  let c := chainCode s v
  if c.1 != 0 then c else (budgetCode s all v, 0)

/-- Streams whose assembly is not DISABLED. -/
def liveStreams (s : State) : List Nat := below 64 (fun st => enState s (frmEn st) != 0)

/-- Record a failing test in PXE_CHK (R279): `set` 0 ACTIVE, 1 store or stage, 2 conjunction. -/
def chkWord (v : CV) (code kidx set : Nat) : Nat := code + 2 ^ 4 * v.st + 2 ^ 10 * v.camp + 2 ^ 14 * kidx + 2 ^ 18 * set
def setChk (s : State) (w : Nat) : State := setReg s 0x110008 (BitVec.ofNat 64 (w % 2 ^ 20))

/-- Check the ACTIVE chain of a stream, as when its set becomes ACTIVE (R279). -/
def chainRefresh (s : State) (st : Nat) : State :=
  let all := (if (liveStreams s).contains st then liveStreams s else liveStreams s ++ [st]).map (viewOf s (rd s))
  let v := viewOf s (rd s) st
  let c := checkChain s all v
  let s := wr (wr s (PXE_STR_STATUS_CHAIN_ERR st) c.1) (PXE_STR_STATUS_ERR_KIDX st) c.2
  let s := wrB s (PXE_STR_STATUS_NO_ENGINE st) (c.1 == 11 && groupLost s v.camp v.mask)
  if c.1 = 0 then setPxe s st { pxe s st with sub := false } else setChk s (chkWord v c.1 c.2 0)

/-- Check every stream of the ACTIVE set (R279, R543). -/
def chainsActive (s : State) : State := each (liveStreams s) chainRefresh s

/-- The commit's test (R248, R279): the chains of the ACTIVE set and of the store added. Answers the PXE_CHK word of the first failure. -/
def commitBudget (s : State) : Option Nat :=
  let ss := liveStreams s
  let all := ss.map (viewOf s (rd s)) ++ ss.map (viewOf s (rdShadow s))
  all.findSome? (fun v =>
    let c := budgetCode s all v
    if c = 0 then none else some (chkWord v c 0 2))

/-! Dropping frames in the camp. -/

/-- The lowest engine of a stream's ACTIVE group, whose source reports for the stream (10_pixel_engines.md, Registers). -/
def streamEngine (s : State) (st : Nat) : Nat :=
  16 * rd s (FRM_STR_BIND_CAMP st) + ((engines (rd s (PXE_CHAIN_GROUP_ENG_MASK st))).head?.getD 0)

/-- Drop a closed frame in the camp (R287): it keeps its number, its slot is released, the drop is counted, recorded and raised. -/
def dropClosed (s : State) (st : Nat) (f : Frame) (cause : Nat) : State :=
  let s := wr (addSat s (PXE_CNT_DROP_COUNT st) 1) (PXE_STR_STATUS_DROP st) 1
  let s := record s rpData 0x0F svError 0x4003 (leBytes 1 st ++ leBytes 1 cause ++ leBytes 6 (f.seq.getD 0))
  let s := raise s (16 * f.cfg.camp + ((engines f.cfg.group).head?.getD 0) |> srcEngine)
  let s := removeFrame s st f.id
  let s := match f.slot with | some k => releaseSlot s st k | none => s
  later (showLag s st) (.handOver st)

/-- Drop a frame in the camp: at once when it has closed, at its close while it is open. -/
def campDrop (s : State) (st id cause : Nat) : State :=
  match frameOf s st id with
  | none => s
  | some f =>
    if f.seq.isSome then dropClosed s st f cause
    else showLag (setFrame s st id (fun f => { f with abandoned := some (f.abandoned.getD cause) })) st

/-- A frame has closed (R279, R290): dropped when its stream's chain or camp cannot run; a camp that is not ENABLED shows in CHAIN_ERR. -/
def frameClosed (s : State) (st id : Nat) : State :=
  match frameOf s st id with
  | none => s
  | some f =>
    if !enabled s (campEn f.cfg.camp) then
      let s := onlyIf (rd s (FRM_STR_BIND_CAMP st) == f.cfg.camp) (fun s => wr (wr s (PXE_STR_STATUS_CHAIN_ERR st) 12) (PXE_STR_STATUS_ERR_KIDX st) 0) s
      campDrop s st id 3
    else if rd s (PXE_STR_STATUS_CHAIN_ERR st) != 0 then campDrop s st id 3 else s

/-- Frames that the camp still has to process, oldest first. -/
def inCamp (s : State) (st : Nat) : List Frame := (frm s st).frames.filter (fun f => !f.complete && f.abandoned.isNone && f.slot.isSome)

/-- Abandon the oldest frames that the camp is processing while the lag exceeds LAGMAX (R287). The first argument bounds their number. -/
def lagAbandon : Nat → State → Nat → State
  | 0, s, _ => s
  | n + 1, s, st =>
    if orOne (rd s (PXE_STR_LAGMAX_LAGMAX st)) < lagOf s st then
      match (inCamp s st).find? (chained s) with
      | none => s
      | some f => lagAbandon n (campDrop s st f.id 0) st
    else s

/-! Running a chain over a frame. -/

/-- The settings of a frame as a chain sees them. -/
def frameFm (c : SetCfg) : Fm := fmOf c.fmt c.width c.maxLines

/-- The captured lines of a frame as an image. -/
def frameImg (s : State) (st : Nat) (f : Frame) : Img :=
  let c := f.cfg
  let fm := frameFm c
  let a := (f.slot.map (slotAddr s st)).getD 0 + linesOfs c
  let n := if f.area then f.rows else f.recs.length
  { width := fm.w, comps := fm.comps, bits := fm.bits, bayer := fm.bayer, code := fm.code
    rows := (List.range n).map (fun i =>
      ((f.recs[if f.area then 0 else i]?.map (·.x)).getD 0, unpackLine fm.bits c.packed (fm.w * fm.comps) (hbmRead s (a + i * strideOf c) (storedLen c)))) }

/-- The lines that resampling excludes (R213): missing, without a sample, or not strictly ahead of the last included one. -/
def excludedLines (sg : Int) (recs : List LineRec) : List Bool :=
  (recs.foldl (fun (a : List Bool × Option Int) r =>
    let ahead := match a.2 with | some x => decide (x < sg * r.x) | none => true
    if bitOf r.flags 4 || bitOf r.flags 5 || !ahead then (a.1 ++ [true], a.2) else (a.1 ++ [false], some (sg * r.x))) ([], none)).1

/-- The grid rows of a resampled frame (R212): the first, and the rows it reaches, at most MAXLINES (R206). A frame closed early has the rows its lines reach. -/
def gridRows (f : Frame) : Int × List Int :=
  let c := f.cfg
  let sg : Int := if c.neg then -1 else 1
  let r0 := firstRow (sg * c.origin) c.num c.den (sg * f.start)
  let rl := firstRow (sg * c.origin) c.num c.den (sg * f.bnext) + c.seam
  let reach := f.recs.foldl (fun (a : Option Int) r => match a with | some v => some (max v (sg * r.x)) | none => some (sg * r.x)) none
  (r0, ((List.range (min c.maxLines (rl - r0).toNat)).map (fun (i : Nat) => r0 + (i : Int))).filter (fun r =>
    match reach with | some v => decide (gridRow (sg * c.origin) c.num c.den r ≤ v) | none => false))

/-- TAIL_OVL of a frame: of a resampled one, its rows beyond its body (R212). -/
def rsmpTail (f : Frame) : Nat :=
  let c := f.cfg
  if c.rsmp then (gridRows f).2.length - (firstRow (cutSign c * c.origin) c.num c.den (cutSign c * f.bnext) - (gridRows f).1).toNat else f.tail

/-- RESAMPLE (R212, R213): the rows, and how many were filled. DEDUCED (log 22). -/
def runResample (f : Frame) (ex : List Bool) (im : Img) : Img × Nat :=
  let c := f.cfg
  let sg : Int := if c.neg then -1 else 1
  let lines := ((im.rows.zip ex).filter (fun p => !p.2)).map (fun p => (sg * p.1.1, p.1.2))
  let rs := (gridRows f).2.map (fun r =>
    let y := gridRow (sg * c.origin) c.num c.den r
    match resampleRow c.gapMax c.num c.den y lines with
    | some vs => ((sg * y, vs), false)
    | none => ((sg * y, List.replicate (im.width * im.comps) (if im.bits ≤ 8 then c.fill % 256 else c.fill)), true))
  ({ im with rows := rs.map (·.1) }, countIf (·.2) rs)

/-- The reference row of input row `i` at `x` (R283). -/
def compareRow (s : State) (f : Frame) (e : KEntry) (i : Nat) (x : Int) : Int :=
  let c := f.cfg
  let ofs := parI s e 0x38 8
  if f.area || c.mode = 0 then (i : Int) + toSigned 32 (par s e 0x38 4)
  else
    let mref := parI s e 0x40 8
    let nominal := f.start + ofs + mref
    let a := match f.reg with
      | some (p, r) =>
        if par s e 0x33 1 = 1 then
          let rr := max 1 r
          p + floorDiv (2 * (nominal - p) + rr) (2 * rr) * r - mref
        else f.start + ofs
      | none => f.start + ofs
    let d := if c.neg then a - x else x - a
    refRow d (par s e 0x2C 3) (par s e 0x30 1)

/-- The image an entry gives out: how many columns and rows of its source each of its own stands for, and the rows of that source. -/
structure ChainOut where
  img : Img
  cols : Nat
  rows : Nat
  of_ : Nat
  deriving DecidableEq, Repr

/-- What a chain has produced so far: outputs by entry, products (entry, kind, images, bytes), candidates,
unreferenced lines, filled rows. -/
structure ChainRun where
  outs : List (Option ChainOut) := []
  prods : List (Nat × Nat × Nat × List Byte) := []
  cand : Nat := 0
  unref : Nat := 0
  holes : Nat := 0
  deriving DecidableEq, Repr

/-- The bytes of an image product (Table 10-5). -/
def imageBytes (im : Img) (c0 r0 : Nat) : List Byte :=
  let stride := roundUp 64 (im.width * im.comps * (if im.bits ≤ 8 then 1 else 2))
  leBytes 4 im.width ++ leBytes 4 im.rows.length ++ leBytes 4 stride ++ leBytes 4 im.code ++ leBytes 4 c0 ++ leBytes 4 r0 ++ List.replicate 40 0 ++
    im.rows.flatMap (fun r => padTo stride (packLine im.bits r.2))

/-- The header of a list product (Table 10-5). -/
def listHeader (count dropped seq st k : Nat) : List Byte :=
  leBytes 4 count ++ leBytes 4 dropped ++ leBytes 8 seq ++ leBytes 1 st ++ leBytes 1 k ++ List.replicate 14 0

/-- ROI (Table 10-9): its images. -/
def runRoi (s : State) (e : KEntry) (im : Img) : List Byte :=
  (List.range (min 16 (par s e 0x10 1))).flatMap (fun i =>
    let o := 0x18 + 16 * i
    let c0 := par s e o 2
    let w := min (par s e (o + 2) 2) (im.width - c0)
    let r0 := par s e (o + 4) 4
    let n := if w = 0 then 0 else min (par s e (o + 8) 4) (im.rows.length - r0)
    imageBytes { im with width := w, rows := ((im.rows.drop r0).take n).map (fun r => (r.1, (r.2.drop (c0 * im.comps)).take (w * im.comps))) } c0 r0)

/-- One entry of a chain on a whole frame (Table 10-9). -/
def runEntry (s : State) (st : Nat) (f : Frame) (src : Img) (ex : List Bool) (a : ChainRun) (k : Nat) (e : KEntry) : ChainRun :=
  let inp : Option ChainOut := if e.input = 0xFF then some ⟨src, 1, 1, src.rows.length⟩ else (a.outs[e.input]?).getD none
  match inp with
  | none => { a with outs := a.outs ++ [none] }
  | some o =>
    let im := o.img
    let seq := f.seq.getD 0
    let strip := roundUp 32 ((f.cfg.width + max 1 (engines f.cfg.group).length - 1) / max 1 (engines f.cfg.group).length)
    let img := fun (i : Img) (o : ChainOut) =>
      { a with outs := a.outs ++ [some { o with img := i }], prods := if e.store then a.prods ++ [(k, 1, 1, imageBytes i 0 0)] else a.prods }
    match e.kid with
    | 1 => img (runDark s e im) o
    | 2 => img (runFlat s e im) o
    | 3 => img (runDpc s e im) o
    | 4 => img (runDebayer s e im) o
    | 5 => img (runColour s e im) o
    | 6 => img (runBin s e im) { o with cols := o.cols * max 1 (par s e 0x10 1), rows := o.rows * max 1 (par s e 0x11 1) }
    | 7 => { a with outs := a.outs ++ [none], prods := a.prods ++ [(k, 1, min 16 (par s e 0x10 1), runRoi s e im)] }
    | 8 =>
      if f.cfg.rsmp then
        let r := runResample f ex im
        { img r.1 { o with of_ := r.1.rows.length } with holes := r.2 }
      else img im o
    | 9 =>
      let r := runCompare s e im (compareRow s f e)
      { img r.1 o with unref := a.unref + r.2 }
    | 10 =>
      let thr := par s e 0x10 1
      let all := blobsOf thr (strip / o.cols) (par s e 0x11 1 == 1) im
      let big := all.filter (fun b => !b.dropped && decide (par s e 0x12 2 ≤ b.area))
      let n := min big.length (par s e 0x14 2)
      let lost := big.length - n + countIf (fun b => b.dropped) all
      let rows := im.rows.length
      let head := if o.of_ ≤ f.head then rows else f.head / o.rows
      let recs := (big.take n).flatMap (fun b => candRecord b rows head ((o.of_ - f.tail + o.rows - 1) / o.rows))
      { a with outs := a.outs ++ [none], cand := n, prods := a.prods ++ [(k, 2, 0, listHeader n lost seq st k ++ recs)] }
    | 11 =>
      let h := histOf im (par s e 0x10 1) (par s e 0x11 1) (par s e 0x12 2) (par s e 0x14 2)
      { a with outs := a.outs ++ [none], prods := a.prods ++ [(k, 3, 0, listHeader 256 0 seq st k ++ h.flatMap (leBytes 4))] }
    | 12 =>
      let t := statsOf im (par s e 0x10 1) (par s e 0x12 2) (par s e 0x14 2)
      { a with outs := a.outs ++ [none]
               prods := a.prods ++ [(k, 4, 0, listHeader t.length 0 seq st k ++ t.flatMap (fun x => leBytes 4 x.1 ++ leBytes 2 x.2.1 ++ leBytes 2 x.2.2))] }
    | _ => { a with outs := a.outs ++ [none] }

/-- A product directory entry (Table 10-4). -/
def dirEntry (k : Nat) (e : KEntry) (ofs : Nat) (p : Option (Nat × Nat × Nat × List Byte)) : List Byte :=
  match p with
  | some (_, kind, n, b) => leBytes 1 k ++ leBytes 1 e.kid ++ leBytes 1 kind ++ leBytes 1 n ++ leBytes 4 ofs ++ leBytes 4 b.length ++ leBytes 4 0
  | none => leBytes 1 k ++ leBytes 1 e.kid ++ leBytes 14 0

/-- The chain finishes a closed frame (R273 to R277): products, directory, resampled rows and EXCLUDED marks are written to its slot; CAND is kept for the tag. DEDUCED (log 22). -/
def runChain (s : State) (st : Nat) (f : Frame) (k : Nat) : State :=
  let c := f.cfg
  let a := slotAddr s st k
  let q := a + chainOfs c
  let es := if c.packed then [] else chainEntries s c.base
  if es.isEmpty then
    let s := hbmWrite s q (List.replicate 256 0)
    setFrame s st f.id (fun f => { f with complete := true, shape := some (plainShape f) })
  else
    let f := { f with tail := rsmpTail f }
    let src := frameImg s st f
    let ex := if c.rsmp then excludedLines (cutSign c) f.recs else []
    let r := es.zipIdx.foldl (fun (acc : ChainRun) p => runEntry s st f src ex acc p.2 p.1) {}
    let lay := productLayout s (frameFm c) es (chainOfs c + 0x1000 + (if c.rsmp then c.maxLines * strideOf c else 0))
    let dir := es.zipIdx.flatMap (fun p =>
      dirEntry p.2 p.1 (((lay.1.find? (fun o => o.1 == p.2)).map (·.2)).getD 0) (r.prods.find? (fun x => x.1 == p.2)))
    let s := hbmWrite s q (padTo 256 dir)
    let s := each r.prods (fun s x => hbmWrite s (a + ((lay.1.find? (fun o => o.1 == x.1)).map (·.2)).getD 0) x.2.2.2) s
    let row := es.zipIdx.findSome? (fun p => if p.1.kid = kResample then (r.outs[p.2]?).getD none else none)
    let s := match c.rsmp, row with
      | true, some ⟨im, _, _, _⟩ =>
        let stride := c.rowStride
        let s := each im.rows.zipIdx (fun s p => hbmWrite s (a + payloadOfs c + p.2 * stride) (padTo stride (packLine im.bits p.1.2))) s
        let recs := (f.recs.zip ex).map (fun p => if p.2 then { p.1 with flags := Nat.lor p.1.flags 128 } else p.1)
        let s := each recs.zipIdx (fun s p => hbmWrite s (a + 0x80 + 32 * p.2) (recBytes p.1)) s
        let sh : Shape := { lines := im.rows.length, width := im.width, pfnc := im.code, stride := stride, holes := r.holes
                            row0 := (im.rows.head?.map (·.1)).getD 0, resampled := true }
        setFrame s st f.id (fun g => { g with recs := recs, shape := some sh, tail := f.tail
                                              flags := if f.tail = 0 then g.flags - Nat.land g.flags flSeamTail else Nat.lor g.flags flSeamTail })
      | _, _ => setFrame s st f.id (fun f => { f with shape := some (plainShape f) })
    let s := setFrame s st f.id (fun f => { f with complete := true, cand := r.cand })
    addSat (addWrap s (PXE_CNT_CAND_COUNT st) r.cand) (PXE_CNT_UNREF_COUNT st) r.unref

/-- Whether an engine runs (Table 10-14): a frame that the camp is processing has it in its group, or has what it stands in for. -/
def engineRuns (s : State) (e : Nat) : Bool :=
  (List.range 64).any (fun st => (inCamp s st).any (fun f =>
    f.cfg.camp == e / 16 && chained s f && f.done != 0 && ((engines f.cfg.group).filterMap (engineFor s f.cfg.camp)).contains (e % 16)))

/-- A stream's frame that is next in order for delivery (R273). -/
def nextDue (s : State) (st : Nat) : Option Frame :=
  ((frm s st).frames.filter (fun f => f.seq.isSome)).foldl (fun (a : Option Frame) f =>
    match a with | none => some f | some g => if f.seq.getD 0 < g.seq.getD 0 then some f else some g) none

/-- Whether a camp waits for its FIFO to delivery (R321): a frame it has finished, and whose turn it is, found no room there. -/
def campWaits (s : State) (c : Nat) : Bool :=
  (List.range 64).any (fun st => match nextDue s st with | some f => f.complete && f.slot.isSome && f.cfg.camp == c | none => false)

/-- Whether a chain can finish a frame: it has closed, every line is processed, and the camp does not wait (R321). -/
def chainReady (s : State) (f : Frame) : Bool :=
  f.seq.isSome && enabled s (campEn f.cfg.camp) && !campWaits s f.cfg.camp && (chainNK s f.cfg.base == 0 || decide (frameLines f ≤ f.done))

/-- The chain has finished a frame's last line and the frame has closed (R272, R273): merges, products, directory, CAND; then the frames that are due are handed to delivery. DEDUCED (log 22). -/
def frameChainComplete (st : Nat) (s : State) : State :=
  match (inCamp s st).find? (chainReady s) with
  | none => s
  | some f =>
    match f.slot with
    | some k =>
      let s := addWrap (runChain s st f k) (PXE_CNT_FRAMES_COUNT st) 1
      later (showLag s st) (.handOver st)
    | none => s

/-! CHAIN_LINE_PROCESS and engine faults. -/

/-- Groups of every set that may still run in camp `c` (R289): ACTIVE, store, and in a conjunction the old set. -/
def namedEngines (s : State) (c : Nat) : List Nat :=
  let of := fun (g : FRef → Nat) => (List.range 64).flatMap (fun st => if g (FRM_STR_BIND_CAMP st) = c then engines (g (PXE_CHAIN_GROUP_ENG_MASK st)) else [])
  of (rd s) ++ of (rdShadow s) ++ (if (List.range 64).any (fun st => (frm s st).conj.isSome) then of (rdOld s) else [])

/-- At a frame boundary of a stream with a lost engine, substitutes are sought (R289 steps 4 to 6); the streams that one of them serves resume. A stream without a chain needs none (R274). DEDUCED (log 22). -/
def substitute (s : State) (st : Nat) : State :=
  if !(pxe s st).sub then s else
  let c := rd s (FRM_STR_BIND_CAMP st)
  let mask := rd s (PXE_CHAIN_GROUP_ENG_MASK st)
  let s := setPxe s st { pxe s st with sub := false }
  if chainNK s (rd s (PXE_CHAIN_BASE_BASE st) * 64) = 0 then s else
  let s := each ((engines mask).filter (fun k => (engineFor s c k).isNone)) (fun s k =>
    let named := namedEngines s c
    match (engines (rd s (PXE_CAMP_SPARE_SPARE c))).find? (fun j => rd s (PXE_ENG_STATUS_STATE (16 * c + j)) != 2 && rd s (PXE_ENG_STATUS_STATE (16 * c + j)) != 3 && !named.contains j) with
    | some j =>
      let s := wr (wr s (PXE_ENG_STATUS_STATE (16 * c + j)) 3) (PXE_ENG_STATUS_FOR (16 * c + j)) k
      wr s (PXE_CAMP_FAILED_STANDIN c) (Nat.lor (rd s (PXE_CAMP_FAILED_STANDIN c)) (2 ^ j))
    | none => s) s
  let s := each ((liveStreams s).filter (fun t => rd s (FRM_STR_BIND_CAMP t) == c && rd s (PXE_STR_STATUS_CHAIN_ERR t) == 11 &&
    !groupLost s c (rd s (PXE_CHAIN_GROUP_ENG_MASK t)))) chainRefresh s
  if groupLost s c mask then
    let s := wr (wr (wr s (PXE_STR_STATUS_NO_ENGINE st) 1) (PXE_STR_STATUS_CHAIN_ERR st) 11) (PXE_STR_STATUS_ERR_KIDX st) 0
    setChk s (chkWord (viewOf s (rd s) st) 11 0 0)
  else s

/-- An engine FAULTs (R289): it is FAILED, recorded and raised; the frames with a chain in process on its groups are dropped; its streams seek a substitute at their next boundary. -/
def engineFault (s : State) (e cause : Nat) : State :=
  let c := e / 16
  let j := e % 16
  if rd s (PXE_ENG_STATUS_STATE e) = 2 then s else
  let k := if rd s (PXE_ENG_STATUS_STATE e) = 3 then rd s (PXE_ENG_STATUS_FOR e) else j
  let s := wr (wr (wr (wr s (PXE_ENG_STATUS_STATE e) 2) (PXE_ENG_STATUS_FOR e) 0) (PXE_ENG_STATUS_FAULT e) 1) (PXE_ENG_STATUS_CAUSE e) cause
  let s := wr s (PXE_CAMP_FAILED_FAILED c) (Nat.lor (rd s (PXE_CAMP_FAILED_FAILED c)) (2 ^ j))
  let s := wr s (PXE_CAMP_FAILED_STANDIN c) (rd s (PXE_CAMP_FAILED_STANDIN c) - Nat.land (rd s (PXE_CAMP_FAILED_STANDIN c)) (2 ^ j))
  let s := raise (record s rpData 0x0F svFault 0x4004 (leBytes 1 e ++ leBytes 1 cause)) (srcEngine e)
  let hit := fun (s : State) (f : Frame) => f.cfg.camp == c && chained s f && (bitOf f.cfg.group k || bitOf f.cfg.group j)
  each (List.range 64) (fun s st =>
    let fs := (inCamp s st).filter (hit s)
    let s := each fs (fun s f => campDrop s st f.id 2) s
    let mask := rd s (PXE_CHAIN_GROUP_ENG_MASK st)
    if rd s (FRM_STR_BIND_CAMP st) = c && chainNK s (rd s (PXE_CHAIN_BASE_BASE st) * 64) != 0 && (bitOf mask k || bitOf mask j) then setPxe s st { pxe s st with sub := true } else s) s

/-- Whether two lines are one captured line: the same sample. -/
def sameLine (a b : LineRec) : Bool := a.at_ == b.at_ && a.tseq == b.tseq && a.pos == b.pos

/-- A chain runs on the next line of the stream's frames (R270 to R272, R287, R288), while its camp is ENABLED (R290) and does not wait for delivery (R321). DEDUCED (log 22). -/
def chainLineProcess (st : Nat) (x : ChainEcc) (s : State) : State :=
  match (inCamp s st).find? (fun f => chained s f && decide (f.done < frameLines f)) with
  | none => s
  | some f =>
    let c := f.cfg.camp
    if !enabled s (campEn c) || campWaits s c then s else
    let s := setFrame s st f.id (fun f => { f with done := f.done + 1 })
    let s := setPxe s st { pxe s st with lines := (pxe s st).lines + 1 }
    let s := each ((engines f.cfg.group).filterMap (engineFor s c)) (fun s k => addWrap s (PXE_ENG_CNT_LINES_COUNT (16 * c + k)) 1) s
    let s := match x with
      | .none => s
      | .corrected lineBuffer => eccCorrected s (if lineBuffer then 2 else 1) c
      | .localMem e addr => engineFault (eccUncorrectable s 1 c addr.toNat) (16 * c + e.val) 1
      | .lineBuffer addr =>
        let s := eccUncorrectable s 2 c addr.toNat
        match f.recs[f.done]?, f.area with
        | _, true => campDrop s st f.id 1
        | none, _ => s
        | some r, _ => each ((inCamp s st).filter (fun g => g.recs.any (sameLine r))) (fun s g => campDrop s st g.id 1) s
      | .hbm addr => campDrop (eccUncorrectable s 0 c addr.toNat) st f.id 1
    later (showLag s st) (.lagCheck st)

/-- A watchdog expires on an engine (R288). -/
def engineWatchdog (e : Nat) (s : State) : State :=
  if enState s (campEn (e / 16)) == 2 || enState s (campEn (e / 16)) == 3 then engineFault s e 2 else s

/-- A 100 ms window of the rate measurement ends (R286). -/
def rateWindowEnd (st : Nat) (s : State) : State :=
  let x := pxe s st
  let r := min (2 ^ 24 - 1) (x.lines * 10)
  let s := wr s (PXE_STR_RATE_MEAS_RATE st) r
  if rd s (PXE_STR_RATE_RATE st) < r then
    let s := wr (setPxe s st { x with lines := 0, rateOver := true }) (PXE_STR_STATUS_RATE_OVER st) 1
    let s := onlyIf (!x.rateOver) (fun s => record s rpData 0x0F svWarning 0x4002 (leBytes 1 st ++ leBytes 4 r ++ leBytes 4 (rd s (PXE_STR_RATE_RATE st)))) s
    raise s (srcEngine (streamEngine s st))
  else setPxe s st { x with lines := 0, rateOver := false }

/-! The camp's enable (R290). -/

/-- Streams whose ACTIVE set names a camp. -/
def campStreams (s : State) (c : Nat) : List Nat := (liveStreams s).filter (fun st => rd s (FRM_STR_BIND_CAMP st) == c)

/-- The self-test of a camp completes (R290): failed engines stay FAILED with CAUSE 3, the others are IDLE, substitutions they caused end, the camp is ENABLED. -/
def campSelfTest (c : Nat) (failed : Nat) (s : State) : State :=
  if enState s (campEn c) != 1 then s else
  let s := each (List.range 16) (fun s k =>
    let e := 16 * c + k
    let s := wr s (PXE_ENG_STATUS_FOR e) 0
    if bitOf failed k then wr (wr s (PXE_ENG_STATUS_STATE e) 2) (PXE_ENG_STATUS_CAUSE e) 3
    else wr (wr s (PXE_ENG_STATUS_STATE e) 0) (PXE_ENG_STATUS_CAUSE e) 0) s
  let s := wr (wr s (PXE_CAMP_FAILED_FAILED c) failed) (PXE_CAMP_FAILED_STANDIN c) 0
  let s := setReg s (campEn c) (putField (getReg s (campEn c)) 1 2 2)
  each (campStreams s c) chainRefresh s

/-- A camp has left ENABLED and finished its line (R290): frames still in the chain are dropped, its streams read CHAIN_ERR = CAMP. -/
def campStopped (s : State) (c : Nat) : State :=
  let s := each (campStreams s c) chainRefresh s
  each (List.range 64) (fun s st => each ((inCamp s st).filter (fun f => f.cfg.camp == c)) (fun s f => campDrop s st f.id 3) s) s

end Sys2Proof.Machine
end

