-- ==== Sys2Proof/Machine/Delivery.lean ====
section
/-! DEFINITION. Delivery (11_delivery_queues.md): queues and their contexts in HBM behind the context cache, admission, entries, overwrite queues, flush, notification,
watermarks, faults. -/

namespace Sys2Proof.Machine

def grpEn (g : Nat) : Nat := 0x124000 + 0x40 * g

/-! Contexts (R292 to R295, R320, Table 11-1). -/

/-- The place of a queue's context: the base unit and the queue ID (R293). -/
def qKey (s : State) (q : Nat) : Nat := rd s DLV_QCTX_BASE_BASE * 2 ^ 20 + q

/-- The HBM address of the context with a place: DLV_QCTX_BASE + QID × 64. -/
def ctxAddr (key : Nat) : Nat := 64 * key

/-- The context that sixteen words spell. -/
def ctxOf (w : Nat → Nat) : QCtx :=
  { cqBase := w 0 + 2 ^ 32 * w 1, bqBase := w 2 + 2 ^ 32 * w 3, cfg := bitsOf (w 4) 22 0, state := bitsOf (w 5) 1 0, enPending := bitOf (w 5) 2, en := bitOf (w 5) 3
    armed := bitOf (w 5) 4, fault := bitOf (w 5) 5, ellPend := bitOf (w 5) 6, fluPend := bitOf (w 5) 7, pi := bitsOf (w 6) 23 0, ci := bitsOf (w 7) 23 0
    bpi := bitsOf (w 8) 23 0, bci := bitsOf (w 9) 23 0, item := w 10, drops := w 11, dfirst := w 12, dreason := bitsOf (w 13) 7 0, lost := w 14, dropTotal := w 15 }

/-- The sixteen words of a context (Table 11-1). -/
def ctxWords (c : QCtx) : List Nat :=
  [c.cqBase % 2 ^ 32, c.cqBase / 2 ^ 32, c.bqBase % 2 ^ 32, c.bqBase / 2 ^ 32, c.cfg,
   c.state + 4 * b2n c.enPending + 8 * b2n c.en + 16 * b2n c.armed + 32 * b2n c.fault + 64 * b2n c.ellPend + 128 * b2n c.fluPend,
   c.pi, c.ci, c.bpi, c.bci, c.item, c.drops, c.dfirst, c.dreason, c.lost, c.dropTotal]

/-- The context that HBM holds. One whose STATE nothing has written since the last conventional reset, which leaves it undefined (R325), reads as DISABLED with nothing pending, so that software can write it. DESIGN CHOICE (log 3). -/
def ctxLoad (s : State) (key : Nat) : QCtx :=
  let c := ctxOf (fun i => hbmNat s (ctxAddr key + 4 * i) 4)
  if s.epoch = 0 || s.hbm.any (fun p => p.1 == ctxAddr key + 0x14) then c
  else { c with state := 0, enPending := false, en := false, armed := false, fault := false, ellPend := false, fluPend := false }

/-- Write a context back to HBM. -/
def ctxStore (s : State) (key : Nat) (c : QCtx) : State := hbmWrite s (ctxAddr key) ((ctxWords c).flatMap (leBytes 4))

/-- A set of the cache (R320). -/
def cacheSet (s : State) (key : Nat) : List CacheWay := mget [] s.dlv.cache (key % 2048)
def setCache (s : State) (key : Nat) (l : List CacheWay) : State := { s with dlv := { s.dlv with cache := mput [] s.dlv.cache (key % 2048) l } }

/-- The way that holds a context. -/
def cached (s : State) (key : Nat) : Option CacheWay := (cacheSet s key).find? (fun w => w.key == key)

/-- A context as it stands: in the cache, else in HBM. -/
def ctxAt (s : State) (key : Nat) : QCtx := match cached s key with | some w => w.ctx | none => ctxLoad s key

def QCtx.cqLog (c : QCtx) : Nat := bitsOf c.cfg 4 0
def QCtx.bqLog (c : QCtx) : Nat := bitsOf c.cfg 9 5
def QCtx.group (c : QCtx) : Nat := bitsOf c.cfg 17 10
def QCtx.noBuf (c : QCtx) : Bool := bitOf c.cfg 18
def QCtx.overwrite (c : QCtx) : Bool := bitOf c.cfg 19
def QCtx.notify (c : QCtx) : Bool := bitOf c.cfg 20
def QCtx.pin (c : QCtx) : Bool := bitOf c.cfg 21
def QCtx.roData (c : QCtx) : Bool := bitOf c.cfg 22

/-- A context access through the cache (R320): the way becomes the most recent; a miss is counted, reads the context from HBM and replaces the least recently used unpinned way, which goes back to HBM if it is
dirty. -/
def touchKey (s : State) (key : Nat) : State :=
  let l := cacheSet s key
  match l.find? (fun w => w.key == key) with
  | some w => setCache s key (w :: l.filter (fun x => x.key != key))
  | none =>
    let new : CacheWay := { key := key, ctx := ctxLoad s key }
    let s := addWrap s DLV_CNT_MISS_COUNT 1
    if l.length < 8 then setCache s key (new :: l)
    else
      match (l.reverse.find? (fun w => !w.ctx.pin)).or l.getLast? with
      | some v => onlyIf v.dirty (fun s => ctxStore s v.key v.ctx) (setCache s key (new :: l.filter (fun x => x.key != v.key)))
      | none => s

def touchCtx (s : State) (q : Nat) : State := touchKey s (qKey s q)

/-- Change a context in the cache. -/
def putCtx (s : State) (key : Nat) (c : QCtx) : State :=
  let s := touchKey s key
  setCache s key ((cacheSet s key).map (fun w => if w.key = key then { w with ctx := c, dirty := true } else w))

/-- Whether one more pinned context is a fifth in its set (R320). DEDUCED (log 26). -/
def pinFull (s : State) (q : Nat) : Bool :=
  decide (4 ≤ countIf (fun w => w.key != qKey s q && w.ctx.pin) (cacheSet s (qKey s q)))

/-! Queues. -/

/-- Whether an entry to be written is an item's. -/
def QEnt.isItem : QEnt → Bool
  | .item _ _ _ _ => true
  | _ => false

/-- The first number of what an entry to be written stands for. -/
def QEnt.first : QEnt → Nat
  | .item _ n _ _ => n
  | .gap _ f _ => f
  | .flushed _ f _ _ => f

/-- The oldest gap whose entry is not written (R308). -/
def oldestGap (x : QueueW) : Option (Nat × Nat × Nat) :=
  (x.ents.findSome? (fun e => match e with | .gap n f r => some (n, f, r) | _ => none)).or x.gap

/-- What a context shows of the entries its queue still has to write: ELL_PEND with the oldest gap, FLU_PEND (R307, R308, R312). An overwrite queue writes no ELLIPSIS (R310). DEDUCED (log 25). -/
def showPending (c : QCtx) (x : QueueW) : QCtx :=
  let flu := x.flu.isSome || x.ents.any (fun e => match e with | .flushed _ _ _ _ => true | _ => false)
  if c.overwrite then { c with fluPend := flu }
  else match oldestGap x with
    | some (n, f, r) => { c with ellPend := true, drops := n, dfirst := f, dreason := r, fluPend := flu }
    | none => { c with ellPend := false, drops := if c.ellPend then 0 else c.drops, fluPend := flu }

/-- A queue with its context. -/
def queueOf (s : State) (q : Nat) : Queue := { toQueueW := (mget none s.dlv.qs (qKey s q)).getD {}, ctx := ctxAt s (qKey s q) }

/-- Set a queue, its context in the cache. -/
def setQueue (s : State) (q : Nat) (x : Queue) : State :=
  putCtx { s with dlv := { s.dlv with qs := mput none s.dlv.qs (qKey s q) (some x.toQueueW) } } (qKey s q) (showPending x.ctx x.toQueueW)
def setCtx (s : State) (q : Nat) (f : QCtx → QCtx) : State := let x := queueOf s q; setQueue s q { x with ctx := f x.ctx }

/-- The queues that have been used at the present base, with their IDs. -/
def liveQueues (s : State) : List (Nat × Queue) :=
  s.dlv.qs.filterMap (fun p => if p.1 / 2 ^ 20 = rd s DLV_QCTX_BASE_BASE then p.2.map (fun x => (p.1 % 2 ^ 20, { toQueueW := x, ctx := ctxAt s p.1 })) else none)

/-- Ring size, and unconsumed entries (R295; an overwrite queue's CI is no older than PI less the ring, R311). -/
def QCtx.ring (c : QCtx) : Nat := 2 ^ c.cqLog
def Queue.used (x : Queue) : Nat := if x.ctx.overwrite then x.unread else (x.ctx.pi + 2 ^ 24 - x.ctx.ci) % 2 ^ 24

/-- Buffers posted and not taken, at most the ring's. -/
def QCtx.posted (c : QCtx) : Nat := min ((c.bpi + 2 ^ 24 - c.bci) % 2 ^ 24) (2 ^ c.bqLog)

/-- Whether a queue is active (R295). -/
def queueActive (s : State) (c : QCtx) : Bool := c.state == 2 && enabled s (grpEn c.group)

/-! Groups (R314 to R319). -/

/-- A cause of a group's interrupt (R317): raised now, or at the end of the running holdoff. -/
def groupCause (s : State) (g : Nat) : State :=
  match mget none s.dlv.hold g with
  | some _ => { s with dlv := { s.dlv with hold := mput none s.dlv.hold g (some true) } }
  | none =>
    let s := raise s (srcGroup g)
    if rdC s (DLV_GRP_CFG_HOLDOFF g) = 0 then s else { s with dlv := { s.dlv with hold := mput none s.dlv.hold g (some false) } }

/-- A group's holdoff ends (R317). DEDUCED (log 26). -/
def groupHoldoffEnd (g : Nat) (s : State) : State :=
  match mget none s.dlv.hold g with
  | none => s
  | some pend =>
    let s := { s with dlv := { s.dlv with hold := mput none s.dlv.hold g none } }
    if pend then groupCause s g else s

/-- Whether pin XOFFn is active (R319). -/
def xoffActive (s : State) (n : Nat) : Bool :=
  rdB s (DLV_XOFF_CFG_FORCE n) || (List.range 256).any (fun g =>
    (rdB s (DLV_GRP_STATUS_ABOVE g) && rdCB s (DLV_GRP_CFG_XOFF_EN g) && rdC s (DLV_GRP_CFG_XOFF_PIN g) == n) ||
    (rdB s (DLV_GRP_STATUS_FIFO_ABOVE g) && rdCB s (DLV_GRP_CFG_FIFO_XOFF_EN g) && rdC s (DLV_GRP_CFG_FIFO_PIN g) == n))

/-- Bring the XOFF pins up to date. -/
def xoffUpdate (s : State) : State := each (List.range 8) (fun s n => wrB s (DLV_XOFF_CFG_ACTIVE n) (xoffActive s n)) s

/-- LEVEL of a group (R318). -/
def groupLevel (s : State) (g : Nat) : Nat :=
  (liveQueues s).foldl (fun a p => if p.2.ctx.group = g && p.2.ctx.state = 2 then a + p.2.used + countIf QEnt.isItem p.2.ents else a) 0

/-- A watermark state: set at or above HI, clear at or below LO, else as it was (R318). -/
def watermark (old : Bool) (v hi lo : Nat) : Bool := if hi ≤ v then true else if v ≤ lo then false else old

/-- Bring a group's LEVEL, FIFO level and watermark states up to date; a state that sets is a cause of its interrupt (R317, R318). DEDUCED (log 25). -/
def updateGroup (s : State) (g : Nat) : State :=
  let lv := min (2 ^ 32 - 1) (groupLevel s g)
  let n := (mget ([] : List Nat) s.dlv.fifo g).length
  let a0 := rdB s (DLV_GRP_STATUS_ABOVE g)
  let f0 := rdB s (DLV_GRP_STATUS_FIFO_ABOVE g)
  let a := watermark a0 lv (rdC s (DLV_GRP_HI_HI g)) (rdC s (DLV_GRP_LO_LO g))
  let f := watermark f0 n (rdC s (DLV_GRP_FIFO_WMARK_HI g)) (rdC s (DLV_GRP_FIFO_WMARK_LO g))
  let s := wr (wr s (DLV_GRP_LEVEL_LEVEL g) lv) (DLV_GRP_FIFO_LEVEL_LEVEL g) n
  let s := wrB (wrB (wrB s (DLV_GRP_STATUS_ABOVE g) a) (DLV_GRP_STATUS_FIFO_ABOVE g) f) (DLV_GRP_STATUS_NOTIFY g) (n != 0)
  let s := onlyIf ((a && !a0) || (f && !f0)) (fun s => groupCause s g) s
  if a = a0 && f = f0 then s else xoffUpdate s

/-- Set a sticky status bit of a group that is a cause of its interrupt (R317). -/
def groupFlag (s : State) (g : Nat) (f : FRef) : State := if rdB s f then s else groupCause (wr s f 1) g

/-- Push a queue into its group's notification FIFO (R314, R315). DEDUCED (log 26). -/
def notifyPush (s : State) (g q : Nat) : State :=
  let l := mget ([] : List Nat) s.dlv.fifo g
  if l.length < 64 then
    let s := { s with dlv := { s.dlv with fifo := mput [] s.dlv.fifo g (l ++ [q]) } }
    updateGroup (onlyIf l.isEmpty (fun s => groupCause s g) s) g
  else wr (wr s (DLV_GRP_STATUS_FIFO_OVF g) 1) (DLV_GRP_STATUS_RESCAN g) 1

/-- A read of DLV_GRP_FIFO removes one entry (R316). DEDUCED (log 26). -/
def groupFifoRead (g : Nat) (s : State) : State :=
  let l := mget ([] : List Nat) s.dlv.fifo g
  if l.isEmpty then s else updateGroup { s with dlv := { s.dlv with fifo := mput [] s.dlv.fifo g (l.drop 1) } } g

/-- What DLV_GRP_FIFO reads now. -/
def groupFifoWord (s : State) (g : Nat) : Nat := match mget ([] : List Nat) s.dlv.fifo g with | [] => 0 | q :: _ => q + 2 ^ 63

/-- Whether an enable of a group is refused (R319). -/
def groupRefused (s : State) (g : Nat) : Bool :=
  (rdCB s (DLV_GRP_CFG_XOFF_EN g) && decide (rdC s (DLV_GRP_HI_HI g) ≤ rdC s (DLV_GRP_LO_LO g))) ||
  (rdCB s (DLV_GRP_CFG_FIFO_XOFF_EN g) && decide (rdC s (DLV_GRP_FIFO_WMARK_HI g) ≤ rdC s (DLV_GRP_FIFO_WMARK_LO g))) ||
  decide (64 < rdC s (DLV_GRP_FIFO_WMARK_HI g))

/-! Slots (R309). -/

/-- Whether delivery still holds an item of a frame's slot. -/
def dlvHolds (s : State) (f : Nat × Nat) : Bool :=
  s.dlv.camp.any (fun p => p.2.any (fun o => o.from_ == some f)) ||
  s.dlv.qs.any (fun p => match p.2 with
    | none => false
    | some x => x.ents.any (fun e => match e with | .item o _ _ _ => o.from_ == some f | _ => false))

/-- Release the slot of an item that has gone, when it was its frame's last (R309). -/
def releaseItem (s : State) (o : Offer) : State :=
  match o.from_ with
  | none => s
  | some f => if dlvHolds s f then s else releaseSlot s f.1 f.2

/-! Entries (R299, R300, Table 11-4). -/

/-- Whether delivery may issue requests (R324): resumed since Bus Master Enable was last 0, as it is after reset. -/
def dlvOn (s : State) : Bool := mayIssue s && s.dlv.resumed

/-- The 32 bytes of an entry; `phase` is bit 7 of the last. -/
def entryBytes (kind st num : Nat) (body : List Byte) (phase : Bool) : List Byte :=
  leBytes 1 kind ++ leBytes 1 st ++ leBytes 2 0 ++ leBytes 4 num ++ padTo 23 body ++ leBytes 1 (128 * b2n phase)

/-- PHASE of the entry at index `pi` (R299). -/
def phaseAt (c : QCtx) (pi : Nat) : Bool := !bitOf pi c.cqLog

/-- PI moves on by `k` entries. -/
def advancePi (x : Queue) (k : Nat) : Queue :=
  { x with unread := min x.ctx.ring (x.unread + k), ctx := { x.ctx with pi := (x.ctx.pi + k) % 2 ^ 24 } }

/-- Write an entry at ring position `pos`, move PI on by `k`, and notify an armed queue (R299, R300, R314). -/
def writeEntry (s : State) (q pos k : Nat) (entry : List Byte) : State :=
  let c := (queueOf s q).ctx
  let s := hostWrite s (c.cqBase + 32 * (pos % c.ring)) entry false
  let s := setQueue s q (advancePi (queueOf s q) k)
  if c.armed then notifyPush (setCtx s q (fun c => { c with armed := false })) c.group q else s

/-- Entries of the ring free beyond what is admitted. -/
def freeEntries (x : Queue) : Nat := x.ctx.ring - x.used - x.ents.length

/-! Descriptors (R296). -/

/-- Read the next descriptors of a queue when it has posted ones that are not read: ahead of need, all of them (R296). DESIGN CHOICE (log 25). -/
def fetchDescs (s : State) (q : Nat) : State :=
  let x := queueOf s q
  let c := x.ctx
  let left := c.posted - x.descs.length
  if !dlvOn s || x.reading != 0 || left = 0 || c.noBuf || c.overwrite || c.state != 2 then s else
  let i := (c.bci + x.descs.length) % 2 ^ c.bqLog
  let a := c.bqBase + 16 * i
  let n := min (min left (2 ^ c.bqLog - i)) (max 1 ((mrrs s - a % mrrs s) / 16))
  wantRead (setQueue s q { x with reading := n }) (.queueRing q) a (16 * n)

/-- In an overwrite queue, read the descriptor of item `num` (R310). -/
def fetchOwn (s : State) (q num : Nat) : State :=
  let c := (queueOf s q).ctx
  if dlvOn s then wantRead s (.queueRing q) (c.bqBase + 16 * (num % 2 ^ c.bqLog)) 16 else s

/-- The buffers an item takes from the descriptors read, in ring order; none when they do not hold it. -/
def takeBufs : Nat → List (Nat × Nat) → Option (List (Nat × Nat))
  | 0, _ => some []
  | _, [] => none
  | n, d :: ds => (takeBufs (n - d.2) ds).map (fun l => d :: l)

/-! Faults (R323). -/

/-- Take everything not written out of a queue: PI and BCI return, buffers come back, slots are released. Answers the number and first of the range (R312). DEDUCED (log 25). -/
def clearQueue (s : State) (q : Nat) : State × Nat × Nat :=
  let x := queueOf s q
  let c := x.ctx
  let items := x.ents.filterMap (fun e => match e with | .item o _ b _ => some (o, (b.getD [])) | _ => none)
  let bufs := if c.overwrite then [] else items.flatMap (·.2)
  let first := match x.ents.head?, x.flu, x.gap with
    | some e, _, _ => e.first
    | none, some (_, f, _, _), _ => f
    | none, none, some (_, f, _) => f
    | none, none, none => c.item
  let s := setQueue s q { x with ents := [], descs := bufs ++ x.descs, flu := none, gap := none
                                 ctx := { c with bci := (c.bci + 2 ^ 24 - bufs.length % 2 ^ 24) % 2 ^ 24 } }
  (each items (fun s p => releaseItem s p.1) s, (c.item + 2 ^ 32 - first) % 2 ^ 32, first)

/-- A queue's reads under way are no longer wanted. -/
def cancelReads (s : State) (q : Nat) : State :=
  let his := fun (r : ReadReqS) => r.who == .queueRing q
  { s with hep := { s.hep with wait := s.hep.wait.filter (fun r => !his r), ready := s.hep.ready.filter (fun r => !his r)
                               tags := s.hep.tags.map (fun p => if his p.2 then (p.1, { p.2 with discard := true }) else p) } }

/-- A fault of a queue (R323): cause 1 UR, 2 CA, 3 POISON, 4 TIMEOUT, 5 ECC. DEDUCED (log 25). -/
def queueFault (s : State) (q addr cause : Nat) : State :=
  let s := (clearQueue s q).1
  let x := queueOf s q
  let g := x.ctx.group
  let s := setQueue (cancelReads s q) q { x with descs := [], reading := 0, ctx := { x.ctx with fault := true, state := 0, en := false, enPending := false } }
  let s := groupFlag s g (DLV_GRP_STATUS_QFAULT g)
  let s := record s rpData 0x10 svError 0x6001 (leBytes 4 q ++ leBytes 8 addr ++ leBytes 1 cause)
  updateGroup s g

/-- A read of a queue's context meets an uncorrectable error in array `a` (R323), in whatever state the queue is: it faults, and QCTX_ECC sets. DEDUCED (log 25). -/
def contextFault (s : State) (q a addr : Nat) : State :=
  wr (queueFault (eccUncorrectable s a 0 addr) q (ctxAddr (qKey s q)) 5) DLV_STATUS_QCTX_ECC 1

/-- Access a queue's context (R320, R323): through the cache, unless its read from HBM at a miss, or from the cache, meets an uncorrectable error. Answers whether it did. DEDUCED (log 25). -/
def ctxAccess (s : State) (q : Nat) (x : CtxEcc) : State × Bool :=
  let hit := (cached s (qKey s q)).isSome
  let s := touchCtx s q
  match x, hit with
  | .hbm, false => (contextFault s q 0 (ctxAddr (qKey s q)), true)
  | .cache a, true => (contextFault s q 5 a.toNat, true)
  | _, _ => (s, false)

/-! Admission (R306 to R308, R310). -/

/-- In an overwrite queue PI passes the numbers of dropped items as it reaches them (R310): an entry stands at its item's index. DEDUCED (log 25). -/
def skipDropped (x : Queue) : Queue :=
  let lead := x.ents.takeWhile (fun e => match e with | .gap _ _ _ => true | _ => false)
  if x.ctx.overwrite then advancePi { x with ents := x.ents.drop lead.length } lead.length else x

/-- Count a dropped item (R307, R310). -/
def countDrop (s : State) (c : QCtx) : State :=
  let s := addSat (addSat s DLV_CNT_DROP_COUNT 1) (DLV_GRP_CNT_DROP_COUNT c.group) 1
  onlyIf c.overwrite (fun s => addSat s (DLV_GRP_CNT_LOST_COUNT c.group) 1) s

/-- Drop an item offered to an active queue (R307, R310, R312): it takes a number, and joins the range of a pending FLUSHED entry, or the gap. DEDUCED (log 25). -/
def dropItem (s : State) (q : Nat) (o : Offer) (reason : Nat) : State :=
  let x := queueOf s q
  let c := x.ctx
  let c1 := { c with item := (c.item + 1) % 2 ^ 32, dropTotal := min (c.dropTotal + 1) (2 ^ 32 - 1), lost := if c.overwrite then min (c.lost + 1) (2 ^ 32 - 1) else c.lost }
  let y := match x.flu with
    | some (n, f, b, p) => { x with ctx := c1, flu := some (n + 1, f, b, p) }
    | none =>
      if c.overwrite then skipDropped { x with ctx := c1, ents := x.ents ++ [.gap 1 c.item reason] }
      else match x.gap with
        | some (n, f, r) => { x with ctx := c1, gap := some (n + 1, f, Nat.lor r reason) }
        | none => { x with ctx := c1, gap := some (1, c.item, reason) }
  releaseItem (setQueue (countDrop s c) q y) o

/-- Admit an item with its buffers: the pending FLUSHED entry and the gap come before it (R306, R308, R312). DEDUCED (log 25). -/
def admitItem (s : State) (q : Nat) (o : Offer) (bufs : Option (List (Nat × Nat))) : State :=
  let x := queueOf s q
  let c := x.ctx
  let pre := (match x.flu with | some (n, f, b, p) => [QEnt.flushed n f b p] | none => []) ++
    (match x.gap with | some (n, f, r) => [QEnt.gap n f r] | none => [])
  let k := (bufs.map (·.length)).getD 0
  let s := setQueue s q { x with ents := x.ents ++ pre ++ [.item o c.item bufs c.bci], descs := x.descs.drop k, flu := none, gap := none
                                 ctx := { c with item := (c.item + 1) % 2 ^ 32, bci := (c.bci + k) % 2 ^ 24 } }
  updateGroup s c.group

/-- Offer an item to its queue (R295, R306, R307, R310, R312): it is admitted or dropped at once, by the descriptors that have been read. An overwrite queue drops an item behind a FLUSHED entry that finds no free entry. DEDUCED (log 25). -/
def offerItem (s : State) (o : Offer) (ecc : CtxEcc) : State :=
  let q := o.qid
  let s := (ctxAccess s q ecc).1
  let x := queueOf s q
  let c := x.ctx
  if !queueActive s c then releaseItem (addSat s DLV_CNT_INACTIVE_COUNT 1) o else
  let data := o.kind != 3
  if decide (0xFFFFFFC0 < o.len) then dropItem s q o 4
  else if c.overwrite then
    if x.flu.isSome && freeEntries x = 0 then dropItem s q o 1
    else if !data then admitItem s q o (some [])
    else if c.noBuf then dropItem s q o 2
    else fetchOwn (admitItem s q o none) q c.item
  else
    let ring := freeEntries x < 1 + b2n x.gap.isSome + b2n x.flu.isSome
    match (if !data then some [] else if c.noBuf then none else takeBufs o.len x.descs) with
    | some l => if 65535 < l.length then dropItem s q o 4 else if ring then dropItem s q o 1 else admitItem s q o (some l)
    | none => dropItem s q o (if !c.noBuf && min (2 ^ c.bqLog) 65535 ≤ x.descs.length then 4 else 2 + b2n ring)

/-- Whether the mode lets an item of a kind be offered (R305, Table 2-2). -/
def mayOffer (s : State) (event : Bool) : Bool :=
  let m := mode s
  if m = 0 || m = 1 || m = 11 then false else if m = 2 then event else true

/-- ITEM_OFFER (R304 to R307, R321): the front of a camp's FIFO, or of the event copies, comes to admission. -/
def itemOffer (src : Option Nat) (ecc : CtxEcc) (s : State) : State :=
  match src with
  | some c =>
    match mget ([] : List Offer) s.dlv.camp c with
    | [] => s
    | o :: l =>
      if !mayOffer s false then s else
      let s := offerItem { s with dlv := { s.dlv with camp := mput [] s.dlv.camp c l } } o ecc
      each (List.range 64) (fun s st => if (frm s st).frames.any (fun f => f.complete) then later s (.handOver st) else s) s
  | none =>
    match s.dlv.ev with
    | [] => s
    | o :: l => if !mayOffer s true then s else offerItem { s with dlv := { s.dlv with ev := l } } o ecc

/-! Writing (R300, R308, R310, R311). -/

/-- The bytes of an item. -/
def itemData (s : State) (o : Offer) : List Byte := o.segs.flatMap (fun g => if g.n = 0 then g.lit else hbmRead s g.addr g.n)

/-- Write an item's bytes into its buffers, in ring order. -/
def writeBufs (s : State) (ro : Bool) : List Byte → List (Nat × Nat) → State
  | _, [] => s
  | d, b :: bs => writeBufs (hostWrite s b.1 (d.take b.2) ro) ro (d.drop b.2) bs

/-- The body of a FRAME or CANDIDATES entry, or of an event's (Table 11-4). -/
def itemBody (o : Offer) (nbuf idx : Nat) : List Byte :=
  if o.kind = 3 then o.body
  else leBytes 6 o.seq ++ leBytes 2 nbuf ++ leBytes 4 (idx % 2 ^ 24) ++ leBytes 4 o.len ++ leBytes 4 o.cand ++ leBytes 1 o.rcp ++ leBytes 1 o.fflags

/-- Body of an ELLIPSIS entry, and of a FLUSHED entry. -/
def gapBody (count first reason : Nat) : List Byte :=
  leBytes 4 count ++ leBytes 4 first ++ leBytes 4 ((first + count + 2 ^ 32 - 1) % 2 ^ 32) ++ leBytes 1 reason
def flushedBody (count first bufNext : Nat) (cut : Bool) : List Byte :=
  leBytes 4 count ++ leBytes 4 first ++ leBytes 4 ((first + count + 2 ^ 32 - 1) % 2 ^ 32) ++ leBytes 4 (b2n cut) ++ leBytes 4 (bufNext % 2 ^ 24)

/-- Write an item's entry: in an overwrite queue at its number's index (R310), else at PI. -/
def writeItemEntry (s : State) (q : Nat) (o : Offer) (num nbuf idx : Nat) : State :=
  let c := (queueOf s q).ctx
  writeEntry s q (if c.overwrite then num else c.pi) 1 (entryBytes o.kind (if o.kind = 3 then 0xFF else o.st) num (itemBody o nbuf idx) (phaseAt c c.pi))

/-- Write the ELLIPSIS entry of a gap at PI (R308). -/
def writeGap (s : State) (q n f r : Nat) : State :=
  let c := (queueOf s q).ctx
  updateGroup (writeEntry s q c.pi 1 (entryBytes 4 0xFF ((f + n) % 2 ^ 32) (gapBody n f r) (phaseAt c c.pi))) c.group

/-- Write a FLUSHED entry at PI (R312). An overwrite queue's PI then passes the numbers of its range, so that its entries go on at their items' indices. DEDUCED (log 25). -/
def writeFlushed (s : State) (q n f b : Nat) (cut : Bool) : State :=
  let c := (queueOf s q).ctx
  writeEntry s q c.pi (if c.overwrite then n else 1) (entryBytes 5 0xFF ((f + n) % 2 ^ 32) (flushedBody n f b cut) (phaseAt c c.pi))

/-- An item of an overwrite queue that comes over an unconsumed one (R310, R311): it is counted, and before data are written its entry is rewritten as VOID, with its old PHASE. DEDUCED (log 25). -/
def overItem (s : State) (q num : Nat) (data : Bool) : State :=
  let x := queueOf s q
  let c := x.ctx
  if c.overwrite && x.used == c.ring then
    let s := addSat s (DLV_GRP_CNT_LOST_COUNT c.group) 1
    let s := setCtx s q (fun c => { c with lost := min (c.lost + 1) (2 ^ 32 - 1) })
    onlyIf (data && !c.noBuf) (fun s => hostWrite s (c.cqBase + 32 * (num % c.ring)) (entryBytes 6 0xFF num [] (!phaseAt c c.pi)) false) s
  else s

/-- The queue's front item goes to the host, data first, then its entry; its slot is released (R300, R309 to R311). DEDUCED (log 25). -/
def itemWrite (q : Nat) (s : State) : State :=
  if !dlvOn s then s else
  let s := touchCtx s q
  let x := queueOf s q
  let c := x.ctx
  match x.ents with
  | .item o num (some bufs) idx :: rest =>
    let s := setQueue s q { x with ents := rest }
    let tooLong := c.overwrite && o.kind != 3 && decide (((bufs.head?.map (·.2)).getD 0) < o.len)
    let s :=
      if tooLong then
        let s := setCtx (countDrop s c) q (fun c => { c with lost := min (c.lost + 1) (2 ^ 32 - 1), dropTotal := min (c.dropTotal + 1) (2 ^ 32 - 1) })
        setQueue s q (advancePi (queueOf s q) 1)
      else
        let s := overItem s q num (o.kind != 3)
        let s := writeBufs s c.roData (itemData s o) bufs
        let s := writeItemEntry s q o num bufs.length idx
        addWrap (addWrap s DLV_CNT_ITEMS_COUNT 1) DLV_CNT_BYTES_COUNT o.len
    let s := setQueue s q (skipDropped (queueOf s q))
    releaseItem (updateGroup s c.group) o
  | _ => s

/-- ELLIPSIS_WRITE (R308): the entry of the gap that is next in order, once a ring entry is free. DEDUCED (log 25). -/
def ellipsisWrite (q : Nat) (s : State) : State :=
  let x := queueOf s q
  if !dlvOn s || x.ctx.overwrite then s else
  match x.ents, x.gap with
  | .gap n f r :: rest, _ => writeGap (setQueue s q { x with ents := rest }) q n f r
  | [], some (n, f, r) => if x.ctx.state = 2 && 1 ≤ freeEntries x then writeGap (setQueue s q { x with gap := none }) q n f r else s
  | _, _ => s

/-- A queue that quiesces is DISABLED once its FLUSHED entry is written (R313), and ENABLED again where an enable is pending (Table 2-4). -/
def quiesced (s : State) (q : Nat) : State :=
  setCtx s q (fun c => if c.state = 3 then { c with state := if c.enPending then 2 else 0, en := c.enPending, enPending := false } else c)

/-- FLUSHED_WRITE (R312, R313): the pending FLUSHED entry, once a ring entry is free. DEDUCED (log 25). -/
def flushedWrite (q : Nat) (s : State) : State :=
  let x := queueOf s q
  let c := x.ctx
  if !dlvOn s then s else
  match x.ents, x.flu with
  | .flushed n f b p :: rest, _ => updateGroup (writeFlushed (setQueue s q { x with ents := rest }) q n f b p) c.group
  | [], some (n, f, b, p) =>
    if 1 ≤ freeEntries x then updateGroup (fetchDescs (quiesced (writeFlushed (setQueue s q { x with flu := none }) q n f b p) q) q) c.group else s
  | _, _ => s

/-! Flush and disable (R312, R313). -/

/-- Whether the front item's data writes have begun when a flush cuts it, and how many bytes they have written, is a free value (R312). -/
def cutFront (s : State) (q : Nat) : State × Bool :=
  let c := (queueOf s q).ctx
  match (queueOf s q).ents with
  | .item o num (some bufs) _ :: _ =>
    if !dlvOn s || o.kind = 3 then (s, false) else
    let k := freeNat s % (o.len + 1)
    if k = 0 then (freeNext s, false)
    else (writeBufs (overItem (freeNext s) q num true) c.roData ((itemData s o).take k) bufs, true)
  | _ => (s, false)

/-- Take out what is not written and leave a FLUSHED entry pending for it, written at once where it can be (R312). -/
def flushRange (s : State) (q : Nat) (cut : Bool) : State :=
  let r := clearQueue s q
  let x := queueOf r.1 q
  let s := setQueue r.1 q { x with flu := some (r.2.1, r.2.2, x.ctx.bci, cut) }
  updateGroup (flushedWrite q s) x.ctx.group

/-- Flush a queue (R312). DEDUCED (log 25). -/
def flushQueue (q : Nat) (s : State) : State :=
  let st := (queueOf s q).ctx.state
  if st = 0 || st = 3 then s else
  let t := cutFront s q
  flushRange t.1 q t.2

/-- Disable a queue (R313): it is flushed and reaches DISABLED once the FLUSHED entry is written, at once where the ring has no room for it, and the entry is lost. DEDUCED (log 25). -/
def disableQueue (q : Nat) (s : State) : State :=
  let c := (queueOf s q).ctx
  if c.state = 0 then s
  else if c.state = 3 then setCtx s q (fun c => { c with en := false, enPending := false })
  else
    let s := cancelReads (flushRange s q false) q
    let y := queueOf s q
    let x := { y with descs := [], reading := 0 }
    let wait := x.flu.isSome && decide (1 ≤ freeEntries y)
    updateGroup (setQueue s q (if wait then { x with ctx := { x.ctx with state := 3, en := false } }
      else { x with flu := none, ctx := { x.ctx with state := 0, en := false, enPending := false } })) c.group

/-- Whether a queue's front item can go to the host. -/
def itemReady (s : State) (q : Nat) : Bool :=
  dlvOn s && (match (queueOf s q).ents with | .item _ _ (some _) _ :: _ => true | _ => false)

/-- ITEM_WRITTEN (R300, R323, Table 19-5): the queue's front item is written, unless the read of the context or of the item's staging page meets an uncorrectable error. DEDUCED (log 25). -/
def itemWritten (q : Nat) (x : ItemEcc) (s : State) : State :=
  match x with
  | .none => itemWrite q s
  | .corrected hbm => if itemReady s q then itemWrite q (eccCorrected s (if hbm then 0 else 4) 0) else s
  | .context => (ctxAccess s q .hbm).1
  | .cache a => (ctxAccess s q (.cache a)).1
  | .staging a => if itemReady s q then queueFault (eccUncorrectable s 4 0 a.toNat) q a.toNat 5 else s

/-- A group that quiesces disables its queues (R313). -/
def groupStopped (s : State) (g : Nat) : State :=
  each ((liveQueues s).filter (fun p => p.2.ctx.group == g && p.2.ctx.state != 0)) (fun s p => disableQueue p.1 s) s

/-! Queue commands (R294, Table 11-6). -/

/-- End a queue command with a RESULT. -/
def qcmdEnd (s : State) (r : Nat) : State := wr (wr s DLV_QCMD_STATUS_RESULT r) DLV_QCMD_STATUS_DONE 1

/-- A queue command begins with the access to the context; one that cannot be read ends the command with RESULT 2. DESIGN CHOICE (log 26). -/
def qcmdOn (s : State) (q : Nat) (ecc : CtxEcc) (f : State → State) : State :=
  let a := ctxAccess s q ecc
  if a.2 then qcmdEnd a.1 2 else f a.1

def qcmdRead (q : Nat) (ecc : CtxEcc) (s : State) : State :=
  qcmdOn s q ecc (fun s => qcmdEnd (each (ctxWords (queueOf s q).ctx).zipIdx (fun s p => wr s (DLV_QWIN_DATA p.2) p.1) s) 0)

/-- The queue that a WRITE makes of the window's context (R294): a pending gap or flush is the window's; of an overwrite queue so are the unconsumed entries. -/
def windowQueue (c : QCtx) : Queue :=
  { ctx := c, gap := if c.ellPend && !c.overwrite then some (c.drops, c.dfirst, c.dreason) else none
    flu := if c.fluPend then some (0, c.item, c.bci, false) else none
    unread := if c.overwrite then min c.ring ((c.pi + 2 ^ 24 - c.ci) % 2 ^ 24) else 0 }

/-- A state that a WRITE set goes on as Table 2-4 has it: a set-up is complete at once, and a quiescing queue with nothing pending is done. DEDUCED (log 26). -/
def stateSettled (x : Queue) : Queue :=
  if x.ctx.state = 1 then { x with ctx := { x.ctx with state := 2 } }
  else if x.ctx.state = 3 && x.flu.isNone then { x with ctx := { x.ctx with state := if x.ctx.enPending then 2 else 0, en := x.ctx.enPending, enPending := false } }
  else x

def qcmdWrite (q : Nat) (ecc : CtxEcc) (s : State) : State :=
  qcmdOn s q ecc (fun s =>
    if (queueOf s q).ctx.state != 0 then qcmdEnd s 1 else
    let c := ctxOf (fun i => rd s (DLV_QWIN_DATA i))
    if c.pin && pinFull s q then qcmdEnd s 3
    else qcmdEnd (updateGroup (fetchDescs (setQueue s q (stateSettled (windowQueue c))) q) c.group) 0)

/-- Whether a context breaks the rules of ENABLE (R294). -/
def ctxBad (c : QCtx) : Bool :=
  c.cqLog < 4 || 20 < c.cqLog || 20 < c.bqLog || c.cqBase % 64 != 0 || c.bqBase % 64 != 0 ||
    (c.overwrite && !c.noBuf && c.bqLog != c.cqLog)

def qcmdEnable (q : Nat) (ecc : CtxEcc) (s : State) : State :=
  qcmdOn s q ecc (fun s =>
    let c := (queueOf s q).ctx
    if c.state = 3 then qcmdEnd (setCtx s q (fun c => { c with en := true, enPending := true })) 0
    else if c.state != 0 then qcmdEnd s 0
    else if ctxBad c then qcmdEnd s 2
    else if c.pin && pinFull s q then qcmdEnd s 3
    else qcmdEnd (updateGroup (fetchDescs (setCtx s q (fun c => { c with state := 2, en := true })) q) c.group) 0)

def qcmdDisable (q : Nat) (ecc : CtxEcc) (s : State) : State := qcmdOn s q ecc (fun s => qcmdEnd (disableQueue q s) 0)
def qcmdFlush (q : Nat) (ecc : CtxEcc) (s : State) : State := qcmdOn s q ecc (fun s => qcmdEnd (flushQueue q s) 0)

/-! Doorbells (R297, R298). -/

/-- CI of a doorbell: discarded, with DB_ERR, where PI - CI is above the ring. -/
def bellCi (s : State) (q v : Nat) : State :=
  let x := queueOf s q
  let n := (x.ctx.pi + 2 ^ 24 - v) % 2 ^ 24
  if x.ctx.ring < n then groupFlag s x.ctx.group (DLV_GRP_STATUS_DB_ERR x.ctx.group)
  else setQueue s q { x with unread := n, ctx := { x.ctx with ci := v } }

/-- BPI of a doorbell: discarded, with DB_ERR, where BPI - BCI is above the buffer ring. -/
def bellBpi (s : State) (q v : Nat) : State :=
  let c := (queueOf s q).ctx
  if 2 ^ c.bqLog < (v + 2 ^ 24 - c.bci) % 2 ^ 24 then groupFlag s c.group (DLV_GRP_STATUS_DB_ERR c.group)
  else fetchDescs (setCtx s q (fun c => { c with bpi := v })) q

/-- ARM of a doorbell (R314): a queue that holds unconsumed entries is notified at once. -/
def bellArm (s : State) (q : Nat) : State :=
  let x := queueOf s q
  if !x.ctx.notify then s
  else if x.used != 0 then notifyPush (setCtx s q (fun c => { c with armed := false })) x.ctx.group q
  else setCtx s q (fun c => { c with armed := true })

/-- Apply one doorbell to its context; one for a queue that is not ENABLED is discarded. DEDUCED (log 26). -/
def applyBell (s : State) (b : Bell) : State :=
  let s := (ctxAccess s b.q b.ecc).1
  let c := (queueOf s b.q).ctx
  if c.state != 2 then s else
  let s := match b.ci with | none => s | some v => bellCi s b.q v
  let s := match b.bpi with | none => s | some v => bellBpi s b.q v
  updateGroup (if b.arm then bellArm s b.q else s) c.group

/-- DOORBELL_APPLY: the oldest doorbell of the FIFO is applied (R298). -/
def doorbellApply (s : State) : State :=
  match s.dlv.bells with
  | [] => s
  | b :: l => applyBell { s with dlv := { s.dlv with bells := l } } b

/-- A doorbell write (R297, R298): merged with one that waits for its queue, else appended; a full FIFO takes it once its oldest has been applied. DEDUCED (log 26). -/
def queueDoorbell (q : Nat) (ecc : CtxEcc) (lo hi : Option Nat) (s : State) : State :=
  let b : Bell := { q := q, ci := lo.map (fun v => bitsOf v 23 0), bpi := hi.map (fun v => bitsOf v 23 0), arm := (lo.map (fun v => bitOf v 31)).getD false, ecc := ecc }
  if s.dlv.bells.any (fun x => x.q == q) then
    { s with dlv := { s.dlv with bells := s.dlv.bells.map (fun x =>
        if x.q = q then { x with ci := b.ci.or x.ci, bpi := b.bpi.or x.bpi, arm := x.arm || b.arm, ecc := if ecc = .none then x.ecc else ecc } else x) } }
  else
    let s := if s.dlv.bells.length < 4096 then s else doorbellApply s
    { s with dlv := { s.dlv with bells := s.dlv.bells ++ [b] } }

/-! Completions, Bus Master Enable (R323, R324). -/

/-- A descriptor read of a queue has completed whole. -/
def descsArrive (s : State) (q addr : Nat) (data : List Byte) : State :=
  let x := queueOf s q
  let c := x.ctx
  let parse := (List.range (data.length / 16)).map (fun i => (leNat ((data.drop (16 * i)).take 8), leNat ((data.drop (16 * i + 8)).take 4)))
  if c.overwrite then
    let k := (addr - c.bqBase) / 16
    let r := x.ents.foldl (fun (a : List QEnt × Bool) e => match e with
      | .item o n none _ => if !a.2 && n % 2 ^ c.bqLog == k then (a.1 ++ [.item o n (some parse) k], true) else (a.1 ++ [e], a.2)
      | _ => (a.1 ++ [e], a.2)) ([], false)
    setQueue s q { x with ents := r.1 }
  else if x.reading = 0 then s
  else fetchDescs (setQueue s q { x with reading := 0, descs := x.descs ++ parse }) q

/-- Bus Master Enable clears, or D3hot is entered (R324, R371): delivery issues nothing more, and its reads are discarded. DEDUCED (log 25). -/
def deliveryOff (s : State) : State :=
  let s := { s with dlv := { s.dlv with resumed := false } }
  let s := { s with hep := { s.hep with wait := s.hep.wait.filter (fun r => r.who.channel.isSome)
                                        ready := s.hep.ready.filter (fun r => r.who.channel.isSome)
                                        tags := s.hep.tags.map (fun p => if p.2.who.channel.isNone then (p.1, { p.2 with discard := true }) else p) } }
  each (liveQueues s) (fun s p => if p.2.reading = 0 then s else setQueue s p.1 { queueOf s p.1 with reading := 0 }) s

/-- DLV_CTRL.RESUME (R324): accepted with Bus Master Enable 1; descriptors whose reads were discarded are read again. DEDUCED (log 25). -/
def deliveryResume (s : State) : State :=
  if !mayIssue s || s.dlv.resumed then s else
  let s := { s with dlv := { s.dlv with resumed := true } }
  each (liveQueues s) (fun s p =>
    if p.2.ctx.overwrite then each p.2.ents (fun s e => match e with | .item _ n none _ => fetchOwn s p.1 n | _ => s) s
    else fetchDescs s p.1) s

/-! What becomes an item (R301 to R304, R273). -/

/-- Parts laid out each on a 64-byte boundary of the stream (R302). Answers the pieces and the length. -/
def layParts : List (List Seg × Nat) → Nat → List Seg → List Seg × Nat
  | [], ofs, acc => (acc, ofs)
  | (g, n) :: l, ofs, acc =>
    let pad := roundUp 64 ofs - ofs
    layParts l (ofs + pad + n) (acc ++ (if pad = 0 then [] else [{ lit := List.replicate pad 0 }]) ++ g)

/-- The product directory in a slot: (index, KIND, OFS, LEN) of each of its 16 entries (Table 10-4). -/
def directoryOf (s : State) (a : Nat) : List (Nat × Nat × Nat × Nat) :=
  (List.range 16).map (fun i => (i, hbmNat s (a + 16 * i + 2) 1, hbmNat s (a + 16 * i + 4) 4, hbmNat s (a + 16 * i + 8) 4))

/-- The FRAME item of a frame handed over (R302). DEDUCED (log 21). -/
def frameOffer (s : State) (st : Nat) (f : Frame) (k : Nat) (sh : Shape) (ff : Nat) : Offer :=
  let c := f.cfg
  let a := slotAddr s st k
  let q := a + chainOfs c
  let has := fun (i : Nat) => bitOf c.content i
  let mem := fun (ad n : Nat) => ([({ addr := ad, n := n } : Seg)], n)
  let prods := (directoryOf s q).filter (fun p => decide (0 < p.2.2.2) && p.2.1 != 0 && !(c.cqEn && p.2.1 == 2))
  let head := (if has 0 then [mem a 128] else []) ++ (if has 1 && !f.recs.isEmpty then [mem (a + 0x80) (32 * f.recs.length)] else []) ++
    (if has 2 && sh.lines * sh.stride != 0 then [mem (a + payloadOfs c) (sh.lines * sh.stride)] else [])
  let l := layParts head 0 []
  let r := if has 3 then
      let start := roundUp 64 l.2 + 256
      let ofs := (prods.foldl (fun (acc : List (Nat × Nat) × Nat) p => (acc.1 ++ [(p.1, acc.2)], acc.2 + p.2.2.2)) ([], start)).1
      let dir := (List.range 16).flatMap (fun i =>
        hbmRead s (q + 16 * i) 4 ++ leBytes 4 (((ofs.find? (fun o => o.1 == i)).map (·.2)).getD 0) ++ hbmRead s (q + 16 * i + 8) 8)
      layParts (head ++ [(({ lit := dir } : Seg) :: prods.map (fun p => { addr := a + p.2.2.1, n := p.2.2.2 }), 256 + prods.foldl (fun n p => n + p.2.2.2) 0)]) 0 []
    else l
  { qid := c.fq, kind := 1, from_ := some (st, k), st := st, seq := f.seq.getD 0, cand := f.cand, rcp := c.rcp, fflags := ff, segs := r.1, len := r.2 }

/-- The CANDIDATES item of a frame, if its chain made a list that is offered (R303). -/
def candOffer (s : State) (st : Nat) (f : Frame) (k : Nat) (ff : Nat) : Option Offer :=
  let c := f.cfg
  let a := slotAddr s st k
  match (directoryOf s (a + chainOfs c)).find? (fun p => p.2.1 == 2) with
  | some p =>
    if c.cqEn && (f.cand != 0 || bitOf c.content 4) then
      some { qid := c.cq, kind := 2, from_ := some (st, k), st := st, seq := f.seq.getD 0, cand := f.cand, rcp := c.rcp, fflags := ff
             segs := [{ addr := a + p.2.2.1, n := p.2.2.2 }], len := p.2.2.2 }
    else none
  | none => none

/-- Hand a stream's complete frames to delivery in sequence order (R273, R321); the first argument bounds their number. The tag takes its final form here. DEDUCED (log 21). DEDUCED (log 25). -/
def handOver : Nat → State → Nat → State
  | 0, s, _ => s
  | n + 1, s, st =>
    let x := frm s st
    match nextDue s st with
    | none => s
    | some f =>
      match f.complete, f.slot, f.seq with
      | true, some k, some seq =>
        let fifo := mget ([] : List Offer) s.dlv.camp f.cfg.camp
        let ell := seq != x.nextOut || x.ellNext
        let sh := f.shape.getD (plainShape f)
        let tag := tagBytes s st f sh k ell
        let ff := bitsOf f.flags 4 3 + 4 * b2n ell
        let os := (if f.cfg.fqEn then [frameOffer s st f k sh ff] else []) ++ (candOffer s st f k ff).toList
        if 1024 < fifo.length + os.length then s else
        let s := hbmWrite s (slotAddr s st k) tag
        let s := setFrm (removeFrame s st f.id) st { frm (removeFrame s st f.id) st with nextOut := (seq + 1) % 2 ^ 48, ellNext := false }
        let s := { s with dlv := { s.dlv with camp := mput [] s.dlv.camp f.cfg.camp (fifo ++ os) } }
        let s := onlyIf os.isEmpty (fun s => releaseSlot s st k) s
        handOver n s st
      | _, _, _ => s

/-- Event copies of a record the recorder accepts (R304). -/
def eventCopy (s : State) (r : Rec) : State :=
  each (List.range 4) (fun s i =>
    if rdB s (DLV_EVT_ROUTE_EN i) && bitOf (rd s (DLV_EVT_ROUTE_SRC_MASK i)) r.source && decide (rd s (DLV_EVT_ROUTE_MIN_SEV i) ≤ r.sev) then
      if s.dlv.ev.length < 64 then
        let o : Offer := { qid := rd s (DLV_EVT_ROUTE_QID i), kind := 3, body := leBytes 1 r.source ++ leBytes 1 r.sev ++ leBytes 2 r.code ++ (padTo 32 r.payload).take 16 }
        { s with dlv := { s.dlv with ev := s.dlv.ev ++ [o] } }
      else addSat s DLV_CNT_EVLOST_COUNT 1
    else s) s

end Sys2Proof.Machine
end

