-- ==== Sys2Proof/Machine/ModeOps.lean ====
section
/-! DEFINITION. Entering a mode (02_operating_modes.md): what every mode change does, whoever asks for it. -/

namespace Sys2Proof.Machine

/-! The LTR message (R374). -/

/-- The largest LTR value not above `ns`, in the smallest scale that holds it: (scale, value). The first argument bounds the scale. -/
def ltrEncode : Nat → Nat → Nat → Nat × Nat
  | 0, k, ns => (k, min 1023 (ns / 32 ^ k))
  | f + 1, k, ns => if ns / 32 ^ k ≤ 1023 then (k, ns / 32 ^ k) else ltrEncode f (k + 1) ns

/-- A latency of the Max Snoop or Max No-Snoop register, in ns. -/
def ltrNs (v : Nat) : Nat := v % 1024 * 32 ^ (v / 1024 % 8)

/-- The LTR message on entry to mode `m`, with LTR Mechanism Enable = 1; none is sent while the endpoint issues no requests (R371, R382). PRESUMED (log 28). -/
def ltrSend (s : State) (m : Nat) : State :=
  if !bitOf (cfgDw s 0x98) 10 || !mayIssue s then s else
  let ns := if 4 ≤ m ∧ m ≤ 8 then orOne (rd s HEP_LTR_ACQ_NS) else 1000 * orOne (rd s HEP_LTR_IDLE_US)
  let lim := cfgDw s 0x16C
  let a := ltrEncode 5 0 (min ns (ltrNs (lim % 65536)))
  let b := ltrEncode 5 0 (min ns (ltrNs (lim / 65536)))
  send s (.ltr a.1 a.2 b.1 b.2)

/-- A pending derating step takes effect (R543): a camp's cycle limit follows, and the chains of its streams are checked again. A step never reverses. -/
def derateApply (s : State) : State :=
  each (List.range 16) (fun s c =>
    let st := rd s (AGE_ISLAND_STEP (34 + c))
    if mget 0 s.derate c < st then each (campStreams s c) chainRefresh { s with derate := mput 0 s.derate c st } else s) s

/-- A pad that a CAL message brought takes effect (R457). -/
def padApply (s : State) : State :=
  match s.tth.pad with
  | some p => wr (wr { s with tth := { s.tth with pad := none } } TTH_PAD_P p) TTH_STATUS_PAD_PEND 0
  | none => s

/-- The cause words of Table 2-11 that carry a code alone. -/
abbrev mcRequest : Nat := 0x10
abbrev mcEdusk : Nat := 0x11
abbrev mcDone : Nat := 0x12
abbrev mcDrainTimeout : Nat := 0x13
abbrev mcLock : Nat := 0x14
abbrev mcConj : Nat := 0x15
abbrev mcManager : Nat := 0x16

/-- TARGET and TRANSITION of a mode that has been entered (R52): DRAIN heads for ARMED, CALIBRATE for the mode it came from, TRACK for LOCK while that is its
target, BOOT for IDLE. DEDUCED (log 13). -/
def modeTarget (s : State) (m : Nat) : Nat × Bool :=
  if m = 8 then (3, true) else if m = 9 then (s.modeCtl.cameFrom, true) else if m = 1 then (2, true)
  else if (m = 5 || m = 6) && s.modeCtl.lockTarget then (6, false) else (m, false)

/-- Show a mode's TARGET and TRANSITION. -/
def showTarget (s : State) : State :=
  let t := modeTarget s (mode s)
  laterOnce (wrB (wr s MODE_STATUS_TARGET t.1) MODE_STATUS_TRANSITION t.2) .heartbeat

/-- The device enters mode `m` with a cause word (R53, Table 2-11): MODE and PREV change, the MODE_CHANGE record is offered, the mode source is raised, an LTR message is sent, and at IDLE and
ARMED what waited for them takes effect. DEDUCED (log 13). -/
def modeEnter (s : State) (m cause : Nat) : State :=
  let was := mode s
  let s := wr (wr s MODE_STATUS_PREV was) MODE_STATUS_MODE m
  let s := showTarget s
  let s := record s rpMp 0x15 (if m = 10 then svFault else svNotice) 0x0010 (leBytes 1 was ++ leBytes 1 m ++ leBytes 4 cause)
  let s := ltrSend (raise s srcMode) m
  if m = 2 || m = 3 then padApply (derateApply s) else s

/-- A mode request is refused with a code (Table 2-7). DEDUCED (log 13). -/
def modeRefuse (s : State) (code : Nat) : State := wr s MODE_STATUS_REFUSE code

/-- Streams whose assembly runs: ENABLED, or finishing a frame in QUIESCING. -/
def runningStreams (s : State) : List Nat := below 64 (fun st => enState s (frmEn st) == 2 || enState s (frmEn st) == 3)

end Sys2Proof.Machine
end

