-- ==== Sys2Proof/Machine/Changeover.lean ====
section
/-! DEFINITION. The changeover sequencer (09_job_changeover.md; 01_islands_and_planes.md R31 to R33): committing, the hand-over cycle, the copy of the store, the conjunction. -/

namespace Sys2Proof.Machine

/-! The shadow store (R245, R246). -/

/-- Whether a BAR0 offset is a shadowed register. -/
def isShadowed (a : Nat) : Bool := match regAt a with | some (r, _) => r.shadowed | none => false

/-- The key under which a waiting write names a shadowed parameter of the dictionary instead of a register: past BAR0. -/
abbrev parKey : Nat := 0x4000000

/-- Set the SHADOW value of a parameter (R417). -/
def setParShadow (s : State) (id v : Nat) : State := { s with mp := { s.mp with pshadow := mput none s.mp.pshadow id (some v) } }

/-- The whole store becomes ACTIVE (R246, R417); the set that was ACTIVE is kept for lines of the old recipe. -/
def storeToActive (s : State) : State :=
  let s := each s.mp.pshadow (fun s p => { s with mp := { s.mp with pact := mput none s.mp.pact p.1 p.2 } }) s
  each s.shadow (fun s p => { s with regs := mput (regReset p.1) s.regs p.1 p.2 })
    { s with old := s.regs.filter (fun p => isShadowed p.1), regs := s.regs.filter (fun p => !isShadowed p.1) }

/-- What a write of a shadowed register stores (R13): its RW bits; STK_LEAD holds at most 1 000 000 (Table 5-6). -/
def shadowVal (r : Reg) (v : Nat) : Nat := let w := Nat.land v r.rw; if r.base = 0x50008 then min w 1000000 else w

/-- A write reaches the store (R245); during the copy it waits and sets LATE_WRITE (R253). -/
def storeWrite (s : State) (a v : Nat) : State :=
  if rd s CHG_STATUS_PHASE = 2 then
    wr { s with chg := { s.chg with waiting := s.chg.waiting ++ [(a, v)] } } CHG_STATUS_LATE_WRITE 1
  else if parKey ≤ a then setParShadow s (a - parKey) v else setShadow s a (BitVec.ofNat 64 v)

/-! Recipe slots (R243, R244). -/

/-- Whether frames of recipe slot `k` are still being assembled, processed or delivered. -/
def slotBusy (s : State) (k : Nat) : Bool :=
  rd s CHG_STATUS_PHASE == 2 || !conjDone s ||
  (List.range 64).any (fun st =>
    let x := frm s st
    x.frames.any (fun f => f.cfg.rcp == k) || x.slots.any (fun p => !p.2.released && p.2.cfg.rcp == k))

/-- OLD slots whose last frame has gone are RESIDENT again (R244). -/
def oldSlots (s : State) : State :=
  each (below 64 (fun k => rd s (CHG_RCP_STATE_STATE k) == 5 && !slotBusy s k)) (fun s k => wr s (CHG_RCP_STATE_STATE k) 2) s

/-! Committing. -/

/-- The sequencer's RESULT codes (Table 9-7). -/
abbrev crArmed : Nat := 1
abbrev crDone : Nat := 2
def chgResult (s : State) (r : Nat) : State := wr s CHG_STATUS_RESULT r

/-- At or past a position in a direction. DEDUCED (log 23). -/
def posReached (neg : Bool) (target p : Int) : Bool := if neg then decide (p ≤ target) else decide (target ≤ p)

/-- What a commit captures (R247), as a hand-over of kind `kind`. -/
def captured (s : State) (kind : Nat) (follow chain : Bool) : Armed :=
  { kind := kind, trail := rd s CHG_CFG_TRAIL, neg := rdB s CHG_CFG_DIR, unit := rd s CHG_CFG_UNIT, dom := rd s CHG_CFG_DOM
    late := rdB s CHG_CFG_LATE_POLICY, ref := rd s CHG_CFG_REF_STREAM, onTrail := rd s CHG_CFG_TRAIL, onNeg := rdB s CHG_CFG_DIR
    pos := rdI s CHG_AT_POS_POS, marks := orOne (rd s CHG_AT_MARKS_MARKS), time := rd s CHG_AT_TIME_TIME
    limit := orOne (rd s CHG_CONJ_LIMIT_LIMIT), follow := follow, chain := chain }

/-- Whether a hand-over is late (R256): a position on a null trail never is (R573), a mark count never is. DEDUCED (log 23). -/
def isLate (s : State) (a : Armed) : Bool :=
  if a.kind = 0 then decide (a.onTrail < 12) && posReached a.onNeg a.pos (posNow s a.onTrail)
  else if a.kind = 2 then decide (a.time ≤ domNow s a.dom)
  else false

/-- The next frame boundary of the reference stream as a hand-over position (R257): trail, direction, H'. None for NO_BOUNDARY. -/
def nextBoundary (s : State) (st : Nat) : Option (Nat × Bool × Int) :=
  let t := rd s (FRM_STR_BIND_TRAIL st)
  let neg := rdB s (FRM_STR_BIND_DIR st)
  let m := rd s (FRM_STR_CUT_MODE st)
  match (frm s st).lastXofs with
  | none => none
  | some xofs =>
    if !enabled s (frmEn st) || !enabled s (camStrEn st) || !rdB s (CAM_STR_BIND_LINE st) || !(m == 1 || m == 2) || !cutHolds (frm s st).cut || decide (12 ≤ t) then none
    else
      let u := rd s (FRM_STR_CUT_COMPASS st)
      let l := (mlk s u).cur
      let d : Int := if m = 2 && enabled s (mlkEn u) && l.st != 0 then l.r else rd s (FRM_STR_REPEAT_REPEAT st)
      let sg : Int := if neg then -1 else 1
      let h := rdI s (FRM_OPEN_BOUND_BOUND st) - xofs
      let p := posNow s t
      if sg * p < sg * h then some (t, neg, h)
      else if d ≤ 0 then none
      else some (t, neg, h + sg * (floorDiv (sg * p - sg * h) d + 1) * d)

/-- Arm a hand-over (Table 9-4): PHASE = ARMED, RESULT = ARMED, the slot hold of R262 starts with the lead captured. -/
def arm (s : State) (a : Armed) (shown : Nat) : State :=
  let s := { s with chg := { s.chg with armed := some a } }
  let s := wr (wr (wr s CHG_STATUS_PHASE 1) CHG_STATUS_ARMED_KIND shown) CHG_ARMED_POS_POS (ofSigned 64 (if a.kind = 0 then a.pos else 0))
  laterOnce (chgResult s crArmed) .heartbeat

/-- Disarm with a result; the slot hold ends. -/
def disarm (s : State) (r : Nat) : State :=
  let s := chgResult (wr { s with chg := { s.chg with armed := none } } CHG_STATUS_PHASE 0) r
  laterOnce (each (List.range 64) freeSlots s) .heartbeat

/-- The lateness rules applied to a hand-over (R256 to R258): armed as it is, re-targeted, or refused. DEDUCED (log 23). -/
def armOrLate (s : State) (a : Armed) : State × Bool :=
  if !isLate s a then (arm s a a.kind, true)
  else if a.late then (chgResult (wr s CHG_STATUS_LATE 1) 3, false)
  else match nextBoundary s a.ref with
    | none => (chgResult s 4, false)
    | some (t, neg, h) => (arm (wr s CHG_STATUS_RETARGETED 1) { a with kind := 0, onTrail := t, onNeg := neg, pos := h } 3, true)

/-- The POSITION slot that carries a trail: none while the tether sends nothing. -/
def slotOfTrail (s : State) (t : Nat) : Option Nat :=
  if !enabled s tthEn then none else (List.range 4).find? (fun j => rdCB s (TTH_SLOT_CFG_EN j) && rdC s (TTH_SLOT_CFG_TRAIL j) == t)

/-- A chain commit's HANDOVER message starts (R266, R464): three copies with one HO_ID. -/
def chainMessage (s : State) (a : Armed) : State :=
  let id := (s.tth.hoId + 1) % 256
  { s with tth := { s.tth with hoId := id, hAt := none, judged := []
                               ho := some { left := 3, slot := (slotOfTrail s a.trail).getD 0, neg := a.onNeg, id := id, pos := a.pos
                                            job := rdShadow s CHG_JOB_JOB_ID, ver := rdShadow s CHG_JOB_RCP_VER } } }

/-- The slot states at a hand-over (Table 9-2): the new slot is ACTIVE, the old one OLD, or RESIDENT where no acquisition ran. DEDUCED (log 23). -/
def slotsHandover (s : State) (old new : Nat) (acq : Bool) : State :=
  let s := if old != new && rd s (CHG_RCP_STATE_STATE old) == 4 then wr s (CHG_RCP_STATE_STATE old) (if acq || slotBusy s old then 5 else 2) else s
  wr s (CHG_RCP_STATE_STATE new) 4

/-- D0's TS64 at the hand-over, as TIM stamps it (R26, R254): the domain at the receiving edge, less 1.5 ns. -/
def handOverTime (s : State) : Nat := timStamp s 0 / 2 ^ 40

/-- Cycle h (R251 to R254, R51): the store becomes ACTIVE for every block, the sequencer captures where and when, counts, records, raises and rings. DEDUCED (log 23). -/
def handOverNow (s : State) (a : Armed) (shown : Nat) : State :=
  let acq := acquiring s
  let oldSlot := rd s CHG_RCP_SLOT
  let newSlot := rdShadow s CHG_RCP_SLOT
  let s := storeToActive s
  let s := { s with chg := { s.chg with hAt := some (s.now / 2), count := s.chg.count + 1, conj := acq } }
  let s := wr (wr s CHG_H_POS_POS (ofSigned 64 (posNow s a.trail))) CHG_H_TIME_TIME (handOverTime s)
  let s := addWrap s CHG_COUNT_COUNT 1
  let s := slotsHandover (wr s CHG_STATUS_PHASE 2) oldSlot newSlot acq
  let s := stakesHandover s
  let s := mlkHandover s acq
  let s := if acq then framesHandover s else framesRefresh s
  let s := chainsActive s
  let s := record s rpControl 0x0E svNotice 0x5001 (leBytes 1 oldSlot ++ leBytes 1 newSlot ++ leBytes 1 shown ++ leBytes 8 (ofSigned 64 (posNow s a.trail)))
  let s := { s with tth := { s.tth with hoMiss := false, hoDone := a.hoId.getD (if a.chain then s.tth.hoId else s.tth.hoDone), hAt := (if a.chain then some s.now else none), judged := [], hb := none } }
  laterOnce (laterOnce (later (later (raise s srcChg) (.gyl 184 0)) .lockCheck) .oldSlots) .heartbeat

/-- A write of CHG_COMMIT with GO = 1 (R247, R248, Table 9-3). DEDUCED (log 23). -/
def chgCommit (v : Nat) (s : State) : State :=
  let kind := bitsOf v 2 1
  let chain := bitOf v 3
  let follow := bitOf v 4
  let m := mode s
  let stt := rd s (CHG_RCP_STATE_STATE (rdShadow s CHG_RCP_SLOT))
  if m < 2 || 8 ≤ m then chgResult s 7
  else if m = 7 then chgResult s 6
  else if rd s CHG_STATUS_PHASE != 0 then chgResult s 5
  else if kind = 3 || !(stt == 2 || stt == 3) then chgResult s 8
  else if (chain && role s != 1) || (follow && role s != 2) then chgResult s 10
  else if chain && (kind != 0 || (slotOfTrail s (rd s CHG_CFG_TRAIL)).isNone) then chgResult s 11
  else match (if m = 2 || m = 3 then none else commitBudget s) with
    | some w => chgResult (setChk s w) 9
    | none =>
      let a := captured s kind follow chain
      let s := { s with chg := { s.chg with lead := rd s CHG_CONJ_LEAD_LEAD, trail := rd s CHG_CONJ_TRAIL_TRAIL } }
      if m = 2 || m = 3 then
        let s := arm s a kind
        let s := onlyIf chain (fun s => chainMessage s a) s
        handOverNow s a kind
      else if follow then arm s a kind
      else
        let r := armOrLate s a
        match r.1.chg.armed with
        | some b => onlyIf (r.2 && chain) (fun s => chainMessage s b) r.1
        | none => r.1

/-- A write of CHG_COMMIT with WITHDRAW = 1 (R249). DEDUCED (log 23). -/
def chgWithdraw (s : State) : State :=
  let p := rd s CHG_STATUS_PHASE
  if p = 1 then disarm s 12
  else if p != 0 || rd s CHG_STATUS_RESULT == crDone then chgResult s 13
  else s

/-- A write of CHG_COMMIT (Table 9-6): GO is ignored when WITHDRAW = 1. One that lands while a RECIPE_STAGE is writing the store is noted (R413). -/
def chgWrite (v : Nat) (s : State) : State :=
  let s := match s.mp.stage with
    | some g => { s with mp := { s.mp with stage := some { g with raced := true } } }
    | none => s
  if bitOf v 5 then chgWithdraw s else if bitOf v 0 then chgCommit v s else s

/-- Entry to DRAIN or HOLD withdraws a commit whose hand-over cycle has not come (Table 2-3, R252). -/
def modeWithdraw (s : State) : State := if rd s CHG_STATUS_PHASE = 1 then disarm s 14 else s

/-- A mark report of compass unit `u` reaches MOT (R251). DEDUCED (log 23). -/
def chgMark (s : State) (u : Nat) : State :=
  match s.chg.armed with
  | some a =>
    if a.kind = 1 && a.unit = u && !a.follow then { s with chg := { s.chg with armed := some { a with marks := a.marks - 1 } } } else s
  | none => s

/-- Whether the armed hand-over's condition is met now (R31, R251, R573). DEDUCED (log 23). -/
def handoverDue (s : State) (a : Armed) : Bool :=
  rd s CHG_STATUS_PHASE == 1 && !a.follow &&
    (if a.kind = 0 then decide (a.onTrail < 12) && posReached a.onNeg a.pos (posNow s a.onTrail)
     else if a.kind = 1 then a.marks == 0
     else decide (a.time ≤ domNow s a.dom))

/-- HANDOVER_CYCLE (R31): the hand-over happens when its condition is met. -/
def handoverCycle (s : State) : State :=
  match s.chg.armed with
  | some a => if handoverDue s a then handOverNow s a (rd s CHG_STATUS_ARMED_KIND) else s
  | none => s

/-- A step of domain `d` past the target of a time hand-over (R105). -/
def chgDomStep (s : State) (d : Nat) : State :=
  match s.chg.armed with
  | some a => if a.kind = 2 && a.dom = d then handoverCycle s else s
  | none => s

/-! The copy and the conjunction. -/

/-- The sequencer is IDLE again (Table 9-4): RESULT = DONE, channel 185. -/
def chgDone (s : State) : State :=
  laterOnce (later (chgResult (wr { s with chg := { s.chg with armed := none } } CHG_STATUS_PHASE 0) crDone) (.gyl 185 0)) .oldSlots

/-- The copy of cycles h to h + 3 completes (R253, Table 9-4): no conjunction opens for a commit taken in IDLE or ARMED (R51). -/
def shadowCopyComplete (s : State) : State :=
  if rd s CHG_STATUS_PHASE != 2 then s else
  let s := each s.chg.waiting (fun s p => if parKey ≤ p.1 then setParShadow s (p.1 - parKey) p.2 else setShadow s p.1 (BitVec.ofNat 64 p.2)) { s with chg := { s.chg with waiting := [] } }
  let m := mode s
  if !s.chg.conj then chgDone (mlkConjEnd (framesConjEnd s))
  else if m = 4 || m = 5 || m = 6 then
    let s := { s with modeCtl := { s.modeCtl with cameFrom := m } }
    modeEnter (wr s CHG_STATUS_PHASE 3) 7 mcConj
  else if m = 8 || m = 10 then wr s CHG_STATUS_PHASE 3
  else chgDone (mlkConjEnd (framesConjEnd s))

/-- The conjunction ends (R264): the sequencer is IDLE, and the mode returns to the one CHANGEOVER came from (Table 2-3). DEDUCED (log 23). -/
def conjEnd (s : State) : State :=
  let s := chgDone (mlkConjEnd (framesConjEnd s))
  if mode s = 7 then
    let m := s.modeCtl.cameFrom
    later (modeEnter s (if m = 6 && (lockUnits s).isEmpty then 5 else m) mcDone) .lockCheck
  else s

/-- CONJUNCTION_END (R264). -/
def conjunctionEnd (s : State) : State := if rd s CHG_STATUS_PHASE = 3 && conjDone s then conjEnd s else s

/-- Complete what a conjunction waits for: lead copies still waiting are handed on, each old cutter closes its open frame (R264). DEDUCED (log 23). -/
def conjForce (s : State) : State :=
  each (below 64 (fun st => (frm s st).conj.isSome)) (fun s st => checkStream (oldImageStop (oldCutStop (leadCopyComplete st s) st 2) st) st) s

/-- CONJUNCTION_LIMIT_EXPIRE (R264). -/
def conjunctionLimit (s : State) : State :=
  if rd s CHG_STATUS_PHASE = 3 && !conjDone s then conjEnd (wr (conjForce s) CHG_STATUS_CONJ_LIMIT 1) else s

/-- Leaving DRAIN or HOLD ends a conjunction that is still open. -/
def conjLeave (s : State) : State := if rd s CHG_STATUS_PHASE = 3 then conjEnd (conjForce s) else s

end Sys2Proof.Machine
end

