-- ==== Sys2Proof/Machine/Guyline.lean ====
section
/-! DEFINITION. The guyline core (15_guyline_events.md): channels, task inputs, merging and overruns, relays, owners and security. -/

namespace Sys2Proof.Machine

/-- Set a flag of the fabric; ALARM when it was clear (R436). -/
def gylFlag (s : State) (f : FRef) : State := if rdB s f then s else raise (wr s f 1) srcGylAlarm

/-- The task input that slot `k` of channel `c` is wired to (Table 15-3, Table 15-9). -/
def gylTask (c k : Nat) : Nat :=
  match k with
  | 0 => 98 | 1 => 96 | 2 => 99 | 3 => 97
  | 4 => 80 + c % 16 | 5 => 64 + c % 16 | 6 => c % 64 | _ => (c + 32) % 64

/-- The core accepts an event (R435), or drops it at hop count 7 (R430). Answers whether it was accepted. -/
def gylAccept (s : State) (c hop : Nat) : State × Bool :=
  if 7 ≤ hop then (gylFlag (addSat s GYL_CNT_LOOP_COUNT 1) (GYL_CH_STATUS_LOOP c), false)
  else
    let j := c / 32
    let seen := rd s (GYL_SEEN_SEEN j)
    let s := onlyIf (!bitOf seen (c % 32)) (fun s =>
      let s := wr s (GYL_SEEN_SEEN j) (Nat.lor seen (2 ^ (c % 32)))
      onlyIf (bitOf (rd s (GYL_IRQ_EN_EN j)) (c % 32)) (fun s => raise s (srcSeen j)) s) s
    (wr (addWrap s (GYL_CNT_COUNT c) 1) (GYL_CH_STATUS_LAST_HOP c) hop, true)

/-- The events of one arrival cycle that the core accepts, in order. -/
def gylAcceptAll : State → List (Nat × Nat) → State × List (Nat × Nat)
  | s, [] => (s, [])
  | s, e :: l =>
    let r := gylAccept s e.1 e.2
    let q := gylAcceptAll r.1 l
    (q.1, if r.2 then e :: q.2 else q.2)

/-- Whether a task input is busy (Table 15-2): a generator until the end of the pulse that FIRE caused, a relay until the cycle of its event, exclusive. DEDUCED (log 35). -/
def taskBusy (s : State) (t : Nat) : Bool :=
  let till := fun (x : Option Nat) => match x with | some e => decide (s.now < e) | none => false
  if 64 ≤ t ∧ t < 80 then (mget (none : Option Nat) s.gyl.tpg (t - 64)).isSome || till (tpg s (t - 64)).fireEnd
  else if 80 ≤ t ∧ t < 96 then till ((mget (none : Option (Nat × Nat)) s.gyl.relay (t - 80)).map (·.1))
  else if t = 99 then s.gyl.fwd.isSome
  else false

/-- A relay's event (R422, R429), when its delay is over. -/
def relayEnd (s : State) (r : Nat) : State :=
  match mget (none : Option (Nat × Nat)) s.gyl.relay r with
  | some (due, hop) => if s.now < due then s else later { s with gyl := { s.gyl with relay := mput none s.gyl.relay r none } } (.gyl (240 + r) (hop + 1))
  | none => s

/-- One activation of a task input (Table 15-2): the lowest channel of its events, their largest hop count, their number. DEDUCED (log 35). -/
def taskRun (s : State) (t c hop n : Nat) : State :=
  if t < 64 then stakeRearm t s
  else if t < 80 then
    if enabled s (tpgEn (t - 64)) && !rdB s (TPG_CFG_PERIODIC (t - 64)) then
      { s with gyl := { s.gyl with tpg := mput none s.gyl.tpg (t - 64) (some hop) } }
    else s
  else if t < 96 then
    let s := relayEnd s (t - 80)
    { s with gyl := { s.gyl with relay := mput none s.gyl.relay (t - 80) (some (2 * (s.now / 2 + rd s (GYL_RLY_DELAY_DELAY (t - 80)) + 1), hop)) } }
  else if t = 97 then chgWrite (rd s GYL_CHG_WORD_WORD) s
  else if t = 96 ∨ t = 98 then { s with due := s.due ++ [.task t (s.now / 2) c hop n] }
  else
    let dir := rd s (GYL_CH_CFG_TTH_DIR c)
    if dir = 0 then s else { s with gyl := { s.gyl with fwd := some (rd s (GYL_CH_CFG_TTH_SLOT c), dir, hop + 1) } }

/-- An MGT task acts (Table 15-2): MODE.HOLD with the channel as its index, or REC.LOG's record. -/
def mgtTask (s : State) (t c hop n : Nat) : State :=
  if t = 96 then later s (.hold 2 c false)
  else record s rpMp 0x07 svInfo 0x2001 (leBytes 1 c ++ leBytes 1 hop ++ leBytes 4 (rd s (GYL_CNT_COUNT c)) ++ leBytes 1 (min 255 n))

/-- Further events of the cycle join an activation (R427): its hop count is the largest of all, its channel the lowest. DEDUCED (log 35). -/
def taskMerge (s : State) (t c hop n : Nat) : State :=
  if 64 ≤ t ∧ t < 80 then
    match mget (none : Option Nat) s.gyl.tpg (t - 64) with
    | some h => { s with gyl := { s.gyl with tpg := mput none s.gyl.tpg (t - 64) (some (max h hop)) } }
    | none => s
  else if 80 ≤ t ∧ t < 96 then
    match mget (none : Option (Nat × Nat)) s.gyl.relay (t - 80) with
    | some (due, h) => { s with gyl := { s.gyl with relay := mput none s.gyl.relay (t - 80) (some (due, max h hop)) } }
    | none => s
  else if t = 99 then
    match s.gyl.fwd with
    | some (k, d, h) => { s with gyl := { s.gyl with fwd := some (k, d, max h (hop + 1)) } }
    | none => s
  else
    let join := fun (d : DueWork) => match d with
      | .task t' m c' h k => if t' = t ∧ m = s.now / 2 then .task t m (min c' c) (max h hop) (k + n) else d
      | d => d
    { s with due := s.due.map join }

/-- The least time an event needs from the core into a task's island, in ps, and how much longer it may take (Table 15-4): none for MOT tasks. -/
def taskCross (t : Nat) : Option (Nat × Nat) :=
  if 64 ≤ t ∧ t < 80 then some (1000, 1000) else if t = 96 ∨ t = 98 then some (1250, 1250) else if t = 99 then some (6200, 6200) else none

/-- An activation fills the buffer of its crossing for the time that the crossing takes (R426); how long, within Table 15-4, is a free value. DEDUCED (log 35). -/
def taskFill (s : State) (t : Nat) : State :=
  match taskCross t with
  | none => s
  | some (lo, more) =>
    let x := mget ({} : TaskIn) s.gyl.ins t
    freeNext { s with gyl := { s.gyl with ins := mput {} s.gyl.ins t { x with full := 2000 * (s.now / 2) + lo + freeNat s % (more + 1) } } }

/-- Events that the core handles in one MOT cycle at one task input (R426 to R428): merged into one activation, also with those of an earlier command in that cycle, or dropped where the crossing's buffer
is full or the task busy. DEDUCED (log 35). -/
def taskEvents (s : State) (t : Nat) (evs : List (Nat × Nat)) : State :=
  match evs with
  | [] => s
  | e :: l =>
    let x := mget ({} : TaskIn) s.gyl.ins t
    let same := x.cycle == s.now / 2 + 1
    let merged := same || !l.isEmpty
    let hop := l.foldl (fun m x => max m x.2) e.2
    let busy := decide (2000 * (s.now / 2) < x.full) || taskBusy s t
    let s := onlyIf (merged && !(same && x.merged)) (fun s => gylFlag (addSat s (GYL_TASK_CNT_MERGES t) 1) (GYL_TASK_STATUS_MERGED t)) s
    let s := { s with gyl := { s.gyl with ins := mput {} s.gyl.ins t { x with cycle := s.now / 2 + 1, merged := merged, ran := if same then x.ran else !busy } } }
    let c := l.foldl (fun m x => min m x.1) e.1
    if same then onlyIf x.ran (fun s => taskMerge s t c hop evs.length) s
    else if busy then gylFlag (addSat s (GYL_TASK_STATUS_OVR_CNT t) 1) (GYL_TASK_STATUS_OVERRUN t)
    else taskRun (addWrap (taskFill s t) (GYL_TASK_CNT_ACT t) 1) t c hop evs.length

/-- The enables that hold for events of the present MOT cycle (R425): those from before its writes. -/
def enNow (s : State) (c : Nat) : Nat :=
  let w := mget ((0, 0) : Nat × Nat) s.gyl.enWas c
  if w.1 = s.now / 2 + 1 then w.2 else rd s (GYL_CH_EN_EN c)

/-- The enabled task inputs that an event reaches. DEDUCED (log 35). -/
def taskInputs (s : State) (e : Nat × Nat) : List (Nat × (Nat × Nat)) :=
  (below 8 (bitOf (enNow s e.1))).map (fun k => (gylTask e.1 k, e))

/-- One arrival cycle (R424): the events it brings, as (channel, hop count). DEDUCED (log 35). -/
def gylCycle (s : State) (evs : List (Nat × Nat)) : State :=
  let r := gylAcceptAll s evs
  let ins := r.2.flatMap (taskInputs r.1)
  each (below 100 (fun t => ins.any (fun x => x.1 == t))) (fun s t => taskEvents s t ((ins.filter (fun x => x.1 == t)).map (·.2))) r.1

/-- GUYLINE_EVENT: an event arrives at the core (R424). -/
def guylineEvent (c hop : Nat) (s : State) : State := later s (.gyl c hop)

/-- RELAY_EXPIRE: a relay's delay ends and it produces its event (R422, R428, R429); before that, nothing. DEDUCED (log 35). -/
def relayExpire (r : Nat) (s : State) : State := relayEnd s r

/-! Owners and security (R432 to R434). -/

/-- The enables of a channel take a value, from the next MOT cycle on (R425). -/
def enPut (s : State) (c v : Nat) : State :=
  wr { s with gyl := { s.gyl with enWas := mput (0, 0) s.gyl.enWas c (s.now / 2 + 1, enNow s c) } } (GYL_CH_EN_EN c) v

/-- Set a channel's enables by its owner: slots 1 and 3 of an OPEN channel stay 0, with SEC_ERR (R434). DEDUCED (log 35). -/
def gylSetEn (s : State) (c v : Nat) : State :=
  if !rdB s (GYL_CH_CFG_SEC c) && (bitOf v 1 || bitOf v 3) then
    gylFlag (enPut s c (v % 256 - Nat.land (v % 256) 10)) (GYL_CH_STATUS_SEC_ERR c)
  else enPut s c v

/-- The enables that Lantern holds of its channels (R432, R438) lose bits. -/
def lanEnDrop (s : State) (c bits : Nat) : State :=
  if 208 ≤ c ∧ c < 240 then
    let v := mget 0 s.lan.chanEn (c - 208)
    { s with lan := { s.lan with chanEn := mput 0 s.lan.chanEn (c - 208) (v - Nat.land v bits) } }
  else s

/-- GYL_CH_EN_WRITE: a write of a channel's enables by `owner` (R425, R432); a BAR0 write to a channel HOST does not own sets OWN_ERR. DEDUCED (log 35). -/
def gylChEnWrite (owner c v : Nat) (s : State) : State :=
  if rd s (GYL_CH_CFG_OWNER c) = owner then
    let s := gylSetEn s c v
    if owner = 2 && decide (208 ≤ c) && decide (c < 240) then
      { s with lan := { s.lan with chanEn := mput 0 s.lan.chanEn (c - 208) (rd s (GYL_CH_EN_EN c)) } }
    else s
  else if owner = 0 then gylFlag s (GYL_CH_STATUS_OWN_ERR c)
  else s

/-- A BAR0 write of GYL_CH_CFG (R432, Table 15-6). DEDUCED (log 35). -/
def gylCfgWrite (c v : Nat) (s : State) : State :=
  if rd s (GYL_CH_CFG_OWNER c) = 0 then wr (wr s (GYL_CH_CFG_TTH_SLOT c) (bitsOf v 7 4)) (GYL_CH_CFG_TTH_DIR c) (bitsOf v 9 8)
  else gylFlag s (GYL_CH_STATUS_OWN_ERR c)

/-- Dictionary parameter 0x0700 + c (R433): owner, security, and the enables of an MP channel; the enables that Lantern holds follow. -/
def gylParam (s : State) (c v : Nat) : State :=
  let owner := bitsOf v 1 0
  let s := onlyIf (owner != rd s (GYL_CH_CFG_OWNER c)) (fun s => enPut (lanEnDrop s c 255) c 0) s
  let s := onlyIf (rdB s (GYL_CH_CFG_SEC c) && !bitOf v 2) (fun s => enPut (lanEnDrop s c 10) c (rd s (GYL_CH_EN_EN c) - Nat.land (rd s (GYL_CH_EN_EN c)) 10)) s
  let s := wr (wr s (GYL_CH_CFG_OWNER c) owner) (GYL_CH_CFG_SEC c) (bitsOf v 2 2)
  if owner = 1 then gylSetEn s c (bitsOf v 15 8) else s

end Sys2Proof.Machine
end

