-- ==== Sys2Proof/Machine/Modes.lean ====
section
/-! DEFINITION. Mode requests, stopping at the frame boundary, DRAIN and HOLD (02_operating_modes.md). -/

namespace Sys2Proof.Machine

/-! Stopping (R44 to R47, R571). -/

/-- Triggering begins to stop (R44): a commit not carried out yet is withdrawn, every running stream finishes its frame, stakes that feed none are held. -/
def beginStop (s : State) : State :=
  let s := modeWithdraw s
  let acq := acquiring s
  let s := { s with modeCtl := { s.modeCtl with trig := (if acq then actingMode s else s.modeCtl.trig), stopped := false } }
  onlyIf acq (fun s => stakesStop (each (runningStreams s) streamFinish s)) s

/-- Whether triggering has stopped (R571): every enabled stream has, every enabled stake is HELD; a generator ceases with the last stream it samples. DEDUCED (log 14). -/
def stopMet (s : State) : Bool :=
  (runningStreams s).all (streamStopped s) && (List.range 64).all (fun n => !enabled s (stkEn n) || rd s (STK_STATUS_WALK n) == 0)

/-- The stop (R571, R47): in HOLD every TRG and DIV pin goes to its safe level. DEDUCED (log 14). -/
def stopNow (s : State) : State :=
  let s := { s with modeCtl := { s.modeCtl with stopped := true } }
  if mode s = 10 then dividersHold s else s

/-- STOP_REACHED (R571). -/
def stopReached (s : State) : State :=
  if (mode s = 8 || mode s = 10) && !s.modeCtl.stopped && stopMet s then stopNow s else s

/-- Streams that stop triggering let the stakes that fed them be held (R140). -/
def stakesCheck (s : State) : State := if (mode s = 8 || mode s = 10) && !s.modeCtl.stopped then stakesStop s else s

/-! HOLD. -/

/-- A request of HOLD (Table 2-3, R47): from IDLE to CALIBRATE the device enters HOLD with MODE_CAUSE set; a running calibration is aborted (R410). `disable` names the window whose unit
may be disabled after the flush. DEDUCED (log 14). -/
def enterHold (s : State) (src idx : Nat) (disable : Bool) : State :=
  let was := mode s
  if was < 2 || 9 < was then s else
  let halted := was == 2 || was == 3 || was == 9 || (was == 8 && s.modeCtl.stopped)
  let s := wr (wr (wr s MODE_CAUSE_SOURCE src) MODE_CAUSE_INDEX idx) MODE_CAUSE_STICKY 1
  let s := beginStop s
  let s := { s with modeCtl := { s.modeCtl with disableUnit := (if disable && src = 1 then some idx else none) } }
  let s := modeEnter s 10 (src + 256 * idx + 65536)
  let s := later s (.gyl 186 0)
  let s := onlyIf (was == 9) (fun s => later s .calAbort) s
  onlyIf halted stopNow s

/-! Entering and leaving acquisition. -/

/-- An acquisition mode is entered from ARMED (R43, Table 2-3): streams start afresh, stakes seek, channel 187. A request for LOCK enters TRACK with LOCK as the target. -/
def enterAcq (s : State) (m cause : Nat) : State :=
  let fromArmed := mode s == 3
  let s := { s with modeCtl := { s.modeCtl with lockTarget := m == 6, stopped := false, streamsStopped := [], trig := 0 } }
  let s := modeEnter s (if m = 6 then 5 else m) cause
  let s := each (runningStreams s) streamStart s
  later (onlyIf fromArmed (fun s => later s (.gyl 187 0)) (stakesStart s)) .lockCheck

/-- DRAIN is entered from an acquisition mode (Table 2-3). DEDUCED (log 14). -/
def enterDrain (s : State) (cause : Nat) : State := later (modeEnter (beginStop s) 8 cause) (.gyl 188 0)

/-- The way out of DRAIN and HOLD: what still triggers is cut short, a conjunction still open ends, stakes are held. DEDUCED (log 14). -/
def leaveStop (s : State) : State :=
  let s := each ((runningStreams s).filter (fun st => (frm s st).finishing && (!cutsStopped s st || (frm s st).image.isSome))) streamCutShort s
  let s := stakesHold (conjLeave s)
  { s with modeCtl := { s.modeCtl with stopped := true, disableUnit := none } }

/-- ARMED is entered at the end of DRAIN (R48). -/
def drainEnd (s : State) (cause : Nat) : State := later (modeEnter (leaveStop s) 3 cause) (.gyl 189 0)

/-- Whether every frame triggered before the stop has been delivered or discarded (R48). DEDUCED (log 14). -/
def drained (s : State) : Bool :=
  (List.range 64).all (fun st =>
    let x := frm s st
    x.frames.isEmpty && x.slots.all (fun p => p.2.released) && (strS s st).lines.isEmpty &&
      (rdB s (CAM_STR_BIND_LINE st) || (strS s st).samples.isEmpty))

/-- DRAIN_COMPLETE (R48). -/
def drainComplete (s : State) : State :=
  if mode s = 8 && s.modeCtl.stopped && drained s then drainEnd s mcDone else s

/-- Items of a camp's FIFO that come from frames are dropped at DRAIN_TIMEOUT: they have not been handed to delivery (R48, R287, R321). Each frame counts once, and the next one carries ELLIPSIS_BEFORE. DEDUCED (log 14). -/
def dropCampItems (s : State) (c : Nat) : State :=
  let l := mget ([] : List Offer) s.dlv.camp c
  let s := { s with dlv := { s.dlv with camp := mput [] s.dlv.camp c [] } }
  let firsts := l.zipIdx.filter (fun p => p.1.kind != 3 && !((l.take p.2).any (fun o => o.kind != 3 && o.st == p.1.st && o.seq == p.1.seq)))
  let s := each firsts (fun s p =>
    let o := p.1
    let s := record (wr (addSat s (PXE_CNT_DROP_COUNT o.st) 1) (PXE_STR_STATUS_DROP o.st) 1) rpData 0x0F svError 0x4003 (leBytes 1 o.st ++ leBytes 1 0 ++ leBytes 6 o.seq)
    raise (setFrm s o.st { frm s o.st with ellNext := true }) (srcEngine (streamEngine s o.st))) s
  each l releaseItem s

/-- Queues that hold an admitted item of a frame, not yet wholly written (R48). -/
def affectedQueues (s : State) : List Nat :=
  (liveQueues s).filterMap (fun p =>
    if p.2.ents.any (fun e => match e with | .item o _ _ _ => o.from_.isSome | _ => false) then some p.1 else none)

/-- What a stream still holds is dropped at DRAIN_TIMEOUT: its lines and samples, an open area image, closed short, and its frames (R48). DEDUCED (log 14). -/
def dropStream (s : State) (st : Nat) : State :=
  let s := setStr s st { strS s st with lines := [], samples := [] }
  let s := match (frm s st).image with
    | some id => closeFrame (setFrm s st { frm s st with image := none }) st id flShort
    | none => s
  each (frm s st).frames (fun s f => campDrop s st f.id 0) s

/-- DRAIN_TIMEOUT (R48). DEDUCED (log 14). -/
def drainTimeout (s : State) : State :=
  if mode s = 8 && s.modeCtl.stopped && !drained s then
    let s := each (List.range 64) dropStream s
    let s := each (List.range 16) dropCampItems s
    let s := each (affectedQueues s) (fun s q => flushQueue q s) s
    drainEnd (modeRefuse s 9) mcDrainTimeout
  else s

/-! Requests (R50, R52, R55). -/

/-- Whether some recipe slot is ACTIVE (Table 9-2). -/
def haveRecipe (s : State) : Bool := (List.range 64).any (fun k => rd s (CHG_RCP_STATE_STATE k) == 4)

/-- Whether every lane bound by a stream whose CAM_STR_EN is not DISABLED is UP (Table 2-3). -/
def lanesUp (s : State) : Bool :=
  (List.range 64).all (fun st => enState s (camStrEn st) == 0 || rdB s (CAM_LANE_STATUS_UP (rd s (CAM_STR_BIND_LANE st) % 32)))

/-- The refusal of a request for ARMED, where its row matches; 0 for none. -/
def armedRefusal (s : State) : Nat := if !haveRecipe s then 4 else if !lanesUp s then 5 else 0

/-- CALIBRATE is entered from IDLE or ARMED; its lane routine begins with test packets on the CoaXPress uplinks (Table 6-3). DEDUCED (log 13). -/
def enterCalibrate (s : State) (cause : Nat) (lanes : Bool) : State :=
  onlyIf lanes cxpTests (modeEnter { s with modeCtl := { s.modeCtl with cameFrom := mode s }, tth := { s.tth with calLost := false } } 9 cause)

/-- A routine of CALIBRATE has ended: back to the mode it came from (Table 2-3). DEDUCED (log 13). -/
def leaveCalibrate (s : State) : State := if mode s = 9 then modeEnter s s.modeCtl.cameFrom mcDone else s

/-- The refusal code of a request that reaches Table 2-3, in the order of R50; 0 where the request is granted. A worker's local request for the mode it is in is accepted (R52), though R55
refuses its requests for FREERUN, TRACK and LOCK: R50's order does not place the present mode. DESIGN CHOICE (log 13). DEDUCED (log 13). -/
def requestRefusal (s : State) (req : Nat) : Nat :=
  let m := mode s
  if req = 11 then 7
  else if rdB s MODE_STATUS_TRANSITION && req != 10 then 2
  else if req = m then 0
  else if role s = 2 && (req = 4 || req = 5 || req = 6) then 3
  else if req = 10 then (if 2 ≤ m ∧ m ≤ 9 then 0 else 1)
  else if m = 2 then (if req = 3 then armedRefusal s else if req = 9 then 0 else 1)
  else if m = 3 then (if req = 2 || req = 4 || req = 5 || req = 6 || req = 9 then 0 else 1)
  else if acquiring s then (if req = 3 then 0 else 1)
  else if m = 10 then
    (if req = 2 then (if rdB s MODE_CAUSE_STICKY then 6 else 0)
     else if req = 3 then (if rdB s MODE_CAUSE_STICKY then 6 else armedRefusal s)
     else 1)
  else 1

/-- A request for the present mode (R52): TARGET is set to it, nothing else. DEDUCED (log 13). -/
def targetIsMode (s : State) : State :=
  laterOnce (wr { s with modeCtl := { s.modeCtl with lockTarget := s.modeCtl.lockTarget && mode s != 5 } } MODE_STATUS_TARGET (mode s)) .heartbeat

/-- A granted request for another mode (Table 2-3). DEDUCED (log 13). -/
def modeGrant (req : Nat) (s : State) : State :=
  let m := mode s
  if req = 10 then enterHold s 0 0 false
  else if req = 9 then enterCalibrate s mcRequest true
  else if req = 4 || req = 5 || req = 6 then enterAcq s req mcRequest
  else if acquiring s then enterDrain s mcRequest
  else if m = 10 then modeEnter (leaveStop s) req mcRequest
  else modeEnter s req mcRequest

/-- MODE_REQUEST: a write of MODE_REQ.REQ (R50, R52, R55). DEDUCED (log 13). -/
def modeRequest (req : Nat) (s : State) : State :=
  let r := requestRefusal s req
  if r != 0 then modeRefuse s r
  else if req = mode s then targetIsMode s
  else modeGrant req s

/-! Mark lock and the mode (R237, Table 2-3). -/

/-- TRACK with LOCK as the target becomes LOCK when every enabled unit is locked; LOCK becomes TRACK when one counts as unlocked. -/
def lockCheck (s : State) : State :=
  if mode s = 5 && s.modeCtl.lockTarget && lockMet s && !lockLost s then modeEnter s 6 mcLock
  else if mode s = 6 && lockLost s then modeEnter s 5 mcLock
  else s

/-- A compass unit's enable has left ENABLED: LOCK becomes TRACK (R237, Table 8-1), and the units that are left are judged. -/
def lockDrop (s : State) : State := later (if mode s = 6 then modeEnter s 5 mcLock else s) .lockCheck

end Sys2Proof.Machine
end

