-- ==== Sys2Proof/Machine/Recorder.lean ====
section
/-! DEFINITION. The event recorder (18_event_recorder.md): accepting records, the ring, flushes, the MRAM areas, the window and its cursor. -/

namespace Sys2Proof.Machine

/-! A record as bytes. -/

/-- The 64 bytes of a record with a CRC field (Table 18-1). -/
def recImage (r : Rec) (crc : Nat) : List Byte :=
  leBytes 8 r.duc ++ leBytes 8 r.ts ++ leBytes 1 r.source ++ leBytes 1 (r.sev % 8 + 8 * b2n r.d0Valid + 16 * b2n r.byLantern) ++ leBytes 2 r.code ++
    leBytes 2 r.rep ++ leBytes 2 crc ++ leBytes 4 r.seq ++ leBytes 4 r.lastDt ++ padTo 32 r.payload

/-- The 64 bytes of a record, with its CRC (R494, R495). -/
def recordBytes (r : Rec) : List Byte := recImage r (crc16 (recImage r 0))

/-! Indices: 32 bits, compared modulo 2^32 (R496, R510). -/

/-- Distance from index `a` to index `b`. -/
def idxDist (a b : Nat) : Nat := (b + 2 ^ 32 - a % 2 ^ 32) % 2 ^ 32

/-- Whether index `a` lies before index `b`. -/
def idxBefore (a b : Nat) : Bool := decide (0 < idxDist a b) && decide (idxDist a b ≤ 2 ^ 31)

/-- Show the levels of the ring and the latch (Table 18-7). -/
def recShow (s : State) : State :=
  wr (wr s REC_RING_LEVEL_UNFLUSHED (countIf (fun x => x.circ.isNone) s.rcd.ring)) REC_RING_LEVEL_LATCH s.rcd.latch.length

/-- Set a sticky bit of REC_STATUS; ALARM when it was clear. -/
def recFlag (s : State) (f : FRef) : State := if rdB s f then s else raise (wr s f 1) srcRecAlarm

/-! Areas and the cursor (R512 to R515). -/

/-- The selected area: 0 first, 1 circulating, 2 ring. -/
def recArea (s : State) : Nat := if rd s REC_CFG_AREA = 3 then 1 else rd s REC_CFG_AREA

/-- The index of an area's oldest record, and of its newest plus one. -/
def areaBounds (s : State) (area : Nat) : Nat × Nat :=
  if area = 0 then (0, s.rcd.first.length)
  else if area = 1 then (rd s REC_CIRC_OLDEST_OLDEST, (rd s REC_CIRC_NEWEST_NEWEST + 1) % 2 ^ 32)
  else match s.rcd.ring with
    | [] => (rd s REC_SEQ_SEQ, rd s REC_SEQ_SEQ)
    | x :: _ => (x.r.seq, rd s REC_SEQ_SEQ)

/-- A record of an area by its index: `none` where none exists, `some none` where the slot's record fails R495. -/
def areaRec (s : State) (area i : Nat) : Option (Option Rec) :=
  if area = 0 then (s.rcd.first[i]?).map some
  else if area = 1 then
    if s.rcd.badCirc.contains i then some none else (mget none s.rcd.circ i).map some
  else (s.rcd.ring.find? (fun x => x.r.seq == i)).map (fun x => some x.r)

/-- The oldest surviving record passes CURSOR (R514). -/
def cursorFix (s : State) : State :=
  let o := (areaBounds s (recArea s)).1
  let c := rd s REC_CURSOR_CURSOR
  if recArea s != 0 && idxBefore c o then recFlag (wr (wr s REC_CURSOR_CURSOR o) REC_GAP_GAP (idxDist c o)) REC_STATUS_CURSOR_LOST else s

/-- The marked record has been overwritten (R515). -/
def markFix (s : State) : State :=
  if rdB s REC_STATUS_MARK_VALID && idxBefore (rd s REC_MARK_MARK) (rd s REC_CIRC_OLDEST_OLDEST) then
    recFlag { wr s REC_STATUS_MARK_VALID 0 with rcd := { s.rcd with markLost := true } } REC_STATUS_MARK_LOST
  else s

/-- The index that slot `k` of the window shows (R512). -/
def windowIdx (s : State) (k : Nat) : Nat :=
  let c := rd s REC_CURSOR_CURSOR
  (c + (k + 16 - c % 16) % 16) % 2 ^ 32

/-- The 64 bytes slot `k` of the window shows (R512): all 0 where no record exists; free values where the record fails R495. -/
def windowSlot (s : State) (k : Nat) : List Byte :=
  match areaRec s (recArea s) (windowIdx s k) with
  | none => List.replicate 64 0
  | some (some r) => recordBytes r
  | some none => (List.range 16).flatMap (fun i => leBytes 4 (Config.undefinedWord (windowIdx s k) (0x160400 + 4 * i)).toNat)

/-- REC_WIN_STATUS as it reads (R512). -/
def windowStatus (s : State) : Nat :=
  (List.range 16).foldl (fun a k =>
    match areaRec s (recArea s) (windowIdx s k) with
    | none => a
    | some (some _) => a + 2 ^ k
    | some none => a + 2 ^ k + 2 ^ (16 + k)) 0

/-- All bytes of the window. DEDUCED (log 39). -/
def windowBytes (s : State) : List Byte := (List.range 16).flatMap (windowSlot s)

/-- Advance CURSOR past records whose last DW a read of bytes `a` to `b` of the window includes (R513). The first argument bounds the records. DEDUCED (log 39). -/
def cursorAdvance : Nat → State → Nat → Nat → State
  | 0, s, _, _ => s
  | n + 1, s, a, b =>
    let c := rd s REC_CURSOR_CURSOR
    let lastDw := 64 * (c % 16) + 60
    if a ≤ lastDw + 3 && lastDw < b && decide (idxDist c (areaBounds s (recArea s)).2 ≠ 0) && idxBefore c (areaBounds s (recArea s)).2 then
      cursorAdvance n (wr s REC_CURSOR_CURSOR ((c + 1) % 2 ^ 32)) a b
    else s

/-- REC_WINDOW_READ (R512, R513): the bytes are returned, and the cursor moves. -/
def recWindowRead (off len : Nat) (s : State) : State :=
  let n := min len (1024 - off)
  cursorAdvance 16 (send s (.completion .ok (((windowBytes s).drop off).take n))) off (off + n)

/-- REC_CFG_WRITE (R513): another AREA sets CURSOR to its oldest record and clears REC_GAP. -/
def recCfgWrite (v : Nat) (s : State) : State :=
  let was := recArea s
  let s := wr s REC_CFG_AREA (bitsOf v 1 0)
  if recArea s = was then s else wr (wr s REC_CURSOR_CURSOR (areaBounds s (recArea s)).1) REC_GAP_GAP 0

/-- REC_CURSOR_WRITE: limited to the area's oldest record and its newest plus one (Table 18-7). DEDUCED (log 39). -/
def recCursorWrite (v : Nat) (s : State) : State :=
  let b := areaBounds s (recArea s)
  let v := v % 2 ^ 32
  wr s REC_CURSOR_CURSOR (if idxDist b.1 v ≤ idxDist b.1 b.2 then v else if idxBefore v b.1 then b.1 else b.2)

/-- REC_MARK_WRITE (R515). -/
def recMarkWrite (v : Nat) (s : State) : State :=
  markFix { wr (wr s REC_MARK_MARK v) REC_STATUS_MARK_VALID 1 with rcd := { s.rcd with markLost := false } }

/-- REC_CTRL_REWIND (R515). -/
def recRewind (s : State) : State :=
  if recArea s != 1 then s
  else if rdB s REC_STATUS_MARK_VALID then wr s REC_CURSOR_CURSOR (rd s REC_MARK_MARK)
  else if s.rcd.markLost then
    let o := rd s REC_CIRC_OLDEST_OLDEST
    wr (wr s REC_CURSOR_CURSOR o) REC_GAP_GAP (idxDist (rd s REC_MARK_MARK) o)
  else s

/-! MRAM (R505, R508 to R510). -/

/-- The circulating area moves on by one index, without or with a record in the slot. -/
def circNext (s : State) (r : Option Rec) : State :=
  let c := s.rcd.nextC
  let gone := (c + 2 ^ 32 - 32768) % 2 ^ 32
  let bad := s.rcd.badCirc.filter (· != gone)
  let s := { s with rcd := { s.rcd with circ := mput none (mput none s.rcd.circ gone none) c r
                                        badCirc := if r.isNone then c :: bad else bad, nextC := (c + 1) % 2 ^ 32 } }
  let s := wr s REC_CIRC_NEWEST_NEWEST c
  let s := if 32768 ≤ idxDist (rd s REC_CIRC_OLDEST_OLDEST) c then wr s REC_CIRC_OLDEST_OLDEST ((gone + 1) % 2 ^ 32) else s
  markFix (if recArea s = 1 then cursorFix s else s)

/-- Slots that fail verification are skipped (R505). DEDUCED (log 39). -/
def mramSkip (s : State) (fails : Nat) : State :=
  onlyIf (fails != 0) (fun s => recFlag (each (List.range fails) (fun s _ => circNext s none) s) REC_STATUS_MRAM_ERR) s

/-- A record is written to the first area while that has room (R509): the first 2 048 records of the device's life. -/
def firstStore (s : State) (r : Rec) : State :=
  if s.rcd.first.length < 2048 then
    let s := { s with rcd := { s.rcd with first := s.rcd.first ++ [r] } }
    wr (wr s REC_FIRST_USED_USED s.rcd.first.length) REC_STATUS_FIRST_FULL (b2n (s.rcd.first.length == 2048))
  else s

/-- Write a record to MRAM (R505, R509, R510), to the next slot that holds it. DEDUCED (log 39). -/
def mramAppend (s : State) (r : Rec) (fails : Nat) : State := firstStore (addWrap (circNext (mramSkip s fails) (some r)) REC_TOTAL_TOTAL 1) r

/-- The index at which that record stands. -/
def mramIndex (s : State) (fails : Nat) : Nat := (mramSkip s fails).rcd.nextC

/-- A record Lantern writes directly to the circulating area. -/
def lanternDirect (s : State) (code : Nat) (payload : List Byte) : State :=
  let q := lanternRec s (mkRec 0x13 svNotice code payload)
  mramAppend q.2 q.1 0

/-! Flushes (R503 to R506). -/

/-- A flush starts: it will write every unflushed record and rewrite every grown copy, oldest first (R504). DEDUCED (log 39). -/
def flushStart (s : State) : State :=
  let todo := (s.rcd.ring.filter (fun x => x.circ.isNone || x.grown)).map (fun x => x.r.seq)
  wr { s with rcd := { s.rcd with flush := some { todo := todo, start := ducNow s } } } REC_STATUS_FLUSHING 1

/-- A flush is triggered (Table 18-5): it starts, or one further flush is queued (R504). -/
def flushTrigger (s : State) : State :=
  if s.rcd.flush.isSome then wr s REC_STATUS_FLUSH_PEND 1 else flushStart s

/-- Whether the copy that a grown record would rewrite no longer stands in the circulating area. -/
def copyGone (s : State) (x : RingRec) : Bool :=
  match x.circ with
  | some c => (mget none s.rcd.circ c).isNone
  | none => false

/-- A grown record's copy is rewritten in its slot (R504), or where that slot fails, in the next one that holds it (R505). DEDUCED (log 39). -/
def copyRewrite (s : State) (r : Rec) (c fails : Nat) : State × Nat :=
  if fails = 0 then ({ s with rcd := { s.rcd with circ := mput none s.rcd.circ c (some r) } }, c)
  else
    let s := recFlag { s with rcd := { s.rcd with circ := mput none s.rcd.circ c none, badCirc := c :: s.rcd.badCirc } } REC_STATUS_MRAM_ERR
    (mramAppend s r (fails - 1), mramIndex s (fails - 1))

/-- One record of the ring as the flush writes it: whole, or again where its copy stands and has grown. DEDUCED (log 39). -/
def flushOne (s : State) (seq fails : Nat) : State :=
  match s.rcd.ring.find? (fun x => x.r.seq == seq) with
  | none => s
  | some x =>
    let y : State × Option Nat := match x.circ with
      | none => (mramAppend s x.r fails, some (mramIndex s fails))
      | some c => if copyGone s x then (s, x.circ) else let y := copyRewrite s x.r c fails; (y.1, some y.2)
    let s := y.1
    { s with rcd := { s.rcd with ring := s.rcd.ring.map (fun z => if z.r.seq = seq then { z with circ := y.2, grown := false } else z) } }

/-- A record of the ring whose read shows an uncorrectable error is discarded and counted as a dropped one (Table 19-5, R500). DEDUCED (log 39). -/
def ringDiscard (s : State) (seq : Nat) : State :=
  match s.rcd.ring.find? (fun x => x.r.seq == seq) with
  | none => s
  | some x =>
    let s := dropRec { s with rcd := { s.rcd with ring := s.rcd.ring.filter (fun y => y.r.seq != seq) } } x.r.rep
    if recArea s = 2 then cursorFix s else s

/-- The flush's next record is read from the ring and written (R505, R526). -/
def flushNext (s : State) (f : Flush) (q : Nat) (rest : List Nat) (fails : Nat) (x : MemEcc) : State :=
  let one := b2n (s.rcd.ring.any (fun x => x.r.seq == q && !copyGone s x))
  let written := fun (s : State) => flushOne { s with rcd := { s.rcd with flush := some { f with todo := rest, written := f.written + one } } } q fails
  match x with
  | .none => written s
  | .corrected => eccCorrected (written s) 6 0
  | .uncorrectable a => eccUncorrectable (ringDiscard { s with rcd := { s.rcd with flush := some { f with todo := rest } } } q) 6 0 a.toNat

/-- MRAM_RECORD_WRITE (R505): the controller writes and verifies one record, Lantern's first, then the flush's next; `fails` slots fail verification before one holds it, and `x` is what the read
of the ring shows. -/
def mramRecordWrite (fails : Nat) (x : MemEcc) (s : State) : State :=
  match s.lan.log, s.rcd.flush with
  | r :: l, _ => mramAppend { s with lan := { s.lan with log := l } } r fails
  | [], some f =>
    match f.todo with
    | [] => s
    | q :: rest => recShow (flushNext s f q rest fails x)
  | [], none => s

/-- Whether a HOLD entry's MODE_CHANGE record still waits to reach MRAM (R47). -/
def holdUnflushed (s : State) : Bool :=
  let is := fun (r : Rec) => r.code == 0x0010
  s.rcd.ports.any (fun p => is p.2.r) || s.rcd.latch.any (fun w => is w.r) || s.rcd.ring.any (fun x => is x.r && x.circ.isNone)

/-! Accepting (R499 to R502). -/

/-- Whether the ring has a place for a new record: a record that the running flush has not written is not overwritten (R504). -/
def ringRoom (s : State) : Bool :=
  decide (s.rcd.ring.length < 4096) ||
    (match s.rcd.ring, s.rcd.flush with
     | x :: _, some f => !f.todo.contains x.r.seq
     | _, _ => true)

/-- The oldest record of a full ring gives its place to a new one (R502). -/
def ringFree (s : State) : State :=
  match s.rcd.ring with
  | x :: rest => if 4096 ≤ s.rcd.ring.length then
      onlyIf x.circ.isNone (fun s => addSat s REC_CNT_OVERWRITTEN_COUNT 1) { s with rcd := { s.rcd with ring := rest } } else s
  | [] => s

/-- A record enters the ring. -/
def ringAdd (s : State) (x : RingRec) : State :=
  let s := ringFree s
  let s := { s with rcd := { s.rcd with ring := s.rcd.ring ++ [x] } }
  if recArea s = 2 then cursorFix s else s

/-- A new record enters the ring (R496, R502). -/
def ringPush (s : State) (r : Rec) : State :=
  let q := takeSeq s
  ringAdd q.2 { r := { r with seq := q.1 } }

/-- A new record for any number of occurrences: as many records as REPEAT needs (R494, R501); none where one of them must wait for a place. The first argument bounds the records. -/
def ringPushAll : Nat → State → Rec → Option State
  | 0, _, _ => none
  | n + 1, s, r =>
    if !ringRoom s then none
    else if r.rep ≤ 65535 then some (ringPush s r)
    else ringPushAll n (ringPush s { r with rep := 65535 }) { r with rep := r.rep - 65535 }

/-- How a waiting record coalesces with the last of the ring (R501): the last record's new value, and what is left for a new record. DEDUCED (log 39). -/
def coalesce (last : Rec) (w : WaitRec) : Option (Rec × Option Rec) :=
  if sameRec last w.r && decide (last.rep < 65535) then
    let total := last.rep + w.r.rep
    let dt := max last.lastDt (min (2 ^ 32 - 1) (w.last - last.duc))
    if total ≤ 65535 then some ({ last with rep := total, lastDt := dt }, none)
    else some ({ last with rep := 65535, lastDt := dt }, some { w.r with rep := total - 65535, lastDt := min (2 ^ 32 - 1) (w.last - w.r.duc) })
  else none

/-- A record is accepted (R501, R503, R304): coalesced with the last one or pushed; copied to delivery; at FAULT or above it triggers a flush. Answers false where it must wait. DEDUCED (log 39). -/
def ringAccept (s : State) (w : WaitRec) : State × Bool :=
  let fresh : Rec := { w.r with lastDt := min (2 ^ 32 - 1) (w.last - w.r.duc) }
  let grow := fun (l : Rec) => { s with rcd := { s.rcd with ring := s.rcd.ring.dropLast ++ (s.rcd.ring.getLast?.toList.map (fun x => { x with r := l, grown := x.circ.isSome })) } }
  let pushed := fun (t : State) (r : Rec) => ringPushAll (r.rep / 65535 + 1) t r
  let t := match (match s.rcd.ring.getLast? with | some x => coalesce x.r w | none => none) with
    | some (l, none) => some (grow l)
    | some (l, some n) => pushed (grow l) n
    | none => pushed s fresh
  match t with
  | some t => (recShow (onlyIf (decide (5 ≤ w.r.sev)) flushTrigger (eventCopy t w.r)), true)
  | none => (s, false)

/-- The ports in the order they are taken (R499). -/
def nextPort (s : State) : Option (Nat × WaitRec) :=
  (List.range 4).findSome? (fun p => s.rcd.ports.find? (fun x => x.1 == p))

/-- The port whose record is taken next: one that the latch's first entry waits behind (R524), or the first of the ports where the latch is empty (R500). DEDUCED (log 39). -/
def nextWait (s : State) : Option (Nat × WaitRec) :=
  match s.rcd.latch with
  | [] => nextPort s
  | w :: _ => w.behind.bind (fun p => s.rcd.ports.find? (fun x => x.1 == p))

/-- RECORD_ACCEPT (R499, R500): a due LOST record first, then the latch, then the ports in order. DEDUCED (log 39). -/
def recordAccept (s : State) : State :=
  let lost := match s.rcd.drop with | some d => if d.ahead = 0 then some d else none | none => none
  match lost, s.rcd.latch with
  | some d, _ =>
    let r := stampRec s (mkRec 0x14 svError 0xA001 (leBytes 4 d.n ++ leBytes 8 d.first ++ leBytes 8 d.last))
    let q := ringAccept { s with rcd := { s.rcd with drop := none } } { r := r, last := ducNow s }
    if q.2 then recFlag q.1 REC_STATUS_LOST else s
  | none, l =>
    match nextWait s, l with
    | some (p, w), _ =>
      let t := { s with rcd := { s.rcd with ports := s.rcd.ports.filter (fun x => x.1 != p), latch := l.map (fun e => if e.behind = some p then { e with behind := none } else e) } }
      let w := { w with r := stampRec s w.r }
      let q := ringAccept t w
      if q.2 then q.1 else if l.isEmpty then recShow (toLatch t w) else s
    | none, w :: rest =>
      let q := ringAccept s w
      if q.2 then
        recShow { q.1 with rcd := { q.1.rcd with latch := rest, drop := q.1.rcd.drop.map (fun d => { d with ahead := d.ahead - 1 }) } }
      else s
    | none, [] => s

/-- Everything that waits is accepted (R506). The first argument bounds the number of records. -/
def acceptAll : Nat → State → State
  | 0, s => s
  | n + 1, s => if s.rcd.ports.isEmpty && s.rcd.latch.isEmpty && s.rcd.drop.isNone then s else acceptAll n (recordAccept s)

/-- FLUSH_COMPLETE (R504): FLUSH_DONE, the flush's figures, a queued flush starts; what waited for the flush goes on (R47, R506); records that still wait before a reset are flushed with the ring. DEDUCED (log 39). -/
def flushComplete (s : State) : State :=
  match s.rcd.flush with
  | none => s
  | some f =>
    if !f.todo.isEmpty then s else
    let n := s.rcd.flushDone + 1
    let s := { s with rcd := { s.rcd with flush := none, flushDone := n } }
    let s := wr (addWrap s REC_CNT_FLUSH_COUNT 1) REC_STATUS_FLUSHING 0
    let s := wr (wr s REC_LAST_FLUSH_US (min 65535 (ducNow s - f.start))) REC_LAST_FLUSH_RECORDS (min 65535 f.written)
    let s := later (raise s srcFlushDone) (.recFlushed n f.written)
    let s := match s.modeCtl.disableUnit with
      | some w => if mode s = 10 && !holdUnflushed s then later { s with modeCtl := { s.modeCtl with disableUnit := none } } (.disableUnit w) else s
      | none => s
    if rdB s REC_STATUS_FLUSH_PEND then flushStart (onlyIf s.modeCtl.resetWait (acceptAll 64) (wr s REC_STATUS_FLUSH_PEND 0))
    else if s.modeCtl.resetWait then later { s with modeCtl := { s.modeCtl with resetWait := false } } .enterReset
    else s

/-- A conventional reset waits for a flush of the ring (R506): what waits is accepted first; the reset follows the flush. -/
def resetFlush (s : State) : State :=
  let s := acceptAll 64 s
  flushTrigger { s with modeCtl := { s.modeCtl with resetWait := true } }

/-- The record that REC_CLEAR leaves in MRAM and in the ring. -/
def ringCleared (s : State) (x : RingRec) : State := ringAdd s x

/-- REC_CLEAR (R511): the circulating area is empty, the rewind mark is gone, the first record written is REC_CLEARED. DEDUCED (log 39). -/
def recClear (s : State) (key : Nat) : State :=
  let n := idxDist (rd s REC_CIRC_OLDEST_OLDEST) ((rd s REC_CIRC_NEWEST_NEWEST + 1) % 2 ^ 32)
  let s := { s with rcd := { s.rcd with circ := [], badCirc := [], markLost := false
                                        ring := s.rcd.ring.map (fun x => { x with grown := false }) } }
  let s := wr (wr s REC_CIRC_OLDEST_OLDEST s.rcd.nextC) REC_STATUS_MARK_VALID 0
  let s := if recArea s = 1 then cursorFix s else s
  let r := stampRec s (mkRec 0x14 svNotice 0xA002 (leBytes 4 n ++ leBytes 4 key))
  let q := takeSeq s
  let r := { r with seq := q.1 }
  let s := mramAppend q.2 r 0
  recShow (eventCopy (ringCleared s { r := r, circ := some (mramIndex q.2 0) }) r)

end Sys2Proof.Machine
end

