-- ==== Sys2Proof/Machine/Lantern.lean ====
section
/-! DEFINITION. Lantern (17_lantern.md): its counting of the ports, the shadow speeds, the rules and their actions, its clocks and checkpoints, and the quiet edges at which it hands its
counts back. -/

namespace Sys2Proof.Machine

/-! Hand-back (R479). -/

/-- What the trail of a port is seeded with (R479): the count, and whether it was taken at a quiet edge of the last 1 ms. DEDUCED (log 38). -/
def seedOf (s : State) (p : Nat) : Int × Bool :=
  let f := front s p
  let sh := rdI s (LAN_SHADOW_SHADOW p)
  if quietNow s p then (sh, true)
  else match f.quiet with
    | some (t, c) => if s.now - t ≤ 1000000 then (c + f.n, true) else (sh, false)
    | none => (sh, false)

/-- An edge at the front end of a port while the main domain is in reset (R479): it is counted there, not by the trail. DEDUCED (log 38). -/
def frontEdge (p : Nat) (a b : Bool) (s : State) : State :=
  let oa := rdB s (TRL_PIN_A p)
  let ob := rdB s (TRL_PIN_B p)
  let s := wrB (wrB s (TRL_PIN_A p) a) (TRL_PIN_B p) b
  if rd s (TRL_PORT_CFG_MODE p) != 1 || rdB s (TRL_PIN_A_LB p) || rdB s (TRL_PIN_B_LB p) || ((a != oa) == (b != ob)) then s
  else
    match decodeEdge (rd s (TRL_PORT_CFG_DECODE p)) (a != oa) a b with
    | none => s
    | some n0 => frontNote s p (if n0 != rdB s (TRL_PORT_CFG_INVERT p) then -1 else 1)

/-! Counting (R471 to R476). -/

/-- Whether A or B of a port is in Lantern's line break. -/
def lanBroken (s : State) (p : Nat) : Bool := mget 0 s.lan.broken p % 4 != 0

/-- New filtered levels of A and B of a port at Lantern. DEDUCED (log 38). -/
def lanternEdge (p : Nat) (a b : Bool) (s : State) : State :=
  let lv := mget 0 s.lan.levels p
  let oa := bitOf lv 0
  let ob := bitOf lv 1
  let s := { s with lan := { s.lan with levels := mput 0 s.lan.levels p (b2n a + 2 * b2n b) } }
  if rd s (TRL_PORT_CFG_MODE p) != 1 || lanBroken s p then s
  else if a != oa && b != ob then
    let s := wr (lanFlag s (LAN_PORT_STATUS_ILLEGAL p)) (LAN_PORT_STATUS_UNTRUSTED p) 1
    windowInc (addSat s (LAN_PORT_STATUS_CNT_ILLEGAL p) 1) (120 + p) 1
  else if a == oa && b == ob then s
  else
    match decodeEdge (rd s (TRL_PORT_CFG_DECODE p)) (a != oa) a b with
    | none => s
    | some n0 =>
      let d : Int := if n0 != rdB s (TRL_PORT_CFG_INVERT p) then -1 else 1
      let fast := match mget none s.lan.edgeAt p with | some t => decide (s.now - t < 500) | none => false
      let s := onlyIf fast (fun s => wr (lanFlag s (LAN_PORT_STATUS_OVERSPEED p)) (LAN_PORT_STATUS_UNTRUSTED p) 1) (frontNote s p 0)
      shadowTo { s with lan := { s.lan with edgeAt := mput none s.lan.edgeAt p (some s.now) } } p (rdI s (LAN_SHADOW_SHADOW p) + d)

/-- A pair of a port enters Lantern's line break (R475); Lantern watches A and B. -/
def lanternBreakEnter (p pair : Nat) (s : State) : State :=
  if 2 ≤ pair then s else
  let s := { s with lan := { s.lan with broken := mput 0 s.lan.broken p (Nat.lor (mget 0 s.lan.broken p) (2 ^ pair)) } }
  wr (wr s (LAN_PORT_STATUS_LINE_BREAK p) 1) (LAN_PORT_STATUS_UNTRUSTED p) 1

/-- A pair leaves it. -/
def lanternBreakClear (p pair : Nat) (s : State) : State :=
  if 2 ≤ pair then s else
  let m := mget 0 s.lan.broken p
  let s := { s with lan := { s.lan with broken := mput 0 s.lan.broken p (m - Nat.land m (2 ^ pair)) } }
  wrB s (LAN_PORT_STATUS_LINE_BREAK p) (lanBroken s p)

/-! The rules (R484 to R490). -/

/-- A rule's state beside its registers. -/
def rule (s : State) (i : Nat) : RuleS := mget {} s.lan.rules i

/-- Set it. -/
def setRule (s : State) (i : Nat) (x : RuleS) : State := { s with lan := { s.lan with rules := mput {} s.lan.rules i x } }

/-- The quantity of a rule (Table 17-2); none where the rule is never satisfied. -/
def ruleQ (s : State) (i : Nat) : Option Int :=
  let src := rd s (LAN_RULE_CFG_SRC i)
  match rd s (LAN_RULE_CFG_Q i) with
  | 1 => some (rdI s (LAN_SHADOW_SPD_SPD src))
  | 2 => some (rdI s (LAN_SHADOW_SPD_SPD src)).natAbs
  | 3 => some (rdI s (LAN_SHADOW_SHADOW src))
  | 4 => some (b2n (bitOf s.lan.homes src))
  | 5 => some (rd s (LAN_PORT_STATUS_LINE_BREAK src))
  | 6 => some (rd s (LAN_PORT_STATUS_OVERSPEED src))
  | 7 => some (b2n s.pwr.main)
  | _ => none

/-- Whether a rule's comparison holds (R484). DEDUCED (log 38). -/
def ruleHolds (s : State) (i : Nat) : Bool :=
  match ruleQ s i with
  | none => false
  | some q =>
    let t := rdI s (LAN_RULE_THR_THR i)
    match rd s (LAN_RULE_CFG_CMP i) with
    | 0 => decide (t < q) | 1 => decide (q < t) | 2 => q == t | _ => q != t

/-- What a rule counts on a tick (R485). DEDUCED (log 38). -/
def ruleCount (x : RuleS) (holds : Bool) (w : Nat) : RuleS :=
  let ages := (x.occ.map (· + 1)).filter (fun a => decide (a < w))
  { run := if holds then x.run + 1 else 0, held := holds, occ := (if holds && !x.held && decide (0 < w) then 0 :: ages else ages).take 256 }

/-- Whether a rule is satisfied with its counts (R485). -/
def ruleSatisfied (s : State) (i : Nat) (x : RuleS) : Bool :=
  (ruleQ s i).isSome &&
    (if rdB s (LAN_RULE_CFG_MODE i) then decide (orOne (rd s (LAN_RULE_TIME_K i)) ≤ x.occ.length)
     else decide (rd s (LAN_RULE_TIME_T_W i) + 1 ≤ x.run))

/-- The LANTERN_RULE record (R490). -/
def ruleRecord (s : State) (i : Nat) : Rec :=
  mkRec 0x13 (rd s (LAN_RULE_ACT_SEV i)) 0xB001
    (leBytes 1 i ++ leBytes 1 (rd s (LAN_RULE_CFG_Q i)) ++ leBytes 8 (ofSigned 64 ((ruleQ s i).getD 0)) ++ leBytes 8 (ducNow s))

/-- A rule fires: its actions in the order of R487, and while the main domain runs its channel and the RULE source. DEDUCED (log 38). -/
def ruleFire (s : State) (i : Nat) : State :=
  let s := addSat (wr s (LAN_RULE_STATUS_STATE i) 2) (LAN_RULE_STATUS_FIRES i) 1
  let q := rd s (LAN_RULE_CFG_Q i)
  let src := rd s (LAN_RULE_CFG_SRC i)
  let named := q == 1 || q == 2 || q == 3 || q == 5 || q == 6
  let s := onlyIf (rdB s (LAN_RULE_ACT_SOFTLIM i) && named) (fun s => wr s LAN_SOFTLIM_PORT (Nat.lor (rd s LAN_SOFTLIM_PORT) (2 ^ src))) s
  let pin := rd s (LAN_RULE_ACT_OUT_PIN i)
  let s := onlyIf (rdB s (LAN_RULE_ACT_OUT i)) (fun s =>
    wr { s with lan := { s.lan with ovrLevel := mput false s.lan.ovrLevel pin (rdB s (LAN_RULE_ACT_OUT_LEVEL i)) } } LAN_OVR_OVR (Nat.lor (rd s LAN_OVR_OVR) (2 ^ pin))) s
  let s := onlyIf (rdB s (LAN_RULE_ACT_LOG i)) (fun s => offerRec s rpLantern (ruleRecord s i)) s
  let s := onlyIf (rdB s (LAN_RULE_ACT_WAKE i) && !s.pwr.main) (fun s =>
    wr (wr { s with lan := { s.lan with wake := true } } LAN_WAKE_PENDING 1) LAN_WAKE_RULE i) s
  if mainRuns s then raise (later s (.gyl (208 + i) 0)) srcLanRule else s

/-- A rule's tick (R485, Table 17-3). DEDUCED (log 38). -/
def ruleTick (s : State) (i : Nat) : State :=
  let st := rd s (LAN_RULE_STATUS_STATE i)
  if st = 0 then s else
  let x := ruleCount (rule s i) (ruleHolds s i) (rd s (LAN_RULE_TIME_T_W i))
  let s := setRule s i x
  if ruleSatisfied s i x then (if st = 1 then ruleFire s i else s)
  else wr s (LAN_RULE_STATUS_STATE i) 1

/-- LAN_SHADOW_SPD takes 1 000 times the shadow's change over the millisecond (R478). DEDUCED (log 38). -/
def shadowSpeed (s : State) (p : Nat) : State :=
  let sh := rdI s (LAN_SHADOW_SHADOW p)
  let d := sh - mget 0 s.lan.lastTick p
  wrI { s with lan := { s.lan with lastTick := mput 0 s.lan.lastTick p sh } } (LAN_SHADOW_SPD_SPD p) (satSigned 32 (1000 * d))

/-- LANTERN_TICK (R478, R484): the shadow speeds, then the rules in rising order. DEDUCED (log 38). -/
def lanternTick (homes : Nat) (s : State) : State :=
  let s := each (List.range 8) shadowSpeed { s with lan := { s.lan with homes := homes % 256 } }
  each (List.range 32) ruleTick s

/-- RULE_ENABLE_WRITE (Table 17-3). -/
def ruleEnableWrite (i : Nat) (en : Bool) (s : State) : State :=
  let s1 := wrB s (LAN_RULE_CFG_EN i) en
  if en then (if rd s (LAN_RULE_STATUS_STATE i) = 0 then wr (setRule s1 i {}) (LAN_RULE_STATUS_STATE i) 1 else s1)
  else wr (setRule s1 i {}) (LAN_RULE_STATUS_STATE i) 0

/-- A write of a rule's settings (R491): taken only while the rule is IDLE, else discarded with CFG_LOCK. DEDUCED (log 38). -/
def ruleRegWrite (i a v : Nat) (s : State) : State :=
  if rd s (LAN_RULE_STATUS_STATE i) = 0 then setReg s a (BitVec.ofNat 64 v) else wr s LAN_STATUS_CFG_LOCK 1

/-- A write of LAN_RULE_CFG (R486, R491): its settings under R491, then EN. DEDUCED (log 38). -/
def ruleCfgWrite (i v : Nat) (s : State) : State :=
  let f : FRef := ⟨0x150400 + 0x20 * i, 1, 10⟩
  let s := if rd s f = bitsOf v 10 1 then s
    else if rd s (LAN_RULE_STATUS_STATE i) = 0 then wr s f (bitsOf v 10 1) else wr s LAN_STATUS_CFG_LOCK 1
  ruleEnableWrite i (bitOf v 0) s

/-- LAN_OVR_CLEAR (R489): each 1 gives the pin back. -/
def lanOvrClear (mask : Nat) (s : State) : State := wr s LAN_OVR_OVR (rd s LAN_OVR_OVR - Nat.land (rd s LAN_OVR_OVR) mask)

/-! Clocks and checkpoints (R481 to R483). -/

/-- XTAL_FAIL (R482). -/
def xtalFail (s : State) : State :=
  if !rdB s LAN_STATUS_XTAL_OK then s else
  let s := wr (wr s LAN_STATUS_XTAL_OK 0) LAN_STATUS_XTAL_FAIL 1
  if mainRuns s then raise s srcLanXtal else s

/-- XTAL_GOOD (R482): the crystal counts from now on, and the first trim is made. -/
def xtalGood (s : State) : State :=
  if rdB s LAN_STATUS_XTAL_OK then s else wr { s with lan := { s.lan with trimmed := true } } LAN_STATUS_XTAL_OK 1

/-- RC_TRIM (R481): against the crystal, once per second. -/
def rcTrim (s : State) : State := if rdB s LAN_STATUS_XTAL_OK then { s with lan := { s.lan with trimmed := true } } else s

/-- DUC_CHECKPOINT (R483): the multiple of 2^20 that DUC has reached goes into the next of 16 slots, once. -/
def ducCheckpoint (s : State) : State :=
  let v := ducNow s / 2 ^ 20 * 2 ^ 20
  if mget none s.lan.slots ((s.lan.nextSlot + 15) % 16) = some v then s
  else { s with lan := { s.lan with slots := mput none s.lan.slots (s.lan.nextSlot % 16) (some v), nextSlot := (s.lan.nextSlot + 1) % 16 } }

/-- What DUC starts at after AON power-on (R483): from the largest checkpoint, else the largest DUC of a record in MRAM, plus 2^21; from 0 where there is neither. -/
def ducResume (s : State) : Option Nat :=
  let cps := s.lan.slots.filterMap (·.2)
  let recs := s.rcd.first.map (·.duc) ++ s.rcd.circ.filterMap (fun e => e.2.map (·.duc))
  match cps, recs with
  | c :: l, _ => some (l.foldl max c)
  | [], r :: l => some (l.foldl max r)
  | [], [] => none

end Sys2Proof.Machine
end

