-- ==== Sys2Proof/Machine/Params.lean ====
section
/-! DEFINITION. The parameter dictionary (14_mailbox_commands.md R415 to R418): descriptors, values, and the checks of PARAM_SET. -/

namespace Sys2Proof.Machine

open Config (ParamDesc)

/-- The length of a value of a type (Table 14-7). -/
def typeLen (ty : Nat) : Nat :=
  match ty with
  | 0 => 1 | 1 => 2 | 2 => 4 | 3 => 8 | 4 => 1 | 5 => 2 | 6 => 4 | 7 => 8 | 8 => 1 | 9 => 2 | _ => 8

/-- Whether values of a type are signed. -/
def typeSigned (ty : Nat) : Bool := (decide (4 ≤ ty) && decide (ty ≤ 7)) || ty == 10

/-- The bytes of an ASCII name. -/
def nameBytes (l : List Nat) : List Byte := padTo 32 (l.map (BitVec.ofNat 8))

/-- A field of a named parameter that the spec does not state (log 9): 0 MIN, 1 MAX, 2 UNIT, 3 TYPE, 4 onwards NAME. -/
def unstated (id k : Nat) : Nat := (Config.paramField id k).toNat

/-- A name the spec does not state. -/
def unstatedName (id : Nat) : List Byte := (List.range 4).flatMap (fun k => leBytes 8 (unstated id (4 + k)))

/-- MIN and MAX of a parameter whose default is `d` and whose spec states neither: a range of `0` to `top` with the default in it (log 9). -/
def openMin (id d : Nat) : Nat := unstated id 0 % (d + 1)
def openMax (id d top : Nat) : Nat := d + unstated id 1 % (top - d + 1)

/-- The parameters that the spec names (R408, R433, R565, the worked case of R419). DESIGN CHOICE (log 9). -/
def namedParam (id : Nat) : Option ParamDesc :=
  if 0x0700 ≤ id ∧ id < 0x0800 then
    let d := chanOwner (id - 0x0700)
    some { id := id, ty := 1, unit := 0, attr := 12, len := 2, min := openMin id d, max := openMax id d 65535, dflt := d, name := unstatedName id }
  else if id = 0x0F02 then
    some { id := id, ty := 1, unit := unstated id 2 % 15, attr := 1, len := 2, min := 1, max := 1024, dflt := 1 + (Config.paramDefault id).toNat % 1024, name := nameBytes [70, 76, 65, 84, 95, 67, 65, 76, 95, 70, 82, 65, 77, 69, 83] }
  else if id = 0x4101 then
    let ty := [1, 2, 3, 5, 6, 7].getD (unstated id 3 % 6) 1
    some { id := id, ty := ty, unit := 3, attr := 0, len := typeLen ty, min := openMin id 2000, max := openMax id 2000 32767, dflt := 2000
           name := nameBytes [84, 69, 84, 72, 69, 82, 95, 77, 66, 88, 95, 84, 73, 77, 69, 79, 85, 84] }
  else if id = 0x4110 then
    some { id := id, ty := 6, unit := 12, attr := 18, len := 4, min := ofSigned 64 (-((unstated id 0 % 2 ^ 31 : Nat) : Int)), max := 255 + unstated id 1 % (2 ^ 31 - 255), dflt := (Config.paramDefault id).toNat
           name := nameBytes [84, 74, 95, 78, 79, 87] }
  else if id = 0x4111 then
    some { id := id, ty := 6, unit := 12, attr := 4, len := 4, min := 60000, max := 105000, dflt := 100000, name := nameBytes [84, 74, 95, 87, 65, 82, 78] }
  else if id = 0x4203 then
    some { id := id, ty := 4, unit := unstated id 2 % 15, attr := 0, len := 1, min := 2 ^ 64 - 7, max := 4, dflt := ofSigned 8 ((Config.paramDefault id).toNat % 12 - 7 : Int)
           name := nameBytes [80, 84, 80, 95, 76, 79, 71, 95, 83, 89, 78, 67, 95, 80, 52] }
  else none

/-- Whether a value lies outside MIN to MAX (R416); BYTES and BOOL by their type. -/
def paramOut (d : ParamDesc) (v : Nat) : Bool :=
  if d.ty = 12 then false
  else if d.ty = 8 then decide (1 < v)
  else if typeSigned d.ty then
    let x := toSigned (8 * d.len) v
    decide (x < toSigned 64 d.min) || decide (toSigned 64 d.max < x)
  else decide (v < d.min) || decide (d.max < v)

/-- Whether a descriptor keeps Tables 14-6 and 14-7: its type, unit and attributes are listed, its length is its type's, its default lies within its range; BYTES have 1 to 256 and no range. -/
def descGood (d : ParamDesc) : Bool :=
  decide (d.ty ≤ 12) && decide (d.unit ≤ 14) && decide (d.attr < 32) && decide (d.name.length ≤ 32) && decide (d.dflt < 256 ^ d.len) &&
    (if d.ty = 12 then decide (1 ≤ d.len) && decide (d.len ≤ 256) && d.min == 0 && d.max == 0 && d.dflt == 0 else d.len == typeLen d.ty && !paramOut d d.dflt)

/-- Whether an ID's area is one of R415's: 0x01 to 0x17, 0x40 to 0x43. An ID of another area is no parameter's. -/
def paramArea (id : Nat) : Bool := (decide (0x0100 ≤ id) && decide (id < 0x1800)) || (decide (0x4000 ≤ id) && decide (id < 0x4400))

/-- A parameter by its ID: one the spec names, or one of the others, as far as its descriptor keeps the tables. DESIGN CHOICE (log 9). -/
def paramOf (id : Nat) : Option ParamDesc :=
  match namedParam id with
  | some d => some d
  | none => if paramArea id then Config.otherParams.find? (fun d => d.id == id && descGood d) else none

/-- An ID put into a rising list without repeats. -/
def insertId (n : Nat) : List Nat → List Nat
  | [] => [n]
  | a :: l => if n = a then a :: l else if n < a then n :: a :: l else a :: insertId n l

/-- The IDs the spec names, rising. -/
def namedIds : List Nat := (List.range 256).map (· + 0x0700) ++ [0x0F02, 0x4101, 0x4110, 0x4111, 0x4203]

/-- Every ID of the dictionary, rising (PARAM_LIST). DESIGN CHOICE (log 9). -/
def allIds : List Nat := (Config.otherParams.filter (fun d => paramArea d.id && descGood d)).foldl (fun l d => insertId d.id l) namedIds

/-- The value of a parameter (R418): ACTIVE, or the shadow store's for a shadowed one where `shadow`. -/
def paramVal (s : State) (d : ParamDesc) (shadow : Bool) : Nat :=
  let m := if shadow && bitOf d.attr 0 then s.mp.pshadow else s.mp.pact
  (mget none m d.id).getD d.dflt

/-- Set an ACTIVE value. -/
def setParam (s : State) (id v : Nat) : State := { s with mp := { s.mp with pact := mput none s.mp.pact id (some v) } }

/-- A value entry (R415): ID, LEN, value. -/
structure ValEntry where
  id : Nat
  len : Nat
  val : Nat
  deriving DecidableEq, Repr

/-- The value entries at the start of a list of bytes, with the bytes they take; none where the list ends first. -/
def readEntries : Nat → List Byte → Option (List ValEntry × Nat)
  | 0, _ => some ([], 0)
  | n + 1, l =>
    if l.length < 8 then none else
    let id := leNat (l.take 2)
    let len := leNat ((l.drop 2).take 2)
    let k := 8 + (len + 7) / 8 * 8
    if l.length < k then none else
    match readEntries n (l.drop k) with
    | none => none
    | some (es, m) => some ({ id := id, len := len, val := leNat ((l.drop 8).take len) } :: es, k + m)

/-- A value entry as bytes. -/
def entryOut (s : State) (d : ParamDesc) (shadow : Bool) : List Byte :=
  leBytes 2 d.id ++ leBytes 2 d.len ++ leBytes 4 0 ++ padTo ((d.len + 7) / 8 * 8) (leBytes d.len (paramVal s d shadow))

/-- A descriptor as bytes (Table 14-6). -/
def descOut (d : ParamDesc) : List Byte :=
  leBytes 2 d.id ++ leBytes 1 d.ty ++ leBytes 1 d.unit ++ leBytes 2 d.attr ++ leBytes 2 d.len ++
    (if d.ty = 12 then leBytes 24 0 else leBytes 8 d.min ++ leBytes 8 d.max ++ leBytes 8 (ofSigned 64 (if typeSigned d.ty then toSigned (8 * d.len) d.dflt else d.dflt))) ++ padTo 32 d.name

/-- The status an entry fails with (R416), for mailbox `m`; 0 where it passes. DEDUCED (log 32). -/
def entryFault (s : State) (m : Nat) (e : ValEntry) : Nat :=
  match paramOf e.id with
  | none => 0x16
  | some d =>
    if e.len != d.len then 0x04
    else if bitOf d.attr 1 then 0x15
    else if bitOf d.attr 2 && m != 0 && m != 6 then 0x05
    else if bitOf d.attr 3 && mode s != 2 && mode s != 3 then 0x09
    else if paramOut d e.val then 0x17
    else 0

/-- The first failing entry: its index and status. DEDUCED (log 32). -/
def firstFault (s : State) (m : Nat) (es : List ValEntry) : Option (Nat × Nat) :=
  es.zipIdx.findSome? (fun p => let f := entryFault s m p.1; if f = 0 then none else some (p.2, f))

/-- Whether a parameter is shadowed. -/
def isShadowedPar (id : Nat) : Bool := match paramOf id with | some d => bitOf d.attr 0 | none => false

/-- One value set (R417): into the shadow store, or at once with its effect (R433). DEDUCED (log 32). -/
def applyParam (s : State) (e : ValEntry) : State :=
  if isShadowedPar e.id then storeWrite s (parKey + e.id) e.val
  else
    let s := setParam s e.id e.val
    if 0x0700 ≤ e.id ∧ e.id < 0x0800 then gylParam s (e.id - 0x0700) e.val else s

end Sys2Proof.Machine
end

