-- ==== Sys2Proof/Machine/Tether.lean ====
section
/-! DEFINITION. The tether (16_tether_link.md): lock, beats, the trails of a worker, messages and their relays, heartbeats, time and hand-over across a chain. -/

namespace Sys2Proof.Machine

/-! Roles and ports (R440). -/

def isManager (s : State) : Bool := role s == 1
def isWorker (s : State) : Bool := role s == 2

/-- Whether the tether runs: TTH_EN is ENABLED. -/
def tthOn (s : State) : Bool := enabled s tthEn

/-- Whether messages pass on a port now: the tether runs, the role uses the port, and it is locked. -/
def portUp (s : State) (down : Bool) : Bool :=
  tthOn s && (if down then (isManager s || isWorker s) && rdB s TTH_STATUS_DN_LOCK else isWorker s && rdB s TTH_STATUS_UP_LOCK)

/-- Set a flag or a bit that raises ERR when it sets (16_tether_link.md, Registers). -/
def tthErr (s : State) : State := raise s srcTthErr

/-- A CRC failure at a port (R450): counted, and in the tether's window. -/
def tthCrc (s : State) (down : Bool) : State :=
  windowInc (addSat s (if down then TTH_CNT_CRC_DN else TTH_CNT_CRC_UP) 1) 84 1

/-- One byte into the CRC-8 of R448: polynomial 0x07, initial value 0, not reflected. -/
def crc8 (l : List Byte) : Nat := l.foldl (crcStepMsb 8 0x07) 0

/-! Blocks (R443, R449, Tables 16-2, 16-5, 16-6). -/

/-- A control block and a data block of payload bytes. -/
def ctlBlock (l : List Byte) : TthBlock := ⟨true, BitVec.ofNat 64 (leNat l)⟩
def dataBlock (l : List Byte) : TthBlock := ⟨false, BitVec.ofNat 64 (leNat l)⟩

/-- The payload bytes of a block. -/
def blockBytes (b : TthBlock) : List Byte := leBytes 8 b.bytes.toNat

/-- The first `n` bits of `v`, the lowest first, through the self-synchronous scrambler x^58 + x^39 + 1 whose last 58 bits out are `st`, the newest lowest. -/
def scramble : Nat → Nat → Nat → Nat × Nat
  | 0, _, st => (0, st)
  | n + 1, v, st =>
    let b := (v + st / 2 ^ 38 + st / 2 ^ 57) % 2
    let r := scramble n (v / 2) ((2 * st + b) % 2 ^ 58)
    (b + 2 * r.1, r.2)

/-- A block goes out on a port (R443): sync header 0b10 for a control block and 0b01 for a data block, payload scrambled. -/
def blockSend (s : State) (down : Bool) (b : TthBlock) : State :=
  let r := scramble 64 b.bytes.toNat (if down then s.tth.scrDn else s.tth.scrUp)
  send { s with tth := if down then { s.tth with scrDn := r.2 } else { s.tth with scrUp := r.2 } } (.tether down (if b.ctl then 2 else 1) r.1)

/-- A single-block message (R449): content in bytes 1 to 6, CRC-8 in byte 7. -/
def single (kind : Nat) (l : List Byte) : TthBlock :=
  let b := leBytes 1 kind ++ (l ++ leBytes 6 0).take 6
  ctlBlock (b ++ leBytes 1 (crc8 b))

/-- IDLE (Table 16-2). -/
def idleBlock : TthBlock := single 0xEF []

/-- NDATA of a message with `n` bytes of content (R449). -/
def nData (n : Nat) : Nat := max 1 ((n + 4 + 7) / 8)

/-- A multi-block message (R449): type, destination byte, header bytes 4 to 6, content. -/
def multi (ty dest : Nat) (head content : List Byte) : List TthBlock :=
  let n := nData content.length
  let h := leBytes 1 0xE4 ++ leBytes 1 ty ++ leBytes 1 n ++ leBytes 1 dest ++ (head ++ leBytes 3 0).take 3
  let d := content ++ List.replicate (8 * n - 4 - content.length) 0
  let d := d ++ leBytes 4 (crc32c d)
  ctlBlock (h ++ leBytes 1 (crc8 h)) :: (List.range n).map (fun i => dataBlock ((d.drop (8 * i)).take 8))

/-- The content of a good single-block message of a kind. -/
def singleOf (kind : Nat) (l : List TthBlock) : Option (List Byte) :=
  match l with
  | [b] =>
    let y := blockBytes b
    if b.ctl && atBytes y 0 1 == kind && atBytes y 7 1 == crc8 (y.take 7) then some ((y.drop 1).take 6) else none
  | _ => none

/-- The header bytes and the content of a good multi-block message of a type. -/
def multiOf (ty : Nat) (l : List TthBlock) : Option (List Byte × List Byte) :=
  match l with
  | [] => none
  | h :: d =>
    let y := blockBytes h
    let c := d.flatMap blockBytes
    let n := c.length - 4
    if h.ctl && d.all (fun b => !b.ctl) && atBytes y 0 1 == 0xE4 && atBytes y 7 1 == crc8 (y.take 7) && atBytes y 1 1 % 16 == ty && atBytes y 2 1 % 64 == d.length && !d.isEmpty &&
        crc32c (c.take n) == leNat (c.drop n) then some (y, c.take n) else none

/-- W of a POSITION part whose two blocks have the form of Table 16-2. -/
def partWord (ty : Nat) (b0 b1 : TthBlock) : Option Nat :=
  if b0.ctl && !b1.ctl && b0.bytes.toNat % 256 == ty then some (b0.bytes.toNat / 256 + 2 ^ 56 * b1.bytes.toNat) else none

/-- The two blocks of a POSITION part. -/
def partBlocks (ty w : Nat) : List TthBlock := [⟨true, BitVec.ofNat 64 (ty + 256 * w)⟩, ⟨false, BitVec.ofNat 64 (w / 2 ^ 56)⟩]

/-! Relaying (R451). -/

/-- The place of a message kind in the order of R451: GUYLINE, HEARTBEAT, HANDOVER, TIME, CAL, MGMT. -/
def tthPrio (k : Nat) : Nat :=
  if k = 0xE8 then 0 else if k = 0xE9 then 1 else if k = 2 then 2 else if k = 1 then 3 else if k = 4 then 4 else 5

/-- A message joins those that wait for message blocks of a port. -/
def tthJoin (s : State) (down : Bool) (m : TthMsg) : State :=
  { s with tth := if down then { s.tth with relayDn := s.tth.relayDn ++ [m] } else { s.tth with relayUp := s.tth.relayUp ++ [m] } }

/-- A message of the device's own joins a port's stream (R451). -/
def tthOwn (s : State) (down : Bool) (kind : Nat) (blocks : List TthBlock) : State :=
  tthJoin s down { kind := kind, blocks := blocks, size := blocks.length, own := true }

/-- A message joins the relay buffer of a port unchanged, 64 blocks, or is dropped whole. A device that gets HOP = 15 relays nothing downstream (R442). DEDUCED (log 36). -/
def tthRelay (s : State) (down : Bool) (kind : Nat) (blocks : List TthBlock) : State :=
  if !isWorker s || !tthOn s || (down && rdB s TTH_STATUS_CHAIN_LONG) then s else
  let l := (if down then s.tth.relayDn else s.tth.relayUp).filter (fun m => !m.own)
  if 64 < l.foldl (fun a m => a + m.blocks.length) 0 + blocks.length then tthErr (addSat s TTH_CNT_MSG_DROP_COUNT 1)
  else tthJoin s down { kind := kind, blocks := blocks, size := blocks.length }

/-- Whether a multi-block message may be relayed: LOCAL, in its header's destination byte, forbids it. -/
def relayable (head : List Byte) : Bool := !bitOf (atBytes head 3 1) 6

/-- The message whose block goes next: a single-block message, else the multi-block message that has begun, else the first in the order of R451; within one kind a relayed message before the device's own. -/
def tthNext (l : List TthMsg) : Option TthMsg :=
  let pick := fun (k : Nat) => (l.find? (fun m => tthPrio m.kind == k && !m.own)).or (l.find? (fun m => tthPrio m.kind == k))
  match pick 0, pick 1 with
  | some m, _ => some m
  | none, some m => some m
  | none, none =>
    match l.find? (fun m => m.dom.isNone && m.blocks.length != m.size) with
    | some m => some m
    | none => [2, 3, 4, 5].findSome? pick

/-- Put a message in the place of its first entry in a buffer; with no block left it has gone. -/
def tthTake (m y : TthMsg) : List TthMsg → List TthMsg
  | [] => []
  | x :: l => if x = m then (if y.blocks.isEmpty then l else y :: l) else x :: tthTake m y l

/-- Domain `d` at an instant, in steps of 125 ps, in units of 2^-40 ns, at the rate that stands. -/
def domRefRaw (s : State) (d : Nat) (t8 : Int) : Int :=
  (domRaw s d : Int) + floorDiv ((t8 - 8 * (s.now : Int)) * ((2 : Int) ^ 40 + rdI s (TMB_DOM_RATE_RATE d))) 8

/-- The TIME message of a domain at the reference instant of the beat that carries its header (R463, Table 16-6). -/
def timeBlocks (s : State) (d : Nat) : List TthBlock :=
  let v := ofSigned 104 (domRefRaw s d s.tth.beatAt)
  multi 1 0x20 (leBytes 1 (d % 4 + 4 * b2n (rdB s (TMB_DOM_STATUS_VALID d)) + 8 * b2n (rd s (TMB_DOM_STATUS_STATE d) == 3))) (leBytes 8 (v / 2 ^ 40) ++ leBytes 1 (v / 2 ^ 32) ++ leBytes 3 0)

/-- Send `n` message blocks of a port: the next block of what waits, or IDLE. DEDUCED (log 36). -/
def tthDrain : Nat → State → Bool → State
  | 0, s, _ => s
  | n + 1, s, down =>
    let l := if down then s.tth.relayDn else s.tth.relayUp
    match tthNext l with
    | none => tthDrain n (blockSend s down idleBlock) down
    | some m =>
      let bs := match m.dom with
        | some d => timeBlocks s d
        | none => m.blocks
      let l' := tthTake m { m with blocks := bs.drop 1, dom := none } l
      let s := { s with tth := if down then { s.tth with relayDn := l' } else { s.tth with relayUp := l' } }
      tthDrain n (blockSend s down (bs.headD idleBlock)) down

/-! The device's own messages (Tables 16-5, 16-6). -/

def guylineBlock (slot hop origin : Nat) (mgr : Bool) : TthBlock :=
  single 0xE8 (leBytes 1 (slot % 16 + 16 * (hop % 8)) ++ leBytes 1 (origin % 16 + 16 * b2n mgr))

def heartbeatBlock (mode target id : Nat) (mgr ready nf miss : Bool) (cause hop hoId : Nat) : TthBlock :=
  single 0xE9 (leBytes 1 (mode % 16 + 16 * (target % 16)) ++
    leBytes 1 (id % 16 + 16 * b2n mgr + 32 * b2n ready + 64 * b2n nf + 128 * b2n miss) ++
    leBytes 1 (cause % 8 + 16 * (hop % 16)) ++ leBytes 1 hoId)

def handoverBlocks (slot : Nat) (neg : Bool) (id pos job ver : Nat) : List TthBlock :=
  multi 2 0x20 (leBytes 1 (slot % 4 + 4 * b2n neg) ++ leBytes 1 id) (leBytes 8 pos ++ leBytes 2 job ++ leBytes 2 ver)

def mgmtBlocks (dest : Nat) (toMgr : Bool) (frag : Nat) (last abort : Bool) (seq : Nat) (data : List Byte) : List TthBlock :=
  multi 3 (dest % 16 + 16 * b2n toMgr) (leBytes 1 (frag % 32 + 32 * b2n last + 64 * b2n abort) ++ leBytes 2 seq) data

def calBlocks (l : Nat) : List TthBlock := multi 4 0x40 [] (leBytes 4 l)

/-! What a received message says (Tables 16-5, 16-6). -/

/-- A HEARTBEAT. -/
structure Heartbeat where
  mode : Nat
  target : Nat
  id : Nat
  mgr : Bool
  ready : Bool
  notFollowing : Bool
  hoMiss : Bool
  hop : Nat
  hoId : Nat
  deriving DecidableEq, Repr

/-- The HEARTBEAT whose content is `c`. -/
def heartbeatOf (c : List Byte) : Heartbeat :=
  let a := atBytes c 0 1
  let b := atBytes c 1 1
  { mode := a % 16, target := a / 16, id := b % 16, mgr := bitOf b 4, ready := bitOf b 5, notFollowing := bitOf b 6, hoMiss := bitOf b 7, hop := atBytes c 2 1 / 16, hoId := atBytes c 3 1 }

/-- A HANDOVER. -/
structure HoMsg where
  slot : Nat
  neg : Bool
  id : Nat
  pos : Int
  job : Nat
  ver : Nat
  deriving DecidableEq, Repr

/-- The HANDOVER whose header is `h` and content `c`. -/
def handoverOf (h c : List Byte) : HoMsg :=
  { slot := atBytes h 4 1 % 4, neg := bitOf (atBytes h 4 1) 2, id := atBytes h 5 1, pos := toSigned 64 (atBytes c 0 8), job := atBytes c 8 2, ver := atBytes c 10 2 }

/-- A MGMT fragment. -/
structure MgmtFrag where
  dest : Nat
  destMgr : Bool
  frag : Nat
  last : Bool
  abort : Bool
  seq : Nat
  data : List Byte
  deriving DecidableEq, Repr

/-- The fragment whose header is `h` and content `c`. -/
def fragOf (h c : List Byte) : MgmtFrag :=
  let d := atBytes h 3 1
  let f := atBytes h 4 1
  { dest := d % 16, destMgr := bitOf d 4, frag := f % 32, last := bitOf f 5, abort := bitOf f 6, seq := atBytes h 5 2, data := c }

/-! Lock (R446). -/

/-- A slot holds its POS: SPEED_VALID reads 0 and the trails on it are UNTRUSTED (R454). DEDUCED (log 36). -/
def slotFreeze (s : State) (j : Nat) : State :=
  let x := mget ({} : TthSlot) s.tth.slots j
  if x.frozen.isSome then s else
  let v := slotNow s x
  let s := { s with tth := { s.tth with slots := mput {} s.tth.slots j { x with frozen := some v, stale := true } } }
  each (below 12 (fun t => tetherOn s t && rdC s (TRL_VCFG_MGR_TRAIL (t - 8)) == j)) (fun s t => trlBar (wr (wr s (TRL_STATUS_LB_SEEN t) 1) (TRL_STATUS_UNTRUSTED t) 1) t) s

/-- TTH_UP gains or loses LOCK (R446, R454). DEDUCED (log 36). -/
def upLock (s : State) (lock : Bool) : State :=
  if rdB s TTH_STATUS_UP_LOCK = lock then s else
  let s := raise (wrB s TTH_STATUS_UP_LOCK lock) srcTthLink
  if lock then s else each (List.range 4) slotFreeze s

/-- LOCK of a port changes (R446). -/
def portLock (s : State) (down lock : Bool) : State :=
  if !down then upLock s lock
  else if rdB s TTH_STATUS_DN_LOCK = lock then s
  else raise (wrB { s with tth := { s.tth with calLost := s.tth.calLost || !lock } } TTH_STATUS_DN_LOCK lock) srcTthLink

/-- What a port's lock holds (R446). -/
def lockOf (s : State) (down : Bool) : PortLock := if down then s.tth.dn else s.tth.up
def setLock (s : State) (down : Bool) (l : PortLock) : State := { s with tth := if down then { s.tth with dn := l } else { s.tth with up := l } }

/-- Beat lock of a port after one delta part, good or not, with the SEQ of a part whose CRC is good (R446). DEDUCED (log 36). -/
def beatLock (s : State) (down good : Bool) (seq : Option Nat) : State :=
  let l := lockOf s down
  let e := match seq with
    | some n => some ((n + 1) % 16)
    | none => l.expect.map (fun n => (n + 1) % 16)
  if rdB s (if down then TTH_STATUS_DN_LOCK else TTH_STATUS_UP_LOCK) then
    let bad := if good then 0 else l.bad + 1
    if 4 ≤ bad then portLock (setLock s down { l with bad := 0, expect := e, good := 0 }) down false
    else setLock s down { l with bad := bad, expect := e, good := 0 }
  else
    let n := if good then l.good + 1 else b2n seq.isSome
    if 8 ≤ n then portLock (setLock s down { l with bad := 0, expect := e, good := 0 }) down true
    else setLock s down { l with bad := 0, expect := e, good := n }

/-- A worker without block lock on TTH_UP transmits Clause 49 idle blocks from its own clock (R444). -/
def ownClock (s : State) : State := send (send { s with tth := { s.tth with recovered := false } } (.tetherIdle true)) (.tetherIdle false)

/-- TETHER_BLOCK_LOCK_CHANGE (R444, R446): block lock of a port, without which it has no LOCK; beat lock follows from its delta parts. DEDUCED (log 36). -/
def blockLockChange (down lock : Bool) (s : State) : State :=
  if !tthOn s || (!down && !isWorker s) || (lockOf s down).block == lock then s else
  let s := portLock (setLock s down { block := lock }) down false
  if down then s
  else if lock then { s with tth := { s.tth with recovered := true } }
  else ownClock { s with tth := { s.tth with half := false } }

/-! Beats: the manager (R447, R448). -/

/-- STATE of Table 16-4. -/
def speedCode : SpeedState → Nat
  | .none | .still => 0
  | .starting | .startingNoDir => 1
  | .running => 2
  | .reversed => 3

/-- The speed state of an anchor's STATE. -/
def speedOfCode (n : Nat) : SpeedState :=
  match n % 4 with
  | 0 => .still | 1 => .starting | 2 => .running | _ => .reversed

/-- Whether a POSITION slot is sent with VALID = 1 (R447, R573). -/
def slotSent (s : State) (j : Nat) : Bool := rdCB s (TTH_SLOT_CFG_EN j) && decide (rdC s (TTH_SLOT_CFG_TRAIL j) < 12)

/-- A slot's position at the reference instant (R447), in 2^-8 subcount: from this MOT cycle on by the speed, over `off` steps of 125 ps. -/
def slotPos (s : State) (off j : Nat) : Int :=
  let t := rdC s (TTH_SLOT_CFG_TRAIL j)
  let p := pos16 s t + (if speedValid s t then floorDiv (65536 * spdNow s t * off) 500000000 else 0)
  floorDiv (clampInt ((trl s t).limMin * 65536) ((trl s t).limMax * 65536) p) 256

/-- A slot's DELTA as sent: STEP for a change that does not fit. -/
def slotDelta (s : State) (off j : Nat) : Nat :=
  if !slotSent s j then 0 else
  let d := slotPos s off j - mget 0 s.tth.sent j
  if d.natAbs ≤ 1048575 then ofSigned 21 d else 0x100000

/-- The flags of a slot (Table 16-3). -/
def slotFlags (s : State) (j : Nat) : Nat :=
  if !slotSent s j then 0 else
  let t := rdC s (TTH_SLOT_CFG_TRAIL j)
  1 + 2 * b2n (speedValid s t) + 4 * b2n (untrusted s t)

/-- W of a delta part with its CRC (Table 16-3). DEDUCED (log 36). -/
def deltaWord (seq hop flags d0 d1 d2 d3 : Nat) : Nat :=
  let w := seq % 16 + 2 ^ 4 * (hop % 16) + 2 ^ 8 * (flags % 4096) + 2 ^ 20 * d0 + 2 ^ 41 * d1 + 2 ^ 62 * d2 + 2 ^ 83 * d3
  w + 2 ^ 104 * crc16 (leBytes 13 w)

/-- W of an anchor part with its CRC (Table 16-4). DEDUCED (log 36). -/
def anchorWord (slot state : Nat) (method : Bool) (spd fine pos : Nat) : Nat :=
  let w := slot % 4 + 4 * (state % 4) + 16 * b2n method + 2 ^ 8 * spd + 2 ^ 40 * fine + 2 ^ 48 * pos
  w + 2 ^ 112 * crc8 (leBytes 14 w)

/-- Send blocks on a port. -/
def blocksSend (s : State) (down : Bool) (l : List TthBlock) : State := each l (fun s b => blockSend s down b) s

/-- W of the delta part the manager sends (R447). -/
def deltaSent (s : State) (off : Nat) : Nat :=
  deltaWord s.tth.seq 0 (slotFlags s 0 + 8 * slotFlags s 1 + 64 * slotFlags s 2 + 512 * slotFlags s 3) (slotDelta s off 0) (slotDelta s off 1) (slotDelta s off 2) (slotDelta s off 3)

/-- W of the anchor part of slot `j` (R448). -/
def anchorSent (s : State) (off j : Nat) : Nat :=
  if slotSent s j then
    let t := rdC s (TTH_SLOT_CFG_TRAIL j)
    let q := slotPos s off j
    anchorWord j (speedCode (speedState s t)) (bitOf (trlStatus s t) 5) (ofSigned 32 (spdNow s t)) (ofSigned 8 q) (ofSigned 64 (floorDiv q 256))
  else anchorWord j 0 false 0 0 0

/-- What the next DELTA of each slot counts from. -/
def sentNow (s : State) (off : Nat) : List (Nat × Int) :=
  (List.range 4).foldl (fun m j => if slotSent s j then mput 0 m j (slotPos s off j) else m) s.tth.sent

/-- BEAT_TRANSMIT (R447, R448, Table 16-1): the manager sends a beat with every slot's change, one anchor and one message block. The phase of the reference instant after the TIM edge, in steps of 125 ps, is a
free value: the command does not give it. DEDUCED (log 36). -/
def beatTransmit (s : State) : State :=
  if !tthOn s || !isManager s then s else
  let p := freeNat s % 8
  let s := freeNext s
  let off := 8 * (s.now % 2) + p
  let l := partBlocks 0xE1 (deltaSent s off) ++ partBlocks 0xE2 (anchorSent s off (s.tth.seq % 4))
  tthDrain 1 (blocksSend { s with tth := { s.tth with seq := (s.tth.seq + 1) % 16, sent := sentNow s off, beatAt := 8 * s.now + p } } true l) true

/-! Beats: a worker (R452 to R454). -/

/-- The trails on a slot become UNTRUSTED (R452). -/
def slotUntrusted (s : State) (j : Nat) : State :=
  each (below 12 (fun t => tetherOn s t && rdC s (TRL_VCFG_MGR_TRAIL (t - 8)) == j)) (fun s t => wr s (TRL_STATUS_UNTRUSTED t) 1) s

/-- One slot on a good delta part (R452, R454). DEDUCED (log 36). -/
def slotDeltaIn (s : State) (w j : Nat) : State :=
  let x := mget ({} : TthSlot) s.tth.slots j
  let d := bitsOf w (40 + 21 * j) (20 + 21 * j)
  let fl := bitsOf w (10 + 3 * j) (8 + 3 * j)
  let put := fun (s : State) (y : TthSlot) => { s with tth := { s.tth with slots := mput {} s.tth.slots j y } }
  if !bitOf fl 0 then slotFreeze (put s { x with valid := false }) j
  else
    let x := { x with valid := true, spdValid := bitOf fl 1 }
    let ext := if x.spdValid then 256 * x.spd * 32 / 62500000 else 0
    let s := if d = 0x100000 then put s { x with stale := true, step := true, s := x.s + ext, rxAt := s.tth.beatAt }
      else put s { x with s := x.s + toSigned 21 d, rxAt := s.tth.beatAt }
    onlyIf (bitOf fl 2) (fun s => slotUntrusted s j) s

/-- One slot over a missing or bad beat (R454): stale, S carried on by SPD. DEDUCED (log 36). -/
def slotMissed (s : State) (j : Nat) : State :=
  let x := mget ({} : TthSlot) s.tth.slots j
  let ext := if x.spdValid then 256 * x.spd * 32 / 62500000 else 0
  { s with tth := { s.tth with slots := mput {} s.tth.slots j { x with stale := true, s := x.s + ext, rxAt := x.rxAt + 256 } } }

/-- W of a delta part with its form and CRC good. -/
def deltaOf (x : DeltaPart) : Option Nat :=
  (partWord 0xE1 x.b0 x.b1).bind (fun w => if x.present && bitsOf w 119 104 == crc16 (leBytes 13 (w % 2 ^ 104)) then some w else none)

/-- W of an anchor part with its form and CRC good. -/
def anchorOf (x : AnchorPart) : Option Nat :=
  (partWord 0xE2 x.b0 x.b1).bind (fun w => if bitsOf w 119 112 == crc8 (leBytes 14 (w % 2 ^ 112)) then some w else none)

/-- Whether a delta part is good with the SEQ a port expects (R446). -/
def seqGood (l : PortLock) (w : Option Nat) : Bool :=
  match w with
  | some w => (match l.expect with | some n => n == w % 16 | none => true)
  | none => false

/-- The rest of a worker's beat downstream: blocks 2 and 3, then its message block. -/
def beatRest (s : State) (l : List TthBlock) : State :=
  if !s.tth.half then s else tthDrain 1 (blocksSend { s with tth := { s.tth with half := false } } true l) true

/-- What stands in the place of a part that is not relayed. DESIGN CHOICE (log 36). -/
def idlePart : List TthBlock := [idleBlock, idleBlock]

/-- HOP of a good delta part (R442): HOP = 15 makes TTH_UP read unlocked, and nothing that waits to be relayed goes downstream. -/
def hopTake (s : State) (hop : Nat) : State :=
  let long := hop == 15
  let s := onlyIf (long && !rdB s TTH_STATUS_CHAIN_LONG) tthErr s
  let s := wrB s TTH_STATUS_CHAIN_LONG long
  if long then upLock { s with tth := { s.tth with relayDn := s.tth.relayDn.filter (·.own) } } false else wr s TTH_STATUS_HOP (hop + 1)

/-- An upstream delta part at TTH_DN (R446, R450). -/
def deltaUpstream (x : DeltaPart) (s : State) : State :=
  if !s.tth.dn.block then s else
  let w := deltaOf x
  beatLock (onlyIf (x.present && w.isNone) (fun s => tthCrc s true) s) true (seqGood s.tth.dn w) (w.map (· % 16))

/-- The two beats a worker sends for one that it receives, but for the anchor part and the last block downstream (Table 16-1, R442): the delta part with its own HOP, and upstream the SEQ of that beat, or
the next where none is known. DEDUCED (log 36). -/
def beatsSend (s : State) (w : Option Nat) : State :=
  let l := match w with
    | some w => if bitsOf w 7 4 = 15 then idlePart else
        partBlocks 0xE1 (deltaWord (w % 16) (bitsOf w 7 4 + 1) (bitsOf w 19 8) (bitsOf w 40 20) (bitsOf w 61 41) (bitsOf w 82 62) (bitsOf w 103 83))
    | none => idlePart
  let n := match w with
    | some w => w % 16
    | none => (s.tth.seq + 1) % 16
  let s := blocksSend { s with tth := { s.tth with seq := n, half := true } } true l
  tthDrain 3 (blocksSend s false (partBlocks 0xE1 (deltaWord n (rd s TTH_STATUS_HOP) 0 0 0 0 0))) false

/-- A delta part, there or not, at TTH_UP: what it does there, and the worker's own beats. DEDUCED (log 36). -/
def deltaDown (x : DeltaPart) (s : State) : State :=
  let w := deltaOf x
  let good := seqGood s.tth.up w
  let s := onlyIf (x.present && w.isNone) (fun s => tthCrc s false) s
  let s := onlyIf (rdB s TTH_STATUS_UP_LOCK && !good) (fun s => windowInc (addSat (each (List.range 4) slotMissed s) TTH_CNT_BEAT_LOST_COUNT 1) 84 1) s
  let s := if w.any (fun w => bitsOf w 7 4 == 15) then s else beatLock s false good (w.map (· % 16))
  let s := match w with
    | some w => hopTake s (bitsOf w 7 4)
    | none => s
  let s := { s with tth := { s.tth with beatAt := 8 * s.now + x.phase.toNat } }
  let s := match w with
    | some w => onlyIf (good && rdB s TTH_STATUS_UP_LOCK) (fun s => each (List.range 4) (fun s j => slotDeltaIn s w j) s) s
    | none => s
  beatsSend s w

/-- POSITION_DELTA_RECEIVE (R442, R446, R451, R452, R454): a worker takes a beat's delta part from TTH_UP, sends its own beats, and message blocks go with them; an upstream one at TTH_DN. DEDUCED (log 36). -/
def positionDelta (x : DeltaPart) (s : State) : State :=
  if !tthOn s then s
  else if x.down then deltaUpstream x s
  else if !isWorker s || !s.tth.up.block then s else deltaDown x (virtSync (beatRest s idlePart))

/-- A good anchor of slot `j` (R452, R454): S, SPD and the speed state; after a STEP the trails on the slot step. DEDUCED (log 36). -/
def slotAnchor (s : State) (j w : Nat) : State :=
  let y := mget ({} : TthSlot) s.tth.slots j
  let v := toSigned 64 (bitsOf w 111 48) * 256 + bitsOf w 47 40
  let s := onlyIf (v != y.s) (fun s => tthErr (addSat s TTH_CNT_ANCHOR_MISMATCH_COUNT 1)) s
  let spd := toSigned 32 (bitsOf w 39 8)
  let z := { y with s := v, rxAt := s.tth.beatAt, spd := spd, st := speedOfCode (bitsOf w 3 2), frozen := none, stale := false, step := false }
  let s := { s with tth := { s.tth with slots := mput {} s.tth.slots j z } }
  let ts := below 12 (fun t => tetherOn s t && rdC s (TRL_VCFG_MGR_TRAIL (t - 8)) == j)
  let s := each ts (fun s t => setTrl s t { trl s t with windowM := bitOf w 4, dir := decide (spd < 0) }) s
  if y.step then each ts (fun s t => later s (.posStep t)) s else s

/-- POSITION_ANCHOR_RECEIVE (R448, R450, R451, R452, R454): an anchor whose CRC fails or whose SLOT is not the beat's is discarded; a good one is relayed, and sets its slot. DEDUCED (log 36). -/
def positionAnchor (x : AnchorPart) (s : State) : State :=
  if !tthOn s || !isWorker s || !s.tth.up.block then s else
  let w := anchorOf x
  let here := ((s.tth.up.expect.getD 0) + 15) % 4
  let fits := w.any (fun w => w % 4 == here)
  let lock := rdB s TTH_STATUS_UP_LOCK
  let y := mget ({} : TthSlot) s.tth.slots here
  let part := if fits && !rdB s TTH_STATUS_CHAIN_LONG then [x.b0, x.b1] else idlePart
  let s := beatRest (onlyIf w.isNone (fun s => tthCrc s false) s) part
  if !lock then s else
  match w with
  | none => { s with tth := { s.tth with slots := mput {} s.tth.slots here { y with stale := true } } }
  | some w => if !fits || !y.valid then s else slotAnchor (virtSync s) here w

/-- SLOT_STALE_EXPIRE (R454): a stale slot has had no good anchor for 64 beats. -/
def slotStaleExpire (j : Nat) (s : State) : State :=
  if tthOn s && isWorker s && (mget ({} : TthSlot) s.tth.slots j).stale then slotFreeze s j else s

/-! Guyline messages (R465). -/

/-- TTH_FWD_SEND (R422): the buffered GUYLINE message goes in its directions; the buffer is free. -/
def tthFwdSend (s : State) : State :=
  match s.gyl.fwd with
  | none => s
  | some (slot, dir, hop) =>
    let b := [guylineBlock slot hop (rd s MODE_STATUS_WORKER_ID) (isManager s)]
    let s := { s with gyl := { s.gyl with fwd := none } }
    let s := onlyIf (bitOf dir 0 && portUp s false) (fun s => tthOwn s false 0xE8 b) s
    onlyIf (bitOf dir 1 && portUp s true) (fun s => tthOwn s true 0xE8 b) s

/-- GUYLINE_MESSAGE_RECEIVE (R431, R451, R465): received on TTH_DN (`down`) or TTH_UP. DEDUCED (log 37). -/
def guylineMessage (down : Bool) (x : TthIn) (s : State) : State :=
  if !portUp s down then s else
  match singleOf 0xE8 x.blocks with
  | none => tthCrc s down
  | some c =>
    let a := atBytes c 0 1
    let b := atBytes c 1 1
    let mine := b % 16 == rd s MODE_STATUS_WORKER_ID && bitOf b 4 == isManager s
    onlyIf (!mine) (fun s => later s (.gyl (192 + a % 16) (a / 16 % 8))) (tthRelay s (!down) 0xE8 x.blocks)

/-! Heartbeats (R459 to R462). -/

/-- READY: a FOLLOW commit is armed (Table 16-5). -/
def followReady (s : State) : Bool :=
  rd s CHG_STATUS_PHASE == 1 && (match s.chg.armed with | some a => a.follow | none => false)

/-- What an extra HEARTBEAT is sent for (R459). -/
def hbState (s : State) : Nat × Nat × Bool := (mode s, rd s MODE_STATUS_TARGET, followReady s)

/-- Send a HEARTBEAT on the port its role sends on: the manager downstream, a worker upstream (R459). DEDUCED (log 37). -/
def heartbeatSend (down : Bool) (s : State) : State :=
  if !portUp s down || (down != isManager s) then s else
  let b := heartbeatBlock (mode s) (rd s MODE_STATUS_TARGET) (rd s MODE_STATUS_WORKER_ID) (isManager s) (followReady s) (rdB s MODE_STATUS_NOT_FOLLOWING) s.tth.hoMiss
    (if mode s = 10 then rd s MODE_CAUSE_SOURCE else 0) (rd s TTH_STATUS_HOP) s.tth.hoDone
  tthOwn { s with tth := { s.tth with hb := some (hbState s) } } down 0xE9 [b]

/-- The extra HEARTBEAT on a change of MODE, TARGET or READY, or on a hand-over (R459). DEDUCED (log 37). -/
def heartbeatCheck (s : State) : State :=
  if s.tth.hb = some (hbState s) then s else heartbeatSend (isManager s) s

/-- A worker follows its manager's HEARTBEAT (R56, R57, R460). DEDUCED (log 37). -/
def followManager (s : State) (mgrMode target : Nat) : State :=
  let own := rd s MODE_STATUS_TARGET
  let m := mode s
  let s' := wr s MODE_STATUS_NOT_FOLLOWING 0
  if target = 10 then (if own = 10 then s else enterHold s 3 0 false)
  else if mgrMode = 8 || target = 8 then
    if m = 3 || m = 8 then s else if acquiring s then enterDrain s' mcManager else wr s MODE_STATUS_NOT_FOLLOWING 1
  else if (target = 4 || target = 5 || target = 6) && target != own then
    if m = 3 then enterAcq s' target mcManager
    else if m = 7 then s
    else if (m = 5 || m = 6) && target != 4 then later (showTarget { s' with modeCtl := { s'.modeCtl with lockTarget := target == 6 } }) .lockCheck
    else if acquiring s then enterAcq s' target mcManager
    else wr s MODE_STATUS_NOT_FOLLOWING 1
  else s

/-- A worker's presence changes at the manager (R461): its READY bit (R268) where it is gone, the CHAIN source and a CHAIN_CHANGE record. DEDUCED (log 37). -/
def chainChange (s : State) (w : Nat) (present : Bool) : State :=
  let old := rd s TTH_PRESENT_PRESENT
  let r := rd s CHG_CHAIN_READY
  let s := onlyIf (!present) (fun s => wr s CHG_CHAIN_READY (r - Nat.land r (2 ^ w))) s
  let s := wr s TTH_PRESENT_PRESENT (if present then Nat.lor old (2 ^ w) else old - Nat.land old (2 ^ w))
  raise (record s rpControl 0x12 svWarning 0x7001 (leBytes 1 w ++ leBytes 1 (b2n present))) srcTthChain

/-- The manager judges a worker's hand-over by its first HEARTBEAT more than 2 x INT after h (R464). DEDUCED (log 37). -/
def judgeHandover (s : State) (w : Nat) (miss : Bool) (id : Nat) : State :=
  match s.tth.hAt with
  | none => s
  | some h =>
    if s.tth.judged.contains w || !decide (h + 2000 * orOne (rdC s TTH_HB_INT) < s.now) then s else
    let s := { s with tth := { s.tth with judged := w :: s.tth.judged } }
    if miss || id != s.tth.hoId then
      wr (wr s CHG_CHAIN_MISSED (Nat.lor (rd s CHG_CHAIN_MISSED) (2 ^ w))) CHG_STATUS_CHAIN_MISS 1
    else s

/-- A manager takes a worker's HEARTBEAT (R460, R462, R464, R268). DEDUCED (log 37). -/
def heartbeatUp (s : State) (x : Heartbeat) : State :=
  let w := x.id
  let was := mget ({} : WorkerS) s.tth.workers w
  let here := bitOf (rd s TTH_PRESENT_PRESENT) w
  if here && was.hop != x.hop then
    let s := tthErr (wr s TTH_PRESENT_DUP (Nat.lor (rd s TTH_PRESENT_DUP) (2 ^ w)))
    chainChange s w false
  else if bitOf (rd s TTH_PRESENT_DUP) w then s
  else
    let y : WorkerS := { hop := x.hop, mode := x.mode, target := x.target, ready := x.ready, notFollowing := x.notFollowing, hoMiss := x.hoMiss, hoId := x.hoId, heardAt := s.now }
    let s := { s with tth := { s.tth with workers := mput {} s.tth.workers w y } }
    let s := onlyIf (!here) (fun s => chainChange s w true) s
    let r := rd s CHG_CHAIN_READY
    let s := wr s CHG_CHAIN_READY (if x.ready then Nat.lor r (2 ^ w) else r - Nat.land r (2 ^ w))
    let s := judgeHandover s w x.hoMiss x.hoId
    if x.mode = 10 && (was.mode != 10 || !here) && rdB s MODE_CTRL_CHAIN_HOLD && decide (2 ≤ mode s) && decide (mode s ≤ 9) then
      enterHold (wr s TTH_STATUS_HOLD_FROM w) 3 0 false
    else s

/-- HEARTBEAT_RECEIVE (R451, R460, R462): a worker follows the manager's, from TTH_UP; the manager takes a worker's, from TTH_DN. DEDUCED (log 37). -/
def heartbeatReceive (x : TthIn) (s : State) : State :=
  if !portUp s x.down then s else
  match singleOf 0xE9 x.blocks with
  | none => tthCrc s x.down
  | some c =>
    let h := heartbeatOf c
    let follows := !x.down && h.mgr && isWorker s
    let takes := x.down && !h.mgr && isManager s
    let s := tthRelay s (!x.down) 0xE9 x.blocks
    if follows then followManager s h.mode h.target
    else if takes then heartbeatUp s h
    else s

/-- HEARTBEAT_LOSS (R461): a worker hears no manager, or the manager no worker `w`. DEDUCED (log 37). -/
def heartbeatLoss (w : Option Nat) (s : State) : State :=
  if !tthOn s then s else
  match w with
  | none =>
    if isWorker s then
      let s := raise (wr s TTH_STATUS_HB_LOST 1) srcTthHbLoss
      enterHold (later s (.gyl 190 0)) 4 0 false
    else s
  | some w =>
    if isManager s && bitOf (rd s TTH_PRESENT_PRESENT) w then chainChange s w false else s

/-! Time (R463). -/

/-- TIME_MESSAGE_SEND: the manager sends a selected domain's time. -/
def timeMessageSend (d : Nat) (s : State) : State :=
  if portUp s true && isManager s && bitOf (rdC s TTH_CFG_TIME_DOM) d then
    tthJoin s true { kind := 1, blocks := [], size := 1 + nData 12, own := true, dom := some d }
  else s

/-- TIME_MESSAGE_RECEIVE: a worker domain with tether source takes an offset sample, from its own time at the reference instant of the header's beat, as the manager had it. DEDUCED (log 37). -/
def timeMessageReceive (x : TthIn) (s : State) : State :=
  if !portUp s false then s else
  match multiOf 1 x.blocks with
  | none => tthCrc s false
  | some (h, c) =>
    let d := atBytes h 4 1 % 4
    let takes := rd s (TMB_DOM_CFG_SRC d) == 3 && bitOf (atBytes h 4 1) 2
    let s := onlyIf (relayable h) (fun s => tthRelay s true 1 x.blocks) s
    if takes then
      let own := floorDiv (domRefRaw s d ((s.tth.beatAt : Int) - 256 * (x.beats : Int) - 384 * (rd s TTH_STATUS_HOP : Int))) (2 ^ 32)
      offsetCore d (own - ((atBytes c 0 8 * 256 + atBytes c 8 1 : Nat) : Int)) (orOne (rdC s TTH_CFG_TIME_MS) * 10 ^ 6) false s
    else s

/-! Hand-over across the chain (R266, R267, R464). -/

/-- HANDOVER_MESSAGE_SEND: one of the three copies. -/
def handoverMessageSend (s : State) : State :=
  match s.tth.ho with
  | none => s
  | some h =>
    let s := { s with tth := { s.tth with ho := (if h.left ≤ 1 then none else some { h with left := h.left - 1 }) } }
    onlyIf (portUp s true && isManager s) (fun s => tthOwn s true 2 (handoverBlocks h.slot h.neg h.id (ofSigned 64 h.pos) h.job h.ver)) s

/-- A worker's tether trail that carries a slot (R267). -/
def trailOfSlot (s : State) (j : Nat) : Option Nat :=
  (below 12 (fun t => tetherOn s t && rdC s (TRL_VCFG_MGR_TRAIL (t - 8)) == j)).head?

/-- A worker acts on the first good copy of a HANDOVER message (R267, R268). DEDUCED (log 37). -/
def handoverFollow (s : State) (x : HoMsg) : State :=
  let miss := fun (s : State) => { s with tth := { s.tth with hoMiss := true } }
  let s := { s with tth := { s.tth with hoSeen := some x.id } }
  if !followReady s then miss s else
  match s.chg.armed, trailOfSlot s x.slot with
  | some a, some t =>
    if x.job != rdShadow s CHG_JOB_JOB_ID || x.ver != rdShadow s CHG_JOB_RCP_VER then miss (disarm s 15)
    else
      let r := armOrLate s { a with kind := 0, follow := false, onTrail := t, onNeg := x.neg, pos := x.pos, hoId := some x.id }
      if r.2 then r.1 else miss (disarm r.1 (rd r.1 CHG_STATUS_RESULT))
  | some _, none => miss (disarm s 15)
  | none, _ => miss s

/-- HANDOVER_MESSAGE_RECEIVE (R267, R464). -/
def handoverMessageReceive (x : TthIn) (s : State) : State :=
  if !portUp s false || !isWorker s then s else
  match multiOf 2 x.blocks with
  | none => tthCrc s false
  | some (h, c) =>
    let m := handoverOf h c
    let seen := s.tth.hoSeen == some m.id
    let s := onlyIf (relayable h) (fun s => tthRelay s true 2 x.blocks) s
    if seen then s else handoverFollow s m

/-! Calibration (R457). -/

/-- CAL_MESSAGE_RECEIVE: the pad P = 18.0 ns - L, at once in IDLE, ARMED or CALIBRATE, else at the next IDLE or ARMED. DEDUCED (log 37). -/
def calMessageReceive (x : TthIn) (s : State) : State :=
  if !portUp s false || !isWorker s then s else
  match multiOf 4 x.blocks with
  | none => tthCrc s false
  | some (_, c) =>
    let p := 4608 - atBytes c 0 4
    let now := mode s == 2 || mode s == 3 || mode s == 9
    let s := wr s TTH_STATUS_UNCAL 0
    if now then wr (wr { s with tth := { s.tth with pad := none } } TTH_PAD_P p) TTH_STATUS_PAD_PEND 0
    else wr { s with tth := { s.tth with pad := some p } } TTH_STATUS_PAD_PEND 1

/-- Whether the tether routine fails (R457): its lock was lost, or the measured L is above 16.0 ns. -/
def tetherFails (s : State) (l : Nat) : Bool := s.tth.calLost || (portUp s true && decide (4096 < l))

/-- The tether routine of CALIBRATE ends (R457): `ok` with the measured L, or failed; without a partner below nothing is measured. -/
def tetherCalibrated (s : State) (ok : Bool) (l : Nat) : State :=
  if !ok then raise (wr s TTH_STATUS_CAL_ERR 1) srcTthCal
  else
    let s := raise s srcTthCal
    if portUp s true then tthOwn (wr s TTH_LINKDLY_L l) true 4 (calBlocks l) else s

/-! The enable (R440, R467). -/

/-- Whether an enable of the tether is refused: a STANDALONE device (R440). -/
def tthRefused (s : State) : Bool := !(isManager s || isWorker s)

/-- The tether is DISABLED: the ports lose lock, nothing is in flight. -/
def tthOff (s : State) : State :=
  let s := upLock s false
  let s := if rdB s TTH_STATUS_DN_LOCK then raise (wr s TTH_STATUS_DN_LOCK 0) srcTthLink else s
  { s with tth := { s.tth with up := {}, dn := {}, recovered := false, half := false, relayDn := [], relayUp := [], mgmt := none, hb := none } }

end Sys2Proof.Machine
end

