-- ==== Sys2Proof/Machine/Mailbox.lean ====
section
/-! DEFINITION. The mailboxes (14_mailbox_commands.md R386 to R408, R419): doorbells, the checks of a command, authentication, completing a command, forwarding over the tether, the watchdog. -/

namespace Sys2Proof.Machine

/-! Buffers (R388, R389). -/

/-- The command buffer of mailbox `m`. -/
def cmdBuf (m : Nat) : Nat := 0x10000 + 0x1000 * m

/-- A word of the response buffer at byte `o` (R389): the response, padded with 0 to 8 bytes; a free value beyond. -/
def respWord (s : State) (m o : Nat) : Word :=
  let l := mget [] s.mp.resp m
  let n := (l.length + 7) / 8 * 8
  if o + 4 ≤ n then BitVec.ofNat 32 (leNat (((padTo n l).drop o).take 4))
  else Config.undefinedWord (rd s (MBX_CNT_DONE m) + 65536 * s.epoch) (0x5000000 + cmdBuf m + o)

/-- Store a response. -/
def setResp (s : State) (m : Nat) (l : List Byte) : State := { s with mp := { s.mp with resp := mput [] s.mp.resp m l } }

/-- A write into the command buffer (R391): discarded with WR_LOCK while the mailbox is BUSY; one without a host owner takes none. -/
def cmdWrite (s : State) (m a : Nat) (w : Word) : State :=
  if rd s (MBX_STATUS_STATE m) = 1 then wr s (MBX_STATUS_WR_LOCK m) 1
  else if m = 7 || (m = 6 && !isManager s) then s
  else ramSet s a w

/-! The command header (Table 14-3). -/

/-- The header of the command in mailbox `m`. -/
def cmdHeader (s : State) (m : Nat) : List Byte := ramBytes s (cmdBuf m) 16

/-- The command in the buffer of mailbox `m`, as its header says (with AUTH the trailer is no parameter). -/
def cmdOf (s : State) (m : Nat) : MpCmd :=
  let h := cmdHeader s m
  let plen := min 4080 (atBytes h 4 2)
  let n := if bitOf (atBytes h 6 2) 0 then plen - 104 else plen
  { m := m, op := atBytes h 0 2, seq := atBytes h 2 2, quiet := bitOf (atBytes h 6 2) 1, par := ((ramBytes s (cmdBuf m) (16 + plen)).drop 16).take n, key := 0 }

/-- A number of `n` bytes at `o` of a command's parameters. -/
def MpCmd.num (c : MpCmd) (o n : Nat) : Nat := atBytes c.par o n

/-! Tunnelling (R466). -/

/-- Cut bytes into MGMT fragments of at most 252 bytes. The first argument bounds their number. -/
def mgmtCut : Nat → List Byte → List (List Byte)
  | 0, _ => []
  | n + 1, l => if l.length ≤ 252 then [l] else l.take 252 :: mgmtCut n (l.drop 252)

/-- Send an Edusk command or response through the tunnel as fragments from 0, LAST on the final one. -/
def mgmtSend (s : State) (down : Bool) (dest : Nat) (toMgr : Bool) (seq : Nat) (l : List Byte) : State :=
  let fs := mgmtCut 32 l
  onlyIf (portUp s down) (fun s => each fs.zipIdx (fun s p => tthOwn s down 3 (mgmtBlocks dest toMgr p.2 (p.2 + 1 == fs.length) false seq p.1)) s) s

/-! Completing a command (Table 14-2, R392, R393). -/

/-- The status codes that the checks use (Table 14-8). -/
abbrev stOk : Nat := 0
abbrev stBadParam : Nat := 4
abbrev stNotAllowed : Nat := 9
abbrev stBusy : Nat := 0xB
abbrev stAborted : Nat := 0xC
abbrev stSignature : Nat := 0x11

/-- A response (Table 14-4). -/
def respBytes (op seq status detail : Nat) (data : List Byte) : List Byte :=
  leBytes 2 op ++ leBytes 2 seq ++ leBytes 2 data.length ++ leBytes 2 status ++ leBytes 4 detail ++ leBytes 4 0 ++ data

/-- What a mailbox reads when it holds no command: IDLE, or NO_OWNER (R387). DEDUCED (log 31). -/
def idleState (s : State) (m : Nat) : Nat := if m = 7 || (m = 6 && !isManager s) then 3 else 0

/-- The figures of a completed command: MBX_CNT, MBX_LAST; the MP is free of it. -/
def mbxCount (s : State) (m seq status : Nat) : State :=
  let s := addWrap s (MBX_CNT_DONE m) 1
  let s := onlyIf (status != 0) (fun s => addSat s (MBX_CNT_NOTOK m) 1) s
  let s := wr (wr (wr s (MBX_LAST_STATUS m) status) (MBX_LAST_SEQ m) seq) (MBX_STATUS_ABORTING m) 0
  { s with mp := { s.mp with long := s.mp.long.filter (fun l => l.cmd.m != m), stage := (if s.mp.cur.any (fun c => c.m == m) then none else s.mp.stage)
                             cur := s.mp.cur.filter (fun c => c.m != m) } }

/-- A mailbox goes DONE with response bytes; a worker's MBX6 sends them to its manager (R406, R407). -/
def mbxDone (s : State) (m seq : Nat) (l : List Byte) : State :=
  let s := wr (wr (setResp s m l) (MBX_STATUS_STATE m) 2) (MBX_STATUS_DONE m) 1
  let s := onlyIf (decide (m < 7)) (fun s => raise s (srcMbx m)) s
  onlyIf (m == 6 && isWorker s) (fun s => mgmtSend s false (rd s MODE_STATUS_WORKER_ID) true seq l) s

/-- Complete a command with a status, DETAIL and response bytes (R392, R393, R419). -/
def respond (s : State) (c : MpCmd) (status detail : Nat) (data : List Byte) : State :=
  let s := mbxCount s c.m c.seq status
  if c.quiet then wr s (MBX_STATUS_STATE c.m) (idleState s c.m)
  else mbxDone s c.m c.seq (respBytes c.op c.seq status detail data)

/-- Complete a command with OK. -/
def respondOk (s : State) (c : MpCmd) (data : List Byte) : State := respond s c stOk 0 data

/-! Doorbells (R387, R390, R394). -/

/-- A mailbox takes a command: BUSY, with the header's SEQ, in doorbell order. -/
def mbxRing (m : Nat) (s : State) : State :=
  let s := wr (wr s (MBX_STATUS_STATE m) 1) (MBX_STATUS_DONE m) 0
  let s := wr s (MBX_STATUS_SEQ m) (atBytes (cmdHeader s m) 2 2)
  { s with mp := { s.mp with order := s.mp.order ++ [m] } }

/-- Whether the host owns a mailbox (Table 14-1). DEDUCED (log 31). -/
def hostOwns (s : State) (m : Nat) : Bool := decide (m < 6) || (m == 6 && isManager s)

/-- MBX_GO. DEDUCED (log 31). -/
def mbxGo (m : Nat) (s : State) : State :=
  if !hostOwns s m || rd s (MBX_STATUS_STATE m) == 1 then wr s (MBX_STATUS_DB_ERR m) 1 else mbxRing m s

/-- A request to stop reaches a BUSY mailbox. -/
def abortAsk (m : Nat) (s : State) : State := if rd s (MBX_STATUS_STATE m) = 1 then wr s (MBX_STATUS_ABORTING m) 1 else s

/-- The request to stop goes to worker `w` (R406). -/
def abortForward (s : State) (w seq : Nat) : State := onlyIf (portUp s true) (fun s => tthOwn s true 3 (mgmtBlocks w false 0 true true seq [])) s

/-- MBX_ABORT: forwarded to the worker where the command has been (R406). DEDUCED (log 31). -/
def mbxAbort (m : Nat) (s : State) : State :=
  if !hostOwns s m then wr s (MBX_STATUS_DB_ERR m) 1
  else
    let s := abortAsk m s
    match s.mp.fwd with
    | some (w, q) => onlyIf (m == 6) (fun s => abortForward s w q) s
    | none => s

/-- MBX_ACK (Table 14-2): of a mailbox that the host owns. DEDUCED (log 31). -/
def mbxAck (m : Nat) (s : State) : State :=
  if hostOwns s m && rd s (MBX_STATUS_STATE m) = 2 then wr (wr s (MBX_STATUS_STATE m) (idleState s m)) (MBX_STATUS_DONE m) 0 else s

/-! The checks of a command (R401). -/

/-- Class (0 Q, 1 U, 2 A) and whether AUTH is required, by opcode (Table 14-5). -/
def opInfo (op : Nat) : Option (Nat × Bool) :=
  match op with
  | 0x0001 | 0x0002 | 0x0003 | 0x0004 | 0x0100 | 0x0200 | 0x0201 | 0x0202 | 0x0304 | 0x0401 | 0x0403 | 0x0502 | 0x0600 | 0x0601 => some (0, false)
  | 0x0203 | 0x0301 | 0x0302 | 0x0400 => some (1, false)
  | 0x0103 | 0x0300 | 0x0303 | 0x0500 | 0x0501 => some (2, false)
  | 0x0101 | 0x0102 | 0x0402 | 0x0503 => some (2, true)
  | _ => none

/-- Opcodes that the MP ROM executes (R397). -/
def romOp (op : Nat) : Bool := op == 0x0001 || op == 0x0002 || op == 0x0003 || op == 0x0100 || op == 0x0401 || op == 0x0403

/-- Whether a mailbox serves a class (Table 14-1). -/
def serves (m cls : Nat) : Bool := m == 0 || decide (6 ≤ m) || decide (cls < 2)

/-- The offset of the first faulty field of a header; none where it is good (R401). DEDUCED (log 31). -/
def headerFault (s : State) (m : Nat) : Option Nat :=
  let h := cmdHeader s m
  let tgt := atBytes h 8 1
  if 4080 < atBytes h 4 2 then some 4
  else if 4 ≤ atBytes h 6 2 then some 6
  else if (if m = 6 then isManager s && decide (16 ≤ tgt) else tgt != 255) then some 8
  else if atBytes h 9 7 != 0 then some 9 else none

/-- Whether the mode forbids a command (R410, Table 2-3). -/
def modeForbids (s : State) (op : Nat) : Bool :=
  let m := mode s
  match op with
  | 0x0101 => !(m == 2 || m == 10)
  | 0x0102 => m != 11
  | 0x0103 => !(m == 2 || m == 3)
  | 0x0300 | 0x0301 | 0x0302 => m == 11
  | _ => false

/-- The bytes that `n` value entries take at least, as far as a list shows their lengths: 16 for one whose header it does not hold (R415). DEDUCED (log 31). -/
def entriesLen : Nat → List Byte → Nat
  | 0, _ => 0
  | n + 1, l =>
    if l.length < 8 then 16 * (n + 1) else
    let k := 8 + (leNat ((l.drop 2).take 2) + 7) / 8 * 8
    k + entriesLen n (l.drop k)

/-- The parameter bytes an opcode requires (R409), by its count fields. -/
def lengthOf (c : MpCmd) : Nat :=
  match c.op with
  | 0x0001 => c.par.length
  | 0x0102 | 0x0200 | 0x0301 | 0x0302 | 0x0303 | 0x0304 | 0x0401 | 0x0501 | 0x0502 => 8
  | 0x0103 | 0x0300 | 0x0500 => 16
  | 0x0201 | 0x0202 => 8 + (2 * c.num 0 2 + 3) / 4 * 4
  | 0x0203 => if c.par.length < 8 then 8 else 8 + entriesLen (c.num 0 2) (c.par.drop 8)
  | 0x0503 => 8 + (c.num 4 4 + 3) / 4 * 4
  | _ => 0

/-! Authentication (R402 to R405). -/

/-- Whether KEY_ID names a key with a role (R404, R537, R538; 0 RECIPE, 1 COMMAND): the verified root key, or an OEM slot that is ACTIVE with the role. -/
def keyKnown (s : State) (k role : Nat) : Bool :=
  if k = 0 then rdB s SEC_STATUS_ROOT_OK
  else decide (k ≤ 4) && rd s SEC_STATUS_SLOT_STATE / 4 ^ (k - 1) % 4 == 1 && bitOf (rd s SEC_STATUS_ROLES) (2 * (k - 1) + role)

/-- The public key that a KEY_ID names (Table 20-5). -/
def keyBytes (s : State) (k : Nat) : List Byte := if k = 0 then leBytes 97 Config.rootKey.toNat else mget [] s.mp.keys (k - 1)

/-! What a signature covers (R403). That a triple of key, bytes and signature verifies is a fact of ECDSA, which the spec names and does not define: it comes with the command (log 8). -/

/-- What verifying the command in mailbox `m` needs: the key KEY_ID names; the header as written, the parameters before the trailer, the nonce and the die identity word; r and s of the trailer. -/
def trailerSig (s : State) (m key : Nat) (nonce : List Byte) : SigFact :=
  let n := 16 + atBytes (cmdHeader s m) 4 2 - 104
  { key := keyBytes s key, msg := ramBytes s (cmdBuf m) n ++ nonce ++ leBytes 8 Config.dieId.toNat, rs := (ramBytes s (cmdBuf m) (n + 104)).drop (n + 8) }

/-- An authentication failure (R404, R405): recorded; at the eighth in a row authentication is locked for 10 s. DEDUCED (log 31). -/
def authFailed (s : State) (m op detail : Nat) : State :=
  let n := s.mp.fails + 1
  let s := record s rpMp 0x05 svWarning 0x9001 (leBytes 1 m ++ leBytes 2 op ++ leBytes 1 detail)
  { s with mp := { s.mp with fails := n, lock := (if 8 ≤ n then some (ducNow s + 10000000) else s.mp.lock) } }

/-- The DETAIL of an authentication failure (Table 14-8); 0 where the command verifies. -/
def authDetail (s : State) (m key : Nat) (sig : Option SigFact) : Nat :=
  match mget none s.mp.nonces m with
  | none => 1
  | some (e, nonce) => if e < ducNow s then 2 else if !keyKnown s key 1 then 3 else if sig != some (trailerSig s m key nonce) then 4 else 0

/-- Milliseconds for which authentication stays locked; 0 where it is not. -/
def lockedMs (s : State) : Nat := match s.mp.lock with | some t => (t - ducNow s + 999) / 1000 | none => 0

/-- Authentication of the command in mailbox `m` (R403 to R405): the status and DETAIL it fails with, if any. The nonce serves this one command. DEDUCED (log 31). -/
def authenticate (s : State) (c : MpCmd) (auth needs : Bool) (sig : Option SigFact) (key : Nat) : State × Option (Nat × Nat) :=
  if !auth then (s, if needs then some (6, 0) else none)
  else
    let d := authDetail s c.m key sig
    let s1 := { s with mp := { s.mp with nonces := mput none s.mp.nonces c.m none } }
    if lockedMs s != 0 then (s1, some (8, lockedMs s))
    else if d != 0 then (authFailed s1 c.m c.op d, some (7, d))
    else ({ s1 with mp := { s1.mp with fails := 0, lock := none } }, none)

/-! Taking a command (R395, R401, R406). -/

/-- A manager's MBX6: the command goes to its worker (R406), with the request to stop that came before. DEDUCED (log 31). -/
def forward (s : State) (c : MpCmd) : State :=
  let h := cmdHeader s 6
  let w := atBytes h 8 1
  if !bitOf (rd s TTH_PRESENT_PRESENT) w then respond s c 0x18 w []
  else
    let s := mgmtSend s true w false c.seq (ramBytes s (cmdBuf 6) (16 + atBytes h 4 2))
    let s := onlyIf (rdB s (MBX_STATUS_ABORTING 6)) (fun s => abortForward s w c.seq) s
    if c.quiet then respondOk s c [] else { s with mp := { s.mp with fwd := some (w, c.seq), cur := none } }

/-- The checks from PRIVILEGE on (R401): the command ends with the first that fails, or the MP executes it. DEDUCED (log 31). -/
def checkCommand (s : State) (c : MpCmd) (cls : Nat) (needs : Bool) (sig : Option SigFact) : State :=
  let h := cmdHeader s c.m
  let auth := bitOf (atBytes h 6 2) 0
  let plen := atBytes h 4 2
  let key := if auth && decide (104 ≤ plen) then atBytes (ramBytes s (cmdBuf c.m) (16 + plen)) (16 + plen - 104) 4 else 2 ^ 32
  if !serves c.m cls then respond s c 5 0 []
  else if c.op = 0x0600 && !isManager s then respond s c 0xA (role s) []
  else
    let a := authenticate s c auth needs sig key
    match a.2 with
    | some (st, d) => respond a.1 c st d []
    | none =>
      let s := a.1
      if modeForbids s c.op then respond s c stNotAllowed (mode s) []
      else if c.par.length != lengthOf c then respond s c 3 (lengthOf c + (if auth then 104 else 0)) []
      else { s with mp := { s.mp with cur := some { c with key := key } } }

/-- MP_TAKE_COMMAND: the next command in doorbell order (R395, R397, R401); the MP ROM forwards none. DEDUCED (log 8). DEDUCED (log 31). -/
def mpTake (sig : Option SigFact) (s : State) : State :=
  if !rdB s MBX_FW_STATUS_READY || s.mp.cur.isSome then s else
  match s.mp.order with
  | [] => s
  | m :: rest =>
    let s := { s with mp := { s.mp with order := rest } }
    let c := cmdOf s m
    match headerFault s m with
    | some o => respond s c 2 o []
    | none =>
      if m = 6 && isManager s && !rdB s MBX_FW_STATUS_ROM then forward s c else
      match opInfo c.op with
      | none => respond s c 1 0 []
      | some (cls, needs) =>
        if rdB s MBX_FW_STATUS_ROM && !romOp c.op then respond s c stNotAllowed (mode s) []
        else checkCommand s c cls needs sig

/-- Run the command that the MP has taken from mailbox `m`, when its opcode is `op`, in a mode that does not forbid it (R401, R410); a stage that is writing goes on. -/
def runOp (op m : Nat) (f : MpCmd → State → State) (s : State) : State :=
  match s.mp.cur with
  | some c => if c.m = m ∧ c.op = op then (if modeForbids s op && s.mp.stage.isNone then respond s c stNotAllowed (mode s) [] else f c s) else s
  | none => s

/-- A running long command with an opcode (R396). -/
def longOf (s : State) (op : Nat) : Option LongCmd := s.mp.long.find? (fun l => l.cmd.op == op)

/-- A long command starts (R395): the MP is free for the next command. -/
def longStart (s : State) (l : LongCmd) : State := { s with mp := { s.mp with long := s.mp.long ++ [l], cur := none } }

/-! Forwarded commands (R406 to R408, R466). -/

/-- TETHER_MBX_TIMEOUT (R408). -/
def tetherMbxTimeout (s : State) : State :=
  match s.mp.fwd with
  | some (w, _) => respond { s with mp := { s.mp with fwd := none } } { cmdOf s 6 with quiet := false } 0x19 w []
  | none => s

/-- A fragment joins the message it belongs to (R466): the first starts it, a gap discards it. Answers the message's bytes when it is whole. DEDUCED (log 31). -/
def mgmtJoin (s : State) (w seq frag : Nat) (last : Bool) (data : List Byte) : State × Option (List Byte) :=
  let x : Option MgmtRx := if frag = 0 then some { worker := w, seq := seq, frags := 1, data := data }
    else match s.tth.mgmt with
      | some r => if r.worker = w ∧ r.seq = seq ∧ r.frags = frag then some { r with frags := frag + 1, data := r.data ++ data } else none
      | none => none
  match x with
  | none => ({ s with tth := { s.tth with mgmt := none } }, none)
  | some r => if last then ({ s with tth := { s.tth with mgmt := none } }, some r.data) else ({ s with tth := { s.tth with mgmt := some r } }, none)

/-- The bytes of a tunnelled command or response, as its header says: what fills its last data block is no part of it. -/
def eduskBytes (l : List Byte) : List Byte := l.take (16 + atBytes l 4 2)

/-- A whole tunnelled command at a worker (R466): MBX6 is rung, or answers BUSY at once. DEDUCED (log 31). -/
def tunnelled (s : State) (l : List Byte) : State :=
  if rd s (MBX_STATUS_STATE 6) = 1 then
    mgmtSend s false (rd s MODE_STATUS_WORKER_ID) true (atBytes l 2 2) (respBytes (atBytes l 0 2) (atBytes l 2 2) stBusy 6 [])
  else mbxRing 6 (ramStore s (cmdBuf 6) l)

/-- MGMT_FRAGMENT_RECEIVE: a worker takes a fragment from TTH_UP, or passes it down. -/
def mgmtFragment (x : TthIn) (s : State) : State :=
  if !portUp s false || !isWorker s then s else
  match multiOf 3 x.blocks with
  | none => tthCrc s false
  | some (h, c) =>
    let f := fragOf h c
    if f.destMgr || f.dest != rd s MODE_STATUS_WORKER_ID then onlyIf (relayable h) (fun s => tthRelay s true 3 x.blocks) s
    else if f.abort then (if rd s (MBX_STATUS_SEQ 6) = f.seq then abortAsk 6 s else s)
    else
      let r := mgmtJoin s f.dest f.seq f.frag f.last f.data
      match r.2 with
      | some l => tunnelled r.1 (eduskBytes l)
      | none => r.1

/-- MGMT_RESPONSE_RECEIVE: a fragment from TTH_DN; the manager completes its MBX6 with the worker's response, a worker passes it up. -/
def mgmtResponse (x : TthIn) (s : State) : State :=
  if !portUp s true then s else
  match multiOf 3 x.blocks with
  | none => tthCrc s true
  | some (h, c) =>
    let f := fragOf h c
    if isWorker s then onlyIf (relayable h) (fun s => tthRelay s false 3 x.blocks) s
    else if !f.destMgr then s
    else
      let r := mgmtJoin s f.dest f.seq f.frag f.last f.data
      match r.2, r.1.mp.fwd with
      | some l, some (_, q) =>
        if q = f.seq then
          let l := eduskBytes l
          mbxDone (mbxCount { r.1 with mp := { r.1.mp with fwd := none } } 6 q (atBytes l 6 2)) 6 q l
        else r.1
      | _, _ => r.1

/-! The watchdog (R398). -/

/-- A recipe load that never completes leaves its slot EMPTY. -/
def loadLost (s : State) : State := each s.mp.long (fun s l => if l.cmd.op = 0x0300 then wr s (CHG_RCP_STATE_STATE l.slot) 0 else s) s

/-- FW_WATCHDOG (R398, Table 19-5): READY clears, FAULT sets, every BUSY mailbox completes with FW_FAULT; `mem` is the address of an uncorrectable error of the MP's memory, where one is the
reason. DEDUCED (log 33). -/
def fwWatchdog (mem : Option (BitVec 35)) (s : State) : State :=
  if !rdB s MBX_FW_STATUS_READY then s else
  let s := match mem with
    | some a => eccUncorrectable s 7 0 a.toNat
    | none => s
  let s := raise (wr (wr s MBX_FW_STATUS_READY 0) MBX_FW_STATUS_FAULT 1) srcFwFault
  let s := loadLost s
  let s := each (below 8 (fun m => rd s (MBX_STATUS_STATE m) == 1)) (fun s m => respond s { cmdOf s m with quiet := false } 0x1B 0 []) s
  { s with mp := { s.mp with order := [], cur := none, long := [], fwd := none, flushFor := none, stage := none } }

end Sys2Proof.Machine
end

