-- ==== Sys2Proof/Machine/Edusk.lean ====
section
/-! DEFINITION. The Edusk commands (14_mailbox_commands.md Table 14-5, R409 to R418; 20_boot_identity_lifetime.md R534 to R537): each acts on the command the MP has taken, and the long ones end in LONG_COMMAND_COMPLETE. -/

namespace Sys2Proof.Machine

/-! Queries. -/

def edNop (c : MpCmd) (s : State) : State := respondOk s c c.par

def edGetVersion (c : MpCmd) (s : State) : State :=
  respondOk s c (leBytes 4 (rd s BOOT_FW_VER_VER) ++ leBytes 4 (getReg s 0x110000).toNat ++ leBytes 4 Config.romVer.toNat ++ leBytes 2 0x0100 ++
    leBytes 1 (rd s BOOT_STATUS_BANK) ++ leBytes 1 0)

/-- GET_IDENTITY: the fields of the die identity word (R359), serial, ordering code and stepping. DEDUCED (log 32). -/
def edGetIdentity (c : MpCmd) (s : State) : State :=
  let d := Config.dieId.toNat
  let part := (getReg s 0x17000C).toNat
  respondOk s c (leBytes 8 d ++ leBytes 4 Config.pkgSerial.toNat ++ leBytes 1 (bitsOf d 48 45) ++ leBytes 1 (bitsOf d 20 16) ++ leBytes 1 (bitsOf d 15 8) ++
    leBytes 1 (bitsOf d 7 0) ++ leBytes 4 (bitsOf d 44 21) ++ leBytes 1 (bitsOf part 24 24) ++ leBytes 1 (bitsOf part 23 16) ++ leBytes 2 0)

/-- AUTH_NONCE (R402): 16 free bytes; the nonce is good for 60 s of DUC. DESIGN CHOICE (log 7). -/
def edAuthNonce (c : MpCmd) (s : State) : State :=
  let b := leBytes 8 (freeNat s) ++ leBytes 8 (freeNat (freeNext s))
  let s := freeNext (freeNext s)
  respondOk { s with mp := { s.mp with nonces := mput none s.mp.nonces c.m (some (ducNow s + 60000000, b)) } } c b

def edModeGet (c : MpCmd) (s : State) : State :=
  respondOk s c (leBytes 4 (getReg s 0x170200).toNat ++ leBytes 4 (getReg s 0x17020C).toNat ++ leBytes 8 (ducNow s))

/-- CHAIN_INFO: the 16 workers as the manager sees them (R461). -/
def edChainInfo (c : MpCmd) (s : State) : State :=
  let one := fun w =>
    let x := mget ({} : WorkerS) s.tth.workers w
    if bitOf (rd s TTH_PRESENT_PRESENT) w then
      leBytes 1 1 ++ leBytes 1 w ++ leBytes 1 x.mode ++ leBytes 1 (b2n x.ready + 2 * b2n x.notFollowing) ++ leBytes 4 ((s.now - x.heardAt) / 1000)
    else leBytes 8 (256 * w)
  respondOk s c (leBytes 1 (below 16 (bitOf (rd s TTH_PRESENT_PRESENT))).length ++ leBytes 7 0 ++ (List.range 16).flatMap one)

def edAgeingRead (c : MpCmd) (s : State) : State :=
  respondOk s c ((List.range 55).flatMap (fun i => leBytes 1 i ++ leBytes 1 (rd s (AGE_ISLAND_STATE i)) ++ leBytes 2 (rd s (AGE_ISLAND_DRIFT i)) ++ leBytes 4 0))

/-! Mode commands (R410). -/

/-- SERVICE_ENTER: refused with BUSY while a long command runs (R396). -/
def edServiceEnter (c : MpCmd) (s : State) : State :=
  match s.mp.long with
  | l :: _ => respond s c stBusy l.cmd.m []
  | [] => respondOk (modeEnter (if mode s = 10 then leaveStop s else s) 11 mcEdusk) c []

/-- SERVICE_EXIT: to IDLE, or to BOOT, where the MP restarts from ROM after its response (R399). -/
def edServiceExit (c : MpCmd) (s : State) : State :=
  let dest := c.num 0 1
  if dest = 2 then later (modeEnter (respondOk s c []) 2 mcEdusk) .dmaWake
  else if dest = 1 then wr (modeEnter (respondOk s c []) 1 mcEdusk) MBX_FW_STATUS_READY 0
  else respond s c stBadParam 0 []

/-- CALIBRATE: the routines run in mode CALIBRATE. -/
def edCalibrate (c : MpCmd) (s : State) : State :=
  match longOf s 0x0103 with
  | some l => respond s c stBusy l.cmd.m []
  | none =>
    if 8 ≤ c.num 0 4 then respond s c stBadParam 0 []
    else enterCalibrate (longStart s { cmd := c }) mcEdusk (bitOf (c.num 0 4) 1)

/-- The masks of a calibration. -/
def calMasks (l : LongCmd) : List Byte := leBytes 4 l.done ++ leBytes 4 l.failed

/-- The flat-field routine has ended (R410): the calibration parameters (R415, area 0x43) it found for the streams of STREAMS take their values. DESIGN CHOICE (log 13). -/
def flatResults (s : State) (streams : Nat) (flats : List (Nat × List (Nat × Nat))) : State :=
  each (flats.filter (fun p => bitOf streams p.1)) (fun s p => each p.2 (fun s x =>
    match paramOf x.1 with
    | some d => if x.1 / 256 = 0x43 then setParam s x.1 (x.2 % 256 ^ d.len) else s
    | none => s) s) s

/-- Routines of CALIBRATE end (R410, R457, R165): the results of those that completed stand (the skews a lane deskew measured, the tether's delay, the flat-field's parameters); when every routine of the
command has ended, or the rest are aborted, the device returns to the mode it came from. DEDUCED (log 13). -/
def calibrateRoutineEnd (done failed l : Nat) (skews : List (Nat × Nat)) (flats : List (Nat × List (Nat × Nat))) (aborted : Bool) (s : State) : State :=
  if mode s != 9 then s else
  let cmd := longOf s 0x0103
  let want := match cmd with | some x => x.cmd.num 0 4 | none => 7
  let tether := bitOf (Nat.land want (Nat.lor done failed)) 2
  let lost := tether && (bitOf failed 2 || tetherFails s l)
  let failed := Nat.land want (if lost then Nat.lor failed 4 else failed)
  let done := Nat.land want done - Nat.land done failed
  let s := onlyIf (bitOf done 1) (lanesReskew skews) s
  let s := match cmd with
    | some x => onlyIf (bitOf done 0) (fun s => flatResults s (x.cmd.num 8 8) flats) s
    | none => s
  let s := onlyIf tether (fun s => tetherCalibrated s (!lost) l) s
  match cmd with
  | none => leaveCalibrate s
  | some x =>
    let y := { x with done := Nat.lor x.done done, failed := Nat.lor x.failed failed }
    let all := Nat.land want (Nat.lor y.done y.failed) == want
    let s := { s with mp := { s.mp with long := s.mp.long.map (fun z => if z.cmd.op = 0x0103 then { y with ended := all && !aborted } else z) } }
    if all || aborted then leaveCalibrate s else s

/-- Entry to HOLD ends a running CALIBRATE with ABORTED; completed routines keep their results (R410). DETAIL, the progress, is a free value. -/
def calAbort (s : State) : State :=
  match longOf s 0x0103 with
  | some l => respond (freeNext s) l.cmd stAborted (freeNat s % 65536) (calMasks l)
  | none => s

/-! Parameters (R415 to R418). -/

/-- The IDs of a list of bytes. -/
def idsOf (n : Nat) (l : List Byte) : List Nat := (List.range n).map (fun i => atBytes l (2 * i) 2)

def edParamList (c : MpCmd) (s : State) : State :=
  let ids := allIds.filter (fun i => decide (c.num 0 2 ≤ i))
  let now := ids.take 2036
  respondOk s c (leBytes 2 now.length ++ leBytes 2 ((ids.drop 2036).head?.getD 0xFFFF) ++ leBytes 4 0 ++ now.flatMap (leBytes 2))

/-- The index of the first ID that no parameter has. -/
def unknownAt (ids : List Nat) : Option Nat := ids.zipIdx.findSome? (fun p => if (paramOf p.1).isNone then some p.2 else none)

def edParamDesc (c : MpCmd) (s : State) : State :=
  let n := c.num 0 2
  if n = 0 || decide (63 < n) then respond s c stBadParam 0 []
  else
    let ids := idsOf n (c.par.drop 8)
    match unknownAt ids with
    | some i => respond s c 0x16 i []
    | none => respondOk s c (leBytes 2 n ++ leBytes 6 0 ++ (ids.filterMap paramOf).flatMap descOut)

/-- PARAM_GET (R418): values in request order; a response that would pass 4 080 bytes is refused. DEDUCED (log 32). -/
def edParamGet (c : MpCmd) (s : State) : State :=
  let n := c.num 0 2
  if 1 < c.num 2 1 then respond s c stBadParam 2 []
  else
    let ids := idsOf n (c.par.drop 8)
    match unknownAt ids with
    | some i => respond s c 0x16 i []
    | none =>
      let out := (ids.filterMap paramOf).flatMap (fun d => entryOut s d (c.num 2 1 == 1))
      if n = 0 || decide (4080 < 8 + out.length) then respond s c stBadParam 0 [] else respondOk s c (leBytes 2 n ++ leBytes 6 0 ++ out)

/-- PARAM_SET (R416, R417): every entry is checked before any is applied, in entry order. DEDUCED (log 32). -/
def edParamSet (c : MpCmd) (s : State) : State :=
  let n := c.num 0 2
  if n = 0 || decide (255 < n) then respond s c stBadParam 0 []
  else match readEntries n (c.par.drop 8) with
    | none => respond s c stBadParam 0 []
    | some (es, _) =>
      match firstFault s c.m es with
      | some (i, f) => respond s c f i []
      | none =>
        let sh := countIf (fun (e : ValEntry) => isShadowedPar e.id) es
        respondOk (each es applyParam s) c (leBytes 2 (n - sh) ++ leBytes 2 sh ++ leBytes 4 0)

/-! Recipes (R411 to R414). -/

/-- A recipe slot beside its state register. -/
def rcpSlot (s : State) (k : Nat) : RcpSlot := mget {} s.mp.rcp k
def setRcp (s : State) (k : Nat) (x : RcpSlot) : State := { s with mp := { s.mp with rcp := mput {} s.mp.rcp k x } }
def slotState (s : State) (k : Nat) : Nat := rd s (CHG_RCP_STATE_STATE k)

/-- The mailbox whose RECIPE_LOAD is filling slot `k`. -/
def loaderOf (s : State) (k : Nat) : Nat := match s.mp.long.find? (fun l => l.cmd.op == 0x0300 && l.slot == k) with | some l => l.cmd.m | none => 0

def edRecipeLoad (c : MpCmd) (s : State) : State :=
  let k := c.num 0 1
  match longOf s 0x0300 with
  | some l => respond s c stBusy l.cmd.m []
  | none =>
    if 64 ≤ k then respond s c stBadParam 0 []
    else if 4 ≤ slotState s k then respond s c 0xF (slotState s k) []
    else wr (longStart s { cmd := c, slot := k, was := slotState s k }) (CHG_RCP_STATE_STATE k) 1

/-- The lowest stake whose ACTIVE table region overlaps the one a recipe names (R412). DEDUCED (log 33). -/
def regionClash (s : State) (r : RecipeImage) : Option Nat :=
  (List.range 64).find? (fun n =>
    let b := rd s (STK_TBL_BASE_BASE n)
    let l := rd s (STK_TBL_LEN_LEN n)
    enState s (stkEn n) != 0 && decide (r.regBase.toNat < b + l) && decide (b < r.regBase.toNat + r.regLen.toNat))

/-- The writes by which a stage fills the shadow store (R412, Table 9-1): the recipe's registers and parameters, its job and its slot. DEDUCED (log 33). -/
def stageWrites (k : Nat) (r : RecipeImage) : List (Nat × Nat) :=
  r.regs.filterMap (fun p => match regAt p.1.toNat with | some (g, _) => if g.shadowed then some (p.1.toNat, shadowVal g p.2.toNat) else none | none => none) ++
    (r.params.filter (fun p => isShadowedPar p.1.toNat)).map (fun p => (parKey + p.1.toNat, p.2)) ++ [(0xD0030, r.job.toNat + 65536 * r.ver.toNat), (0xD0034, k)]

/-- The shadow store after some of these writes. -/
def stageStore (s : State) (l : List (Nat × Nat)) : State := each l (fun s p => storeWrite s p.1 p.2) s

/-- The first chain of the store that fails a code of Table 10-8, as a PXE_CHK word (R279): of every stream that is enabled or that the recipe gives a chain. DEDUCED (log 33). -/
def stageBudget (s : State) : Option Nat :=
  let all := (below 64 (fun st => enState s (frmEn st) != 0 || rdShadow s (PXE_CHAIN_BASE_BASE st) != 0)).map (viewOf s (rdShadow s))
  all.findSome? (fun v => let x := checkChain s all v; if x.1 = 0 then none else some (chkWord v x.1 x.2 1))

/-- An uncorrectable error in a recipe's image (Table 19-5): the slot is EMPTY, and the command that read it ends with HW_ERROR. DEDUCED (log 33). -/
def imageLost (s : State) (c : MpCmd) (k addr : Nat) : State :=
  let s := eccUncorrectable s 0 0 addr
  respond (wr (wr (setRcp s k {}) (CHG_RCP_STATE_STATE k) 0) (CHG_RCP_STATE_JOB_ID k) 0) c 0x1A 0x8003 []

/-- A stage has made its last write (R412, R413): the slot is STAGED, unless a hand-over meanwhile made it ACTIVE, its trigger tables stand in the region it names; it ends with COMMIT_RACE where a
CHG_COMMIT write landed. DEDUCED (log 33). -/
def stageEnd (s : State) (g : StageRun) (r : RecipeImage) (c : MpCmd) : State :=
  let s := each (below 64 (fun j => slotState s j == 3)) (fun s j => wr s (CHG_RCP_STATE_STATE j) 2) s
  let s := each (r.tables.filter (fun p => decide (p.1.toNat < r.regLen.toNat))) (fun s p => sramStore s (r.regBase.toNat + p.1.toNat) p.2) s
  let s := if slotState s g.slot = 4 then s else wr s (CHG_RCP_STATE_STATE g.slot) 3
  let s := setRcp s g.slot { rcpSlot s g.slot with chk := 0 }
  if g.raced then respond s c 0x14 (rd s CHG_COUNT_COUNT) [] else respondOk s c (leBytes 4 0 ++ leBytes 4 (rd s CHG_COUNT_COUNT))

/-- The stage goes on with its writes: all that are left, or `upto` of them. DEDUCED (log 33). -/
def stageRun (s : State) (g : StageRun) (r : RecipeImage) (upto : Option Nat) (c : MpCmd) : State :=
  let l := (stageWrites g.slot r).drop g.done
  let all := stageEnd (stageStore s l) g r c
  match upto with
  | none => all
  | some n =>
    if l.length ≤ n then all
    else
      let s := stageStore s (l.take n)
      { s with mp := { s.mp with stage := some { g with done := g.done + n } } }

/-- RECIPE_STAGE (R412, R413); `x` is what the read of the slot's image meets. A stage that is writing the store goes on where it was interrupted. DEDUCED (log 33). -/
def edRecipeStage (x : MemEcc) (upto : Option Nat) (c : MpCmd) (s : State) : State :=
  let k := c.num 0 1
  let st := slotState s k
  match s.mp.stage, (rcpSlot s k).image with
  | some g, some r => stageRun s g r upto c
  | some _, none => respond s c 0xE st []
  | none, img =>
    if 64 ≤ k then respond s c stBadParam 0 []
    else if st = 1 then respond s c stBusy (loaderOf s k) []
    else if rd s CHG_STATUS_PHASE != 0 then respond s c 0xD (rd s CHG_STATUS_PHASE) []
    else match img with
      | none => respond s c 0xE st []
      | some r =>
        if st != 2 && st != 3 then respond s c 0xE st []
        else match regionClash s r, x with
          | some n, _ => respond s c 0x13 n []
          | none, .uncorrectable a => imageLost s c k a.toNat
          | none, x =>
            let s := if x == .corrected then eccCorrected s 0 0 else s
            match stageBudget (stageStore s (stageWrites k r)) with
            | some w => respond (setChk (setRcp s k { rcpSlot s k with chk := w }) w) c 0x12 w (leBytes 4 w ++ leBytes 4 (rd s CHG_COUNT_COUNT))
            | none => stageRun s { slot := k, done := 0, raced := false } r upto c

/-- RECIPE_COMMIT (R414): the word goes to CHG_COMMIT; a refusal of Table 9-3 ends it with CHG_REFUSED. DEDUCED (log 33). -/
def edRecipeCommit (c : MpCmd) (s : State) : State :=
  let v := c.num 0 4
  let t := chgWrite v s
  let r := rd t CHG_STATUS_RESULT
  if bitOf v 0 && !bitOf v 5 && decide (3 ≤ r) && decide (r ≤ 11) then respond t c 0x1C r []
  else respondOk t c (leBytes 4 (getReg t CHG_STATUS_RESULT.a).toNat ++ leBytes 4 0 ++ leBytes 8 (rd t CHG_ARMED_POS_POS))

/-- RECIPE_FREE (R244, R396). DEDUCED (log 33). -/
def edRecipeFree (c : MpCmd) (s : State) : State :=
  let k := c.num 0 1
  let st := slotState s k
  if 64 ≤ k then respond s c stBadParam 0 []
  else if st = 1 then respond s c stBusy (loaderOf s k) []
  else if 4 ≤ st then respond s c 0xF st []
  else respondOk (wr (wr (setRcp s k {}) (CHG_RCP_STATE_STATE k) 0) (CHG_RCP_STATE_JOB_ID k) 0) c []

def edRecipeInfo (c : MpCmd) (s : State) : State :=
  let k := c.num 0 1
  if 64 ≤ k then respond s c stBadParam 0 []
  else
    let x := rcpSlot s k
    let f := fun (g : RecipeImage → Nat) => match x.image with | some r => g r | none => 0
    respondOk s c (leBytes 1 (slotState s k) ++ leBytes 1 k ++ leBytes 2 (f (fun r => r.job.toNat)) ++ leBytes 2 (f (fun r => r.ver.toNat)) ++ leBytes 2 0 ++
      leBytes 4 (f (fun r => r.area.toNat)) ++ leBytes 8 (f (fun r => r.base.toNat)) ++ leBytes 4 x.chk)

/-! The recorder (R503, R504, R511). -/

/-- REC_FLUSH: completes when its flush ends (R504): the one it starts, or the one it queues behind the running flush. -/
def edRecFlush (c : MpCmd) (s : State) : State :=
  let n := s.rcd.flushDone + (if s.rcd.flush.isSome then 2 else 1)
  flushTrigger { s with mp := { s.mp with cur := some c, flushFor := some n } }

/-- A flush has ended: the REC_FLUSH that waits for it completes. -/
def recFlushed (s : State) (n written : Nat) : State :=
  match s.mp.flushFor, s.mp.cur with
  | some k, some c => if k ≤ n then respondOk { s with mp := { s.mp with flushFor := none } } c (leBytes 4 written) else s
  | _, _ => s

/-- The records of an MRAM area from an index on, as far as they follow one another. The first argument bounds their number. DEDUCED (log 32). -/
def recordsFrom : Nat → State → Nat → Nat → List (Option Rec)
  | 0, _, _, _ => []
  | n + 1, s, area, i => match areaRec s area i with | none => [] | some r => r :: recordsFrom n s area ((i + 1) % 2 ^ 32)

/-- REC_READ. DEDUCED (log 32). -/
def edRecRead (c : MpCmd) (s : State) : State :=
  let n := c.num 1 1
  let i := c.num 4 4
  if 1 < c.num 0 1 then respond s c stBadParam 0 []
  else if n = 0 || decide (63 < n) then respond s c stBadParam 1 []
  else
    let rs := recordsFrom n s (c.num 0 1) i
    let one := fun (r : Option Rec) => match r with
      | some x => recordBytes x
      | none => (List.range 16).flatMap (fun k => leBytes 4 (Config.undefinedWord i (0x5000000 + 4 * k)).toNat)
    respondOk s c (leBytes 1 rs.length ++ leBytes 3 0 ++ leBytes 4 (i + rs.length) ++ rs.flatMap one)

/-- REC_CLEAR is a long command (R511). -/
def edRecClear (c : MpCmd) (s : State) : State :=
  match longOf s 0x0402 with
  | some l => respond s c stBusy l.cmd.m []
  | none => longStart s { cmd := c }

def edRecInfo (c : MpCmd) (s : State) : State :=
  respondOk s c (leBytes 2 (rd s REC_FIRST_USED_USED) ++ leBytes 2 0 ++ leBytes 4 (rd s REC_CIRC_OLDEST_OLDEST) ++ leBytes 4 (rd s REC_CIRC_NEWEST_NEWEST) ++
    leBytes 2 (rd s REC_RING_LEVEL_UNFLUSHED) ++ leBytes 2 0 ++ leBytes 4 (rd s REC_CNT_LOST_COUNT))

/-! Firmware and flash (R534 to R536). -/

/-- The image in a flash bank: one the MP has written, or one the spec leaves open (log 4). -/
def bankImage (s : State) (b : Nat) : Config.FwImage :=
  match mget (.inl 0) s.mp.banks b with
  | .inl n => Config.flashImage b n
  | .inr f => f

def setBank (s : State) (b : Nat) (f : Config.FwImage) : State := { s with mp := { s.mp with banks := mput (.inl 0) s.mp.banks b (.inr f) } }

/-- A bank whose content is no longer known. DEDUCED (log 34). -/
def spoilBank (s : State) (b : Nat) : State :=
  let n := match mget (.inl 0) s.mp.banks b with | .inl n => n + 1 | .inr _ => s.free + 1
  { s with mp := { s.mp with banks := mput (.inl 0) s.mp.banks b (.inl n) } }

/-- The valid directory copy with the higher SEQ (R531): SEQ and bank. DESIGN CHOICE (log 4). -/
def directory (s : State) : Nat × Nat := s.mp.dir.foldl (fun a d => if a.1 < d.1 then d else a) (0, 0)

/-- Name a bank in the directory (R536): the copy with the lower SEQ takes the higher SEQ plus one. -/
def setDirectory (s : State) (b : Nat) : State :=
  let hi := (directory s).1
  let low := s.mp.dir.foldl (fun a d => min a d.1) hi
  let i := (s.mp.dir.findIdx? (fun d => d.1 == low)).getD 0
  wr { s with mp := { s.mp with dir := s.mp.dir.set i (hi + 1, b) } } BOOT_STATUS_SELECTED b

def edFwWrite (c : MpCmd) (s : State) : State :=
  match longOf s 0x0500 with
  | some l => respond s c stBusy l.cmd.m []
  | none => longStart s { cmd := c }

/-- FW_SELECT (R536, R532). DEDUCED (log 34). -/
def edFwSelect (c : MpCmd) (s : State) : State :=
  let b := c.num 0 1
  match longOf s 0x0500 with
  | some l => respond s c stBusy l.cmd.m []
  | none =>
    if 1 < b then respond s c stBadParam 0 []
    else
      let f := bankImage s b
      if f.cause != 0 then respond s c stSignature f.cause []
      else if f.svn < rd s BOOT_SVN_MIN then respond s c stSignature 5 []
      else respondOk (record (setDirectory s b) rpMp 0x15 svNotice 0x0023 (leBytes 1 b)) c []

/-- A byte of the board area. -/
def boardByte (s : State) (a : Nat) : Byte := (mget none s.mp.board a).getD (Config.boardByte a)

def edBoardRead (c : MpCmd) (s : State) : State :=
  let o := c.num 0 4
  let n := c.num 4 4
  if n = 0 || decide (4080 < n) then respond s c stBadParam 4 []
  else if 65536 < o + n then respond s c stBadParam 0 []
  else respondOk s c ((List.range n).map (fun i => boardByte s (o + i)))

def edBoardWrite (c : MpCmd) (s : State) : State :=
  let o := c.num 0 4
  let n := c.num 4 4
  if n = 0 then respond s c stBadParam 4 []
  else if 65536 < o + n then respond s c stBadParam 0 []
  else
    let s := each (((c.par.drop 8).take n).zipIdx) (fun s p => { s with mp := { s.mp with board := mput none s.mp.board (o + p.2) (some p.1) } }) s
    respondOk s c []

/-! Ending a long command (R394, R395, R411, R535). -/

/-- The bytes of an image as the command read them (Table 14-5): LEN of them; those from HBM are what stands at SRC. -/
def imageRead (s : State) (len src : Nat) (img : List Byte) : Bool :=
  img.length == len && (!bitOf src 63 || img == hbmRead s (src % 2 ^ 63) len)

/-- A number of `n` bytes at `o` of an image's header. -/
abbrev imgNum (img : List Byte) (o n : Nat) : Nat := atBytes img o n

/-- The DETAIL with which a recipe image fails its checks (R537, Table 20-4); 0 where it passes. -/
def recipeDetail (s : State) (img : List Byte) (sig : Option SigFact) : Nat :=
  let key := imgNum img 0x10 4
  if imgNum img 0 4 != 0x52524C47 || imgNum img 4 2 != 1 || imgNum img 0x0C 4 != img.length then 1
  else if !keyKnown s key 0 then 2
  else if sig != some { key := keyBytes s key, msg := img.take 0xA0 ++ img.drop 0x100, rs := (img.drop 0xA0).take 96 } then 3
  else if imgNum img 6 2 != 0x5120 || (imgNum img 0x18 8 != 0 && imgNum img 0x18 8 != Config.dieId.toNat) || decide ((getReg s 0x110000).toNat < imgNum img 0x14 4) then 4
  else 0

/-- The DETAIL with which a firmware image fails its checks (R531, R535, Table 20-3); 0 where it passes. DEDUCED (log 34). -/
def firmwareDetail (s : State) (img : List Byte) (sig : Option SigFact) : Nat :=
  if imgNum img 0 4 != 0x46524C47 || imgNum img 4 2 != 1 then 1
  else if imgNum img 6 2 != 0x5120 then 4
  else if imgNum img 0x10 4 != img.length || decide (15 * 2 ^ 20 < img.length) then 1
  else if (img.drop 0x40).take 97 != keyBytes s 0 then 2
  else if sig != some { key := keyBytes s 0, msg := img.take 0x100 ++ img.drop 0x200, rs := (img.drop 0x100).take 96 } then 3
  else if imgNum img 0x0C 1 < rd s BOOT_SVN_MIN then 5
  else 0

/-- A recipe image has been copied and checked: the slot is RESIDENT (R411). DEDUCED (log 33). -/
def recipeLoaded (s : State) (l : LongCmd) (r : RecipeImage) : State :=
  let s := each r.blobs (fun s p => hbmWrite s (r.base.toNat + p.1.toNat) p.2) (setRcp s l.slot { image := some r, chk := 0 })
  let s := wr (wr s (CHG_RCP_STATE_STATE l.slot) 2) (CHG_RCP_STATE_JOB_ID l.slot) r.job.toNat
  respondOk s l.cmd (leBytes 2 r.job.toNat ++ leBytes 2 r.ver.toNat ++ leBytes 4 r.area.toNat)

/-- The slot of a load that failed. DEDUCED (log 33). -/
def loadFailed (s : State) (l : LongCmd) (st : Nat) : State :=
  if l.cmd.op != 0x0300 then s
  else if st = 0 then wr (wr (setRcp s l.slot {}) (CHG_RCP_STATE_STATE l.slot) 0) (CHG_RCP_STATE_JOB_ID l.slot) 0
  else wr s (CHG_RCP_STATE_STATE l.slot) st

/-- Firmware has been programmed into the bank that is not running (R535). DEDUCED (log 34). -/
def firmwareWritten (s : State) (l : LongCmd) (f : Config.FwImage) : State :=
  let run := rd s BOOT_STATUS_BANK
  let b := 1 - run
  let s := record (setBank (setDirectory s run) b f) rpMp 0x15 svNotice 0x0022 (leBytes 1 b ++ leBytes 4 f.ver)
  respondOk s l.cmd (leBytes 1 b ++ leBytes 3 0 ++ leBytes 4 f.ver)

/-- A firmware write that did not complete leaves its bank unknown, and the directory naming the running one (R535). DEDUCED (log 34). -/
def firmwareCut (s : State) (l : LongCmd) : State :=
  if l.cmd.op = 0x0500 then spoilBank (setDirectory s (rd s BOOT_STATUS_BANK)) (1 - rd s BOOT_STATUS_BANK) else s

/-- A bank that read back wrong fails R531 (R535). DEDUCED (log 34). -/
def firmwareBad (s : State) (l : LongCmd) : State :=
  if l.cmd.op = 0x0500 then setBank (setDirectory s (rd s BOOT_STATUS_BANK)) (1 - rd s BOOT_STATUS_BANK) { cause := 3, ver := 0, svn := 0, commit := false } else s

/-- LONG_COMMAND_COMPLETE: the long command of mailbox `m` ends as `x` says, where `x` can end it. DEDUCED (log 8). DEDUCED (log 33). -/
def longComplete (m : Nat) (x : LongEnd) (s : State) : State :=
  match s.mp.long.find? (fun l => l.cmd.m == m) with
  | none => s
  | some l =>
    let op := l.cmd.op
    match x with
    | .done =>
      if op = 0x0103 then (if l.ended then respondOk s l.cmd (calMasks l) else s)
      else if op = 0x0402 then
        let n := idxDist (rd s REC_CIRC_OLDEST_OLDEST) ((rd s REC_CIRC_NEWEST_NEWEST + 1) % 2 ^ 32)
        respondOk (recClear s l.cmd.key) l.cmd (leBytes 4 n)
      else s
    | .recipe img sig body =>
      if op != 0x0300 || !imageRead s (l.cmd.num 4 4) (l.cmd.num 8 8) img then s else
      match recipeDetail s img sig with
      | 0 => recipeLoaded s l { body with job := BitVec.ofNat 16 (imgNum img 8 2), ver := BitVec.ofNat 16 (imgNum img 0x0A 2) }
      | d => respond (loadFailed s l 0) l.cmd stSignature d []
    | .firmware img sig =>
      if op != 0x0500 || !imageRead s (l.cmd.num 0 4) (l.cmd.num 8 8) img then s else
      match firmwareDetail s img sig with
      | 0 => firmwareWritten s l { cause := 0, ver := imgNum img 8 4, svn := imgNum img 0x0C 1, commit := bitOf (imgNum img 0x0D 1) 0 }
      | d => respond s l.cmd stSignature d []
    | .noSpace k => if op = 0x0300 then respond (loadFailed s l l.was) l.cmd 0x10 k.toNat [] else s
    | .aborted p =>
      if !rdB s (MBX_STATUS_ABORTING m) && !(op == 0x0103 && mode s != 9 && !l.ended) then s
      else
        let s := if op = 0x0103 then leaveCalibrate s else loadFailed (firmwareCut s l) l 0
        respond s l.cmd stAborted p.toNat (if op = 0x0103 then calMasks l else [])
    | .hwError k =>
      let s := if op = 0x0103 then leaveCalibrate s else loadFailed (firmwareBad s l) l 0
      respond s l.cmd 0x1A k.toNat []

end Sys2Proof.Machine
end

