-- ==== Sys2Proof/Machine/Dma.lean ====
section
/-! DEFINITION. The DMA engines (12_dma_engines.md): descriptors and their checks, running a chain, indexed gather, completion entries and barriers, halts and restarts. -/

namespace Sys2Proof.Machine

/-- A channel's state beside its registers. -/
def dma (s : State) (c : Nat) : DmaS := mget {} s.dma c
def setDma (s : State) (c : Nat) (x : DmaS) : State := { s with dma := mput {} s.dma c x }

/-- The space of an address (R327): whether it is HBM, and its place there. -/
def inHbm (a : Nat) : Bool := bitOf a 63
def lowAddr (a : Nat) : Nat := a % 2 ^ 63

/-- An address `n` bytes on, in the same space (R337). -/
def addrPlus (a n : Nat) : Nat := a / 2 ^ 63 * 2 ^ 63 + (lowAddr a + n) % 2 ^ 63

/-! The descriptor (Table 12-2). -/

def DmaS.num (x : DmaS) (o n : Nat) : Nat := leNat ((x.desc.drop o).take n)
def DmaS.fullStop (x : DmaS) : Bool := bitOf (x.num 0 4) 0
def DmaS.barrier (x : DmaS) : Bool := bitOf (x.num 0 4) 1
def DmaS.indexed (x : DmaS) : Bool := bitOf (x.num 0 4) 2
def DmaS.irq (x : DmaS) : Bool := bitOf (x.num 0 4) 3
def DmaS.tag (x : DmaS) : Nat := bitsOf (x.num 0 4) 31 16
def DmaS.src (x : DmaS) : Nat := x.num 0x08 8
def DmaS.dst (x : DmaS) : Nat := x.num 0x10 8
def DmaS.idxAddr (x : DmaS) : Nat := x.num 0x18 8
def DmaS.size (x : DmaS) : Nat := x.num 0x20 2
def DmaS.count (x : DmaS) : Nat := x.num 0x24 3
def DmaS.next (x : DmaS) : Nat := x.num 0x28 8
/-- Bytes the descriptor moves. -/
def DmaS.bytes (x : DmaS) : Nat := if x.indexed then x.size * x.count else x.num 0x04 4

/-- Whether a write channel (Table 12-1). -/
def isWrite (c : Nat) : Bool := decide (32 ≤ c)

/-- Whether bits [62:35] of an HBM address are set (R327), and whether `n` bytes from it reach 24 GB (R331). -/
def badHbm (a : Nat) : Bool := inHbm a && bitsOf a 62 35 != 0
def beyond (a n : Nat) : Bool := inHbm a && decide (hbmSize < lowAddr a + max 1 n)

/-- Why a descriptor is refused before anything of it is moved (R331): 6 DESC, 7 RANGE, 0 for none. DEDUCED (log 27). -/
def descRefusal (c : Nat) (x : DmaS) : Nat :=
  let n := if x.indexed then 0 else x.bytes
  if bitsOf (x.num 0 4) 15 4 != 0 || x.num 0x22 2 != 0 || x.num 0x27 1 != 0 || x.num 0x30 16 != 0 then 6
  else if !x.fullStop && x.next % 64 != 0 || x.indexed && x.idxAddr % 4 != 0 then 6
  else if x.indexed && (x.size = 0 || x.count = 0) then 6
  else if (if isWrite c then !inHbm x.src || inHbm x.dst else !inHbm x.dst) then 6
  else if badHbm x.src || badHbm x.dst || x.indexed && badHbm x.idxAddr || !x.fullStop && badHbm x.next then 6
  else if beyond x.src n || beyond x.dst n || x.indexed && beyond x.idxAddr (4 * x.count) || !x.fullStop && beyond x.next 64 then 7
  else 0

/-! Reads in flight. -/

/-- Whether a read of channel `c` whose data is still wanted has not completed, or a write of it has not been issued. -/
def dmaBusy (s : State) (c : Nat) : Bool :=
  !(mget [] s.hep.moves c).isEmpty || s.hep.wait.any (fun r => r.who.channel == some c) || s.hep.ready.any (fun r => r.who.channel == some c) ||
    s.hep.tags.any (fun p => p.2.who.channel == some c && !p.2.discard)

/-- The requests of channels that satisfy `p` end: those not issued are gone, the data of the others will be discarded; their staging is free for other channels. -/
def dropReads (s : State) (p : Nat → Bool) : State :=
  let is := fun (r : ReadReqS) => match r.who.channel with | some c => p c | none => false
  let tags := s.hep.tags.map (fun t => if is t.2 then (t.1, { t.2 with discard := true }) else t)
  laterOnce { s with hep := { s.hep with wait := s.hep.wait.filter (fun r => !is r), ready := s.hep.ready.filter (fun r => !is r), tags := tags, moves := s.hep.moves.filter (fun m => !p m.1) } } .pump

/-- DRAINING ends when no read of the engines is outstanding (R344). -/
def drainShow (s : State) : State :=
  if rdB s DMA_STATUS_DRAINING && (dmaReads s).isEmpty then wr s DMA_STATUS_DRAINING 0 else s

/-! Halts (R344 to R346, R348). -/

/-- A channel stops in HALTED (3) or MASTER_OFF (4): what it had in progress is discarded, and HALT is raised (R340). -/
def dmaStop (s : State) (c run : Nat) : State :=
  let s := wr (setDma s c {}) (DMA_CH_STATUS_RUN c) run
  raise s (srcDmaHalt c)

/-- A channel halts alone (R331, R346). DEDUCED (log 27). -/
def haltCh (s : State) (c cause : Nat) : State := wr (dmaStop (dropReads s (· == c)) c 3) (DMA_CH_STATUS_CAUSE c) cause

/-- A bus error on a read of either engine (R344, R345): 1 UR, 2 CA, 3 POISON, 4 TIMEOUT, at a host address. A channel that is HALTED already takes the cause of the first error too (Table 12-3);
a later error leaves it. DEDUCED (log 27). -/
def engineHalt (s : State) (addr cause : Nat) : State :=
  let s := dropReads s (fun _ => true)
  let halted := fun (c : Nat) => rd s (DMA_CH_STATUS_RUN c) == 3
  let live := below 128 (fun c => enState s (dmaEn c) != 0)
  let s := if rdB s DMA_STATUS_ENGINE_HALT then addSat s DMA_CNT_HALT_MORE_COUNT 1
    else each (live.filter halted) (fun s c => wr s (DMA_CH_STATUS_CAUSE c) cause)
      (wr (wr (wr s DMA_STATUS_ENGINE_HALT 1) DMA_STATUS_CAUSE cause) DMA_HALT_ADDR_ADDR addr)
  let s := wrB s DMA_STATUS_DRAINING (!(dmaReads s).isEmpty)
  each (live.filter (fun c => !halted c)) (fun s c => wr (dmaStop s c 3) (DMA_CH_STATUS_CAUSE c) cause) s

/-- Bus Master Enable clears, or D3hot is entered (R348, R371). -/
def dmaOff (s : State) : State :=
  each (below 128 (fun c => enState s (dmaEn c) != 0 && decide (rd s (DMA_CH_STATUS_RUN c) < 3))) (fun s c => dmaStop s c 4) (dropReads s (fun _ => true))

/-! Completing (R338 to R340). -/

/-- Entries in the completion ring (Table 12-9). -/
def cplLog (s : State) (c : Nat) : Nat := max 2 (min 16 (rd s (DMA_CH_CFG_CPL_LOG2 c)))

/-- Whether the completion ring is full (R338); there is none with CPL_BASE 0. DEDUCED (log 27). -/
def cplFull (s : State) (c : Nat) : Bool :=
  rd s (DMA_CH_CPL_BASE_BASE c) != 0 && (rd s (DMA_CH_CPL_PI_PI c) + 65536 - rd s (DMA_CH_CPL_CI_CI c)) % 65536 == 2 ^ cplLog s c

/-- Show CPL_FULL. -/
def cplShow (s : State) (c : Nat) : State := wrB s (DMA_CH_STATUS_CPL_FULL c) (cplFull s c)

/-- The 16 bytes of a completion entry (Table 12-5). -/
def dmaEntry (s : State) (c : Nat) (x : DmaS) : List Byte :=
  leBytes 4 (rd s (DMA_CH_DONE_DONE c)) ++ leBytes 2 x.tag ++ leBytes 1 (b2n x.indexed + 2 * b2n x.barrier + 4 * b2n x.irq) ++
    leBytes 1 (128 * b2n (!bitOf (rd s (DMA_CH_CPL_PI_PI c)) (cplLog s c))) ++ leBytes 4 x.bytes ++ leBytes 4 0

/-- The completion entry, DONE and BYTES counts, and the interrupt of a descriptor (R338 to R340). -/
def dmaCount (s : State) (c : Nat) (x : DmaS) : State :=
  let s := addWrap (addWrap s (DMA_CH_DONE_DONE c) 1) (DMA_CH_BYTES_BYTES c) x.bytes
  let s := if rd s (DMA_CH_CPL_BASE_BASE c) = 0 then s
    else
      let s := hostWrite s (16 * rd s (DMA_CH_CPL_BASE_BASE c) % 2 ^ 63 + 16 * (rd s (DMA_CH_CPL_PI_PI c) % 2 ^ cplLog s c)) (dmaEntry s c x) false
      cplShow (addWrap s (DMA_CH_CPL_PI_PI c) 1) c
  onlyIf x.irq (fun s => raise s (srcDmaDone c)) s

/-! Executing (R332 to R334, R337). -/

/-- Whether no channel may start a descriptor in this mode (R349). -/
def dmaBlocked (s : State) : Bool := mode s == 1 || mode s == 11

/-- Read `n` bytes of host memory into HBM, in requests of at most Max_Read_Request_Size. -/
def dmaPull (s : State) (c src dst n : Nat) : State :=
  each (pieces (n + 1) (mrrs s) src n) (fun s p => wantRead s (.dmaData c (dst + (p.1 - src))) p.1 p.2) s

/-- The writes of `n` bytes to the host wait for the channel's turn (R329). -/
def dmaPush (s : State) (c src dst n : Nat) : State :=
  laterOnce { s with hep := { s.hep with moves := mput [] s.hep.moves c (mget [] s.hep.moves c ++ [⟨src, dst, n⟩]) } } .pump

/-- Move `n` bytes (Table 12-1). DEDUCED (log 27). -/
def dmaMove (s : State) (c src dst n : Nat) : State :=
  if n = 0 then s
  else if !inHbm src then dmaPull s c (lowAddr src) (lowAddr dst) n
  else if inHbm dst then hbmWrite s (lowAddr dst) (hbmRead s (lowAddr src) n)
  else dmaPush s c (lowAddr src) (lowAddr dst) n

/-- An element that is refused halts the channel once every element before it has been moved (R331). -/
def badCheck (s : State) (c : Nat) : State := if (dma s c).bad && !dmaBusy s c then haltCh s c 7 else s

/-! The write engine's turns (R329). The model has no limit of posted credits: a channel with writes to issue issues them. DESIGN CHOICE (log 27). -/

/-- A channel issues up to `n` of the writes that wait for its turn: each of at most Max_Payload_Size, its bytes read from HBM as it leaves. -/
def issueWrites : Nat → State → Nat → State
  | 0, s, _ => s
  | n + 1, s, c =>
    match mget [] s.hep.moves c with
    | [] => s
    | m :: l =>
      let k := min m.n (mps s - m.dst % mps s)
      let rest := if k < m.n then ⟨m.src + k, m.dst + k, m.n - k⟩ :: l else l
      let s := send s (.hostWrite m.dst (hbmRead s m.src k) (rdB s (DMA_CH_CFG_RO_DATA c) && bitOf (cfgDw s 0x78) 4))
      issueWrites n { s with hep := { s.hep with moves := mput [] s.hep.moves c rest } } c

/-- A channel's turn: WEIGHT writes. -/
def writeTurn (s : State) (c : Nat) : State :=
  if (mget [] s.hep.moves c).isEmpty then s else
  let s := issueWrites (orOne (rd s (DMA_CH_CFG_WEIGHT c))) s c
  badCheck { s with hep := { s.hep with servedOut := c } } c

/-- The write channels in round robin, from the one after that served last. The first argument bounds the rounds. -/
def pumpWrites : Nat → State → State
  | 0, s => s
  | n + 1, s =>
    if !mayIssue s || s.hep.moves.isEmpty then s
    else pumpWrites n (each ((List.range 96).map (fun i => 32 + (s.hep.servedOut - 31 + i) % 96)) writeTurn s)

/-- Rounds enough for every write that waits. -/
def writeRounds (s : State) : Nat := s.hep.moves.foldl (fun a p => p.2.foldl (fun a m => a + m.n / 128 + 2) a) 0

/-- Serve what waits for the link: reads, then writes. -/
def serveHost (s : State) : State :=
  let s := serveReads s
  pumpWrites (writeRounds s) s

/-- Ask for the next 512-byte pieces of an index table in host memory, no more than 4 KB ahead of the element being moved (R337). The first argument bounds
the pieces. -/
def askIndex : Nat → State → Nat → State
  | 0, s, _ => s
  | f + 1, s, c =>
    let x := dma s c
    if 4 * x.count ≤ x.asked || decide (4 * x.moved + 4096 < x.asked + 512) then s
    else
      let n := min 512 (4 * x.count - x.asked)
      askIndex f (wantRead (setDma s c { x with asked := x.asked + n }) (.dmaIndex c) (lowAddr (addrPlus x.idxAddr x.asked)) n) c

/-- Move elements in index order while their offsets are known (R337). The first argument bounds the elements. -/
def moveElems : Nat → State → Nat → State
  | 0, s, _ => s
  | f + 1, s, c =>
    let x := dma s c
    if x.count ≤ x.moved || x.bad then s
    else
      let off := if inHbm x.idxAddr then some (hbmNat s (lowAddr x.idxAddr + 4 * x.moved) 4) else mget none x.idx x.moved
      match off with
      | none => s
      | some o =>
        let src := addrPlus x.src o
        let dst := addrPlus x.dst (x.moved * x.size)
        if beyond src x.size || beyond dst x.size then setDma s c { x with bad := true }
        else moveElems f (dmaMove (setDma s c { x with moved := x.moved + 1, idx := mput none x.idx x.moved none }) c src dst x.size) c

/-- Elements of an indexed descriptor move as far as they can. DEDUCED (log 27). -/
def dmaGather (s : State) (c : Nat) : State :=
  let x := dma s c
  let s := moveElems (x.count + 1) s c
  badCheck (if inHbm x.idxAddr then s else askIndex 8 s c) c

/-- A descriptor has been read (R331): it is refused, or it is executed. DEDUCED (log 27). -/
def dmaLoad (s : State) (c : Nat) (bytes : List Byte) : State :=
  let x : DmaS := { dma s c with stage := 2, desc := bytes, idx := [], asked := 0, moved := 0, bad := false }
  let r := descRefusal c x
  if r != 0 then haltCh s c r
  else
    let s := setDma s c x
    if x.indexed then dmaGather s c else dmaMove s c x.src x.dst x.bytes

/-- Read the descriptor in CUR. DEDUCED (log 27). -/
def dmaFetch (s : State) (c : Nat) : State :=
  let a := rd s (DMA_CH_CUR_CUR c)
  if inHbm a then
    if badHbm a then haltCh s c 6 else if beyond a 64 then haltCh s c 7 else dmaLoad s c (hbmRead s (lowAddr a) 64)
  else wantRead (setDma s c { dma s c with stage := 1 }) (.dmaDesc c) (lowAddr a) 64

/-- The descriptor at an address is to be executed: it starts, or waits for room in the ring or for a mode in which channels run (R338, R349). -/
def dmaStart (s : State) (c a : Nat) : State :=
  let s := wr (wr s (DMA_CH_CUR_CUR c) a) (DMA_CH_STATUS_RUN c) 1
  if dmaBlocked s || cplFull s c then setDma s c { dma s c with stage := 7 } else dmaFetch s c

/-- Follow a NEXT that a re-fetch has read (R334). -/
def dmaFollow (s : State) (c a : Nat) : State :=
  if a % 64 != 0 then haltCh s c 6 else if enabled s (dmaEn c) then dmaStart s c a else s

/-- The re-fetch of a parked descriptor (R334); one in HBM is read at once, and `ecc` is what that read meets (R346). DEDUCED (log 27). -/
def dmaRefetch (s : State) (c : Nat) (ecc : EccResult) : State :=
  let a := rd s (DMA_CH_CUR_CUR c)
  let s := wr (wr s (DMA_CH_STATUS_RUN c) 1) (DMA_CH_STATUS_DB_PEND c) 0
  let read := fun (s : State) =>
    if bitOf (hbmNat s (lowAddr a) 8) 0 then wr (setDma s c { dma s c with stage := 0 }) (DMA_CH_STATUS_RUN c) 2
    else dmaFollow s c (hbmNat s (lowAddr a + 0x28) 8)
  if !inHbm a then wantRead (setDma s c { dma s c with stage := 5 }) (.dmaStop c) (lowAddr a) 8
  else match ecc with
    | .none => read s
    | .corrected => read (eccCorrected s 0 0)
    | .uncorrectable => haltCh (eccUncorrectable s 0 0 (lowAddr a)) c 5

/-- Whether a channel is ENABLED, and so takes up new work. -/
def dmaRuns (s : State) (c : Nat) : Bool := enabled s (dmaEn c)

/-- A channel parks; a doorbell recorded while it was ACTIVE makes it re-fetch (Table 12-3). DEDUCED (log 27). -/
def dmaPark (s : State) (c : Nat) (ecc : EccResult) : State :=
  let s := wr (setDma s c { dma s c with stage := 0 }) (DMA_CH_STATUS_RUN c) 2
  if rdB s (DMA_CH_STATUS_DB_PEND c) && !dmaBlocked s && dmaRuns s c then dmaRefetch s c ecc else s

/-- A descriptor is complete: its entry, then NEXT, or the channel parks (Table 12-3). A channel in QUIESCING ends here. DEDUCED (log 27). -/
def dmaFinish (s : State) (c : Nat) (ecc : EccResult) : State :=
  let x := dma s c
  let s := setDma (dmaCount s c x) c { x with stage := 0, desc := [] }
  if !dmaRuns s c then s
  else if x.fullStop then dmaPark s c ecc
  else dmaStart s c x.next

/-! Commands. -/

/-- DMA_DOORBELL (Table 12-3, R349). -/
def dmaDoorbell (c : Nat) (ecc : EccResult) (s : State) : State :=
  if !dmaRuns s c then s else
  match rd s (DMA_CH_STATUS_RUN c) with
  | 0 => if dmaBlocked s then setDma s c { dma s c with bell := true } else dmaStart s c (64 * rd s (DMA_CH_HEAD_HEAD c))
  | 1 => wr s (DMA_CH_STATUS_DB_PEND c) 1
  | 2 => if dmaBlocked s then wr s (DMA_CH_STATUS_DB_PEND c) 1 else dmaRefetch s c ecc
  | _ => s

/-- Whether the executing descriptor has read HBM. -/
def dmaReadsHbm (s : State) (c : Nat) : Bool :=
  let x := dma s c
  inHbm (rd s (DMA_CH_CUR_CUR c)) || (inHbm x.src && x.bytes != 0) || (x.indexed && inHbm x.idxAddr)

/-- Every write of the executing descriptor has been issued. -/
def dmaMoved (s : State) (c : Nat) : Bool :=
  let x := dma s c
  x.stage == 2 && !x.bad && !dmaBusy s c && (!x.indexed || x.moved == x.count)

/-- DMA_DESCRIPTOR_COMPLETE (R332, R339, R346, Table 19-5): `ecc` is what the channel's reads of HBM, or of its staging page, met at an address. -/
def dmaComplete (t : DmaTouch) (ecc : EccResult) (staging : Bool) (addr : Nat) (s : State) : State :=
  let c := t.c.val
  if !dmaMoved s c then s else
  let x := dma s c
  let finish := fun (s : State) =>
    if x.barrier && !inHbm x.dst && x.bytes != 0 then
      wantRead (setDma s c { x with stage := 4 }) (.dmaBarrier c) (lowAddr x.dst + x.bytes - 1) 0
    else dmaFinish s c t.refetch
  if (if staging then x.bytes == 0 else !dmaReadsHbm s c) then finish s else
  let array := if staging then 4 else 0
  match ecc with
  | .none => finish s
  | .corrected => finish (eccCorrected s array 0)
  | .uncorrectable => haltCh (eccUncorrectable s array 0 addr) c 5

/-- The zero-length read of a barrier has completed (R339). -/
def dmaBarrierDone (s : State) (c : Nat) (ecc : EccResult) : State := if (dma s c).stage = 4 then dmaFinish s c ecc else s

/-- BARRIER_READ_COMPLETE: the completion of a channel's zero-length read arrives, and its tag is free; one issued before a halt is discarded (R344). -/
def barrierComplete (c : Nat) (ecc : EccResult) (s : State) : State :=
  match s.hep.tags.find? (fun p => p.2.who == .dmaBarrier c) with
  | none => s
  | some t =>
    let s := drainShow (laterOnce { s with hep := { s.hep with tags := s.hep.tags.filter (fun p => p.1 != t.1) } } .pump)
    if t.2.discard then s else dmaBarrierDone s c ecc

/-- The data of a read of the engines that has completed. DEDUCED (log 27). -/
def dmaArrive (s : State) (who : Requester) (addr : Nat) (data : List Byte) : State :=
  match who with
  | .queueRing _ => s
  | .dmaDesc c => if (dma s c).stage = 1 then dmaLoad s c data else s
  | .dmaStop c =>
    if bitOf (leNat data) 0 then dmaPark s c .none
    else wantRead (setDma s c { dma s c with stage := 6 }) (.dmaNext c) (lowAddr (rd s (DMA_CH_CUR_CUR c)) + 0x28) 8
  | .dmaNext c => dmaFollow s c (leNat data)
  | .dmaData c dst => badCheck (hbmWrite s dst data) c
  | .dmaIndex c =>
    let x := dma s c
    let i0 := (addr - lowAddr x.idxAddr) / 4
    let idx := (List.range (data.length / 4)).foldl (fun m j => mput none m (i0 + j) (some (leNat ((data.drop (4 * j)).take 4)))) x.idx
    dmaGather (setDma s c { x with idx := idx }) c
  | .dmaBarrier c => dmaBarrierDone s c .none

/-- DMA_HEAD_WRITE (R336). DEDUCED (log 27). -/
def dmaHeadWrite (c v : Nat) (s : State) : State :=
  let r := rd s (DMA_CH_STATUS_RUN c)
  if dmaRuns s c && (r == 0 || r == 3 || r == 4) then wr s (DMA_CH_HEAD_HEAD c) (v / 64) else s

/-- DMA_RESTART (R347, R340). DEDUCED (log 27). -/
def dmaRestart (c : Nat) (s : State) : State :=
  let r := rd s (DMA_CH_STATUS_RUN c)
  if (r == 3 || r == 4) && enState s (dmaEn c) != 0 && !rdB s DMA_STATUS_DRAINING && mayIssue s then
    wr (wr (setDma s c {}) (DMA_CH_STATUS_RUN c) 0) (DMA_CH_STATUS_CAUSE c) 0
  else raise (wr s (DMA_CH_STATUS_RESTART_REF c) 1) (srcDmaHalt c)

/-- ENGINE_HALT_CLEAR (R344, Table 12-8). -/
def engineHaltClear (s : State) : State := if rdB s DMA_STATUS_DRAINING then s else wr s DMA_STATUS_ENGINE_HALT 0

/-- A write of DMA_CH_CFG or DMA_CH_CPL_BASE (R351): taken only while the channel is DISABLED. -/
def dmaCfgWrite (c a v : Nat) (s : State) : State :=
  if enState s (dmaEn c) = 0 then setReg s a (BitVec.ofNat 64 v) else wr s (DMA_CH_STATUS_CFG_LOCK c) 1

/-- A channel that waits to start, when it now may. -/
def dmaTry (s : State) (c : Nat) : State :=
  if (dma s c).stage = 7 && dmaRuns s c && !dmaBlocked s && !cplFull s c then dmaFetch s c else s

/-- A write of DMA_CH_CPL_CI (R338). -/
def dmaCiWrite (c v : Nat) (s : State) : State := dmaTry (cplShow (wr s (DMA_CH_CPL_CI_CI c) v) c) c

/-- Channels run again on leaving BOOT or SERVICE (R349); a re-fetch from HBM then meets no error. DESIGN CHOICE (log 27). -/
def dmaWake (s : State) : State :=
  if dmaBlocked s then s else
  each (below 128 (dmaRuns s)) (fun s c =>
    let x := dma s c
    match rd s (DMA_CH_STATUS_RUN c) with
    | 0 => if x.bell then dmaStart (setDma s c { x with bell := false }) c (64 * rd s (DMA_CH_HEAD_HEAD c)) else s
    | 1 => dmaTry s c
    | 2 => if rdB s (DMA_CH_STATUS_DB_PEND c) then dmaRefetch s c .none else s
    | _ => s) s

/-! The enable (R332, R351). -/

/-- Whether an enable of a channel is refused (R351): CPL_BASE was written with bit 63, which reads 0, set. DEDUCED (log 27). -/
def dmaRefused (s : State) (c : Nat) : Bool := bitOf (getReg s (0x131018 + 0x40 * c)).toNat 63

/-- A channel becomes ENABLED: IDLE, or MASTER_OFF while Bus Master Enable is 0. -/
def dmaEnabled (s : State) (c : Nat) : State :=
  if mayIssue s || decide (3 ≤ rd s (DMA_CH_STATUS_RUN c)) then s else dmaStop s c 4

/-- The state a channel is enabled with. -/
def dmaFresh (s : State) (c : Nat) : State :=
  cplShow (wr (wr (wr (setDma s c {}) (DMA_CH_STATUS_RUN c) 0) (DMA_CH_STATUS_DB_PEND c) 0) (DMA_CH_STATUS_CAUSE c) 0) c

/-- A channel with no descriptor in flight: nothing keeps it from DISABLED. -/
def dmaStill (s : State) (c : Nat) : Bool :=
  let g := (dma s c).stage
  rd s (DMA_CH_STATUS_RUN c) != 1 || g == 0 || 5 ≤ g

/-- A channel has become DISABLED: it reads IDLE, and a re-fetch it was making ends. -/
def dmaOffShow (s : State) (c : Nat) : State := wr (setDma (dropReads s (· == c)) c {}) (DMA_CH_STATUS_RUN c) 0

end Sys2Proof.Machine
end

