-- ==== Sys2Proof/Machine/Endpoint.lean ====
section
/-! DEFINITION. The PCI Express endpoint (13_host_endpoint.md): configuration requests, completions and their errors, Bus Master Enable and power states, link power and link events,
the GLRD table, errors of requests it does not serve. Memory requests are in Machine/Bus.lean. -/

namespace Sys2Proof.Machine

/-! Requests not served (R361, R365, R381). -/

/-- An error of a request that expects a completion (R361, R365): logged at its severity where that is Fatal, else as Advisory Non-Fatal. PRESUMED (log 28). -/
def nonPosted (s : State) (bit : Nat) (head : List Nat) : State :=
  if bitOf (cfgDw s 0x10C) bit then uncorrectable s bit (some head) else advisory s bit head

/-- An Unsupported Request (R365), with its header: one that expects a completion gets it; a posted one is an uncorrectable error. PRESUMED (log 28). -/
def unsupported (s : State) (posted : Bool) (head : List Nat) : State :=
  let s := cfgOr s 0x78 (2 ^ 19)
  if posted then uncorrectable s 20 (some head)
  else send (nonPosted (addSat s HEP_CNT_UR_COUNT 1) 20 head) (.completion .unsupported [])

/-- A Completer Abort (R361). PRESUMED (log 28). -/
def completerAbort (s : State) (head : List Nat) : State := send (nonPosted (cfgOr s 0x04 (2 ^ 27)) 15 head) (.completion .abort [])

/-- A poisoned TLP (R365, R381): a completion also shows Master Data Parity Error where Parity Error Response is set. PRESUMED (log 28). -/
def poisonedTlp (s : State) (cpl : Bool) (head : List Nat) : State :=
  advisory (cfgOr s 0x04 (2 ^ 31 + (if cpl && bitOf (cfgDw s 0x04) 6 then 2 ^ 24 else 0))) 12 head

/-! Completions (R377 to R381). -/

/-- The data of a read reaches its requester. -/
def deliverRead (s : State) (r : ReadReqS) : State :=
  match r.who with
  | .queueRing q => descsArrive s q r.addr r.got
  | w => dmaArrive s w r.addr r.got

/-- Requesters consume their reads in the order of issue (R377). The first argument bounds the reads. -/
def deliverReady : Nat → State → State
  | 0, s => s
  | n + 1, s =>
    let earlier := fun (r x : ReadReqS) => sameRequester r.who x.who && decide (x.id < r.id)
    match s.hep.ready.find? (fun r => !s.hep.ready.any (earlier r) && !s.hep.tags.any (fun p => !p.2.discard && earlier r p.2)) with
    | none => s
    | some r => deliverReady n (deliverRead { s with hep := { s.hep with ready := s.hep.ready.filter (fun x => x.id != r.id) } } r)

/-- Take a tag out of use. -/
def dropTag (s : State) (t : Nat) : State := laterOnce { s with hep := { s.hep with tags := s.hep.tags.filter (fun p => p.1 != t) } } .pump

/-- A read that is complete: its tag is free, its data goes to its requester or is discarded. -/
def readDone (s : State) (t : Nat) (r : ReadReqS) : State :=
  let s := drainShow (dropTag s t)
  if r.discard then s
  else
    let s := { s with hep := { s.hep with ready := s.hep.ready ++ [r] } }
    deliverReady s.hep.ready.length s

/-- A read that has failed (R323, R344): 1 UR, 2 CA, 3 POISON, 4 TIMEOUT. PRESUMED (log 28). -/
def readFailed (s : State) (r : ReadReqS) (cause : Nat) : State :=
  match r.who with
  | .queueRing q => if r.discard && cause != 4 then s else queueFault s q r.addr cause
  | _ => engineHalt s r.addr cause

/-- A completion for a tag with no read outstanding (R380): late for a quarantined tag, which it frees, else unexpected. PRESUMED (log 28). -/
def strayCompletion (s : State) (t : Nat) (x : Cpl) : State :=
  let s1 := advisory s 16 (cplHead t x)
  if s.hep.quar.contains t then
    laterOnce (raise (addSat { s1 with hep := { s1.hep with quar := s1.hep.quar.filter (· != t) } } HEP_CNT_LATE_CPL_COUNT 1) srcHepLate) .pump
  else s1

/-- COMPLETION_RECEIVE (R377, R380, R381). PRESUMED (log 28). -/
def completionReceive (t : Nat) (x : Cpl) (s : State) : State :=
  match s.hep.tags.find? (fun p => p.1 == t) with
  | none => strayCompletion s t x
  | some (_, r) =>
    match x.status with
    | .unsupported => readFailed (dropTag (cfgOr s 0x04 (2 ^ 29)) t) r 1
    | .abort => readFailed (dropTag (cfgOr s 0x04 (2 ^ 28)) t) r 2
    | .poisoned => readFailed (dropTag (poisonedTlp s true (cplHead t x)) t) r 3
    | .ok =>
      let r := { r with got := (r.got ++ x.data).take r.len }
      if r.len ≤ r.got.length then readDone s t r
      else { s with hep := { s.hep with tags := s.hep.tags.map (fun p => if p.1 = t then (t, r) else p) } }

/-- COMPLETION_TIMEOUT (R378). PRESUMED (log 28). -/
def completionTimeout (t : Nat) (s : State) : State :=
  match s.hep.tags.find? (fun p => p.1 == t) with
  | none => s
  | some (_, r) =>
    let s := windowInc (addSat (uncorrectable s 14 none) HEP_CNT_CPL_TO_COUNT 1) 83 1
    let s := dropTag { s with hep := { s.hep with quar := s.hep.quar ++ [t] } } t
    readFailed s r 4

/-- QUARANTINE_EXPIRE (R379). -/
def quarantineExpire (t : Nat) (s : State) : State := laterOnce { s with hep := { s.hep with quar := s.hep.quar.filter (· != t) } } .pump

/-! Bus Master Enable, power states, masks (R369, R371, R382). -/

/-- Requests of delivery and the engines stop (R324, R348). -/
def masterOff (s : State) : State := dmaOff (deliveryOff s)

/-- Bus Master Enable takes a value. -/
def setBme (v : Bool) (s : State) : State :=
  let was := mayIssue s
  let c := cfgDw s 0x04
  let s := cfgSet s 0x04 (c - Nat.land c 4 + 4 * b2n v)
  if was && !mayIssue s then masterOff s else if v then laterOnce (flushPending s) .pump else s

/-- BUS_MASTER_ENABLE_CLEAR (R382). -/
def busMasterClear (s : State) : State := setBme false s

/-- POWER_STATE_CHANGE (R371): D3hot or D0. -/
def powerState (d3 : Bool) (s : State) : State :=
  let was := mayIssue s
  let c := cfgDw s 0x44
  let s := cfgSet s 0x44 (c - c % 4 + 3 * b2n d3)
  if was && !mayIssue s then masterOff s else if d3 then s else laterOnce (flushPending s) .pump

/-- VECTOR_UNMASK (R369): the vector's own mask bit clears, and a pending message is sent. -/
def vectorUnmask (v : Nat) (s : State) : State :=
  let s := if intMode s = 1 then
      let m := cfgDw s 0x60
      cfgSet s 0x60 (m - Nat.land m (2 ^ (v % 32)))
    else msixSet s v 3 0
  flushPending s

/-! Configuration requests (R353 to R360). -/

/-- The stepping (R353) and the ordering code (Table 13-6), as ID_PART shows them. -/
def stepping (s : State) : Nat := cfgDw s 0x08 % 256

/-- MODE_STATUS and the link state as configuration space shows them; the size of BAR2's window as a power of two (R358). -/
def bar2Log (s : State) : Nat := 20 + bitsOf (cfgDw s 0x160) 13 8

/-- A configuration dword as it reads (Tables 13-2 to 13-6). PRESUMED (log 29). -/
def cfgRead (s : State) (o : Nat) : Nat :=
  let d := Config.dieId.toNat
  match o with
  | 0x04 => Nat.lor (cfgDw s 0x04) (2 ^ 19 * b2n (anyPend s))
  | 0x2C => rd s HEP_SSID_SVID + 65536 * rd s HEP_SSID_SID
  | 0x64 => (List.range 32).foldl (fun a v => a + (if intMode s = 1 && mget false s.hep.pba v then 2 ^ v else 0)) 0
  | 0x80 => Nat.lor (cfgDw s 0x80) (65536 * rd s HEP_LINK_SPEED + 2 ^ 20 * rd s HEP_LINK_WIDTH)
  | 0x14C => bitsOf d 31 0
  | 0x150 => bitsOf d 63 32
  | 0x244 => if 4 ≤ rd s HEP_LINK_SPEED then 2 ^ 16 else 0
  | 0x2B8 => 0x5120 + 65536 * stepping s
  | 0x2BC => Config.pkgSerial.toNat
  | 0x2C0 => bitsOf d 31 0
  | 0x2C4 => bitsOf d 63 32
  | 0x2C8 => rd s BOOT_FW_VER_VER
  | 0x2CC => (getReg s 0x110000).toNat
  | 0x2D8 => (getReg s 0x170200).toNat
  | 0x2DC => bitsOf (getReg s 0x17000C).toNat 24 24
  | _ => cfgDw s o

/-- The bits of a configuration dword that a write sets: those of BAR2 below its size read 0. PRESUMED (log 29). -/
def cfgMask (s : State) (o : Nat) : Nat :=
  let k := 2 ^ min 64 (bar2Log s)
  match o with
  | 0x18 => if k < 2 ^ 32 then 2 ^ 32 - k else 0
  | 0x1C => if k < 2 ^ 32 then 2 ^ 32 - 1 else 2 ^ 32 - k / 2 ^ 32
  | _ => cfgRw o

/-- The bytes of a dword that byte enables name. -/
def beMask (be : Nat) : Nat := (List.range 4).foldl (fun a i => a + (if bitOf be i then 255 * 256 ^ i else 0)) 0

/-- A write of a configuration dword through its masks. PRESUMED (log 29). -/
def cfgPut (s : State) (o be v : Nat) : State :=
  let old := cfgDw s o
  let m := Nat.land (cfgMask s o) (beMask be)
  let c := Nat.land (Nat.land (cfgW1c o) (beMask be)) v
  let new := old - Nat.land old m + Nat.land v m
  let new := new - Nat.land new c
  let new := if o = 0x44 && (new % 4 == 1 || new % 4 == 2) then new - new % 4 + old % 4 else new
  if o = 0x160 && !(decide (8 ≤ bitsOf new 13 8) && decide (bitsOf new 13 8 ≤ 15)) then s else cfgSet s o new

/-- What a lane margining command answers (Table 13-5): its payload, with the bits of it that the spec does not state; none where no answer is due. PRESUMED (log 29). -/
def marginAnswer (ctl : Nat) : Option (Nat × Nat) :=
  let x := bitsOf ctl 15 8
  match bitsOf ctl 5 3 with
  | 1 => match x with
    -- capabilities: voltage, independent up and down, independent left and right
    | 0x88 => some (0x07, 0x18)
    | 0x89 => some (64, 0)
    | 0x8A => some (16, 0)
    | 0x8B => some (50, 0)
    | 0x8C => some (30, 0)
    | _ => if 0x8D ≤ x ∧ x ≤ 0x90 then some (0, 0x7F) else none
  | 2 => if x = 0x0F ∨ x = 0x55 ∨ 0xC0 ≤ x then some (x, 0) else none
  | 3 => some (0, 0xFF)
  | 4 => some (0, 0xFF)
  | 7 => if x = 0x9C then some (x, 0) else none
  | _ => none

/-- A lane's margining command for the device's own receiver (6), or No Command, at 16.0 GT/s and above: its status shows the command with the answer. PRESUMED (log 29). -/
def marginRun (s : State) (o : Nat) : State :=
  let d := cfgDw s o
  let ctl := d % 2 ^ 16
  if rd s HEP_LINK_SPEED < 4 || !(ctl % 8 == 6 || ctl % 8 == 0 && bitsOf ctl 5 3 == 7) then s else
  match marginAnswer ctl with
  | none => s
  | some (x, m) =>
    let y := if m = 0 then x else Nat.lor x (Nat.land m (freeNat s % 256))
    cfgSet (if m = 0 then s else freeNext s) o (ctl + 2 ^ 16 * (ctl % 128 + 256 * y))

/-- A configuration write: what it sets, and what follows from it (R358, R368 to R371, R382). PRESUMED (log 29). -/
def cfgWrite (s : State) (o be v : Nat) : State :=
  let was := mayIssue s
  let s := cfgPut s o be v
  let s := laterOnce (if was && !mayIssue s then masterOff s else s) .pump
  if o = 0x04 || o = 0x44 || o = 0x50 || o = 0x60 || o = 0xB0 then updateInta (flushPending s)
  else if 0x248 ≤ o ∧ o < 0x288 then marginRun s o else s

/-- CONFIG_REQUEST (R355, R365). -/
def configRequest (c : CfgReq) (s : State) : State :=
  if c.type1 then
    unsupported s false (reqHead (if c.write then 0x45 else 0x05) 1 false c.id c.be.toNat 0 ++ [c.target.toNat * 2 ^ 16 + c.off.toNat / 4 * 4, 0])
  else if !s.hep.loaded then send s (.completion .retry [])
  else
    let o := c.off.toNat / 4 * 4
    if c.write then send (cfgWrite s o c.be.toNat c.data.toNat) (.completion .ok [])
    else send s (.completion .ok (leBytes 4 (Nat.land (cfgRead s o) (beMask c.be.toNat))))

/-- Configuration space after a conventional reset (R384): reset values, but for the sticky bits of AER. -/
def cfgAfterReset (s : State) : List (Nat × Word) :=
  s.hep.cfg.filter (fun p => p.1 == 0x104 || p.1 == 0x108 || p.1 == 0x10C || p.1 == 0x110 || (decide (0x114 ≤ p.1) && decide (p.1 ≤ 0x128)))

/-! The link (R372, R373, R385). -/

/-- L0S_IDLE_EXPIRE (R372). PRESUMED (log 29). -/
def l0sIdle (s : State) : State :=
  if bitOf (cfgDw s 0x80) 0 && !rdB s HEP_LINK_FLIT && rd s HEP_LINK_LTSSM == 3 then send (wr s HEP_LINK_LTSSM 4) (.link 4) else s

/-- Whether delivery or DMA work is pending (R373). -/
def hostWork (s : State) : Bool :=
  (liveQueues s).any (fun p => p.2.ents.any QEnt.isItem) || !s.dlv.bells.isEmpty ||
    (List.range 128).any (fun c => enState s (dmaEn c) != 0 && rd s (DMA_CH_STATUS_RUN c) == 1) || !s.hep.tags.isEmpty ||
    s.hep.pba.any (·.2)

/-- L1_IDLE_EXPIRE (R373): the endpoint asks for L1, from L0 or, where L0s is enabled too, from L0s. PRESUMED (log 29). -/
def l1Idle (s : State) : State :=
  if !bitOf (cfgDw s 0x80) 1 || !(rd s HEP_LINK_LTSSM == 3 || rd s HEP_LINK_LTSSM == 4) || ((acquiring s || mode s == 8) && hostWork s) then s else send s (.link 5)

/-- A link event sets its bit, and LINK is raised when it does (Table 13-12). -/
def linkFlag (s : State) (f : FRef) : State := if rdB s f then s else raise (wr s f 1) srcHepLink

/-- The link takes a state: speed, width, Flit Mode, data link up, LTSSM. PRESUMED (log 29). -/
def linkState (s : State) (speed width : Nat) (flit up : Bool) (ltssm : Nat) : State :=
  let s := onlyIf (speed != rd s HEP_LINK_SPEED) (fun s => linkFlag s HEP_LINK_EVT_SPEED_CHG) s
  let s := onlyIf (width != rd s HEP_LINK_WIDTH) (fun s => linkFlag s HEP_LINK_EVT_WIDTH_CHG) s
  let s := onlyIf (ltssm == 7 && rd s HEP_LINK_LTSSM != 7) (fun s => linkFlag (addSat s HEP_CNT_RECOVERY_COUNT 1) HEP_LINK_EVT_RECOVERY) s
  wr (wrB (wrB (wr (wr s HEP_LINK_SPEED speed) HEP_LINK_WIDTH width) HEP_LINK_FLIT flit) HEP_LINK_DL_UP up) HEP_LINK_LTSSM ltssm

/-- A request to leave for Recovery: the retrain action of window 82 (R523). PRESUMED (log 29). -/
def linkRetrain (s : State) : State := send s (.link 7)

/-! The GLRD table (R366, R367). -/

/-- Blocks of Table 13-8: BLOCK_ID, BAR, BASE, SIZE. -/
def glrdBlocks : List (Nat × Nat × Nat × Nat) := [
  (0x01, 0, 0, 0x1000), (0x02, 0, 0x1000, 0x6000), (0x03, 0, 0x7000, 0x100), (0x04, 0, 0x8000, 0x8000), (0x05, 0, 0x10000, 0x10000), (0x06, 0, 0x20000, 0x10000),
  (0x07, 0, 0x30000, 0x10000), (0x08, 0, 0x40000, 0x10000), (0x09, 0, 0x50000, 0x10000), (0x0A, 0, 0x60000, 0x10000), (0x0B, 0, 0x70000, 0x40000),
  (0x0C, 0, 0xB0000, 0x10000), (0x0D, 0, 0xC0000, 0x10000), (0x0E, 0, 0xD0000, 0x10000), (0x0F, 0, 0xE0000, 0x40000), (0x10, 0, 0x120000, 0x10000),
  (0x11, 0, 0x130000, 0x10000), (0x12, 0, 0x140000, 0x10000), (0x13, 0, 0x150000, 0x10000), (0x14, 0, 0x160000, 0x10000), (0x15, 0, 0x170000, 0x10000),
  (0x16, 0, 0x2000000, 0x800000), (0x17, 2, 0, 0x600000000)]

/-- Per-instance arrays (Table 13-10), in the order of their chapters' register tables: BLOCK_ID, BASE, instances, STRIDE. The two streams of a lane, whose 64 register sets have no one stride, make two
arrays over the lanes. PRESUMED (log 29). -/
def glrdArrays : List (Nat × Nat × Nat × Nat) := [
  (0x05, 0x10000, 8, 0x1000), (0x05, 0x18000, 8, 0x20), (0x06, 0x20000, 48, 0x10), (0x06, 0x21000, 1536, 4), (0x06, 0x23000, 128, 0x20),
  (0x07, 0x30000, 256, 0x10), (0x07, 0x31000, 8, 4), (0x07, 0x31020, 8, 4), (0x07, 0x31100, 100, 8), (0x07, 0x31800, 16, 4),
  (0x08, 0x40000, 12, 0x100), (0x08, 0x41000, 8, 0x40), (0x08, 0x42000, 8, 0x10), (0x08, 0x43000, 4, 0x10),
  (0x09, 0x50000, 64, 0x100), (0x09, 0x54000, 24, 0x10), (0x09, 0x55000, 32, 0x10),
  (0x0A, 0x60000, 4, 0x100), (0x0A, 0x60408, 4, 8), (0x0A, 0x61000, 32, 0x40), (0x0A, 0x62000, 16, 0x40),
  (0x0B, 0x70000, 32, 0x2000), (0x0B, 0x71000, 32, 0x2000), (0x0B, 0x71100, 32, 0x2000),
  (0x0C, 0xB0000, 64, 0x100), (0x0D, 0xC0000, 32, 0x100), (0x0E, 0xD0100, 64, 4),
  (0x0F, 0xE0000, 16, 0x100), (0x0F, 0xF0000, 256, 0x10), (0x0F, 0x100000, 64, 0x100), (0x0F, 0x110100, 256, 4),
  (0x10, 0x120080, 4, 8), (0x10, 0x120100, 8, 4), (0x10, 0x121000, 64, 0x10), (0x10, 0x124000, 256, 0x40),
  (0x11, 0x131000, 128, 0x40), (0x12, 0x140010, 4, 4), (0x13, 0x150100, 8, 0x20), (0x13, 0x150400, 32, 0x20), (0x15, 0x170300, 55, 4),
  (0x16, 0x2000000, 1048576, 8)]

/-- One entry (Table 13-10). -/
def glrdEntry (id sub bar inst base size stride : Nat) : List Byte :=
  leBytes 2 id ++ leBytes 1 sub ++ leBytes 1 0x10 ++ leBytes 1 bar ++ leBytes 1 0 ++ leBytes 2 inst ++ leBytes 8 base ++ leBytes 8 size ++ leBytes 4 stride ++ leBytes 4 0

/-- The entries, sorted by BLOCK_ID and SUB. -/
def glrdEntries : List (List Byte) :=
  glrdBlocks.flatMap (fun b => glrdEntry b.1 0 b.2.1 1 b.2.2.1 b.2.2.2 0 ::
    (glrdArrays.filter (fun a => a.1 == b.1)).zipIdx.map (fun p => glrdEntry b.1 (p.2 + 1) 0 p.1.2.2.1 p.1.2.1 (p.1.2.2.1 * p.1.2.2.2) p.1.2.2.2))

/-- The header with a CRC field (Table 13-9). -/
def glrdHeader (s : State) (crc : Nat) : List Byte :=
  let n := glrdEntries.length
  leBytes 4 0x44524C47 ++ leBytes 2 1 ++ leBytes 2 n ++ leBytes 4 (64 + 32 * n) ++ leBytes 2 32 ++ leBytes 2 0x5120 ++ leBytes 8 Config.dieId.toNat ++
    leBytes 4 Config.pkgSerial.toNat ++ leBytes 2 (stepping s) ++ leBytes 2 0 ++ leBytes 4 (rd s BOOT_FW_VER_VER) ++ leBytes 4 (getReg s 0x110000).toNat ++ List.replicate 20 0 ++ leBytes 4 crc

/-- The table's bytes. PRESUMED (log 29). -/
def glrdTable (s : State) : List Byte :=
  let body := glrdEntries.flatten
  glrdHeader s (crc32c (glrdHeader s 0 ++ body)) ++ body

/-- A byte of the Expansion ROM (R364). DESIGN CHOICE (log 4). -/
def romByte (s : State) (a : Nat) : Byte :=
  if a < 0x80000 then mget 0 s.hep.rom a
  else if a < 0x81000 then ((glrdTable s)[a - 0x80000]?).getD 0 else 0

end Sys2Proof.Machine
end

