-- ==== Sys2Proof/Machine/Boot.lean ====
section
/-! DEFINITION. Power, conventional reset and boot (13_host_endpoint.md R383, R384; 17_lantern.md R479, R480, R483, R490; 20_boot_identity_lifetime.md R530 to R533; 21_pins_power_package.md
R552 to R556). -/

namespace Sys2Proof.Machine

/-! Conventional reset (R384, R14). -/

/-- The bits of the register at `a` that conventional reset leaves: those of the AON domain, the AON fault windows, what the fuses and the last ageing measurement say,
the levels at the encoder pins. -/
def keepMask (a : Nat) : Nat :=
  if 0x23F00 ≤ a && a < 0x24000 then 2 ^ 64 - 1
  else if a = 0x170400 then 0x1FFFF
  else if a = 0x170108 then 0x3F
  else if 0x170300 ≤ a && a < 0x1703DC then 2 ^ 64 - 1
  else if 0x41000 ≤ a && a < 0x41200 && a % 0x40 = 0x18 then 0x3F
  else match regAt a with | some (r, _) => r.aon | none => 0

/-- A register value with the bits of a mask kept and the others at their reset value. -/
def mixReset (a : Nat) (v : DWord) (keep : Nat) : DWord :=
  BitVec.ofNat 64 (Nat.land v.toNat keep + (regReset a).toNat - Nat.land (regReset a).toNat keep)

/-- The registers with those bits kept that `keep` names. -/
def regsKeep (s : State) (keep : Nat → Nat) : List (Nat × DWord) :=
  s.regs.foldl (fun m p => mput (regReset p.1) m p.1 (mixReset p.1 p.2 (keep p.1))) []

/-- A key operation that reset cuts off: PROGRAM leaves its slot INVALID and counting as programmed (R539). -/
def keyCut (s : State) : State :=
  match s.mp.keyOp with
  | some (slot, 0, _, 0, _) =>
    wr (wr s ⟨0x170400, 2 * slot, 2⟩ 3) SEC_STATUS_PROVISION_OPEN 0
  | _ => s

/-- Whether a parameter is VOLATILE (R418). -/
def isVolatile (id : Nat) : Bool := match paramOf id with | some d => bitOf d.attr 4 | none => false

/-- The MP's state after conventional reset (R399, R402, R418): flash, fuses and keys stay; an FW_WRITE cut off leaves its bank unknown. -/
def mpAfterReset (s : State) : MpS :=
  { s.mp with order := [], cur := none, long := [], nonces := [], fails := 0, lock := none, pact := s.mp.pact.filter (fun p => isVolatile p.1), pshadow := []
              fwd := none, resp := [], flushFor := none, rcp := [], keyOp := none, warned := false, stage := none }

/-- The domains start from 0 (R98). -/
def freshDomains (now : Nat) : List (Nat × DomainS) :=
  (List.range 4).foldl (fun m d => mput {} m d { since := now, born := now }) []

/-- The main domain takes its reset state (R384): registers, everything in flight, HBM and buffers; the AON domain, the trigger SRAM, MRAM, flash and fuses
stay. DEDUCED (log 30). -/
def resetMain (s : State) : State :=
  let s := each s.mp.long firmwareCut (keyCut s)
  let s1 := { s with
    epoch := s.epoch + 1, todo := [], regs := regsKeep s keepMask, shadow := [], old := [], held := [], latch := [], loaded := [], ram := [], hbm := []
    rcd := { s.rcd with ports := [], latch := [], drop := none, ring := [], flush := none, markLost := false, flushDone := 0 }
    fw := s.fw.filter (fun p => decide (120 ≤ p.1)), gyl := {}, hep := { cfg := cfgAfterReset s }, modeCtl := {}, trl := [], ser := [], div := [], corr := [], homeLv := []
    dom := freshDomains s.now, path := [], txq := [], tpg := [], stk := [], due := [], pins := [], cxp := [], mlk := [], str := [], frm := [], lane := [], pxe := [], dlv := {}
    posMark := [], tth := {}, chg := {}, dma := [], mp := mpAfterReset s }
  let s1 := wr s1 REC_CURSOR_CURSOR (rd s1 REC_CIRC_OLDEST_OLDEST)
  let s1 := wrB s1 REC_STATUS_FIRST_FULL (s1.rcd.first.length == 2048)
  { s1 with pwr := { s1.pwr with reset := true } }

/-! The start of the main domain (R530, R95, R479, R480, R488, R438, R492). -/

/-- The trail of a port starts (Table 3-5, R480). DEDUCED (log 30). -/
def seedTrail (s : State) (p : Nat) : State :=
  let m := portMode s p
  let s := if m = 1 then
      let q := seedOf s p
      let s := wrB s (LAN_PORT_STATUS_SEED_QUIET p) q.2
      let s := onlyIf (!q.2) (fun s => wr s (LAN_PORT_STATUS_UNTRUSTED p) 1) s
      let s := wrB s (TRL_STATUS_UNTRUSTED p) (rdB s (LAN_PORT_STATUS_UNTRUSTED p))
      setTrl s p { base := 256 * q.1, edgeAt := motNow s, st := .still, mst := .still }
    else if m = 0 then s else serialStart s p
  onlyIf (bitOf (rd s LAN_SOFTLIM_PORT) p) (fun s => wr s (TRL_STATUS_SAT p) 1) s

/-- A port whose A or B was in line break when the trails start is in it still, and so is a broken Z that is watched (R65, R66). DEDUCED (log 30). -/
def rebreak (s : State) (p : Nat) : State :=
  let a := rdB s (TRL_PIN_A_LB p)
  let b := rdB s (TRL_PIN_B_LB p)
  let z := rdB s (TRL_PIN_Z_LB p)
  let s := wr (wr (wr s (TRL_PIN_A_LB p) 0) (TRL_PIN_B_LB p) 0) (TRL_PIN_Z_LB p) 0
  onlyIf z (lineBreakEnter p 2) (onlyIf b (lineBreakEnter p 1) (onlyIf a (lineBreakEnter p 0) s))

/-- The device stays in BOOT with REFUSE = BOOT_FAIL, served by ROM (R54, R397, R52). DEDUCED (log 30). -/
def heldInBoot (s : State) : State :=
  let s := wr (wr (wr s MODE_STATUS_REFUSE 8) MODE_STATUS_TRANSITION 0) MODE_STATUS_TARGET 1
  wr (wr s MBX_FW_STATUS_ROM 1) MBX_FW_STATUS_READY 1

/-- Subsystem Vendor ID and Subsystem ID from the board area of the flash (R354, Table 20-2). -/
def boardSsid (s : State) : Nat :=
  let b := fun (o n : Nat) => (List.range n).map (fun i => boardByte s (o + i))
  let len := leNat (b 4 4)
  let good := leNat (b 0 4) == 0x41524C47 && decide (16 ≤ len) && decide (len ≤ 65536) && leNat (b 12 4) == crc32c (b 0 12 ++ b 16 (len - 16))
  if good then leNat (b 8 4) else 0x1E6B

/-- The configuration header is loaded (R354, R355). DESIGN CHOICE (log 4). -/
def headerLoad (s : State) (rom : List Byte) : State :=
  let cells := rom.zipIdx.foldl (fun m p => if p.2 < 0x80000 then mput 0 m p.2 p.1 else m) ([] : List Host.Cell)
  wr { s with hep := { s.hep with loaded := true, rom := cells } } ⟨0x1038, 0, 32⟩ (boardSsid s)

/-- The main domain leaves reset: straps, trails, what Lantern holds for it (Table 20-1, step 1). DESIGN CHOICE (log 5). DEDUCED (log 30). -/
def bootStart (s : State) : State :=
  let s := { s with pwr := { s.pwr with reset := false, cold := false }, lan := { s.lan with wake := false, esc := [] } , dom := freshDomains s.now }
    |> (fun t => wrB t MODE_STATUS_COLD s.pwr.cold)
  let s := wr (wr (wr s MODE_STATUS_MODE 1) MODE_STATUS_ROLE s.pwr.straps.1) MODE_STATUS_WORKER_ID s.pwr.straps.2
  let s := wrB (wr s (MBX_STATUS_STATE 6) (idleState s 6)) (MBX_OWNER_HOST_WRITABLE 6) (isManager s)
  let s := wr s BOOT_STATUS_SELECTED (directory s).2
  let s := each (List.range 8) (fun s p => rebreak (seedTrail s p) p) s
  let s := each s.lan.chanEn (fun s p => gylSetEn s (208 + p.1) p.2) s
  if role s = 3 then headerLoad (heldInBoot s) [] else s

/-- The main domain leaves reset when nothing holds it there: rails, PERST#, the 1 ms hold, PWRFAIL_N (R383, R553). What Lantern's fault windows left for the main domain
is carried out (R492). DESIGN CHOICE (log 5). DEDUCED (log 30). -/
def tryBoot (s : State) : State :=
  let p := s.pwr
  if p.aon && p.main && p.reset && !p.perst && !p.hold && !p.fail then
    let w := s.lan.esc
    each w windowAct (bootStart s)
  else s

/-- The main domain enters reset after its flush (R506). DEDUCED (log 30). -/
def enterReset (s : State) : State := tryBoot (resetMain s)

/-- A conventional reset begins: it waits for a flush of the ring (R506). DEDUCED (log 30). -/
def askReset (s : State) : State := if !mainRuns s || s.modeCtl.resetWait then s else resetFlush s

/-- PERST_ASSERT (R506). -/
def perstAssert (s : State) : State := askReset { s with pwr := { s.pwr with perst := true } }

/-- HOT_RESET and DL_DOWN (R383): a running main domain will be held in reset for 1 ms. -/
def hotReset (s : State) : State :=
  if mainRuns s then askReset { s with pwr := { s.pwr with hold := true } } else s

def dlDown (s : State) : State := if mainRuns s then hotReset (wr s HEP_LINK_DL_UP 0) else s

/-- RESET_HOLD_END (R383). -/
def resetHoldEnd (s : State) : State :=
  if s.pwr.reset && s.pwr.hold then tryBoot { s with pwr := { s.pwr with hold := false } } else s

/-- PERST_DEASSERT (R530, R54): with the levels at the strap pins. -/
def perstDeassert (role wid : Nat) (s : State) : State :=
  tryBoot { s with pwr := { s.pwr with perst := false, straps := (role % 4, wid % 16) } }

/-! Booting (R530 to R533). -/

/-- OEM slots whose two store copies fail read INVALID, the others what their fuses say (R538). -/
def slotsCheck (s : State) (bad : Nat) : State :=
  each (List.range 4) (fun s k =>
    let st := rd s ⟨0x170400, 2 * k, 2⟩
    if (st = 1 || st = 3) && (mget [] s.mp.keys k).length != 0 then wr s ⟨0x170400, 2 * k, 2⟩ (if bitOf bad k then 3 else 1) else s) s

/-- The device is held in BOOT (R52, R54, R533): the only state of BOOT with TRANSITION = 0. -/
def bootHeld (s : State) : Bool := mode s == 1 && !rdB s MODE_STATUS_TRANSITION

/-- Whether BOOT_COMPLETE can come: in BOOT, not held there, with an image that R531 accepts. DEDUCED (log 30). -/
def bootReady (s : State) (x : BootImage) : Bool :=
  mainRuns s && mode s == 1 && !bootHeld s && decide (rd s BOOT_SVN_MIN ≤ x.svn.toNat)

/-- The registers of a boot that has succeeded (Table 20-10, R532). -/
def bootShow (s : State) (x : BootImage) : State :=
  let s := wrB (wrB (wrB s BOOT_STATUS_BANK x.bank) BOOT_STATUS_SELECTED x.selected) BOOT_STATUS_FALLBACK (x.bank != x.selected)
  let s := wr (wr (wr s BOOT_STATUS_ROM 0) BOOT_STATUS_CAUSE0 x.cause0.toNat) BOOT_STATUS_CAUSE1 x.cause1.toNat
  let s := onlyIf (x.svnCommit && decide (rd s BOOT_SVN_MIN < x.svn.toNat)) (fun s => wr s BOOT_SVN_MIN x.svn.toNat) s
  wr (wr (wr s BOOT_FW_VER_VER x.fwVer.toNat) BOOT_SVN_RUN x.svn.toNat) BOOT_TIME_MS x.ms.toNat

/-- What the running firmware brings (Table 20-1, steps 7 and 8): the kernel library, the header, the key store. -/
def bootLoad (s : State) (x : BootImage) : State :=
  let s := setBank s (b2n x.bank) { cause := 0, ver := x.fwVer.toNat, svn := x.svn.toNat, commit := x.svnCommit }
  let s := if (directory s).2 = b2n x.selected then s else { s with mp := { s.mp with dir := [((directory s).1, b2n x.selected), (0, b2n x.selected)] } }
  let s := wr s ⟨0x110000, 0, 32⟩ x.libVer.toNat
  let s := each x.kernels (fun s p => wr s (PXE_LIB_KVER_KVER p.1.toNat) p.2.toNat) s
  wr (slotsCheck (headerLoad s x.optRom) x.badSlots.toNat) SEC_STATUS_ROOT_OK 1

/-- The firmware starts to serve (R397). -/
def servesNow (s : State) : State := later (wr (wr s MBX_FW_STATUS_ROM 0) MBX_FW_STATUS_READY 1) .dmaWake

/-- Whether BOOT_COMPLETE is a restart of firmware that the watchdog found stopped (R397, R398): no boot runs and the mailboxes are not served. DEDUCED (log 30). -/
def fwStopped (s : State) : Bool := mainRuns s && decide (2 ≤ mode s) && !rdB s MBX_FW_STATUS_READY

/-- BOOT_COMPLETE (Table 20-1, step 9; R532, R543); the restart of stopped firmware changes no mode. DEDUCED (log 30). -/
def bootComplete (x : BootImage) (s : State) : State :=
  if fwStopped s then servesNow s
  else if !bootReady s x then s else
  let s := modeEnter (bootLoad (bootShow s x) x) 2 mcDone
  servesNow (record s rpMp 0x15 svNotice 0x0020 (leBytes 1 (b2n x.bank) ++ leBytes 1 (b2n (x.bank != x.selected)) ++ leBytes 4 x.fwVer.toNat ++ leBytes 1 x.svn.toNat ++ leBytes 2 x.ms.toNat))

/-- BOOT_FAIL (R533). DEDUCED (log 30). -/
def bootFail (cause0 cause1 : Nat) (fuseErr : Bool) (s : State) : State :=
  if !(mainRuns s && mode s == 1 && !bootHeld s) then s else
  let s := wr (wr (wr s BOOT_STATUS_ROM 1) BOOT_STATUS_CAUSE0 cause0) BOOT_STATUS_CAUSE1 cause1
  let s := wr (wr (wrB s BOOT_STATUS_FUSE_ERR fuseErr) BOOT_FW_VER_VER 0) ⟨0x110000, 0, 32⟩ 0
  let s := headerLoad (heldInBoot s) []
  record s rpMp 0x15 6 0x0021 (leBytes 1 cause0 ++ leBytes 1 cause1 ++ leBytes 1 (b2n fuseErr))

/-- QSPI_RELEASE (R533). -/
def qspiRelease (s : State) : State :=
  if bootHeld s && rdB s BOOT_STATUS_ROM then wr s BOOT_STATUS_QSPI_RELEASED 1 else s

/-! Rails (R483, R490, R552 to R556). -/

/-- MAIN_RAILS_UP (R490). DEDUCED (log 30). -/
def mainRailsUp (s : State) : State :=
  if s.pwr.main || !s.pwr.aon then s else
  let s := { s with powerOns := s.powerOns + 1, sram := [], pwr := { s.pwr with main := true, reset := true, cold := true, hold := false, front := [] } }
  tryBoot (lanternDirect s 0x0002 [])

/-- MAIN_RAILS_DOWN (R490): SENTINEL. DEDUCED (log 30). -/
def mainRailsDown (s : State) : State :=
  if !s.pwr.main then s else
  let s := resetMain s
  let s := { s with hep := {}, pwr := { s.pwr with main := false, trip := false, hold := false } }
  let s := wr s MODE_STATUS_MODE 0
  if s.pwr.aon then lanternDirect s 0x0003 [] else s

/-- PWRFAIL_FALL (R507, R553, R555). -/
def pwrfailFall (s : State) : State :=
  if s.pwr.fail then s else
  let s := { s with pwr := { s.pwr with fail := true } }
  if !mainRuns s then s else
  enterHold (later (record s rpMp 0x15 svFault 0x0011 []) (.gyl 191 0)) 5 0 false

/-- PWRFAIL_RISE (R555, R553). -/
def pwrfailRise (s : State) : State := tryBoot { s with pwr := { s.pwr with fail := false } }

/-- VDD_AON_LOSS (R556): a running main domain goes into reset at once; the AON domain is lost. DEDUCED (log 30). -/
def vddAonLoss (s : State) : State :=
  if !s.pwr.aon then s else
  let s := if s.pwr.main && !s.pwr.reset then resetMain s else s
  { s with pwr := { s.pwr with aon := false } }

/-- The bits of the AON domain that AON power-on initialises: not those that come from MRAM (R510, R544). -/
def aonMask (a : Nat) : Nat :=
  if 0x23F00 ≤ a && a < 0x24000 then 2 ^ 64 - 1
  else if a = 0x160020 || a = 0x160024 || a = 0x160028 || a = 0x160038 || a = 0x170110 || a = 0x170114 then 0
  else match regAt a with | some (r, _) => r.aon | none => 0

/-- The bits AON power-on leaves. -/
def aonKeep (a : Nat) : Nat := 2 ^ 64 - 1 - aonMask a

/-- AON_POWER_ON (R469, R483, R556). DEDUCED (log 30). -/
def aonPowerOn (s : State) : State :=
  if s.pwr.aon then s else
  let resumed := ducResume s
  let v := match resumed with | some d => d + 2 ^ 21 | none => 0
  let s := { s with
    regs := regsKeep s aonKeep, fw := s.fw.filter (fun p => decide (p.1 < 120))
    lan := { slots := s.lan.slots, nextSlot := s.lan.nextSlot }, ducBase := v, ducAt := s.now, corr := [], pwr := { s.pwr with aon := true, front := [] } }
  let s := wrB s LAN_STATUS_DUC_RESUMED resumed.isSome
  tryBoot (lanternDirect s 0x0001 (leBytes 8 v ++ leBytes 1 (b2n resumed.isSome)))

end Sys2Proof.Machine
end

