-- ==== Sys2Proof/Machine/Maint.lean ====
section
/-! DEFINITION. What the firmware does in service (19_interrupts_and_fault_windows.md R527; 20_boot_identity_lifetime.md R539, R542 to R544; 21_pins_power_package.md R565): ageing monitors,
powered hours and the MRAM refresh, OEM keys, the junction sensor, the patrol scrubber. -/

namespace Sys2Proof.Machine

/-- Whether the firmware runs. DEDUCED (log 34). -/
def firmwareUp (s : State) : Bool := mainRuns s && rdB s MBX_FW_STATUS_READY && !rdB s MBX_FW_STATUS_ROM

/-! Ageing (R542, R543). -/

/-- Which set points a drift has reached: 0 none, 1 to 3. DEDUCED (log 41). -/
def ageRank (d : Int) : Nat := if d ≤ -700 then 3 else if d ≤ -500 then 2 else if d ≤ -300 then 1 else 0

/-- Whether an island is a PIX island. -/
def isPix (i : Nat) : Bool := decide (34 ≤ i) && decide (i < 50)

/-- The STATE of Table 20-7. DEDUCED (log 41). -/
def ageState (i r : Nat) : Nat := if r = 0 then 0 else if isPix i && decide (2 ≤ r) then 2 else 1

/-- The AGEING record. -/
def ageRecord (s : State) (i sev st : Nat) (d : Int) : State :=
  record s rpMp 0x15 sev 0x0024 (leBytes 1 i ++ leBytes 1 st ++ leBytes 2 (ofSigned 16 d))

/-- One monitor's measurement: the actions of the set points it has newly reached; a derating step never reverses. DEDUCED (log 41). -/
def ageOne (s : State) (i : Nat) (d : Int) : State :=
  let was := ageRank (rdI s (AGE_ISLAND_DRIFT i))
  let r := ageRank d
  let st := ageState i r
  let s := wr (wrI s (AGE_ISLAND_DRIFT i) d) (AGE_ISLAND_STATE i) st
  let s := onlyIf (isPix i) (fun s => wr s (AGE_ISLAND_STEP i) (max (rd s (AGE_ISLAND_STEP i)) (r - 1))) s
  let pts := fun (k : Nat) => if isPix i then k else min 2 k
  let s := onlyIf (decide (pts was < pts r)) (fun s => raise s srcAgeing) s
  let s := onlyIf (was == 0 && decide (1 ≤ r)) (fun s => ageRecord s i svWarning st d) s
  onlyIf (decide (was < 2) && decide (2 ≤ r) && !isPix i) (fun s => ageRecord s i svFault st d) s

/-- AGEING_MEASURE. DEDUCED (log 41). -/
def ageingMeasure (drifts : List (BitVec 16)) (s : State) : State :=
  if firmwareUp s then each (drifts.take 55).zipIdx (fun s p => ageOne s p.2 p.1.toInt) s else s

/-! Powered hours and the refresh (R544). -/

/-- POWERED_HOUR: every 43 830 hours a refresh of the MRAM starts. DEDUCED (log 41). -/
def poweredHour (s : State) : State :=
  if !firmwareUp s then s else
  let s := addWrap s BOOT_HOURS_HOURS 1
  if rd s BOOT_HOURS_HOURS % 43830 = 0 then
    wr (wr { s with mp := { s.mp with refreshAt := ducNow s } } BOOT_REFRESH_RUNNING 1) BOOT_REFRESH_PROGRESS 0
  else s

/-- MRAM_REFRESH_UNIT: recorder flushes come first; the last of 65 536 units ends the refresh. DEDUCED (log 41). -/
def refreshUnit (s : State) : State :=
  if !firmwareUp s || !rdB s BOOT_REFRESH_RUNNING || s.rcd.flush.isSome then s
  else if rd s BOOT_REFRESH_PROGRESS < 65535 then addWrap s BOOT_REFRESH_PROGRESS 1
  else
    let s := wr (wr s BOOT_REFRESH_PROGRESS 0) BOOT_REFRESH_RUNNING 0
    record s rpMp 0x15 svNotice 0x0025 (leBytes 4 (rd s BOOT_HOURS_HOURS) ++ leBytes 4 ((ducNow s - s.mp.refreshAt) / 1000000))

/-! OEM keys (R538, R539). -/

/-- The state of an OEM slot (Table 20-11). -/
def slotField (slot : Nat) : FRef := ⟨0x170400, 2 * slot, 2⟩

/-- The RESULT a key operation will end with: 0 OK, 1 NOT_ALLOWED, 2 SLOT_USED, 3 HASH_MISMATCH. DEDUCED (log 34). -/
def keyResult (s : State) (slot op : Nat) (key : List Byte) : Nat :=
  let m := mode s
  match op with
  | 0 => if !(m == 11 || (m == 2 && slot == 0 && rdB s SEC_STATUS_PROVISION_OPEN)) then 1 else if rd s (slotField slot) != 0 then 2 else 0
  | 1 => if m != 11 then 1 else 0
  | 2 => if !(m == 11 || m == 2) then 1 else if mget [] s.mp.keys slot == key then 0 else 3
  | _ => 1

/-- A key operation starts with the key in SEC_KEY_WIN; GO while one runs is discarded. DEDUCED (log 34). -/
def keyGo (slot op : Nat) (recipe command : Bool) (s : State) : State :=
  if !mainRuns s || rdB s SEC_KEY_RESULT_BUSY then s else
  let key := ramBytes s 0x170480 97
  let s1 := { s with mp := { s.mp with keyOp := some (slot, op, b2n recipe + 2 * b2n command, keyResult s slot op key, key) } }
  wr s1 SEC_KEY_RESULT_BUSY 1

/-- What an operation that succeeds does to its slot. DEDUCED (log 34). -/
def keyApply (s : State) (slot op roles : Nat) (key : List Byte) : State :=
  match op with
  | 0 =>
    let s := wr (wr (wr s (slotField slot) 1) ⟨0x170400, 8 + 2 * slot, 2⟩ roles) SEC_STATUS_PROVISION_OPEN 0
    { s with mp := { s.mp with keys := mput [] s.mp.keys slot key } }
  | 1 => wr s (slotField slot) 2
  | _ => if rd s (slotField slot) = 3 then wr s (slotField slot) 1 else s

/-- SEC_KEY_OP_DONE: RESULT, the slot, the KEY_PROGRAMMED record; fuses that fail to program leave the slot INVALID. DEDUCED (log 34). -/
def keyDone (fuseErr : Bool) (s : State) : State :=
  match s.mp.keyOp with
  | none => s
  | some (slot, op, roles, res, key) =>
    let bad := fuseErr && res == 0 && decide (op < 2)
    let r := if bad then 4 else res
    let s := { s with mp := { s.mp with keyOp := none } }
    let s := wr (wr (wr s SEC_KEY_RESULT_BUSY 0) SEC_KEY_RESULT_DONE 1) SEC_KEY_RESULT_RESULT r
    if r = 4 then (if op = 0 then wr (wr s (slotField slot) 3) SEC_STATUS_PROVISION_OPEN 0 else s)
    else if r != 0 then s
    else
      let s := keyApply s slot op roles key
      record s rpMp 0x15 svNotice 0x9002 (leBytes 1 slot ++ leBytes 1 (rd s ⟨0x170400, 8 + 2 * slot, 2⟩) ++ leBytes 1 op)

/-! Temperature (R565). -/

/-- THERMAL_SENSE: TJ_NOW; the warning sets at TJ_WARN, and again only after 3 °C below it. DEDUCED (log 41). -/
def thermalSense (mC : Int) (s : State) : State :=
  if !firmwareUp s then s else
  let s := setParam s 0x4110 (ofSigned 32 mC)
  let warn : Int := match paramOf 0x4111 with | some d => toSigned 32 (paramVal s d false) | none => 100000
  let s := onlyIf (decide (mC ≤ warn - 3000)) (fun s => { s with mp := { s.mp with warned := false } }) s
  if warn ≤ mC && !s.mp.warned then
    record (raise { s with mp := { s.mp with warned := true } } srcThermal) rpMp 0x15 svWarning 0x0030 (leBytes 4 (ofSigned 32 mC))
  else s

/-- THERMTRIP: held until the main rails are removed. -/
def thermtrip (s : State) : State := if s.pwr.main then { s with pwr := { s.pwr with trip := true } } else s

/-! The patrol scrubber (R527). -/

/-- PATROL_SCRUB: the next part of HBM is read; the last part completes a pass. DEDUCED (log 41). -/
def patrolScrub (addr : Nat) (x : EccResult) (s : State) : State :=
  let s := match x with
    | .none => s
    | .corrected => eccCorrected s 0 0
    | .uncorrectable => eccUncorrectable s 0 0 addr
  if hbmSize ≤ addr + 64 then addWrap s INT_ECC_SCRUB_PASSES 1 else s

end Sys2Proof.Machine
end

