-- ==== Sys2Proof/Machine/Pins.lean ====
section
/-! DEFINITION. The levels at the output pins (21_pins_power_package.md R558, R561, R565; 05_stakes_and_triggers.md R146; 11_delivery_queues.md R319; 17_lantern.md R488, R489;
20_boot_identity_lifetime.md R533), read from the state: whatever a pin shows is what its block's registers and Lantern's overrides say. The rails VDDIO and VDDIO_ENC are no part of the state: the
levels hold while the pin's bank is powered (log 42). -/

namespace Sys2Proof.Machine

/-- What an output pin does: it drives a level, or it is at high impedance. -/
inductive PinLevel
  | highZ | low | high
  deriving DecidableEq, Repr

/-- A pin that drives. -/
def PinLevel.drive (b : Bool) : PinLevel := if b then .high else .low

/-- An open-drain pin, active low. -/
def PinLevel.drain (b : Bool) : PinLevel := if b then .low else .highZ

/-- Whether Lantern's override drives pin `k`: TRG0 to TRG23, then XOFF0 to XOFF7 (R489). -/
def overridden (s : State) (k : Nat) : Bool := s.pwr.aon && bitOf (rd s LAN_OVR_OVR) k

/-- A pin of the trigger bank: Lantern's override first, then its block while the main domain runs (Table 21-10). -/
def bankPin (s : State) (k : Nat) (b : Bool) : PinLevel :=
  if overridden s k then .drive (mget false s.lan.ovrLevel k) else if mainRuns s then .drive b else .highZ

/-- Pin TRG`p` (R146, R489, Table 21-10). -/
def trgPin (s : State) (p : Nat) : PinLevel := bankPin s p (trgLevel s p)

/-- Pin XOFF`n` (R319, R489, Table 11-8): POL = 1 is active low. -/
def xoffPin (s : State) (n : Nat) : PinLevel := bankPin s (24 + n) (rdB s (DLV_XOFF_CFG_ACTIVE n) != rdB s (DLV_XOFF_CFG_POL n))

/-- Pins DIV`d`_A and DIV`d`_B (Table 3-17, Table 21-10). -/
def divPin (s : State) (d : Nat) : PinLevel × PinLevel :=
  if mainRuns s then (.drive (divPins s d).1, .drive (divPins s d).2) else (.highZ, .highZ)

/-- Whether ENC`p`_B drives its pair (R558): the main domain runs and the port's MODE is BiSS-C or SSI. -/
def encDrives (s : State) (p : Nat) : Bool := mainRuns s && decide (2 ≤ portMode s p)

/-- WAKE# (R488). -/
def wakePin (s : State) : PinLevel := .drain (s.pwr.aon && s.lan.wake)

/-- THERMTRIP_N (R565). -/
def thermtripPin (s : State) : PinLevel := .drain (s.pwr.main && s.pwr.trip)

/-- Whether the device drives the QSPI pins (Table 21-10, R533). -/
def qspiDrives (s : State) : Bool := mainRuns s && !rdB s BOOT_STATUS_QSPI_RELEASED

end Sys2Proof.Machine
end

