-- ==== Sys2Proof/Machine/Enable.lean ====
section
/-! DEFINITION. The quiesce protocol (02_operating_modes.md R58, R572): one state machine for every block enable, with what each kind of block checks, loads, starts, finishes
and puts away. -/

namespace Sys2Proof.Machine

/-- The offset of a block's enable register (Table 2-6). -/
def enAddr : Block → Nat
  | .lane n => laneEn n
  | .camStr st => camStrEn st
  | .frm st => frmEn st
  | .stake n => stkEn n
  | .camp c => campEn c
  | .group g => grpEn g
  | .dmaCh c => dmaEn c
  | .tpg g => tpgEn g
  | .vtrail v => 0x40850 + 0x100 * v
  | .divider d => 0x43000 + 0x10 * d
  | .compass u => mlkEn u
  | .tether => tthEn
  | .window w => 0x23000 + 0x20 * w

def enEN (b : Block) : FRef := ⟨enAddr b, 0, 1⟩
def enSTATE (b : Block) : FRef := ⟨enAddr b, 1, 2⟩
def enPEND (b : Block) : FRef := ⟨enAddr b, 3, 1⟩

/-- Configuration registers that a block loads at ENABLING and that its chapter leaves writable while it runs (R58). DEDUCED (log 15). -/
def cfgRegs : Block → List Nat
  | .vtrail v => [0x40854 + 0x100 * v, 0x40858 + 0x100 * v, 0x4085C + 0x100 * v]
  | .divider d => [0x43004 + 0x10 * d, 0x43008 + 0x10 * d]
  | .group g => [0x124004 + 0x40 * g, 0x124008 + 0x40 * g, 0x12400C + 0x40 * g, 0x124020 + 0x40 * g]
  | .tether => [0x140004, 0x140008, 0x140010, 0x140014, 0x140018, 0x14001C]
  | _ => []

/-- Load a block's configuration as it stands now. DEDUCED (log 15). -/
def loadCfg (s : State) (b : Block) : State :=
  each (cfgRegs b) (fun s a => { s with loaded := mput none s.loaded a (some (getReg s a)) }) s

/-- A disabled block holds no loaded configuration. -/
def dropCfg (s : State) (b : Block) : State := each (cfgRegs b) (fun s a => { s with loaded := mput none s.loaded a none }) s

/-! What each block does at the steps of Table 2-4. -/

/-- A write of EN that never reaches a block's enable: a lane that is a member of a running group (R162). -/
def enLocked (s : State) : Block → Bool
  | .lane n => rdB s (CAM_LANE_STATUS_MEMBER n)
  | _ => false

/-- Whether a ratio or tether trail's enable is refused (R90). -/
def vtrailRefused (s : State) (v : Nat) : Bool :=
  decide (8 + v ≤ rd s (TRL_VCFG_SRC v)) || rd s (TRL_VDEN_DEN v) == 0 || (rdB s (TRL_VCFG_TETHER v) && !isWorker s)

/-- Whether the checks of a block's enable attempt fail. DEDUCED (log 15). -/
def enRefused (s : State) : Block → Bool
  | .lane n => (laneRefuse s n).isSome
  | .camStr st => (strRefuse s st).isSome
  | .frm st => frmRefused s st
  | .stake n => stkRefused s n
  | .camp _ => false
  | .group g => groupRefused s g
  | .dmaCh c => dmaRefused s c
  | .tpg g => tpgRefused s g
  | .vtrail v => vtrailRefused s v
  | .divider _ => false
  | .compass u => mlkBroken s u
  | .tether => tthRefused s
  | .window w => decide (85 ≤ w.val) && decide (w.val < 120)

/-- What an enable attempt writes besides the state (R572): the block's error bit, set by an attempt that is refused and cleared by one that passes, with the record and source of a lane or stream
(R188, R189), the source of a generator (Table 19-1), and CAUSE of a DMA channel (R351). The lane of a refused stream's record and source is that of its page, where R189 could mean the lane it is bound to:
DESIGN CHOICE (log 19). DEDUCED (log 15). -/
def enVerdict (s : State) (bad : Bool) : Block → State
  | .lane n =>
    let s' := wrB s (CAM_LANE_STATUS_CFG_ERR n) bad
    match laneRefuse s n with | some r => cfgErrRecord s' n 0xFF r | none => s'
  | .camStr st =>
    let s' := wrB s (CAM_STR_STATUS_CFG_ERR st) bad
    match strRefuse s st with | some r => cfgErrRecord s' (st / 2) st r | none => s'
  | .frm st => wrB s (FRM_STR_STATUS_CFG_ERR st) bad
  | .stake n => wrB s (STK_STATUS_CFG_ERR n) bad
  | .camp _ => s
  | .group g => wrB s (DLV_GRP_STATUS_CFG_ERR g) bad
  | .dmaCh c => if bad then wr s (DMA_CH_STATUS_CAUSE c) 6 else s
  | .tpg g => if bad then tpgFlag s g (TPG_STATUS_CFG_ERR g) else wr s (TPG_STATUS_CFG_ERR g) 0
  | .vtrail v => let s := wrB s (TRL_STATUS_SRC_ERR (8 + v)) bad; if bad then trlBar s (8 + v) else s
  | .divider _ => s
  | .compass u => mlkShow (setMlk s u { mlk s u with refused := bad }) u
  | .tether => wrB s TTH_STATUS_CFG_ERR bad
  | .window _ => s

/-- The firmware writes a camera's stream-channel destination when a stream on its port is enabled (R176). -/
def gvspDest (s : State) (st : Nat) : State :=
  let l := rd s (CAM_STR_BIND_LANE st)
  if ethMode s l && !rdB s (CAM_ETH_CFG_GVCP_HOST l) then send s (.gvcpStreamDest l (rd s (CAM_ETH_IP_IP l)) (rd s (CAM_STR_BIND_UDP st))) else s

/-- A stream context holds nothing that was received (R58). -/
def strClear (s : State) (st : Nat) : State :=
  let x := strS s st
  wr (setStr s st { seq := x.seq, nextSeq := x.seq, lines := x.lines, pp := x.pp }) (CAM_STR_STATUS_IN_IMAGE st) 0

/-- A stream starts if its assembly runs; in DRAIN and HOLD it triggers nothing (R44). -/
def streamBegin (s : State) (st : Nat) : State :=
  let s := streamStart s st
  if mode s = 8 || mode s = 10 then streamFinish s st else s

/-- A block enters ENABLING (Table 2-4): its configuration is loaded. DEDUCED (log 15). -/
def enLoad (s : State) (b : Block) : State :=
  let s := loadCfg s b
  match b with
  | .lane n => laneLoad s n
  | .camStr st => gvspDest (strClear s st) st
  | .frm st => chainRefresh s st
  | .dmaCh c => dmaFresh s c
  | .group g => xoffUpdate (updateGroup s g)
  | _ => s

/-- A virtual trail that leaves ENABLED keeps its POS (R80) and what it showed of its source's UNTRUSTED (R89, R96). -/
def vtrailHold (s : State) (t : Nat) : State :=
  let s := trlOpen s t
  let s := wrB s (TRL_STATUS_UNTRUSTED t) (untrusted s t)
  trlMoved (setTrl s t { trl s t with base := posNow s t }) t

/-- A block enters ENABLED (Table 2-4): it accepts work. DEDUCED (log 15). -/
def enReady (s : State) : Block → State
  | .camStr st => if enabled s (frmEn st) then streamBegin s st else s
  | .frm st => streamBegin s st
  | .stake n => if acquiring s then stkSeek s n else stkHold s n
  | .dmaCh c => dmaEnabled s c
  | .tpg g => tpgStart s g
  | .vtrail v => trlMoved (if tetherOn s (8 + v) && (tthSlot s (8 + v)).frozen.isSome then wr s (TRL_STATUS_UNTRUSTED (8 + v)) 1 else s) (8 + v)
  | .divider d => divStart s d
  | .compass _ => later s .lockCheck
  | .tether => if isWorker s then ownClock s else s
  | _ => s

/-- A block leaves ENABLING or ENABLED, `was`: it accepts no new work (Table 2-4); a compass unit that was ENABLED enters SEARCH (Table 8-1). -/
def enLeave (s : State) (was : Nat) : Block → State
  | .camStr st => if enabled s (frmEn st) then streamFinish s st else s
  | .frm st => streamFinish s st
  | .stake n => stkHold s n
  | .camp c => campStopped s c
  | .group g => groupStopped s g
  | .compass u => if was = 2 then mlkLeave s u else s
  | .window w => windowClear s w
  | _ => s

/-- Whether the work in flight of a block in QUIESCING is done (Table 2-5). DEDUCED (log 15). -/
def enDone (s : State) : Block → Bool
  | .camStr st => (streamStopped s st && cutsStopped s st) || enState s (frmEn st) == 0 || enState s (frmEn st) == 1
  | .frm st => streamStopped s st && cutsStopped s st && (frm s st).image.isNone
  | .stake n =>
    (List.range 24).all (fun p => !(rd s (STK_TRG_CFG_SRC_TYPE p) == 1 && rd s (STK_TRG_CFG_SRC_IDX p) == n && rdB s (STK_TRG_STATUS_ACTIVE p))) &&
      (List.range 32).all (fun l => !(rd s (STK_CXP_CFG_SRC_TYPE l) == 1 && rd s (STK_CXP_CFG_SRC_IDX l) == n && (mget none s.cxp l).isSome))
  | .tpg g =>
    (match (tpg s g).pulseEnd with | some t => decide (t ≤ s.now) | none => true) &&
      (List.range 24).all (fun p => !(rd s (STK_TRG_CFG_SRC_TYPE p) == 2 && rd s (STK_TRG_CFG_SRC_IDX p) == g && rdB s (STK_TRG_STATUS_ACTIVE p))) &&
      (List.range 32).all (fun l => !(rd s (STK_CXP_CFG_SRC_TYPE l) == 2 && rd s (STK_CXP_CFG_SRC_IDX l) == g && (mget none s.cxp l).isSome))
  | .lane n => !rdB s (CAM_LANE_STATUS_UP n) || !lineBegun s n
  | .dmaCh c => dmaStill s c
  | _ => true

/-- A block reaches DISABLED (Table 2-4). -/
def enOff (s : State) (b : Block) : State :=
  let s := dropCfg s b
  match b with
  | .lane n => laneOff s n
  | .camStr st => strClear s st
  | .frm st => setFrm (setStr s st { strS s st with lines := [] }) st { frm s st with cut := none, oldCut := none, conj := none }
  | .group _ => xoffUpdate s
  | .dmaCh c => dmaOffShow s c
  | .tpg g => { setTpg s g {} with gyl := { s.gyl with tpg := mput none s.gyl.tpg g none } }
  | .tether => tthOff s
  | _ => s

/-! Table 2-4. -/

/-- An enable attempt of a DISABLED block (R572): refused, it stays DISABLED; else ENABLING. DEDUCED (log 15). -/
def enAttempt (s : State) (b : Block) : State :=
  let bad := enRefused s b
  let s := enVerdict s bad b
  if bad then s else enLoad (wr s (enSTATE b) 1) b

/-- A block that enables nothing more keeps its loaded state, and leaves for DISABLED (Table 2-4): a DMA channel with no descriptor in flight goes there at once (Table 12-3);
a virtual trail holds the POS it has (R80). DEDUCED (log 15). -/
def enQuit (s : State) (b : Block) : State :=
  let s := match b with | .vtrail v => if enabled s (enAddr b) then vtrailHold s (8 + v) else s | _ => s
  let was := enState s (enAddr b)
  let s := enLeave (wr s (enSTATE b) 3) was b
  match b with
  | .dmaCh c => if dmaStill s c then enOff (wr s (enSTATE b) 0) b else s
  | _ => s

/-- ENABLE_WRITE: a write of EN (Table 2-4). DEDUCED (log 15). -/
def enableWrite (b : Block) (en : Bool) (s : State) : State :=
  if enLocked s b then s else
  let st := enState s (enAddr b)
  let s := wrB s (enEN b) en
  if st = 0 then (if en then enAttempt s b else s)
  else if st = 3 then wrB s (enPEND b) en
  else if en then s
  else enQuit s b

/-- ENABLE_SETUP_COMPLETE (Table 2-4); a camp's set-up ends with its self-test instead (R290). -/
def enableSetupComplete (b : Block) (s : State) : State :=
  match b with
  | .camp _ => s
  | _ => if enState s (enAddr b) = 1 then enReady (wr s (enSTATE b) 2) b else s

/-- QUIESCE_COMPLETE (Table 2-4): DISABLED, or ENABLING with a pending enable. -/
def quiesceComplete (b : Block) (s : State) : State :=
  if enState s (enAddr b) != 3 || !enDone s b then s else
  let again := rdB s (enPEND b)
  let s := enOff (wr (wr s (enSTATE b) 0) (enPEND b) 0) b
  if again then enAttempt s b else s

/-- The unit a fault window watches is disabled (R523, R47): the lane's group, the camp, the tether. -/
def disableUnit (w : Nat) (s : State) : State :=
  if w < 32 then enableWrite (.lane (Fin.ofNat 32 (masterOf s w))) false s
  else if 64 ≤ w ∧ w < 80 then enableWrite (.camp (Fin.ofNat 16 (w - 64))) false s
  else if w = 84 then enableWrite .tether false s
  else s

/-- The unit a fault window watches retrains (Table 19-3): the lane, the endpoint's link, the tether ports, which drop beat lock and lock again. -/
def retrainUnit (w : Nat) (s : State) : State :=
  if w < 32 then laneRetrain w s
  else if w = 82 then linkRetrain s
  else if w = 84 then each [false, true] (fun s d => portLock (setLock s d { block := (lockOf s d).block }) d false) s
  else s

/-! COUNTER_CLEAR_GO (R190, and each block's counter-clear register). -/

/-- Set registers to 0. -/
def zeroRegs (l : List Nat) (s : State) : State := each l (fun s a => setReg s a 0) s

/-- A counter-clear register is written with GO = 1: the block's counters go to 0. -/
def counterClear (b : CntBlock) (s : State) : State :=
  match b with
  | .lane n => zeroRegs ([0x10, 0x14, 0x18, 0x1C, 0x20, 0x24, 0x28, 0x2C].map (0x70000 + 0x2000 * n.val + ·)) s
  | .frm st => zeroRegs ([0x5C, 0x60, 0x64, 0x68, 0x6C].map (0xB0000 + 0x100 * st.val + ·)) s
  | .mlk u => zeroRegs ([0x6C, 0x70, 0x74].map (0xC0000 + 0x100 * u.val + ·)) s
  | .pxe st => wr (zeroRegs ([0x24, 0x2C].map (0x100000 + 0x100 * st.val + ·)) s) (PXE_STR_LAG_MAX st) 0
  | .dlv => zeroRegs [0x1200C4, 0x1200C8, 0x1200CC] s
  | .hep => zeroRegs [0x1020, 0x1024, 0x1028, 0x102C, 0x1030] s
  | .tth => zeroRegs [0x140030, 0x140034, 0x140038, 0x14003C] s

end Sys2Proof.Machine
end

