-- ==== Sys2Proof/Machine/Settle.lean ====
section
/-! DEFINITION. The worklist of one command: what a block left for another is carried out before the command ends, in the order it was left. -/

namespace Sys2Proof.Machine

/-- The guyline events at the front of the worklist: they arrive together, in one arrival cycle (R424, R427). DEDUCED (log 35). -/
def gylFront : List Todo → List (Nat × Nat)
  | .gyl c h :: l => (c, h) :: gylFront l
  | _ => []

/-- A step of a trail's position (R72, R87): stakes seek again, compass units lose their marks, later frames carry the mark. -/
def posStepDone (t : Nat) (s : State) : State :=
  let s := mlkPosStep (stakesPosStep (dividersFollow s t) t) t
  let s := each (below 64 (fun st => rootTrail 5 s (rd s (FRM_STR_BIND_TRAIL st)) == rootTrail 5 s t && (frm s st).freedX.isSome)) (fun s st => setFrm s st { frm s st with freedX := none }) s
  { s with posMark := mput 0 s.posMark t (mget 0 s.posMark t + 1) }

/-- One entry of the worklist, but for guyline events. DESIGN CHOICE (log 6). -/
def todoStep (t : Todo) (s : State) : State :=
  match t with
  | .gyl c h => gylCycle s [(c, h)]
  | .posStep t => posStepDone t s
  | .moved t => dividersFollow s t
  | .domStep d old new => chgDomStep (tpgDomStep s d (decide (old < new))) d
  | .retrain w => retrainUnit w s
  | .disableUnit w => disableUnit w s
  | .hold src idx disable => enterHold s src idx disable
  | .lockCheck => lockCheck s
  | .lockDrop => lockDrop s
  | .chgMark u => chgMark s u
  | .campDrop st id cause => campDrop s st id cause
  | .frameClosed st id => frameClosed s st id
  | .handOver st => handOver ((frm s st).frames.length + 1) s st
  | .judge st => triggerEnd st (streamJudge s st)
  | .boundary st => substitute s st
  | .stakesCheck => stakesCheck s
  | .lagCheck st => lagAbandon 64 s st
  | .calAbort => calAbort s
  | .recFlushed n written => recFlushed s n written
  | .enterReset => enterReset s
  | .dmaWake => dmaWake s
  | .oldSlots => oldSlots s
  | .pump => serveHost s
  | .heartbeat => heartbeatCheck s

/-- Carry out the worklist. The first argument bounds the number of entries. DESIGN CHOICE (log 6). -/
def settle : Nat → State → State
  | 0, s => s
  | n + 1, s =>
    match s.todo with
    | [] => s
    | .gyl c h :: l =>
      let evs := gylFront (.gyl c h :: l)
      settle n (gylCycle { s with todo := l.drop (evs.length - 1) } evs)
    | t :: l => settle n (todoStep t { s with todo := l })

/-- The entries one command may carry out. -/
abbrev settleFuel : Nat := 4096

/-- The end of a command: its worklist is carried out. DESIGN CHOICE (log 6). -/
def finish (s : State) : State := settle settleFuel s

/-! What a TIM edge brings of its own (log 2). -/

/-- What one entry of `due` does when the edge at State.now + 1 comes: in the last edge of the cycle of its first compare a target is passed or not from then on (R136); a sample whose crossing
arrives with that edge takes the trail's values then (R27); packets held for a bonded group's skew leave (R165). Answers whether it is done with. DEDUCED (log 18). -/
def dueEdge (d : DueWork) (s : State) : State × Bool :=
  match d with
  | .compare n =>
    let x := stk s n
    if x.first = s.now / 2 && s.now % 2 = 1 then (setStk s n { x with passed := some (stkPassed s n) }, true) else (s, decide (x.first < s.now / 2))
  | .sample st seq mot =>
    if mot ≤ s.now + 1 then
      let x := strS s st
      (stopLook (setStr s st { x with samples := x.samples.map (fun y => if y.seq = seq then sampleArrived { s with now := mot } st y else y) }) st, true)
    else (s, false)
  | .skew st at_ => if at_ + 4000 < s.now then (cxpDrain 512 s st, true) else (s, false)
  | .task .. => (s, false)

/-- Whether an activation of an MGT task has arrived when the edge at `now` comes: the MOT cycle that made it is over. -/
def taskArrived (now : Nat) : DueWork → Bool
  | .task _ m _ _ _ => decide (2 * m + 2 ≤ now)
  | _ => false

/-- The activations of MGT tasks that arrive with the next edge act (R424), in the cycle that the edge begins. DEDUCED (log 35). -/
def taskEdge (s : State) : State :=
  let l := s.due.filter (taskArrived (s.now + 1))
  if l.isEmpty then s else
  let act := fun (s : State) (d : DueWork) => match d with
    | .task t _ c hop n => mgtTask s t c hop n
    | _ => s
  let t := finish (l.foldl act { s with now := s.now + 1, due := s.due.filter (fun d => !taskArrived (s.now + 1) d) })
  { t with now := s.now }

/-- What the next TIM edge brings of its own. -/
def edgeWork (s : State) : State :=
  if s.due.isEmpty then s else
    taskEdge (finish (s.due.foldl (fun s d => let r := dueEdge d s; if r.2 then { r.1 with due := r.1.due.filter (· != d) } else r.1) s))

end Sys2Proof.Machine
end

