-- ==== Sys2Proof/Machine/Bus.lean ====
section
/-! DEFINITION. The host's accesses to BAR0, BAR2 and the Expansion ROM (00_scope.md R8 to R14; 13_host_endpoint.md R361 to R365): how an access splits into
words, 64-bit registers, what each register reads as, and what a write of each register does. -/

namespace Sys2Proof.Machine

/-! What a register reads as: its value, but for the fields that show live state. -/

/-- A number with one field replaced. -/
def ovl (v lo w x : Nat) : Nat := v - v / 2 ^ lo % 2 ^ w * 2 ^ lo + x % 2 ^ w * 2 ^ lo

/-- HEP (Tables 13-12, 13-13): link and power state, tags, the aligned BAR2 base. -/
def hepNow (s : State) (b v : Nat) : Nat :=
  if b = 0x1000 then
    ovl (ovl (ovl (ovl (ovl v 16 2 (bitsOf (cfgDw s 0x44) 1 0)) 18 2 (intMode s)) 20 1 (b2n (bme s))) 21 1 (b2n (mse s))) 22 1 (b2n s.hep.inta)
  else if b = 0x1010 then v / 2 ^ bar2Log s * 2 ^ bar2Log s
  else if b = 0x1018 then ovl (ovl v 0 11 (tagPool s).2.1) 16 11 s.hep.tags.length
  else if b = 0x101C then ovl v 0 11 s.hep.quar.length
  else v

/-- MBX (R388, R402, Table 14-10): the response pages, and whether a mailbox has a nonce in force. -/
def mbxNow (s : State) (b v : Nat) : Nat :=
  if b < 0x18000 then (respWord s ((b - 0x10000) / 0x1000) (b % 0x1000)).toNat
  else if b < 0x18100 ∧ b % 0x20 = 4 then
    ovl v 5 1 (match mget none s.mp.nonces ((b - 0x18000) / 0x20) with | some t => b2n (decide (ducNow s ≤ t.1)) | none => 0)
  else v

/-- The pending sources of group `g` (Table 19-7). -/
def pendOf (s : State) (g : Nat) : Nat := Nat.land (rd s (INT_STATUS_STATUS g)) (rd s (INT_ENABLE_ENABLE g))

/-- INT (Table 19-7). -/
def intNow (s : State) (b v : Nat) : Nat :=
  if b < 0x20300 ∧ b % 0x10 = 8 then pendOf s ((b - 0x20000) / 0x10)
  else if b = 0x20400 then (List.range 48).foldl (fun a g => a + (if pendOf s g = 0 then 0 else 2 ^ g)) 0
  else v

/-- TRL (Tables 3-7 to 3-17): position, speed and status of a trail, status of a divider. -/
def trlNow (s : State) (b v : Nat) : Nat :=
  if b < 0x40C00 then
    let t := (b - 0x40000) / 0x100
    if b % 0x100 = 0 then ofSigned 64 (posNow s t) else if b % 0x100 = 8 then ofSigned 32 (spdNow s t)
    else if b % 0x100 = 0xC then trlStatus s t else v
  else if 0x43000 ≤ b ∧ b < 0x43040 ∧ b % 0x10 = 0xC then divStatus s ((b - 0x43000) / 0x10)
  else v

/-- Whether the loop of domain `d` is held by a suspect path (Table 4-5). -/
def pathHold (s : State) (d : Nat) : Bool :=
  rd s (TMB_DOM_CFG_SRC d) == 1 && !rdB s (TMB_DOM_STATUS_SRC_ERR d) && rdB s (TMB_PORT_STATUS_PATH_SUSPECT (rd s (TMB_DOM_CFG_PORT d)))

/-- TMB (Tables 4-5 to 4-11): a domain's time and hold, a port's state; port registers read 0 on a lane that is not in an Ethernet mode. -/
def tmbNow (s : State) (b v : Nat) : Nat :=
  if b < 0x60400 ∧ b % 0x100 = 0 then domNow s ((b - 0x60000) / 0x100)
  else if b < 0x60400 ∧ b % 0x100 = 0x20 then ovl v 6 1 (b2n (pathHold s ((b - 0x60000) / 0x100)))
  else if 0x61000 ≤ b ∧ b < 0x61800 then
    let p := (b - 0x61000) / 0x40
    if !ethMode s p then 0 else if b % 0x40 = 0x20 then txqHead s p else if b % 0x40 = 0x14 then ovl v 2 2 (portState s p) else v
  else v

/-- FRM_STR_STATUS as it reads (Table 7-9): OPEN while a frame of either cutter or an image is open, RSMP_ERR while the ACTIVE set of a stream that is not DISABLED cannot be resampled (R211). -/
def frmStatus (s : State) (st v : Nat) : Nat :=
  ovl (ovl v 0 1 (b2n (cutHolds (frm s st).cut || cutHolds (frm s st).oldCut || (frm s st).image.isSome))) 8 1
    (b2n (enState s (frmEn st) != 0 && rsmpBroken s st))

/-- CAM (Tables 6-8, 6-13): buffers, the head of the raw receive FIFO, the raw transmitter; a lane's Ethernet registers read 0 in CoaXPress modes. -/
def camNow (s : State) (b v : Nat) : Nat :=
  let n := (b - 0x70000) / 0x2000
  let o := (b - 0x70000) % 0x2000
  if 0x40 ≤ o ∧ o ≤ 0x50 ∧ cxpMode s n then 0
  else if o = 0x414 then rawTxStatus s n v
  else if o = 0x400 then rawRx s n
  else if 0x800 ≤ o ∧ o < 0x1000 then
    match (lane s n).raw with
    | e :: _ => if o - 0x800 < e.data.length then leNat ((e.data.drop (o - 0x800)).take 4) else (ramWord s b).toNat
    | [] => (ramWord s b).toNat
  else if (0x200 ≤ o ∧ o < 0x300) ∨ 0x1800 ≤ o then (ramWord s b).toNat
  else v

/-- Whether the first millisecond of the main domain is over: until then the measurements over the last one show their reset value (Tables 10-12, 10-13). DEDUCED (log 7). -/
def measured (s : State) : Bool := decide (1000000 ≤ s.now - (mget ({} : DomainS) s.dom 0).born)

/-- What a register reads as (Table 0-5). PORT of a camp and LOAD of an engine are measurements of time the model has none of: free values (log 7). DEDUCED (log 12). -/
def regNow (s : State) (b : Nat) : Nat :=
  let v := (getReg s b).toNat
  match b / 0x10000 with
  | 0 => hepNow s b v
  | 1 => mbxNow s b v
  | 2 => intNow s b v
  | 3 => if 0x31100 ≤ b ∧ b < 0x31420 ∧ b % 8 = 0 then ovl v 2 1 (b2n (taskBusy s ((b - 0x31100) / 8))) else v
  | 4 => trlNow s b v
  | 5 => if 0x55000 ≤ b ∧ b < 0x55200 ∧ b % 0x10 = 8 then ovl v 1 1 (b2n (!cxpMode s ((b - 0x55000) / 0x10))) else v
  | 6 => tmbNow s b v
  | 7 => camNow s b v | 8 => camNow s b v | 9 => camNow s b v | 10 => camNow s b v
  | 11 => if b < 0xB4000 ∧ b % 0x100 = 0x44 then frmStatus s ((b - 0xB0000) / 0x100) v else v
  | 14 => if b % 0x100 = 0xC ∧ measured s then freeNat s % 65536 else v
  | 15 => if b < 0xF1000 ∧ b % 0x10 = 0 then (if v % 4 = 0 ∧ engineRuns s ((b - 0xF0000) / 0x10) = true then v + 1 else v)
          else if b % 0x10 = 4 ∧ measured s then freeNat s % 65536 else v
  | 18 => if b = 0x120004 then ovl v 0 1 (b2n (!dlvOn s))
          else if 0x124000 ≤ b ∧ b % 0x40 = 0x18 then groupFifoWord s ((b - 0x124000) / 0x40) else v
  | 19 => if b = 0x130000 then ovl v 2 1 (b2n (!mayIssue s))
          else if b = 0x130010 then ovl (ovl v 0 10 (dmaReads s).length) 16 9 ((readBytes (dmaReads s) + 1023) / 1024)
          else if b = 0x13001C then ovl v 0 12 (dmaPages s)
          else if 0x131000 ≤ b ∧ b % 0x40 = 0x18 then v % 2 ^ 63 else v
  | 20 => if 0x140010 ≤ b ∧ b < 0x140020 ∧ !isManager s then 0 else v
  | 21 => if b = 0x150008 then ducNow s
          else if 0x150100 ≤ b ∧ b < 0x150200 ∧ b % 0x20 = 0xC then ovl v 6 4 (lanN s ((b - 0x150100) / 0x20)) else v
  | 22 => if b = 0x16000C then windowStatus s
          else if b = 0x16001C then ovl v 16 5 s.rcd.latch.length
          else if 0x160400 ≤ b then leNat (((windowBytes s).drop (b - 0x160400)).take 4) else v
  | 23 => if b = 0x170000 then Config.dieId.toNat else if b = 0x170008 then Config.pkgSerial.toNat
          else if 0x170480 ≤ b ∧ b < 0x170500 then (ramWord s b).toNat else v
  | _ => v

/-- What a whole read of a register does besides: RC registers, and the queues whose head a read takes. DEDUCED (log 12). -/
def readEffect (s : State) (b : Nat) : State :=
  match b / 0x10000 with
  | 5 => if b = 0x5601C then tableData3Read s else s
  | 6 => if 0x61000 ≤ b ∧ b < 0x61800 ∧ b % 0x40 = 0x20 ∧ ethMode s ((b - 0x61000) / 0x40) then txqIdRead ((b - 0x61000) / 0x40) s else s
  | 14 => if b % 0x100 = 0xC ∧ measured s then freeNext s else s
  | 15 => if b % 0x10 = 4 ∧ measured s then freeNext s else s
  | 18 => if 0x124000 ≤ b ∧ b % 0x40 = 0x18 then groupFifoRead ((b - 0x124000) / 0x40) s else s
  | _ => s

/-- A word of BAR0 that is no register: the GLRD table, the pending-bit array and the MSI-X table. -/
def windowWord (s : State) (a : Nat) : Option Nat :=
  if a < 0x1000 then some (leNat (((glrdTable s).drop a).take 4))
  else if 0x7000 ≤ a ∧ a < 0x7100 then
    some ((List.range 32).foldl (fun x i => x + (if intMode s = 2 && mget false s.hep.pba (8 * (a - 0x7000) + i) then 2 ^ i else 0)) 0)
  else if 0x8000 ≤ a ∧ a < 0x10000 then some (msixDw s ((a - 0x8000) / 16) (a % 16 / 4))
  else none

/-- A word of BAR0 as it stands, with no effect of the read: what a narrow read returns the bytes of (R8). -/
def peekWord (s : State) (a : Nat) : Nat :=
  match windowWord s a with
  | some v => v
  | none => match regAt a with
    | none => 0
    | some (_, b) => regNow s b / 2 ^ (8 * (a - b)) % 2 ^ 32

/-- A 32-bit read at an aligned offset (R9): of a 64-bit register the low word fills its latch, the high word takes it. -/
def read32 (s : State) (a : Nat) : Nat × State :=
  match windowWord s a with
  | some v => (v, s)
  | none => match regAt a with
    | none => (0, s)
    | some (r, b) =>
      let v := regNow s b
      if !r.wide then (v % 2 ^ 32, readEffect s b)
      else if a = b then (v % 2 ^ 32, readEffect { s with latch := mput none s.latch b (some (BitVec.ofNat 32 (v / 2 ^ 32))) } b)
      else match mget none s.latch b with
        | some w => (w.toNat, { s with latch := mput none s.latch b none })
        | none => (v / 2 ^ 32, s)

/-- A 64-bit read at an offset aligned to 8 (R9): whole where a 64-bit register stands there, else its two words, the lower first (R361). -/
def read64 (s : State) (a : Nat) : Nat × State :=
  let two := let l := read32 s a
    let h := read32 l.2 (a + 4)
    (l.1 + 2 ^ 32 * h.1, h.2)
  match windowWord s a with
  | some _ => two
  | none => match regAt a with
    | some (r, b) => if r.wide then (regNow s b, readEffect s b) else two
    | none => two

/-- The bytes of a read request to BAR0 from `a` on (R361, R8), with which of them are enabled: aligned pairs as 64-bit reads, other words as 32-bit reads, parts of words narrow; ascending. A byte that
is not enabled is a free value. The first argument bounds the accesses. DEDUCED (log 12). -/
def readSpan : Nat → State → Nat → List Bool → List Byte × State
  | 0, s, _, _ => ([], s)
  | n + 1, s, a, en =>
    if en.isEmpty then ([], s)
    else if a % 8 = 0 ∧ 8 ≤ en.length ∧ (en.take 8).all (·) then
      let x := read64 s a
      let r := readSpan n x.2 (a + 8) (en.drop 8)
      (leBytes 8 x.1 ++ r.1, r.2)
    else if a % 4 = 0 ∧ 4 ≤ en.length ∧ (en.take 4).all (·) then
      let x := read32 s a
      let r := readSpan n x.2 (a + 4) (en.drop 4)
      (leBytes 4 x.1 ++ r.1, r.2)
    else
      let k := 4 - a % 4
      let bytes := ((leBytes 4 (peekWord s (a / 4 * 4))).drop (a % 4)).zip (en.take k)
      let r := readSpan n (if bytes.all (·.2) then s else freeNext s) (a + k) (en.drop k)
      ((bytes.zipIdx.map (fun p => if p.1.2 then p.1.1 else BitVec.ofNat 8 (freeNat s / 256 ^ p.2))) ++ r.1, r.2)

/-- A read request to BAR0, with the recorder window's effect for all of it at once (R513). -/
def bar0Read (s : State) (a : Nat) (en : List Bool) : List Byte × State :=
  let len := en.length
  let r := readSpan (len + 1) s a en
  if 0x160400 < a + len ∧ a < 0x160800 then (r.1, cursorAdvance 16 r.2 (a - 0x160400) (min 1024 (a + len - 0x160400))) else r

/-! What a write does. -/

/-- The block whose enable register a row is, with its instance (Table 2-6). -/
def enableBlock (base b : Nat) : Option Block :=
  match base with
  | 0x70000 => some (.lane (Fin.ofNat 32 ((b - 0x70000) / 0x2000)))
  | 0x71000 => some (.camStr (Fin.ofNat 64 (2 * ((b - 0x71000) / 0x2000) + (b - 0x71000) % 0x2000 / 0x100)))
  | 0xB0000 => some (.frm (Fin.ofNat 64 ((b - 0xB0000) / 0x100)))
  | 0x50000 => some (.stake (Fin.ofNat 64 ((b - 0x50000) / 0x100)))
  | 0xE0000 => some (.camp (Fin.ofNat 16 ((b - 0xE0000) / 0x100)))
  | 0x124000 => some (.group (Fin.ofNat 256 ((b - 0x124000) / 0x40)))
  | 0x131000 => some (.dmaCh (Fin.ofNat 128 ((b - 0x131000) / 0x40)))
  | 0x62000 => some (.tpg (Fin.ofNat 16 ((b - 0x62000) / 0x40)))
  | 0x40850 => some (.vtrail (Fin.ofNat 4 ((b - 0x40850) / 0x100)))
  | 0x43000 => some (.divider (Fin.ofNat 4 ((b - 0x43000) / 0x10)))
  | 0xC0000 => some (.compass (Fin.ofNat 32 ((b - 0xC0000) / 0x100)))
  | 0x140000 => some .tether
  | 0x23000 => some (.window (Fin.ofNat 128 ((b - 0x23000) / 0x20)))
  | _ => none

/-- The plain effect of a write (Table 0-5): RW bits are set to the value, W1C and W1S bits cleared and set by ones. -/
def regPut (r : Reg) (b v : Nat) (s : State) : State :=
  let o := (getReg s b).toNat
  let n := o - Nat.land o r.rw + Nat.land v r.rw
  let n := n - Nat.land (Nat.land n r.w1c) v
  setReg s b (BitVec.ofNat 64 (Nat.lor n (Nat.land v r.w1s)))

/-- A write of a TRL register. -/
def trlWrite (r : Reg) (b v : Nat) (s : State) : State :=
  let t := (b - 0x40000) / 0x100
  match r.base with
  | 0x4000C => onlyIf (bitOf v 11) (untrustedClear t) (regPut { r with w1c := r.w1c - Nat.land r.w1c 0x800 } b v (trlOpen s t))
  | 0x40010 => softLimitWritten t (regPut r b v s)
  | 0x40018 => softLimitWritten t (regPut r b v s)
  | 0x40020 => presetTrail t (toSigned 64 v) s
  | 0x41000 => portCfgWrite ((b - 0x41000) / 0x40) (Nat.land v r.rw) s
  | 0x42000 => limitsFollow (regPut r b v s)
  | _ => regPut r b v s

/-- A write of a STK register that is not shadowed. -/
def stkWrite (r : Reg) (b v : Nat) (s : State) : State :=
  match r.base with
  | 0x5004C => onlyIf (bitOf v 0) (stakeRearm ((b - 0x50000) / 0x100)) s
  | 0x54000 => trgCfgWrite ((b - 0x54000) / 0x10) (Nat.land v r.rw) s
  | 0x56000 => tableAddrWrite (v % 131072) s
  | 0x56010 => if b = 0x5601C then tableData3Write (v % 2 ^ 32) s else regPut r b v s
  | _ => regPut r b v s

/-- A write of a TMB register: domains, the snapshot, ports of lanes in an Ethernet mode, generators (R124). -/
def tmbWrite (r : Reg) (b v : Nat) (s : State) : State :=
  let d := (b - 0x60000) / 0x100
  let g := (b - 0x62000) / 0x40
  match r.base with
  | 0x60008 => domainSet d v s
  | 0x60010 => domainAdjust d (toSigned 64 v) s
  | 0x60018 => domRateWrite d (v % 2 ^ 32) s
  | 0x6001C => domainSrcWrite d (Nat.land v r.rw) s
  | 0x60400 => onlyIf (bitOf v 0) timeSnapshot s
  | 0x62008 => tpgStartWrite g v s
  | _ =>
    if 0x61000 ≤ b ∧ b < 0x61800 then
      let p := (b - 0x61000) / 0x40
      if !ethMode s p then s else onlyIf (r.base = 0x61000) (ptpRestart · p) (regPut r b v s)
    else if (0x62004 ≤ r.base ∧ r.base < 0x62020) ∧ enState s (tpgEn g) ≠ 0 then tpgFlag s g (TPG_STATUS_CFG_LOCK g)
    else regPut r b v s

/-- A write of a CAM register that is not shadowed: commands of a lane, its buffers, its locked settings (R162, R179). -/
def camWrite (r : Reg) (b v : Nat) (s : State) : State :=
  let n := (b - 0x70000) / 0x2000
  let st := 2 * n + (b - 0x70000) % 0x2000 % 0x1000 / 0x100
  match r.base with
  | 0x70004 => if rdB s (CAM_LANE_STATUS_MEMBER n) then s else regPut r b v s
  | 0x70030 => onlyIf (bitOf v 0) (counterClear (.lane (Fin.ofNat 32 n))) s
  | 0x70040 => onlyIf (!cxpMode s n) (regPut r b v) s
  | 0x70048 => onlyIf (!cxpMode s n) (regPut r b v) s
  | 0x7004C => onlyIf (!cxpMode s n) (regPut r b v) s
  | 0x70050 => onlyIf (!cxpMode s n) (ethCfgWrite n (regPut r b v)) s
  | 0x70414 => regPut r b v (rawTxOver s n)
  | 0x70100 => onlyIf (bitOf v 0) (camCtl n (bitOf v 1) (bitsOf v 10 2)) s
  | 0x70200 => ramSet s b (BitVec.ofNat 32 v)
  | 0x70408 => onlyIf (bitOf v 0) (rawRxPop n) s
  | 0x70410 => onlyIf (bitOf v 12) (rawTxSend n (bitsOf v 11 0)) s
  | 0x71800 => ramSet s b (BitVec.ofNat 32 v)
  | 0x71004 => if enState s (camStrEn st) = 0 then regPut r b v s else wr s (CAM_STR_STATUS_CFG_LOCK st) 1
  | _ => regPut r b v s

/-- A write of an FRM register that is not shadowed (R219). -/
def frmWrite (r : Reg) (b v : Nat) (s : State) : State :=
  let st := (b - 0xB0000) / 0x100
  match r.base with
  | 0xB0070 => onlyIf (bitOf v 0) (counterClear (.frm (Fin.ofNat 64 st))) s
  | _ =>
    if 0xB0030 ≤ r.base ∧ r.base ≤ 0xB003C then
      if enState s (frmEn st) = 0 then showFree (regPut r b v s) st else wr s (FRM_STR_STATUS_CFG_LOCK st) 1
    else regPut r b v s

/-- DLV_QCMD (Table 11-6): an OP that is not listed ends with RESULT 2. DEDUCED (log 26). -/
def queueCommand (v : Nat) (s : State) : State :=
  let q := bitsOf v 19 0
  match bitsOf v 22 20 with
  | 0 => s
  | 1 => qcmdRead q .none s
  | 2 => qcmdWrite q .none s
  | 3 => qcmdEnable q .none s
  | 4 => qcmdDisable q .none s
  | 5 => qcmdFlush q .none s
  | _ => qcmdEnd s 2

/-- A write of a DLV register that is not shadowed (R326). -/
def dlvWrite (r : Reg) (b v : Nat) (s : State) : State :=
  match r.base with
  | 0x120000 => onlyIf (bitOf v 0) deliveryResume s
  | 0x120020 => queueCommand v s
  | 0x1200E0 => onlyIf (bitOf v 0) (counterClear .dlv) s
  | 0x120100 => xoffUpdate (regPut r b v s)
  | _ =>
    if (b = 0x120008 ∨ b = 0x120010) ∧ (List.range 256).any (fun g => enState s (grpEn g) != 0) then wr s DLV_STATUS_CFG_LOCK 1
    else regPut r b v s

/-- A write of a DMA register. -/
def dmaWrite (r : Reg) (b v : Nat) (s : State) : State :=
  let c := (b - 0x131000) / 0x40
  match r.base with
  | 0x130000 => onlyIf (bitOf v 0) engineHaltClear s
  | 0x131004 => dmaCfgWrite c b (Nat.land v r.rw) s
  | 0x131018 => dmaCfgWrite c b (Nat.land v r.rw) s
  | 0x131008 => dmaHeadWrite c (Nat.land v r.rw) s
  | 0x131020 => dmaCiWrite c (Nat.land v r.rw) s
  | 0x131028 => onlyIf (bitOf v 0) (dmaDoorbell c .none) s
  | 0x13102C => onlyIf (bitOf v 0) (dmaRestart c) s
  | _ => regPut r b v s

/-- A write of an MBX register or of a command buffer (R388 to R394). -/
def mbxWrite (r : Reg) (b v : Nat) (s : State) : State :=
  let m := (b - 0x18000) / 0x20
  match r.base with
  | 0x10000 => cmdWrite s ((b - 0x10000) / 0x1000) b (BitVec.ofNat 32 v)
  | 0x18000 => onlyIf (bitOf v 1) (mbxAbort m) (onlyIf (bitOf v 0) (mbxGo m) s)
  | 0x18004 => onlyIf (bitOf v 2) (mbxAck m) (regPut { r with w1c := r.w1c - Nat.land r.w1c 4 } b v s)
  | _ => regPut r b v s

/-- A write of an INT register. -/
def intWrite (r : Reg) (b v : Nat) (s : State) : State :=
  match r.base with
  | 0x20000 => intStatusWrite s ((b - 0x20000) / 0x10) v
  | 0x20004 => intEnableWrite s ((b - 0x20000) / 0x10) v
  | 0x20408 => intTest s (bitsOf v 10 0) (bitOf v 31)
  | 0x21000 => updateInta (regPut r b v s)
  | 0x23004 => windowCfgWrite s ((b - 0x23000) / 0x20) v
  | 0x23008 => windowKWrite s ((b - 0x23000) / 0x20) v
  | _ => regPut r b v s

/-- A write of a register of HEP, GYL, MLK, CHG, PXE, TTH, LAN, REC or BOOT that is neither shadowed nor an enable. -/
def otherWrite (r : Reg) (b v : Nat) (s : State) : State :=
  match r.base with
  | 0x1034 => onlyIf (bitOf v 0) (counterClear .hep) s
  | 0x30000 => gylChEnWrite 0 ((b - 0x30000) / 0x10) (v % 256) s
  | 0x30004 => gylCfgWrite ((b - 0x30000) / 0x10) v s
  | 0xC0078 => onlyIf (bitOf v 0) (counterClear (.mlk (Fin.ofNat 32 ((b - 0xC0000) / 0x100)))) s
  | 0xD0000 => chgWrite v s
  | 0x100034 => onlyIf (bitOf v 0) (counterClear (.pxe (Fin.ofNat 64 ((b - 0x100000) / 0x100)))) s
  | 0x140010 => if isManager s then regPut r b v s else s
  | 0x140040 => onlyIf (bitOf v 0) (counterClear .tth) s
  | 0x150014 => lanOvrClear (v % 2 ^ 32) s
  | 0x150400 => ruleCfgWrite ((b - 0x150400) / 0x20) v s
  | 0x150408 => ruleRegWrite ((b - 0x150400) / 0x20) b (Nat.land v r.rw) s
  | 0x150410 => ruleRegWrite ((b - 0x150400) / 0x20) b (Nat.land v r.rw) s
  | 0x150414 => ruleRegWrite ((b - 0x150400) / 0x20) b (Nat.land v r.rw) s
  | 0x160000 => onlyIf (bitOf v 1) recRewind (onlyIf (bitOf v 0) flushTrigger s)
  | 0x160008 => recCfgWrite v s
  | 0x160010 => recCursorWrite v s
  | 0x160014 => recMarkWrite v s
  | 0x170204 => modeRequest (v % 16) s
  | 0x170404 => onlyIf (bitOf v 31) (keyGo (bitsOf v 1 0) (bitsOf v 3 2) (bitOf v 4) (bitOf v 5)) s
  | 0x170480 => ramSet s b (BitVec.ofNat 32 v)
  | _ => regPut r b v s

/-- A write of a shadowed register goes to the shadow store (R245). -/
def shadowWrite (r : Reg) (b v : Nat) (s : State) : State := storeWrite s b (shadowVal r v)

/-- A write of a whole register (R13). -/
def regWrite (r : Reg) (b v : Nat) (s : State) : State :=
  if r.shadowed then shadowWrite r b v s
  else match enableBlock r.base b with
    | some e => enableWrite e (bitOf v 0) s
    | none => match b / 0x10000 with
      | 1 => mbxWrite r b v s
      | 2 => intWrite r b v s
      | 4 => trlWrite r b v s
      | 5 => stkWrite r b v s
      | 6 => tmbWrite r b v s
      | 7 => camWrite r b v s | 8 => camWrite r b v s | 9 => camWrite r b v s | 10 => camWrite r b v s
      | 11 => frmWrite r b v s
      | 18 => dlvWrite r b v s
      | 19 => dmaWrite r b v s
      | _ => otherWrite r b v s

/-- The queue whose doorbell stands at an offset of the doorbell window (R297). -/
def bellOf (a : Nat) : Option Nat := if 0x2000000 ≤ a ∧ a < 0x2800000 then some ((a - 0x2000000) / 8) else none

/-- A 32-bit write at an aligned offset (R8, R10). -/
def write32 (a v : Nat) (s : State) : State :=
  match bellOf a with
  | some q => if a % 8 = 0 then queueDoorbell q .none (some v) none s else queueDoorbell q .none none (some v) s
  | none =>
    if 0x8000 ≤ a ∧ a < 0x10000 then flushPending (msixSet s ((a - 0x8000) / 16) (a % 16 / 4) v)
    else match regAt a with
      | none => s
      | some (r, b) =>
        if !r.wide then regWrite r b v s
        else if a = b then { s with held := mput 0 s.held b (BitVec.ofNat 32 v) }
        else regWrite r b ((mget (0 : Word) s.held b).toNat + 2 ^ 32 * v) s

/-- A 64-bit write at an offset aligned to 8 (R10): whole where a 64-bit register or a doorbell stands there, else two 32-bit writes, the lower first. -/
def write64 (a v : Nat) (s : State) : State :=
  let two := fun (_ : Unit) => write32 (a + 4) (v / 2 ^ 32) (write32 a (v % 2 ^ 32) s)
  match bellOf a with
  | some q => queueDoorbell q .none (some (v % 2 ^ 32)) (some (v / 2 ^ 32)) s
  | none => match regAt a with
    | some (r, b) => if r.wide then regWrite r b v { s with held := mput 0 s.held b (BitVec.ofNat 32 (v % 2 ^ 32)) } else two ()
    | none => two ()

/-- The number that enabled bytes spell, where all of them are enabled. -/
def allBytes : List (Option Byte) → Option Nat
  | [] => some 0
  | some b :: l => (allBytes l).map (fun n => b.toNat + 256 * n)
  | none :: _ => none

/-- The bytes of a write request to BAR0 from `a` on (R361, R8): aligned pairs as 64-bit writes, other words as 32-bit writes, ascending; a part of a word is discarded. The first argument
bounds the accesses. DEDUCED (log 12). -/
def writeSpan : Nat → Nat → List (Option Byte) → State → State
  | 0, _, _, s => s
  | n + 1, a, l, s =>
    if l.isEmpty then s else
    match (if a % 8 = 0 ∧ 8 ≤ l.length then allBytes (l.take 8) else none) with
    | some v => writeSpan n (a + 8) (l.drop 8) (write64 a v s)
    | none => match (if a % 4 = 0 ∧ 4 ≤ l.length then allBytes (l.take 4) else none) with
      | some v => writeSpan n (a + 4) (l.drop 4) (write32 a v s)
      | none => writeSpan n (a + (4 - a % 4)) (l.drop (4 - a % 4)) s

/-! The commands. -/

/-- REGISTER_WRITE (R8, R13): one access to BAR0; one of another size than 32 or 64 bits is discarded. DEDUCED (log 12). -/
def registerWrite (off : Nat) (size : Size) (val : Nat) (s : State) : State :=
  match size with
  | .dword => writeSpan 8 off ((leBytes 4 val).map some) s
  | .qword => writeSpan 8 off ((leBytes 8 val).map some) s
  | .other => s

/-- REG64_LOW_READ (R9): a 32-bit read of the low word of the 64-bit register at an offset. DEDUCED (log 12). -/
def reg64LowRead (off : Nat) (s : State) : State :=
  let x := read32 s (off / 8 * 8)
  send x.2 (.completion .ok (leBytes 4 x.1))

/-- REG64_HIGH_WRITE (R10): a 32-bit write of the high word of the 64-bit register at an offset. -/
def reg64HighWrite (off v : Nat) (s : State) : State := write32 (off / 8 * 8 + 4) v s

/-- Whether the endpoint serves a memory request (Table 13-7): the bytes it touches lie in an enabled space. DEDUCED (log 12). -/
def served (s : State) (sp : HostSpace) (off len : Nat) : Bool :=
  mse s && !inD3 s && (match sp with
    | .bar0 => decide (off + len ≤ 2 ^ 26)
    | .bar2 => decide (off + len ≤ 2 ^ bar2Log s)
    | .rom => bitOf (cfgDw s 0x30) 0 && decide (off + len ≤ 2 ^ 20)
    | _ => false)

/-- The HBM address of an offset of BAR2 (R362). -/
def bar2Addr (s : State) (off : Nat) : Nat := regNow s 0x1010 + off

/-- The PCI address of an offset of a space: its BAR with the offset; outside the BARs the offset itself. -/
def busAddr (s : State) (sp : HostSpace) (off : Nat) : Nat :=
  let bar := fun (o : Nat) => cfgDw s o / 16 * 16 + 2 ^ 32 * cfgDw s (o + 4)
  match sp with
  | .bar0 => bar 0x10 + off
  | .bar2 => bar 0x18 + off
  | .rom => cfgDw s 0x30 / 2 ^ 20 * 2 ^ 20 + off
  | _ => off

/-- The bytes a read enables, from its first on. -/
def readEn (r : ReadReq) : List Bool := (List.range r.len).map (fun i => !(decide (i < 8) && bitOf r.skip.toNat i))

/-- The header of a read and of a write request. -/
def readHead (s : State) (r : ReadReq) : List Nat :=
  match r.space with
  | .unserved h0 h1 h2 h3 => [h0.toNat, h1.toNat, h2.toNat, h3.toNat]
  | sp => memHead false false (busAddr s sp r.off.toNat) (readEn r) r.id
def writeHead (s : State) (w : WriteReq) : List Nat :=
  match w.space with
  | .unserved h0 h1 h2 h3 => [h0.toNat, h1.toNat, h2.toNat, h3.toNat]
  | sp => memHead true w.poisoned (busAddr s sp w.off.toNat) (w.data.map Option.isSome) w.id

/-- Completions of at most Max_Payload_Size, split at its multiples, which are Read Completion Boundaries (R362). -/
def sendCpl (s : State) (st : CplStatus) (off : Nat) (data : List Byte) : State :=
  if data.isEmpty then send s (.completion st [])
  else each (pieces (data.length + 1) (mps s) off data.length) (fun s p => send s (.completion st ((data.drop (p.1 - off)).take p.2))) s

/-- MEMORY_READ_REQUEST (R361 to R365). DEDUCED (log 12). -/
def memoryRead (r : ReadReq) (s : State) : State :=
  let off := r.off.toNat
  if !served s r.space off r.len then unsupported s false (readHead s r) else
  match r.space with
  | .bar0 =>
    if 128 < r.len.val ∨ (0 < r.len.val ∧ off / 4096 ≠ (off + r.len.val - 1) / 4096) then completerAbort s (readHead s r)
    else let x := bar0Read s off (readEn r)
      send x.2 (.completion .ok x.1)
  | .bar2 =>
    let a := bar2Addr s off
    let data := hbmRead s a r.len
    match (if hbmSize ≤ a then EccResult.none else r.ecc) with
    | .none => sendCpl s .ok off data
    | .corrected => sendCpl (eccCorrected s 0 0) .ok off data
    | .uncorrectable => sendCpl (eccUncorrectable s 0 0 a) .poisoned off data
  | _ => sendCpl s .ok off ((List.range r.len).map (fun i => romByte s (off + i)))

/-- Bytes written through BAR2; bytes that are not enabled stay. -/
def bar2Write : Nat → List (Option Byte) → State → State
  | _, [], s => s
  | a, none :: l, s => bar2Write (a + 1) l s
  | a, some b :: l, s => bar2Write (a + 1) l (hbmSet s a b)

/-- MEMORY_WRITE_REQUEST (R361 to R365): a poisoned one is discarded, and so is a write to the Expansion ROM. DEDUCED (log 12). -/
def memoryWrite (w : WriteReq) (s : State) : State :=
  let off := w.off.toNat
  if !served s w.space off w.data.length then unsupported s true (writeHead s w)
  else match w.space with
    | .rom => s
    | .bar2 => if w.poisoned then poisonedTlp s false (writeHead s w) else bar2Write (bar2Addr s off) w.data s
    | _ => if w.poisoned then poisonedTlp s false (writeHead s w) else writeSpan (w.data.length + 1) off w.data s

end Sys2Proof.Machine
end

