-- ==== Sys2Proof/Machine/Gate.lean ====
section
/-! DEFINITION. When a command reaches the device: the host's while the main domain runs and no conventional reset waits for its flush, the main domain's own while it runs,
those of the AON domain while VDD_AON is there (13_host_endpoint.md R383, R384; 17_lantern.md; 18_event_recorder.md R506); and the small steps that
only the commands themselves need. -/

namespace Sys2Proof.Machine

/-- Whether the host reaches the device (R384, R506): a reset that waits for its flush takes no more of its accesses. DEDUCED (log 11). -/
def hostOpen (s : State) : Bool := mainRuns s && !s.modeCtl.resetWait

/-- A command of the host: it does nothing while the host does not reach the device. DEDUCED (log 11). -/
def onHost (f : State → State) (s : State) : State := if hostOpen s then finish (f s) else s

/-- A command of the main domain: it does nothing while the main domain does not run. DESIGN CHOICE (log 2). DEDUCED (log 11). -/
def onMain (f : State → State) (s : State) : State := if mainRuns s then finish (f s) else s

/-- A command of the AON domain. DESIGN CHOICE (log 2). DEDUCED (log 11). -/
def onAon (f : State → State) (s : State) : State := if s.pwr.aon then finish (f s) else s

/-- A command of the AON domain when `aon`, else of the main domain. DEDUCED (log 11). -/
def onAonIf (aon : Bool) (f : State → State) (s : State) : State := if aon then onAon f s else onMain f s

/-- A command of the rails and resets: it can come at any time. DEDUCED (log 11). -/
def anyTime (f : State → State) (s : State) : State := finish (f s)

/-- A command of an encoder port: the main domain's while it runs; while it is in reset the front end takes it as `g` (R479). DEDUCED (log 11). -/
def atPort (f g : State → State) (s : State) : State :=
  if mainRuns s then finish (f s) else if s.pwr.main && s.pwr.aon then finish (g s) else s

/-- A pair's line break while the main domain is in reset: TRL_PIN shows it, and the trail finds it when it starts (R66); a break of A or B marks the shadow (R475); Z is watched only with Z_EN = 1 (R65). DEDUCED (log 11). -/
def pinBreak (p pair v : Nat) (s : State) : State :=
  if pair = 2 && v = 1 && !rdB s (TRL_PORT_CFG_Z_EN p) then s
  else onlyIf (decide (pair < 2) && v == 1) (fun s => wr s (LAN_PORT_STATUS_UNTRUSTED p) 1) (wr s (if pair = 0 then TRL_PIN_A_LB p else if pair = 1 then TRL_PIN_B_LB p else TRL_PIN_Z_LB p) v)

/-- The held low word of the 64-bit register at `a` (R10). DEDUCED (log 12). -/
def heldLow (s : State) (a : Nat) : Nat := (mget (0 : Word) s.held a).toNat

/-- What a write of the high word makes of the 64-bit register at `a` (R10). DEDUCED (log 12). -/
def joined (s : State) (a hi : Nat) : Nat := heldLow s a + 2 ^ 32 * hi

/-- A 64-bit write of the register at `a` leaves its low half in the held low word (R10). -/
def holdLow (s : State) (a v : Nat) : State := { s with held := mput 0 s.held a (BitVec.ofNat 32 (v % 2 ^ 32)) }

/-- A 64-bit write of DMA_CH_HEAD (R333). -/
def dmaHeadWhole (c v : Nat) (s : State) : State := dmaHeadWrite c (Nat.land v 0xFFFFFFFFFFFFFFC0) (holdLow s (0x131008 + 0x40 * c) v)

/-- A write of the high word of TRL_PRESET (R72). -/
def presetHigh (t hi : Nat) (s : State) : State := presetTrail t (toSigned 64 (joined s (0x40020 + 0x100 * t) hi)) s

/-- A write of the high word of TMB_DOM_SET (R101). -/
def domainSetHigh (d hi : Nat) (s : State) : State := domainSet d (joined s (0x60008 + 0x100 * d) hi) s

/-- A write of the high word of TMB_DOM_ADJ (R101). -/
def domainAdjustHigh (d hi : Nat) (s : State) : State := domainAdjust d (toSigned 64 (joined s (0x60010 + 0x100 * d) hi)) s

/-- A write of the high word of TPG_START (R124). -/
def tpgStartHigh (g hi : Nat) (s : State) : State := tpgStartWrite g (joined s (0x62008 + 0x40 * g) hi) s

/-- A 64-bit read of TMB_TXQ_ID (R118). -/
def txqRead (p : Nat) (s : State) : State :=
  if ethMode s p then send (txqIdRead p s) (.completion .ok (leBytes 8 (txqHead s p))) else send s (.completion .ok (leBytes 8 0))

/-- A read of STK_TW_DATA3 (R155). -/
def data3Read (s : State) : State := send (tableData3Read s) (.completion .ok (leBytes 4 (rd s (STK_TW_DATA_DATA 3))))

/-- A 64-bit read of DLV_GRP_FIFO (R316). -/
def groupRead (g : Nat) (s : State) : State := send (groupFifoRead g s) (.completion .ok (leBytes 8 (groupFifoWord s g)))

/-- The camp whose FIFO an offer comes from; none for the event copies. -/
def offerCamp : OfferFrom → Option Nat
  | .camp c => some c
  | .event => none

/-- A record that its source offers (R494, R499). -/
def recordOffer (p : Nat) (r : RecOffer) (s : State) : State := record s p r.source.toNat r.sev.toNat r.code.toNat r.payload

/-- PCIE_LINK_EVENT (R385): a change of the link's state, which is a DL_Down where the data link goes down; or a correctable error. PRESUMED (log 29). -/
def linkEvent (x : LinkEvt) (s : State) : State :=
  match x with
  | .state sp w flit up lt =>
    let was := rdB s HEP_LINK_DL_UP
    let s := linkState s sp.toNat w.toNat flit up lt.toNat
    if was && !up then dlDown s else s
  | .correctable b => correctable s b.toNat

end Sys2Proof.Machine
end

