-- ==== Sys2Proof/Machine/DeliveryCommands.lean ====
section
/-! DEFINITION. The commands of this family, one meaning each: Delivery queues and DMA channels (11_delivery_queues.md, 12_dma_engines.md). -/

namespace Sys2Proof.Machine

/-- ITEM_OFFER (R306): An item offered to a queue is admitted, or dropped into a gap. -/
def execItemOffer (x : OfferSrc) (s : State) : Host.Outcome State Fault Refusal :=
  .next (onMain (itemOffer (offerCamp x.src) x.ecc) s)

/-- ITEM_WRITTEN (R300): An admitted item's data and completion entry are written to the host, and its slot is released. -/
def execItemWritten (q : QidIx) (x : ItemEcc) (s : State) : Host.Outcome State Fault Refusal :=
  .next (onMain (itemWritten q x) s)

/-- ELLIPSIS_WRITE (R308): A ring entry becomes free while ELL_PEND = 1, so the ELLIPSIS entry is written. -/
def execEllipsisWrite (q : QidIx) (s : State) : Host.Outcome State Fault Refusal :=
  .next (onMain (ellipsisWrite q) s)

/-- QUEUE_DOORBELL (R297): A doorbell write for a queue enters the doorbell FIFO, or merges with an entry there. -/
def execQueueDoorbell (q : QAccess) (lo hi : Option (BitVec 32)) (s : State) : Host.Outcome State Fault Refusal :=
  .next (onHost (queueDoorbell q.q q.ecc (lo.map BitVec.toNat) (hi.map BitVec.toNat)) s)

/-- DOORBELL_APPLY (R298): A doorbell from the FIFO is applied to the queue context: CI, BPI and ARM. -/
def execDoorbellApply (s : State) : Host.Outcome State Fault Refusal :=
  .next (onMain doorbellApply s)

/-- QCMD_READ (R294): The DLV_QCMD READ copies a queue context into the window. -/
def execQcmdRead (q : QAccess) (s : State) : Host.Outcome State Fault Refusal :=
  .next (onHost (qcmdRead q.q q.ecc) s)

/-- QCMD_WRITE (R294): The DLV_QCMD WRITE copies the window into a disabled queue's context. -/
def execQcmdWrite (q : QAccess) (s : State) : Host.Outcome State Fault Refusal :=
  .next (onHost (qcmdWrite q.q q.ecc) s)

/-- QCMD_ENABLE (R294): The DLV_QCMD ENABLE checks a queue's context and enables the queue. -/
def execQcmdEnable (q : QAccess) (s : State) : Host.Outcome State Fault Refusal :=
  .next (onHost (qcmdEnable q.q q.ecc) s)

/-- QCMD_DISABLE (R313): The DLV_QCMD DISABLE lets the current item finish, flushes the queue and disables it. -/
def execQcmdDisable (q : QAccess) (s : State) : Host.Outcome State Fault Refusal :=
  .next (onHost (qcmdDisable q.q q.ecc) s)

/-- QCMD_FLUSH (R312): The DLV_QCMD FLUSH discards undelivered items and writes a FLUSHED entry. -/
def execQcmdFlush (q : QAccess) (s : State) : Host.Outcome State Fault Refusal :=
  .next (onHost (qcmdFlush q.q q.ecc) s)

/-- FLUSHED_WRITE (R312): A ring entry becomes free while FLU_PEND = 1, so the FLUSHED entry is written. -/
def execFlushedWrite (q : QidIx) (s : State) : Host.Outcome State Fault Refusal :=
  .next (onMain (flushedWrite q) s)

/-- GROUP_FIFO_READ (R316): A read of DLV_GRP_FIFO returns and removes one queue ID, or returns VALID = 0. -/
def execGroupFifoRead (g : GroupIx) (s : State) : Host.Outcome State Fault Refusal :=
  .next (onHost (groupRead g) s)

/-- GROUP_HOLDOFF_END (R317): A group's holdoff ends, and a cause held during it raises the group interrupt source. -/
def execGroupHoldoffEnd (g : GroupIx) (s : State) : Host.Outcome State Fault Refusal :=
  .next (onMain (groupHoldoffEnd g) s)

/-- DELIVERY_RESUME (R324): A write of DLV_CTRL.RESUME with Bus Master Enable = 1 restarts delivery. -/
def execDeliveryResume (s : State) : Host.Outcome State Fault Refusal :=
  .next (onHost deliveryResume s)

/-- DMA_DOORBELL (R332): A write of DMA_CH_DB.GO starts, re-fetches or marks DB_PEND on a channel. -/
def execDmaDoorbell (t : DmaTouch) (s : State) : Host.Outcome State Fault Refusal :=
  .next (onHost (dmaDoorbell t.c t.refetch) s)

/-- DMA_DESCRIPTOR_COMPLETE (R332): A channel completes a descriptor, writes its completion entry and follows NEXT or parks. -/
def execDmaDescriptorComplete (t : DmaTouch) (ecc : EccResult) (staging : Bool) (addr : BitVec 35) (s : State) : Host.Outcome State Fault Refusal :=
  .next (onMain (dmaComplete t ecc staging addr.toNat) s)

/-- BARRIER_READ_COMPLETE (R339): The zero-length barrier read completes, and the channel writes its entry and counts DONE. -/
def execBarrierReadComplete (t : DmaTouch) (s : State) : Host.Outcome State Fault Refusal :=
  .next (onMain (barrierComplete t.c t.refetch) s)

/-- DMA_HEAD_WRITE (R336): A write of DMA_CH_HEAD is accepted in IDLE, HALTED and MASTER_OFF, and discarded in other states. -/
def execDmaHeadWrite (c : DmaIx) (v : BitVec 64) (s : State) : Host.Outcome State Fault Refusal :=
  .next (onHost (dmaHeadWhole c v.toNat) s)

/-- DMA_RESTART (R347): A write of DMA_CH_CTRL.RESTART takes a halted channel to IDLE, or sets RESTART_REF. -/
def execDmaRestart (c : DmaIx) (s : State) : Host.Outcome State Fault Refusal :=
  .next (onHost (dmaRestart c) s)

/-- ENGINE_HALT_CLEAR (R344): A write of 1 to DMA_STATUS.ENGINE_HALT clears it, unless DRAINING = 1. -/
def execEngineHaltClear (s : State) : Host.Outcome State Fault Refusal :=
  .next (onHost engineHaltClear s)

end Sys2Proof.Machine
end

