-- ==== Sys2Proof/Machine/EndpointCommands.lean ====
section
/-! DEFINITION. The commands of this family, one meaning each: Completions, link power, resets and boot (13_host_endpoint.md, 20_boot_identity_lifetime.md). -/

namespace Sys2Proof.Machine

/-- COMPLETION_RECEIVE (R377): A completion arrives and is placed in its request's buffer, or is discarded as late or unexpected. -/
def execCompletionReceive (tag : Fin 1024) (x : Cpl) (s : State) : Host.Outcome State Fault Refusal :=
  .next (onMain (completionReceive tag x) s)

/-- COMPLETION_TIMEOUT (R378): A read request times out; the error is logged, the requester is told and the tag is quarantined. -/
def execCompletionTimeout (tag : Fin 1024) (s : State) : Host.Outcome State Fault Refusal :=
  .next (onMain (completionTimeout tag) s)

/-- QUARANTINE_EXPIRE (R379): Four times the timeout passes, and a quarantined tag is freed. -/
def execQuarantineExpire (tag : Fin 1024) (s : State) : Host.Outcome State Fault Refusal :=
  .next (onMain (quarantineExpire tag) s)

/-- L0S_IDLE_EXPIRE (R372): The transmitter has been idle for L0S_IDLE, and it enters L0s. -/
def execL0sIdleExpire (s : State) : Host.Outcome State Fault Refusal :=
  .next (onMain l0sIdle s)

/-- L1_IDLE_EXPIRE (R373): The link has been idle for L1_IDLE with no work pending, and the endpoint requests L1. -/
def execL1IdleExpire (s : State) : Host.Outcome State Fault Refusal :=
  .next (onMain l1Idle s)

/-- PERST_ASSERT (R506): PERST# is asserted; the ring is flushed and the main domain then enters reset. -/
def execPerstAssert (s : State) : Host.Outcome State Fault Refusal :=
  .next (anyTime perstAssert s)

/-- HOT_RESET (R383): A Hot Reset is received, which is a conventional reset. -/
def execHotReset (s : State) : Host.Outcome State Fault Refusal :=
  .next (anyTime hotReset s)

/-- DL_DOWN (R383): The data link goes to DL_Down, which is a conventional reset. -/
def execDlDown (s : State) : Host.Outcome State Fault Refusal :=
  .next (anyTime dlDown s)

/-- RESET_HOLD_END (R383): The 1 ms hold after a Hot Reset or DL_Down ends, and boot proceeds as after PERST#. -/
def execResetHoldEnd (s : State) : Host.Outcome State Fault Refusal :=
  .next (anyTime resetHoldEnd s)

/-- PERST_DEASSERT (R530): PERST# is deasserted with PWRFAIL_N high: the straps are sampled, the trails are seeded and the MP starts from ROM. -/
def execPerstDeassert (role : BitVec 2) (wid : BitVec 4) (s : State) : Host.Outcome State Fault Refusal :=
  .next (anyTime (perstDeassert role.toNat wid.toNat) s)

/-- BOOT_COMPLETE (R530): The firmware is verified and started, the boot steps complete, the device enters IDLE and READY sets. -/
def execBootComplete (x : BootImage) (s : State) : Host.Outcome State Fault Refusal :=
  .next (onMain (bootComplete x) s)

/-- BOOT_FAIL (R533): No bank verifies, or the fuse CRC fails, so the device stays in BOOT served by ROM. -/
def execBootFail (cause0 cause1 : BitVec 3) (fuseErr : Bool) (s : State) : Host.Outcome State Fault Refusal :=
  .next (onMain (bootFail cause0.toNat cause1.toNat fuseErr) s)

/-- QSPI_RELEASE (R533): 100 ms after a boot failure, ROM releases the QSPI pins. -/
def execQspiRelease (s : State) : Host.Outcome State Fault Refusal :=
  .next (onMain qspiRelease s)

end Sys2Proof.Machine
end

