-- ==== Sys2Proof/Machine/FrameCommands.lean ====
section
/-! DEFINITION. The commands of this family, one meaning each: Frame assembly, mark lock, job changeover and pixel engines (07_frame_assembly.md to 10_pixel_engines.md). -/

namespace Sys2Proof.Machine

/-- LINE_ASSEMBLE (R203): The cutter takes a line and stores, opens, closes or drops frames by Table 7-4. -/
def execLineAssemble (st : StreamIx) (s : State) : Host.Outcome State Fault Refusal :=
  .next (onMain (lineAssemble st) s)

/-- MARK_REPORT_ARRIVE (R227): A mark report and the loop's values reach MOT, where they count for hand-over and raise the mark guyline. -/
def execMarkReportArrive (u : CompassIx) (s : State) : Host.Outcome State Fault Refusal :=
  .next (onMain (markReportArrive u) s)

/-- CHG_COMMIT_GO (R247): A write of CHG_COMMIT.GO arms a hand-over, refuses it, or re-targets a late commit. -/
def execChgCommitGo (v : BitVec 32) (s : State) : Host.Outcome State Fault Refusal :=
  .next (onHost (chgCommit v.toNat) s)

/-- CHG_COMMIT_WITHDRAW (R249): A write of CHG_COMMIT.WITHDRAW disarms the armed hand-over, or finds it too late. -/
def execChgCommitWithdraw (s : State) : Host.Outcome State Fault Refusal :=
  .next (onHost chgWithdraw s)

/-- HANDOVER_CYCLE (R31): The position, mark-count or time condition is met in cycle h; the shadow store is copied and the new set becomes ACTIVE. -/
def execHandoverCycle (s : State) : Host.Outcome State Fault Refusal :=
  .next (onMain handoverCycle s)

/-- SHADOW_COPY_COMPLETE (R253): The copy of cycles h to h + 3 completes, and the sequencer goes to IDLE or CONJ. -/
def execShadowCopyComplete (s : State) : Host.Outcome State Fault Refusal :=
  .next (onMain shadowCopyComplete s)

/-- LEAD_COPY_COMPLETE (R261): The new cutter finishes copying its lead lines, and the held lines proceed. -/
def execLeadCopyComplete (st : StreamIx) (s : State) : Host.Outcome State Fault Refusal :=
  .next (onMain (leadCopyComplete st) s)

/-- CONJUNCTION_END (R264): Every old cutter has stopped and every lead copy is done, so the conjunction ends and the mode returns. -/
def execConjunctionEnd (s : State) : Host.Outcome State Fault Refusal :=
  .next (onMain conjunctionEnd s)

/-- CONJUNCTION_LIMIT_EXPIRE (R264): CHG_CONJ_LIMIT passes after h; the old cutters close and the conjunction ends. -/
def execConjunctionLimitExpire (s : State) : Host.Outcome State Fault Refusal :=
  .next (onMain conjunctionLimit s)

/-- CHAIN_LINE_PROCESS (R272): A camp's chain runs its kernels on one line of a frame. -/
def execChainLineProcess (st : StreamIx) (x : ChainEcc) (s : State) : Host.Outcome State Fault Refusal :=
  .next (onMain (chainLineProcess st x) s)

/-- FRAME_CHAIN_COMPLETE (R273): The chain finishes a frame; the merges run, the CRC is computed and the frame is handed to delivery in order. -/
def execFrameChainComplete (st : StreamIx) (s : State) : Host.Outcome State Fault Refusal :=
  .next (onMain (frameChainComplete st) s)

/-- RATE_WINDOW_END (R286): A 100 ms rate window ends; a rate above PXE_STR_RATE sets RATE_OVER. -/
def execRateWindowEnd (st : StreamIx) (s : State) : Host.Outcome State Fault Refusal :=
  .next (onMain (rateWindowEnd st) s)

/-- ENGINE_WATCHDOG (R288): A kernel overruns its budget on one line, and the engine FAULTs with cause watchdog. -/
def execEngineWatchdog (e : EngineIx) (s : State) : Host.Outcome State Fault Refusal :=
  .next (onMain (engineWatchdog e) s)

/-- CAMP_SELF_TEST_COMPLETE (R290): The self-test of a camp that is ENABLING completes, and the camp reaches ENABLED. -/
def execCampSelfTestComplete (c : CampIx) (failed : BitVec 16) (s : State) : Host.Outcome State Fault Refusal :=
  .next (onMain (campSelfTest c failed.toNat) s)

end Sys2Proof.Machine
end

