-- ==== Sys2Proof/Machine/GuylineCommands.lean ====
section
/-! DEFINITION. The commands of this family, one meaning each: Guylines and the tether (15_guyline_events.md, 16_tether_link.md). -/

namespace Sys2Proof.Machine

/-- GUYLINE_EVENT (R424): An event arrives at the guyline core and activates the channel's enabled task inputs. -/
def execGuylineEvent (ch : ChanIx) (hop : Fin 8) (s : State) : Host.Outcome State Fault Refusal :=
  .next (onMain (guylineEvent ch hop) s)

/-- RELAY_EXPIRE (R422): A relay's delay expires, and it produces an event on its channel. -/
def execRelayExpire (r : RelayIx) (s : State) : Host.Outcome State Fault Refusal :=
  .next (onMain (relayExpire r) s)

/-- TTH_FWD_SEND (R422): The TTH.FWD task sends its buffered GUYLINE message on the tether. -/
def execTthFwdSend (s : State) : Host.Outcome State Fault Refusal :=
  .next (onMain tthFwdSend s)

/-- GYL_CH_EN_WRITE (R425): An owner's write of a channel's enables applies from the next arrival cycle, subject to owner and security. -/
def execGylChEnWrite (owner : BitVec 2) (ch : ChanIx) (v : BitVec 8) (s : State) : Host.Outcome State Fault Refusal :=
  .next (onMain (gylChEnWrite owner.toNat ch v.toNat) s)

/-- BEAT_TRANSMIT (R447): Each 32 ns the manager sends a beat carrying the POSITION delta and anchor parts. -/
def execBeatTransmit (s : State) : Host.Outcome State Fault Refusal :=
  .next (onMain beatTransmit s)

/-- POSITION_DELTA_RECEIVE (R452): A worker receives a beat's delta part, updates S, checks beat lock and relays the beat. -/
def execPositionDeltaReceive (x : DeltaPart) (s : State) : Host.Outcome State Fault Refusal :=
  .next (onMain (positionDelta x) s)

/-- POSITION_ANCHOR_RECEIVE (R452): A worker receives a slot's anchor, which resets S, SPD and the speed state. -/
def execPositionAnchorReceive (x : AnchorPart) (s : State) : Host.Outcome State Fault Refusal :=
  .next (onMain (positionAnchor x) s)

/-- SLOT_STALE_EXPIRE (R454): No good anchor arrives within 64 beats, so the tether trail holds and becomes untrusted. -/
def execSlotStaleExpire (j : Fin 4) (s : State) : Host.Outcome State Fault Refusal :=
  .next (onMain (slotStaleExpire j) s)

/-- GUYLINE_MESSAGE_RECEIVE (R465): A received GUYLINE message raises channel 192 + SLOT and is relayed onwards. -/
def execGuylineMessageReceive (down : Bool) (x : TthIn) (s : State) : Host.Outcome State Fault Refusal :=
  .next (onMain (guylineMessage down x) s)

/-- HEARTBEAT_SEND (R459): A HEARTBEAT is sent every INT, or at once on a change of mode, target or readiness. -/
def execHeartbeatSend (down : Bool) (s : State) : Host.Outcome State Fault Refusal :=
  .next (onMain (heartbeatSend down) s)

/-- HEARTBEAT_RECEIVE (R460): A received HEARTBEAT makes a worker follow its manager, or a manager follow a worker's HOLD. -/
def execHeartbeatReceive (x : TthIn) (s : State) : Host.Outcome State Fault Refusal :=
  .next (onMain (heartbeatReceive x) s)

/-- HEARTBEAT_LOSS (R461): No good HEARTBEAT arrives for LOSS × INT; the worker enters HOLD, or the manager marks the worker absent. -/
def execHeartbeatLoss (w : Option (BitVec 4)) (s : State) : Host.Outcome State Fault Refusal :=
  .next (onMain (heartbeatLoss (w.map BitVec.toNat)) s)

/-- TIME_MESSAGE_SEND (R463): Every TIME_MS the manager sends a TIME message for each selected domain. -/
def execTimeMessageSend (d : DomIx) (s : State) : Host.Outcome State Fault Refusal :=
  .next (onMain (timeMessageSend d) s)

/-- TIME_MESSAGE_RECEIVE (R463): A worker domain with tether source takes an offset sample from a TIME message. -/
def execTimeMessageReceive (x : TthIn) (s : State) : Host.Outcome State Fault Refusal :=
  .next (onMain (timeMessageReceive x) s)

/-- HANDOVER_MESSAGE_SEND (R464): The manager sends each copy of a HANDOVER message, three copies 1 µs apart. -/
def execHandoverMessageSend (s : State) : Host.Outcome State Fault Refusal :=
  .next (onMain handoverMessageSend s)

/-- HANDOVER_MESSAGE_RECEIVE (R267): A worker turns a HANDOVER message into a position hand-over, or refuses it. -/
def execHandoverMessageReceive (x : TthIn) (s : State) : Host.Outcome State Fault Refusal :=
  .next (onMain (handoverMessageReceive x) s)

/-- MGMT_FRAGMENT_RECEIVE (R466): A worker receives a MGMT fragment and rings MBX6 when the command is complete. -/
def execMgmtFragmentReceive (x : TthIn) (s : State) : Host.Outcome State Fault Refusal :=
  .next (onMain (mgmtFragment x) s)

/-- MGMT_RESPONSE_RECEIVE (R406): The manager receives a worker's response and completes its MBX6. -/
def execMgmtResponseReceive (x : TthIn) (s : State) : Host.Outcome State Fault Refusal :=
  .next (onMain (mgmtResponse x) s)

/-- CAL_MESSAGE_RECEIVE (R457): A worker receives a CAL message and sets its pad P, at once or pending. -/
def execCalMessageReceive (x : TthIn) (s : State) : Host.Outcome State Fault Refusal :=
  .next (onMain (calMessageReceive x) s)

/-- TETHER_BLOCK_LOCK_CHANGE (R446): A tether port gains or loses 64b/66b block lock, or stops receiving delta parts, so its LOCK changes, a worker switches its transmit clock and LINK is raised. -/
def execTetherBlockLockChange (down : Bool) (lock : Bool) (s : State) : Host.Outcome State Fault Refusal :=
  .next (onMain (blockLockChange down lock) s)

end Sys2Proof.Machine
end

