-- ==== Sys2Proof/Machine/HostCommands.lean ====
section
/-! DEFINITION. The commands of this family, one meaning each: The host's register, memory and configuration requests, the enables and counter clears (00_scope.md, 02_operating_modes.md, 13_host_endpoint.md). -/

namespace Sys2Proof.Machine

/-- REGISTER_WRITE (R13): A write to a BAR0 register that has no row of its own sets its fields according to their access codes. -/
def execRegisterWrite (off : BitVec 26) (size : Size) (val : BitVec 64) (s : State) : Host.Outcome State Fault Refusal :=
  .next (onHost (registerWrite off.toNat size val.toNat) s)

/-- REG64_LOW_READ (R9): A 32-bit read of the low word of a 64-bit register fills that register's latch with the high word and marks it pending. -/
def execReg64LowRead (off : BitVec 26) (s : State) : Host.Outcome State Fault Refusal :=
  .next (onHost (reg64LowRead off.toNat) s)

/-- REG64_HIGH_WRITE (R10): A 32-bit write of the high word of a 64-bit register makes the register take effect with the held low word. -/
def execReg64HighWrite (off : BitVec 26) (val : BitVec 32) (s : State) : Host.Outcome State Fault Refusal :=
  .next (onHost (reg64HighWrite off.toNat val.toNat) s)

/-- MEMORY_READ_REQUEST (R361): A host memory read to BAR0, BAR2 or the Expansion ROM is split into register or HBM accesses and completed. -/
def execMemoryReadRequest (r : ReadReq) (s : State) : Host.Outcome State Fault Refusal :=
  .next (onHost (memoryRead r) s)

/-- MEMORY_WRITE_REQUEST (R361): A host posted write to BAR0 or BAR2 is applied in arrival order, one access at a time. -/
def execMemoryWriteRequest (w : WriteReq) (s : State) : Host.Outcome State Fault Refusal :=
  .next (onHost (memoryWrite w) s)

/-- CONFIG_REQUEST (R355): A configuration request completes with Request Retry Status until the header is loaded, and normally after that. -/
def execConfigRequest (c : CfgReq) (s : State) : Host.Outcome State Fault Refusal :=
  .next (onHost (configRequest c) s)

/-- BUS_MASTER_ENABLE_CLEAR (R382): Clearing Bus Master Enable stops every request the endpoint issues; delivery and DMA go master-off. -/
def execBusMasterEnableClear (s : State) : Host.Outcome State Fault Refusal :=
  .next (onHost busMasterClear s)

/-- POWER_STATE_CHANGE (R371): A write of the power state to D3hot or D0 holds or releases requests and interrupts, with no internal reset. -/
def execPowerStateChange (d3 : Bool) (s : State) : Host.Outcome State Fault Refusal :=
  .next (onHost (powerState d3) s)

/-- VECTOR_UNMASK (R369): An interrupt vector becomes unmasked, and its pending message is sent. -/
def execVectorUnmask (v : Fin 2048) (s : State) : Host.Outcome State Fault Refusal :=
  .next (onHost (vectorUnmask v) s)

/-- ENABLE_WRITE (R58): A write of the EN bit of a block enable drives the common enable state machine. -/
def execEnableWrite (b : Block) (en : Bool) (s : State) : Host.Outcome State Fault Refusal :=
  .next (onHost (enableWrite b en) s)

/-- ENABLE_SETUP_COMPLETE (R58): A block's set-up completes, and the block moves from ENABLING to ENABLED. -/
def execEnableSetupComplete (b : Block) (s : State) : Host.Outcome State Fault Refusal :=
  .next (onMain (enableSetupComplete b) s)

/-- QUIESCE_COMPLETE (R58): The in-flight work of a QUIESCING block ends at its item boundary, and the block moves to DISABLED or to a pending ENABLING. -/
def execQuiesceComplete (b : Block) (s : State) : Host.Outcome State Fault Refusal :=
  .next (onMain (quiesceComplete b) s)

/-- COUNTER_CLEAR_GO (R190): A write of GO to a block's CNT_CLR register clears that block's counters. -/
def execCounterClearGo (b : CntBlock) (s : State) : Host.Outcome State Fault Refusal :=
  .next (onHost (counterClear b) s)

end Sys2Proof.Machine
end

