-- ==== Sys2Proof/Machine/LaneCommands.lean ====
section
/-! DEFINITION. The commands of this family, one meaning each: Camera lanes and streams (06_camera_lanes.md). -/

namespace Sys2Proof.Machine

/-- LANE_SIGNAL_DETECT (R163): Signal and clock are recovered on every lane of the group, and training moves to ALIGN. -/
def execLaneSignalDetect (n : LaneIx) (disc : Option Discovered) (s : State) : Host.Outcome State Fault Refusal :=
  .next (onMain (laneSignalDetect n disc) s)

/-- LANE_NO_SIGNAL_TIMEOUT (R163): No signal is found for 100 ms in DETECT, so NO_SIGNAL is set and detection repeats. -/
def execLaneNoSignalTimeout (n : LaneIx) (s : State) : Host.Outcome State Fault Refusal :=
  .next (onMain (laneNoSignal n) s)

/-- LANE_ALIGNED (R163): The lane reaches alignment or block lock, and training moves to DESKEW or UP. -/
def execLaneAligned (n : LaneIx) (s : State) : Host.Outcome State Fault Refusal :=
  .next (onMain (laneAligned n) s)

/-- LANE_ALIGN_TIMEOUT (R163): A lane is not aligned within 10 ms, so training returns to DETECT. -/
def execLaneAlignTimeout (n : LaneIx) (s : State) : Host.Outcome State Fault Refusal :=
  .next (onMain (laneAlignTimeout n) s)

/-- LANE_DESKEW_DONE (R163): The skew of every member is measured, and the group goes UP or back to DETECT. -/
def execLaneDeskewDone (n : LaneIx) (skews : List (BitVec 16)) (s : State) : Host.Outcome State Fault Refusal :=
  .next (onMain (laneDeskewDone n (skews.map BitVec.toNat)) s)

/-- LANE_LINK_LOSS (R163): A trained lane loses signal, clock, alignment or block lock, and training returns to DETECT. -/
def execLaneLinkLoss (n : LaneIx) (cause : LossCause) (s : State) : Host.Outcome State Fault Refusal :=
  .next (onMain (laneLinkLoss n cause) s)

/-- LANE_RETRAIN_DONE (R163): The receivers have been reset for 1 µs in RETRAIN, and training moves to DETECT. -/
def execLaneRetrainDone (n : LaneIx) (s : State) : Host.Outcome State Fault Refusal :=
  .next (onMain (laneRetrainDone n) s)

/-- CAM_CTL_READ (R167): A GO in CAM_CTL_CMD with WRITE = 0 sends a read command to the camera. -/
def execCamCtlRead (n : LaneIx) (len : BitVec 9) (s : State) : Host.Outcome State Fault Refusal :=
  .next (onHost (camCtl n false len.toNat) s)

/-- CAM_CTL_WRITE (R167): A GO in CAM_CTL_CMD with WRITE = 1 sends a write command to the camera. -/
def execCamCtlWrite (n : LaneIx) (len : BitVec 9) (s : State) : Host.Outcome State Fault Refusal :=
  .next (onHost (camCtl n true len.toNat) s)

/-- CAM_CTL_ANSWER (R167): The camera answers a control command, and DONE and ERR are set. -/
def execCamCtlAnswer (n : LaneIx) (code : BitVec 16) (x : CtlAnswer) (s : State) : Host.Outcome State Fault Refusal :=
  .next (onMain (camCtlAnswer n code.toNat x) s)

/-- CAM_CTL_TIMEOUT (R167): CAM_CTL_TIMEOUT expires with no answer, and the command ends with a timeout. -/
def execCamCtlTimeout (n : LaneIx) (s : State) : Host.Outcome State Fault Refusal :=
  .next (onMain (camCtlTimeout n) s)

/-- CXP_EVENT_PACKET (R169): A CoaXPress event packet received on a master lane enters the raw receive FIFO. -/
def execCxpEventPacket (n : LaneIx) (x : EventPacket) (s : State) : Host.Outcome State Fault Refusal :=
  .next (onMain (cxpEventPacket n x.crcOk x.data) s)

/-- CXP_STREAM_PACKET (R182): A CoaXPress stream packet is received, ordered, checked and buffered, or dropped. -/
def execCxpStreamPacket (n : LaneIx) (x : CxpPacket) (s : State) : Host.Outcome State Fault Refusal :=
  .next (onMain (cxpStreamPacket n x) s)

/-- ETH_FRAME_RECEIVE (R172): An Ethernet frame received on a port is filtered and passed to its destination. -/
def execEthFrameReceive (n : LaneIx) (x : EthFrame) (s : State) : Host.Outcome State Fault Refusal :=
  .next (onMain (ethFrameReceive n x) s)

/-- GVSP_RESEND_WAIT (R175): A gap in packet IDs has stayed open for WAIT, so a PACKETRESEND is sent. -/
def execGvspResendWait (st : StreamIx) (s : State) : Host.Outcome State Fault Refusal :=
  .next (onMain (gvspResendWait st) s)

/-- GVSP_BLOCK_TIMEOUT (R175): A block is still incomplete TIMEOUT after its leader; it is closed and its lines are reported missing. -/
def execGvspBlockTimeout (st : StreamIx) (s : State) : Host.Outcome State Fault Refusal :=
  .next (onMain (gvspBlockTimeout st) s)

/-- GVCP_HEARTBEAT_SEND (R176): The firmware sends the camera its control-channel heartbeat. -/
def execGvcpHeartbeatSend (n : LaneIx) (s : State) : Host.Outcome State Fault Refusal :=
  .next (onMain (gvcpHeartbeat n) s)

/-- RAW_RX_POP (R177): A write of CAM_RAW_RX_POP.GO releases the head entry of the raw FIFO. -/
def execRawRxPop (n : LaneIx) (s : State) : Host.Outcome State Fault Refusal :=
  .next (onHost (rawRxPop n) s)

/-- RAW_TX_SEND (R178): A write of CAM_RAW_TX_CTRL.GO sends the raw frame, or sets REFUSED. -/
def execRawTxSend (n : LaneIx) (len : BitVec 12) (s : State) : Host.Outcome State Fault Refusal :=
  .next (onHost (rawTxSend n len.toNat) s)

/-- CAMERA_LINE (R185): A line delivered by a camera, or lost, is paired with its stream's next tag sample and passed on. -/
def execCameraLine (st : StreamIx) (x : Option CamLine) (s : State) : Host.Outcome State Fault Refusal :=
  .next (onMain (cameraLine st x) s)

end Sys2Proof.Machine
end

