-- ==== Sys2Proof/Machine/LanternCommands.lean ====
section
/-! DEFINITION. The commands of this family, one meaning each: Lantern, its clocks, and the rails (17_lantern.md, 21_pins_power_package.md). -/

namespace Sys2Proof.Machine

/-- LANTERN_EDGE (R473): Lantern counts a filtered edge of a port into its shadow count. -/
def execLanternEdge (p : PortIx) (a b : Bool) (s : State) : Host.Outcome State Fault Refusal :=
  .next (onAon (lanternEdge p a b) s)

/-- LANTERN_LINE_BREAK_ENTER (R475): A pair stays below 100 mV for 100 µs, and Lantern marks line break. -/
def execLanternLineBreakEnter (p : PortIx) (pair : Pair) (s : State) : Host.Outcome State Fault Refusal :=
  .next (onAon (lanternBreakEnter p pair.num) s)

/-- LANTERN_LINE_BREAK_CLEAR (R475): A pair stays above 200 mV for 100 µs, and Lantern leaves line break. -/
def execLanternLineBreakClear (p : PortIx) (pair : Pair) (s : State) : Host.Outcome State Fault Refusal :=
  .next (onAon (lanternBreakClear p pair.num) s)

/-- LANTERN_TICK (R484): Each millisecond of DUC, Lantern updates the shadow speeds and evaluates its rules. -/
def execLanternTick (homes : BitVec 8) (s : State) : Host.Outcome State Fault Refusal :=
  .next (onAon (lanternTick homes.toNat) s)

/-- RULE_ENABLE_WRITE (R486): A write of LAN_RULE_CFG.EN arms a rule or returns it to IDLE. -/
def execRuleEnableWrite (k : RuleIx) (en : Bool) (s : State) : Host.Outcome State Fault Refusal :=
  .next (onHost (ruleEnableWrite k en) s)

/-- LAN_OVR_CLEAR (R489): Software clears a LAN_OVR bit, which ends that pin's override. -/
def execLanOvrClear (mask : BitVec 32) (s : State) : Host.Outcome State Fault Refusal :=
  .next (onHost (lanOvrClear mask.toNat) s)

/-- XTAL_FAIL (R482): No crystal edge arrives for 1 ms, so DUC falls back to the RC clock. -/
def execXtalFail (s : State) : Host.Outcome State Fault Refusal :=
  .next (onAon xtalFail s)

/-- XTAL_GOOD (R482): After 1 s of crystal edges with no gap, XTAL_OK sets. -/
def execXtalGood (s : State) : Host.Outcome State Fault Refusal :=
  .next (onAon xtalGood s)

/-- RC_TRIM (R481): Once per second, Lantern trims its RC clock against the crystal. -/
def execRcTrim (s : State) : Host.Outcome State Fault Refusal :=
  .next (onAon rcTrim s)

/-- DUC_CHECKPOINT (R483): DUC reaches a multiple of 2^20 µs and is written to the next MRAM checkpoint slot. -/
def execDucCheckpoint (s : State) : Host.Outcome State Fault Refusal :=
  .next (onAon ducCheckpoint s)

/-- AON_POWER_ON (R483): VDD_AON comes within tolerance; the AON registers take their power-on values and DUC resumes. -/
def execAonPowerOn (s : State) : Host.Outcome State Fault Refusal :=
  .next (anyTime aonPowerOn s)

/-- VDD_AON_LOSS (R556): VDD_AON leaves tolerance while a main rail is up, so the main domain is held in reset. -/
def execVddAonLoss (s : State) : Host.Outcome State Fault Refusal :=
  .next (anyTime vddAonLoss s)

/-- MAIN_RAILS_UP (R490): The main rails become good; the edge front ends start and Lantern writes MAIN_ON. -/
def execMainRailsUp (s : State) : Host.Outcome State Fault Refusal :=
  .next (anyTime mainRailsUp s)

/-- MAIN_RAILS_DOWN (R490): The main rails fall; the device enters SENTINEL and Lantern writes MAIN_OFF. -/
def execMainRailsDown (s : State) : Host.Outcome State Fault Refusal :=
  .next (anyTime mainRailsDown s)

/-- PWRFAIL_FALL (R507): A recognised fall of PWRFAIL_N requests HOLD and starts a recorder flush. -/
def execPwrfailFall (s : State) : Host.Outcome State Fault Refusal :=
  .next (anyTime pwrfailFall s)

/-- PWRFAIL_RISE (R555): PWRFAIL_N rises and lets a pending boot start. -/
def execPwrfailRise (s : State) : Host.Outcome State Fault Refusal :=
  .next (anyTime pwrfailRise s)

end Sys2Proof.Machine
end

