-- ==== Sys2Proof/Machine/MailboxCommands.lean ====
section
/-! DEFINITION. The commands of this family, one meaning each: Mailboxes and Edusk commands (14_mailbox_commands.md). -/

namespace Sys2Proof.Machine

/-- MBX_GO (R390): A doorbell with GO = 1 takes an IDLE or DONE mailbox to BUSY, or sets DB_ERR. -/
def execMbxGo (m : MbxIx) (s : State) : Host.Outcome State Fault Refusal :=
  .next (onHost (mbxGo m) s)

/-- MBX_ABORT (R394): A doorbell with ABORT = 1 asks a BUSY mailbox's command to stop. -/
def execMbxAbort (m : MbxIx) (s : State) : Host.Outcome State Fault Refusal :=
  .next (onHost (mbxAbort m) s)

/-- MBX_ACK (R390): Software writes 1 to MBX_STATUS.DONE, and the mailbox returns to IDLE. -/
def execMbxAck (m : MbxIx) (s : State) : Host.Outcome State Fault Refusal :=
  .next (onHost (mbxAck m) s)

/-- MP_TAKE_COMMAND (R395): The MP takes the next command in doorbell order and checks it by R401. -/
def execMpTakeCommand (sig : Option SigFact) (s : State) : Host.Outcome State Fault Refusal :=
  .next (onMain (mpTake sig) s)

/-- LONG_COMMAND_COMPLETE (R395): A long command running in the background completes or stops, and its mailbox goes DONE. -/
def execLongCommandComplete (m : MbxIx) (x : LongEnd) (s : State) : Host.Outcome State Fault Refusal :=
  .next (onMain (longComplete m x) s)

/-- FW_WATCHDOG (R398): The firmware watchdog fires; READY clears and every BUSY mailbox completes with FW_FAULT. -/
def execFwWatchdog (mem : Option (BitVec 35)) (s : State) : Host.Outcome State Fault Refusal :=
  .next (onMain (fwWatchdog mem) s)

/-- NOP (R409): The Edusk NOP command echoes its parameters. -/
def execNop (m : MbxIx) (s : State) : Host.Outcome State Fault Refusal :=
  .next (onMain (runOp 0x0001 m edNop) s)

/-- GET_VERSION (R409): The GET_VERSION command returns the firmware, library, ROM and Edusk versions. -/
def execGetVersion (m : MbxIx) (s : State) : Host.Outcome State Fault Refusal :=
  .next (onMain (runOp 0x0002 m edGetVersion) s)

/-- GET_IDENTITY (R409): The GET_IDENTITY command returns the fused identity. -/
def execGetIdentity (m : MbxIx) (s : State) : Host.Outcome State Fault Refusal :=
  .next (onMain (runOp 0x0003 m edGetIdentity) s)

/-- AUTH_NONCE (R402): The AUTH_NONCE command gives the mailbox a fresh one-time nonce. -/
def execAuthNonce (m : MbxIx) (s : State) : Host.Outcome State Fault Refusal :=
  .next (onMain (runOp 0x0004 m edAuthNonce) s)

/-- MODE_GET (R409): The MODE_GET command returns MODE_STATUS, MODE_CAUSE and DUC. -/
def execModeGet (m : MbxIx) (s : State) : Host.Outcome State Fault Refusal :=
  .next (onMain (runOp 0x0100 m edModeGet) s)

/-- SERVICE_ENTER (R410): The authenticated SERVICE_ENTER command enters SERVICE from IDLE or HOLD. -/
def execServiceEnter (m : MbxIx) (s : State) : Host.Outcome State Fault Refusal :=
  .next (onMain (runOp 0x0101 m edServiceEnter) s)

/-- SERVICE_EXIT (R410): The authenticated SERVICE_EXIT command leaves SERVICE for IDLE or BOOT. -/
def execServiceExit (m : MbxIx) (s : State) : Host.Outcome State Fault Refusal :=
  .next (onMain (runOp 0x0102 m edServiceExit) s)

/-- CALIBRATE (R410): The CALIBRATE command runs the selected calibration routines in mode CALIBRATE. -/
def execCalibrate (m : MbxIx) (s : State) : Host.Outcome State Fault Refusal :=
  .next (onMain (runOp 0x0103 m edCalibrate) s)

/-- PARAM_LIST (R415): The PARAM_LIST command enumerates parameter IDs from START. -/
def execParamList (m : MbxIx) (s : State) : Host.Outcome State Fault Refusal :=
  .next (onMain (runOp 0x0200 m edParamList) s)

/-- PARAM_DESC (R415): The PARAM_DESC command returns descriptors of the listed parameters. -/
def execParamDesc (m : MbxIx) (s : State) : Host.Outcome State Fault Refusal :=
  .next (onMain (runOp 0x0201 m edParamDesc) s)

/-- PARAM_GET (R418): The PARAM_GET command returns ACTIVE or SHADOW parameter values. -/
def execParamGet (m : MbxIx) (s : State) : Host.Outcome State Fault Refusal :=
  .next (onMain (runOp 0x0202 m edParamGet) s)

/-- PARAM_SET (R416): The PARAM_SET command checks all its entries and then applies or shadows them. -/
def execParamSet (m : MbxIx) (s : State) : Host.Outcome State Fault Refusal :=
  .next (onMain (runOp 0x0203 m edParamSet) s)

/-- RECIPE_LOAD (R411): The RECIPE_LOAD command copies and verifies a recipe image into a slot. -/
def execRecipeLoad (m : MbxIx) (s : State) : Host.Outcome State Fault Refusal :=
  .next (onMain (runOp 0x0300 m edRecipeLoad) s)

/-- RECIPE_STAGE (R412): The RECIPE_STAGE command writes a slot's settings and tables into the shadow store. -/
def execRecipeStage (m : MbxIx) (x : StageEvents) (s : State) : Host.Outcome State Fault Refusal :=
  .next (onMain (runOp 0x0301 m (edRecipeStage x.image x.upto)) s)

/-- RECIPE_COMMIT (R414): The RECIPE_COMMIT command writes CHG_COMMIT after earlier stages and reports the result. -/
def execRecipeCommit (m : MbxIx) (s : State) : Host.Outcome State Fault Refusal :=
  .next (onMain (runOp 0x0302 m edRecipeCommit) s)

/-- RECIPE_FREE (R244): The RECIPE_FREE command empties a recipe slot that is not ACTIVE or OLD. -/
def execRecipeFree (m : MbxIx) (s : State) : Host.Outcome State Fault Refusal :=
  .next (onMain (runOp 0x0303 m edRecipeFree) s)

/-- RECIPE_INFO (R409): The RECIPE_INFO command returns a slot's state and contents. -/
def execRecipeInfo (m : MbxIx) (s : State) : Host.Outcome State Fault Refusal :=
  .next (onMain (runOp 0x0304 m edRecipeInfo) s)

/-- REC_FLUSH (R504): The REC_FLUSH command flushes the ring and reports the records written. -/
def execRecFlush (m : MbxIx) (s : State) : Host.Outcome State Fault Refusal :=
  .next (onMain (runOp 0x0400 m edRecFlush) s)

/-- REC_READ (R409): The REC_READ command returns records by explicit index from an MRAM area. -/
def execRecRead (m : MbxIx) (s : State) : Host.Outcome State Fault Refusal :=
  .next (onMain (runOp 0x0401 m edRecRead) s)

/-- REC_CLEAR (R511): The authenticated REC_CLEAR command empties the circulating area. -/
def execRecClear (m : MbxIx) (s : State) : Host.Outcome State Fault Refusal :=
  .next (onMain (runOp 0x0402 m edRecClear) s)

/-- REC_INFO (R409): The REC_INFO command returns the recorder's indices and levels. -/
def execRecInfo (m : MbxIx) (s : State) : Host.Outcome State Fault Refusal :=
  .next (onMain (runOp 0x0403 m edRecInfo) s)

/-- FW_WRITE (R535): The FW_WRITE command checks an image and programs it into the bank that is not running. -/
def execFwWrite (m : MbxIx) (s : State) : Host.Outcome State Fault Refusal :=
  .next (onMain (runOp 0x0500 m edFwWrite) s)

/-- FW_SELECT (R536): The FW_SELECT command checks a bank and names it in the directory for the next boot. -/
def execFwSelect (m : MbxIx) (s : State) : Host.Outcome State Fault Refusal :=
  .next (onMain (runOp 0x0501 m edFwSelect) s)

/-- BOARD_READ (R534): The BOARD_READ command returns bytes of the flash board area. -/
def execBoardRead (m : MbxIx) (s : State) : Host.Outcome State Fault Refusal :=
  .next (onMain (runOp 0x0502 m edBoardRead) s)

/-- BOARD_WRITE (R534): The authenticated BOARD_WRITE command writes the flash board area. -/
def execBoardWrite (m : MbxIx) (s : State) : Host.Outcome State Fault Refusal :=
  .next (onMain (runOp 0x0503 m edBoardWrite) s)

/-- CHAIN_INFO (R409): The CHAIN_INFO command returns, on a manager, the state of each worker. -/
def execChainInfo (m : MbxIx) (s : State) : Host.Outcome State Fault Refusal :=
  .next (onMain (runOp 0x0600 m edChainInfo) s)

/-- AGEING_READ (R542): The AGEING_READ command returns the drift and state of each island's ageing monitor. -/
def execAgeingRead (m : MbxIx) (s : State) : Host.Outcome State Fault Refusal :=
  .next (onMain (runOp 0x0601 m edAgeingRead) s)

/-- TETHER_MBX_TIMEOUT (R408): A forwarded command has had no response within TETHER_MBX_TIMEOUT and ends with TETHER_TIMEOUT. -/
def execTetherMbxTimeout (s : State) : Host.Outcome State Fault Refusal :=
  .next (onMain tetherMbxTimeout s)

end Sys2Proof.Machine
end

