-- ==== Sys2Proof/Machine/MaintCommands.lean ====
section
/-! DEFINITION. The commands of this family, one meaning each: Scrubbing, ageing, keys, temperature, link events and PTP messages (19_interrupts_and_fault_windows.md, 20_boot_identity_lifetime.md, 21_pins_power_package.md). -/

namespace Sys2Proof.Machine

/-- PATROL_SCRUB (R527): The patrol scrubber reads the next part of HBM in a traffic gap. -/
def execPatrolScrub (addr : BitVec 35) (x : EccResult) (s : State) : Host.Outcome State Fault Refusal :=
  .next (onMain (patrolScrub addr.toNat x) s)

/-- AGEING_MEASURE (R542): Every powered hour the firmware measures each ageing monitor and sets its state. -/
def execAgeingMeasure (drifts : List (BitVec 16)) (s : State) : Host.Outcome State Fault Refusal :=
  .next (onMain (ageingMeasure drifts) s)

/-- POWERED_HOUR (R544): A powered hour is counted, and every 43 830 hours an MRAM refresh starts. -/
def execPoweredHour (s : State) : Host.Outcome State Fault Refusal :=
  .next (onMain poweredHour s)

/-- MRAM_REFRESH_UNIT (R544): Each millisecond of a refresh, one MRAM unit is rewritten; the last unit ends the refresh. -/
def execMramRefreshUnit (s : State) : Host.Outcome State Fault Refusal :=
  .next (onMain refreshUnit s)

/-- SEC_KEY_PROGRAM (R539): SEC_KEY_CTRL with OP PROGRAM fuses an OEM key's hash and roles and stores the key. -/
def execSecKeyProgram (slot : BitVec 2) (recipe command : Bool) (s : State) : Host.Outcome State Fault Refusal :=
  .next (onHost (keyGo slot.toNat 0 recipe command) s)

/-- SEC_KEY_REVOKE (R539): SEC_KEY_CTRL with OP REVOKE fuses a slot's revoke bit. -/
def execSecKeyRevoke (slot : BitVec 2) (s : State) : Host.Outcome State Fault Refusal :=
  .next (onHost (keyGo slot.toNat 1 false false) s)

/-- SEC_KEY_RESTORE (R539): SEC_KEY_CTRL with OP RESTORE rewrites the key-store copies of a slot. -/
def execSecKeyRestore (slot : BitVec 2) (s : State) : Host.Outcome State Fault Refusal :=
  .next (onHost (keyGo slot.toNat 2 false false) s)

/-- SEC_KEY_OP_DONE (R539): A key operation completes, sets its RESULT and writes KEY_PROGRAMMED. -/
def execSecKeyOpDone (fuseErr : Bool) (s : State) : Host.Outcome State Fault Refusal :=
  .next (onMain (keyDone fuseErr) s)

/-- THERMAL_SENSE (R565): Every 10 ms the firmware reads the junction sensor and compares the reading with TJ_WARN. -/
def execThermalSense (mC : Int) (s : State) : Host.Outcome State Fault Refusal :=
  .next (onMain (thermalSense mC) s)

/-- THERMTRIP (R565): The junction reaches 115 °C, and the hardware comparator asserts THERMTRIP_N. -/
def execThermtrip (s : State) : Host.Outcome State Fault Refusal :=
  .next (anyTime thermtrip s)

/-- PCIE_LINK_EVENT (R385): The PCIe link changes speed or width, enters Recovery or comes up, which sets HEP_LINK_EVT and raises the endpoint's LINK source. -/
def execPcieLinkEvent (x : LinkEvt) (s : State) : Host.Outcome State Fault Refusal :=
  .next (onMain (linkEvent x) s)

/-- PTP_EVENT_TRANSMIT (R117): With HOST_STACK = 0, the MP firmware sends a PTP event message (Sync, Delay_Req, Pdelay_Req or Pdelay_Resp) on a port at its message interval, and its egress stamp is queued. -/
def execPtpEventTransmit (n : LaneIx) (ty : BitVec 4) (seq : BitVec 16) (s : State) : Host.Outcome State Fault Refusal :=
  .next (onMain (ptpEventTransmit n ty.toNat seq.toNat) s)

end Sys2Proof.Machine
end

