-- ==== Sys2Proof/Machine/ModeCommands.lean ====
section
/-! DEFINITION. The commands of this family, one meaning each: The operating modes (02_operating_modes.md). -/

namespace Sys2Proof.Machine

/-- MODE_REQUEST (R50): A write of MODE_REQ.REQ asks for a mode change, which the device accepts or refuses by Table 2-3. -/
def execModeRequest (req : BitVec 4) (s : State) : Host.Outcome State Fault Refusal :=
  .next (onHost (modeRequest req.toNat) s)

/-- HOLD_LIMIT_EXPIRE (R46): A stream's frame boundary has not come within HOLD_LIMIT, so the stream stops triggering and its open frame closes short. -/
def execHoldLimitExpire (st : StreamIx) (s : State) : Host.Outcome State Fault Refusal :=
  .next (onMain (holdLimit st) s)

/-- STOP_REACHED (R571): In DRAIN or HOLD, every stream, stake and generator has stopped, and the pins go to their safe levels. -/
def execStopReached (s : State) : Host.Outcome State Fault Refusal :=
  .next (onMain stopReached s)

/-- DRAIN_COMPLETE (R48): Every frame triggered before the stop has been delivered or discarded, and the device enters ARMED. -/
def execDrainComplete (s : State) : Host.Outcome State Fault Refusal :=
  .next (onMain drainComplete s)

/-- DRAIN_TIMEOUT (R48): DRAIN_TIMEOUT expires after the stop: the remaining frames are dropped, the affected queues are flushed and the device enters ARMED. -/
def execDrainTimeout (s : State) : Host.Outcome State Fault Refusal :=
  .next (onMain drainTimeout s)

/-- CALIBRATE_ROUTINE_END (R410): A calibration routine completes or aborts, and the device returns to the mode it came from. -/
def execCalibrateRoutineEnd (done failed : BitVec 3) (meas : CalResults) (aborted : Bool) (s : State) : Host.Outcome State Fault Refusal :=
  .next (onMain (calibrateRoutineEnd done.toNat failed.toNat meas.linkDly.toNat (meas.skews.map (fun p => (p.1.val, p.2.toNat))) (meas.flats.map (fun p => (p.1.val, p.2.map (fun x => (x.1.toNat, x.2.toNat))))) aborted) s)

end Sys2Proof.Machine
end

