-- ==== Sys2Proof/Machine/RecorderCommands.lean ====
section
/-! DEFINITION. The commands of this family, one meaning each: The event recorder, interrupts and fault windows (18_event_recorder.md, 19_interrupts_and_fault_windows.md). -/

namespace Sys2Proof.Machine

/-- RECORD_OFFER (R499): A source offers a record to its record port, or to the pending latch. -/
def execRecordOffer (p : RecPortIx) (r : RecOffer) (s : State) : Host.Outcome State Fault Refusal :=
  .next (onAonIf (decide (p.val = 3)) (recordOffer p r) s)

/-- RECORD_ACCEPT (R499): The recorder accepts one record into the ring, coalescing it or writing LOST where due. -/
def execRecordAccept (s : State) : Host.Outcome State Fault Refusal :=
  .next (onMain recordAccept s)

/-- MRAM_RECORD_WRITE (R505): The MRAM controller writes and verifies one record. -/
def execMramRecordWrite (fails : Nat) (x : MemEcc) (s : State) : Host.Outcome State Fault Refusal :=
  .next (onAon (mramRecordWrite fails x) s)

/-- FLUSH_COMPLETE (R504): A flush ends; FLUSH_DONE is raised and any queued flush starts. -/
def execFlushComplete (s : State) : Host.Outcome State Fault Refusal :=
  .next (onMain flushComplete s)

/-- REC_CTRL_FLUSH (R503): A write of REC_CTRL.FLUSH starts a flush. -/
def execRecCtrlFlush (s : State) : Host.Outcome State Fault Refusal :=
  .next (onHost flushTrigger s)

/-- REC_CTRL_REWIND (R515): A write of REC_CTRL.REWIND moves the cursor to the rewind mark. -/
def execRecCtrlRewind (s : State) : Host.Outcome State Fault Refusal :=
  .next (onHost recRewind s)

/-- REC_MARK_WRITE (R515): A write of REC_MARK sets the rewind mark and MARK_VALID. -/
def execRecMarkWrite (v : BitVec 32) (s : State) : Host.Outcome State Fault Refusal :=
  .next (onHost (recMarkWrite v.toNat) s)

/-- REC_CFG_WRITE (R513): A write of REC_CFG that changes AREA resets the cursor to the new area's oldest record. -/
def execRecCfgWrite (v : BitVec 32) (s : State) : Host.Outcome State Fault Refusal :=
  .next (onHost (recCfgWrite v.toNat) s)

/-- REC_CURSOR_WRITE (R513): A write of REC_CURSOR sets the cursor within the area's bounds. -/
def execRecCursorWrite (v : BitVec 32) (s : State) : Host.Outcome State Fault Refusal :=
  .next (onHost (recCursorWrite v.toNat) s)

/-- REC_WINDOW_READ (R513): A read of the record window that covers the cursor's last DW advances the cursor. -/
def execRecWindowRead (off : Fin 1024) (len : Nat) (s : State) : Host.Outcome State Fault Refusal :=
  .next (onHost (recWindowRead off len) s)

/-- INT_ENABLE_WRITE (R519): A write of INT_ENABLE that sets an enable on a set source requests an interrupt. -/
def execIntEnableWrite (g : Fin 48) (v : BitVec 32) (s : State) : Host.Outcome State Fault Refusal :=
  .next (onHost (fun s => intEnableWrite s g v.toNat) s)

/-- INT_TEST (R520): A write of INT_TEST.GO sets the named source's status bit. -/
def execIntTest (src : BitVec 11) (s : State) : Host.Outcome State Fault Refusal :=
  .next (onHost (fun s => intTest s src.toNat true) s)

/-- FAULT_WINDOW_INCREMENT (R521): An error-counter increment reaches its fault window and is counted and recorded. -/
def execFaultWindowIncrement (w : WindowIx) (n : BitVec 16) (s : State) : Host.Outcome State Fault Refusal :=
  .next (onAonIf (decide (120 ≤ w.val)) (fun s => windowInc s w n.toNat) s)

/-- FAULT_WINDOW_SUBPERIOD (R521): A sub-period boundary passes; the count is re-evaluated and may return the window to CLEAR. -/
def execFaultWindowSubperiod (w : WindowIx) (s : State) : Host.Outcome State Fault Refusal :=
  .next (onAonIf (decide (120 ≤ w.val)) (fun s => windowSubperiod s w) s)

/-- FAULT_WINDOW_CONFIG_WRITE (R522): A write of INT_FW_CFG or INT_FW_K clears the window and restarts its sub-periods. -/
def execFaultWindowConfigWrite (w : WindowIx) (k : Bool) (v : BitVec 32) (s : State) : Host.Outcome State Fault Refusal :=
  .next (onHost (fun s => if k then windowKWrite s w v.toNat else windowCfgWrite s w v.toNat) s)

end Sys2Proof.Machine
end

