-- ==== Sys2Proof/Machine/StakeCommands.lean ====
section
/-! DEFINITION. The commands of this family, one meaning each: Stakes, trigger pins and CoaXPress triggers (05_stakes_and_triggers.md). -/

namespace Sys2Proof.Machine

/-- STAKE_FIRE (R134): The compare position reaches the armed target, so the stake fires its destinations and arms its next target. -/
def execStakeFire (n : StakeIx) (reads : List MemEcc) (s : State) : Host.Outcome State Fault Refusal :=
  .next (onMain (stakeFire n reads) s)

/-- STAKE_SEEK_COMPLETE (R139): A stake's seek completes and arms the first firing that lies ahead. -/
def execStakeSeekComplete (n : StakeIx) (reads : List MemEcc) (s : State) : Host.Outcome State Fault Refusal :=
  .next (onMain (stakeSeekComplete n reads) s)

/-- STK_TABLE_ADDR_WRITE (R155): A write of STK_TW_ADDR loads the addressed entry into the table window. -/
def execStkTableAddrWrite (v : BitVec 32) (s : State) : Host.Outcome State Fault Refusal :=
  .next (onHost (tableAddrWrite (v.toNat % 131072)) s)

/-- STK_TABLE_DATA3_WRITE (R155): A write of STK_TW_DATA3 stores the whole entry, advances ADDR and may re-arm a stake. -/
def execStkTableData3Write (v : BitVec 32) (s : State) : Host.Outcome State Fault Refusal :=
  .next (onHost (tableData3Write v.toNat) s)

/-- STK_TABLE_DATA3_READ (R155): A read of STK_TW_DATA3 advances ADDR and loads the next entry. -/
def execStkTableData3Read (s : State) : Host.Outcome State Fault Refusal :=
  .next (onHost data3Read s)

/-- STAKE_REARM (R138): A write of STK_REARM.GO to a DONE stake makes it seek again. -/
def execStakeRearm (n : StakeIx) (s : State) : Host.Outcome State Fault Refusal :=
  .next (onHost (stakeRearm n) s)

/-- PIN_PULSE_END (R143): A trigger pin's pulse width expires, and the pin returns to its inactive level. -/
def execPinPulseEnd (p : PinIx) (s : State) : Host.Outcome State Fault Refusal :=
  .next (onMain (pinPulseEnd p) s)

/-- CXP_TRIGGER_SEND (R147): At the next uplink character boundary, the rising-edge CoaXPress trigger packet is sent with its delay field. -/
def execCxpTriggerSend (n : LaneIx) (s : State) : Host.Outcome State Fault Refusal :=
  .next (onMain (cxpTriggerSend n) s)

/-- CXP_FALL_TRIGGER_SEND (R147): The falling-edge trigger packet is sent once its instant and the rising packet allow it. -/
def execCxpFallTriggerSend (n : LaneIx) (s : State) : Host.Outcome State Fault Refusal :=
  .next (onMain (cxpFallSend n) s)

end Sys2Proof.Machine
end

