-- ==== Sys2Proof/Machine/TimeCommands.lean ====
section
/-! DEFINITION. The commands of this family, one meaning each: Time domains, PTP and pulse generators (04_time_domains.md). -/

namespace Sys2Proof.Machine

/-- DOMAIN_SET (R101): A write of the high word of TMB_DOM_SET loads the domain on the next TIM edge. -/
def execDomainSet (d : DomIx) (hi : BitVec 32) (s : State) : Host.Outcome State Fault Refusal :=
  .next (onHost (domainSetHigh d hi.toNat) s)

/-- DOMAIN_ADJUST (R101): A write of the high word of TMB_DOM_ADJ adds the signed value to the domain on the next TIM edge. -/
def execDomainAdjust (d : DomIx) (hi : BitVec 32) (s : State) : Host.Outcome State Fault Refusal :=
  .next (onHost (domainAdjustHigh d hi.toNat) s)

/-- TIME_SNAPSHOT (R102): A write of TMB_SNAP_CTRL.GO captures all four domains and DUC. -/
def execTimeSnapshot (s : State) : Host.Outcome State Fault Refusal :=
  .next (onHost timeSnapshot s)

/-- DOMAIN_SRC_WRITE (R107): A write of TMB_DOM_CFG.SRC takes the domain loop to ACQUIRE or to FREE. -/
def execDomainSrcWrite (d : DomIx) (v : BitVec 32) (s : State) : Host.Outcome State Fault Refusal :=
  .next (onHost (domainSrcWrite d (Nat.land v.toNat 0x3FFFF7F)) s)

/-- OFFSET_SAMPLE (R107): A discipline source delivers an offset sample, and the loop steps or slews the domain. -/
def execOffsetSample (d : DomIx) (x : OffSample) (s : State) : Host.Outcome State Fault Refusal :=
  .next (onMain (offsetSample d x) s)

/-- PTM_DIALOGUE (R108): Every PTM_MS the device runs a PTM dialogue, which yields an offset sample or is discarded. -/
def execPtmDialogue (d : DomIx) (x : PtmSample) (s : State) : Host.Outcome State Fault Refusal :=
  .next (onMain (ptmDialogue d x) s)

/-- SAMPLE_LOSS_HOLDOVER (R107): No sample arrives for LOSS intervals, and the domain enters HOLDOVER. -/
def execSampleLossHoldover (d : DomIx) (s : State) : Host.Outcome State Fault Refusal :=
  .next (onMain (sampleLoss d) s)

/-- PATH_WINDOW_EXPIRE (R115): The PATH.W span ends without K suspect samples, so those samples are discarded and the loop resumes. -/
def execPathWindowExpire (n : LaneIx) (s : State) : Host.Outcome State Fault Refusal :=
  .next (onMain (pathWindowExpire n) s)

/-- TXQ_ID_READ (R118): A read of TMB_TXQ_ID returns and removes the head transmit stamp, or returns VALID = 0. -/
def execTxqIdRead (n : LaneIx) (s : State) : Host.Outcome State Fault Refusal :=
  .next (onHost (txqRead n) s)

/-- TPG_FIRE (R121): A pulse generator reaches its firing edge and emits a pulse to its pins, uplinks, guyline and tag samples. -/
def execTpgFire (g : TpgIx) (s : State) : Host.Outcome State Fault Refusal :=
  .next (onMain (tpgFire g) s)

/-- TPG_START_WRITE (R124): A write of the high word of TPG_START on an enabled one-shot generator arms a new target. -/
def execTpgStartWrite (g : TpgIx) (hi : BitVec 32) (s : State) : Host.Outcome State Fault Refusal :=
  .next (onHost (tpgStartHigh g hi.toNat) s)

end Sys2Proof.Machine
end

