-- ==== Sys2Proof/Machine/TrailCommands.lean ====
section
/-! DEFINITION. The commands of this family, one meaning each: Encoder ports, trails and pulse dividers (03_position_trails.md). -/

namespace Sys2Proof.Machine

/-- ENCODER_EDGE (R68): A filtered edge on A or B moves the trail across a count boundary and feeds the speed measurement. -/
def execEncoderEdge (p : PortIx) (a b : Bool) (s : State) : Host.Outcome State Fault Refusal :=
  .next (atPort (encoderEdge p a b) (frontEdge p a b) s)

/-- LINE_BREAK_ENTER (R66): A pair stays below 100 mV for LB_TIME; the port enters line break and the trail holds POS. -/
def execLineBreakEnter (p : PortIx) (pair : Pair) (s : State) : Host.Outcome State Fault Refusal :=
  .next (atPort (lineBreakEnter p pair.num) (pinBreak p pair.num 1) s)

/-- LINE_BREAK_CLEAR (R65): The pair stays above 200 mV for LB_TIME; the port leaves line break and the speed state becomes STILL. -/
def execLineBreakClear (p : PortIx) (pair : Pair) (s : State) : Host.Outcome State Fault Refusal :=
  .next (atPort (lineBreakClear p pair.num) (pinBreak p pair.num 0) s)

/-- Z_INDEX_EDGE (R67): A filtered Z rising edge captures POS into TRL_ZCAP and checks the distance from the previous capture against ZREV. -/
def execZIndexEdge (e : ZEdge) (s : State) : Host.Outcome State Fault Refusal :=
  .next (onMain (zIndexEdge e.port e.rise) s)

/-- SPEED_WINDOW_END (R77): A speed window ends; the method is selected by n and the window result is applied. -/
def execSpeedWindowEnd (t : TrailIx) (s : State) : Host.Outcome State Fault Refusal :=
  .next (onMain (speedWindowEnd t) s)

/-- STANDSTILL_TIMEOUT (R80): No edge has come for STILL_MS, and the speed state becomes STILL with SPD = 0. -/
def execStandstillTimeout (t : TrailIx) (s : State) : Host.Outcome State Fault Refusal :=
  .next (onMain (standstill t) s)

/-- SERIAL_FRAME_START (R81): The CYCLE period expires, and the port clocks a new BiSS-C or SSI frame. -/
def execSerialFrameStart (p : PortIx) (s : State) : Host.Outcome State Fault Refusal :=
  .next (onMain (serialFrameStart p) s)

/-- SERIAL_SAMPLE (R83): A serial frame arrives; it is checked, unwrapped and used to set POS. -/
def execSerialSample (p : PortIx) (word : BitVec 64) (crcOk ne : Bool) (s : State) : Host.Outcome State Fault Refusal :=
  .next (onMain (serialSample p word.toNat crcOk ne) s)

/-- SERIAL_START_BIT_TIMEOUT (R85): No start bit arrives within 20 µs, so the frame is discarded. -/
def execSerialStartBitTimeout (p : PortIx) (s : State) : Host.Outcome State Fault Refusal :=
  .next (onMain (serialStartTimeout p) s)

/-- TRAIL_PRESET (R72): A write of the high word of TRL_PRESET loads POS and clears UNTRUSTED. -/
def execTrailPreset (t : TrailIx) (hi : BitVec 32) (s : State) : Host.Outcome State Fault Refusal :=
  .next (onHost (presetHigh t hi.toNat) s)

/-- HOME_CAPTURE (R87): The active edge of a filtered armed HOME input captures POS, and the trail may be preset. -/
def execHomeCapture (k : HomeIx) (s : State) : Host.Outcome State Fault Refusal :=
  .next (onMain (homeCapture k) s)

/-- HOME_LIMIT_CHANGE (R88): A HOME input set as a limit input changes level; LIMIT_MIN or LIMIT_MAX follows it and raises its guyline event. -/
def execHomeLimitChange (k : HomeIx) (level : Bool) (s : State) : Host.Outcome State Fault Refusal :=
  .next (onMain (homeLimitChange k level) s)

/-- TRL_PORT_CFG_WRITE (R80): A write that changes TRL_PORT_CFG.MODE restarts, converts or stops the trail's counting. -/
def execTrlPortCfgWrite (p : PortIx) (v : BitVec 32) (s : State) : Host.Outcome State Fault Refusal :=
  .next (onHost (portCfgWrite p (Nat.land v.toNat 0x3FFF)) s)

/-- TRL_UNTRUSTED_CLEAR (R96): Software writes 1 to TRL_STATUS.UNTRUSTED, which clears it and Lantern's untrusted mark. -/
def execTrlUntrustedClear (t : TrailIx) (s : State) : Host.Outcome State Fault Refusal :=
  .next (onHost (untrustedClear t) s)

/-- LANTERN_CORRECTION (R94): A signed correction from the trail reaches Lantern, which applies it whole to the shadow count. -/
def execLanternCorrection (p : PortIx) (s : State) : Host.Outcome State Fault Refusal :=
  .next (onAon (lanternCorrection p) s)

/-- DIVIDER_EDGE (R91): A divider whose emitted count lags its target emits one quadrature edge, spaced by MINSP. -/
def execDividerEdge (d : DivIx) (s : State) : Host.Outcome State Fault Refusal :=
  .next (onMain (dividerEdge d) s)

end Sys2Proof.Machine
end

