-- ==== Sys2Proof/Machine/Dispatch.lean ====
section
/-! DEFINITION. The dispatch: one arm per command, each one call of its meaning. -/

namespace Sys2Proof.Machine

def exec (i : Instr) (s : State) : Host.Outcome State Fault Refusal :=
  match i with
  | .registerWrite off size val => Sys2Proof.Machine.execRegisterWrite off size val s
  | .reg64LowRead off => Sys2Proof.Machine.execReg64LowRead off s
  | .reg64HighWrite off val => Sys2Proof.Machine.execReg64HighWrite off val s
  | .memoryReadRequest r => Sys2Proof.Machine.execMemoryReadRequest r s
  | .memoryWriteRequest w => Sys2Proof.Machine.execMemoryWriteRequest w s
  | .configRequest c => Sys2Proof.Machine.execConfigRequest c s
  | .busMasterEnableClear => Sys2Proof.Machine.execBusMasterEnableClear s
  | .powerStateChange d3 => Sys2Proof.Machine.execPowerStateChange d3 s
  | .vectorUnmask v => Sys2Proof.Machine.execVectorUnmask v s
  | .enableWrite b en => Sys2Proof.Machine.execEnableWrite b en s
  | .enableSetupComplete b => Sys2Proof.Machine.execEnableSetupComplete b s
  | .quiesceComplete b => Sys2Proof.Machine.execQuiesceComplete b s
  | .counterClearGo b => Sys2Proof.Machine.execCounterClearGo b s
  | .modeRequest req => Sys2Proof.Machine.execModeRequest req s
  | .holdLimitExpire st => Sys2Proof.Machine.execHoldLimitExpire st s
  | .stopReached => Sys2Proof.Machine.execStopReached s
  | .drainComplete => Sys2Proof.Machine.execDrainComplete s
  | .drainTimeout => Sys2Proof.Machine.execDrainTimeout s
  | .calibrateRoutineEnd done failed meas aborted => Sys2Proof.Machine.execCalibrateRoutineEnd done failed meas aborted s
  | .encoderEdge p a b => Sys2Proof.Machine.execEncoderEdge p a b s
  | .lineBreakEnter p pair => Sys2Proof.Machine.execLineBreakEnter p pair s
  | .lineBreakClear p pair => Sys2Proof.Machine.execLineBreakClear p pair s
  | .zIndexEdge e => Sys2Proof.Machine.execZIndexEdge e s
  | .speedWindowEnd t => Sys2Proof.Machine.execSpeedWindowEnd t s
  | .standstillTimeout t => Sys2Proof.Machine.execStandstillTimeout t s
  | .serialFrameStart p => Sys2Proof.Machine.execSerialFrameStart p s
  | .serialSample p word crcOk ne => Sys2Proof.Machine.execSerialSample p word crcOk ne s
  | .serialStartBitTimeout p => Sys2Proof.Machine.execSerialStartBitTimeout p s
  | .trailPreset t hi => Sys2Proof.Machine.execTrailPreset t hi s
  | .homeCapture k => Sys2Proof.Machine.execHomeCapture k s
  | .homeLimitChange k level => Sys2Proof.Machine.execHomeLimitChange k level s
  | .trlPortCfgWrite p v => Sys2Proof.Machine.execTrlPortCfgWrite p v s
  | .trlUntrustedClear t => Sys2Proof.Machine.execTrlUntrustedClear t s
  | .lanternCorrection p => Sys2Proof.Machine.execLanternCorrection p s
  | .dividerEdge d => Sys2Proof.Machine.execDividerEdge d s
  | .domainSet d hi => Sys2Proof.Machine.execDomainSet d hi s
  | .domainAdjust d hi => Sys2Proof.Machine.execDomainAdjust d hi s
  | .timeSnapshot => Sys2Proof.Machine.execTimeSnapshot s
  | .domainSrcWrite d v => Sys2Proof.Machine.execDomainSrcWrite d v s
  | .offsetSample d x => Sys2Proof.Machine.execOffsetSample d x s
  | .ptmDialogue d x => Sys2Proof.Machine.execPtmDialogue d x s
  | .sampleLossHoldover d => Sys2Proof.Machine.execSampleLossHoldover d s
  | .pathWindowExpire n => Sys2Proof.Machine.execPathWindowExpire n s
  | .txqIdRead n => Sys2Proof.Machine.execTxqIdRead n s
  | .tpgFire g => Sys2Proof.Machine.execTpgFire g s
  | .tpgStartWrite g hi => Sys2Proof.Machine.execTpgStartWrite g hi s
  | .stakeFire n reads => Sys2Proof.Machine.execStakeFire n reads s
  | .stakeSeekComplete n reads => Sys2Proof.Machine.execStakeSeekComplete n reads s
  | .stkTableAddrWrite v => Sys2Proof.Machine.execStkTableAddrWrite v s
  | .stkTableData3Write v => Sys2Proof.Machine.execStkTableData3Write v s
  | .stkTableData3Read => Sys2Proof.Machine.execStkTableData3Read s
  | .stakeRearm n => Sys2Proof.Machine.execStakeRearm n s
  | .pinPulseEnd p => Sys2Proof.Machine.execPinPulseEnd p s
  | .cxpTriggerSend n => Sys2Proof.Machine.execCxpTriggerSend n s
  | .cxpFallTriggerSend n => Sys2Proof.Machine.execCxpFallTriggerSend n s
  | .laneSignalDetect n disc => Sys2Proof.Machine.execLaneSignalDetect n disc s
  | .laneNoSignalTimeout n => Sys2Proof.Machine.execLaneNoSignalTimeout n s
  | .laneAligned n => Sys2Proof.Machine.execLaneAligned n s
  | .laneAlignTimeout n => Sys2Proof.Machine.execLaneAlignTimeout n s
  | .laneDeskewDone n skews => Sys2Proof.Machine.execLaneDeskewDone n skews s
  | .laneLinkLoss n cause => Sys2Proof.Machine.execLaneLinkLoss n cause s
  | .laneRetrainDone n => Sys2Proof.Machine.execLaneRetrainDone n s
  | .camCtlRead n len => Sys2Proof.Machine.execCamCtlRead n len s
  | .camCtlWrite n len => Sys2Proof.Machine.execCamCtlWrite n len s
  | .camCtlAnswer n code x => Sys2Proof.Machine.execCamCtlAnswer n code x s
  | .camCtlTimeout n => Sys2Proof.Machine.execCamCtlTimeout n s
  | .cxpEventPacket n x => Sys2Proof.Machine.execCxpEventPacket n x s
  | .cxpStreamPacket n x => Sys2Proof.Machine.execCxpStreamPacket n x s
  | .ethFrameReceive n x => Sys2Proof.Machine.execEthFrameReceive n x s
  | .gvspResendWait st => Sys2Proof.Machine.execGvspResendWait st s
  | .gvspBlockTimeout st => Sys2Proof.Machine.execGvspBlockTimeout st s
  | .gvcpHeartbeatSend n => Sys2Proof.Machine.execGvcpHeartbeatSend n s
  | .rawRxPop n => Sys2Proof.Machine.execRawRxPop n s
  | .rawTxSend n len => Sys2Proof.Machine.execRawTxSend n len s
  | .cameraLine st x => Sys2Proof.Machine.execCameraLine st x s
  | .lineAssemble st => Sys2Proof.Machine.execLineAssemble st s
  | .markReportArrive u => Sys2Proof.Machine.execMarkReportArrive u s
  | .chgCommitGo v => Sys2Proof.Machine.execChgCommitGo v s
  | .chgCommitWithdraw => Sys2Proof.Machine.execChgCommitWithdraw s
  | .handoverCycle => Sys2Proof.Machine.execHandoverCycle s
  | .shadowCopyComplete => Sys2Proof.Machine.execShadowCopyComplete s
  | .leadCopyComplete st => Sys2Proof.Machine.execLeadCopyComplete st s
  | .conjunctionEnd => Sys2Proof.Machine.execConjunctionEnd s
  | .conjunctionLimitExpire => Sys2Proof.Machine.execConjunctionLimitExpire s
  | .chainLineProcess st x => Sys2Proof.Machine.execChainLineProcess st x s
  | .frameChainComplete st => Sys2Proof.Machine.execFrameChainComplete st s
  | .rateWindowEnd st => Sys2Proof.Machine.execRateWindowEnd st s
  | .engineWatchdog e => Sys2Proof.Machine.execEngineWatchdog e s
  | .campSelfTestComplete c failed => Sys2Proof.Machine.execCampSelfTestComplete c failed s
  | .itemOffer x => Sys2Proof.Machine.execItemOffer x s
  | .itemWritten q x => Sys2Proof.Machine.execItemWritten q x s
  | .ellipsisWrite q => Sys2Proof.Machine.execEllipsisWrite q s
  | .queueDoorbell q lo hi => Sys2Proof.Machine.execQueueDoorbell q lo hi s
  | .doorbellApply => Sys2Proof.Machine.execDoorbellApply s
  | .qcmdRead q => Sys2Proof.Machine.execQcmdRead q s
  | .qcmdWrite q => Sys2Proof.Machine.execQcmdWrite q s
  | .qcmdEnable q => Sys2Proof.Machine.execQcmdEnable q s
  | .qcmdDisable q => Sys2Proof.Machine.execQcmdDisable q s
  | .qcmdFlush q => Sys2Proof.Machine.execQcmdFlush q s
  | .flushedWrite q => Sys2Proof.Machine.execFlushedWrite q s
  | .groupFifoRead g => Sys2Proof.Machine.execGroupFifoRead g s
  | .groupHoldoffEnd g => Sys2Proof.Machine.execGroupHoldoffEnd g s
  | .deliveryResume => Sys2Proof.Machine.execDeliveryResume s
  | .dmaDoorbell t => Sys2Proof.Machine.execDmaDoorbell t s
  | .dmaDescriptorComplete t ecc staging addr => Sys2Proof.Machine.execDmaDescriptorComplete t ecc staging addr s
  | .barrierReadComplete t => Sys2Proof.Machine.execBarrierReadComplete t s
  | .dmaHeadWrite c v => Sys2Proof.Machine.execDmaHeadWrite c v s
  | .dmaRestart c => Sys2Proof.Machine.execDmaRestart c s
  | .engineHaltClear => Sys2Proof.Machine.execEngineHaltClear s
  | .completionReceive tag x => Sys2Proof.Machine.execCompletionReceive tag x s
  | .completionTimeout tag => Sys2Proof.Machine.execCompletionTimeout tag s
  | .quarantineExpire tag => Sys2Proof.Machine.execQuarantineExpire tag s
  | .l0sIdleExpire => Sys2Proof.Machine.execL0sIdleExpire s
  | .l1IdleExpire => Sys2Proof.Machine.execL1IdleExpire s
  | .perstAssert => Sys2Proof.Machine.execPerstAssert s
  | .hotReset => Sys2Proof.Machine.execHotReset s
  | .dlDown => Sys2Proof.Machine.execDlDown s
  | .resetHoldEnd => Sys2Proof.Machine.execResetHoldEnd s
  | .perstDeassert role wid => Sys2Proof.Machine.execPerstDeassert role wid s
  | .bootComplete x => Sys2Proof.Machine.execBootComplete x s
  | .bootFail cause0 cause1 fuseErr => Sys2Proof.Machine.execBootFail cause0 cause1 fuseErr s
  | .qspiRelease => Sys2Proof.Machine.execQspiRelease s
  | .mbxGo m => Sys2Proof.Machine.execMbxGo m s
  | .mbxAbort m => Sys2Proof.Machine.execMbxAbort m s
  | .mbxAck m => Sys2Proof.Machine.execMbxAck m s
  | .mpTakeCommand sig => Sys2Proof.Machine.execMpTakeCommand sig s
  | .longCommandComplete m x => Sys2Proof.Machine.execLongCommandComplete m x s
  | .fwWatchdog mem => Sys2Proof.Machine.execFwWatchdog mem s
  | .nop m => Sys2Proof.Machine.execNop m s
  | .getVersion m => Sys2Proof.Machine.execGetVersion m s
  | .getIdentity m => Sys2Proof.Machine.execGetIdentity m s
  | .authNonce m => Sys2Proof.Machine.execAuthNonce m s
  | .modeGet m => Sys2Proof.Machine.execModeGet m s
  | .serviceEnter m => Sys2Proof.Machine.execServiceEnter m s
  | .serviceExit m => Sys2Proof.Machine.execServiceExit m s
  | .calibrate m => Sys2Proof.Machine.execCalibrate m s
  | .paramList m => Sys2Proof.Machine.execParamList m s
  | .paramDesc m => Sys2Proof.Machine.execParamDesc m s
  | .paramGet m => Sys2Proof.Machine.execParamGet m s
  | .paramSet m => Sys2Proof.Machine.execParamSet m s
  | .recipeLoad m => Sys2Proof.Machine.execRecipeLoad m s
  | .recipeStage m x => Sys2Proof.Machine.execRecipeStage m x s
  | .recipeCommit m => Sys2Proof.Machine.execRecipeCommit m s
  | .recipeFree m => Sys2Proof.Machine.execRecipeFree m s
  | .recipeInfo m => Sys2Proof.Machine.execRecipeInfo m s
  | .recFlush m => Sys2Proof.Machine.execRecFlush m s
  | .recRead m => Sys2Proof.Machine.execRecRead m s
  | .recClear m => Sys2Proof.Machine.execRecClear m s
  | .recInfo m => Sys2Proof.Machine.execRecInfo m s
  | .fwWrite m => Sys2Proof.Machine.execFwWrite m s
  | .fwSelect m => Sys2Proof.Machine.execFwSelect m s
  | .boardRead m => Sys2Proof.Machine.execBoardRead m s
  | .boardWrite m => Sys2Proof.Machine.execBoardWrite m s
  | .chainInfo m => Sys2Proof.Machine.execChainInfo m s
  | .ageingRead m => Sys2Proof.Machine.execAgeingRead m s
  | .tetherMbxTimeout => Sys2Proof.Machine.execTetherMbxTimeout s
  | .guylineEvent ch hop => Sys2Proof.Machine.execGuylineEvent ch hop s
  | .relayExpire r => Sys2Proof.Machine.execRelayExpire r s
  | .tthFwdSend => Sys2Proof.Machine.execTthFwdSend s
  | .gylChEnWrite owner ch v => Sys2Proof.Machine.execGylChEnWrite owner ch v s
  | .beatTransmit => Sys2Proof.Machine.execBeatTransmit s
  | .positionDeltaReceive x => Sys2Proof.Machine.execPositionDeltaReceive x s
  | .positionAnchorReceive x => Sys2Proof.Machine.execPositionAnchorReceive x s
  | .slotStaleExpire j => Sys2Proof.Machine.execSlotStaleExpire j s
  | .guylineMessageReceive down x => Sys2Proof.Machine.execGuylineMessageReceive down x s
  | .heartbeatSend down => Sys2Proof.Machine.execHeartbeatSend down s
  | .heartbeatReceive x => Sys2Proof.Machine.execHeartbeatReceive x s
  | .heartbeatLoss w => Sys2Proof.Machine.execHeartbeatLoss w s
  | .timeMessageSend d => Sys2Proof.Machine.execTimeMessageSend d s
  | .timeMessageReceive x => Sys2Proof.Machine.execTimeMessageReceive x s
  | .handoverMessageSend => Sys2Proof.Machine.execHandoverMessageSend s
  | .handoverMessageReceive x => Sys2Proof.Machine.execHandoverMessageReceive x s
  | .mgmtFragmentReceive x => Sys2Proof.Machine.execMgmtFragmentReceive x s
  | .mgmtResponseReceive x => Sys2Proof.Machine.execMgmtResponseReceive x s
  | .calMessageReceive x => Sys2Proof.Machine.execCalMessageReceive x s
  | .lanternEdge p a b => Sys2Proof.Machine.execLanternEdge p a b s
  | .lanternLineBreakEnter p pair => Sys2Proof.Machine.execLanternLineBreakEnter p pair s
  | .lanternLineBreakClear p pair => Sys2Proof.Machine.execLanternLineBreakClear p pair s
  | .lanternTick homes => Sys2Proof.Machine.execLanternTick homes s
  | .ruleEnableWrite k en => Sys2Proof.Machine.execRuleEnableWrite k en s
  | .lanOvrClear mask => Sys2Proof.Machine.execLanOvrClear mask s
  | .xtalFail => Sys2Proof.Machine.execXtalFail s
  | .xtalGood => Sys2Proof.Machine.execXtalGood s
  | .rcTrim => Sys2Proof.Machine.execRcTrim s
  | .ducCheckpoint => Sys2Proof.Machine.execDucCheckpoint s
  | .aonPowerOn => Sys2Proof.Machine.execAonPowerOn s
  | .vddAonLoss => Sys2Proof.Machine.execVddAonLoss s
  | .mainRailsUp => Sys2Proof.Machine.execMainRailsUp s
  | .mainRailsDown => Sys2Proof.Machine.execMainRailsDown s
  | .pwrfailFall => Sys2Proof.Machine.execPwrfailFall s
  | .pwrfailRise => Sys2Proof.Machine.execPwrfailRise s
  | .recordOffer p r => Sys2Proof.Machine.execRecordOffer p r s
  | .recordAccept => Sys2Proof.Machine.execRecordAccept s
  | .mramRecordWrite fails x => Sys2Proof.Machine.execMramRecordWrite fails x s
  | .flushComplete => Sys2Proof.Machine.execFlushComplete s
  | .recCtrlFlush => Sys2Proof.Machine.execRecCtrlFlush s
  | .recCtrlRewind => Sys2Proof.Machine.execRecCtrlRewind s
  | .recMarkWrite v => Sys2Proof.Machine.execRecMarkWrite v s
  | .recCfgWrite v => Sys2Proof.Machine.execRecCfgWrite v s
  | .recCursorWrite v => Sys2Proof.Machine.execRecCursorWrite v s
  | .recWindowRead off len => Sys2Proof.Machine.execRecWindowRead off len s
  | .intEnableWrite g v => Sys2Proof.Machine.execIntEnableWrite g v s
  | .intTest src => Sys2Proof.Machine.execIntTest src s
  | .faultWindowIncrement w n => Sys2Proof.Machine.execFaultWindowIncrement w n s
  | .faultWindowSubperiod w => Sys2Proof.Machine.execFaultWindowSubperiod w s
  | .faultWindowConfigWrite w k v => Sys2Proof.Machine.execFaultWindowConfigWrite w k v s
  | .patrolScrub addr x => Sys2Proof.Machine.execPatrolScrub addr x s
  | .ageingMeasure drifts => Sys2Proof.Machine.execAgeingMeasure drifts s
  | .poweredHour => Sys2Proof.Machine.execPoweredHour s
  | .mramRefreshUnit => Sys2Proof.Machine.execMramRefreshUnit s
  | .secKeyProgram slot recipe command => Sys2Proof.Machine.execSecKeyProgram slot recipe command s
  | .secKeyRevoke slot => Sys2Proof.Machine.execSecKeyRevoke slot s
  | .secKeyRestore slot => Sys2Proof.Machine.execSecKeyRestore slot s
  | .secKeyOpDone fuseErr => Sys2Proof.Machine.execSecKeyOpDone fuseErr s
  | .thermalSense mC => Sys2Proof.Machine.execThermalSense mC s
  | .thermtrip => Sys2Proof.Machine.execThermtrip s
  | .tetherBlockLockChange down lock => Sys2Proof.Machine.execTetherBlockLockChange down lock s
  | .pcieLinkEvent x => Sys2Proof.Machine.execPcieLinkEvent x s
  | .ptpEventTransmit n ty seq => Sys2Proof.Machine.execPtpEventTransmit n ty seq s

end Sys2Proof.Machine
end

