-- ==== Sys2Proof/Machine/Step.lean ====
section
/-! DEFINITION. One step: the command at the front of the queue, or with none waiting one tick of TIM. -/

namespace Sys2Proof.Machine

/-- One TIM edge passes (R15, log 2), with what it brings of its own. -/
def tick (s : State) : State := let t := edgeWork s; { t with now := s.now + 1 }

/-- Take the command at the front of the queue and carry it out with the queue's rest; on an empty queue, a tick. DESIGN CHOICE (log 1). DESIGN CHOICE (log 2). -/
def step (s : State) : Host.Outcome State Fault Refusal :=
  match s.pending with
  | [] => .next (tick s)
  | c :: rest => exec c { s with pending := rest }

/-- `s` with the command that a word spells put at the front of its queue; the table gives no row a word, so none does. DESIGN CHOICE (log 1). -/
def State.withFetchWord (s : State) (nbits w : Nat) : State :=
  match decodeTableWord nbits w with
  | some c => { s with pending := c :: s.pending }
  | none => s

end Sys2Proof.Machine
end

