-- ==== Sys2Proof/Safety.lean ====
section
/-! DEFINITION. What a sound state of the model is: every sparse map is in its one canonical form, so that equal contents are equal data. -/

namespace Sys2Proof.Machine

/-- HBM is canonical: addresses rise strictly, lie below 24 GB, and no entry equals what an unlisted address reads as (MEMORY; R362). -/
def hbmWf (s : State) : Bool := mwf (hbmBlank s) s.hbm && s.hbm.all (fun c => decide (c.1 < hbmSize))

/-- The registers are canonical: no register is listed at its reset value (R14). -/
def regsWf (s : State) : Bool := mwf regReset s.regs

/-- A sound state: HBM, the registers, the held low words and the buffers in BAR0 are canonical. -/
abbrev Sound (s : State) : Prop :=
  hbmWf s = true ∧ regsWf s = true ∧ mwf (fun _ => (0 : Word)) s.held = true ∧ mwf (fun _ => (none : Option Word)) s.ram = true

end Sys2Proof.Machine
end

