-- ==== Sys2Proof/Certificates/Slice0/Obligations.lean ====
section
/-! DEFINITION. The statements for the provers. A statement of several parts is the conjunction of parts named in Sys2Proof.Claims. A command's next state is written with `finish`, which carries out
the work one block left for another; Obligations.StepTakesTheQueue says that it does nothing where none is left. -/

open Sys2Proof Sys2Proof.Machine

/-- One step carries out exactly the command at the front of the queue, on the state with the rest of the queue (log 1). -/
def Sys2Proof.Claims.StepRunsFrontCommand : Prop :=
  ∀ (s : State) (c : Instr) (rest : List Instr), s.pending = c :: rest → step s = exec c { s with pending := rest }

/-- With nothing waiting, one TIM edge passes, one nanosecond (R15): the model's reading of the block's clock (log 2). No command is taken or put into the queue, what has been sent stays sent, and where
nothing falls due with the edge nothing else changes. -/
def Sys2Proof.Claims.EmptyQueueTicks : Prop :=
  ∀ s : State, s.pending = [] → ∃ t, step s = .next t ∧ t.now = s.now + 1 ∧ t.pending = [] ∧ s.out <+: t.out ∧ (s.due = [] → t = { s with now := s.now + 1 })

/-- A command that leaves no work for another block ends as it stands: the `finish` that the other statements name does nothing then. -/
def Sys2Proof.Claims.FinishWithoutWork : Prop :=
  ∀ s : State, s.todo = [] → finish s = s

/-- While the main domain is in reset or a reset waits for its flush, an access of the host does nothing (R384, R506). -/
def Sys2Proof.Claims.HostShutOut : Prop :=
  ∀ s : State, hostOpen s = false →
    (∀ off size v, exec (.registerWrite off size v) s = .next s) ∧ (∀ r, exec (.memoryReadRequest r) s = .next s) ∧ (∀ w, exec (.memoryWriteRequest w) s = .next s) ∧
    (∀ c, exec (.configRequest c) s = .next s) ∧ (∀ m, exec (.mbxGo m) s = .next s) ∧ (∀ v, exec (.chgCommitGo v) s = .next s)

/-- Tier 1. A step runs the front command; on an empty queue it is a tick (the model's choice, log 2); host accesses do nothing in reset. -/
def Obligations.StepTakesTheQueue : Prop :=
  Claims.StepRunsFrontCommand ∧ Claims.EmptyQueueTicks ∧ Claims.FinishWithoutWork ∧ Claims.HostShutOut

/-- Tier 1. R12: at a BAR0 offset where no register, table, array or doorbell stands, a read of 4, 8 or 1 bytes completes with zeros and without an error, and a write of 32 or 64 bits does nothing. -/
def Obligations.ReservedOffsets : Prop :=
  ∀ (s : State) (off : BitVec 26) (id : TlpId), hostOpen s = true → off.toNat % 8 = 0 → served s .bar0 off.toNat 8 = true →
    (∀ a, off.toNat ≤ a → a < off.toNat + 8 → windowWord s a = none ∧ bellOf a = none ∧ regAt a = none ∧ ¬ (0x160400 ≤ a ∧ a < 0x160800)) →
    exec (.memoryReadRequest { space := .bar0, off := off.zeroExtend 64, len := 4, ecc := .none, id := id }) s = .next (finish (send s (.completion .ok (List.replicate 4 0)))) ∧
    exec (.memoryReadRequest { space := .bar0, off := off.zeroExtend 64, len := 8, ecc := .none, id := id }) s = .next (finish (send s (.completion .ok (List.replicate 8 0)))) ∧
    exec (.memoryReadRequest { space := .bar0, off := off.zeroExtend 64, len := 1, ecc := .none, id := id }) s = .next (finish (send s (.completion .ok [0]))) ∧
    (∀ v : BitVec 64, exec (.registerWrite off .dword v) s = .next (finish s) ∧ exec (.registerWrite off .qword v) s = .next (finish s)) ∧
    (∀ b : List (Option Byte), b.length ≤ 8 → exec (.memoryWriteRequest { space := .bar0, off := off.zeroExtend 64, data := b, poisoned := false, id := id }) s = .next (finish s))

/-- REGISTER_WRITE and REG64_HIGH_WRITE (R8, R10, R12): a dword write of a 32-bit register writes it; of the low word of a 64-bit register it is only held, and of the high word
the register takes effect with the held low word; at a reserved offset, and of any other size, nothing is written. -/
def Sys2Proof.Claims.RegisterWrites : Prop :=
  ∀ (s : State) (off : BitVec 26) (v : BitVec 32), hostOpen s = true → off.toNat % 4 = 0 → 0x10000 ≤ off.toNat → off.toNat < 0x2000000 →
    (regAt off.toNat = none → exec (.registerWrite off .dword (v.zeroExtend 64)) s = .next (finish s)) ∧
    (∀ w : BitVec 64, exec (.registerWrite off .other w) s = .next (finish s)) ∧
    (∀ r b, regAt off.toNat = some (r, b) → r.wide = false →
      exec (.registerWrite off .dword (v.zeroExtend 64)) s = .next (finish (regWrite r b v.toNat s))) ∧
    (∀ r b, regAt off.toNat = some (r, b) → r.wide = true → off.toNat = b →
      exec (.registerWrite off .dword (v.zeroExtend 64)) s = .next (finish { s with held := mput 0 s.held b v })) ∧
    (∀ r b, regAt (off.toNat / 8 * 8 + 4) = some (r, b) → r.wide = true → b = off.toNat / 8 * 8 →
      exec (.reg64HighWrite off v) s = .next (finish (regWrite r b (heldLow s b + 2 ^ 32 * v.toNat) s)))

/-- REG64_LOW_READ (R9): the read returns the low word of the value the register has at that instant, and its latch holds the high word, pending. -/
def Sys2Proof.Claims.LowReadLatches : Prop :=
  ∀ (s : State) (off : BitVec 26) (r : Reg) (b : Nat), hostOpen s = true → 0x10000 ≤ off.toNat → regAt (off.toNat / 8 * 8) = some (r, b) → r.wide = true →
    b = off.toNat / 8 * 8 →
    exec (.reg64LowRead off) s =
      .next (finish (send (readEffect { s with latch := mput none s.latch b (some (BitVec.ofNat 32 (regNow s b / 2 ^ 32))) } b)
        (.completion .ok (leBytes 4 (regNow s b % 2 ^ 32)))))

/-- Tier 2. Writes of 32-bit and 64-bit registers, held low words, and the latch of a low-word read. -/
def Obligations.RegisterAccess : Prop :=
  Claims.RegisterWrites ∧ Claims.LowReadLatches

/-- The plain effect of a register write by Table 0-5, bit by bit: RW bits take the written value, a written 1 clears a W1C bit and sets a W1S bit, every other bit stays. -/
def Sys2Proof.Claims.AccessCodes : Prop :=
  ∀ (s : State) (r : Reg) (b v : Nat) (i : Nat), Sound s → i < 64 → Nat.land r.rw r.w1c = 0 →
    (getReg (regPut r b v s) b).getLsbD i =
      ((if r.rw.testBit i then v.testBit i
        else (getReg s b).getLsbD i && !(r.w1c.testBit i && v.testBit i)) || (r.w1s.testBit i && v.testBit i)) ∧
    ∀ a, a ≠ b → getReg (regPut r b v s) a = getReg s a

/-- Whatever a field write does, the field it names reads back what was written, cut to its width, and every field that does not overlap it, in every register, reads as before: the
frame that the statements written with `wr` stand on (R13). -/
def Sys2Proof.Claims.FieldWriteFrame : Prop :=
  ∀ (s : State) (f g : FRef) (v : Nat), Sound s → f.lo + f.w ≤ 64 →
    rd (wr s f v) f = v % 2 ^ f.w ∧
    (g.a ≠ f.a ∨ g.lo + g.w ≤ f.lo ∨ f.lo + f.w ≤ g.lo → rd (wr s f v) g = rd s g) ∧ Sound (wr s f v)

/-- Tier 2. The access codes RW, W1C and W1S bit by bit, and the frame of a register write and of a field write. -/
def Obligations.AccessCodes : Prop :=
  Claims.AccessCodes ∧ Claims.FieldWriteFrame

/-- MEMORY_READ_REQUEST and MEMORY_WRITE_REQUEST (R361, R362, R364, R365): a served read of BAR2 that fits in one completion returns the bytes of HBM at the base plus the offset, and one of no bytes
completes with none; a served write of BAR2 stores its enabled bytes there; a write of the Expansion ROM is discarded, a read returns its bytes; a poisoned write is only logged, with its header; a request that is
not served is an Unsupported Request, logged with its header. -/
def Sys2Proof.Claims.MemoryRequests : Prop :=
  ∀ (s : State), hostOpen s = true →
    (∀ r : ReadReq, r.space = .bar2 → r.ecc = .none → served s .bar2 r.off.toNat r.len = true → 0 < r.len.val → r.off.toNat % mps s + r.len.val ≤ mps s →
      exec (.memoryReadRequest r) s = .next (finish (send s (.completion .ok (hbmRead s (bar2Addr s r.off.toNat) r.len))))) ∧
    (∀ r : ReadReq, r.space = .bar2 ∨ r.space = .rom → r.ecc = .none → served s r.space r.off.toNat r.len = true → r.len.val = 0 →
      exec (.memoryReadRequest r) s = .next (finish (send s (.completion .ok [])))) ∧
    (∀ r : ReadReq, r.space = .rom → served s .rom r.off.toNat r.len = true → 0 < r.len.val → r.off.toNat % mps s + r.len.val ≤ mps s →
      exec (.memoryReadRequest r) s = .next (finish (send s (.completion .ok ((List.range r.len).map (fun i => romByte s (r.off.toNat + i))))))) ∧
    (∀ r : ReadReq, served s r.space r.off.toNat r.len = false → exec (.memoryReadRequest r) s = .next (finish (unsupported s false (readHead s r)))) ∧
    (∀ w : WriteReq, w.space = .bar2 → w.poisoned = false → served s .bar2 w.off.toNat w.data.length = true →
      exec (.memoryWriteRequest w) s = .next (finish (bar2Write (bar2Addr s w.off.toNat) w.data s))) ∧
    (∀ w : WriteReq, w.space = .rom → served s .rom w.off.toNat w.data.length = true → exec (.memoryWriteRequest w) s = .next (finish s)) ∧
    (∀ w : WriteReq, w.space = .bar2 ∨ w.space = .bar0 → w.poisoned = true → served s w.space w.off.toNat w.data.length = true →
      exec (.memoryWriteRequest w) s = .next (finish (poisonedTlp s false (writeHead s w)))) ∧
    (∀ w : WriteReq, served s w.space w.off.toNat w.data.length = false → exec (.memoryWriteRequest w) s = .next (finish (unsupported s true (writeHead s w))))

/-- CONFIG_REQUEST (R355, R365): a Type 1 request is an Unsupported Request; until the header is loaded a request completes with Request Retry Status; then a read
completes with the dword's enabled bytes, and a write that has no effect on requests or interrupts sets the writable bits and completes, one
of a lane's margining register carrying its command out. -/
def Sys2Proof.Claims.ConfigRequests : Prop :=
  ∀ (s : State) (c : CfgReq), hostOpen s = true →
    (c.type1 = true → exec (.configRequest c) s = .next (finish (unsupported s false
      (reqHead (if c.write then 0x45 else 0x05) 1 false c.id c.be.toNat 0 ++ [c.target.toNat * 2 ^ 16 + c.off.toNat / 4 * 4, 0])))) ∧
    (c.type1 = false → s.hep.loaded = false → exec (.configRequest c) s = .next (finish (send s (.completion .retry [])))) ∧
    (c.type1 = false → s.hep.loaded = true → c.write = false →
      exec (.configRequest c) s =
        .next (finish (send s (.completion .ok (leBytes 4 (Nat.land (cfgRead s (c.off.toNat / 4 * 4)) (beMask c.be.toNat))))))) ∧
    (c.type1 = false → s.hep.loaded = true → c.write = true → mayIssue s = false → ¬ c.off.toNat / 4 * 4 ∈ [0x04, 0x44, 0x50, 0x60, 0xB0] →
      exec (.configRequest c) s =
        let o := c.off.toNat / 4 * 4
        let u := laterOnce (cfgPut s o c.be.toNat c.data.toNat) .pump
        .next (finish (send (if 0x248 ≤ o ∧ o < 0x288 then marginRun u o else u) (.completion .ok []))))

/-- Tier 1. Memory and configuration requests of the host. -/
def Obligations.HostRequests : Prop :=
  Claims.MemoryRequests ∧ Claims.ConfigRequests

/-- Tier 2. What a write through BAR2 does to HBM, byte by byte: the enabled bytes from its address on below 24 GB read as written, and every other byte of HBM reads as before (R362). -/
def Obligations.Bar2WriteFrame : Prop :=
  ∀ (s : State) (a : Nat) (l : List (Option Byte)) (c : Nat), Sound s →
    (∀ b, a ≤ c → l[c - a]? = some (some b) → c < hbmSize → hbmByte (bar2Write a l s) c = b) ∧
    ((∀ b, a ≤ c → l[c - a]? ≠ some (some b)) → hbmByte (bar2Write a l s) c = hbmByte s c) ∧
    (hbmSize ≤ c → hbmByte (bar2Write a l s) c = 0) ∧
    (bar2Write a l s).regs = s.regs ∧ (bar2Write a l s).todo = s.todo ∧ (bar2Write a l s).out = s.out

/-- BUS_MASTER_ENABLE_CLEAR, POWER_STATE_CHANGE and VECTOR_UNMASK (R369, R371, R382): with requests allowed, clearing Bus Master Enable or entering D3hot takes delivery and DMA
master-off; a return to D0 sends what was held; an unmasked vector's pending message is sent. -/
def Sys2Proof.Claims.MasterEnableAndMasks : Prop :=
  ∀ (s : State), hostOpen s = true →
    (mayIssue s = true →
      (let t := cfgSet s 0x04 (cfgDw s 0x04 - Nat.land (cfgDw s 0x04) 4)
       exec .busMasterEnableClear s = .next (finish (if mayIssue t then t else masterOff t))) ∧
      (let t := cfgSet s 0x44 (cfgDw s 0x44 - cfgDw s 0x44 % 4 + 3)
       exec (.powerStateChange true) s = .next (finish (if mayIssue t then t else masterOff t)))) ∧
    (mayIssue s = false →
      exec (.powerStateChange false) s = .next (finish (laterOnce (flushPending (cfgSet s 0x44 (cfgDw s 0x44 - cfgDw s 0x44 % 4))) .pump))) ∧
    (∀ v : Fin 2048, intMode s = 2 → exec (.vectorUnmask v) s = .next (finish (flushPending (msixSet s v 3 0)))) ∧
    (∀ v : Fin 2048, intMode s = 1 →
      exec (.vectorUnmask v) s = .next (finish (flushPending (cfgSet s 0x60 (cfgDw s 0x60 - Nat.land (cfgDw s 0x60) (2 ^ (v.val % 32)))))))

/-- L0S_IDLE_EXPIRE, L1_IDLE_EXPIRE (R372, R373): with ASPM L0s on, outside Flit Mode and in L0, the transmitter enters L0s; with ASPM L1 on, from L0 or L0s, and no work of delivery or DMA
pending in a mode that acquires or drains, the endpoint asks for L1. -/
def Sys2Proof.Claims.LinkPower : Prop :=
  ∀ s : State, mainRuns s = true →
    (bitOf (cfgDw s 0x80) 0 = true → rdB s HEP_LINK_FLIT = false → rd s HEP_LINK_LTSSM = 3 → exec .l0sIdleExpire s = .next (finish (send (wr s HEP_LINK_LTSSM 4) (.link 4)))) ∧
    (bitOf (cfgDw s 0x80) 0 = false ∨ rdB s HEP_LINK_FLIT = true → exec .l0sIdleExpire s = .next (finish s)) ∧
    (bitOf (cfgDw s 0x80) 1 = true → rd s HEP_LINK_LTSSM = 3 ∨ rd s HEP_LINK_LTSSM = 4 → hostWork s = false ∨ (acquiring s = false ∧ mode s ≠ 8) → exec .l1IdleExpire s = .next (finish (send s (.link 5)))) ∧
    (bitOf (cfgDw s 0x80) 1 = false ∨ hostWork s = true ∧ (acquiring s = true ∨ mode s = 8) → exec .l1IdleExpire s = .next (finish s))

/-- Tier 1. Bus Master Enable, power states, vector masks, L0s and L1. -/
def Obligations.HostPower : Prop :=
  Claims.MasterEnableAndMasks ∧ Claims.LinkPower

/-- ENABLE_WRITE (R58, R572, Tables 2-4 and 2-6): a write of EN to a DISABLED block whose checks pass takes it to ENABLING with its configuration loaded; where they fail it stays
DISABLED with the verdict written; EN = 0 written to a DISABLED block changes nothing but EN; EN written to a QUIESCING block is kept as PEND; EN = 0 written to a running one makes it leave. -/
def Sys2Proof.Claims.EnableWrites : Prop :=
  ∀ (s : State) (b : Block), hostOpen s = true → enLocked s b = false →
    (enState s (enAddr b) = 0 → enRefused (wrB s (enEN b) true) b = false →
      exec (.enableWrite b true) s = .next (finish (enLoad (wr (enVerdict (wrB s (enEN b) true) false b) (enSTATE b) 1) b))) ∧
    (enState s (enAddr b) = 0 → enRefused (wrB s (enEN b) true) b = true →
      exec (.enableWrite b true) s = .next (finish (enVerdict (wrB s (enEN b) true) true b))) ∧
    (enState s (enAddr b) = 0 → exec (.enableWrite b false) s = .next (finish (wrB s (enEN b) false))) ∧
    (enState s (enAddr b) = 3 → ∀ en, exec (.enableWrite b en) s = .next (finish (wrB (wrB s (enEN b) en) (enPEND b) en))) ∧
    (enState s (enAddr b) = 1 ∨ enState s (enAddr b) = 2 →
      exec (.enableWrite b true) s = .next (finish (wrB s (enEN b) true)) ∧
      exec (.enableWrite b false) s = .next (finish (enQuit (wrB s (enEN b) false) b)))

/-- ENABLE_SETUP_COMPLETE and QUIESCE_COMPLETE (Table 2-4): a block in ENABLING (but a camp, whose self-test ends it) becomes ENABLED and accepts work; a block in QUIESCING whose work in
flight is done becomes DISABLED, or with PEND = 1 makes a new enable attempt. -/
def Sys2Proof.Claims.EnableStates : Prop :=
  ∀ (s : State) (b : Block), mainRuns s = true →
    (enState s (enAddr b) = 1 → (∀ c, b ≠ .camp c) → exec (.enableSetupComplete b) s = .next (finish (enReady (wr s (enSTATE b) 2) b))) ∧
    (enState s (enAddr b) = 3 → enDone s b = true →
      exec (.quiesceComplete b) s =
        .next (finish (if rdB s (enPEND b) then enAttempt (enOff (wr (wr s (enSTATE b) 0) (enPEND b) 0) b) b
          else enOff (wr (wr s (enSTATE b) 0) (enPEND b) 0) b)))

/-- Tier 1. Writes of EN by the state of the block, and the ends of ENABLING and QUIESCING. -/
def Obligations.Enables : Prop :=
  Claims.EnableWrites ∧ Claims.EnableStates

/-- COUNTER_CLEAR_GO (R190 and the counter-clear register of each block): the block's counters read 0 and every other register of the device reads as before; nothing else changes. -/
def Sys2Proof.Claims.CounterClears : Prop :=
  ∀ (s : State) (b : CntBlock) (l : List Nat), Sound s → hostOpen s = true → s.todo = [] →
    (match b with
     | .lane n => l = [0x10, 0x14, 0x18, 0x1C, 0x20, 0x24, 0x28, 0x2C].map (0x70000 + 0x2000 * n.val + ·)
     | .frm st => l = [0x5C, 0x60, 0x64, 0x68, 0x6C].map (0xB0000 + 0x100 * st.val + ·)
     | .mlk u => l = [0x6C, 0x70, 0x74].map (0xC0000 + 0x100 * u.val + ·)
     | .pxe _ => False
     | .dlv => l = [0x1200C4, 0x1200C8, 0x1200CC]
     | .hep => l = [0x1020, 0x1024, 0x1028, 0x102C, 0x1030]
     | .tth => l = [0x140030, 0x140034, 0x140038, 0x14003C]) →
    ∃ t, exec (.counterClearGo b) s = .next t ∧ (∀ a ∈ l, getReg t a = 0) ∧ (∀ a, a ∉ l → getReg t a = getReg s a) ∧ t = { s with regs := t.regs }

/-- COUNTER_CLEAR_GO of a stream of the PXE block clears its drop and rate counters and the LAG_MAX field alone of its lag register (Table 10-16). -/
def Sys2Proof.Claims.PxeCounterClear : Prop :=
  ∀ (s : State) (st : StreamIx), Sound s → hostOpen s = true → s.todo = [] →
    ∃ t, exec (.counterClearGo (.pxe st)) s = .next t ∧ getReg t (0x100024 + 0x100 * st.val) = 0 ∧ getReg t (0x10002C + 0x100 * st.val) = 0 ∧
      rd t (PXE_STR_LAG_MAX st) = 0 ∧
      (∀ g : FRef, g.a ≠ 0x100024 + 0x100 * st.val → g.a ≠ 0x10002C + 0x100 * st.val →
        (g.a ≠ (PXE_STR_LAG_MAX st).a ∨ g.lo + g.w ≤ (PXE_STR_LAG_MAX st).lo ∨ (PXE_STR_LAG_MAX st).lo + (PXE_STR_LAG_MAX st).w ≤ g.lo) → rd t g = rd s g) ∧
      t = { s with regs := t.regs }

/-- Tier 2. A counter clear zeroes the counters of its block and nothing else. -/
def Obligations.CounterClears : Prop :=
  Claims.CounterClears ∧ Claims.PxeCounterClear

/-- MODE_REQUEST (R50, R52, Table 2-3): a refused request sets REFUSE to its code and nothing else; a request for the present mode sets TARGET; a granted request enters its mode: from an
acquisition mode ARMED is reached through DRAIN. -/
def Sys2Proof.Claims.ModeRequests : Prop :=
  ∀ (s : State) (req : BitVec 4), hostOpen s = true →
    (requestRefusal s req.toNat ≠ 0 → exec (.modeRequest req) s = .next (finish (wr s MODE_STATUS_REFUSE (requestRefusal s req.toNat)))) ∧
    (requestRefusal s req.toNat = 0 → req.toNat = mode s → exec (.modeRequest req) s = .next (finish (targetIsMode s))) ∧
    (mode s = 2 → req = 3#4 → rdB s MODE_STATUS_TRANSITION = false → haveRecipe s = true → lanesUp s = true → 
      exec (.modeRequest req) s = .next (finish (modeEnter s 3 mcRequest))) ∧
    (mode s = 3 → req = 2#4 → rdB s MODE_STATUS_TRANSITION = false → exec (.modeRequest req) s = .next (finish (modeEnter s 2 mcRequest))) ∧
    (mode s = 3 → req = 4#4 ∨ req = 5#4 ∨ req = 6#4 → rdB s MODE_STATUS_TRANSITION = false → role s ≠ 2 →
      exec (.modeRequest req) s = .next (finish (enterAcq s req.toNat mcRequest))) ∧
    (mode s = 2 ∨ mode s = 3 → req = 9#4 → rdB s MODE_STATUS_TRANSITION = false → exec (.modeRequest req) s = .next (finish (enterCalibrate s mcRequest true))) ∧
    (acquiring s = true → req = 3#4 → rdB s MODE_STATUS_TRANSITION = false → exec (.modeRequest req) s = .next (finish (enterDrain s mcRequest))) ∧
    (2 ≤ mode s ∧ mode s ≤ 9 → req = 10#4 → exec (.modeRequest req) s = .next (finish (enterHold s 0 0 false)))

/-- What Table 2-3 refuses, and with which code (R50): SERVICE and IDLE's other requests, a request during a transition, a worker's own request for acquisition, a request for ARMED with no
recipe or with a lane down, a way out of HOLD while its cause is sticky. -/
def Sys2Proof.Claims.ModeRefusals : Prop :=
  ∀ s : State,
    requestRefusal s 11 = 7 ∧
    (∀ req, req ≠ 11 → req ≠ 10 → rdB s MODE_STATUS_TRANSITION = true → requestRefusal s req = 2) ∧
    (∀ req, req = 4 ∨ req = 5 ∨ req = 6 → rdB s MODE_STATUS_TRANSITION = false → req ≠ mode s → role s = 2 → requestRefusal s req = 3) ∧
    (mode s = 2 → rdB s MODE_STATUS_TRANSITION = false → haveRecipe s = false → requestRefusal s 3 = 4) ∧
    (mode s = 2 → rdB s MODE_STATUS_TRANSITION = false → haveRecipe s = true → lanesUp s = false → requestRefusal s 3 = 5) ∧
    (mode s = 10 → rdB s MODE_STATUS_TRANSITION = false → rdB s MODE_CAUSE_STICKY = true → requestRefusal s 2 = 6 ∧ requestRefusal s 3 = 6)

/-- Tier 1. Mode requests: what is granted, what is refused and with which code (order of refusals: log 13). -/
def Obligations.ModeRequests : Prop :=
  Claims.ModeRequests ∧ Claims.ModeRefusals

/-- STOP_REACHED, DRAIN_COMPLETE, DRAIN_TIMEOUT (R48, R571): the first instant at which all has stopped is
marked, and in HOLD the pins go safe; a drained device enters ARMED, and DRAIN_TIMEOUT enters it with REFUSE 9 once the rest is dropped. -/
def Sys2Proof.Claims.StopAndDrain : Prop :=
  ∀ s : State, mainRuns s = true →
    (mode s = 8 → s.modeCtl.stopped = false → stopMet s = true →
      exec .stopReached s = .next (finish { s with modeCtl := { s.modeCtl with stopped := true } })) ∧
    (mode s = 10 → s.modeCtl.stopped = false → stopMet s = true → exec .stopReached s = .next (finish (stopNow s))) ∧
    (mode s = 8 → s.modeCtl.stopped = true → drained s = true → exec .drainComplete s = .next (finish (drainEnd s mcDone))) ∧
    (mode s = 8 → s.modeCtl.stopped = true → drained s = false →
      let u := each (List.range 16) dropCampItems (each (List.range 64) dropStream s)
      exec .drainTimeout s = .next (finish (drainEnd (modeRefuse (each (affectedQueues u) (fun s q => flushQueue q s) u) 9) mcDrainTimeout)))

/-- HOLD_LIMIT_EXPIRE (R46): a stream that is finishing a frame in a stop stops triggering, and its open frame closes short; a stream that has stopped already is left as it is. -/
def Sys2Proof.Claims.HoldLimit : Prop :=
  ∀ (s : State) (st : StreamIx), mainRuns s = true →
    ((frm s st).finishing = true → cutsStopped s st = false ∨ (frm s st).image.isSome = true →
      exec (.holdLimitExpire st) s = .next (finish (streamCutShort s st))) ∧
    ((frm s st).finishing = false → exec (.holdLimitExpire st) s = .next (finish s))

/-- CALIBRATE_ROUTINE_END (R410, R165, Table 2-3): of the routines the command asks for, those that completed leave their results (the lane deskew its skews, the flat-field its parameters) and
are kept for the command's result beside those that failed; when all have ended, or the rest are aborted, the device returns to the mode it came from; outside CALIBRATE nothing happens. The tether's
routine is stated with the tether. -/
def Sys2Proof.Claims.CalibrateEnds : Prop :=
  ∀ (s : State) (done failed : BitVec 3) (m : CalResults) (ab : Bool), mainRuns s = true →
    (mode s = 9 → done.getLsbD 2 = false → failed.getLsbD 2 = false → ∀ x, longOf s 0x0103 = some x →
      let want := x.cmd.num 0 4
      let f := Nat.land want failed.toNat
      let d := Nat.land want done.toNat - Nat.land done.toNat f
      let y := { x with done := Nat.lor x.done d, failed := Nat.lor x.failed f }
      let all := Nat.land want (Nat.lor y.done y.failed) == want
      let u := if bitOf d 1 then lanesReskew (m.skews.map (fun p => (p.1.val, p.2.toNat))) s else s
      let v := if bitOf d 0 then flatResults u (x.cmd.num 8 8) (m.flats.map (fun p => (p.1.val, p.2.map (fun q => (q.1.toNat, q.2.toNat))))) else u
      let w := { v with mp := { v.mp with long := v.mp.long.map (fun z => if z.cmd.op = 0x0103 then { y with ended := all && !ab } else z) } }
      exec (.calibrateRoutineEnd done failed m ab) s = .next (finish (if all || ab then leaveCalibrate w else w))) ∧
    (mode s = 9 → longOf s 0x0103 = none → done = 0#3 → failed = 0#3 →
      exec (.calibrateRoutineEnd done failed m ab) s = .next (finish (modeEnter s s.modeCtl.cameFrom mcDone))) ∧
    (mode s ≠ 9 → exec (.calibrateRoutineEnd done failed m ab) s = .next (finish s))

/-- Tier 1. Stops, drains, the HOLD limit and the end of CALIBRATE (log 14). -/
def Obligations.StopAndDrain : Prop :=
  Claims.StopAndDrain ∧ Claims.HoldLimit ∧ Claims.CalibrateEnds

/-- Tier 1. ENCODER_EDGE, LINE_BREAK_ENTER and LINE_BREAK_CLEAR (R61, R64 to R66, R68): the pin levels follow; a decoded edge of an unbroken incremental port moves the count, feeds the speed
measurement, Lantern's own count and corrects the shadow; both levels changing is an illegal transition; the first broken pair of A and B sets LB_SEEN and UNTRUSTED, raises the line-break channel, counts in window
40 + p and holds POS; a break of a watched Z sets LB_SEEN, and the capture after it is not checked; when neither is broken any more the speed state is STILL. -/
def Obligations.EncoderPorts : Prop :=
  ∀ (s : State) (p : PortIx), mainRuns s = true →
    (∀ a b : Bool,
      let oa := rdB s (TRL_PIN_A p)
      let ob := rdB s (TRL_PIN_B p)
      let u := wrB (wrB (trlOpen s p) (TRL_PIN_A p) a) (TRL_PIN_B p) b
      portMode u p = 1 → lineBroken u p = false →
        (∀ n0, ((a != oa) != (b != ob)) = true → decodeEdge (rd u (TRL_PORT_CFG_DECODE p)) (a != oa) a b = some n0 →
          let neg := n0 != rdB u (TRL_PORT_CFG_INVERT p)
          let f := frontNote u p (if neg then -1 else 1)
          let r := countEdge f (trl f p) neg
          let w := setTrl f p (speedEdge f p r.1 neg)
          exec (.encoderEdge p a b) s = .next (finish (trlMoved (sendCorrection (if r.2.2 then wr w (TRL_STATUS_SAT p) 1 else w) p r.2.1) p))) ∧
        ((a != oa && b != ob) = true → exec (.encoderEdge p a b) s = .next (finish (trlIllegal u p)))) ∧
    (lineBroken s p = false → ∀ pair : Pair, pair ≠ .z →
      let o := trlOpen s p
      let u := wr o (if pair.num = 0 then TRL_PIN_A_LB p else TRL_PIN_B_LB p) 1
      let v := setTrl (serialSettle u p 0) p { trl u p with base := (if portMode o p < 2 then (trl o p).base else rawPos o p), edgeAt := motNow u, barred := true }
      exec (.lineBreakEnter p pair) s =
        .next (finish (trlMoved (windowInc (later (wr (wr (wr v (TRL_STATUS_LB_SEEN p) 1) (TRL_STATUS_UNTRUSTED p) 1) (LAN_PORT_STATUS_UNTRUSTED p) 1) (.gyl (176 + p) 0)) (40 + p) 1) p))) ∧
    (rdB s (TRL_PORT_CFG_Z_EN p) = true → rdB s (TRL_PIN_Z_LB p) = false →
      let u := wr (wr s (TRL_PIN_Z_LB p) 1) (TRL_STATUS_LB_SEEN p) 1
      exec (.lineBreakEnter p .z) s = .next (finish (setTrl u p { trl u p with zPrev := none }))) ∧
    exec (.lineBreakClear p .z) s = .next (finish (setTrl (wr s (TRL_PIN_Z_LB p) 0) p { trl s p with zPrev := none })) ∧
    (∀ pair : Pair, pair ≠ .z → lineBroken s p = true →
      let u := wr s (if pair.num = 0 then TRL_PIN_A_LB p else TRL_PIN_B_LB p) 0
      exec (.lineBreakClear p pair) s = .next (finish (if lineBroken u p then u else trlStill u p)))

/-- Tier 2. What an edge does to the count (R68, R70): away from the limits the trail moves by exactly one count in the edge's direction to the boundary between the two, and owes the shadow
nothing; at a held limit an edge further out is discarded and owed to the shadow. -/
def Obligations.EdgeMovesOneCount : Prop :=
  ∀ (s : State) (x : Trail) (neg : Bool), x.presetAt ≠ some (s.now / 2) →
    (x.satDir = none →
      let b := if neg then trlCount x * 256 else (trlCount x + 1) * 256
      x.limMin ≤ b → b ≤ x.limMax →
        trlCount (countEdge s x neg).1 = trlCount x + (if neg then -1 else 1) ∧ (countEdge s x neg).1.base = b ∧
          (countEdge s x neg).1.edgeAt = motNow s ∧ (countEdge s x neg).2 = (0, false)) ∧
    (x.satDir = some neg → countEdge s x neg = (x, (if neg then 1 else -1), false))

/-- Z_INDEX_EDGE, SPEED_WINDOW_END, STANDSTILL_TIMEOUT (R67, R76, R77, R80): TRL_PIN follows Z; a rising edge with Z_EN = 1 captures POS in TRL_ZCAP, counts and raises channel 168 + p; a
window's end selects the method (windowed above 80 edges, by edges below 48, between them unchanged) and applies the window's speed where that method is in force; a trail with no edge for STILL_MS
becomes STILL, and a serial trail keeps what it has extrapolated until its next sample. -/
def Sys2Proof.Claims.SpeedAndIndex : Prop :=
  ∀ (s : State), mainRuns s = true →
    (∀ p : PortIx, exec (.zIndexEdge ⟨p, false⟩) s = .next (finish (wrB s (TRL_PIN_Z p) false))) ∧
    (∀ p : PortIx,
      let o := wrB s (TRL_PIN_Z p) true
      let u := trlSync o p
      let v := addWrap (wrI u (TRL_ZCAP_ZCAP p) (posNow u p)) (TRL_CNT_Z_COUNT p) 1
      (rdB o (TRL_PORT_CFG_Z_EN p) = false → exec (.zIndexEdge ⟨p, true⟩) s = .next (finish o)) ∧
      (rdB o (TRL_PORT_CFG_Z_EN p) = true → (trl v p).zPrev = none → (trl v p).homeZ = [] →
        exec (.zIndexEdge ⟨p, true⟩) s = .next (finish (later (setTrl v p { trl v p with zPrev := some (posNow u p), homeZ := [] }) (.gyl (168 + p) 0))))) ∧
    (∀ t : TrailIx, t.val < 8 → portMode s t = 1 →
      let u := trlSync s t
      let x := trl u t
      let m := if x.winN < 48 then false else if 80 < x.winN then true else x.windowM
      exec (.speedWindowEnd t) s =
        .next (finish (setTrl u t (if m && x.mst == .running && decide (2 ≤ x.winN)
          then speedLater u { x with windowM := m, winN := 0 } (some (speedOf x.dir (x.winN - 1) (x.winLast - x.winFirst))) .running
          else { x with windowM := m, winN := 0 })))) ∧
    (∀ t : TrailIx, t.val < 8 → (trl s t).mst ≠ .none → (trl s t).mst ≠ .still → exec (.standstillTimeout t) s = .next (finish (trlStill s t))) ∧
    (∀ t : TrailIx, (trl (trlOpen s t) t).mst ≠ .none →
      let o := trlOpen s t
      let m := move16 o t (trlDue (motNow o) (trl o t))
      trlStill s t =
        trlMoved (setTrl (serialSettle o t (signBy m.2 (m.1 : Int))) t { trl (trlOpen s t) t with st := .still, mst := .still, spd := 0, upds := [], edges := [], winN := 0, lastIv := 0 }) t)

/-- SERIAL_FRAME_START, SERIAL_SAMPLE, SERIAL_START_BIT_TIMEOUT (R81 to R86): a serial port clocks a frame and notes when; the first good sample of an SSI port sets POS from the word and
TRL_ABS_OFFSET and clears UNTRUSTED; a BiSS-C frame with a bad CRC or the error bit, and a frame with no start bit, are discarded and counted; a frame in flight lets no other start, and a
port in line break ignores samples, whose frames are over all the same. -/
def Sys2Proof.Claims.SerialPorts : Prop :=
  ∀ (s : State) (p : PortIx), mainRuns s = true →
    (2 ≤ portMode s p → (mget ({} : SerialPort) s.ser p).startAt = none →
      exec (.serialFrameStart p) s =
        .next (finish (send { s with ser := mput {} s.ser p { mget ({} : SerialPort) s.ser p with startAt := some (motNow s) } } (.serialFrame p)))) ∧
    ((mget ({} : SerialPort) s.ser p).startAt.isSome = true → exec (.serialFrameStart p) s = .next (finish s)) ∧
    (2 ≤ portMode s p → lineBroken s p = true → ∀ (w : BitVec 64) (ok ne : Bool),
      exec (.serialSample p w ok ne) s = .next (finish { s with ser := mput {} s.ser p { mget ({} : SerialPort) s.ser p with startAt := none } })) ∧
    (∀ w : BitVec 64, portMode s p = 2 → lineBroken s p = false → rdB s (TRL_SER_CFG_CRC_EN p) = true →
      exec (.serialSample p w false true) s = .next (finish (serialDiscard p s))) ∧
    (∀ (w : BitVec 64) (ok : Bool), portMode s p = 2 → lineBroken s p = false → exec (.serialSample p w ok false) s = .next (finish (serialDiscard p s))) ∧
    (2 ≤ portMode s p → (mget ({} : SerialPort) s.ser p).startAt.isSome = true → exec (.serialStartBitTimeout p) s = .next (finish (serialDiscard p s))) ∧
    (∀ (w : BitVec 64) (ok ne : Bool),
      let o := trlOpen s p
      let wb := min 48 (max 8 (rd o (TRL_SER_CFG_WORD_BITS p)))
      let fb := min 8 (rd o (TRL_SER_CFG_FRAC_BITS p))
      let w0 := w.toNat % 2 ^ wb
      let u := wr o (TRL_SER_RAW_RAW p) w0
      let q := mget ({} : SerialPort) o.ser p
      let x := trl u p
      let pos : Int := (floorDiv (rdI u (TRL_ABS_OFFSET_OFFSET p)) 256 + ((w0 / 2 ^ fb : Nat) : Int)) * 256 + ((w0 % 2 ^ fb * 2 ^ (8 - fb) : Nat) : Int)
      portMode s p = 3 → lineBroken s p = false → rdB o (TRL_SER_CFG_GRAY p) = false → q.hist = [] → q.valid = false →
        let t0 := q.startAt.getD (motNow u)
        let v := wr { u with ser := mput {} u.ser p { q with startAt := none, word := some (w0 / 2 ^ fb), hist := [(pos, t0)], ivs := 0, ext := 0, discards := 0, valid := true } } (TRL_STATUS_UNTRUSTED p) 0
        exec (.serialSample p w ok ne) s =
          .next (finish (trlMoved (setTrl v p { x with base := pos, dir := false, edgeAt := t0, spd := 0, st := .starting, mst := .starting, edges := [t0], lastEdge := motNow v
                                                       barred := x.barred && decide (pos = x.base) }) p)))

/-- Tier 1. Index edges, speed windows, standstill and serial encoders. -/
def Obligations.SpeedAndSerial : Prop :=
  Claims.SpeedAndIndex ∧ Claims.SerialPorts

/-- TRAIL_PRESET, TRL_UNTRUSTED_CLEAR, TRL_PORT_CFG_WRITE (R72, R80, R94, R96): a preset within the limits puts an incremental trail at the whole count written, corrects the shadow, clears
UNTRUSTED and re-seeks what stands on the trail; the clear clears the trail's mark, and Lantern's unless the port is in line break; a port write that leaves MODE as it is only writes the register (a Z that is no longer watched
leaves its break), one that sets MODE to 0 stops the trail where it stands, and one to a serial mode starts it afresh. -/
def Sys2Proof.Claims.PresetsAndPortModes : Prop :=
  ∀ (s : State),
    (∀ (t : TrailIx) (hi : BitVec 32), hostOpen s = true → t.val < 8 →
      let u := trlOpen s t
      let v := floorDiv (toSigned 64 (joined s (0x40020 + 0x100 * t.val) hi.toNat)) 256 * 256
      let m := wr u (TRL_STATUS_UNTRUSTED t) 0
      let w := wrB m (LAN_PORT_STATUS_UNTRUSTED t) (rdB m (LAN_PORT_STATUS_LINE_BREAK t) || lineBroken m t)
      let x := trl u t
      let y : Trail := { x with base := v, neg := x.dir, edgeAt := motNow s, satDir := none, zPrev := none, barred := false, presetAt := some (s.now / 2) }
      portMode w t = 1 → x.limMin ≤ v → v ≤ x.limMax →
        exec (.trailPreset t hi) s = .next (finish (later (virtSync (sendCorrection (setTrl w t y) t (trlCount y - trlCount x))) (.posStep t)))) ∧
    (∀ t : TrailIx, hostOpen s = true → t.val < 8 → ratioOn s t = false →
      let m := wr s (TRL_STATUS_UNTRUSTED t) 0
      exec (.trlUntrustedClear t) s = .next (finish (wrB m (LAN_PORT_STATUS_UNTRUSTED t) (rdB m (LAN_PORT_STATUS_LINE_BREAK t) || lineBroken m t)))) ∧
    (∀ t : TrailIx, hostOpen s = true → 8 ≤ t.val → ratioOn s t = false → exec (.trlUntrustedClear t) s = .next (finish (wr s (TRL_STATUS_UNTRUSTED t) 0))) ∧
    (∀ (p : PortIx) (v : BitVec 32), hostOpen s = true →
      let o := trlOpen s p
      let w := wr o ⟨0x41000 + 0x40 * p, 0, 14⟩ (Nat.land v.toNat 0x3FFF)
      let u := if rdB w (TRL_PORT_CFG_Z_EN p) then w else wr w (TRL_PIN_Z_LB p) 0
      rdB s (TRL_PORT_CFG_Z_EN p) = true ∨ rdB w (TRL_PORT_CFG_Z_EN p) = false →
        (portMode w p = portMode s p → exec (.trlPortCfgWrite p v) s = .next (finish u)) ∧
        (portMode w p = 0 → portMode s p ≠ 0 →
          exec (.trlPortCfgWrite p v) s =
            .next (finish (trlMoved (setTrl u p { trl u p with base := posNow o p, st := .none, mst := .none, spd := 0, upds := [], edges := [] }) p))) ∧
        (2 ≤ portMode w p → portMode w p ≠ portMode s p → exec (.trlPortCfgWrite p v) s = .next (finish (trlMoved (serialStart u p) p))))

/-- HOME_CAPTURE, HOME_LIMIT_CHANGE, LANTERN_CORRECTION, DIVIDER_EDGE (R87, R88, R91, R94): an armed home input captures POS and disarms (with ZGATE it waits for Z); the limit bits of every
trail follow the levels of the limit inputs, and one that becomes active raises its channel; a correction is applied whole to the shadow, and what gathered behind it crosses next; a divider in debt
emits one quadrature edge of its next phase. -/
def Sys2Proof.Claims.HomesAndDividers : Prop :=
  ∀ (s : State),
    (∀ i : HomeIx, mainRuns s = true → rd s (TRL_HOME_CFG_FUNC i) = 1 → rdB s (TRL_HOME_CFG_ARM i) = true → rd s (TRL_HOME_CFG_TRAIL i) < 12 →
      let o := { s with homeLv := mput false s.homeLv i (!rdB s (TRL_HOME_CFG_POL i)) }
      let t := rd s (TRL_HOME_CFG_TRAIL i)
      let u := wr (wrI o (TRL_HOMECAP_HOMECAP t) (posNow s t)) (TRL_HOME_CFG_ARM i) 0
      (rdB s (TRL_HOME_CFG_ZGATE i) = false →
        exec (.homeCapture i) s = .next (finish (if rdB u (TRL_HOME_CFG_PRESET i) then presetTrail t (rdI u (TRL_HOME_VAL_HOME_VAL t)) u else u))) ∧
      (rdB s (TRL_HOME_CFG_ZGATE i) = true → i.val ∉ (trl s t).homeZ →
        exec (.homeCapture i) s = .next (finish (setTrl o t { trl s t with homeZ := (trl s t).homeZ ++ [i.val] })))) ∧
    (∀ (i : HomeIx) (level : Bool), mainRuns s = true →
      exec (.homeLimitChange i level) s = .next (finish (limitsFollow { s with homeLv := mput false s.homeLv i level }))) ∧
    (∀ t : TrailIx, Sound s →
      rdB (limitsFollow s) (TRL_STATUS_LIMIT_MIN t) = limitActive s t 2 ∧ rdB (limitsFollow s) (TRL_STATUS_LIMIT_MAX t) = limitActive s t 3 ∧
      (limitActive s t 2 = true → rdB s (TRL_STATUS_LIMIT_MIN t) = false → .gyl (144 + 2 * t.val) 0 ∈ (limitsFollow s).todo) ∧
      (limitActive s t 3 = true → rdB s (TRL_STATUS_LIMIT_MAX t) = false → .gyl (145 + 2 * t.val) 0 ∈ (limitsFollow s).todo)) ∧
    (∀ p : PortIx, s.pwr.aon = true →
      let v := mget ({} : CorrS) s.corr p
      let u := { s with corr := mput {} s.corr p { fly := if v.sum = 0 then none else some v.sum } }
      let n := rdI s (LAN_SHADOW_SHADOW p) + v.fly.getD 0
      n ≤ 2 ^ 55 - 1 → -(2 ^ 55) ≤ n → exec (.lanternCorrection p) s = .next (finish (wrI u (LAN_SHADOW_SHADOW p) n))) ∧
    (∀ d : DivIx, mainRuns s = true →
      let x := mget ({} : DividerS) s.div d
      let debt := divTarget s d - x.emitted
      let neg := decide (debt < 0)
      let ph := if neg != rdCB s (TRL_DIV_CFG_INVERT d) then (x.phase + 3) % 4 else (x.phase + 1) % 4
      enabled s (0x43000 + 0x10 * d) = true → divRatioErr s d = false → divHeld s x = false → debt ≠ 0 → debt.natAbs ≤ 65535 →
      (∀ t, x.lastAt = some t → t + 2 * max 4 (rdC s (TRL_DIV_CFG_MINSP d)) ≤ s.now) →
        exec (.dividerEdge d) s =
          .next (finish (send { s with div := mput {} s.div d { x with emitted := x.emitted + (if neg then -1 else 1), phase := ph, lastAt := some s.now } }
            (.divEdge d (quadLevels ph).1 (quadLevels ph).2))))

/-- Tier 1. Presets, port modes, home and limit inputs, corrections and dividers. -/
def Obligations.PresetsHomesAndDividers : Prop :=
  Claims.PresetsAndPortModes ∧ Claims.HomesAndDividers

/-- Tier 2. TIME_SNAPSHOT (R102): afterwards TMB_SNAP holds the time of each domain, the fractions, and DUC as of this TIM edge, DONE is 1, and no register outside the snapshot block has changed. -/
def Obligations.SnapshotCaptures : Prop :=
  ∀ s : State, Sound s → hostOpen s = true → s.todo = [] →
    ∃ t, exec .timeSnapshot s = .next t ∧ (∀ d < 4, rd t (TMB_SNAP_D_TS d) = domNow s d) ∧ rd t TMB_SNAP_DUC_DUC = ducNow s ∧ rd t TMB_SNAP_CTRL_DONE = 1 ∧
      rd t TMB_SNAP_FRAC_FRAC = domFrac s 0 + 256 * domFrac s 1 + 65536 * domFrac s 2 + 16777216 * domFrac s 3 ∧
      (∀ g : FRef, g.a ∉ [(TMB_SNAP_D_TS 0).a, (TMB_SNAP_D_TS 1).a, (TMB_SNAP_D_TS 2).a, (TMB_SNAP_D_TS 3).a, TMB_SNAP_FRAC_FRAC.a, TMB_SNAP_DUC_DUC.a, TMB_SNAP_CTRL_DONE.a] →
        rd t g = rd s g) ∧ t = { s with regs := t.regs }

/-- DOMAIN_SET, DOMAIN_ADJUST, DOMAIN_SRC_WRITE (R100, R101, R103, R106, R107): the joined 64-bit value loads the domain, or is added to it, as a step, with VALID set by a set, and a
disciplined domain goes back to ACQUIRE; SRC = 0 takes the domain to FREE with SRC_ERR clear, a source that is not accepted to FREE with SRC_ERR set. -/
def Sys2Proof.Claims.DomainWrites : Prop :=
  ∀ (s : State) (d : DomIx), hostOpen s = true →
    (∀ hi : BitVec 32,
      exec (.domainSet d hi) s = .next (finish (domWritten (wr (domStep s d (joined s (0x60008 + 0x100 * d) hi.toNat * 2 ^ 40) false) (TMB_DOM_STATUS_VALID d) 1) d))) ∧
    (∀ hi : BitVec 32,
      exec (.domainAdjust d hi) s =
        .next (finish (domWritten (domStep s d (ofSigned 104 ((domRaw s d : Int) + toSigned 64 (joined s (0x60010 + 0x100 * d) hi.toNat) * 2 ^ 40)) false) d))) ∧
    (∀ v : BitVec 32,
      let v' := Nat.land v.toNat 0x3FFFF7F
      let u := wr (wr (wr (wr s (TMB_DOM_CFG_SRC d) (bitsOf v' 1 0)) (TMB_DOM_CFG_PORT d) (bitsOf v' 6 2)) (TMB_DOM_CFG_LOSS d) (bitsOf v' 15 8)) (TMB_DOM_CFG_PTM_MS d) (bitsOf v' 25 16)
      (bitsOf v' 1 0 = 0 → exec (.domainSrcWrite d v) s = .next (finish (setDomState (wr u (TMB_DOM_STATUS_SRC_ERR d) 0) d 0))) ∧
      (bitsOf v' 1 0 ≠ 0 → srcAccepted u (bitsOf v' 1 0) (bitsOf v' 6 2) = false →
        exec (.domainSrcWrite d v) s = .next (finish (setDomState (wr u (TMB_DOM_STATUS_SRC_ERR d) 1) d 0))))

/-- What a step of a domain does (R103): the domain stands at the new value from this edge on, STEP_OLD and STEP_NEW hold the times before and after, a TIME_STEP record names both, STEPPED
sets, and generators and time hand-overs are told of the step. -/
def Sys2Proof.Claims.DomainStep : Prop :=
  ∀ (s : State) (d raw : Nat) (loop : Bool),
    let u := setDom s d { domS s d with value := raw % 2 ^ 104, since := s.now, stepMark := (domS s d).stepMark + 1 }
    let v := record (wr (wr u (TMB_DOM_STEP_OLD_OLD d) (domNow s d)) (TMB_DOM_STEP_NEW_NEW d) (domNow u d)) rpControl 0x0A svNotice 0x1001
      (leBytes 1 d ++ leBytes 1 (b2n loop) ++ leBytes 8 (domNow s d) ++ leBytes 8 (domNow u d))
    (rdB v (TMB_DOM_STATUS_STEPPED d) = true → domStep s d raw loop = later v (.domStep d (domNow s d) (domNow u d))) ∧
    (rdB v (TMB_DOM_STATUS_STEPPED d) = false →
      domStep s d raw loop = later (raise (wr v (TMB_DOM_STATUS_STEPPED d) 1) (srcDomain d)) (.domStep d (domNow s d) (domNow u d)))

/-- Tier 1. Setting and adjusting a domain, its source, and what a step does. -/
def Obligations.DomainWritesAndSteps : Prop :=
  Claims.DomainWrites ∧ Claims.DomainStep

/-- OFFSET_SAMPLE, PTM_DIALOGUE, SAMPLE_LOSS_HOLDOVER, PATH_WINDOW_EXPIRE (R107, R108, R113 to R115): a sample of a LOCKED domain within four times LOCK_NS steers its rate and keeps it LOCKED;
from PTP it counts at a slave port alone, less the ingress adjustment, the path delay and DELAY_ASYM, and a suspect path holds the loop; a PTM dialogue whose delay departs from the mean by more than 32 ns is only counted; loss
of samples takes a disciplined domain to HOLDOVER; a suspect path with too few samples is dropped. -/
def Sys2Proof.Claims.Discipline : Prop :=
  ∀ (s : State) (d : DomIx), mainRuns s = true →
    (∀ x : OffSample, x.newMaster = false → rd s (TMB_DOM_CFG_SRC d) ≠ 0 → rd s (TMB_DOM_CFG_SRC d) ≠ 1 → rdB s (TMB_DOM_STATUS_SRC_ERR d) = false →
      let u := wrI s (TMB_DOM_OFFSET_OFFSET d) (satSigned 32 x.theta)
      let v := loopStep u d x.theta x.tau
      rd u (TMB_DOM_STATUS_STATE d) = 2 → x.theta.natAbs ≤ 4 * (orOne (rd u (TMB_DOM_SERVO_LOCK_NS d)) * 256) →
        exec (.offsetSample d x) s = .next (finish (setDom v d { domS v d with unlockN := 0 }))) ∧
    (∀ x : OffSample, x.newMaster = false → rd s (TMB_DOM_CFG_SRC d) = 1 → rdB s (TMB_DOM_STATUS_SRC_ERR d) = false →
      let p := rd s (TMB_DOM_CFG_PORT d)
      let th : Int := x.theta - rdI s (TMB_PORT_INGRESS_ADJ_ADJ p) - ((rd s (TMB_PORT_MPD_MPD p) : Int) + rdI s (TMB_PORT_DELAY_ASYM_ASYM p))
      x.mpd = none → (portState s p ≠ 2 → exec (.offsetSample d x) s = .next (finish s)) ∧ (portState s p = 2 → rdB s (TMB_PORT_STATUS_PATH_SUSPECT p) = true → exec (.offsetSample d x) s = .next (finish (wrI s (TMB_DOM_OFFSET_OFFSET d) (satSigned 32 th))))) ∧
    (∀ x : PtmSample, rd s (TMB_DOM_CFG_SRC d) = 2 → bme s = true → inD3 s = false → 
      32 < ((x.delay : Int) - ((domS s d).ptmMean.getD x.delay : Nat)).natAbs →
        exec (.ptmDialogue d x) s = .next (finish (addSat (send s (.ptmRequest d)) (TMB_DOM_STATUS_PTM_DISCARD d) 1))) ∧
    (∀ x : PtmSample, rd s (TMB_DOM_CFG_SRC d) = 2 → bme s = true → inD3 s = false → 
      ((x.delay : Int) - ((domS s d).ptmMean.getD x.delay : Nat)).natAbs ≤ 32 →
        let u := send s (.ptmRequest d)
        let v := setDom u d { domS u d with ptmMean := some ((7 * (domS s d).ptmMean.getD x.delay + x.delay) / 8) }
        exec (.ptmDialogue d x) s = .next (finish (offsetCore d x.theta (orOne (rd s (TMB_DOM_CFG_PTM_MS d)) * 10 ^ 6) false v))) ∧
    (rd s (TMB_DOM_STATUS_STATE d) = 1 ∨ rd s (TMB_DOM_STATUS_STATE d) = 2 → exec (.sampleLossHoldover d) s = .next (finish (enterHoldover s d))) ∧
    (∀ n : LaneIx, (mget ({} : PathS) s.path n).suspect.isSome = true →
      exec (.pathWindowExpire n) s =
        .next (finish (wr { s with path := mput {} s.path n { mget ({} : PathS) s.path n with suspect := none } } (TMB_PORT_STATUS_PATH_SUSPECT n) 0)))

/-- TXQ_ID_READ and PTP_EVENT_TRANSMIT (R117, R118): a read of an Ethernet port's queue returns and removes its head and shows its stamp, or returns VALID = 0; on a lane in another mode it
returns 0; the firmware's event message, of a type its port's state (a listening port's Sync is due when its Announce time-out ends) and delay mechanism let it send, goes out on a running port, with its Follow_Up where
Sync is two-step, and its egress stamp is queued. -/
def Sys2Proof.Claims.TransmitStamps : Prop :=
  ∀ (s : State) (n : LaneIx),
    (hostOpen s = true → ethMode s n = true → ∀ e q, mget ([] : List TxStamp) s.txq n = e :: q →
      exec (.txqIdRead n) s =
        .next (finish (send (wr (wr { s with txq := mput [] s.txq n q } (TMB_TXQ_TS_TS n) e.ts) (TMB_TXQ_STATUS_LEVEL n) q.length) (.completion .ok (leBytes 8 e.id))))) ∧
    (hostOpen s = true → mget ([] : List TxStamp) s.txq n = [] ∨ ethMode s n = false →
      exec (.txqIdRead n) s = .next (finish (send s (.completion .ok (leBytes 8 0))))) ∧
    (∀ (ty : BitVec 4) (seq : BitVec 16), mainRuns s = true → ethMode s n = true → rdB s (TMB_PORT_PTP_EN n) = true → rdB s (TMB_PORT_PTP_HOST_STACK n) = false →
      rdB s (CAM_LANE_STATUS_UP n) = true → ty.toNat < 4 →
      let v := if ty.toNat = 0 then ptpTimeout s n else s
      (ptpMay v n ty.toNat = true →
        let u := ptpSend (ptpTake v n) n ty.toNat seq.toNat
        exec (.ptpEventTransmit n ty seq) s = .next (finish (ptpEgress u n (rd v (TMB_PORT_PTP_PTP_DOMAIN n)) ty.toNat seq.toNat))) ∧
      (ptpMay v n ty.toNat = false → exec (.ptpEventTransmit n ty seq) s = .next (finish v)))

/-- Tier 1. The discipline of a domain, the path filter and transmit stamps (log 17). -/
def Obligations.DisciplineAndStamps : Prop :=
  Claims.Discipline ∧ Claims.TransmitStamps

/-- Tier 1. TPG_FIRE and TPG_START_WRITE (R120 to R124): an armed one-shot whose time has come emits one pulse and is disarmed; a periodic generator emits at its grid point's firing
edge and moves to the next, and quiesces after COUNT; a start time written to an enabled one-shot arms it, to a disabled generator only stores it, to another sets CFG_LOCK. -/
def Obligations.Generators : Prop :=
  ∀ (s : State) (g : TpgIx),
    (mainRuns s = true → enabled s (tpgEn g) = true → mget (none : Option Nat) s.gyl.tpg g = none →
      (rdB s (TPG_CFG_PERIODIC g) = false → (tpg s g).armed = true → (tpg s g).late = false → tpgDue s g (gridTime s g 0) = true →
        exec (.tpgFire g) s = .next (finish (tpgEmit (setTpg s g { tpg s g with armed := false, late := false }) g 0 (tpgFine s g (gridTime s g 0))))) ∧
      (rdB s (TPG_CFG_PERIODIC g) = false → (tpg s g).armed = true → (tpg s g).late = true →
        exec (.tpgFire g) s = .next (finish (tpgEmit (setTpg s g { tpg s g with armed := false, late := false }) g 0 0))) ∧
      (rdB s (TPG_CFG_PERIODIC g) = true →
        let x := tpg s g
        let v := tpgEmit (setTpg s g { x with k := x.k + 1 }) g 0 (tpgFine s g (gridTime s g x.k))
        tpgDue s g (gridTime s g x.k) = true →
        (rd v (TPG_COUNT_COUNT g) = 0 ∨ (tpg v g).k < rd v (TPG_COUNT_COUNT g) → exec (.tpgFire g) s = .next (finish v)) ∧
        (rd v (TPG_COUNT_COUNT g) ≠ 0 → rd v (TPG_COUNT_COUNT g) ≤ (tpg v g).k → exec (.tpgFire g) s = .next (finish (wr (wr v (TPG_EN_EN g) 0) (TPG_EN_STATE g) 3)))) ∧
      (rdB s (TPG_CFG_PERIODIC g) = true → tpgDue s g (gridTime s g (tpg s g).k) = false → exec (.tpgFire g) s = .next (finish s))) ∧
    (∀ hi : BitVec 32, hostOpen s = true →
      let v := joined s (0x62008 + 0x40 * g) hi.toNat
      (enState s (tpgEn g) = 0 → exec (.tpgStartWrite g hi) s = .next (finish (wr s (TPG_START_START g) v))) ∧
      (enState s (tpgEn g) = 2 → rdB s (TPG_CFG_PERIODIC g) = false → exec (.tpgStartWrite g hi) s = .next (finish (tpgArmOneShot (wr s (TPG_START_START g) v) g))) ∧
      (enState s (tpgEn g) = 1 ∨ enState s (tpgEn g) = 3 → exec (.tpgStartWrite g hi) s = .next (finish (tpgFlag s g (TPG_STATUS_CFG_LOCK g)))))

/-- STAKE_FIRE and STAKE_REARM (R134 to R136, R138), whatever the walker's reads show: an armed stake whose compare position has reached its target fires; a target passed at arming is fired late
with LATE_FIRE, else skipped and counted; short of the target, in line break, before the cycle of its first compare or in a cycle in which it has fired nothing happens, nor on a null trail (TRAIL above 11); a DONE stake that is re-armed seeks from STK_OFFSET. -/
def Sys2Proof.Claims.StakeFires : Prop :=
  ∀ (s : State) (n : StakeIx),
    (mainRuns s = true → 12 ≤ rd s (STK_CTRL_TRAIL n) → ∀ reads, exec (.stakeFire n reads) s = .next (finish s)) ∧
    (mainRuns s = true → rd s (STK_STATUS_WALK n) = 2 → enabled s (stkEn n) = true → rd s (STK_CTRL_TRAIL n) < 12 → ∀ reads : List MemEcc,
      let e := (stk s n).entry.getD (stkEntry s n (stk s n).idx)
      let met := atOrPast (rdB s (STK_CTRL_DIR n)) (cmp16 s n e.noLead) (rdI s (STK_ARMED_TGT_TGT n))
      (stkBarred s (rd s (STK_CTRL_TRAIL n)) = true ∨ stkCompares s n = false → exec (.stakeFire n reads) s = .next (finish s)) ∧
      (stkBarred s (rd s (STK_CTRL_TRAIL n)) = false → stkCompares s n = true →
        (stkPassed s n = false → met = true → exec (.stakeFire n reads) s = .next (finish (stkFire s n e false reads))) ∧
        (stkPassed s n = false → met = false → exec (.stakeFire n reads) s = .next (finish s)) ∧
        (stkPassed s n = true → rdB s (STK_CTRL_LATE_FIRE n) = true → exec (.stakeFire n reads) s = .next (finish (stkFire s n e true reads))) ∧
        (stkPassed s n = true → rdB s (STK_CTRL_LATE_FIRE n) = false →
          exec (.stakeFire n reads) s = .next (finish (stkMove (raise (addSat s (STK_CNT_SKIP_COUNT n) 1) (srcStakeAlarm n)) n reads))))) ∧
    (hostOpen s = true → rd s (STK_STATUS_WALK n) = 3 → enabled s (stkEn n) = true →
      exec (.stakeRearm n) s =
        .next (finish (wr (wrI s (STK_OFFSET_NOW_OFFSET_NOW n) (rdI s (STK_OFFSET_OFFSET n))) (STK_STATUS_WALK n) 1)))

/-- STAKE_SEEK_COMPLETE (R139, R157), on any trail, a null one too, for a stake that is not steered and whose region does not repeat: the first firing whose target lies strictly ahead of the compare position, in the direction
of travel, is armed; an entry whose read shows an uncorrectable error is reported and skipped, with SKIP counted and ALARM raised, and the walker goes on to the next entry and its read;
with none ahead the stake is DONE and END is raised. -/
def Sys2Proof.Claims.StakeSeeks : Prop :=
  ∀ (s : State) (n : StakeIx), mainRuns s = true → rd s (STK_STATUS_WALK n) = 1 → enabled s (stkEn n) = true → steered s n = false →
    rd s (STK_CYCLE_CYCLE n) = 0 →
    let neg := rdB s (STK_CTRL_DIR n)
    let off := rdI s (STK_OFFSET_OFFSET n)
    let found := seekIn s n neg (if neg then -off else off) (cmp16 s n false) (cmp16 s n true) (rd s (STK_TBL_LEN_LEN n)) 0
    (∀ i k e, found = some (i, k, e) →
      let t := armAt (wrI s (STK_OFFSET_NOW_OFFSET_NOW n) off) n i k e 0 0
      exec (.stakeSeekComplete n []) s = .next (finish (armShow t n)) ∧
      (∀ a xs,
        let w := stkNext (raise (addSat (eccUncorrectable t 3 0 a.toNat) (STK_CNT_SKIP_COUNT n) 1) (srcStakeAlarm n)) n
        exec (.stakeSeekComplete n (.uncorrectable a :: xs)) s = .next (finish (if rd w (STK_STATUS_WALK n) = 3 then w else stkReads n xs w)))) ∧
    (∀ reads, found = none → exec (.stakeSeekComplete n reads) s = .next (finish (raise (wr s (STK_STATUS_WALK n) 3) (srcStakeEnd n))))

/-- Tier 1. Stakes fire, skip, seek and re-arm. -/
def Obligations.Stakes : Prop :=
  Claims.StakeFires ∧ Claims.StakeSeeks

/-- STK_TABLE_ADDR_WRITE, STK_TABLE_DATA3_WRITE, STK_TABLE_DATA3_READ (R155, R156): an address loads its entry; a write of the last word stores the whole entry, re-arms the stakes whose
armed entry it is and steps the address, and a read returns the last word and steps it, wrapping at 131 072. -/
def Sys2Proof.Claims.TriggerTable : Prop :=
  ∀ s : State, hostOpen s = true →
    (∀ v : BitVec 32, exec (.stkTableAddrWrite v) s = .next (finish (twLoad (wr s STK_TW_ADDR_ADDR (v.toNat % 131072))))) ∧
    (∀ v : BitVec 32,
      let a := rd s STK_TW_ADDR_ADDR
      let u := wr s (STK_TW_DATA_DATA 3) v.toNat
      let w := rd u (STK_TW_DATA_DATA 0) + 2 ^ 32 * rd u (STK_TW_DATA_DATA 1) + 2 ^ 64 * rd u (STK_TW_DATA_DATA 2) + 2 ^ 96 * rd u (STK_TW_DATA_DATA 3)
      let x := tableStored (sramStore u a (BitVec.ofNat 128 w)) a
      exec (.stkTableData3Write v) s = .next (finish (twLoad (wr x STK_TW_ADDR_ADDR ((rd x STK_TW_ADDR_ADDR + 1) % 131072))))) ∧
    exec .stkTableData3Read s =
      .next (finish (send (twLoad (wr s STK_TW_ADDR_ADDR ((rd s STK_TW_ADDR_ADDR + 1) % 131072))) (.completion .ok (leBytes 4 (rd s (STK_TW_DATA_DATA 3))))))

/-- PIN_PULSE_END, CXP_TRIGGER_SEND, CXP_FALL_TRIGGER_SEND (R143, R147, R186, Table 5-11): a pin whose pulse ends is not ACTIVE any more and takes a configuration that waited; the rising packet
goes on a lane that is UP with its delay field and is counted, and the falling one WIDTH later, after the firing's crossing; on a lane that is not UP none goes. -/
def Sys2Proof.Claims.PinsAndUplinks : Prop :=
  ∀ s : State, mainRuns s = true →
    (∀ p : PinIx, rdB s (STK_TRG_STATUS_ACTIVE p) = true → (pinS s p).cfgWait = none →
      exec (.pinPulseEnd p) s = .next (finish (wr s (STK_TRG_STATUS_ACTIVE p) 0))) ∧
    (∀ (p : PinIx) (v : Nat), rdB s (STK_TRG_STATUS_ACTIVE p) = true → (pinS s p).cfgWait = some v →
      let u := wr s (STK_TRG_STATUS_ACTIVE p) 0
      exec (.pinPulseEnd p) s = .next (finish (wr (setPin u p { pinS u p with cfgWait := none }) ⟨0x54000 + 0x10 * p, 0, 13⟩ v))) ∧
    (∀ (n : LaneIx) (x : CxpTrig), mget none s.cxp n = some x → x.rose = false → rdB s (CAM_LANE_STATUS_UP n) = true → x.tx ≤ 8 * s.now →
      let d := 125 * (8 * s.now - x.tx) / orOne (Config.cxpUnitPs (laneMode s n)).toNat
      let v := send s (.cxpTrigger n true d)
      let u := addWrap (wr v (STK_CXP_LASTDLY_DELAY n) (delayNs v n d)) (STK_CXP_STATUS_SENT n) 1
      exec (.cxpTriggerSend n) s = .next (finish { u with cxp := mput none s.cxp n (if x.fall then some { x with rose := true } else none) })) ∧
    (∀ (n : LaneIx) (x : CxpTrig), mget none s.cxp n = some x → x.rose = true → rdB s (CAM_LANE_STATUS_UP n) = true →
      x.tx + 8 * rd s (STK_CXP_WIDTH_WIDTH n) + x.lag ≤ 8 * s.now →
      let d := 125 * (8 * s.now - (x.tx + 8 * rd s (STK_CXP_WIDTH_WIDTH n))) / orOne (Config.cxpUnitPs (laneMode s n)).toNat
      let v := send s (.cxpTrigger n false d)
      let u := addWrap (wr v (STK_CXP_LASTDLY_DELAY n) (delayNs v n d)) (STK_CXP_STATUS_SENT n) 1
      exec (.cxpFallTriggerSend n) s = .next (finish { u with cxp := mput none s.cxp n none })) ∧
    (∀ n : LaneIx, rdB s (CAM_LANE_STATUS_UP n) = false → exec (.cxpTriggerSend n) s = .next (finish s) ∧ exec (.cxpFallTriggerSend n) s = .next (finish s))

/-- Tier 1. The trigger table window, trigger pins and CoaXPress triggers. -/
def Obligations.TriggerTableAndPins : Prop :=
  Claims.TriggerTable ∧ Claims.PinsAndUplinks

/-- LANE_SIGNAL_DETECT, LANE_NO_SIGNAL_TIMEOUT, LANE_ALIGNED, LANE_ALIGN_TIMEOUT, LANE_DESKEW_DONE, LANE_LINK_LOSS, LANE_RETRAIN_DONE (R163, R164, Table 6-2): the group of the lane trains
DETECT, ALIGN, DESKEW, UP, a lane alone without DESKEW; a discovery that must run reads the camera's registers and keeps the group in ALIGN until its result makes it retrain; the lack of a signal shows on every lane of the group; a loss or a failure takes it back to DETECT and is counted,
a high bit-error rate shows in HIGH_BER alone and bars the next training. -/
def Sys2Proof.Claims.LaneTraining : Prop :=
  ∀ (s : State) (n : LaneIx), mainRuns s = true →
    let m := masterOf s n
    (train s m = 1 →
      let u := each (members s m) (fun s k => wr s (CAM_LANE_STATUS_NO_SIGNAL k) 0) s
      (mustDiscover u m = false → ∀ disc, exec (.laneSignalDetect n disc) s = .next (finish (setTrain u m 2))) ∧
      (mustDiscover u m = true → exec (.laneSignalDetect n none) s = .next (finish (discoveryRun u m))) ∧
      (∀ d, mustDiscover u m = true → discoveryFits m d = true → exec (.laneSignalDetect n (some d)) s = .next (finish (laneDiscover (discoveryRun u m) m d)))) ∧
    (∀ u : State, discoveryRun u m = send (setTrain (each (members u m) (fun s k => setLane s k { lane s k with discovering := true }) u) m 2) (.cxpBootstrap m)) ∧
    (train s m = 1 →
      exec (.laneNoSignalTimeout n) s =
        let u := each (members s m) (fun s k => wr s (CAM_LANE_STATUS_NO_SIGNAL k) 1) s
        let v := record u rpData 0x0B svInfo 0x3003 (leBytes 1 m ++ leBytes 4 ((u.now - (lane u m).detectAt) / 1000000))
        .next (finish (each (members v m) (fun s k => raise s (srcLane k 3)) v))) ∧
    (train s m = 2 → (lane s m).discovering = false → ethMode s m = false ∨ rdB s (CAM_LANE_STATUS_HIGH_BER m) = false →
      (1 < (members s m).length → exec (.laneAligned n) s = .next (finish (setTrain s m 3))) ∧
      ((members s m).length ≤ 1 → exec (.laneAligned n) s = .next (finish (laneUp s m)))) ∧
    (train s m = 2 → ethMode s m = true → rdB s (CAM_LANE_STATUS_HIGH_BER m) = true → exec (.laneAligned n) s = .next (finish s)) ∧
    (train s m = 2 → exec (.laneAlignTimeout n) s = .next (finish (alignLoss (laneAgain s m) m))) ∧
    (∀ skews : List (BitVec 16), train s m = 3 → (∃ k ∈ skews, 4000 < k.toNat) → exec (.laneDeskewDone n skews) s = .next (finish (alignLoss (laneAgain s m) m))) ∧
    (∀ skews : List (BitVec 16), train s m = 3 → (∀ k ∈ skews, k.toNat ≤ 4000) →
      exec (.laneDeskewDone n skews) s =
        .next (finish (laneUp (each ((members s m).zip (skews.map BitVec.toNat ++ List.replicate 8 0)) (fun s p => wr s (CAM_SKEW_SKEW p.1) p.2) s) m))) ∧
    (train s m = 4 → ∀ cause : LossCause, cause ≠ .highBer →
      exec (.laneLinkLoss n cause) s =
        .next (finish (linkErrors (laneDown (addSat (laneAgain s m) (CAM_CNT_ALIGN_COUNT m) 1) m (match cause with | .signal => 0 | .clock => 1 | _ => 2)) m 1))) ∧
    (1 < train s m → ethMode s m = true → exec (.laneLinkLoss n .highBer) s = .next (finish (wr s (CAM_LANE_STATUS_HIGH_BER m) 1))) ∧
    (train s m = 5 → exec (.laneRetrainDone n) s = .next (finish (laneAgain s m)))

/-- CAM_CTL_READ, CAM_CTL_WRITE, CAM_CTL_ANSWER, CAM_CTL_TIMEOUT (R167, R168): an accepted command sets BUSY and goes to the camera, a write with its bytes; its answer clears BUSY, stores a
read's bytes in the buffer and ends it, and a timeout ends it with ERR 1; an answer with a CRC error is only counted; a command at a BUSY window ends with ERR 4. -/
def Sys2Proof.Claims.CameraControl : Prop :=
  ∀ (s : State) (n : LaneIx),
    (∀ len : BitVec 9, hostOpen s = true → rdB s (CAM_CTL_STATUS_BUSY n) = false → 4 ≤ len.toNat → len.toNat ≤ 256 → len.toNat % 4 = 0 → rdB s (CAM_LANE_STATUS_UP n) = true →
      rdB s (CAM_LANE_STATUS_MEMBER n) = false → ethMode s n = false →
      let a := rd s (CAM_CTL_ADDR_ADDR n) % 2 ^ 32
      let u := wr (wr s (CAM_CTL_STATUS_BUSY n) 1) (CAM_CTL_STATUS_ERR n) 0
      exec (.camCtlRead n len) s = .next (finish (send (setLane u n { lane u n with ctl := some ⟨false, a, len.toNat⟩ }) (.camCommand n false a len.toNat []))) ∧
      exec (.camCtlWrite n len) s =
        .next (finish (send (setLane u n { lane u n with ctl := some ⟨true, a, len.toNat⟩ })
          (.camCommand n true a len.toNat (ramBytes (setLane u n { lane u n with ctl := some ⟨true, a, len.toNat⟩ }) (ctlBuf n) len.toNat))))) ∧
    (∀ len : BitVec 9, hostOpen s = true → rdB s (CAM_CTL_STATUS_BUSY n) = true →
      exec (.camCtlRead n len) s = .next (finish (ctlEnd s n 4 0 (rd s (CAM_CTL_ADDR_ADDR n) % 2 ^ 32)))) ∧
    (∀ (code : BitVec 16) (x : CtlAnswer), mainRuns s = true → x.crcOk = false → rdB s (CAM_LANE_STATUS_UP n) = true →
      exec (.camCtlAnswer n code x) s = .next (finish (linkErrors (addSat s (CAM_CNT_CRC_COUNT n) 1) n 1))) ∧
    (∀ (c : CtlCmd) (code : BitVec 16) (x : CtlAnswer), mainRuns s = true → x.crcOk = true → (lane s n).ctl = some c →
      let u := wr (setLane s n { lane s n with ctl := none }) (CAM_CTL_STATUS_BUSY n) 0
      (x.refused = true → exec (.camCtlAnswer n code x) s = .next (finish (ctlEnd u n 2 code.toNat c.addr))) ∧
      (x.refused = false → c.write = true → exec (.camCtlAnswer n code x) s = .next (finish (ctlEnd u n 0 code.toNat c.addr))) ∧
      (x.refused = false → c.write = false →
        exec (.camCtlAnswer n code x) s = .next (finish (ctlEnd (ramStore u (ctlBuf n) (padTo c.len x.data)) n 0 code.toNat c.addr))) ∧
      exec (.camCtlTimeout n) s = .next (finish (ctlEnd u n 1 0 c.addr)))

/-- CXP_EVENT_PACKET, RAW_RX_POP, RAW_TX_SEND, GVCP_HEARTBEAT_SEND, ETH_FRAME_RECEIVE (R169, R171, R172, R176 to R178, R187, Table 6-5): event packets and frames for the raw path join its
FIFO, and a pop releases the head; a raw frame of a legal length is sent padded to 60 bytes with its FCS, one while another leaves is refused; the heartbeat goes while the privilege is held; a frame to
another address is counted as filtered, one with a bad FCS as an error, an ARP request for the port is answered, a frame to a stream's UDP port goes to the stream; on a lane that quiesces, and takes packets only to finish a line it has begun, no event and no other frame is kept. -/
def Sys2Proof.Claims.RawPath : Prop :=
  ∀ (s : State) (n : LaneIx),
    (∀ data : List (BitVec 8), mainRuns s = true → cxpMode s n = true → laneTakes s n = true →
      (rdB s (CAM_LANE_STATUS_MEMBER n) = false → laneStops s n = false → exec (.cxpEventPacket n ⟨true, data⟩) s = .next (finish (rawPush s n 1 data))) ∧
      (laneStops s n = true → exec (.cxpEventPacket n ⟨true, data⟩) s = .next (finish s)) ∧
      exec (.cxpEventPacket n ⟨false, data⟩) s = .next (finish (crcError s n))) ∧
    (∀ e q, hostOpen s = true → (lane s n).raw = e :: q →
      exec (.rawRxPop n) s = .next (finish (wr (setLane s n { lane s n with raw := q }) (CAM_RAW_RX_STATUS_LEVEL n) q.length))) ∧
    (∀ len : BitVec 12, hostOpen s = true →
      let u := rawTxOver s n
      let f := ramBytes u (0x71800 + 0x2000 * n) len.toNat
      let p := f ++ List.replicate (60 - len.toNat) 0
      let v := send u (.ethFrame n (p ++ leBytes 4 (crc32 p)))
      ((lane u n).tx = none → 14 ≤ len.toNat → len.toNat ≤ 2044 → ethMode u n = true → rdB u (CAM_LANE_STATUS_UP n) = true → ptpIn f = none →
        exec (.rawTxSend n len) s = .next (finish (setLane v n { lane v n with tx := some (v.now + wireNs v n (p.length + 4)) }))) ∧
      ((lane u n).tx ≠ none ∨ len.toNat < 14 ∨ 2044 < len.toNat ∨ ethMode u n = false ∨ rdB u (CAM_LANE_STATUS_UP n) = false →
        exec (.rawTxSend n len) s = .next (finish (wr u (CAM_RAW_TX_STATUS_REFUSED n) 1)))) ∧
    (mainRuns s = true →
      ((lane s n).privilege = true → exec (.gvcpHeartbeatSend n) s = .next (finish (send s (.gvcpHeartbeat n)))) ∧
      ((lane s n).privilege = false → exec (.gvcpHeartbeatSend n) s = .next (finish s))) ∧
    (∀ (x : EthFrame) (ip : BitVec 32), mainRuns s = true → ethMode s n = true → laneTakes s n = true → x.codeErrs = 0 → laneStops s n = true →
      macAccepts s n x.dst.toNat = true → x.fcsOk = true → x.data.length ≤ 9018 → x.kind = .arp ip → exec (.ethFrameReceive n x) s = .next (finish s)) ∧
    (∀ x : EthFrame, mainRuns s = true → ethMode s n = true → laneTakes s n = true → x.codeErrs = 0 → laneStops s n = false →
      (macAccepts s n x.dst.toNat = false → x.fcsOk = true → exec (.ethFrameReceive n x) s = .next (finish (addSat s (CAM_CNT_FILTERED_COUNT n) 1))) ∧
      (macAccepts s n x.dst.toNat = true → x.fcsOk = false → exec (.ethFrameReceive n x) s = .next (finish (crcError s n))) ∧
      (macAccepts s n x.dst.toNat = true → x.fcsOk = true → x.data.length ≤ 9018 →
        (∀ ip, x.kind = .arp ip → rdB s (CAM_ETH_CFG_ARP_FW n) = false → exec (.ethFrameReceive n x) s = .next (finish (rawPush s n 0 x.data))) ∧
        (∀ ip, x.kind = .arp ip → rdB s (CAM_ETH_CFG_ARP_FW n) = true → ip.toNat = rd s (CAM_ETH_IP_IP n) →
          exec (.ethFrameReceive n x) s = .next (finish (send s (.ethAnswer n false)))) ∧
        (∀ ip port p st, x.kind = .udp ip port (some p) → ip.toNat = rd s (CAM_ETH_IP_IP n) →
          (streamsOf s n).find? (fun st => rd s (CAM_STR_BIND_UDP st) == port.toNat) = some st →
            exec (.ethFrameReceive n x) s = .next (finish (gvspPacket s n st x.data.length p)))))

/-- Tier 1. Lane training by Table 6-2, the control window of a camera and the raw path. -/
def Obligations.LanesAndCameraControl : Prop :=
  Claims.LaneTraining ∧ Claims.CameraControl ∧ Claims.RawPath

/-- CXP_STREAM_PACKET, GVSP_RESEND_WAIT, GVSP_BLOCK_TIMEOUT (R165, R166, R175, R182): a good packet of a lane alone goes to the stream of its ID, an image header (not at a lane that quiesces) or data to be cut into lines;
a packet of another type is counted; each missing range of a block is asked for again until it has been asked for MAX times; a block that stays incomplete is closed, recorded, and its missing lines
passed on. -/
def Sys2Proof.Claims.StreamPackets : Prop :=
  ∀ s : State, mainRuns s = true →
    (∀ (n : LaneIx) (x : CxpPacket) (st : Nat), cxpMode s n = true → laneTakes s n = true → x.crcOk = true → x.codeErrs = 0 →
      (x.body = .other → exec (.cxpStreamPacket n x) s = .next (finish (addSat s (CAM_CNT_UNSUP_COUNT n) 1))) ∧
      ((streamsOf s (masterOf s n)).find? (fun st => rd s (CAM_STR_BIND_SRC_ID st) == x.sid.toNat) = some st → receiving s = true →
        ingressFill s n + x.size.toNat ≤ 65536 → (members s (masterOf s n)).length ≤ 1 →
        (∀ w h, x.body = .header w h → laneStops s n = true → exec (.cxpStreamPacket n x) s = .next (finish s)) ∧
        (∀ w h, x.body = .header w h → laneStops s n = false → exec (.cxpStreamPacket n x) s = .next (finish (cxpHeader s st w.toNat h.toNat true))) ∧
        (∀ b, x.body = .data b → exec (.cxpStreamPacket n x) s = .next (finish (cutLines (b.length + 1) s st n true b))))) ∧
    (∀ (st : StreamIx) (b : GvspBlock),
      let n := rd s (CAM_STR_BIND_LANE st)
      ethMode s n = true → (strS s st).blocks = [b] →
      let miss := gvspMissing (strS s st).pp b false
      let asked := fun (c : Nat) => runsOf (miss.filter (fun i => mget 0 b.asks i == c))
      exec (.gvspResendWait st) s =
        .next (finish (each (List.range (rd s (CAM_STR_RESEND_MAX st))) (fun s c => each (asked c) (fun s r => resendAsk s st n b.block r) s) s))) ∧
    (∀ (st : StreamIx) (b : GvspBlock) (bs : List GvspBlock), (strS s st).blocks = b :: bs →
      let n := rd s (CAM_STR_BIND_LANE st)
      let v := addSat s (CAM_CNT_RESEND_FAIL_COUNT n) 1
      let u := raise (record v rpData 0x0B svWarning 0x3006
        (leBytes 1 st ++ leBytes 1 0 ++ leBytes 8 b.block ++ leBytes 4 (gvspMissing (strS v st).pp b true).length)) (srcLane n 11)
      let c := gvspHeadless u st b
      let r := gvspRows (c.height + 1) u st n true c
      exec (.gvspBlockTimeout st) s = .next (finish (gvspDrain (bs.length + 1) (setStr r.1 st { strS r.1 st with blocks := bs, doneBlk := some c.block }) st n)))

/-- CAMERA_LINE (R28, R185, R194, R195): a line of a line-mode stream whose assembly runs takes, once the samples that are too old have gone, the tag sample of its own trigger number, and none where that sample was dropped, and
is passed on to the cutter with it; a sample within MAXAGE and half the number circle stays; a line that waits in the ingress buffer is taken first in, first out. -/
def Sys2Proof.Claims.LinePairing : Prop :=
  ∀ (s : State) (st : StreamIx), mainRuns s = true →
    (∀ l : CamLine, receiving s = true → strActive s st = true → enState s (frmEn st) = 2 → rdB s (CAM_STR_BIND_LINE st) = true → rd s (FRM_STR_BIND_SAMPLER st) ≠ 2 →
      let o := staleDrop s st s.now
      let x := strS o st
      let q := x.nextSeq
      let u := setStr o st { x with samples := x.samples.filter (fun y => y.seq != q), nextSeq := (q + 1) % 65536 }
      let c : RxLine := { lane := rd s (CAM_STR_BIND_LANE st), line := l, at_ := s.now }
      q ≠ x.seq →
        (∀ h, x.samples.find? (fun y => y.seq == q) = some h → exec (.cameraLine st (some l)) s = .next (finish (laterOnce (linePass u st c (some h)) (.judge st)))) ∧
        (x.samples ≠ [] → (∀ y ∈ x.samples, y.seq ≠ q) → exec (.cameraLine st (some l)) s = .next (finish (laterOnce (linePass u st c none) (.judge st))))) ∧
    (∀ (x : StreamS) (mx t : Nat) (h : TagSample) (l : List TagSample), x.samples = h :: l → mx = 0 ∨ t - h.at_ ≤ mx * 1000 → t - h.at_ ≤ 2 * 2 ^ 31 → dropStale mx t x = x) ∧
    (∀ (r : RxLine) (y : TagSample), r.line.missing = false → lineFails s (sampleOld s (some y)) st r.img = false → rdB s (CAM_STR_BIND_LINE st) = true →
      let v := setStr s st { strS s st with setErr := (strS s st).setErr && !r.line.first }
      linePass s st r (some y) = setStr v st { strS v st with lines := (strS v st).lines ++ [⟨some y, false, true, true, r.line.data⟩] }) ∧
    (∀ r rs, (strS s st).rx = r :: rs → exec (.cameraLine st none) s = .next (finish (pairLine (setStr s st { strS s st with rx := rs }) st r))) ∧
    ((strS s st).rx = [] → exec (.cameraLine st none) s = .next (finish s))

/-- Tier 1. Packets become lines, and lines take their samples. -/
def Obligations.StreamLines : Prop :=
  Claims.StreamPackets ∧ Claims.LinePairing

/-- Tier 1. LINE_ASSEMBLE, MARK_REPORT_ARRIVE, LEAD_COPY_COMPLETE (R193, R195, R203, R227, R239, R261): outside a conjunction the cutter takes the oldest waiting line with its record and its stored
bytes, and remembers its record and position; a mark report brings the loop's values to MOT, counts for the hand-over and raises channel 80 + u; a lead copy hands its lines, the old ones that waited within LEAD, then the new ones that waited,
to the new cutter, an inherited loop's open run begun anew where there are lead lines. -/
def Obligations.LinesMarksAndLeads : Prop :=
  ∀ s : State, mainRuns s = true →
    (∀ (st : StreamIx) (l : LineS) (ls : List LineS) (y : TagSample), (strS s st).lines = l :: ls → l.sample = some y → enState s (frmEn st) = 2 → rdB s (CAM_STR_BIND_LINE st) = true →
      (frm s st).conj = none → sampleOld s (some y) = false →
      let u := setStr s st { strS s st with lines := ls }
      let c := lineCfg u st false
      let r := recOf c y l.missing
      let v := feed u st false { rec_ := r, data := storedLine u false st c l, fmt := c.fmt, packed := c.packed, width := c.width } true
      let w := setFrm v st { frm v st with prev := (r :: (frm s st).prev).take 2, lastX := some r.x, lastOld := false }
      exec (.lineAssemble st) s = .next (finish (later (showLag (checkStream (streamJudge (freeSlots w st) st) st) st) (.lagCheck st)))) ∧
    (∀ (u : CompassIx) r rs, (mlk s u).reports = r :: rs →
      let t := setMlk s u { mlk s u with reports := rs }
      exec (.markReportArrive u) s =
        .next (finish (later (later (later (match r.2 with | some l => setMot t u l | none => t) (.chgMark u)) (.gyl (80 + u) 0)) .lockCheck))) ∧
    (∀ (st : StreamIx) (cj : ConjS) (h : Nat), (frm s st).conj = some cj → cj.lead = true → cj.copied = false → cj.xh = none → s.chg.hAt = some h →
      let u := setFrm s st { frm s st with conj := some { cj with copied := true, wait := [] } }
      let v := each (cj.wait.filter (fun l => decide (h < l.rec_.at_ / 2))) (fun s l => feed s st false l true) u
      exec (.leadCopyComplete st) s = .next (finish (later (checkStream (streamJudge (freeSlots v st) st) st) (.judge st)))) ∧
    (∀ (st : StreamIx) (cj : ConjS) (xh : Int) (h : Nat), (frm s st).conj = some cj → cj.lead = true → cj.copied = false → cj.xh = some xh → s.chg.hAt = some h → (frm s st).freedX = none →
      let u := setFrm s st { frm s st with conj := some { cj with copied := true, wait := [] } }
      let sg := cutSign (lineCfg u st true)
      let ls := leadLines u st xh (256 * (s.chg.lead : Int)) sg h ++ cj.wait.filter (fun l => decide (l.rec_.at_ / 2 ≤ h) && decide (sg * xh - 256 * (s.chg.lead : Int) ≤ sg * l.rec_.x))
      let w := onlyIf (!ls.isEmpty) (each ((unitsAll u st false).filter (fun k => (mlk u k).cur.inherited)) (fun s k => setRun s k false none)) u
      let v := each ls (fun s l => feed s st false l false) w
      let z := each (cj.wait.filter (fun l => decide (h < l.rec_.at_ / 2))) (fun s l => feed s st false l true) v
      exec (.leadCopyComplete st) s = .next (finish (later (checkStream (streamJudge (freeSlots z st) st) st) (.judge st))))

/-- The loop on a missed mark, R232: U and P go on by R with the sign of travel, R and TRIM stay. Positions run with the direction of the unit's stream, which the rule leaves unsaid and R231
says. A unit that COASTs within COAST_K goes on; this is what the closing of its window does. -/
def Sys2Proof.Claims.MissedMark : Prop :=
  ∀ (s : State) (u : Nat) (l : Loop), loopOf s u true = some l →
    (l.st = 2 →
      markMissed s u true = setLoop s u true { l with u := l.u + mlkSign s true u * l.r, p := l.p + mlkSign s true u * l.r, st := 3, miss := 1 }) ∧
    (l.st = 3 → l.miss < orOne (rdSet s true (MLK_UNLOCK_THR_COAST_K u)) →
      markMissed s u true = setLoop s u true { l with u := l.u + mlkSign s true u * l.r, p := l.p + mlkSign s true u * l.r, miss := l.miss + 1 })

/-- The loop on an accepted mark outside SEARCH (R231), for an error of zero: the prediction advances by exactly one R, TRIM becomes the saturated distance from U to P, and nothing is
corrected. -/
def Sys2Proof.Claims.MarkOnTime : Prop :=
  ∀ (s : State) (u : Nat) (old : Bool) (sg : Int) (l : Loop),
    (loopMark s u old sg l l.p).1 = 0 ∧
    (loopMark s u old sg l l.p).2 =
      { l with p := l.p + sg * l.r, u := l.u + sg * l.r, trim := satSigned 32 (sg * ((l.p + sg * l.r) - (l.u + sg * l.r))), prev := some l.p, err := 0 }

/-- Tier 2. The mark-lock loop on a missed mark and on a mark at its prediction (sign of travel: log 24). -/
def Obligations.LoopOnMarks : Prop :=
  Claims.MissedMark ∧ Claims.MarkOnTime

/-- CHG_COMMIT_GO (R247, R248, Table 9-3, Table 9-4): in IDLE and ARMED an accepted commit hands over at once; in an acquisition mode one that is not late arms the sequencer; one with a
hand-over armed, in a mode without commits, or on a slot that is not loaded ends with its result code and changes nothing else. -/
def Sys2Proof.Claims.Commits : Prop :=
  ∀ (s : State) (v : BitVec 32), hostOpen s = true →
    let kind := bitsOf v.toNat 2 1
    let a := captured s kind false false
    let u := { s with chg := { s.chg with lead := rd s CHG_CONJ_LEAD_LEAD, trail := rd s CHG_CONJ_TRAIL_TRAIL } }
    let loaded := rd s (CHG_RCP_STATE_STATE (rdShadow s CHG_RCP_SLOT)) = 2 ∨ rd s (CHG_RCP_STATE_STATE (rdShadow s CHG_RCP_SLOT)) = 3
    (mode s < 2 ∨ 8 ≤ mode s → exec (.chgCommitGo v) s = .next (finish (wr s CHG_STATUS_RESULT 7))) ∧
    (mode s = 7 → exec (.chgCommitGo v) s = .next (finish (wr s CHG_STATUS_RESULT 6))) ∧
    (2 ≤ mode s → mode s < 7 → rd s CHG_STATUS_PHASE ≠ 0 → exec (.chgCommitGo v) s = .next (finish (wr s CHG_STATUS_RESULT 5))) ∧
    (2 ≤ mode s → mode s < 7 → rd s CHG_STATUS_PHASE = 0 → kind = 3 ∨ ¬ loaded → exec (.chgCommitGo v) s = .next (finish (wr s CHG_STATUS_RESULT 8))) ∧
    (rd s CHG_STATUS_PHASE = 0 → kind ≠ 3 → loaded → bitOf v.toNat 3 = false → bitOf v.toNat 4 = false → commitBudget s = none →
      (mode s = 2 ∨ mode s = 3 → exec (.chgCommitGo v) s = .next (finish (handOverNow (arm u a kind) a kind))) ∧
      (4 ≤ mode s → mode s ≤ 6 → isLate u a = false → exec (.chgCommitGo v) s = .next (finish (arm u a kind))))

/-- CHG_COMMIT_WITHDRAW, R249: before h the hand-over is disarmed with RESULT = WITHDRAWN and the shadow store stays; in h or later nothing changes but RESULT = TOO_LATE. -/
def Sys2Proof.Claims.Withdrawals : Prop :=
  ∀ s : State, hostOpen s = true →
    (rd s CHG_STATUS_PHASE = 1 →
      let u := wr (wr { s with chg := { s.chg with armed := none } } CHG_STATUS_PHASE 0) CHG_STATUS_RESULT 12
      exec .chgCommitWithdraw s = .next (finish (laterOnce (each (List.range 64) freeSlots u) .heartbeat)) ∧ (each (List.range 64) freeSlots u).shadow = s.shadow) ∧
    (2 ≤ rd s CHG_STATUS_PHASE ∨ rd s CHG_STATUS_PHASE = 0 ∧ rd s CHG_STATUS_RESULT = 2 →
      exec .chgCommitWithdraw s = .next (finish (wr s CHG_STATUS_RESULT 13)))

/-- Tier 1. Commits: at once, armed, or ended with a result code; a withdrawal before h disarms and keeps the shadow store, and later it is TOO_LATE. -/
def Obligations.CommitsAndWithdrawals : Prop :=
  Claims.Commits ∧ Claims.Withdrawals

/-- Tier 1. HANDOVER_CYCLE, SHADOW_COPY_COMPLETE, CONJUNCTION_END, CONJUNCTION_LIMIT_EXPIRE (R31, R251 to R254, R264, Table 9-4): an armed hand-over whose condition is met hands over in this cycle;
at the end of the copy a hand-over with a conjunction enters CHANGEOVER and one taken in IDLE or ARMED is done; a conjunction in which all is done ends, and at CHG_CONJ_LIMIT what is open is closed first. -/
def Obligations.HandOvers : Prop :=
  ∀ s : State, mainRuns s = true →
    (∀ a, s.chg.armed = some a → handoverDue s a = true → exec .handoverCycle s = .next (finish (handOverNow s a (rd s CHG_STATUS_ARMED_KIND)))) ∧
    (∀ a, s.chg.armed = some a → handoverDue s a = false → exec .handoverCycle s = .next (finish s)) ∧
    (rd s CHG_STATUS_PHASE = 2 → s.chg.waiting = [] → s.chg.conj = true → mode s = 4 ∨ mode s = 5 ∨ mode s = 6 →
      exec .shadowCopyComplete s = .next (finish (modeEnter (wr { s with modeCtl := { s.modeCtl with cameFrom := mode s } } CHG_STATUS_PHASE 3) 7 mcConj))) ∧
    (rd s CHG_STATUS_PHASE = 2 → s.chg.waiting = [] → s.chg.conj = false →
      exec .shadowCopyComplete s = .next (finish (chgDone (mlkConjEnd (framesConjEnd s))))) ∧
    (rd s CHG_STATUS_PHASE = 3 → conjDone s = true → exec .conjunctionEnd s = .next (finish (conjEnd s))) ∧
    (rd s CHG_STATUS_PHASE = 3 → conjDone s = false → exec .conjunctionLimitExpire s = .next (finish (conjEnd (wr (conjForce s) CHG_STATUS_CONJ_LIMIT 1))))

/-- Tier 1. CHAIN_LINE_PROCESS, FRAME_CHAIN_COMPLETE, RATE_WINDOW_END, ENGINE_WATCHDOG, CAMP_SELF_TEST_COMPLETE (R270 to R273, R286 to R290): a chain takes the next line of its oldest open frame, which each
engine of its group counts, unless its camp is not ENABLED or waits for the delivery; a frame whose lines are done runs its kernels and goes to delivery; the measured rate is shown and RATE_OVER set above the limit; a watchdog faults its engine; a
self-test marks the failed engines and enables the camp. -/
def Obligations.Chains : Prop :=
  ∀ s : State, mainRuns s = true →
    (∀ (st : StreamIx) (f : Frame), (inCamp s st).find? (fun f => chained s f && decide (f.done < frameLines f)) = some f → enabled s (campEn f.cfg.camp) = true → campWaits s f.cfg.camp = false →
      let u := setFrame s st f.id (fun f => { f with done := f.done + 1 })
      let v := setPxe u st { pxe u st with lines := (pxe u st).lines + 1 }
      let w := each ((engines f.cfg.group).filterMap (engineFor v f.cfg.camp)) (fun s k =>
        addWrap s (PXE_ENG_CNT_LINES_COUNT (16 * f.cfg.camp + k)) 1) v
      exec (.chainLineProcess st .none) s = .next (finish (later (showLag w st) (.lagCheck st)))) ∧
    (∀ (st : StreamIx) (f : Frame) (x : ChainEcc), (inCamp s st).find? (fun f => chained s f && decide (f.done < frameLines f)) = some f →
      enabled s (campEn f.cfg.camp) = false ∨ campWaits s f.cfg.camp = true → exec (.chainLineProcess st x) s = .next (finish s)) ∧
    (∀ (st : StreamIx) (f : Frame) (k : Nat), (inCamp s st).find? (chainReady s) = some f → f.slot = some k →
      exec (.frameChainComplete st) s =
        .next (finish (later (showLag (addWrap (runChain s st f k) (PXE_CNT_FRAMES_COUNT st) 1) st) (.handOver st)))) ∧
    (∀ st : StreamIx,
      let r := min (2 ^ 24 - 1) ((pxe s st).lines * 10)
      let u := wr s (PXE_STR_RATE_MEAS_RATE st) r
      (r ≤ rd u (PXE_STR_RATE_RATE st) → exec (.rateWindowEnd st) s = .next (finish (setPxe u st { pxe s st with lines := 0, rateOver := false }))) ∧
      (rd u (PXE_STR_RATE_RATE st) < r → (pxe s st).rateOver = true →
        let v := wr (setPxe u st { pxe s st with lines := 0, rateOver := true }) (PXE_STR_STATUS_RATE_OVER st) 1
        exec (.rateWindowEnd st) s = .next (finish (raise v (srcEngine (streamEngine v st)))))) ∧
    (∀ e : EngineIx, enState s (campEn (e / 16)) = 2 ∨ enState s (campEn (e / 16)) = 3 → exec (.engineWatchdog e) s = .next (finish (engineFault s e 2))) ∧
    (∀ (c : CampIx) (failed : BitVec 16), enState s (campEn c) = 1 →
      ∃ u, exec (.campSelfTestComplete c failed) s = .next (finish (each (campStreams (setReg u (campEn c) (putField (getReg u (campEn c)) 1 2 2)) c) chainRefresh
          (setReg u (campEn c) (putField (getReg u (campEn c)) 1 2 2)))) ∧
        u = wr (wr (each (List.range 16) (fun s k =>
          let e := 16 * c.val + k
          let s := wr s (PXE_ENG_STATUS_FOR e) 0
          if failed.getLsbD k then wr (wr s (PXE_ENG_STATUS_STATE e) 2) (PXE_ENG_STATUS_CAUSE e) 3
          else wr (wr s (PXE_ENG_STATUS_STATE e) 0) (PXE_ENG_STATUS_CAUSE e) 0) s) (PXE_CAMP_FAILED_FAILED c) failed.toNat) (PXE_CAMP_FAILED_STANDIN c) 0)

/-- ITEM_OFFER (R295, R305 to R308, R310), the context read without an error: an item offered to a queue that is not active is counted and its slot released; one that an active queue has
entries and buffers for takes the next number and joins what is to be written; one without room or buffers, or too long, is dropped at once with its reason. -/
def Sys2Proof.Claims.Admission : Prop :=
  ∀ s : State, mainRuns s = true →
    (∀ o l, s.dlv.ev = o :: l → 2 ≤ mode s → mode s ≠ 11 →
      let t := touchCtx { s with dlv := { s.dlv with ev := l } } o.qid
      let x := queueOf t o.qid
      let c := x.ctx
      let room := decide (1 + b2n x.gap.isSome + b2n x.flu.isSome ≤ freeEntries x)
      let offered := exec (.itemOffer { src := .event, ecc := .none }) s
      (queueActive t c = false → offered = .next (finish (releaseItem (addSat t DLV_CNT_INACTIVE_COUNT 1) o))) ∧
      (queueActive t c = true → 0xFFFFFFC0 < o.len → offered = .next (finish (dropItem t o.qid o 4))) ∧
      (queueActive t c = true → o.len ≤ 0xFFFFFFC0 → c.overwrite = false →
        (o.kind = 3 → room = true → offered = .next (finish (admitItem t o.qid o (some [])))) ∧
        (o.kind = 3 → room = false → offered = .next (finish (dropItem t o.qid o 1))) ∧
        (o.kind ≠ 3 → c.noBuf = true → offered = .next (finish (dropItem t o.qid o (2 + b2n (!room))))) ∧
        (∀ bufs, o.kind ≠ 3 → c.noBuf = false → takeBufs o.len x.descs = some bufs → bufs.length ≤ 65535 →
          (room = true → offered = .next (finish (admitItem t o.qid o (some bufs)))) ∧
          (room = false → offered = .next (finish (dropItem t o.qid o 1)))) ∧
        (o.kind ≠ 3 → c.noBuf = false → takeBufs o.len x.descs = none → x.descs.length < min (2 ^ c.bqLog) 65535 →
          offered = .next (finish (dropItem t o.qid o (2 + b2n (!room)))))) ∧
      (queueActive t c = true → o.len ≤ 0xFFFFFFC0 → c.overwrite = true →
        (x.flu.isSome = true → freeEntries x = 0 → offered = .next (finish (dropItem t o.qid o 1))) ∧
        (x.flu = none → o.kind = 3 → offered = .next (finish (admitItem t o.qid o (some [])))) ∧
        (x.flu = none → o.kind ≠ 3 → c.noBuf = true → offered = .next (finish (dropItem t o.qid o 2))) ∧
        (x.flu = none → o.kind ≠ 3 → c.noBuf = false → offered = .next (finish (fetchOwn (admitItem t o.qid o none) o.qid c.item))))) ∧
    (∀ (k : CampIx) o l, mget ([] : List Offer) s.dlv.camp k = o :: l → 3 ≤ mode s → mode s ≠ 11 →
      let u := offerItem { s with dlv := { s.dlv with camp := mput [] s.dlv.camp k l } } o .none
      exec (.itemOffer { src := .camp k, ecc := .none }) s =
        .next (finish (each (List.range 64) (fun s st => if (frm s st).frames.any (fun f => f.complete) then later s (.handOver st) else s) u)))

/-- What dropping and admitting an item does to the queue (R307, R308, R309): a drop is counted, numbers the item, and opens or extends the gap, which keeps the first number and the OR of the
reasons; an admission closes the gap, whose entry comes before the item's, and takes the buffers. -/
def Sys2Proof.Claims.GapsAreNumbered : Prop :=
  ∀ (s : State) (q : Nat) (o : Offer),
    let x := queueOf s q
    let c := x.ctx
    c.overwrite = false → x.flu = none →
      (∀ reason,
        let u := addSat (addSat s DLV_CNT_DROP_COUNT 1) (DLV_GRP_CNT_DROP_COUNT c.group) 1
        let numbered := { c with item := (c.item + 1) % 2 ^ 32, dropTotal := min (c.dropTotal + 1) (2 ^ 32 - 1) }
        (x.gap = none → dropItem s q o reason = releaseItem (setQueue u q { x with ctx := numbered, gap := some (1, c.item, reason) }) o) ∧
        (∀ n f r, x.gap = some (n, f, r) → dropItem s q o reason = releaseItem (setQueue u q { x with ctx := numbered, gap := some (n + 1, f, Nat.lor r reason) }) o)) ∧
      (∀ bufs n f r, x.gap = some (n, f, r) →
        admitItem s q o (some bufs) = updateGroup (setQueue s q { x with
          ents := x.ents ++ [.gap n f r, .item o c.item (some bufs) c.bci], descs := x.descs.drop bufs.length, gap := none
          ctx := { c with item := (c.item + 1) % 2 ^ 32, bci := (c.bci + bufs.length) % 2 ^ 24 } }) c.group)

/-- Tier 1. Admission and dropping of items, and the numbers of gaps. -/
def Obligations.AdmissionAndGaps : Prop :=
  Claims.Admission ∧ Claims.GapsAreNumbered

/-- ITEM_WRITTEN, ELLIPSIS_WRITE, FLUSHED_WRITE (R299, R300, R308, R309, R311, R312, R323): the front item of a queue goes to the host, its data before its entry, which stands at PI with the phase of PI's
pass, and its slot is released, an item of an overwrite queue over an unconsumed one after that one's VOID; a gap's entry and a FLUSHED entry are written in their turn, and a queue that quiesces then ends; an
uncorrectable error in a read of the context, or in the item's staging page, is reported and faults the queue, the context's with QCTX_ECC. -/
def Sys2Proof.Claims.EntriesAreWritten : Prop :=
  ∀ (s : State) (q : QidIx), mainRuns s = true → dlvOn s = true →
    (∀ o num bufs idx rest,
      let t := touchCtx s q
      let x := queueOf t q
      let c := x.ctx
      x.ents = .item o num (some bufs) idx :: rest → (c.overwrite && o.kind != 3 && decide (((bufs.head?.map (·.2)).getD 0) < o.len)) = false →
      let v := overItem (setQueue t q { x with ents := rest }) q num (o.kind != 3)
      let u := writeItemEntry (writeBufs v c.roData (itemData v o) bufs) q o num bufs.length idx
      let w := addWrap (addWrap u DLV_CNT_ITEMS_COUNT 1) DLV_CNT_BYTES_COUNT o.len
      exec (.itemWritten q .none) s = .next (finish (releaseItem (updateGroup (setQueue w q (skipDropped (queueOf w q))) c.group) o))) ∧
    (∀ y : Queue, y.ctx.overwrite = false → skipDropped y = y) ∧
    (∀ (y : State) (num : Nat) (data : Bool), (queueOf y q).ctx.overwrite = false → overItem y q num data = y) ∧
    (∀ o num bufs idx rest (a : BitVec 35), (queueOf s q).ents = .item o num (some bufs) idx :: rest →
      exec (.itemWritten q (.staging a)) s = .next (finish (queueFault (eccUncorrectable s 4 0 a.toNat) q a.toNat 5))) ∧
    (let t := touchCtx s q
     (cached s (qKey s q) = none →
      exec (.itemWritten q .context) s =
        .next (finish (wr (queueFault (eccUncorrectable t 0 0 (ctxAddr (qKey t q))) q (ctxAddr (qKey t q)) 5) DLV_STATUS_QCTX_ECC 1))) ∧
     (∀ w a, cached s (qKey s q) = some w →
      exec (.itemWritten q (.cache a)) s =
        .next (finish (wr (queueFault (eccUncorrectable t 5 0 a.toNat) q (ctxAddr (qKey t q)) 5) DLV_STATUS_QCTX_ECC 1)))) ∧
    (let x := queueOf s q
     let c := x.ctx
     (∀ n f r rest, c.overwrite = false → x.ents = .gap n f r :: rest → exec (.ellipsisWrite q) s = .next (finish (writeGap (setQueue s q { x with ents := rest }) q n f r))) ∧
     (∀ n f r, c.overwrite = false → x.ents = [] → x.gap = some (n, f, r) → c.state = 2 → 1 ≤ freeEntries x →
      exec (.ellipsisWrite q) s = .next (finish (writeGap (setQueue s q { x with gap := none }) q n f r))) ∧
     (∀ n f b cut rest, x.ents = .flushed n f b cut :: rest →
      exec (.flushedWrite q) s = .next (finish (updateGroup (writeFlushed (setQueue s q { x with ents := rest }) q n f b cut) c.group))) ∧
     (∀ n f b cut, x.ents = [] → x.flu = some (n, f, b, cut) → 1 ≤ freeEntries x →
      exec (.flushedWrite q) s =
        .next (finish (updateGroup (fetchDescs (quiesced (writeFlushed (setQueue s q { x with flu := none }) q n f b cut) q) q) c.group))))

/-- The entry written at a ring position (R299, R314, Table 11-3): 32 bytes at CQ_BASE + 32 times the place in the ring, sent to host memory in one transfer; PI goes on by the entries the position stands for; a
queue whose ARM is 1 is disarmed and notified. An item's, a gap's and a FLUSHED entry stand at PI, with PI's phase. -/
def Sys2Proof.Claims.EntryAtProducerIndex : Prop :=
  ∀ (s : State) (q : Nat),
    let c := (queueOf s q).ctx
    (∀ (pos k : Nat) (entry : List Byte),
      let t := hostWrite s (c.cqBase + 32 * (pos % 2 ^ c.cqLog)) entry false
      let u := setQueue t q (advancePi (queueOf t q) k)
      (c.armed = false → writeEntry s q pos k entry = u) ∧
      (c.armed = true → writeEntry s q pos k entry = notifyPush (setCtx u q (fun c => { c with armed := false })) c.group q)) ∧
    (∀ (x : Queue) (k : Nat), (advancePi x k).ctx = { x.ctx with pi := (x.ctx.pi + k) % 2 ^ 24 }) ∧
    (c.overwrite = false →
      (∀ o num nbuf idx, writeItemEntry s q o num nbuf idx =
        writeEntry s q c.pi 1 (entryBytes o.kind (if o.kind = 3 then 0xFF else o.st) num (itemBody o nbuf idx) (phaseAt c c.pi))) ∧
      (∀ n f b cut, writeFlushed s q n f b cut = writeEntry s q c.pi 1 (entryBytes 5 0xFF ((f + n) % 2 ^ 32) (flushedBody n f b cut) (phaseAt c c.pi)))) ∧
    (∀ n f r, writeGap s q n f r = updateGroup (writeEntry s q c.pi 1 (entryBytes 4 0xFF ((f + n) % 2 ^ 32) (gapBody n f r) (phaseAt c c.pi))) c.group)

/-- Tier 1. Items, gaps and flushes are written at the producer index. -/
def Obligations.EntriesAreWritten : Prop :=
  Claims.EntriesAreWritten ∧ Claims.EntryAtProducerIndex

/-- QCMD_READ, QCMD_WRITE, QCMD_ENABLE, QCMD_DISABLE, QCMD_FLUSH (R294, R312, R313, R320, Table 11-6), whatever the queue and its context, read without an error: each ends with DONE and its RESULT. READ copies the context into
the window; WRITE copies the window into the context of a queue in DISABLED and is refused (RESULT 1) in any other state; ENABLE enables a DISABLED queue whose context is good, ends with RESULT 2 on one that is not, waits for a
queue that quiesces and leaves an enabled one; a fifth pinned context of a set is refused with RESULT 3; DISABLE and FLUSH end with RESULT 0. A context that cannot be read ends each of them with RESULT 2 (log 26). -/
def Sys2Proof.Claims.QueueCommands : Prop :=
  ∀ (s : State) (q : QidIx), hostOpen s = true →
    let a : QAccess := { q := q, ecc := .none }
    let t := touchCtx s q
    let c := (queueOf t q).ctx
    let w := ctxOf (fun i => rd t (DLV_QWIN_DATA i))
    exec (.qcmdRead a) s = .next (finish (qcmdEnd (each (ctxWords c).zipIdx (fun s p => wr s (DLV_QWIN_DATA p.2) p.1) t) 0)) ∧
    exec (.qcmdDisable a) s = .next (finish (qcmdEnd (disableQueue q t) 0)) ∧
    exec (.qcmdFlush a) s = .next (finish (qcmdEnd (flushQueue q t) 0)) ∧
    (c.state ≠ 0 → exec (.qcmdWrite a) s = .next (finish (qcmdEnd t 1))) ∧
    (c.state = 0 → w.pin = true → pinFull t q = true → exec (.qcmdWrite a) s = .next (finish (qcmdEnd t 3))) ∧
    (c.state = 0 → w.pin = false ∨ pinFull t q = false →
      exec (.qcmdWrite a) s = .next (finish (qcmdEnd (updateGroup (fetchDescs (setQueue t q (stateSettled (windowQueue w))) q) w.group) 0))) ∧
    (c.state = 3 → exec (.qcmdEnable a) s = .next (finish (qcmdEnd (setCtx t q (fun c => { c with en := true, enPending := true })) 0))) ∧
    (c.state ≠ 0 → c.state ≠ 3 → exec (.qcmdEnable a) s = .next (finish (qcmdEnd t 0))) ∧
    (c.state = 0 → ctxBad c = true → exec (.qcmdEnable a) s = .next (finish (qcmdEnd t 2))) ∧
    (c.state = 0 → ctxBad c = false → c.pin = true → pinFull t q = true → exec (.qcmdEnable a) s = .next (finish (qcmdEnd t 3))) ∧
    (c.state = 0 → ctxBad c = false → c.pin = false ∨ pinFull t q = false →
      exec (.qcmdEnable a) s = .next (finish (qcmdEnd (updateGroup (fetchDescs (setCtx t q (fun c => { c with state := 2, en := true })) q) c.group) 0))) ∧
    (∀ e : CtxEcc, (ctxAccess s q e).2 = true →
      let failed := qcmdEnd (ctxAccess s q e).1 2
      exec (.qcmdRead { q := q, ecc := e }) s = .next (finish failed) ∧ exec (.qcmdWrite { q := q, ecc := e }) s = .next (finish failed) ∧
      exec (.qcmdEnable { q := q, ecc := e }) s = .next (finish failed) ∧ exec (.qcmdDisable { q := q, ecc := e }) s = .next (finish failed) ∧
      exec (.qcmdFlush { q := q, ecc := e }) s = .next (finish failed))

/-- QUEUE_DOORBELL, DOORBELL_APPLY (R297, R298): a doorbell for a queue that has none waiting joins the FIFO, of 4096, with the halves the write holds, a full FIFO having applied its oldest first; one for a queue
that waits merges; the oldest is applied to its context in the order CI, BPI, ARM, is discarded on a queue that is not ENABLED, and an empty FIFO has none to apply. -/
def Sys2Proof.Claims.Doorbells : Prop :=
  ∀ s : State,
    (∀ (q : QidIx) (lo hi : Option (BitVec 32)), hostOpen s = true →
      let b : Bell := { q := q, ci := lo.map (fun v => bitsOf v.toNat 23 0), bpi := hi.map (fun v => bitsOf v.toNat 23 0), arm := (lo.map (fun v => bitOf v.toNat 31)).getD false }
      let ring := exec (.queueDoorbell { q := q, ecc := .none } lo hi) s
      (s.dlv.bells.any (fun x => x.q == q.val) = false → s.dlv.bells.length < 4096 →
        ring = .next (finish { s with dlv := { s.dlv with bells := s.dlv.bells ++ [b] } })) ∧
      (s.dlv.bells.any (fun x => x.q == q.val) = false → 4096 ≤ s.dlv.bells.length →
        let u := doorbellApply s
        ring = .next (finish { u with dlv := { u.dlv with bells := u.dlv.bells ++ [b] } })) ∧
      (s.dlv.bells.any (fun x => x.q == q.val) = true →
        ring = .next (finish { s with dlv := { s.dlv with bells := s.dlv.bells.map (fun x =>
          if x.q = q.val then { x with ci := b.ci.or x.ci, bpi := b.bpi.or x.bpi, arm := x.arm || b.arm } else x) } }))) ∧
    (mainRuns s = true → s.dlv.bells = [] → exec .doorbellApply s = .next (finish s)) ∧
    (∀ b l, mainRuns s = true → s.dlv.bells = b :: l → b.ecc = .none →
      let t := touchCtx { s with dlv := { s.dlv with bells := l } } b.q
      let c := (queueOf t b.q).ctx
      (c.state ≠ 2 → exec .doorbellApply s = .next (finish t)) ∧
      (c.state = 2 →
        let u := match b.ci with | none => t | some v => bellCi t b.q v
        let v := match b.bpi with | none => u | some n => bellBpi u b.q n
        exec .doorbellApply s = .next (finish (updateGroup (if b.arm then bellArm v b.q else v) c.group))))

/-- Tier 1. The queue-context window's commands, and doorbells. -/
def Obligations.QueueCommandsAndDoorbells : Prop :=
  Claims.QueueCommands ∧ Claims.Doorbells

/-- Where the commands of the queue window end (R294, R312, R313, Table 11-6), the context the host then finds included. READ shows the context's words in the window; WRITE takes the window into a
DISABLED queue's context, with RESULT 1 and the context as it was in any other state; ENABLE takes a good DISABLED context to ENABLED and shows RESULT 2 on a bad one; DISABLE of an ENABLED queue empties it and
leaves it DISABLED, or QUIESCING for its FLUSHED entry; FLUSH empties an ENABLED queue, which stays ENABLED. -/
def Sys2Proof.Claims.QueueCommandResults : Prop :=
  ∀ (s : State) (q : QidIx), hostOpen s = true → Sound s →
    let a : QAccess := { q := q, ecc := .none }
    let x := queueOf s q
    let c := x.ctx
    let ended := fun (u : State) (r : Nat) => rd u DLV_QCMD_STATUS_RESULT = r ∧ rdB u DLV_QCMD_STATUS_DONE = true
    (∃ u, exec (.qcmdRead a) s = .next (finish u) ∧ ended u 0 ∧ (queueOf u q).ctx = c ∧ ∀ i w, (ctxWords c)[i]? = some w → rd u (DLV_QWIN_DATA i) = w % 2 ^ 32) ∧
    (c.state = 0 →
      let w := ctxOf (fun i => rd s (DLV_QWIN_DATA i))
      w.pin = false → ∃ u, exec (.qcmdWrite a) s = .next (finish u) ∧ ended u 0 ∧ (queueOf u q).ents = [] ∧
        (w.state = 0 → w.ellPend = false → w.fluPend = false → (queueOf u q).ctx = w) ∧
        (let v := (queueOf u q).ctx
         v.cqBase = w.cqBase ∧ v.bqBase = w.bqBase ∧ v.cfg = w.cfg ∧ v.pi = w.pi ∧ v.ci = w.ci ∧ v.bpi = w.bpi ∧ v.bci = w.bci ∧ v.item = w.item ∧ v.armed = w.armed ∧ v.fault = w.fault ∧ v.lost = w.lost ∧
           v.dropTotal = w.dropTotal)) ∧
    (c.state ≠ 0 → ∃ u, exec (.qcmdWrite a) s = .next (finish u) ∧ ended u 1 ∧ (queueOf u q).ctx = c ∧ u.dlv.qs = s.dlv.qs) ∧
    (c.state = 0 → ctxBad c = false → c.pin = false →
      ∃ u, exec (.qcmdEnable a) s = .next (finish u) ∧ ended u 0 ∧ (queueOf u q).ctx = showPending { c with state := 2, en := true } x.toQueueW) ∧
    (c.state = 0 → ctxBad c = true → ∃ u, exec (.qcmdEnable a) s = .next (finish u) ∧ ended u 2 ∧ (queueOf u q).ctx = c ∧ u.dlv.qs = s.dlv.qs) ∧
    (c.state = 2 → ∃ u, exec (.qcmdDisable a) s = .next (finish u) ∧ ended u 0 ∧ (queueOf u q).ents = [] ∧ (queueOf u q).ctx.en = false ∧
      ((queueOf u q).ctx.state = 0 ∨ (queueOf u q).ctx.state = 3)) ∧
    (c.state = 2 → ∃ u, exec (.qcmdFlush a) s = .next (finish u) ∧ ended u 0 ∧ (queueOf u q).ents = [] ∧ (queueOf u q).ctx.state = 2)

/-- The cache is transparent (R320): an access to a queue's context leaves that context as it stood, and puts it in the cache; what is set there is what the next access finds; and a context that is set
reads back as it was set, what it shows of its queue's pending entries apart. -/
def Sys2Proof.Claims.ContextCacheIsTransparent : Prop :=
  ∀ (s : State) (q : Nat), Sound s →
    ctxAt (touchCtx s q) (qKey s q) = ctxAt s (qKey s q) ∧ (cached (touchCtx s q) (qKey s q)).isSome = true ∧
    (∀ x : Queue, (queueOf (setQueue s q x) q).ctx = showPending x.ctx x.toQueueW ∧ (queueOf (setQueue s q x) q).ents = x.ents) ∧
    (∀ w : Nat → Nat, (∀ i, w i < 2 ^ 32) → (ctxWords (ctxOf w)).length = 16 ∧ (ctxWords (ctxOf w)).getD 0 0 = w 0 ∧ (ctxWords (ctxOf w)).getD 10 0 = w 10 ∧ ctxOf (fun i => (ctxWords (ctxOf w)).getD i 0) = ctxOf w)

/-- Where a doorbell ends (R297, R298). In the FIFO: a doorbell for a queue that has one waiting is merged with it, the later halves taken and ARM kept; one that finds the FIFO full joins it when its
oldest has been applied. In the context of an ENABLED queue: a CI no more than the ring behind PI, and a BPI no more than the ring ahead of BCI, are taken, and another sets DB_ERR and changes nothing; ARM arms
a queue with NOTIFY that has no unconsumed entry, and notifies one that has. -/
def Sys2Proof.Claims.DoorbellResults : Prop :=
  ∀ (s : State), Sound s →
    (∀ (q : QidIx) (lo hi : Option (BitVec 32)) (b : Bell) (rest : List Bell), hostOpen s = true → s.dlv.bells = b :: rest → b.q = q.val → rest.any (fun y => y.q == q.val) = false →
      exec (.queueDoorbell { q := q, ecc := .none } lo hi) s = .next (finish { s with dlv := { s.dlv with bells :=
        { b with ci := (lo.map (fun v => bitsOf v.toNat 23 0)).or b.ci, bpi := (hi.map (fun v => bitsOf v.toNat 23 0)).or b.bpi
                 arm := b.arm || (lo.map (fun v => bitOf v.toNat 31)).getD false } :: rest } })) ∧
    (∀ (q : QidIx) (lo hi : Option (BitVec 32)), hostOpen s = true → s.dlv.bells.any (fun y => y.q == q.val) = false → 4096 ≤ s.dlv.bells.length →
      ∃ u, exec (.queueDoorbell { q := q, ecc := .none } lo hi) s = .next (finish u) ∧ u.dlv.bells = s.dlv.bells.drop 1 ++
        [{ q := q, ci := lo.map (fun v => bitsOf v.toNat 23 0), bpi := hi.map (fun v => bitsOf v.toNat 23 0), arm := (lo.map (fun v => bitOf v.toNat 31)).getD false }]) ∧
    (∀ (b : Bell) (rest : List Bell), mainRuns s = true → s.dlv.bells = b :: rest → b.q < 2 ^ 20 → b.ecc = .none →
      let x := queueOf s b.q
      let c := x.ctx
      let ends := fun (p : State → Prop) => ∃ u, exec .doorbellApply s = .next (finish u) ∧ u.dlv.bells = rest ∧ p u
      c.state = 2 →
        (∀ v, b.ci = some v → b.bpi = none → b.arm = false → (c.pi + 2 ^ 24 - v) % 2 ^ 24 ≤ c.ring → ends (fun u => (queueOf u b.q).ctx = showPending { c with ci := v } x.toQueueW)) ∧
        (∀ v, b.ci = some v → b.bpi = none → b.arm = false → c.ring < (c.pi + 2 ^ 24 - v) % 2 ^ 24 → c.group < 256 →
          ends (fun u => (queueOf u b.q).ctx = c ∧ rdB u (DLV_GRP_STATUS_DB_ERR c.group) = true)) ∧
        (∀ v, b.ci = none → b.bpi = some v → b.arm = false → (v + 2 ^ 24 - c.bci) % 2 ^ 24 ≤ 2 ^ c.bqLog → ends (fun u => (queueOf u b.q).ctx = showPending { c with bpi := v } x.toQueueW)) ∧
        (b.ci = none → b.bpi = none → b.arm = true → c.notify = true → x.used = 0 → ends (fun u => (queueOf u b.q).ctx = showPending { c with armed := true } x.toQueueW)) ∧
        (b.ci = none → b.bpi = none → b.arm = true → c.notify = true → x.used ≠ 0 → (mget ([] : List Nat) s.dlv.fifo c.group).length < 64 →
          ends (fun u => (queueOf u b.q).ctx = showPending { c with armed := false } x.toQueueW ∧ mget ([] : List Nat) u.dlv.fifo c.group = mget [] s.dlv.fifo c.group ++ [b.q])))

/-- Where an offered item ends (R295, R305 to R308): with room in the ring and, for a FRAME, buffers, it takes the queue's next number, stands last of what is to be written and takes the buffers;
without room, or without buffers, it takes the next number too and is dropped at once into a gap with its reason; and its FIFO goes on. -/
def Sys2Proof.Claims.ItemResults : Prop :=
  ∀ (s : State) (o : Offer) (l : List Offer), mainRuns s = true → Sound s → 3 ≤ mode s → mode s ≠ 11 → o.len ≤ 0xFFFFFFC0 → o.qid < 2 ^ 20 →
    let x := queueOf s o.qid
    let c := x.ctx
    queueActive s c = true → c.overwrite = false → x.gap = none → x.flu = none → x.ents.all QEnt.isItem = true →
      let dropped := fun (u : State) (reason : Nat) =>
        let v := queueOf u o.qid
        v.ents = x.ents ∧ v.gap = some (1, c.item, reason) ∧ v.ctx.item = (c.item + 1) % 2 ^ 32 ∧ v.ctx.ellPend = true ∧ v.ctx.drops = 1 ∧ v.ctx.dfirst = c.item ∧ v.ctx.dreason = reason ∧
          v.ctx.dropTotal = min (c.dropTotal + 1) (2 ^ 32 - 1)
      (s.dlv.ev = o :: l → o.kind = 3 →
        (1 ≤ freeEntries x → ∃ u, exec (.itemOffer { src := .event, ecc := .none }) s = .next (finish u) ∧ u.dlv.ev = l ∧
          (queueOf u o.qid).ents = x.ents ++ [.item o c.item (some []) c.bci] ∧ (queueOf u o.qid).ctx.item = (c.item + 1) % 2 ^ 32) ∧
        (freeEntries x = 0 → ∃ u, exec (.itemOffer { src := .event, ecc := .none }) s = .next (finish u) ∧ u.dlv.ev = l ∧ dropped u 1)) ∧
      (∀ (k : CampIx), mget ([] : List Offer) s.dlv.camp k = o :: l → o.kind ≠ 3 → c.noBuf = false →
        (∀ bufs, takeBufs o.len x.descs = some bufs → bufs.length ≤ 65535 → 1 ≤ freeEntries x →
          ∃ u, exec (.itemOffer { src := .camp k, ecc := .none }) s = .next (finish u) ∧ (queueOf u o.qid).ents = x.ents ++ [.item o c.item (some bufs) c.bci] ∧
            (queueOf u o.qid).descs = x.descs.drop bufs.length ∧ (queueOf u o.qid).ctx.item = (c.item + 1) % 2 ^ 32 ∧ (queueOf u o.qid).ctx.bci = (c.bci + bufs.length) % 2 ^ 24) ∧
        (takeBufs o.len x.descs = none → x.descs.length < 2 ^ c.bqLog → x.descs.length < 65535 → 1 ≤ freeEntries x →
          ∃ u, exec (.itemOffer { src := .camp k, ecc := .none }) s = .next (finish u) ∧ dropped u 2))

/-- Tier 2. Where queue commands, doorbells and offered items end: the context the host then finds (order of admission: log 25; caches and doorbells: log 26). -/
def Obligations.DeliveryResults : Prop :=
  Claims.QueueCommandResults ∧ Claims.ContextCacheIsTransparent ∧ Claims.DoorbellResults ∧ Claims.ItemResults

/-- Tier 1. GROUP_FIFO_READ, GROUP_HOLDOFF_END, DELIVERY_RESUME (R316, R317, R324): a read of the notification FIFO answers its oldest queue ID with VALID = 1 and takes it out, or 0; the end of a
holdoff raises a cause that was held and starts the next holdoff; RESUME lets delivery issue requests again, only while the device may, and reads again the descriptors whose reads were discarded. -/
def Obligations.GroupsAndResume : Prop :=
  ∀ (s : State) (g : GroupIx),
    (hostOpen s = true → ∀ q l, mget ([] : List Nat) s.dlv.fifo g = q :: l →
      exec (.groupFifoRead g) s =
        .next (finish (send (updateGroup { s with dlv := { s.dlv with fifo := mput [] s.dlv.fifo g l } } g) (.completion .ok (leBytes 8 (q + 2 ^ 63)))))) ∧
    (hostOpen s = true → mget ([] : List Nat) s.dlv.fifo g = [] → exec (.groupFifoRead g) s = .next (finish (send s (.completion .ok (leBytes 8 0))))) ∧
    (mainRuns s = true → mget none s.dlv.hold g = none → exec (.groupHoldoffEnd g) s = .next (finish s)) ∧
    (mainRuns s = true → mget none s.dlv.hold g = some false →
      exec (.groupHoldoffEnd g) s = .next (finish { s with dlv := { s.dlv with hold := mput none s.dlv.hold g none } })) ∧
    (mainRuns s = true → mget none s.dlv.hold g = some true →
      exec (.groupHoldoffEnd g) s = .next (finish (groupCause { s with dlv := { s.dlv with hold := mput none s.dlv.hold g none } } g))) ∧
    (hostOpen s = true → mayIssue s = false ∨ s.dlv.resumed = true → exec .deliveryResume s = .next (finish s)) ∧
    (hostOpen s = true → mayIssue s = true → s.dlv.resumed = false →
      let u := { s with dlv := { s.dlv with resumed := true } }
      exec .deliveryResume s =
        .next (finish (each (liveQueues u) (fun s p =>
          if p.2.ctx.overwrite then each p.2.ents (fun s e => match e with | .item _ n none _ => fetchOwn s p.1 n | _ => s) s
          else fetchDescs s p.1) u)))

/-- DMA_DOORBELL, DMA_HEAD_WRITE, DMA_RESTART, ENGINE_HALT_CLEAR (R332, R336, R344, R347, Table 12-3): an idle channel starts at HEAD (in IDLE and SERVICE once the mode lets it), an active one marks DB_PEND, a halted one ignores the
doorbell; HEAD is taken in IDLE, HALTED and MASTER_OFF only, its low half held either way; RESTART takes a halted channel to IDLE, or sets RESTART_REF and raises HALT; ENGINE_HALT clears unless DRAINING. -/
def Sys2Proof.Claims.ChannelControl : Prop :=
  ∀ (s : State) (c : DmaIx), hostOpen s = true →
    let r := rd s (DMA_CH_STATUS_RUN c)
    (dmaRuns s c = true → r = 0 → dmaBlocked s = false → exec (.dmaDoorbell ⟨c, .none⟩) s = .next (finish (dmaStart s c (64 * rd s (DMA_CH_HEAD_HEAD c))))) ∧
    (dmaRuns s c = false → exec (.dmaDoorbell ⟨c, .none⟩) s = .next (finish s)) ∧
    (dmaRuns s c = true → r = 0 → dmaBlocked s = true → exec (.dmaDoorbell ⟨c, .none⟩) s = .next (finish (setDma s c { dma s c with bell := true }))) ∧
    (dmaRuns s c = true → r = 1 → exec (.dmaDoorbell ⟨c, .none⟩) s = .next (finish (wr s (DMA_CH_STATUS_DB_PEND c) 1))) ∧
    (dmaRuns s c = true → r = 2 → dmaBlocked s = false → exec (.dmaDoorbell ⟨c, .none⟩) s = .next (finish (dmaRefetch s c .none))) ∧
    (dmaRuns s c = true → 3 ≤ r → exec (.dmaDoorbell ⟨c, .none⟩) s = .next (finish s)) ∧
    (∀ v : BitVec 64,
      let u := holdLow s (0x131008 + 0x40 * c) v.toNat
      (dmaRuns s c = true → r = 0 ∨ r = 3 ∨ r = 4 →
        exec (.dmaHeadWrite c v) s = .next (finish (wr u (DMA_CH_HEAD_HEAD c) (Nat.land v.toNat 0xFFFFFFFFFFFFFFC0 / 64)))) ∧
      (dmaRuns s c = false ∨ r = 1 ∨ r = 2 → exec (.dmaHeadWrite c v) s = .next (finish u))) ∧
    (r = 3 ∨ r = 4 → enState s (dmaEn c) ≠ 0 → rdB s DMA_STATUS_DRAINING = false → mayIssue s = true →
      exec (.dmaRestart c) s = .next (finish (wr (wr (setDma s c {}) (DMA_CH_STATUS_RUN c) 0) (DMA_CH_STATUS_CAUSE c) 0))) ∧
    ((r ≠ 3 ∧ r ≠ 4) ∨ rdB s DMA_STATUS_DRAINING = true ∨ mayIssue s = false →
      exec (.dmaRestart c) s = .next (finish (raise (wr s (DMA_CH_STATUS_RESTART_REF c) 1) (srcDmaHalt c)))) ∧
    (rdB s DMA_STATUS_DRAINING = false → exec .engineHaltClear s = .next (finish (wr s DMA_STATUS_ENGINE_HALT 0))) ∧
    (rdB s DMA_STATUS_DRAINING = true → exec .engineHaltClear s = .next (finish s))

/-- DMA_DESCRIPTOR_COMPLETE, BARRIER_READ_COMPLETE (R332, R338, R339, R346): a descriptor whose bytes have all been moved gets its completion entry and its counts, and then the channel
follows NEXT or parks; with BARRIER a zero-length read of its last host byte comes first; an uncorrectable error of HBM, or of the staging page of a descriptor that moves bytes, halts the
channel with CAUSE 5. -/
def Sys2Proof.Claims.DescriptorsComplete : Prop :=
  ∀ (s : State) (c : DmaIx), mainRuns s = true →
    (∀ addr st, dmaMoved s c = true → ((dma s c).barrier = false ∨ inHbm (dma s c).dst = true ∨ (dma s c).bytes = 0) →
      exec (.dmaDescriptorComplete ⟨c, .none⟩ .none st addr) s = .next (finish (dmaFinish s c .none)) ∧
      (dmaReadsHbm s c = true → exec (.dmaDescriptorComplete ⟨c, .none⟩ .uncorrectable false addr) s = .next (finish (haltCh (eccUncorrectable s 0 0 addr.toNat) c 5))) ∧
      ((dma s c).bytes ≠ 0 → exec (.dmaDescriptorComplete ⟨c, .none⟩ .uncorrectable true addr) s = .next (finish (haltCh (eccUncorrectable s 4 0 addr.toNat) c 5)))) ∧
    (∀ addr st, dmaMoved s c = true → (dma s c).barrier = true → inHbm (dma s c).dst = false → (dma s c).bytes ≠ 0 →
      exec (.dmaDescriptorComplete ⟨c, .none⟩ .none st addr) s =
        .next (finish (wantRead (setDma s c { dma s c with stage := 4 }) (.dmaBarrier c) (lowAddr (dma s c).dst + (dma s c).bytes - 1) 0))) ∧
    (∀ tag r, s.hep.tags = [(tag, r)] → r.who = .dmaBarrier c → r.discard = false → (dma s c).stage = 4 →
      exec (.barrierReadComplete ⟨c, .none⟩) s = .next (finish (dmaFinish (drainShow (laterOnce { s with hep := { s.hep with tags := [] } } .pump)) c .none)))

/-- Tier 1. DMA channels: doorbells, heads, restarts and completed descriptors (log 27). -/
def Obligations.DmaChannels : Prop :=
  Claims.ChannelControl ∧ Claims.DescriptorsComplete

/-- Tier 1. COMPLETION_RECEIVE, COMPLETION_TIMEOUT, QUARANTINE_EXPIRE (R377 to R381, R323, R344): the completion that makes a read whole frees its tag and the reader takes its data; a piece is kept;
a failed one fails its reader with its cause; one for a tag that is not in use is unexpected, logged with its header, or late and counted when the tag is in quarantine. A timeout logs the error, counts it, puts the tag in
quarantine and fails the reader. -/
def Obligations.Completions : Prop :=
  ∀ (s : State) (tag : Fin 1024), mainRuns s = true →
    (∀ (x : Cpl) r, s.hep.tags.find? (fun p => p.1 == tag.val) = some (tag.val, r) →
      (x.status = .ok → r.len ≤ ((r.got ++ x.data).take r.len).length →
        exec (.completionReceive tag x) s = .next (finish (readDone s tag { r with got := (r.got ++ x.data).take r.len }))) ∧
      (x.status = .ok → ((r.got ++ x.data).take r.len).length < r.len →
        exec (.completionReceive tag x) s = .next (finish { s with hep := { s.hep with
          tags := s.hep.tags.map (fun p => if p.1 = tag.val then (tag.val, { r with got := (r.got ++ x.data).take r.len }) else p) } })) ∧
      (x.status = .unsupported → exec (.completionReceive tag x) s = .next (finish (readFailed (dropTag (cfgOr s 0x04 (2 ^ 29)) tag) r 1))) ∧
      (x.status = .abort → exec (.completionReceive tag x) s = .next (finish (readFailed (dropTag (cfgOr s 0x04 (2 ^ 28)) tag) r 2))) ∧
      (x.status = .poisoned → exec (.completionReceive tag x) s = .next (finish (readFailed (dropTag (poisonedTlp s true (cplHead tag x)) tag) r 3))) ∧
      (let u := windowInc (addSat (uncorrectable s 14 none) HEP_CNT_CPL_TO_COUNT 1) 83 1
       exec (.completionTimeout tag) s = .next (finish (readFailed (dropTag { u with hep := { u.hep with quar := u.hep.quar ++ [tag.val] } } tag) r 4)))) ∧
    (∀ x, s.hep.tags.find? (fun p => p.1 == tag.val) = none →
      let u := advisory s 16 (cplHead tag x)
      (s.hep.quar.contains tag.val = false → exec (.completionReceive tag x) s = .next (finish u)) ∧
      (s.hep.quar.contains tag.val = true →
        exec (.completionReceive tag x) s =
          .next (finish (laterOnce (raise (addSat { u with hep := { u.hep with quar := u.hep.quar.filter (· != tag.val) } } HEP_CNT_LATE_CPL_COUNT 1) srcHepLate) .pump)))) ∧
    exec (.quarantineExpire tag) s = .next (finish (laterOnce { s with hep := { s.hep with quar := s.hep.quar.filter (· != tag.val) } } .pump))

/-- Where a channel's work ends (R332, R333, R338, R339, R347): a doorbell on an IDLE channel makes it ACTIVE at HEAD with the read of its descriptor asked for; the last descriptor of a chain, once its
bytes are moved, and with BARRIER once its read is complete, counts in DONE and leaves the channel PARKED. -/
def Sys2Proof.Claims.ChannelResults : Prop :=
  ∀ (s : State) (c : DmaIx), Sound s → dmaRuns s c = true →
    (hostOpen s = true → rd s (DMA_CH_STATUS_RUN c) = 0 → dmaBlocked s = false → rd s (DMA_CH_CPL_BASE_BASE c) = 0 → rd s (DMA_CH_HEAD_HEAD c) < 2 ^ 57 →
      ∃ u, exec (.dmaDoorbell ⟨c, .none⟩) s = .next (finish u) ∧ rd u (DMA_CH_STATUS_RUN c) = 1 ∧ rd u (DMA_CH_CUR_CUR c) = 64 * rd s (DMA_CH_HEAD_HEAD c) ∧ (dma u c).stage = 1) ∧
    (mainRuns s = true → (dma s c).fullStop = true → (dma s c).irq = false → rdB s (DMA_CH_STATUS_DB_PEND c) = false → rd s (DMA_CH_CPL_BASE_BASE c) = 0 →
      let parked := fun (u : State) => rd u (DMA_CH_STATUS_RUN c) = 2 ∧ rd u (DMA_CH_DONE_DONE c) = (rd s (DMA_CH_DONE_DONE c) + 1) % 2 ^ 32
      (dmaMoved s c = true → (dma s c).barrier = false → ∀ addr st, ∃ u, exec (.dmaDescriptorComplete ⟨c, .none⟩ .none st addr) s = .next (finish u) ∧ parked u) ∧
      (∀ tag r, s.hep.tags = [(tag, r)] → r.who = .dmaBarrier c → r.discard = false → (dma s c).stage = 4 →
        ∃ u, exec (.barrierReadComplete ⟨c, .none⟩) s = .next (finish u) ∧ parked u ∧ u.hep.tags = []))

/-- Where a read ends (R332, R377, R378, R381): the completion that makes a channel's data read whole frees its tag and leaves the bytes in HBM; a timeout frees the request, puts the tag in
quarantine and counts it; the end of the quarantine takes the tag out. -/
def Sys2Proof.Claims.ReadResults : Prop :=
  ∀ (s : State) (tag : Fin 1024) (r : ReadReqS), mainRuns s = true → Sound s → s.hep.tags = [(tag.val, r)] →
    (∀ (c : DmaIx) dst d, r.who = .dmaData c dst → r.discard = false → s.hep.ready = [] → (dma s c).bad = false → r.got = [] → d.length = r.len → 1 ≤ r.len → dst + r.len ≤ hbmSize →
      ∃ u, exec (.completionReceive tag { status := .ok, data := d }) s = .next (finish u) ∧ hbmRead u dst r.len = d ∧ u.hep.tags = []) ∧
    (∀ q, r.who = .queueRing q → r.discard = false →
      ∃ u, exec (.completionTimeout tag) s = .next (finish u) ∧ u.hep.tags = [] ∧ u.hep.quar = s.hep.quar ++ [tag.val] ∧ (queueOf u q).ctx.fault = true ∧ (queueOf u q).ctx.state = 0) ∧
    (∃ u, exec (.quarantineExpire tag) s = .next (finish u) ∧ u.hep.quar.contains tag.val = false)

/-- Tier 2. Where a channel's work and a read end (log 27). -/
def Obligations.ReadResults : Prop :=
  Claims.ChannelResults ∧ Claims.ReadResults

/-- PERST_ASSERT, HOT_RESET, DL_DOWN, RESET_HOLD_END, PERST_DEASSERT (R383, R506, R530): a conventional reset first flushes the recorder's ring; the hold of 1 ms keeps the main domain in
reset; when nothing holds it there any more it starts from BOOT with the levels of the straps. -/
def Sys2Proof.Claims.Resets : Prop :=
  ∀ s : State,
    (mainRuns s = true → s.modeCtl.resetWait = false →
      exec .perstAssert s = .next (finish (resetFlush { s with pwr := { s.pwr with perst := true } })) ∧
      exec .hotReset s = .next (finish (resetFlush { s with pwr := { s.pwr with hold := true } })) ∧
      exec .dlDown s = .next (finish (resetFlush { wr s HEP_LINK_DL_UP 0 with pwr := { s.pwr with hold := true } }))) ∧
    (s.pwr.aon = true → s.pwr.main = true → s.pwr.reset = true → s.pwr.fail = false →
      (s.pwr.perst = false → s.pwr.hold = true →
        let u := { s with pwr := { s.pwr with hold := false } }
        exec .resetHoldEnd s = .next (finish (each s.lan.esc windowAct (bootStart u)))) ∧
      (∀ role wid, s.pwr.hold = false →
        let u := { s with pwr := { s.pwr with perst := false, straps := (role.toNat % 4, wid.toNat % 16) } }
        exec (.perstDeassert role wid) s = .next (finish (each s.lan.esc windowAct (bootStart u))))) ∧
    (∀ role wid, s.pwr.reset = false →
      exec (.perstDeassert role wid) s = .next (finish { s with pwr := { s.pwr with perst := false, straps := (role.toNat % 4, wid.toNat % 16) } }))

/-- BOOT_COMPLETE, BOOT_FAIL, QSPI_RELEASE (R530 to R533): firmware that verifies, of a security version not below the minimum, takes the device from BOOT to IDLE with READY set and its
versions shown, and the DEVICE_READY record; a failure keeps the device in BOOT served by ROM, and 100 ms later the QSPI pins are released;
in any other mode firmware that the watchdog stopped serves again (log 30). -/
def Sys2Proof.Claims.Boots : Prop :=
  ∀ s : State, mainRuns s = true →
    (∀ x : BootImage, 2 ≤ mode s → rdB s MBX_FW_STATUS_READY = false →
      exec (.bootComplete x) s = .next (finish (later (wr (wr s MBX_FW_STATUS_ROM 0) MBX_FW_STATUS_READY 1) .dmaWake))) ∧
    (mode s = 1 → bootHeld s = false →
      (∀ x : BootImage, rd s BOOT_SVN_MIN ≤ x.svn.toNat →
        let u := modeEnter (bootLoad (bootShow s x) x) 2 mcDone
        let v := record u rpMp 0x15 svNotice 0x0020 (leBytes 1 (b2n x.bank) ++ leBytes 1 (b2n (x.bank != x.selected)) ++ leBytes 4 x.fwVer.toNat ++ leBytes 1 x.svn.toNat ++ leBytes 2 x.ms.toNat)
        exec (.bootComplete x) s = .next (finish (later (wr (wr v MBX_FW_STATUS_ROM 0) MBX_FW_STATUS_READY 1) .dmaWake))) ∧
      (∀ (a b : BitVec 3) (e : Bool),
        let u := wr (wr (wr s BOOT_STATUS_ROM 1) BOOT_STATUS_CAUSE0 a.toNat) BOOT_STATUS_CAUSE1 b.toNat
        let v := wr (wr (wrB u BOOT_STATUS_FUSE_ERR e) BOOT_FW_VER_VER 0) ⟨0x110000, 0, 32⟩ 0
        exec (.bootFail a b e) s = .next (finish (record (headerLoad (heldInBoot v) []) rpMp 0x15 6 0x0021 (leBytes 1 a.toNat ++ leBytes 1 b.toNat ++ leBytes 1 (b2n e)))))) ∧
    (mode s = 1 → bootHeld s = true → rdB s BOOT_STATUS_ROM = true → exec .qspiRelease s = .next (finish (wr s BOOT_STATUS_QSPI_RELEASED 1)))

/-- Tier 1. Resets and boot. -/
def Obligations.ResetAndBoot : Prop :=
  Claims.Resets ∧ Claims.Boots

/-- Tier 2. What a conventional reset leaves of the registers (R384): every register with no bit of the AON domain is at its reset value again, but for the recorder's cursor, which starts at the oldest
record, and REC_STATUS, whose FIRST_FULL shows the first area; the bits of the AON domain keep their values. The trigger SRAM and the records in MRAM stay. -/
def Obligations.ResetClearsMain : Prop :=
  ∀ s : State, Sound s → s.mp.keyOp = none → s.mp.long = [] →
    (∀ a, keepMask a = 0 → a ≠ 0x160010 → a ≠ 0x160004 → getReg (resetMain s) a = regReset a) ∧
    (∀ a, keepMask a = 2 ^ 64 - 1 → getReg (resetMain s) a = getReg s a) ∧
    (resetMain s).sram = s.sram ∧ (resetMain s).rcd.first = s.rcd.first ∧ (resetMain s).rcd.circ = s.rcd.circ ∧ (resetMain s).hbm = [] ∧ (resetMain s).pwr.reset = true

/-- Where the resets end (R383, R384, R54): PERST#, a hot reset and a loss of the data link make the main domain wait for the recorder's flush; the end of what held it starts it in BOOT with the
levels of the straps. -/
def Sys2Proof.Claims.ResetResults : Prop :=
  ∀ s : State,
    (mainRuns s = true → s.modeCtl.resetWait = false →
      (∃ u, exec .perstAssert s = .next (finish u) ∧ u.modeCtl.resetWait = true ∧ u.rcd.flush.isSome = true ∧ u.pwr.perst = true) ∧
      (∃ u, exec .hotReset s = .next (finish u) ∧ u.modeCtl.resetWait = true ∧ u.rcd.flush.isSome = true ∧ u.pwr.hold = true) ∧
      (∃ u, exec .dlDown s = .next (finish u) ∧ u.modeCtl.resetWait = true ∧ u.rcd.flush.isSome = true ∧ u.pwr.hold = true)) ∧
    (Sound s → s.pwr.aon = true → s.pwr.main = true → s.pwr.reset = true → s.pwr.fail = false → s.lan.esc = [] →
      (s.pwr.perst = false → s.pwr.hold = true → ∃ u, exec .resetHoldEnd s = .next (finish u) ∧ mode u = 1 ∧ mainRuns u = true) ∧
      (∀ role wid, s.pwr.hold = false → ∃ u, exec (.perstDeassert role wid) s = .next (finish u) ∧ mode u = 1 ∧ mainRuns u = true ∧
        Sys2Proof.Machine.role u = role.toNat % 4 ∧ rd u MODE_STATUS_WORKER_ID = wid.toNat % 16))

/-- Where the recorder's own commands end (R499, R500, R503, R508): a record that waits at a port is taken into an empty ring with the next SEQ; a record of Lantern goes into the circulating area at
its next place; a flush that starts sets out to write every record of the ring that MRAM does not hold. -/
def Sys2Proof.Claims.RecordResults : Prop :=
  ∀ s : State, Sound s →
    (∀ p w, mainRuns s = true → s.rcd.drop = none → s.rcd.latch = [] → s.rcd.ports = [(p, w)] → p < 4 → s.rcd.ring = [] → w.r.rep ≤ 65535 → w.r.sev < 5 → recArea s ≠ 2 →
      (∀ i < 4, rdB s (DLV_EVT_ROUTE_EN i) = false) →
      ∃ u, exec .recordAccept s = .next (finish u) ∧ u.rcd.ports = [] ∧ u.rcd.ring.map (fun y => y.r.seq) = [rd s REC_SEQ_SEQ] ∧ rd u REC_SEQ_SEQ = (rd s REC_SEQ_SEQ + 1) % 2 ^ 32) ∧
    (∀ r l (x : MemEcc), s.pwr.aon = true → s.lan.log = r :: l → s.rcd.nextC < 2 ^ 32 →
      ∃ u, exec (.mramRecordWrite 0 x) s = .next (finish u) ∧ u.lan.log = l ∧ mget none u.rcd.circ s.rcd.nextC = some r ∧ rd u REC_CIRC_NEWEST_NEWEST = s.rcd.nextC) ∧
    (hostOpen s = true → s.rcd.flush = none →
      ∃ u f, exec .recCtrlFlush s = .next (finish u) ∧ u.rcd.flush = some f ∧ f.todo = (s.rcd.ring.filter (fun y => y.circ.isNone || y.grown)).map (fun y => y.r.seq) ∧ rd u REC_STATUS_FLUSHING = 1)

/-- Tier 2. Where the resets and the recorder's own commands end (logs 30 and 39). -/
def Obligations.ResetAndRecordResults : Prop :=
  Claims.ResetResults ∧ Claims.RecordResults

/-- MBX_GO, MBX_ABORT, MBX_ACK (R387, R390, R394): GO takes an IDLE or DONE mailbox of the host to BUSY with the SEQ of its header, last in doorbell order, and sets DB_ERR on a BUSY one or one
the host does not own; ABORT marks a BUSY one, and tells the worker that runs MBX6's command; writing 1 to DONE returns it to IDLE. -/
def Sys2Proof.Claims.MailboxDoorbells : Prop :=
  ∀ (s : State) (m : MbxIx), hostOpen s = true →
    (hostOwns s m = true → rd s (MBX_STATUS_STATE m) ≠ 1 →
      let u := wr (wr s (MBX_STATUS_STATE m) 1) (MBX_STATUS_DONE m) 0
      let v := wr u (MBX_STATUS_SEQ m) (atBytes (cmdHeader u m) 2 2)
      exec (.mbxGo m) s = .next (finish { v with mp := { v.mp with order := v.mp.order ++ [m.val] } })) ∧
    (hostOwns s m = false ∨ rd s (MBX_STATUS_STATE m) = 1 → exec (.mbxGo m) s = .next (finish (wr s (MBX_STATUS_DB_ERR m) 1))) ∧
    (hostOwns s m = true → rd s (MBX_STATUS_STATE m) = 1 → s.mp.fwd = none ∨ m.val ≠ 6 → exec (.mbxAbort m) s = .next (finish (wr s (MBX_STATUS_ABORTING m) 1))) ∧
    (∀ w q, hostOwns s m = true → rd s (MBX_STATUS_STATE m) = 1 → m.val = 6 → s.mp.fwd = some (w, q) →
      exec (.mbxAbort m) s = .next (finish (abortForward (wr s (MBX_STATUS_ABORTING m) 1) w q))) ∧
    (∀ w q, abortForward s w q = if portUp s true then tthOwn s true 3 (mgmtBlocks w false 0 true true q []) else s) ∧
    (hostOwns s m = false → exec (.mbxAbort m) s = .next (finish (wr s (MBX_STATUS_DB_ERR m) 1))) ∧
    (hostOwns s m = true → rd s (MBX_STATUS_STATE m) = 2 →
      let u := wr s (MBX_STATUS_STATE m) (idleState s m)
      exec (.mbxAck m) s = .next (finish (wr u (MBX_STATUS_DONE m) 0))) ∧
    (hostOwns s m = false ∨ rd s (MBX_STATUS_STATE m) ≠ 2 → exec (.mbxAck m) s = .next (finish s))

/-- MP_TAKE_COMMAND (R395, R397, R401 to R404): the MP takes the first mailbox in doorbell order; a bad header, an unknown opcode and an opcode the ROM does not execute end the command with their
status, in that order; a good command that its mailbox may carry, unsigned and of a class that needs no signature, in a mode that allows it and with its length right, is executed next; a signed one meets the lock first, then what its
signature shows, and uses its mailbox's nonce up either way. -/
def Sys2Proof.Claims.MpTakes : Prop :=
  ∀ (s : State) (sig : Option SigFact) (m : Nat) (rest : List Nat), mainRuns s = true → rdB s MBX_FW_STATUS_READY = true → s.mp.cur = none → s.mp.order = m :: rest →
    let u := { s with mp := { s.mp with order := rest } }
    let c := cmdOf u m
    let auth := bitOf (atBytes (cmdHeader u m) 6 2) 0
    let plen := atBytes (cmdHeader u m) 4 2
    (∀ o, headerFault u m = some o → exec (.mpTakeCommand sig) s = .next (finish (respond u c 2 o []))) ∧
    (headerFault u m = none → m ≠ 6 ∨ isManager s = false ∨ rdB s MBX_FW_STATUS_ROM = true →
      (opInfo c.op = none → exec (.mpTakeCommand sig) s = .next (finish (respond u c 1 0 []))) ∧
      (∀ cls needs, opInfo c.op = some (cls, needs) → rdB s MBX_FW_STATUS_ROM = true → romOp c.op = false →
        exec (.mpTakeCommand sig) s = .next (finish (respond u c stNotAllowed (mode s) []))) ∧
      (∀ cls needs, opInfo c.op = some (cls, needs) → rdB s MBX_FW_STATUS_ROM = false ∨ romOp c.op = true → serves m cls = false →
        exec (.mpTakeCommand sig) s = .next (finish (respond u c 5 0 []))) ∧
      (∀ cls needs, opInfo c.op = some (cls, needs) → rdB s MBX_FW_STATUS_ROM = false ∨ romOp c.op = true → serves m cls = true → c.op ≠ 0x0600 ∨ isManager s = true →
        (auth = false → needs = true → exec (.mpTakeCommand sig) s = .next (finish (respond u c 6 0 []))) ∧
        (auth = false → needs = false → modeForbids s c.op = true → exec (.mpTakeCommand sig) s = .next (finish (respond u c stNotAllowed (mode s) []))) ∧
        (auth = false → needs = false → modeForbids s c.op = false → c.par.length ≠ lengthOf c → exec (.mpTakeCommand sig) s = .next (finish (respond u c 3 (lengthOf c) []))) ∧
        (auth = false → needs = false → modeForbids s c.op = false → c.par.length = lengthOf c →
          exec (.mpTakeCommand sig) s = .next (finish { u with mp := { u.mp with cur := some { c with key := 2 ^ 32 } } })) ∧
        (auth = true → 104 ≤ plen →
          let key := atBytes (ramBytes u (cmdBuf m) (16 + plen)) (16 + plen - 104) 4
          let v := { u with mp := { u.mp with nonces := mput none u.mp.nonces m none } }
          (lockedMs u ≠ 0 → exec (.mpTakeCommand sig) s = .next (finish (respond v c 8 (lockedMs u) []))) ∧
          (lockedMs u = 0 → authDetail u m key sig ≠ 0 →
            exec (.mpTakeCommand sig) s = .next (finish (respond (authFailed v m c.op (authDetail u m key sig)) c 7 (authDetail u m key sig) []))) ∧
          (lockedMs u = 0 → authDetail u m key sig = 0 → modeForbids s c.op = false → c.par.length = lengthOf c →
            exec (.mpTakeCommand sig) s = .next (finish { v with mp := { v.mp with fails := 0, lock := none, cur := some { c with key := key } } })))))

/-- What completing a command shows (R392, R393, R419, Table 14-2): the mailbox counts it, MBX_LAST holds its status and SEQ, and it goes DONE with the response of Table 14-4 and its interrupt;
a QUIET command leaves it IDLE. -/
def Sys2Proof.Claims.Responses : Prop :=
  ∀ (s : State) (c : MpCmd) (status detail : Nat) (data : List Byte),
    let u := mbxCount s c.m c.seq status
    (c.quiet = true → respond s c status detail data = wr u (MBX_STATUS_STATE c.m) (idleState u c.m)) ∧
    (c.quiet = false → c.m < 6 → respond s c status detail data =
      raise (wr (wr (setResp u c.m (leBytes 2 c.op ++ leBytes 2 c.seq ++ leBytes 2 data.length ++ leBytes 2 status ++ leBytes 4 detail ++ leBytes 4 0 ++ data)) (MBX_STATUS_STATE c.m) 2)
        (MBX_STATUS_DONE c.m) 1) (srcMbx c.m))

/-- Tier 1. Mailbox doorbells, the MP's checks and responses (order of checks: log 31). -/
def Obligations.Mailboxes : Prop :=
  Claims.MailboxDoorbells ∧ Claims.MpTakes ∧ Claims.Responses

/-- Tier 1. The queries NOP, GET_VERSION, GET_IDENTITY, AUTH_NONCE, MODE_GET, REC_INFO, AGEING_READ, BOARD_READ, CHAIN_INFO, RECIPE_INFO, REC_READ, PARAM_LIST, PARAM_DESC, PARAM_GET (R402, R409, R415,
R418, R534, R542): each ends OK with its response. -/
def Obligations.EduskQueries : Prop :=
  ∀ (s : State) (m : MbxIx) (c : MpCmd), mainRuns s = true → s.mp.cur = some c → c.m = m.val →
    (c.op = 0x0001 → exec (.nop m) s = .next (finish (respondOk s c c.par))) ∧
    (c.op = 0x0002 → exec (.getVersion m) s = .next (finish (respondOk s c (leBytes 4 (rd s BOOT_FW_VER_VER) ++ leBytes 4 (getReg s 0x110000).toNat ++ leBytes 4 Config.romVer.toNat ++
      leBytes 2 0x0100 ++ leBytes 1 (rd s BOOT_STATUS_BANK) ++ leBytes 1 0)))) ∧
    (c.op = 0x0003 → ∃ l, l.length = 24 ∧ l.take 12 = leBytes 8 Config.dieId.toNat ++ leBytes 4 Config.pkgSerial.toNat ∧ exec (.getIdentity m) s = .next (finish (respondOk s c l))) ∧
    (c.op = 0x0004 → ∃ l, l.length = 16 ∧
      let u := freeNext (freeNext s)
      exec (.authNonce m) s = .next (finish (respondOk { u with mp := { u.mp with nonces := mput none u.mp.nonces m (some (ducNow s + 60000000, l)) } } c l))) ∧
    (c.op = 0x0100 → exec (.modeGet m) s = .next (finish (respondOk s c (leBytes 4 (getReg s 0x170200).toNat ++ leBytes 4 (getReg s 0x17020C).toNat ++ leBytes 8 (ducNow s))))) ∧
    (c.op = 0x0403 → exec (.recInfo m) s = .next (finish (respondOk s c (leBytes 2 (rd s REC_FIRST_USED_USED) ++ leBytes 2 0 ++ leBytes 4 (rd s REC_CIRC_OLDEST_OLDEST) ++
      leBytes 4 (rd s REC_CIRC_NEWEST_NEWEST) ++ leBytes 2 (rd s REC_RING_LEVEL_UNFLUSHED) ++ leBytes 2 0 ++ leBytes 4 (rd s REC_CNT_LOST_COUNT))))) ∧
    (c.op = 0x0601 → exec (.ageingRead m) s = .next (finish (respondOk s c ((List.range 55).flatMap (fun i =>
      leBytes 1 i ++ leBytes 1 (rd s (AGE_ISLAND_STATE i)) ++ leBytes 2 (rd s (AGE_ISLAND_DRIFT i)) ++ leBytes 4 0))))) ∧
    (c.op = 0x0502 → 1 ≤ c.num 4 4 → c.num 4 4 ≤ 4080 → c.num 0 4 + c.num 4 4 ≤ 65536 →
      exec (.boardRead m) s = .next (finish (respondOk s c ((List.range (c.num 4 4)).map (fun i => boardByte s (c.num 0 4 + i)))))) ∧
    (c.op = 0x0600 → exec (.chainInfo m) s = .next (finish (edChainInfo c s)) ∧ ∃ l, edChainInfo c s = respondOk s c l) ∧
    (c.op = 0x0304 → c.num 0 1 < 64 → ∃ l, l.length = 24 ∧ l.take 1 = leBytes 1 (slotState s (c.num 0 1)) ∧ exec (.recipeInfo m) s = .next (finish (respondOk s c l))) ∧
    (c.op = 0x0304 → 64 ≤ c.num 0 1 → exec (.recipeInfo m) s = .next (finish (respond s c stBadParam 0 []))) ∧
    (c.op = 0x0401 → c.num 0 1 ≤ 1 → 1 ≤ c.num 1 1 → c.num 1 1 ≤ 63 →
      ∃ l, l.take 1 = leBytes 1 (recordsFrom (c.num 1 1) s (c.num 0 1) (c.num 4 4)).length ∧ exec (.recRead m) s = .next (finish (respondOk s c l))) ∧
    (c.op = 0x0200 →
      let ids := allIds.filter (fun i => decide (c.num 0 2 ≤ i))
      exec (.paramList m) s = .next (finish (respondOk s c (leBytes 2 (ids.take 2036).length ++ leBytes 2 ((ids.drop 2036).head?.getD 0xFFFF) ++ leBytes 4 0 ++ (ids.take 2036).flatMap (leBytes 2))))) ∧
    (∀ i, c.op = 0x0201 → 1 ≤ c.num 0 2 → c.num 0 2 ≤ 63 →
      (unknownAt (idsOf (c.num 0 2) (c.par.drop 8)) = some i → exec (.paramDesc m) s = .next (finish (respond s c 0x16 i []))) ∧
      (unknownAt (idsOf (c.num 0 2) (c.par.drop 8)) = none → exec (.paramDesc m) s =
        .next (finish (respondOk s c (leBytes 2 (c.num 0 2) ++ leBytes 6 0 ++ ((idsOf (c.num 0 2) (c.par.drop 8)).filterMap paramOf).flatMap descOut))))) ∧
    (c.op = 0x0202 → c.num 2 1 ≤ 1 → unknownAt (idsOf (c.num 0 2) (c.par.drop 8)) = none → c.num 0 2 ≠ 0 →
      let out := ((idsOf (c.num 0 2) (c.par.drop 8)).filterMap paramOf).flatMap (fun d => entryOut s d (c.num 2 1 == 1))
      8 + out.length ≤ 4080 → exec (.paramGet m) s = .next (finish (respondOk s c (leBytes 2 (c.num 0 2) ++ leBytes 6 0 ++ out))))

/-- Tier 1. The commands that change state: SERVICE_ENTER, SERVICE_EXIT, CALIBRATE, PARAM_SET, RECIPE_LOAD, RECIPE_STAGE, RECIPE_COMMIT, RECIPE_FREE, REC_FLUSH, REC_CLEAR, FW_WRITE, FW_SELECT, BOARD_WRITE
(R244, R396, R399, R410 to R417, R504, R511, R534 to R536): each has its effect where its own checks pass; of the failing checks, those of the slots are stated; a stage can be interrupted between
its writes, and one that a CHG_COMMIT write met ends with COMMIT_RACE; a mode that forbids a command when it runs ends it with NOT_ALLOWED; an
image whose read shows an uncorrectable error leaves its slot EMPTY and ends the command with HW_ERROR and the event code of the fault (Table 19-5, log 33). -/
def Obligations.EduskActions : Prop :=
  ∀ (s : State) (m : MbxIx) (c : MpCmd), mainRuns s = true → s.mp.cur = some c → c.m = m.val →
    let k := c.num 0 1
    (s.mp.stage = none → modeForbids s c.op = true →
      let refused := respond s c stNotAllowed (mode s) []
      (c.op = 0x0101 → exec (.serviceEnter m) s = .next (finish refused)) ∧ (c.op = 0x0102 → exec (.serviceExit m) s = .next (finish refused)) ∧
      (c.op = 0x0103 → exec (.calibrate m) s = .next (finish refused)) ∧ (c.op = 0x0300 → exec (.recipeLoad m) s = .next (finish refused)) ∧
      (c.op = 0x0301 → ∀ x, exec (.recipeStage m x) s = .next (finish refused)) ∧ (c.op = 0x0302 → exec (.recipeCommit m) s = .next (finish refused))) ∧
    (c.op = 0x0101 → s.mp.long = [] → mode s = 2 → exec (.serviceEnter m) s = .next (finish (respondOk (modeEnter s 11 mcEdusk) c []))) ∧
    (c.op = 0x0101 → s.mp.long = [] → mode s = 10 → exec (.serviceEnter m) s = .next (finish (respondOk (modeEnter (leaveStop s) 11 mcEdusk) c []))) ∧
    (c.op = 0x0102 → mode s = 11 → k = 2 → exec (.serviceExit m) s = .next (finish (later (modeEnter (respondOk s c []) 2 mcEdusk) .dmaWake))) ∧
    (c.op = 0x0102 → mode s = 11 → k = 1 → exec (.serviceExit m) s = .next (finish (wr (modeEnter (respondOk s c []) 1 mcEdusk) MBX_FW_STATUS_READY 0))) ∧
    (c.op = 0x0103 → mode s = 2 ∨ mode s = 3 → longOf s 0x0103 = none → c.num 0 4 < 8 →
      exec (.calibrate m) s = .next (finish (enterCalibrate (longStart s { cmd := c }) mcEdusk (bitOf (c.num 0 4) 1)))) ∧
    (∀ es n, c.op = 0x0203 → 1 ≤ c.num 0 2 → c.num 0 2 ≤ 255 → readEntries (c.num 0 2) (c.par.drop 8) = some (es, n) →
      (∀ i f, firstFault s m es = some (i, f) → exec (.paramSet m) s = .next (finish (respond s c f i []))) ∧
      (firstFault s m es = none →
        let sh := countIf (fun (e : ValEntry) => isShadowedPar e.id) es
        exec (.paramSet m) s = .next (finish (respondOk (each es applyParam s) c (leBytes 2 (c.num 0 2 - sh) ++ leBytes 2 sh ++ leBytes 4 0))))) ∧
    (c.op = 0x0300 → mode s ≠ 11 → longOf s 0x0300 = none → k < 64 →
      (slotState s k < 4 → exec (.recipeLoad m) s = .next (finish (wr (longStart s { cmd := c, slot := k, was := slotState s k }) (CHG_RCP_STATE_STATE k) 1))) ∧
      (4 ≤ slotState s k → exec (.recipeLoad m) s = .next (finish (respond s c 0xF (slotState s k) [])))) ∧
    (∀ r, c.op = 0x0301 → mode s ≠ 11 → s.mp.stage = none → k < 64 → slotState s k = 2 ∨ slotState s k = 3 → rd s CHG_STATUS_PHASE = 0 → (rcpSlot s k).image = some r → regionClash s r = none →
      let l := stageWrites k r
      (∀ a : BitVec 35, exec (.recipeStage m ⟨.uncorrectable a, none⟩) s =
        .next (finish (respond (wr (wr (setRcp (eccUncorrectable s 0 0 a.toNat) k {}) (CHG_RCP_STATE_STATE k) 0) (CHG_RCP_STATE_JOB_ID k) 0) c 0x1A 0x8003 []))) ∧
      (∀ w, stageBudget (stageStore s l) = some w →
        exec (.recipeStage m ⟨.none, none⟩) s =
          .next (finish (respond (setChk (setRcp s k { rcpSlot s k with chk := w }) w) c 0x12 w (leBytes 4 w ++ leBytes 4 (rd s CHG_COUNT_COUNT))))) ∧
      (stageBudget (stageStore s l) = none →
        exec (.recipeStage m ⟨.none, none⟩) s = .next (finish (stageEnd (stageStore s l) { slot := k, done := 0, raced := false } r c)) ∧
        (∀ n, n < l.length →
          let u := stageStore s (l.take n)
          exec (.recipeStage m ⟨.none, some n⟩) s = .next (finish { u with mp := { u.mp with stage := some { slot := k, done := n, raced := false } } })))) ∧
    (∀ r g x, c.op = 0x0301 → s.mp.stage = some g → (rcpSlot s k).image = some r →
      exec (.recipeStage m ⟨x, none⟩) s = .next (finish (stageEnd (stageStore s ((stageWrites g.slot r).drop g.done)) g r c))) ∧
    (∀ (u : State) g r,
      let t := each (below 64 (fun j => slotState u j == 3)) (fun t j => wr t (CHG_RCP_STATE_STATE j) 2) u
      let t := each (r.tables.filter (fun p => decide (p.1.toNat < r.regLen.toNat))) (fun t p => sramStore t (r.regBase.toNat + p.1.toNat) p.2) t
      let t := if slotState t g.slot = 4 then t else wr t (CHG_RCP_STATE_STATE g.slot) 3
      let t := setRcp t g.slot { rcpSlot t g.slot with chk := 0 }
      (g.raced = false → stageEnd u g r c = respondOk t c (leBytes 4 0 ++ leBytes 4 (rd t CHG_COUNT_COUNT))) ∧
      (g.raced = true → stageEnd u g r c = respond t c 0x14 (rd t CHG_COUNT_COUNT) [])) ∧
    (c.op = 0x0302 → mode s ≠ 11 → rd (chgWrite (c.num 0 4) s) CHG_STATUS_RESULT < 3 →
      let t := chgWrite (c.num 0 4) s
      exec (.recipeCommit m) s = .next (finish (respondOk t c (leBytes 4 (getReg t CHG_STATUS_RESULT.a).toNat ++ leBytes 4 0 ++ leBytes 8 (rd t CHG_ARMED_POS_POS))))) ∧
    (c.op = 0x0303 → k < 64 → slotState s k ≠ 1 → slotState s k < 4 →
      exec (.recipeFree m) s = .next (finish (respondOk (wr (wr (setRcp s k {}) (CHG_RCP_STATE_STATE k) 0) (CHG_RCP_STATE_JOB_ID k) 0) c []))) ∧
    (c.op = 0x0303 → k < 64 → 4 ≤ slotState s k → exec (.recipeFree m) s = .next (finish (respond s c 0xF (slotState s k) []))) ∧
    (c.op = 0x0400 → s.rcd.flush = none → exec (.recFlush m) s = .next (finish (flushTrigger { s with mp := { s.mp with cur := some c, flushFor := some (s.rcd.flushDone + 1) } }))) ∧
    (c.op = 0x0402 → longOf s 0x0402 = none → exec (.recClear m) s = .next (finish (longStart s { cmd := c }))) ∧
    (c.op = 0x0500 → longOf s 0x0500 = none → exec (.fwWrite m) s = .next (finish (longStart s { cmd := c }))) ∧
    (c.op = 0x0501 → longOf s 0x0500 = none → k ≤ 1 → (bankImage s k).cause = 0 →
      ((bankImage s k).svn < rd s BOOT_SVN_MIN → exec (.fwSelect m) s = .next (finish (respond s c stSignature 5 []))) ∧
      (rd s BOOT_SVN_MIN ≤ (bankImage s k).svn → exec (.fwSelect m) s = .next (finish (respondOk (record (setDirectory s k) rpMp 0x15 svNotice 0x0023 (leBytes 1 k)) c [])))) ∧
    (c.op = 0x0503 → 1 ≤ c.num 4 4 → c.num 0 4 + c.num 4 4 ≤ 65536 →
      let t := each (((c.par.drop 8).take (c.num 4 4)).zipIdx) (fun s p => { s with mp := { s.mp with board := mput none s.mp.board (c.num 0 4 + p.2) (some p.1) } }) s
      exec (.boardWrite m) s = .next (finish (respondOk t c [])))

/-- Tier 1. LONG_COMMAND_COMPLETE, FW_WATCHDOG, TETHER_MBX_TIMEOUT (R395, R398, R408, R411, R535, R511): a recipe whose image, read from where the command says, is good and signed is RESIDENT; firmware that is good and signed is written; an image that is not
ends its command with its detail;
REC_CLEAR empties the circulating area; the watchdog clears READY, sets FAULT and empties the MP; a forwarded command without a response ends with TETHER_TIMEOUT. -/
def Obligations.LongCommandsEnd : Prop :=
  ∀ (s : State) (m : MbxIx), mainRuns s = true →
    (∀ l, s.mp.long.find? (fun l => l.cmd.m == m.val) = some l →
      (∀ img sig body, l.cmd.op = 0x0300 → imageRead s (l.cmd.num 4 4) (l.cmd.num 8 8) img = true →
        let r : RecipeImage := { body with job := BitVec.ofNat 16 (imgNum img 8 2), ver := BitVec.ofNat 16 (imgNum img 0x0A 2) }
        let u := each r.blobs (fun s p => hbmWrite s (r.base.toNat + p.1.toNat) p.2) (setRcp s l.slot { image := some r, chk := 0 })
        let u := wr (wr u (CHG_RCP_STATE_STATE l.slot) 2) (CHG_RCP_STATE_JOB_ID l.slot) r.job.toNat
        (recipeDetail s img sig = 0 →
          exec (.longCommandComplete m (.recipe img sig body)) s = .next (finish (respondOk u l.cmd (leBytes 2 r.job.toNat ++ leBytes 2 r.ver.toNat ++ leBytes 4 r.area.toNat)))) ∧
        (∀ d, recipeDetail s img sig = d + 1 → exec (.longCommandComplete m (.recipe img sig body)) s = .next (finish (respond (loadFailed s l 0) l.cmd stSignature (d + 1) [])))) ∧
      (∀ img sig, l.cmd.op = 0x0500 → imageRead s (l.cmd.num 0 4) (l.cmd.num 8 8) img = true →
        (firmwareDetail s img sig = 0 →
          exec (.longCommandComplete m (.firmware img sig)) s =
            .next (finish (firmwareWritten s l { cause := 0, ver := imgNum img 8 4, svn := imgNum img 0x0C 1, commit := bitOf (imgNum img 0x0D 1) 0 }))) ∧
        (∀ d, firmwareDetail s img sig = d + 1 → exec (.longCommandComplete m (.firmware img sig)) s = .next (finish (respond s l.cmd stSignature (d + 1) [])))) ∧
      (l.cmd.op = 0x0402 →
        exec (.longCommandComplete m .done) s = .next (finish (respondOk (recClear s l.cmd.key) l.cmd
          (leBytes 4 (idxDist (rd s REC_CIRC_OLDEST_OLDEST) ((rd s REC_CIRC_NEWEST_NEWEST + 1) % 2 ^ 32))))))) ∧
    (∀ mem : Option (BitVec 35), rdB s MBX_FW_STATUS_READY = true →
      let b := match mem with | some a => eccUncorrectable s 7 0 a.toNat | none => s
      let u := loadLost (raise (wr (wr b MBX_FW_STATUS_READY 0) MBX_FW_STATUS_FAULT 1) srcFwFault)
      let v := each (below 8 (fun m => rd u (MBX_STATUS_STATE m) == 1)) (fun s m => respond s { cmdOf s m with quiet := false } 0x1B 0 []) u
      exec (.fwWatchdog mem) s = .next (finish { v with mp := { v.mp with order := [], cur := none, long := [], fwd := none, flushFor := none, stage := none } })) ∧
    (∀ w q, s.mp.fwd = some (w, q) →
      let u := { s with mp := { s.mp with fwd := none } }
      exec .tetherMbxTimeout s = .next (finish (respond u { cmdOf u 6 with quiet := false } 0x19 w [])))

/-- GUYLINE_EVENT, RELAY_EXPIRE, GYL_CH_EN_WRITE, TTH_FWD_SEND (R422, R424, R425, R432, R434): an event's arrival cycle follows at once; a relay produces its event with one more hop once its delay is over;
the owner of a channel sets its enables, for the events of later MOT cycles only, but for slots 1 and 3 of an OPEN channel, and a host that does not own it sets OWN_ERR; the buffered message joins the
streams of its directions. -/
def Sys2Proof.Claims.Guylines : Prop :=
  ∀ s : State, mainRuns s = true →
    (∀ (ch : ChanIx) (hop : Fin 8), s.todo = [] → exec (.guylineEvent ch hop) s = .next (settle 4095 (gylCycle s [(ch.val, hop.val)]))) ∧
    (∀ (r : RelayIx) t hop, mget (none : Option (Nat × Nat)) s.gyl.relay r = some (t, hop) → s.now < t → exec (.relayExpire r) s = .next (finish s)) ∧
    (∀ (r : RelayIx) t hop, mget (none : Option (Nat × Nat)) s.gyl.relay r = some (t, hop) → t ≤ s.now →
      exec (.relayExpire r) s = .next (finish (later { s with gyl := { s.gyl with relay := mput none s.gyl.relay r none } } (.gyl (240 + r) (hop + 1))))) ∧
    (∀ (ch : ChanIx) (v : BitVec 8),
      let u := { s with gyl := { s.gyl with enWas := mput (0, 0) s.gyl.enWas ch (s.now / 2 + 1, enNow s ch) } }
      enNow (wr u (GYL_CH_EN_EN ch) v.toNat) ch = enNow s ch ∧
      (rd s (GYL_CH_CFG_OWNER ch) = 0 → rdB s (GYL_CH_CFG_SEC ch) = true → exec (.gylChEnWrite 0 ch v) s = .next (finish (wr u (GYL_CH_EN_EN ch) v.toNat))) ∧
      (rd s (GYL_CH_CFG_OWNER ch) = 0 → rdB s (GYL_CH_CFG_SEC ch) = false → v.toNat.testBit 1 = false → v.toNat.testBit 3 = false →
        exec (.gylChEnWrite 0 ch v) s = .next (finish (wr u (GYL_CH_EN_EN ch) v.toNat))) ∧
      (rd s (GYL_CH_CFG_OWNER ch) ≠ 0 → rdB s (GYL_CH_STATUS_OWN_ERR ch) = false →
        exec (.gylChEnWrite 0 ch v) s = .next (finish (raise (wr s (GYL_CH_STATUS_OWN_ERR ch) 1) srcGylAlarm)))) ∧
    (∀ slot dir hop, s.gyl.fwd = some (slot, dir, hop) → portUp s true = true → dir = 2 →
      let u := { s with gyl := { s.gyl with fwd := none } }
      exec .tthFwdSend s = .next (finish (tthOwn u true 0xE8 [guylineBlock slot hop (rd s MODE_STATUS_WORKER_ID) (isManager s)])))

/-- One arrival cycle at a task input (R426 to R428, R430): two events of a cycle merge into one activation, with the lower channel and the larger hop count; a further one of the same MOT cycle
joins it; an event that finds the crossing's buffer full or the task busy is dropped and counted in OVR_CNT; an event with hop count 7 is not accepted and counted as a loop. -/
def Sys2Proof.Claims.MergesAndOverruns : Prop :=
  ∀ (s : State) (t c h : Nat),
    let x := mget ({} : TaskIn) s.gyl.ins t
    let busy := fun (s : State) => decide (2000 * (s.now / 2) < x.full) || taskBusy s t
    let note := fun (s : State) (merged ran : Bool) => { s with gyl := { s.gyl with ins := mput {} s.gyl.ins t { x with cycle := s.now / 2 + 1, merged := merged, ran := ran } } }
    (x.cycle ≠ s.now / 2 + 1 →
      (busy s = false → taskEvents s t [(c, h)] = taskRun (addWrap (taskFill (note s false true) t) (GYL_TASK_CNT_ACT t) 1) t c h 1) ∧
      (busy s = true → taskEvents s t [(c, h)] = gylFlag (addSat (note s false false) (GYL_TASK_STATUS_OVR_CNT t) 1) (GYL_TASK_STATUS_OVERRUN t)) ∧
      (∀ c' h',
        let u := gylFlag (addSat s (GYL_TASK_CNT_MERGES t) 1) (GYL_TASK_STATUS_MERGED t)
        busy s = false → taskEvents s t [(c, h), (c', h')] = taskRun (addWrap (taskFill (note u true true) t) (GYL_TASK_CNT_ACT t) 1) t (min c c') (max h h') 2)) ∧
    (x.cycle = s.now / 2 + 1 → x.merged = true → x.ran = true → taskEvents s t [(c, h)] = taskMerge (note s true true) t c h 1) ∧
    (7 ≤ h → gylAccept s c h = (gylFlag (addSat s GYL_CNT_LOOP_COUNT 1) (GYL_CH_STATUS_LOOP c), false)) ∧
    (h < 7 → (gylAccept s c h).2 = true)

/-- Tier 1. Guyline events, relays, enables, merges and overruns (log 35). -/
def Obligations.Guylines : Prop :=
  Claims.Guylines ∧ Claims.MergesAndOverruns

/-- Tier 1. R430: an event that arrives with hop count 7 is dropped: it sets LOOP on its channel and increments GYL_CNT_LOOP, and no task input, GYL_SEEN bit or GYL_CNT changes. -/
def Obligations.LoopedEvents : Prop :=
  ∀ (s : State) (ch : ChanIx), mainRuns s = true → s.todo = [] →
    let u := addSat s GYL_CNT_LOOP_COUNT 1
    let v := if rdB u (GYL_CH_STATUS_LOOP ch) then u else raise (wr u (GYL_CH_STATUS_LOOP ch) 1) srcGylAlarm
    gylCycle s [(ch.val, 7)] = v ∧ exec (.guylineEvent ch 7) s = .next (settle 4095 v)

/-- BEAT_TRANSMIT, POSITION_ANCHOR_RECEIVE, SLOT_STALE_EXPIRE, TETHER_BLOCK_LOCK_CHANGE (R444, R446 to R448, R450, R452, R454): the manager sends a delta part, an anchor part and a message block each
beat, with SEQ going on by one modulo 16, for an instant within its nanosecond; an anchor with a wrong CRC is counted, is not relayed and makes the slot of the beat stale; one with another slot's number is neither
relayed nor used; a slot stale for 64 beats holds its position; a port whose block lock changes has no LOCK, and the transmit clock of a worker follows TTH_UP. The idle blocks in the place of a part that is not
relayed are the model's own choice (log 36). -/
def Sys2Proof.Claims.BeatsAndAnchors : Prop :=
  ∀ s : State, mainRuns s = true → tthOn s = true →
    (isManager s = true → ∃ p < 8,
      let u := freeNext s
      let off := 8 * (u.now % 2) + p
      exec .beatTransmit s = .next (finish (tthDrain 1
        (blocksSend { u with tth := { u.tth with seq := (u.tth.seq + 1) % 16, sent := sentNow u off, beatAt := 8 * u.now + p } } true
          (partBlocks 0xE1 (deltaSent u off) ++ partBlocks 0xE2 (anchorSent u off (u.tth.seq % 4)))) true))) ∧
    (∀ off, deltaSent s off = deltaWord s.tth.seq 0 (slotFlags s 0 + 8 * slotFlags s 1 + 64 * slotFlags s 2 + 512 * slotFlags s 3) (slotDelta s off 0) (slotDelta s off 1) (slotDelta s off 2) (slotDelta s off 3)) ∧
    (∀ off j, slotSent s j = false → anchorSent s off j = anchorWord j 0 false 0 0 0) ∧
    (∀ x : AnchorPart, isWorker s = true → s.tth.up.block = true →
      let here := (s.tth.up.expect.getD 0 + 15) % 4
      (anchorOf x = none →
        let u := beatRest (tthCrc s false) idlePart
        exec (.positionAnchorReceive x) s = .next (finish (if rdB s TTH_STATUS_UP_LOCK then
          { u with tth := { u.tth with slots := mput {} u.tth.slots here { mget ({} : TthSlot) s.tth.slots here with stale := true } } } else u))) ∧
      (∀ w, anchorOf x = some w → w % 4 ≠ here → exec (.positionAnchorReceive x) s = .next (finish (beatRest s idlePart)))) ∧
    (∀ j : Fin 4, isWorker s = true → (mget ({} : TthSlot) s.tth.slots j).stale = true → exec (.slotStaleExpire j) s = .next (finish (slotFreeze s j))) ∧
    (∀ lock, s.tth.dn.block = !lock →
      exec (.tetherBlockLockChange true lock) s = .next (finish (portLock { s with tth := { s.tth with dn := { block := lock } } } true false))) ∧
    (isWorker s = true → s.tth.up.block = false →
      let u := portLock { s with tth := { s.tth with up := { block := true } } } false false
      exec (.tetherBlockLockChange false true) s = .next (finish { u with tth := { u.tth with recovered := true } })) ∧
    (isWorker s = true → s.tth.up.block = true →
      let u := portLock { s with tth := { s.tth with up := { block := false } } } false false
      exec (.tetherBlockLockChange false false) s = .next (finish (ownClock { u with tth := { u.tth with half := false } })))

/-- Beat lock of a port (R446): TTH_UP gains LOCK with the eighth good delta part in a row and loses it with the fourth bad one in a row, each raising LINK, and not before; at the loss every slot holds its
position. -/
def Sys2Proof.Claims.BeatLock : Prop :=
  ∀ (s : State) (n : Nat),
    (rdB s TTH_STATUS_UP_LOCK = false →
      let l := { s.tth.up with bad := 0, expect := some ((n + 1) % 16), good := s.tth.up.good + 1 }
      (s.tth.up.good + 1 < 8 → beatLock s false true (some n) = setLock s false l) ∧
      (8 ≤ s.tth.up.good + 1 → beatLock s false true (some n) = raise (wrB (setLock s false { l with good := 0 }) TTH_STATUS_UP_LOCK true) srcTthLink)) ∧
    (rdB s TTH_STATUS_UP_LOCK = true →
      (beatLock s false true (some n) = setLock s false { s.tth.up with bad := 0, expect := some ((n + 1) % 16), good := 0 }) ∧
      (s.tth.up.bad + 1 < 4 → beatLock s false false (some n) = setLock s false { s.tth.up with bad := s.tth.up.bad + 1, expect := some ((n + 1) % 16), good := 0 }) ∧
      (4 ≤ s.tth.up.bad + 1 → beatLock s false false (some n) =
        each (List.range 4) slotFreeze (raise (wrB (setLock s false { s.tth.up with bad := 0, expect := some ((n + 1) % 16), good := 0 }) TTH_STATUS_UP_LOCK false) srcTthLink)))

/-- POSITION_DELTA_RECEIVE (R442, R446, R450, R451, R454): a delta part that is missing or whose CRC fails makes the beat a lost one: while TTH_UP is locked every slot goes on by its speed and the loss is
counted, the fourth in a row too; a bad part is counted as a CRC error; then the worker sends its own beats, with no delta part of the lost one in them. An upstream part at TTH_DN only serves that port's lock. -/
def Sys2Proof.Claims.LostBeats : Prop :=
  ∀ (s : State) (x : DeltaPart), mainRuns s = true → tthOn s = true →
    (x.down = false → isWorker s = true → s.tth.up.block = true → deltaOf x = none →
      let u := virtSync (beatRest s idlePart)
      let v := onlyIf x.present (fun s => tthCrc s false) u
      let lost := if rdB v TTH_STATUS_UP_LOCK then windowInc (addSat (each (List.range 4) slotMissed v) TTH_CNT_BEAT_LOST_COUNT 1) 84 1 else v
      let b := beatLock lost false false none
      let c := { b with tth := { b.tth with beatAt := 8 * b.now + x.phase.toNat } }
      let n := (c.tth.seq + 1) % 16
      let d := blocksSend { c with tth := { c.tth with seq := n, half := true } } true idlePart
      exec (.positionDeltaReceive x) s = .next (finish (tthDrain 3 (blocksSend d false (partBlocks 0xE1 (deltaWord n (rd d TTH_STATUS_HOP) 0 0 0 0 0))) false))) ∧
    (x.down = true → s.tth.dn.block = true →
      (∀ w, deltaOf x = some w → exec (.positionDeltaReceive x) s = .next (finish (beatLock s true (match s.tth.dn.expect with | some n => n == w % 16 | none => true) (some (w % 16))))) ∧
      (deltaOf x = none → x.present = true → exec (.positionDeltaReceive x) s = .next (finish (beatLock (tthCrc s true) true false none))))

/-- POSITION_DELTA_RECEIVE of a good delta part in its turn, with HOP below 15 and no message of the device's own or relayed in the way of it (R442, R447, R452): the worker's HOP is one more, each slot takes
its change, and the part goes on downstream with that HOP and the same changes. -/
def Sys2Proof.Claims.GoodBeat : Prop :=
  ∀ (s : State) (x : DeltaPart) (w : Nat), mainRuns s = true → tthOn s = true → x.down = false → isWorker s = true → s.tth.up.block = true → deltaOf x = some w → bitsOf w 7 4 ≠ 15 →
    let u := virtSync (beatRest s idlePart)
    u.tth.up.expect = some (w % 16) → rdB u TTH_STATUS_UP_LOCK = true →
      let h := hopTake (beatLock u false true (some (w % 16))) (bitsOf w 7 4)
      let v := { h with tth := { h.tth with beatAt := 8 * h.now + x.phase.toNat } }
      rdB v TTH_STATUS_UP_LOCK = true →
      let t := each (List.range 4) (fun s j => slotDeltaIn s w j) v
      let part := partBlocks 0xE1 (deltaWord (w % 16) (bitsOf w 7 4 + 1) (bitsOf w 19 8) (bitsOf w 40 20) (bitsOf w 61 41) (bitsOf w 82 62) (bitsOf w 103 83))
      let d := blocksSend { t with tth := { t.tth with seq := w % 16, half := true } } true part
      exec (.positionDeltaReceive x) s = .next (finish (tthDrain 3 (blocksSend d false (partBlocks 0xE1 (deltaWord (w % 16) (rd d TTH_STATUS_HOP) 0 0 0 0 0))) false))

/-- POSITION_ANCHOR_RECEIVE with a good CRC, in its turn, on a slot whose delta part was valid, with no change by STEP and the position already agreed (R448, R452): the anchor goes on downstream,
and the slot takes its position, speed and speed state, is no longer stale, and counts no mismatch. -/
def Sys2Proof.Claims.GoodAnchor : Prop :=
  ∀ (s : State) (x : AnchorPart) (w : Nat), mainRuns s = true → tthOn s = true → isWorker s = true → s.tth.up.block = true → rdB s TTH_STATUS_UP_LOCK = true → rdB s TTH_STATUS_CHAIN_LONG = false →
    let j := w % 4
    let u := virtSync (beatRest s [x.b0, x.b1])
    let y := mget ({} : TthSlot) u.tth.slots j
    anchorOf x = some w → j = (s.tth.up.expect.getD 0 + 15) % 4 → (mget ({} : TthSlot) s.tth.slots j).valid = true → y.step = false →
    y.s = toSigned 64 (bitsOf w 111 48) * 256 + bitsOf w 47 40 → (∀ t < 12, tetherOn u t = false) →
      exec (.positionAnchorReceive x) s = .next (finish { u with
        tth := { u.tth with slots := mput {} u.tth.slots j { y with rxAt := u.tth.beatAt, spd := toSigned 32 (bitsOf w 39 8), st := speedOfCode (bitsOf w 3 2), frozen := none, stale := false, step := false } } })

/-- Tier 2. Beats, beat lock, anchors, lost beats and stale slots (log 36). -/
def Obligations.Beats : Prop :=
  Claims.BeatsAndAnchors ∧ Claims.BeatLock ∧ Claims.LostBeats ∧ Claims.GoodBeat ∧ Claims.GoodAnchor

/-- Tier 1. GUYLINE_MESSAGE_RECEIVE, HEARTBEAT_SEND, HEARTBEAT_RECEIVE, HEARTBEAT_LOSS (R450, R451, R459 to R461, R465): a good message goes on, and one that is not the device's own becomes an event on
channel 192 + SLOT; a HEARTBEAT shows the mode, target and readiness; a worker follows its manager's, a manager takes a worker's; a worker that loses its manager enters HOLD; a CRC error is counted. -/
def Obligations.TetherEvents : Prop :=
  ∀ (s : State) (down : Bool), mainRuns s = true → portUp s down = true →
    (∀ (x : TthIn) (c : List Byte), singleOf 0xE8 x.blocks = some c →
      let origin := atBytes c 1 1
      (origin % 16 == rd s MODE_STATUS_WORKER_ID && bitOf origin 4 == isManager s) = false →
      exec (.guylineMessageReceive down x) s = .next (finish (later (tthRelay s (!down) 0xE8 x.blocks) (.gyl (192 + atBytes c 0 1 % 16) (atBytes c 0 1 / 16 % 8))))) ∧
    (∀ x : TthIn, singleOf 0xE8 x.blocks = none → exec (.guylineMessageReceive down x) s = .next (finish (tthCrc s down))) ∧
    (down = isManager s → mode s ≠ 10 →
      exec (.heartbeatSend down) s = .next (finish (tthOwn { s with tth := { s.tth with hb := some (hbState s) } } down 0xE9
        [heartbeatBlock (mode s) (rd s MODE_STATUS_TARGET) (rd s MODE_STATUS_WORKER_ID) (isManager s) (followReady s) (rdB s MODE_STATUS_NOT_FOLLOWING) s.tth.hoMiss 0 (rd s TTH_STATUS_HOP) s.tth.hoDone]))) ∧
    (∀ x : TthIn, x.down = down →
      let u := tthRelay s (!down) 0xE9 x.blocks
      (singleOf 0xE9 x.blocks = none → exec (.heartbeatReceive x) s = .next (finish (tthCrc s down))) ∧
      (∀ c, singleOf 0xE9 x.blocks = some c →
        (down = false → (heartbeatOf c).mgr = true → isWorker s = true → exec (.heartbeatReceive x) s = .next (finish (followManager u (heartbeatOf c).mode (heartbeatOf c).target))) ∧
        (down = true → (heartbeatOf c).mgr = false → isManager s = true → exec (.heartbeatReceive x) s = .next (finish (heartbeatUp u (heartbeatOf c)))) ∧
        ((heartbeatOf c).mgr = down → exec (.heartbeatReceive x) s = .next (finish u)))) ∧
    (tthOn s = true → isWorker s = true →
      exec (.heartbeatLoss none) s = .next (finish (enterHold (later (raise (wr s TTH_STATUS_HB_LOST 1) srcTthHbLoss) (.gyl 190 0)) 4 0 false))) ∧
    (∀ w : BitVec 4, tthOn s = true → isManager s = true → bitOf (rd s TTH_PRESENT_PRESENT) w.toNat = true →
      let r := rd s CHG_CHAIN_READY
      let p := rd s TTH_PRESENT_PRESENT
      let u := wr (wr s CHG_CHAIN_READY (r - Nat.land r (2 ^ w.toNat))) TTH_PRESENT_PRESENT (p - Nat.land p (2 ^ w.toNat))
      exec (.heartbeatLoss (some w)) s = .next (finish (raise (record u rpControl 0x12 svWarning 0x7001 (leBytes 1 w.toNat ++ leBytes 1 0)) srcTthChain)))

/-- Tier 1. TIME_MESSAGE_SEND, TIME_MESSAGE_RECEIVE, HANDOVER_MESSAGE_SEND, HANDOVER_MESSAGE_RECEIVE, MGMT_FRAGMENT_RECEIVE, MGMT_RESPONSE_RECEIVE, CAL_MESSAGE_RECEIVE (R267, R406, R449 to R451, R457,
R463, R464, R466). -/
def Obligations.TetherMessages : Prop :=
  ∀ s : State, mainRuns s = true →
    (∀ d : DomIx, portUp s true = true → isManager s = true → bitOf (rdC s TTH_CFG_TIME_DOM) d = true →
      exec (.timeMessageSend d) s = .next (finish { s with tth := { s.tth with relayDn := s.tth.relayDn ++ [{ kind := 1, blocks := [], size := 3, own := true, dom := some d }] } })) ∧
    (∀ x : TthIn, portUp s false = true →
      (multiOf 1 x.blocks = none → exec (.timeMessageReceive x) s = .next (finish (tthCrc s false))) ∧
      (∀ h c, multiOf 1 x.blocks = some (h, c) → relayable h = true →
        let d := atBytes h 4 1 % 4
        let u := tthRelay s true 1 x.blocks
        (rd s (TMB_DOM_CFG_SRC d) ≠ 3 ∨ bitOf (atBytes h 4 1) 2 = false → exec (.timeMessageReceive x) s = .next (finish u)) ∧
        (rd s (TMB_DOM_CFG_SRC d) = 3 → bitOf (atBytes h 4 1) 2 = true →
          let own := floorDiv (domRefRaw u d ((u.tth.beatAt : Int) - 256 * (x.beats : Int) - 384 * (rd u TTH_STATUS_HOP : Int))) (2 ^ 32)
          exec (.timeMessageReceive x) s =
            .next (finish (offsetCore d (own - ((atBytes c 0 8 * 256 + atBytes c 8 1 : Nat) : Int)) (orOne (rdC u TTH_CFG_TIME_MS) * 10 ^ 6) false u))))) ∧
    (∀ h, s.tth.ho = some h → portUp s true = true → isManager s = true →
      let u := { s with tth := { s.tth with ho := if h.left ≤ 1 then none else some { h with left := h.left - 1 } } }
      exec .handoverMessageSend s = .next (finish (tthOwn u true 2 (handoverBlocks h.slot h.neg h.id (ofSigned 64 h.pos) h.job h.ver)))) ∧
    (∀ x : TthIn, portUp s false = true → isWorker s = true →
      (multiOf 2 x.blocks = none → exec (.handoverMessageReceive x) s = .next (finish (tthCrc s false))) ∧
      (∀ h c, multiOf 2 x.blocks = some (h, c) → relayable h = true →
        let u := tthRelay s true 2 x.blocks
        (s.tth.hoSeen = some (handoverOf h c).id → exec (.handoverMessageReceive x) s = .next (finish u)) ∧
        (s.tth.hoSeen ≠ some (handoverOf h c).id → exec (.handoverMessageReceive x) s = .next (finish (handoverFollow u (handoverOf h c)))))) ∧
    (∀ x : TthIn, portUp s false = true → isWorker s = true →
      (multiOf 3 x.blocks = none → exec (.mgmtFragmentReceive x) s = .next (finish (tthCrc s false))) ∧
      (∀ h c, multiOf 3 x.blocks = some (h, c) →
        let f := fragOf h c
        (relayable h = true → f.destMgr = true ∨ f.dest ≠ rd s MODE_STATUS_WORKER_ID → exec (.mgmtFragmentReceive x) s = .next (finish (tthRelay s true 3 x.blocks))) ∧
        (f.destMgr = false → f.dest = rd s MODE_STATUS_WORKER_ID → f.abort = false → f.frag = 0 → f.last = true →
          exec (.mgmtFragmentReceive x) s = .next (finish (tunnelled { s with tth := { s.tth with mgmt := none } } (eduskBytes c)))))) ∧
    (∀ x : TthIn, portUp s true = true → isWorker s = false → ∀ h c, multiOf 3 x.blocks = some (h, c) →
      let f := fragOf h c
      f.destMgr = true → f.frag = 0 → f.last = true → ∀ w, s.mp.fwd = some (w, f.seq) →
      let u := { s with tth := { s.tth with mgmt := none }, mp := { s.mp with fwd := none } }
      exec (.mgmtResponseReceive x) s = .next (finish (mbxDone (mbxCount u 6 f.seq (atBytes (eduskBytes c) 6 2)) 6 f.seq (eduskBytes c)))) ∧
    (∀ x : TthIn, portUp s false = true → isWorker s = true → ∀ h c, multiOf 4 x.blocks = some (h, c) → mode s = 2 ∨ mode s = 3 ∨ mode s = 9 →
      let u := wr s TTH_STATUS_UNCAL 0
      exec (.calMessageReceive x) s = .next (finish (wr (wr { u with tth := { u.tth with pad := none } } TTH_PAD_P (4608 - atBytes c 0 4)) TTH_STATUS_PAD_PEND 0)))

/-- Where the tether's receptions end (R446, R452, R454, R460, R462, R464, R406): a good delta part in lock moves each valid slot's position by its DELTA; a manager takes a worker's presence and READY
from its HEARTBEAT; a worker that cannot follow a HANDOVER notes the miss; a whole tunnelled command reaches mailbox 6; a slot stale for 64 beats holds its position. -/
def Sys2Proof.Claims.TetherResults : Prop :=
  ∀ s : State, mainRuns s = true → Sound s → tthOn s = true → mwf (fun _ => ({} : TthSlot)) s.tth.slots = true → mwf (fun _ => ({} : WorkerS)) s.tth.workers = true →
    (∀ (x : DeltaPart) (w : Nat) (j : Fin 4), x.down = false → isWorker s = true → s.tth.up.block = true → s.tth.half = false → rdB s TTH_STATUS_UP_LOCK = true → deltaOf x = some w →
      s.tth.up.expect = some (w % 16) → bitsOf w 7 4 ≠ 15 → bitOf w (8 + 3 * j.val) = true → bitsOf w (40 + 21 * j.val) (20 + 21 * j.val) ≠ 0x100000 →
      ∃ u, exec (.positionDeltaReceive x) s = .next (finish u) ∧ (mget ({} : TthSlot) u.tth.slots j).s = (mget ({} : TthSlot) s.tth.slots j).s + toSigned 21 (bitsOf w (40 + 21 * j.val) (20 + 21 * j.val)) ∧
        u.tth.up.expect = some ((w % 16 + 1) % 16) ∧ rd u TTH_STATUS_HOP = bitsOf w 7 4 + 1) ∧
    (∀ (x : TthIn) (c : List Byte), x.down = true → singleOf 0xE9 x.blocks = some c → isManager s = true → portUp s true = true → s.tth.hAt = none →
      let h := heartbeatOf c
      h.mgr = false → h.mode ≠ 10 → bitOf (rd s TTH_PRESENT_DUP) h.id = false → bitOf (rd s TTH_PRESENT_PRESENT) h.id = false →
      ∃ u, exec (.heartbeatReceive x) s = .next (finish u) ∧ bitOf (rd u TTH_PRESENT_PRESENT) h.id = true ∧ bitOf (rd u CHG_CHAIN_READY) h.id = h.ready ∧
        (mget ({} : WorkerS) u.tth.workers h.id).hop = h.hop) ∧
    (∀ (x : TthIn) h c, multiOf 2 x.blocks = some (h, c) → isWorker s = true → portUp s false = true → s.tth.hoSeen ≠ some (handoverOf h c).id → followReady s = false →
      ∃ u, exec (.handoverMessageReceive x) s = .next (finish u) ∧ u.tth.hoMiss = true ∧ u.tth.hoSeen = some (handoverOf h c).id) ∧
    (∀ (x : TthIn) h c, multiOf 3 x.blocks = some (h, c) → isWorker s = true → portUp s false = true →
      let f := fragOf h c
      f.destMgr = false → f.dest = rd s MODE_STATUS_WORKER_ID → f.abort = false → f.frag = 0 → f.last = true → rd s (MBX_STATUS_STATE 6) ≠ 1 →
        ∃ u, exec (.mgmtFragmentReceive x) s = .next (finish u) ∧ rd u (MBX_STATUS_STATE 6) = 1 ∧ u.mp.order = s.mp.order ++ [6] ∧ u.tth.mgmt = none) ∧
    (∀ j : Fin 4, isWorker s = true → (mget ({} : TthSlot) s.tth.slots j).stale = true → (mget ({} : TthSlot) s.tth.slots j).frozen = none →
      ∃ u, exec (.slotStaleExpire j) s = .next (finish u) ∧ (mget ({} : TthSlot) u.tth.slots j).frozen = some (slotNow s (mget ({} : TthSlot) s.tth.slots j)))

/-- What is written as a message reads back as that message (R449, Tables 16-5, 16-6): a single-block message gives the content that was put in; a HEARTBEAT gives its fields; a POSITION part gives its word;
and a delta or an anchor part that a device makes is good at its receiver, with every field it was given. -/
def Sys2Proof.Claims.TetherMessagesReadBack : Prop :=
  (∀ kind c, kind < 256 → c.length = 6 → singleOf kind [single kind c] = some c) ∧
  (∀ (h : Heartbeat) (cause : Nat), h.mode < 16 → h.target < 16 → h.id < 16 → h.hop < 16 → h.hoId < 256 → cause < 8 →
    ∃ c, singleOf 0xE9 [heartbeatBlock h.mode h.target h.id h.mgr h.ready h.notFollowing h.hoMiss cause h.hop h.hoId] = some c ∧ heartbeatOf c = h) ∧
  (∀ (seq hop flags d0 d1 d2 d3 : Nat), seq < 16 → hop < 16 → flags < 4096 → d0 < 2 ^ 21 → d1 < 2 ^ 21 → d2 < 2 ^ 21 → d3 < 2 ^ 21 →
    let w := deltaWord seq hop flags d0 d1 d2 d3
    (∃ b0 b1, partBlocks 0xE1 w = [b0, b1] ∧ ∀ (phase : BitVec 3) (down : Bool), deltaOf { down := down, present := true, b0 := b0, b1 := b1, phase := phase } = some w) ∧
    w % 16 = seq ∧ bitsOf w 7 4 = hop ∧ bitsOf w 19 8 = flags ∧ bitsOf w 40 20 = d0 ∧ bitsOf w 61 41 = d1 ∧ bitsOf w 82 62 = d2 ∧ bitsOf w 103 83 = d3) ∧
  (∀ (slot state spd fine pos : Nat) (method : Bool), slot < 4 → state < 4 → spd < 2 ^ 32 → fine < 2 ^ 8 → pos < 2 ^ 64 →
    let w := anchorWord slot state method spd fine pos
    (∃ b0 b1, partBlocks 0xE2 w = [b0, b1] ∧ anchorOf { b0 := b0, b1 := b1 } = some w) ∧
    w % 4 = slot ∧ bitsOf w 3 2 = state ∧ bitOf w 4 = method ∧ bitsOf w 39 8 = spd ∧ bitsOf w 47 40 = fine ∧ bitsOf w 111 48 = pos)

/-- Tier 2. Where the tether's receptions end, and what is written as a part or message reads back as it (logs 36 and 37). -/
def Obligations.TetherResults : Prop :=
  Claims.TetherResults ∧ Claims.TetherMessagesReadBack

/-- LANTERN_EDGE, LANTERN_LINE_BREAK_ENTER, LANTERN_LINE_BREAK_CLEAR (R472 to R476): a filtered edge of one pair moves the shadow count by the decoding of Table 3-2 with the direction of INVERT, at
a distance of at least 500 ns from the edge before; both pairs at once is ILLEGAL and counted; a port not of mode INCREMENTAL counts nothing; a line break of A or B makes the port untrusted. -/
def Sys2Proof.Claims.LanternCounts : Prop :=
  ∀ (s : State) (p : PortIx) (a b : Bool), s.pwr.aon = true →
    let oa := bitOf (mget 0 s.lan.levels p) 0
    let ob := bitOf (mget 0 s.lan.levels p) 1
    let u := { s with lan := { s.lan with levels := mput 0 s.lan.levels p (b2n a + 2 * b2n b) } }
    (rd s (TRL_PORT_CFG_MODE p) ≠ 1 → exec (.lanternEdge p a b) s = .next (finish u)) ∧
    (rd s (TRL_PORT_CFG_MODE p) = 1 → lanBroken s p = false → a ≠ oa → b ≠ ob →
      exec (.lanternEdge p a b) s = .next (finish (windowInc (addSat (wr (lanFlag u (LAN_PORT_STATUS_ILLEGAL p)) (LAN_PORT_STATUS_UNTRUSTED p) 1) (LAN_PORT_STATUS_CNT_ILLEGAL p) 1) (120 + p) 1))) ∧
    (∀ n0, rd s (TRL_PORT_CFG_MODE p) = 1 → lanBroken s p = false → (a ≠ oa ∧ b = ob ∨ a = oa ∧ b ≠ ob) → decodeEdge (rd s (TRL_PORT_CFG_DECODE p)) (a != oa) a b = some n0 →
      mget none s.lan.edgeAt p = none →
      let v := frontNote u p 0
      let d : Int := if n0 = rdB s (TRL_PORT_CFG_INVERT p) then 1 else -1
      exec (.lanternEdge p a b) s =
        .next (finish (shadowTo { v with lan := { v.lan with edgeAt := mput none v.lan.edgeAt p (some v.now) } } p (rdI v (LAN_SHADOW_SHADOW p) + d)))) ∧
    (∀ pair : Pair, pair.num < 2 →
      (let w := { s with lan := { s.lan with broken := mput 0 s.lan.broken p (Nat.lor (mget 0 s.lan.broken p) (2 ^ pair.num)) } }
       exec (.lanternLineBreakEnter p pair) s = .next (finish (wr (wr w (LAN_PORT_STATUS_LINE_BREAK p) 1) (LAN_PORT_STATUS_UNTRUSTED p) 1))) ∧
      (let m := mget 0 s.lan.broken p
       let w := { s with lan := { s.lan with broken := mput 0 s.lan.broken p (m - Nat.land m (2 ^ pair.num)) } }
       exec (.lanternLineBreakClear p pair) s = .next (finish (wrB w (LAN_PORT_STATUS_LINE_BREAK p) (lanBroken w p)))))

/-- LANTERN_TICK, RULE_ENABLE_WRITE, LAN_OVR_CLEAR (R478, R484 to R487, R489, Table 17-3): each millisecond the eight shadow speeds and then the 32 rules in rising order; enabling an IDLE rule arms
it with its counts cleared, disabling one makes it IDLE; a pin is given back by writing 1. -/
def Sys2Proof.Claims.LanternRules : Prop :=
  ∀ s : State,
    (∀ homes : BitVec 8, s.pwr.aon = true →
      exec (.lanternTick homes) s =
        .next (finish (each (List.range 32) ruleTick (each (List.range 8) shadowSpeed { s with lan := { s.lan with homes := homes.toNat % 256 } })))) ∧
    (∀ i : RuleIx, hostOpen s = true →
      (rd s (LAN_RULE_STATUS_STATE i) = 0 → exec (.ruleEnableWrite i true) s = .next (finish (wr (setRule (wr s (LAN_RULE_CFG_EN i) 1) i {}) (LAN_RULE_STATUS_STATE i) 1))) ∧
      (rd s (LAN_RULE_STATUS_STATE i) ≠ 0 → exec (.ruleEnableWrite i true) s = .next (finish (wr s (LAN_RULE_CFG_EN i) 1))) ∧
      exec (.ruleEnableWrite i false) s = .next (finish (wr (setRule (wr s (LAN_RULE_CFG_EN i) 0) i {}) (LAN_RULE_STATUS_STATE i) 0))) ∧
    (∀ mask : BitVec 32, hostOpen s = true → exec (.lanOvrClear mask) s = .next (finish (wr s LAN_OVR_OVR (rd s LAN_OVR_OVR - Nat.land (rd s LAN_OVR_OVR) mask.toNat))))

/-- The state of a rule over one tick (R485, Table 17-3): an IDLE rule stays as it is; an ARMED rule that is not satisfied stays ARMED; a FIRED rule that is satisfied stays FIRED with no action,
and one that is not is ARMED again. -/
def Sys2Proof.Claims.RuleStates : Prop :=
  ∀ (s : State) (i : Nat), Sound s → i < 32 →
    let x := ruleCount (rule s i) (ruleHolds s i) (rd s (LAN_RULE_TIME_T_W i))
    let u := setRule s i x
    (rd s (LAN_RULE_STATUS_STATE i) = 0 → ruleTick s i = s) ∧
    (rd s (LAN_RULE_STATUS_STATE i) ≠ 0 → ruleSatisfied u i x = false → rd (ruleTick s i) (LAN_RULE_STATUS_STATE i) = 1 ∧ (ruleTick s i).out = s.out ∧
      ∀ f : FRef, f.a ≠ (LAN_RULE_STATUS_STATE i).a → rd (ruleTick s i) f = rd s f) ∧
    (rd s (LAN_RULE_STATUS_STATE i) = 2 → ruleSatisfied u i x = true → ruleTick s i = u)

/-- Tier 2. Lantern's shadow counts and its rules (log 38). -/
def Obligations.LanternCountsAndRules : Prop :=
  Claims.LanternCounts ∧ Claims.LanternRules ∧ Claims.RuleStates

/-- XTAL_FAIL, XTAL_GOOD, RC_TRIM, DUC_CHECKPOINT, AON_POWER_ON, VDD_AON_LOSS (R481 to R483, R556): the crystal's loss and return show in LAN_STATUS; a checkpoint goes into the next of 16 slots;
at AON power-on DUC starts at the largest checkpoint plus 2^21. -/
def Sys2Proof.Claims.LanternClocks : Prop :=
  ∀ s : State,
    (s.pwr.aon = true → rdB s LAN_STATUS_XTAL_OK = true →
      exec .xtalFail s = .next (finish (let u := wr (wr s LAN_STATUS_XTAL_OK 0) LAN_STATUS_XTAL_FAIL 1; if mainRuns s then raise u srcLanXtal else u)) ∧
      exec .rcTrim s = .next (finish { s with lan := { s.lan with trimmed := true } })) ∧
    (s.pwr.aon = true → rdB s LAN_STATUS_XTAL_OK = false →
      exec .xtalGood s = .next (finish (wr { s with lan := { s.lan with trimmed := true } } LAN_STATUS_XTAL_OK 1))) ∧
    (s.pwr.aon = true → mget none s.lan.slots ((s.lan.nextSlot + 15) % 16) = some (ducNow s / 2 ^ 20 * 2 ^ 20) → exec .ducCheckpoint s = .next (finish s)) ∧
    (s.pwr.aon = true → mget none s.lan.slots ((s.lan.nextSlot + 15) % 16) ≠ some (ducNow s / 2 ^ 20 * 2 ^ 20) →
      exec .ducCheckpoint s = .next (finish { s with lan := { s.lan with
        slots := mput none s.lan.slots (s.lan.nextSlot % 16) (some (ducNow s / 2 ^ 20 * 2 ^ 20)), nextSlot := (s.lan.nextSlot + 1) % 16 } })) ∧
    (∀ d, s.pwr.aon = false → s.pwr.main = false → ducResume s = some d →
      let u := { s with
        regs := regsKeep s aonKeep, fw := s.fw.filter (fun p => decide (p.1 < 120)), lan := { slots := s.lan.slots, nextSlot := s.lan.nextSlot }
        ducBase := d + 2 ^ 21, ducAt := s.now, corr := [], pwr := { s.pwr with aon := true, front := [] } }
      exec .aonPowerOn s = .next (finish (lanternDirect (wrB u LAN_STATUS_DUC_RESUMED true) 0x0001 (leBytes 8 (d + 2 ^ 21) ++ leBytes 1 1)))) ∧
    (s.pwr.aon = true → s.pwr.main = false → exec .vddAonLoss s = .next (finish { s with pwr := { s.pwr with aon := false } })) ∧
    (s.pwr.aon = true → s.pwr.main = true → s.pwr.reset = false →
      exec .vddAonLoss s = .next (finish { resetMain s with pwr := { (resetMain s).pwr with aon := false } }))

/-- MAIN_RAILS_UP, MAIN_RAILS_DOWN, PWRFAIL_FALL, PWRFAIL_RISE (R490, R507, R553, R555): the rails' rise leaves the main domain in reset with a MAIN_ON record of Lantern's, their fall ends in
SENTINEL with MAIN_OFF; a fall of PWRFAIL_N requests HOLD by cause 5. -/
def Sys2Proof.Claims.Rails : Prop :=
  ∀ s : State,
    (s.pwr.main = false → s.pwr.aon = true →
      let u := { s with powerOns := s.powerOns + 1, sram := [], pwr := { s.pwr with main := true, reset := true, cold := true, hold := false, front := [] } }
      exec .mainRailsUp s = .next (finish (tryBoot (lanternDirect u 0x0002 [])))) ∧
    (s.pwr.main = true → s.pwr.aon = true →
      let u := { resetMain s with hep := {}, pwr := { (resetMain s).pwr with main := false, trip := false, hold := false } }
      exec .mainRailsDown s = .next (finish (lanternDirect (wr u MODE_STATUS_MODE 0) 0x0003 []))) ∧
    (s.pwr.fail = false → mainRuns s = true →
      let u := { s with pwr := { s.pwr with fail := true } }
      exec .pwrfailFall s = .next (finish (enterHold (later (record u rpMp 0x15 svFault 0x0011 []) (.gyl 191 0)) 5 0 false))) ∧
    exec .pwrfailRise s = .next (finish (tryBoot { s with pwr := { s.pwr with fail := false } })) ∧
    (∀ u : State, u.pwr.reset = false ∨ u.pwr.main = false ∨ u.pwr.aon = false ∨ u.pwr.perst = true ∨ u.pwr.hold = true ∨ u.pwr.fail = true → tryBoot u = u)

/-- Tier 1. Lantern's clocks and checkpoints, rails and PWRFAIL_N. -/
def Obligations.ClocksAndRails : Prop :=
  Claims.LanternClocks ∧ Claims.Rails

/-- RECORD_OFFER, RECORD_ACCEPT (R499 to R503): an idle port holds the record offered to it; at a busy port it goes to the latch with its stamps; the recorder takes the latch's oldest record
before any port's, and a port's with its stamps. -/
def Sys2Proof.Claims.RecordsAreTaken : Prop :=
  ∀ s : State, mainRuns s = true →
    (∀ (p : RecPortIx) (r : RecOffer), p.val ≠ 3 →
      let x := mkRec r.source.toNat r.sev.toNat r.code.toNat r.payload
      (s.rcd.ports.any (fun q => q.1 == p.val) = false →
        exec (.recordOffer p r) s = .next (finish { s with rcd := { s.rcd with ports := s.rcd.ports ++ [(p.val, ⟨x, ducNow s, none⟩)] } })) ∧
      (s.rcd.ports.any (fun q => q.1 == p.val) = true → exec (.recordOffer p r) s = .next (finish (toLatch s ⟨stampRec s x, ducNow s, none⟩)))) ∧
    (∀ w rest u, s.rcd.drop = none → s.rcd.latch = w :: rest → w.behind = none → ringAccept s w = (u, true) →
      exec .recordAccept s = .next (finish (recShow { u with rcd := { u.rcd with latch := rest, drop := u.rcd.drop.map (fun d => { d with ahead := d.ahead - 1 }) } }))) ∧
    (∀ p w u, s.rcd.drop = none → s.rcd.latch = [] → nextPort s = some (p, w) →
      ringAccept { s with rcd := { s.rcd with ports := s.rcd.ports.filter (fun x => x.1 != p) } } { w with r := stampRec s w.r } = (u, true) → exec .recordAccept s = .next (finish u)) ∧
    (s.rcd.drop = none → s.rcd.latch = [] → s.rcd.ports = [] → exec .recordAccept s = .next (finish s))

/-- MRAM_RECORD_WRITE, FLUSH_COMPLETE, REC_CTRL_FLUSH (R503 to R505, R508, Table 19-5): a record of Lantern goes to MRAM before the flush's next, which counts as written unless its copy there has been overwritten; one that the
ring's read shows with an uncorrectable error is discarded and reported; a flush that has written all it set out to write ends with
FLUSH_DONE; a flush triggered while one runs is queued. -/
def Sys2Proof.Claims.Flushes : Prop :=
  ∀ s : State,
    (∀ r l (fails : Nat) (x : MemEcc), s.pwr.aon = true → s.lan.log = r :: l →
      exec (.mramRecordWrite fails x) s = .next (finish (mramAppend { s with lan := { s.lan with log := l } } r fails))) ∧
    (∀ f q rest (fails : Nat), s.pwr.aon = true → s.lan.log = [] → s.rcd.flush = some f → f.todo = q :: rest →
      let n := f.written + b2n (s.rcd.ring.any (fun y => y.r.seq == q && !copyGone s y))
      exec (.mramRecordWrite fails .none) s = .next (finish (recShow (flushOne { s with rcd := { s.rcd with flush := some { f with todo := rest, written := n } } } q fails))) ∧
      ∀ a : BitVec 35, exec (.mramRecordWrite fails (.uncorrectable a)) s =
        .next (finish (recShow (eccUncorrectable (ringDiscard { s with rcd := { s.rcd with flush := some { f with todo := rest } } } q) 6 0 a.toNat)))) ∧
    (∀ f, mainRuns s = true → s.rcd.flush = some f → f.todo = [] → s.modeCtl.disableUnit = none → s.modeCtl.resetWait = false →
      let n := s.rcd.flushDone + 1
      let u := wr (addWrap { s with rcd := { s.rcd with flush := none, flushDone := n } } REC_CNT_FLUSH_COUNT 1) REC_STATUS_FLUSHING 0
      let v := wr (wr u REC_LAST_FLUSH_US (min 65535 (ducNow u - f.start))) REC_LAST_FLUSH_RECORDS (min 65535 f.written)
      let t := later (raise v srcFlushDone) (.recFlushed n f.written)
      t.modeCtl.disableUnit = none → t.modeCtl.resetWait = false → rdB t REC_STATUS_FLUSH_PEND = false →
      exec .flushComplete s = .next (finish t)) ∧
    (hostOpen s = true → s.rcd.flush.isSome = true → exec .recCtrlFlush s = .next (finish (wr s REC_STATUS_FLUSH_PEND 1))) ∧
    (hostOpen s = true → s.rcd.flush = none → exec .recCtrlFlush s = .next (finish (flushStart s)))

/-- Tier 1. Records are offered, accepted, flushed and written to MRAM (log 39). -/
def Obligations.Records : Prop :=
  Claims.RecordsAreTaken ∧ Claims.Flushes

/-- Tier 2. Accepting a record (R496, R501): one that is identical to the last of the ring adds its count to it, and no new record and no SEQ comes; another one takes the next SEQ and stands last. -/
def Obligations.RecordsCoalesce : Prop :=
  ∀ (s : State) (w : WaitRec) (x : RingRec) (pre : List RingRec), Sound s → s.rcd.ring = pre ++ [x] → w.r.sev < 5 → recArea s ≠ 2 →
    (∀ i < 4, rdB s (DLV_EVT_ROUTE_EN i) = false) →
    (sameRec x.r w.r = true → x.r.rep + w.r.rep ≤ 65535 → x.r.rep < 65535 →
      (ringAccept s w).2 = true ∧ (ringAccept s w).1.rcd.ring.length = s.rcd.ring.length ∧
      ((ringAccept s w).1.rcd.ring.getLast?).map (fun y => y.r.rep) = some (x.r.rep + w.r.rep) ∧ rd (ringAccept s w).1 REC_SEQ_SEQ = rd s REC_SEQ_SEQ) ∧
    (sameRec x.r w.r = false → w.r.rep ≤ 65535 → s.rcd.ring.length < 4096 →
      (ringAccept s w).2 = true ∧ (ringAccept s w).1.rcd.ring.length = s.rcd.ring.length + 1 ∧
      ((ringAccept s w).1.rcd.ring.getLast?).map (fun y => y.r.seq) = some (rd s REC_SEQ_SEQ) ∧ rd (ringAccept s w).1 REC_SEQ_SEQ = (rd s REC_SEQ_SEQ + 1) % 2 ^ 32)

/-- Tier 1. REC_CTRL_REWIND, REC_MARK_WRITE, REC_CFG_WRITE, REC_CURSOR_WRITE, REC_WINDOW_READ (R512, R513, R515): a rewind takes the cursor to a valid mark; a mark is valid when written; another area
puts the cursor at its oldest record; a cursor written within the area's bounds is taken; a read answers the window's bytes and moves the cursor past the records whose last dword it includes. -/
def Obligations.RecorderWindow : Prop :=
  ∀ s : State, hostOpen s = true →
    (recArea s = 1 → rdB s REC_STATUS_MARK_VALID = true → exec .recCtrlRewind s = .next (finish (wr s REC_CURSOR_CURSOR (rd s REC_MARK_MARK)))) ∧
    (recArea s ≠ 1 → exec .recCtrlRewind s = .next (finish s)) ∧
    (∀ v : BitVec 32,
      let u := wr (wr s REC_MARK_MARK v.toNat) REC_STATUS_MARK_VALID 1
      exec (.recMarkWrite v) s = .next (finish (markFix { u with rcd := { s.rcd with markLost := false } }))) ∧
    (∀ v : BitVec 32,
      let u := wr s REC_CFG_AREA (bitsOf v.toNat 1 0)
      (recArea u = recArea s → exec (.recCfgWrite v) s = .next (finish u)) ∧
      (recArea u ≠ recArea s → exec (.recCfgWrite v) s = .next (finish (wr (wr u REC_CURSOR_CURSOR (areaBounds u (recArea u)).1) REC_GAP_GAP 0)))) ∧
    (∀ v : BitVec 32,
      let b := areaBounds s (recArea s)
      idxDist b.1 v.toNat ≤ idxDist b.1 b.2 → exec (.recCursorWrite v) s = .next (finish (wr s REC_CURSOR_CURSOR v.toNat))) ∧
    (∀ (off : Fin 1024) (len : Nat), off.val + len ≤ 1024 →
      exec (.recWindowRead off len) s = .next (finish (cursorAdvance 16 (send s (.completion .ok (((windowBytes s).drop off).take len))) off (off + len))))

/-- INT_ENABLE_WRITE, INT_TEST (R518 to R520): a source whose enable goes from 0 to 1 while its status is 1 requests an interrupt; INT_TEST sets the status bit of an assigned source and, with its
enable set, requests its interrupt; a reserved source does nothing. -/
def Sys2Proof.Claims.Interrupts : Prop :=
  ∀ s : State, hostOpen s = true →
    (∀ (g : Fin 48) (v : BitVec 32),
      let u := wr s (INT_ENABLE_ENABLE g) v.toNat
      (∀ b, bitOf v.toNat b = false ∨ bitOf (rd u (INT_STATUS_STATUS g)) b = false) →
      exec (.intEnableWrite g v) s = .next (finish (updateInta u))) ∧
    (∀ src : BitVec 11, srcAssigned src.toNat = true → rdB s (statusField src.toNat) = false →
      let u := wr s (statusField src.toNat) 1
      (bitOf (rd u (INT_ENABLE_ENABLE (src.toNat / 32))) (src.toNat % 32) = true → exec (.intTest src) s = .next (finish (requestSrc u src.toNat))) ∧
      (bitOf (rd u (INT_ENABLE_ENABLE (src.toNat / 32))) (src.toNat % 32) = false → exec (.intTest src) s = .next (finish u))) ∧
    (∀ src : BitVec 11, srcAssigned src.toNat = false ∨ rdB s (statusField src.toNat) = true → exec (.intTest src) s = .next (finish s))

/-- FAULT_WINDOW_INCREMENT, FAULT_WINDOW_SUBPERIOD, FAULT_WINDOW_CONFIG_WRITE (R521, R522, R524, R525): increments below K count and are recorded, the window COUNTING; a sub-period that empties
the window clears it; a write of its settings clears it, and an action that is not allowed becomes 1 with CFG_ERR. -/
def Sys2Proof.Claims.FaultWindows : Prop :=
  ∀ (s : State) (w : WindowIx), mainRuns s = true → s.pwr.aon = true →
    (∀ n : BitVec 16, n ≠ 0 → w.val < 85 ∨ 120 ≤ w.val →
      let u := addSat s (INT_FW_TOTAL_TOTAL w) n.toNat
      (enabled u (0x23000 + 0x20 * w) = false → exec (.faultWindowIncrement w n) s = .next (finish u)) ∧
      (enabled u (0x23000 + 0x20 * w) = true → rd u (INT_FW_STATUS_STATE w) ≠ 2 → windowCount (mget {} u.fw w) + n.toNat < windowK u w →
        let v := wr (setWindow u w (windowAdd (mget {} u.fw w) n.toNat)) (INT_FW_STATUS_STATE w) 1
        exec (.faultWindowIncrement w n) s = .next (finish (windowRecord v w n.toNat))) ∧
      (n = 1 → enabled u (0x23000 + 0x20 * w) = true → rd u (INT_FW_STATUS_STATE w) ≠ 2 → windowCount (mget {} u.fw w) + 1 = windowK u w →
        let v := setWindow u w (windowAdd (mget {} u.fw w) 1)
        exec (.faultWindowIncrement w n) s = .next (finish (windowEscalate v w (windowCount (mget {} u.fw w) + 1) 1)))) ∧
    (enabled s (0x23000 + 0x20 * w) = true →
      let x : Window := { subs := 0 :: (mget ({} : Window) s.fw w).subs.take 15 }
      (windowCount x = 0 → exec (.faultWindowSubperiod w) s = .next (finish (wr (setWindow s w x) (INT_FW_STATUS_STATE w) 0))) ∧
      (windowCount x ≠ 0 → exec (.faultWindowSubperiod w) s = .next (finish (setWindow s w x)))) ∧
    (∀ v : BitVec 32, s.modeCtl.resetWait = false →
      exec (.faultWindowConfigWrite w true v) s = .next (finish (windowClear (wr s (INT_FW_K_K w) (bitsOf v.toNat 15 0)) w)) ∧
      (let a := bitsOf v.toNat 19 17
       let u := wr (wr s (INT_FW_CFG_W_MS w) (bitsOf v.toNat 16 0)) (INT_FW_CFG_HOLD_DISABLE w) (bitsOf v.toNat 20 20)
       (actionAllowed w a = true → exec (.faultWindowConfigWrite w false v) s = .next (finish (windowClear (wr u (INT_FW_CFG_ACTION w) a) w))) ∧
       (actionAllowed w a = false →
        exec (.faultWindowConfigWrite w false v) s = .next (finish (windowClear (wr (wr u (INT_FW_CFG_ACTION w) 1) (INT_FW_STATUS_CFG_ERR w) 1) w)))))

/-- Tier 1. Interrupt enables and tests, and fault windows. -/
def Obligations.Interrupts : Prop :=
  Claims.Interrupts ∧ Claims.FaultWindows

/-- Tier 2. R520: INT_TEST sets the status bit of its source as an event does (`raise`), and nothing else: every other bit of every register, and everything of the state but the pending messages and what
is sent, is as before. A reserved source has no event (R517). -/
def Obligations.InterruptTest : Prop :=
  ∀ (s : State) (src : BitVec 11), hostOpen s = true →
    exec (.intTest src) s = .next (finish (raise s src.toNat)) ∧
    (srcAssigned src.toNat = true → Sound s →
      let u := raise s src.toNat
      let f := statusField src.toNat
      rd u f = 1 ∧ (∀ g : FRef, g.a ≠ f.a ∨ g.lo + g.w ≤ f.lo ∨ f.lo + f.w ≤ g.lo → rd u g = rd s g) ∧
      { u with regs := s.regs, hep := s.hep, out := s.out } = s)

/-- PATROL_SCRUB, THERMAL_SENSE, THERMTRIP, PCIE_LINK_EVENT (R526, R527, R385, R565, Table 13-12): a scrub without an error changes nothing but, at the end of HBM, the passes; a junction reading is
shown and at TJ_WARN warns once; the trip is held; a link state that keeps the data link shows in HEP_LINK. -/
def Sys2Proof.Claims.ScrubHeatAndLink : Prop :=
  ∀ s : State,
    (∀ addr : BitVec 35, mainRuns s = true →
      (addr.toNat + 64 < hbmSize → exec (.patrolScrub addr .none) s = .next (finish s)) ∧
      (hbmSize ≤ addr.toNat + 64 → exec (.patrolScrub addr .none) s = .next (finish (addWrap s INT_ECC_SCRUB_PASSES 1))) ∧
      (addr.toNat + 64 < hbmSize → exec (.patrolScrub addr .corrected) s = .next (finish (windowInc (raise (addSat s INT_ECC_HBM_CORR_COUNT 1) srcHbmCorr) 80 1)))) ∧
    (∀ mC : Int, mainRuns s = true → firmwareUp s = true →
      let u := setParam s 0x4110 (ofSigned 32 mC)
      let warn : Int := match paramOf 0x4111 with | some d => toSigned 32 (paramVal u d false) | none => 100000
      (warn - 3000 < mC → mC < warn → exec (.thermalSense mC) s = .next (finish u)) ∧
      (warn ≤ mC → u.mp.warned = false →
        exec (.thermalSense mC) s = .next (finish (record (raise { u with mp := { u.mp with warned := true } } srcThermal) rpMp 0x15 svWarning 0x0030 (leBytes 4 (ofSigned 32 mC))))) ∧
      (warn ≤ mC → u.mp.warned = true → exec (.thermalSense mC) s = .next (finish u))) ∧
    (s.pwr.main = true → exec .thermtrip s = .next (finish { s with pwr := { s.pwr with trip := true } })) ∧
    (∀ (sp : BitVec 4) (w : BitVec 5) (flit : Bool) (lt : BitVec 3), mainRuns s = true → exec (.pcieLinkEvent (.state sp w flit true lt)) s = .next (finish (linkState s sp.toNat w.toNat flit true lt.toNat))) ∧
    (∀ (sp : BitVec 4) (w : BitVec 5) (flit : Bool) (lt : BitVec 3), mainRuns s = true → sp.toNat = rd s HEP_LINK_SPEED → w.toNat = rd s HEP_LINK_WIDTH → lt.toNat ≠ 7 →
      linkState s sp.toNat w.toNat flit true lt.toNat =
        wr (wrB (wrB (wr (wr s HEP_LINK_SPEED sp.toNat) HEP_LINK_WIDTH w.toNat) HEP_LINK_FLIT flit) HEP_LINK_DL_UP true) HEP_LINK_LTSSM lt.toNat)

/-- AGEING_MEASURE, POWERED_HOUR, MRAM_REFRESH_UNIT (R542, R544): each island's drift is measured; an hour is counted, and every 43 830 hours a refresh of the MRAM starts, which ends after its
65 536th unit with a record. -/
def Sys2Proof.Claims.AgeingAndRefresh : Prop :=
  ∀ s : State, mainRuns s = true → firmwareUp s = true →
    (∀ drifts, exec (.ageingMeasure drifts) s = .next (finish (each (drifts.take 55).zipIdx (fun s p => ageOne s p.2 p.1.toInt) s))) ∧
    (let u := addWrap s BOOT_HOURS_HOURS 1
     (rd u BOOT_HOURS_HOURS % 43830 ≠ 0 → exec .poweredHour s = .next (finish u)) ∧
     (rd u BOOT_HOURS_HOURS % 43830 = 0 →
      exec .poweredHour s = .next (finish (wr (wr { u with mp := { u.mp with refreshAt := ducNow u } } BOOT_REFRESH_RUNNING 1) BOOT_REFRESH_PROGRESS 0)))) ∧
    (rdB s BOOT_REFRESH_RUNNING = true → s.rcd.flush = none →
      (rd s BOOT_REFRESH_PROGRESS < 65535 → exec .mramRefreshUnit s = .next (finish (addWrap s BOOT_REFRESH_PROGRESS 1))) ∧
      (65535 ≤ rd s BOOT_REFRESH_PROGRESS →
        let u := wr (wr s BOOT_REFRESH_PROGRESS 0) BOOT_REFRESH_RUNNING 0
        exec .mramRefreshUnit s = .next (finish (record u rpMp 0x15 svNotice 0x0025 (leBytes 4 (rd u BOOT_HOURS_HOURS) ++ leBytes 4 ((ducNow u - u.mp.refreshAt) / 1000000)))))) ∧
    (s.rcd.flush.isSome = true → exec .mramRefreshUnit s = .next (finish s))

/-- SEC_KEY_PROGRAM, SEC_KEY_REVOKE, SEC_KEY_RESTORE, SEC_KEY_OP_DONE (R538, R539): an operation takes the key in SEC_KEY_WIN and is BUSY until it is done; it then shows its RESULT, and one that
succeeds changes its slot and leaves the KEY_PROGRAMMED record; a GO while one runs is discarded. -/
def Sys2Proof.Claims.KeyOperations : Prop :=
  ∀ (s : State) (slot : BitVec 2),
    (∀ recipe command, hostOpen s = true → rdB s SEC_KEY_RESULT_BUSY = false →
      let key := ramBytes s 0x170480 97
      exec (.secKeyProgram slot recipe command) s =
        .next (finish (wr { s with mp := { s.mp with keyOp := some (slot.toNat, 0, b2n recipe + 2 * b2n command, keyResult s slot.toNat 0 key, key) } } SEC_KEY_RESULT_BUSY 1)) ∧
      exec (.secKeyRevoke slot) s = .next (finish (wr { s with mp := { s.mp with keyOp := some (slot.toNat, 1, 0, keyResult s slot.toNat 1 key, key) } } SEC_KEY_RESULT_BUSY 1)) ∧
      exec (.secKeyRestore slot) s = .next (finish (wr { s with mp := { s.mp with keyOp := some (slot.toNat, 2, 0, keyResult s slot.toNat 2 key, key) } } SEC_KEY_RESULT_BUSY 1))) ∧
    (∀ recipe command, hostOpen s = true → rdB s SEC_KEY_RESULT_BUSY = true → exec (.secKeyProgram slot recipe command) s = .next (finish s)) ∧
    (∀ k op roles res key, mainRuns s = true → s.mp.keyOp = some (k, op, roles, res, key) →
      let u := wr (wr { s with mp := { s.mp with keyOp := none } } SEC_KEY_RESULT_BUSY 0) SEC_KEY_RESULT_DONE 1
      (res = 0 →
        let v := keyApply (wr u SEC_KEY_RESULT_RESULT 0) k op roles key
        exec (.secKeyOpDone false) s = .next (finish (record v rpMp 0x15 svNotice 0x9002 (leBytes 1 k ++ leBytes 1 (rd v ⟨0x170400, 8 + 2 * k, 2⟩) ++ leBytes 1 op)))) ∧
      (res ≠ 0 → res ≠ 4 → exec (.secKeyOpDone false) s = .next (finish (wr u SEC_KEY_RESULT_RESULT res))) ∧
      (res = 0 → op = 0 → exec (.secKeyOpDone true) s = .next (finish (wr (wr (wr u SEC_KEY_RESULT_RESULT 4) (slotField k) 3) SEC_STATUS_PROVISION_OPEN 0))))

/-- A measurement of one island (R542, Table 20-7): DRIFT shows it and STATE follows it, and the derating STEP of a PIX island never goes down. -/
def Sys2Proof.Claims.DeratingNeverReverses : Prop :=
  ∀ (s : State) (i : Nat) (d : Int), Sound s → i < 55 → -32768 ≤ d → d < 32768 →
    rdI (ageOne s i d) (AGE_ISLAND_DRIFT i) = d ∧ rd (ageOne s i d) (AGE_ISLAND_STATE i) = ageState i (ageRank d) ∧
    rd s (AGE_ISLAND_STEP i) ≤ rd (ageOne s i d) (AGE_ISLAND_STEP i) ∧
    (isPix i = false → rd (ageOne s i d) (AGE_ISLAND_STEP i) = rd s (AGE_ISLAND_STEP i))

/-- Tier 2. Scrubs, heat, link events, ageing, refresh and key operations (logs 34 and 41). -/
def Obligations.Maintenance : Prop :=
  Claims.ScrubHeatAndLink ∧ Claims.AgeingAndRefresh ∧ Claims.KeyOperations ∧ Claims.DeratingNeverReverses

/-- Tier 1. The machine at reset (R14, R384, R509, R530): nothing waits, nothing is in flight, no register is listed away from its reset value, HBM, the trigger SRAM and MRAM hold nothing, the mode is BOOT, and the
state is sound. -/
def Obligations.ResetState : Prop :=
  Sound State.reset ∧ State.reset.pending = [] ∧ State.reset.todo = [] ∧ State.reset.out = [] ∧ State.reset.hbm = [] ∧ State.reset.rcd.first = [] ∧ State.reset.rcd.ring = [] ∧
    mode State.reset = 1 ∧ mainRuns State.reset = true ∧ rd State.reset MBX_FW_STATUS_READY = 0 ∧ (∀ g < 48, rd State.reset (INT_STATUS_STATUS g) = 0 ∧ rd State.reset (INT_ENABLE_ENABLE g) = 0) ∧
    (∀ a, getReg State.reset a = regReset a) ∧ intMode State.reset = 0 ∧ mayIssue State.reset = false

/-- Tier 3. Every step keeps a sound state sound: the registers, HBM and the buffers stay in their one canonical form, in every state and for every command. -/
def Obligations.StepKeepsSound : Prop :=
  ∀ s t : State, Sound s → step s = .next t → Sound t

/-- The first area of MRAM (R509): in every state and for every command its records stay, in order, as they were written, new ones come only after them, and there are never more than 2 048. -/
def Sys2Proof.Claims.FirstAreaWrittenOnce : Prop :=
  ∀ s t : State, step s = .next t → s.rcd.first <+: t.rcd.first ∧ (s.rcd.first.length ≤ 2048 → t.rcd.first.length ≤ 2048)

/-- What every command leaves alone: it always answers a next state, takes no command from the queue and puts none there, lets no time pass, and only adds to what has been sent. -/
def Sys2Proof.Claims.EveryCommandCompletes : Prop :=
  ∀ (c : Instr) (s : State), ∃ t, exec c s = .next t ∧ t.pending = s.pending ∧ t.now = s.now ∧ s.out <+: t.out

/-- Tier 3. The first area of MRAM is written once; every command completes, lets no time pass and leaves the queue alone. -/
def Obligations.FirstAreaAndFrame : Prop :=
  Claims.FirstAreaWrittenOnce ∧ Claims.EveryCommandCompletes
end

