-- ==== Sys2Proof/Laws/Map.lean ====
section
/-! SUPPORT. Laws of the canonical sparse map: read after write, and that a write keeps the form. -/

namespace Sys2Proof.Machine

/-- The form of a map, entry by entry. -/
theorem mwf_cons {α : Type} [DecidableEq α] (d : Nat → α) (k : Nat) (v : α) (m : List (Nat × α)) :
    mwf d ((k, v) :: m) = true ↔ v ≠ d k ∧ (∀ x ∈ m.head?, k < x.1) ∧ mwf d m = true := by
  cases m with
  | nil => simp [mwf]
  | cons x m => obtain ⟨k', v'⟩ := x; simp [mwf, and_assoc]

/-- A write above a bound leaves the map above it. -/
theorem mput_head {α : Type} [DecidableEq α] (d : α) (m : List (Nat × α)) (k : Nat) (v : α) (b : Nat) (hb : ∀ x ∈ m.head?, b < x.1) (hk : b < k)
    (g : Nat → α) (hm : mwf g m = true) : ∀ x ∈ (mput d m k v).head?, b < x.1 := by
  cases m with
  | nil => unfold mput; split <;> simp [hk]
  | cons y m =>
    obtain ⟨a, w⟩ := y
    have ha : b < a := hb (a, w) rfl
    have h2 := (mwf_cons g a w m).1 hm
    unfold mput
    split
    · split
      · intro x hx; exact Nat.lt_trans ha (h2.2.1 x hx)
      · simp [hk]
    · split
      · split <;> simp [ha, hk]
      · simp [ha]

/-- A write keeps the form of the map. -/
theorem mput_wf {α : Type} [DecidableEq α] (d : Nat → α) (m : List (Nat × α)) (k : Nat) (v : α) (h : mwf d m = true) : mwf d (mput (d k) m k v) = true := by
  induction m with
  | nil => unfold mput; split <;> simp_all [mwf]
  | cons y m ih =>
    obtain ⟨a, w⟩ := y
    have h2 := (mwf_cons d a w m).1 h
    unfold mput
    split
    · rename_i e; subst e
      split
      · exact h2.2.2
      · exact (mwf_cons d _ v m).2 ⟨by assumption, h2.2.1, h2.2.2⟩
    · split
      · split
        · exact h
        · exact (mwf_cons d _ v _).2 ⟨by assumption, by simpa using by assumption, h⟩
      · refine (mwf_cons d a w _).2 ⟨h2.1, ?_, ih h2.2.2⟩
        exact mput_head (d k) m k v a h2.2.1 (by omega) d h2.2.2

/-- A write keeps what holds of every key. -/
theorem mput_all {α : Type} [DecidableEq α] (p : Nat → Bool) (d : α) (m : List (Nat × α)) (k : Nat) (v : α) (h : m.all (fun c => p c.1) = true) (hk : p k = true) :
    (mput d m k v).all (fun c => p c.1) = true := by
  induction m with
  | nil => unfold mput; split <;> simp [hk]
  | cons y m ih =>
    obtain ⟨a, w⟩ := y
    rw [List.all_cons, Bool.and_eq_true] at h
    unfold mput
    split
    · split
      · exact h.2
      · simp only [List.all_cons, hk, h.2, Bool.and_self]
    · split
      · split <;> simp only [List.all_cons, hk, h.1, h.2, Bool.and_self]
      · rw [List.all_cons, ih h.2]; simpa using h.1

/-- Leaving entries out keeps the form of the map. -/
theorem mwf_filter {α : Type} [DecidableEq α] (d : Nat → α) (p : Nat × α → Bool) (m : List (Nat × α)) (h : mwf d m = true) : mwf d (m.filter p) = true := by
  have low : ∀ (m : List (Nat × α)) (b : Nat), mwf d m = true → (∀ x ∈ m.head?, b < x.1) → ∀ x ∈ (m.filter p).head?, b < x.1 := by
    intro m
    induction m with
    | nil => intro b _ _; simp
    | cons y m ih =>
      intro b hm hb
      obtain ⟨k, v⟩ := y
      have h2 := (mwf_cons d k v m).1 hm
      have hk : b < k := hb (k, v) rfl
      rw [List.filter_cons]
      split
      · simp [hk]
      · exact ih b h2.2.2 (fun x hx => Nat.lt_trans hk (h2.2.1 x hx))
  induction m with
  | nil => rfl
  | cons y m ih =>
    obtain ⟨k, v⟩ := y
    have h2 := (mwf_cons d k v m).1 h
    rw [List.filter_cons]
    split
    · exact (mwf_cons d k v _).2 ⟨h2.1, low m k h2.2.2 h2.2.1, ih h2.2.2⟩
    · exact ih h2.2.2

/-- A key below the first one listed reads as unlisted. -/
theorem mget_below {α : Type} [DecidableEq α] (d : α) (m : List (Nat × α)) (k : Nat) (h : ∀ x ∈ m.head?, k < x.1) : mget d m k = d := by
  cases m with
  | nil => rfl
  | cons y m =>
    have := h y rfl
    unfold mget
    rw [if_neg (by omega), if_pos this]

/-- A key reads as what was last written to it. -/
theorem mget_mput_self {α : Type} [DecidableEq α] (g : Nat → α) (m : List (Nat × α)) (k : Nat) (v : α) (h : mwf g m = true) :
    mget (g k) (mput (g k) m k v) k = v := by
  induction m with
  | nil => unfold mput; split <;> simp_all [mget]
  | cons y m ih =>
    obtain ⟨a, w⟩ := y
    have h2 := (mwf_cons g a w m).1 h
    unfold mput
    split
    · rename_i e; subst e
      split
      · rename_i e; rw [e]; exact mget_below (g k) m k h2.2.1
      · simp [mget]
    · split
      · split
        · rename_i e; rw [e]; exact mget_below (g k) _ k (by simpa using by assumption)
        · simp [mget]
      · unfold mget
        rw [if_neg (by assumption), if_neg (by assumption)]
        exact ih h2.2.2

/-- A write leaves every other key as it was. -/
theorem mget_mput_other {α : Type} [DecidableEq α] (d e : α) (g : Nat → α) (m : List (Nat × α)) (k j : Nat) (v : α) (hj : j ≠ k) (h : mwf g m = true) :
    mget d (mput e m k v) j = mget d m j := by
  induction m with
  | nil => unfold mput; split <;> simp [mget, hj]
  | cons y m ih =>
    obtain ⟨a, w⟩ := y
    have h2 := (mwf_cons g a w m).1 h
    unfold mput
    split
    · rename_i e; subst e
      split
      · simp only [mget, if_neg hj]
        split
        · exact mget_below d m j (fun x hx => Nat.lt_trans (by assumption) (h2.2.1 x hx))
        · rfl
      · simp [mget, hj]
    · rename_i hka
      split
      · rename_i hlt
        split
        · rfl
        · simp only [mget, if_neg hj]
          by_cases hk : j < k
          · have : j ≠ a := by omega
            have : j < a := by omega
            simp [*]
          · simp [hk]
      · simp only [mget]
        rw [ih h2.2.2]

end Sys2Proof.Machine
end

