-- ==== Sys2Proof/Laws/Registers.lean ====
section
/-! SUPPORT. Laws of registers, their fields, and HBM: read after write, what a write leaves alone, and that the canonical forms stay. -/

namespace Sys2Proof.Machine

/-- A register value with a field replaced, as a number. -/
theorem putField_toNat (old : DWord) (lo w v : Nat) (h : lo + w ≤ 64) :
    (putField old lo w v).toNat = (old.toNat / 2 ^ (lo + w) * 2 ^ w + v % 2 ^ w) * 2 ^ lo + old.toNat % 2 ^ lo := by
  unfold putField
  have ho : old.toNat < 2 ^ 64 := old.isLt
  generalize old.toNat = o at *
  have hq : o / 2 ^ (lo + w) = o / 2 ^ lo / 2 ^ w := by rw [Nat.div_div_eq_div_mul, Nat.pow_add]
  have d1 := Nat.div_add_mod o (2 ^ lo)
  have d2 := Nat.div_add_mod (o / 2 ^ lo) (2 ^ w)
  have e1 : o - o / 2 ^ lo % 2 ^ w * 2 ^ lo + v % 2 ^ w * 2 ^ lo = (o / 2 ^ (lo + w) * 2 ^ w + v % 2 ^ w) * 2 ^ lo + o % 2 ^ lo := by
    rw [hq]
    generalize o / 2 ^ lo = q at *
    generalize q / 2 ^ w = p at *
    generalize q % 2 ^ w = r at *
    generalize o % 2 ^ lo = t at *
    have : q * 2 ^ lo = (2 ^ w * p) * 2 ^ lo + r * 2 ^ lo := by rw [← d2]; ring
    have h3 : 2 ^ lo * q = q * 2 ^ lo := Nat.mul_comm _ _
    have h4 : (p * 2 ^ w + v % 2 ^ w) * 2 ^ lo = 2 ^ w * p * 2 ^ lo + v % 2 ^ w * 2 ^ lo := by ring
    omega
  dsimp only
  rw [e1, BitVec.toNat_ofNat, Nat.mod_eq_of_lt]
  have hlo : 0 < 2 ^ lo := Nat.two_pow_pos lo
  have hw : 0 < 2 ^ w := Nat.two_pow_pos w
  have b1 : v % 2 ^ w < 2 ^ w := Nat.mod_lt _ hw
  have b2 : o % 2 ^ lo < 2 ^ lo := Nat.mod_lt _ hlo
  have b3 : o / 2 ^ (lo + w) < 2 ^ (64 - (lo + w)) := by
    rw [Nat.div_lt_iff_lt_mul (Nat.two_pow_pos _), ← Nat.pow_add]
    have : 64 - (lo + w) + (lo + w) = 64 := by omega
    rwa [this]
  have c1 : o / 2 ^ (lo + w) * 2 ^ w + v % 2 ^ w + 1 ≤ 2 ^ (64 - (lo + w)) * 2 ^ w := by
    have := Nat.mul_le_mul_right (2 ^ w) b3
    rw [Nat.succ_mul] at this
    omega
  have c2 := Nat.mul_le_mul_right (2 ^ lo) c1
  have c3 : 2 ^ (64 - (lo + w)) * 2 ^ w * 2 ^ lo = 2 ^ 64 := by
    rw [← Nat.pow_add, ← Nat.pow_add]; congr 1; omega
  rw [c3, Nat.succ_mul] at c2
  omega

/-- The replaced field reads as written. -/
theorem putField_self (old : DWord) (lo w v : Nat) (h : lo + w ≤ 64) : (putField old lo w v).toNat / 2 ^ lo % 2 ^ w = v % 2 ^ w := by
  rw [putField_toNat old lo w v h, Nat.mul_comm _ (2 ^ lo), Nat.mul_add_div (Nat.two_pow_pos lo), Nat.div_eq_of_lt (Nat.mod_lt _ (Nat.two_pow_pos lo)),
    Nat.add_zero, Nat.add_comm, Nat.add_mul_mod_self_right, Nat.mod_mod]

/-- A field that does not overlap the replaced one reads as before. -/
theorem putField_other (old : DWord) (lo w v lo' w' : Nat) (h : lo + w ≤ 64) (hd : lo' + w' ≤ lo ∨ lo + w ≤ lo') :
    (putField old lo w v).toNat / 2 ^ lo' % 2 ^ w' = old.toNat / 2 ^ lo' % 2 ^ w' := by
  rw [putField_toNat old lo w v h]
  generalize old.toNat = o
  rcases hd with hd | hd
  · obtain ⟨k, rfl⟩ : ∃ k, lo = lo' + w' + k := ⟨lo - (lo' + w'), by omega⟩
    have e : ∀ x, x / 2 ^ lo' % 2 ^ w' = x % 2 ^ (lo' + w') / 2 ^ lo' := fun x => by
      rw [Nat.pow_add, Nat.mod_mul_right_div_self]
    rw [e, e]
    congr 1
    have : (2 : Nat) ^ (lo' + w' + k) = 2 ^ (lo' + w') * 2 ^ k := Nat.pow_add _ _ _
    rw [Nat.add_mod, this, ← Nat.mul_assoc, Nat.mul_right_comm, Nat.mul_mod_left, Nat.zero_add, Nat.mod_mod, Nat.mod_mul_right_mod]
  · obtain ⟨k, rfl⟩ : ∃ k, lo' = lo + w + k := ⟨lo' - (lo + w), by omega⟩
    congr 1
    have e : ∀ x, x / 2 ^ (lo + w + k) = x / 2 ^ (lo + w) / 2 ^ k := fun x => by rw [Nat.pow_add 2 (lo + w) k, Nat.div_div_eq_div_mul]
    rw [e, e]
    congr 1
    rw [Nat.pow_add 2 lo w, ← Nat.div_div_eq_div_mul, Nat.mul_comm _ (2 ^ lo), Nat.mul_add_div (Nat.two_pow_pos lo),
      Nat.div_eq_of_lt (Nat.mod_lt _ (Nat.two_pow_pos lo)), Nat.add_zero, Nat.mul_comm _ (2 ^ w), Nat.mul_add_div (Nat.two_pow_pos w),
      Nat.div_eq_of_lt (Nat.mod_lt _ (Nat.two_pow_pos w)), Nat.add_zero]

/-- A write of a register keeps the registers canonical. -/
theorem regsWf_setReg {s : State} {a : Nat} {v : DWord} (h : regsWf s = true) : regsWf (setReg s a v) = true := mput_wf regReset s.regs a v h
/-- A write of a field does too. -/
theorem regsWf_wr {s : State} {f : FRef} {v : Nat} (h : regsWf s = true) : regsWf (wr s f v) = true := regsWf_setReg h
/-- A register reads as written. -/
theorem getReg_setReg_self {s : State} {a : Nat} {v : DWord} (h : regsWf s = true) : getReg (setReg s a v) a = v := mget_mput_self regReset s.regs a v h
/-- Every other register reads as before. -/
theorem getReg_setReg_other {s : State} {a b : Nat} {v : DWord} (h : regsWf s = true) (hab : b ≠ a) : getReg (setReg s a v) b = getReg s b :=
  mget_mput_other (regReset b) (regReset a) regReset s.regs a b v hab h

/-- A field reads as written. -/
theorem rd_wr_self {s : State} {f : FRef} {v : Nat} (h : regsWf s = true) (hf : f.lo + f.w ≤ 64) : rd (wr s f v) f = v % 2 ^ f.w := by
  unfold rd wr
  rw [getReg_setReg_self h, putField_self _ _ _ _ hf]

/-- The fields of every other register read as before. -/
theorem rd_wr_apart {s : State} {f g : FRef} {v : Nat} (h : regsWf s = true) (hg : g.a ≠ f.a) : rd (wr s f v) g = rd s g := by
  unfold rd wr
  rw [getReg_setReg_other h hg]

/-- Every field that does not overlap the written one reads as before. -/
theorem rd_wr_other {s : State} {f g : FRef} {v : Nat} (h : regsWf s = true) (hf : f.lo + f.w ≤ 64) (hd : g.a ≠ f.a ∨ g.lo + g.w ≤ f.lo ∨ f.lo + f.w ≤ g.lo) :
    rd (wr s f v) g = rd s g := by
  by_cases e : g.a = f.a
  · unfold rd wr
    rw [e, getReg_setReg_self h, putField_other _ _ _ _ _ _ hf (hd.resolve_left (fun x => x e))]
  · exact rd_wr_apart h e

/-- A byte of HBM reads as written. -/
theorem hbmByte_hbmSet_self {s : State} {a : Nat} {b : Byte} (h : hbmWf s = true) (ha : a < hbmSize) : hbmByte (hbmSet s a b) a = b := by
  have hw : mwf (hbmBlank s) s.hbm = true := (Bool.and_eq_true _ _ ▸ h).1
  unfold hbmByte hbmSet
  rw [if_pos ha, if_pos ha]
  exact mget_mput_self (hbmBlank s) s.hbm a b hw

/-- Every other byte reads as before. -/
theorem hbmByte_hbmSet_other {s : State} {a c : Nat} {b : Byte} (h : hbmWf s = true) (hc : c ≠ a) : hbmByte (hbmSet s a b) c = hbmByte s c := by
  have hw : mwf (hbmBlank s) s.hbm = true := (Bool.and_eq_true _ _ ▸ h).1
  unfold hbmByte hbmSet
  split
  · split
    · exact mget_mput_other (hbmBlank s c) (hbmBlank s a) (hbmBlank s) s.hbm a c b hc hw
    · rfl
  · rfl
end Sys2Proof.Machine
end

