-- ==== Sys2Proof/Laws/State.lean ====
section
/-! SUPPORT. What each named update of the state leaves as it was, one lemma per field per update, and what it sets. -/

namespace Sys2Proof.Machine

@[simp] theorem setReg_now (s : State) (a : Nat) (v : DWord) : (setReg s a v).now = s.now := rfl
@[simp] theorem setReg_free (s : State) (a : Nat) (v : DWord) : (setReg s a v).free = s.free := rfl
@[simp] theorem setReg_epoch (s : State) (a : Nat) (v : DWord) : (setReg s a v).epoch = s.epoch := rfl
@[simp] theorem setReg_pending (s : State) (a : Nat) (v : DWord) : (setReg s a v).pending = s.pending := rfl
@[simp] theorem setReg_todo (s : State) (a : Nat) (v : DWord) : (setReg s a v).todo = s.todo := rfl
@[simp] theorem setReg_out (s : State) (a : Nat) (v : DWord) : (setReg s a v).out = s.out := rfl
@[simp] theorem setReg_shadow (s : State) (a : Nat) (v : DWord) : (setReg s a v).shadow = s.shadow := rfl
@[simp] theorem setReg_old (s : State) (a : Nat) (v : DWord) : (setReg s a v).old = s.old := rfl
@[simp] theorem setReg_held (s : State) (a : Nat) (v : DWord) : (setReg s a v).held = s.held := rfl
@[simp] theorem setReg_latch (s : State) (a : Nat) (v : DWord) : (setReg s a v).latch = s.latch := rfl
@[simp] theorem setReg_loaded (s : State) (a : Nat) (v : DWord) : (setReg s a v).loaded = s.loaded := rfl
@[simp] theorem setReg_ram (s : State) (a : Nat) (v : DWord) : (setReg s a v).ram = s.ram := rfl
@[simp] theorem setReg_hbm (s : State) (a : Nat) (v : DWord) : (setReg s a v).hbm = s.hbm := rfl
@[simp] theorem setReg_powerOns (s : State) (a : Nat) (v : DWord) : (setReg s a v).powerOns = s.powerOns := rfl
@[simp] theorem setReg_sram (s : State) (a : Nat) (v : DWord) : (setReg s a v).sram = s.sram := rfl
@[simp] theorem setReg_ducBase (s : State) (a : Nat) (v : DWord) : (setReg s a v).ducBase = s.ducBase := rfl
@[simp] theorem setReg_ducAt (s : State) (a : Nat) (v : DWord) : (setReg s a v).ducAt = s.ducAt := rfl
@[simp] theorem setReg_rcd (s : State) (a : Nat) (v : DWord) : (setReg s a v).rcd = s.rcd := rfl
@[simp] theorem setReg_fw (s : State) (a : Nat) (v : DWord) : (setReg s a v).fw = s.fw := rfl
@[simp] theorem setReg_gyl (s : State) (a : Nat) (v : DWord) : (setReg s a v).gyl = s.gyl := rfl
@[simp] theorem setReg_hep (s : State) (a : Nat) (v : DWord) : (setReg s a v).hep = s.hep := rfl
@[simp] theorem setReg_modeCtl (s : State) (a : Nat) (v : DWord) : (setReg s a v).modeCtl = s.modeCtl := rfl
@[simp] theorem setReg_trl (s : State) (a : Nat) (v : DWord) : (setReg s a v).trl = s.trl := rfl
@[simp] theorem setReg_ser (s : State) (a : Nat) (v : DWord) : (setReg s a v).ser = s.ser := rfl
@[simp] theorem setReg_div (s : State) (a : Nat) (v : DWord) : (setReg s a v).div = s.div := rfl
@[simp] theorem setReg_corr (s : State) (a : Nat) (v : DWord) : (setReg s a v).corr = s.corr := rfl
@[simp] theorem setReg_homeLv (s : State) (a : Nat) (v : DWord) : (setReg s a v).homeLv = s.homeLv := rfl
@[simp] theorem setReg_dom (s : State) (a : Nat) (v : DWord) : (setReg s a v).dom = s.dom := rfl
@[simp] theorem setReg_path (s : State) (a : Nat) (v : DWord) : (setReg s a v).path = s.path := rfl
@[simp] theorem setReg_txq (s : State) (a : Nat) (v : DWord) : (setReg s a v).txq = s.txq := rfl
@[simp] theorem setReg_tpg (s : State) (a : Nat) (v : DWord) : (setReg s a v).tpg = s.tpg := rfl
@[simp] theorem setReg_stk (s : State) (a : Nat) (v : DWord) : (setReg s a v).stk = s.stk := rfl
@[simp] theorem setReg_due (s : State) (a : Nat) (v : DWord) : (setReg s a v).due = s.due := rfl
@[simp] theorem setReg_pins (s : State) (a : Nat) (v : DWord) : (setReg s a v).pins = s.pins := rfl
@[simp] theorem setReg_cxp (s : State) (a : Nat) (v : DWord) : (setReg s a v).cxp = s.cxp := rfl
@[simp] theorem setReg_mlk (s : State) (a : Nat) (v : DWord) : (setReg s a v).mlk = s.mlk := rfl
@[simp] theorem setReg_str (s : State) (a : Nat) (v : DWord) : (setReg s a v).str = s.str := rfl
@[simp] theorem setReg_frm (s : State) (a : Nat) (v : DWord) : (setReg s a v).frm = s.frm := rfl
@[simp] theorem setReg_lane (s : State) (a : Nat) (v : DWord) : (setReg s a v).lane = s.lane := rfl
@[simp] theorem setReg_pxe (s : State) (a : Nat) (v : DWord) : (setReg s a v).pxe = s.pxe := rfl
@[simp] theorem setReg_dlv (s : State) (a : Nat) (v : DWord) : (setReg s a v).dlv = s.dlv := rfl
@[simp] theorem setReg_derate (s : State) (a : Nat) (v : DWord) : (setReg s a v).derate = s.derate := rfl
@[simp] theorem setReg_posMark (s : State) (a : Nat) (v : DWord) : (setReg s a v).posMark = s.posMark := rfl
@[simp] theorem setReg_tth (s : State) (a : Nat) (v : DWord) : (setReg s a v).tth = s.tth := rfl
@[simp] theorem setReg_lan (s : State) (a : Nat) (v : DWord) : (setReg s a v).lan = s.lan := rfl
@[simp] theorem setReg_chg (s : State) (a : Nat) (v : DWord) : (setReg s a v).chg = s.chg := rfl
@[simp] theorem setReg_pwr (s : State) (a : Nat) (v : DWord) : (setReg s a v).pwr = s.pwr := rfl
@[simp] theorem setReg_mp (s : State) (a : Nat) (v : DWord) : (setReg s a v).mp = s.mp := rfl
@[simp] theorem setReg_dma (s : State) (a : Nat) (v : DWord) : (setReg s a v).dma = s.dma := rfl

@[simp] theorem wr_now (s : State) (f : FRef) (v : Nat) : (wr s f v).now = s.now := rfl
@[simp] theorem wr_free (s : State) (f : FRef) (v : Nat) : (wr s f v).free = s.free := rfl
@[simp] theorem wr_epoch (s : State) (f : FRef) (v : Nat) : (wr s f v).epoch = s.epoch := rfl
@[simp] theorem wr_pending (s : State) (f : FRef) (v : Nat) : (wr s f v).pending = s.pending := rfl
@[simp] theorem wr_todo (s : State) (f : FRef) (v : Nat) : (wr s f v).todo = s.todo := rfl
@[simp] theorem wr_out (s : State) (f : FRef) (v : Nat) : (wr s f v).out = s.out := rfl
@[simp] theorem wr_shadow (s : State) (f : FRef) (v : Nat) : (wr s f v).shadow = s.shadow := rfl
@[simp] theorem wr_old (s : State) (f : FRef) (v : Nat) : (wr s f v).old = s.old := rfl
@[simp] theorem wr_held (s : State) (f : FRef) (v : Nat) : (wr s f v).held = s.held := rfl
@[simp] theorem wr_latch (s : State) (f : FRef) (v : Nat) : (wr s f v).latch = s.latch := rfl
@[simp] theorem wr_loaded (s : State) (f : FRef) (v : Nat) : (wr s f v).loaded = s.loaded := rfl
@[simp] theorem wr_ram (s : State) (f : FRef) (v : Nat) : (wr s f v).ram = s.ram := rfl
@[simp] theorem wr_hbm (s : State) (f : FRef) (v : Nat) : (wr s f v).hbm = s.hbm := rfl
@[simp] theorem wr_powerOns (s : State) (f : FRef) (v : Nat) : (wr s f v).powerOns = s.powerOns := rfl
@[simp] theorem wr_sram (s : State) (f : FRef) (v : Nat) : (wr s f v).sram = s.sram := rfl
@[simp] theorem wr_ducBase (s : State) (f : FRef) (v : Nat) : (wr s f v).ducBase = s.ducBase := rfl
@[simp] theorem wr_ducAt (s : State) (f : FRef) (v : Nat) : (wr s f v).ducAt = s.ducAt := rfl
@[simp] theorem wr_rcd (s : State) (f : FRef) (v : Nat) : (wr s f v).rcd = s.rcd := rfl
@[simp] theorem wr_fw (s : State) (f : FRef) (v : Nat) : (wr s f v).fw = s.fw := rfl
@[simp] theorem wr_gyl (s : State) (f : FRef) (v : Nat) : (wr s f v).gyl = s.gyl := rfl
@[simp] theorem wr_hep (s : State) (f : FRef) (v : Nat) : (wr s f v).hep = s.hep := rfl
@[simp] theorem wr_modeCtl (s : State) (f : FRef) (v : Nat) : (wr s f v).modeCtl = s.modeCtl := rfl
@[simp] theorem wr_trl (s : State) (f : FRef) (v : Nat) : (wr s f v).trl = s.trl := rfl
@[simp] theorem wr_ser (s : State) (f : FRef) (v : Nat) : (wr s f v).ser = s.ser := rfl
@[simp] theorem wr_div (s : State) (f : FRef) (v : Nat) : (wr s f v).div = s.div := rfl
@[simp] theorem wr_corr (s : State) (f : FRef) (v : Nat) : (wr s f v).corr = s.corr := rfl
@[simp] theorem wr_homeLv (s : State) (f : FRef) (v : Nat) : (wr s f v).homeLv = s.homeLv := rfl
@[simp] theorem wr_dom (s : State) (f : FRef) (v : Nat) : (wr s f v).dom = s.dom := rfl
@[simp] theorem wr_path (s : State) (f : FRef) (v : Nat) : (wr s f v).path = s.path := rfl
@[simp] theorem wr_txq (s : State) (f : FRef) (v : Nat) : (wr s f v).txq = s.txq := rfl
@[simp] theorem wr_tpg (s : State) (f : FRef) (v : Nat) : (wr s f v).tpg = s.tpg := rfl
@[simp] theorem wr_stk (s : State) (f : FRef) (v : Nat) : (wr s f v).stk = s.stk := rfl
@[simp] theorem wr_due (s : State) (f : FRef) (v : Nat) : (wr s f v).due = s.due := rfl
@[simp] theorem wr_pins (s : State) (f : FRef) (v : Nat) : (wr s f v).pins = s.pins := rfl
@[simp] theorem wr_cxp (s : State) (f : FRef) (v : Nat) : (wr s f v).cxp = s.cxp := rfl
@[simp] theorem wr_mlk (s : State) (f : FRef) (v : Nat) : (wr s f v).mlk = s.mlk := rfl
@[simp] theorem wr_str (s : State) (f : FRef) (v : Nat) : (wr s f v).str = s.str := rfl
@[simp] theorem wr_frm (s : State) (f : FRef) (v : Nat) : (wr s f v).frm = s.frm := rfl
@[simp] theorem wr_lane (s : State) (f : FRef) (v : Nat) : (wr s f v).lane = s.lane := rfl
@[simp] theorem wr_pxe (s : State) (f : FRef) (v : Nat) : (wr s f v).pxe = s.pxe := rfl
@[simp] theorem wr_dlv (s : State) (f : FRef) (v : Nat) : (wr s f v).dlv = s.dlv := rfl
@[simp] theorem wr_derate (s : State) (f : FRef) (v : Nat) : (wr s f v).derate = s.derate := rfl
@[simp] theorem wr_posMark (s : State) (f : FRef) (v : Nat) : (wr s f v).posMark = s.posMark := rfl
@[simp] theorem wr_tth (s : State) (f : FRef) (v : Nat) : (wr s f v).tth = s.tth := rfl
@[simp] theorem wr_lan (s : State) (f : FRef) (v : Nat) : (wr s f v).lan = s.lan := rfl
@[simp] theorem wr_chg (s : State) (f : FRef) (v : Nat) : (wr s f v).chg = s.chg := rfl
@[simp] theorem wr_pwr (s : State) (f : FRef) (v : Nat) : (wr s f v).pwr = s.pwr := rfl
@[simp] theorem wr_mp (s : State) (f : FRef) (v : Nat) : (wr s f v).mp = s.mp := rfl
@[simp] theorem wr_dma (s : State) (f : FRef) (v : Nat) : (wr s f v).dma = s.dma := rfl

@[simp] theorem wrB_now (s : State) (f : FRef) (b : Bool) : (wrB s f b).now = s.now := rfl
@[simp] theorem wrB_free (s : State) (f : FRef) (b : Bool) : (wrB s f b).free = s.free := rfl
@[simp] theorem wrB_epoch (s : State) (f : FRef) (b : Bool) : (wrB s f b).epoch = s.epoch := rfl
@[simp] theorem wrB_pending (s : State) (f : FRef) (b : Bool) : (wrB s f b).pending = s.pending := rfl
@[simp] theorem wrB_todo (s : State) (f : FRef) (b : Bool) : (wrB s f b).todo = s.todo := rfl
@[simp] theorem wrB_out (s : State) (f : FRef) (b : Bool) : (wrB s f b).out = s.out := rfl
@[simp] theorem wrB_shadow (s : State) (f : FRef) (b : Bool) : (wrB s f b).shadow = s.shadow := rfl
@[simp] theorem wrB_old (s : State) (f : FRef) (b : Bool) : (wrB s f b).old = s.old := rfl
@[simp] theorem wrB_held (s : State) (f : FRef) (b : Bool) : (wrB s f b).held = s.held := rfl
@[simp] theorem wrB_latch (s : State) (f : FRef) (b : Bool) : (wrB s f b).latch = s.latch := rfl
@[simp] theorem wrB_loaded (s : State) (f : FRef) (b : Bool) : (wrB s f b).loaded = s.loaded := rfl
@[simp] theorem wrB_ram (s : State) (f : FRef) (b : Bool) : (wrB s f b).ram = s.ram := rfl
@[simp] theorem wrB_hbm (s : State) (f : FRef) (b : Bool) : (wrB s f b).hbm = s.hbm := rfl
@[simp] theorem wrB_powerOns (s : State) (f : FRef) (b : Bool) : (wrB s f b).powerOns = s.powerOns := rfl
@[simp] theorem wrB_sram (s : State) (f : FRef) (b : Bool) : (wrB s f b).sram = s.sram := rfl
@[simp] theorem wrB_ducBase (s : State) (f : FRef) (b : Bool) : (wrB s f b).ducBase = s.ducBase := rfl
@[simp] theorem wrB_ducAt (s : State) (f : FRef) (b : Bool) : (wrB s f b).ducAt = s.ducAt := rfl
@[simp] theorem wrB_rcd (s : State) (f : FRef) (b : Bool) : (wrB s f b).rcd = s.rcd := rfl
@[simp] theorem wrB_fw (s : State) (f : FRef) (b : Bool) : (wrB s f b).fw = s.fw := rfl
@[simp] theorem wrB_gyl (s : State) (f : FRef) (b : Bool) : (wrB s f b).gyl = s.gyl := rfl
@[simp] theorem wrB_hep (s : State) (f : FRef) (b : Bool) : (wrB s f b).hep = s.hep := rfl
@[simp] theorem wrB_modeCtl (s : State) (f : FRef) (b : Bool) : (wrB s f b).modeCtl = s.modeCtl := rfl
@[simp] theorem wrB_trl (s : State) (f : FRef) (b : Bool) : (wrB s f b).trl = s.trl := rfl
@[simp] theorem wrB_ser (s : State) (f : FRef) (b : Bool) : (wrB s f b).ser = s.ser := rfl
@[simp] theorem wrB_div (s : State) (f : FRef) (b : Bool) : (wrB s f b).div = s.div := rfl
@[simp] theorem wrB_corr (s : State) (f : FRef) (b : Bool) : (wrB s f b).corr = s.corr := rfl
@[simp] theorem wrB_homeLv (s : State) (f : FRef) (b : Bool) : (wrB s f b).homeLv = s.homeLv := rfl
@[simp] theorem wrB_dom (s : State) (f : FRef) (b : Bool) : (wrB s f b).dom = s.dom := rfl
@[simp] theorem wrB_path (s : State) (f : FRef) (b : Bool) : (wrB s f b).path = s.path := rfl
@[simp] theorem wrB_txq (s : State) (f : FRef) (b : Bool) : (wrB s f b).txq = s.txq := rfl
@[simp] theorem wrB_tpg (s : State) (f : FRef) (b : Bool) : (wrB s f b).tpg = s.tpg := rfl
@[simp] theorem wrB_stk (s : State) (f : FRef) (b : Bool) : (wrB s f b).stk = s.stk := rfl
@[simp] theorem wrB_due (s : State) (f : FRef) (b : Bool) : (wrB s f b).due = s.due := rfl
@[simp] theorem wrB_pins (s : State) (f : FRef) (b : Bool) : (wrB s f b).pins = s.pins := rfl
@[simp] theorem wrB_cxp (s : State) (f : FRef) (b : Bool) : (wrB s f b).cxp = s.cxp := rfl
@[simp] theorem wrB_mlk (s : State) (f : FRef) (b : Bool) : (wrB s f b).mlk = s.mlk := rfl
@[simp] theorem wrB_str (s : State) (f : FRef) (b : Bool) : (wrB s f b).str = s.str := rfl
@[simp] theorem wrB_frm (s : State) (f : FRef) (b : Bool) : (wrB s f b).frm = s.frm := rfl
@[simp] theorem wrB_lane (s : State) (f : FRef) (b : Bool) : (wrB s f b).lane = s.lane := rfl
@[simp] theorem wrB_pxe (s : State) (f : FRef) (b : Bool) : (wrB s f b).pxe = s.pxe := rfl
@[simp] theorem wrB_dlv (s : State) (f : FRef) (b : Bool) : (wrB s f b).dlv = s.dlv := rfl
@[simp] theorem wrB_derate (s : State) (f : FRef) (b : Bool) : (wrB s f b).derate = s.derate := rfl
@[simp] theorem wrB_posMark (s : State) (f : FRef) (b : Bool) : (wrB s f b).posMark = s.posMark := rfl
@[simp] theorem wrB_tth (s : State) (f : FRef) (b : Bool) : (wrB s f b).tth = s.tth := rfl
@[simp] theorem wrB_lan (s : State) (f : FRef) (b : Bool) : (wrB s f b).lan = s.lan := rfl
@[simp] theorem wrB_chg (s : State) (f : FRef) (b : Bool) : (wrB s f b).chg = s.chg := rfl
@[simp] theorem wrB_pwr (s : State) (f : FRef) (b : Bool) : (wrB s f b).pwr = s.pwr := rfl
@[simp] theorem wrB_mp (s : State) (f : FRef) (b : Bool) : (wrB s f b).mp = s.mp := rfl
@[simp] theorem wrB_dma (s : State) (f : FRef) (b : Bool) : (wrB s f b).dma = s.dma := rfl

@[simp] theorem wrI_now (s : State) (f : FRef) (i : Int) : (wrI s f i).now = s.now := rfl
@[simp] theorem wrI_free (s : State) (f : FRef) (i : Int) : (wrI s f i).free = s.free := rfl
@[simp] theorem wrI_epoch (s : State) (f : FRef) (i : Int) : (wrI s f i).epoch = s.epoch := rfl
@[simp] theorem wrI_pending (s : State) (f : FRef) (i : Int) : (wrI s f i).pending = s.pending := rfl
@[simp] theorem wrI_todo (s : State) (f : FRef) (i : Int) : (wrI s f i).todo = s.todo := rfl
@[simp] theorem wrI_out (s : State) (f : FRef) (i : Int) : (wrI s f i).out = s.out := rfl
@[simp] theorem wrI_shadow (s : State) (f : FRef) (i : Int) : (wrI s f i).shadow = s.shadow := rfl
@[simp] theorem wrI_old (s : State) (f : FRef) (i : Int) : (wrI s f i).old = s.old := rfl
@[simp] theorem wrI_held (s : State) (f : FRef) (i : Int) : (wrI s f i).held = s.held := rfl
@[simp] theorem wrI_latch (s : State) (f : FRef) (i : Int) : (wrI s f i).latch = s.latch := rfl
@[simp] theorem wrI_loaded (s : State) (f : FRef) (i : Int) : (wrI s f i).loaded = s.loaded := rfl
@[simp] theorem wrI_ram (s : State) (f : FRef) (i : Int) : (wrI s f i).ram = s.ram := rfl
@[simp] theorem wrI_hbm (s : State) (f : FRef) (i : Int) : (wrI s f i).hbm = s.hbm := rfl
@[simp] theorem wrI_powerOns (s : State) (f : FRef) (i : Int) : (wrI s f i).powerOns = s.powerOns := rfl
@[simp] theorem wrI_sram (s : State) (f : FRef) (i : Int) : (wrI s f i).sram = s.sram := rfl
@[simp] theorem wrI_ducBase (s : State) (f : FRef) (i : Int) : (wrI s f i).ducBase = s.ducBase := rfl
@[simp] theorem wrI_ducAt (s : State) (f : FRef) (i : Int) : (wrI s f i).ducAt = s.ducAt := rfl
@[simp] theorem wrI_rcd (s : State) (f : FRef) (i : Int) : (wrI s f i).rcd = s.rcd := rfl
@[simp] theorem wrI_fw (s : State) (f : FRef) (i : Int) : (wrI s f i).fw = s.fw := rfl
@[simp] theorem wrI_gyl (s : State) (f : FRef) (i : Int) : (wrI s f i).gyl = s.gyl := rfl
@[simp] theorem wrI_hep (s : State) (f : FRef) (i : Int) : (wrI s f i).hep = s.hep := rfl
@[simp] theorem wrI_modeCtl (s : State) (f : FRef) (i : Int) : (wrI s f i).modeCtl = s.modeCtl := rfl
@[simp] theorem wrI_trl (s : State) (f : FRef) (i : Int) : (wrI s f i).trl = s.trl := rfl
@[simp] theorem wrI_ser (s : State) (f : FRef) (i : Int) : (wrI s f i).ser = s.ser := rfl
@[simp] theorem wrI_div (s : State) (f : FRef) (i : Int) : (wrI s f i).div = s.div := rfl
@[simp] theorem wrI_corr (s : State) (f : FRef) (i : Int) : (wrI s f i).corr = s.corr := rfl
@[simp] theorem wrI_homeLv (s : State) (f : FRef) (i : Int) : (wrI s f i).homeLv = s.homeLv := rfl
@[simp] theorem wrI_dom (s : State) (f : FRef) (i : Int) : (wrI s f i).dom = s.dom := rfl
@[simp] theorem wrI_path (s : State) (f : FRef) (i : Int) : (wrI s f i).path = s.path := rfl
@[simp] theorem wrI_txq (s : State) (f : FRef) (i : Int) : (wrI s f i).txq = s.txq := rfl
@[simp] theorem wrI_tpg (s : State) (f : FRef) (i : Int) : (wrI s f i).tpg = s.tpg := rfl
@[simp] theorem wrI_stk (s : State) (f : FRef) (i : Int) : (wrI s f i).stk = s.stk := rfl
@[simp] theorem wrI_due (s : State) (f : FRef) (i : Int) : (wrI s f i).due = s.due := rfl
@[simp] theorem wrI_pins (s : State) (f : FRef) (i : Int) : (wrI s f i).pins = s.pins := rfl
@[simp] theorem wrI_cxp (s : State) (f : FRef) (i : Int) : (wrI s f i).cxp = s.cxp := rfl
@[simp] theorem wrI_mlk (s : State) (f : FRef) (i : Int) : (wrI s f i).mlk = s.mlk := rfl
@[simp] theorem wrI_str (s : State) (f : FRef) (i : Int) : (wrI s f i).str = s.str := rfl
@[simp] theorem wrI_frm (s : State) (f : FRef) (i : Int) : (wrI s f i).frm = s.frm := rfl
@[simp] theorem wrI_lane (s : State) (f : FRef) (i : Int) : (wrI s f i).lane = s.lane := rfl
@[simp] theorem wrI_pxe (s : State) (f : FRef) (i : Int) : (wrI s f i).pxe = s.pxe := rfl
@[simp] theorem wrI_dlv (s : State) (f : FRef) (i : Int) : (wrI s f i).dlv = s.dlv := rfl
@[simp] theorem wrI_derate (s : State) (f : FRef) (i : Int) : (wrI s f i).derate = s.derate := rfl
@[simp] theorem wrI_posMark (s : State) (f : FRef) (i : Int) : (wrI s f i).posMark = s.posMark := rfl
@[simp] theorem wrI_tth (s : State) (f : FRef) (i : Int) : (wrI s f i).tth = s.tth := rfl
@[simp] theorem wrI_lan (s : State) (f : FRef) (i : Int) : (wrI s f i).lan = s.lan := rfl
@[simp] theorem wrI_chg (s : State) (f : FRef) (i : Int) : (wrI s f i).chg = s.chg := rfl
@[simp] theorem wrI_pwr (s : State) (f : FRef) (i : Int) : (wrI s f i).pwr = s.pwr := rfl
@[simp] theorem wrI_mp (s : State) (f : FRef) (i : Int) : (wrI s f i).mp = s.mp := rfl
@[simp] theorem wrI_dma (s : State) (f : FRef) (i : Int) : (wrI s f i).dma = s.dma := rfl

@[simp] theorem addSat_now (s : State) (f : FRef) (n : Nat) : (addSat s f n).now = s.now := rfl
@[simp] theorem addSat_free (s : State) (f : FRef) (n : Nat) : (addSat s f n).free = s.free := rfl
@[simp] theorem addSat_epoch (s : State) (f : FRef) (n : Nat) : (addSat s f n).epoch = s.epoch := rfl
@[simp] theorem addSat_pending (s : State) (f : FRef) (n : Nat) : (addSat s f n).pending = s.pending := rfl
@[simp] theorem addSat_todo (s : State) (f : FRef) (n : Nat) : (addSat s f n).todo = s.todo := rfl
@[simp] theorem addSat_out (s : State) (f : FRef) (n : Nat) : (addSat s f n).out = s.out := rfl
@[simp] theorem addSat_shadow (s : State) (f : FRef) (n : Nat) : (addSat s f n).shadow = s.shadow := rfl
@[simp] theorem addSat_old (s : State) (f : FRef) (n : Nat) : (addSat s f n).old = s.old := rfl
@[simp] theorem addSat_held (s : State) (f : FRef) (n : Nat) : (addSat s f n).held = s.held := rfl
@[simp] theorem addSat_latch (s : State) (f : FRef) (n : Nat) : (addSat s f n).latch = s.latch := rfl
@[simp] theorem addSat_loaded (s : State) (f : FRef) (n : Nat) : (addSat s f n).loaded = s.loaded := rfl
@[simp] theorem addSat_ram (s : State) (f : FRef) (n : Nat) : (addSat s f n).ram = s.ram := rfl
@[simp] theorem addSat_hbm (s : State) (f : FRef) (n : Nat) : (addSat s f n).hbm = s.hbm := rfl
@[simp] theorem addSat_powerOns (s : State) (f : FRef) (n : Nat) : (addSat s f n).powerOns = s.powerOns := rfl
@[simp] theorem addSat_sram (s : State) (f : FRef) (n : Nat) : (addSat s f n).sram = s.sram := rfl
@[simp] theorem addSat_ducBase (s : State) (f : FRef) (n : Nat) : (addSat s f n).ducBase = s.ducBase := rfl
@[simp] theorem addSat_ducAt (s : State) (f : FRef) (n : Nat) : (addSat s f n).ducAt = s.ducAt := rfl
@[simp] theorem addSat_rcd (s : State) (f : FRef) (n : Nat) : (addSat s f n).rcd = s.rcd := rfl
@[simp] theorem addSat_fw (s : State) (f : FRef) (n : Nat) : (addSat s f n).fw = s.fw := rfl
@[simp] theorem addSat_gyl (s : State) (f : FRef) (n : Nat) : (addSat s f n).gyl = s.gyl := rfl
@[simp] theorem addSat_hep (s : State) (f : FRef) (n : Nat) : (addSat s f n).hep = s.hep := rfl
@[simp] theorem addSat_modeCtl (s : State) (f : FRef) (n : Nat) : (addSat s f n).modeCtl = s.modeCtl := rfl
@[simp] theorem addSat_trl (s : State) (f : FRef) (n : Nat) : (addSat s f n).trl = s.trl := rfl
@[simp] theorem addSat_ser (s : State) (f : FRef) (n : Nat) : (addSat s f n).ser = s.ser := rfl
@[simp] theorem addSat_div (s : State) (f : FRef) (n : Nat) : (addSat s f n).div = s.div := rfl
@[simp] theorem addSat_corr (s : State) (f : FRef) (n : Nat) : (addSat s f n).corr = s.corr := rfl
@[simp] theorem addSat_homeLv (s : State) (f : FRef) (n : Nat) : (addSat s f n).homeLv = s.homeLv := rfl
@[simp] theorem addSat_dom (s : State) (f : FRef) (n : Nat) : (addSat s f n).dom = s.dom := rfl
@[simp] theorem addSat_path (s : State) (f : FRef) (n : Nat) : (addSat s f n).path = s.path := rfl
@[simp] theorem addSat_txq (s : State) (f : FRef) (n : Nat) : (addSat s f n).txq = s.txq := rfl
@[simp] theorem addSat_tpg (s : State) (f : FRef) (n : Nat) : (addSat s f n).tpg = s.tpg := rfl
@[simp] theorem addSat_stk (s : State) (f : FRef) (n : Nat) : (addSat s f n).stk = s.stk := rfl
@[simp] theorem addSat_due (s : State) (f : FRef) (n : Nat) : (addSat s f n).due = s.due := rfl
@[simp] theorem addSat_pins (s : State) (f : FRef) (n : Nat) : (addSat s f n).pins = s.pins := rfl
@[simp] theorem addSat_cxp (s : State) (f : FRef) (n : Nat) : (addSat s f n).cxp = s.cxp := rfl
@[simp] theorem addSat_mlk (s : State) (f : FRef) (n : Nat) : (addSat s f n).mlk = s.mlk := rfl
@[simp] theorem addSat_str (s : State) (f : FRef) (n : Nat) : (addSat s f n).str = s.str := rfl
@[simp] theorem addSat_frm (s : State) (f : FRef) (n : Nat) : (addSat s f n).frm = s.frm := rfl
@[simp] theorem addSat_lane (s : State) (f : FRef) (n : Nat) : (addSat s f n).lane = s.lane := rfl
@[simp] theorem addSat_pxe (s : State) (f : FRef) (n : Nat) : (addSat s f n).pxe = s.pxe := rfl
@[simp] theorem addSat_dlv (s : State) (f : FRef) (n : Nat) : (addSat s f n).dlv = s.dlv := rfl
@[simp] theorem addSat_derate (s : State) (f : FRef) (n : Nat) : (addSat s f n).derate = s.derate := rfl
@[simp] theorem addSat_posMark (s : State) (f : FRef) (n : Nat) : (addSat s f n).posMark = s.posMark := rfl
@[simp] theorem addSat_tth (s : State) (f : FRef) (n : Nat) : (addSat s f n).tth = s.tth := rfl
@[simp] theorem addSat_lan (s : State) (f : FRef) (n : Nat) : (addSat s f n).lan = s.lan := rfl
@[simp] theorem addSat_chg (s : State) (f : FRef) (n : Nat) : (addSat s f n).chg = s.chg := rfl
@[simp] theorem addSat_pwr (s : State) (f : FRef) (n : Nat) : (addSat s f n).pwr = s.pwr := rfl
@[simp] theorem addSat_mp (s : State) (f : FRef) (n : Nat) : (addSat s f n).mp = s.mp := rfl
@[simp] theorem addSat_dma (s : State) (f : FRef) (n : Nat) : (addSat s f n).dma = s.dma := rfl

@[simp] theorem addWrap_now (s : State) (f : FRef) (n : Nat) : (addWrap s f n).now = s.now := rfl
@[simp] theorem addWrap_free (s : State) (f : FRef) (n : Nat) : (addWrap s f n).free = s.free := rfl
@[simp] theorem addWrap_epoch (s : State) (f : FRef) (n : Nat) : (addWrap s f n).epoch = s.epoch := rfl
@[simp] theorem addWrap_pending (s : State) (f : FRef) (n : Nat) : (addWrap s f n).pending = s.pending := rfl
@[simp] theorem addWrap_todo (s : State) (f : FRef) (n : Nat) : (addWrap s f n).todo = s.todo := rfl
@[simp] theorem addWrap_out (s : State) (f : FRef) (n : Nat) : (addWrap s f n).out = s.out := rfl
@[simp] theorem addWrap_shadow (s : State) (f : FRef) (n : Nat) : (addWrap s f n).shadow = s.shadow := rfl
@[simp] theorem addWrap_old (s : State) (f : FRef) (n : Nat) : (addWrap s f n).old = s.old := rfl
@[simp] theorem addWrap_held (s : State) (f : FRef) (n : Nat) : (addWrap s f n).held = s.held := rfl
@[simp] theorem addWrap_latch (s : State) (f : FRef) (n : Nat) : (addWrap s f n).latch = s.latch := rfl
@[simp] theorem addWrap_loaded (s : State) (f : FRef) (n : Nat) : (addWrap s f n).loaded = s.loaded := rfl
@[simp] theorem addWrap_ram (s : State) (f : FRef) (n : Nat) : (addWrap s f n).ram = s.ram := rfl
@[simp] theorem addWrap_hbm (s : State) (f : FRef) (n : Nat) : (addWrap s f n).hbm = s.hbm := rfl
@[simp] theorem addWrap_powerOns (s : State) (f : FRef) (n : Nat) : (addWrap s f n).powerOns = s.powerOns := rfl
@[simp] theorem addWrap_sram (s : State) (f : FRef) (n : Nat) : (addWrap s f n).sram = s.sram := rfl
@[simp] theorem addWrap_ducBase (s : State) (f : FRef) (n : Nat) : (addWrap s f n).ducBase = s.ducBase := rfl
@[simp] theorem addWrap_ducAt (s : State) (f : FRef) (n : Nat) : (addWrap s f n).ducAt = s.ducAt := rfl
@[simp] theorem addWrap_rcd (s : State) (f : FRef) (n : Nat) : (addWrap s f n).rcd = s.rcd := rfl
@[simp] theorem addWrap_fw (s : State) (f : FRef) (n : Nat) : (addWrap s f n).fw = s.fw := rfl
@[simp] theorem addWrap_gyl (s : State) (f : FRef) (n : Nat) : (addWrap s f n).gyl = s.gyl := rfl
@[simp] theorem addWrap_hep (s : State) (f : FRef) (n : Nat) : (addWrap s f n).hep = s.hep := rfl
@[simp] theorem addWrap_modeCtl (s : State) (f : FRef) (n : Nat) : (addWrap s f n).modeCtl = s.modeCtl := rfl
@[simp] theorem addWrap_trl (s : State) (f : FRef) (n : Nat) : (addWrap s f n).trl = s.trl := rfl
@[simp] theorem addWrap_ser (s : State) (f : FRef) (n : Nat) : (addWrap s f n).ser = s.ser := rfl
@[simp] theorem addWrap_div (s : State) (f : FRef) (n : Nat) : (addWrap s f n).div = s.div := rfl
@[simp] theorem addWrap_corr (s : State) (f : FRef) (n : Nat) : (addWrap s f n).corr = s.corr := rfl
@[simp] theorem addWrap_homeLv (s : State) (f : FRef) (n : Nat) : (addWrap s f n).homeLv = s.homeLv := rfl
@[simp] theorem addWrap_dom (s : State) (f : FRef) (n : Nat) : (addWrap s f n).dom = s.dom := rfl
@[simp] theorem addWrap_path (s : State) (f : FRef) (n : Nat) : (addWrap s f n).path = s.path := rfl
@[simp] theorem addWrap_txq (s : State) (f : FRef) (n : Nat) : (addWrap s f n).txq = s.txq := rfl
@[simp] theorem addWrap_tpg (s : State) (f : FRef) (n : Nat) : (addWrap s f n).tpg = s.tpg := rfl
@[simp] theorem addWrap_stk (s : State) (f : FRef) (n : Nat) : (addWrap s f n).stk = s.stk := rfl
@[simp] theorem addWrap_due (s : State) (f : FRef) (n : Nat) : (addWrap s f n).due = s.due := rfl
@[simp] theorem addWrap_pins (s : State) (f : FRef) (n : Nat) : (addWrap s f n).pins = s.pins := rfl
@[simp] theorem addWrap_cxp (s : State) (f : FRef) (n : Nat) : (addWrap s f n).cxp = s.cxp := rfl
@[simp] theorem addWrap_mlk (s : State) (f : FRef) (n : Nat) : (addWrap s f n).mlk = s.mlk := rfl
@[simp] theorem addWrap_str (s : State) (f : FRef) (n : Nat) : (addWrap s f n).str = s.str := rfl
@[simp] theorem addWrap_frm (s : State) (f : FRef) (n : Nat) : (addWrap s f n).frm = s.frm := rfl
@[simp] theorem addWrap_lane (s : State) (f : FRef) (n : Nat) : (addWrap s f n).lane = s.lane := rfl
@[simp] theorem addWrap_pxe (s : State) (f : FRef) (n : Nat) : (addWrap s f n).pxe = s.pxe := rfl
@[simp] theorem addWrap_dlv (s : State) (f : FRef) (n : Nat) : (addWrap s f n).dlv = s.dlv := rfl
@[simp] theorem addWrap_derate (s : State) (f : FRef) (n : Nat) : (addWrap s f n).derate = s.derate := rfl
@[simp] theorem addWrap_posMark (s : State) (f : FRef) (n : Nat) : (addWrap s f n).posMark = s.posMark := rfl
@[simp] theorem addWrap_tth (s : State) (f : FRef) (n : Nat) : (addWrap s f n).tth = s.tth := rfl
@[simp] theorem addWrap_lan (s : State) (f : FRef) (n : Nat) : (addWrap s f n).lan = s.lan := rfl
@[simp] theorem addWrap_chg (s : State) (f : FRef) (n : Nat) : (addWrap s f n).chg = s.chg := rfl
@[simp] theorem addWrap_pwr (s : State) (f : FRef) (n : Nat) : (addWrap s f n).pwr = s.pwr := rfl
@[simp] theorem addWrap_mp (s : State) (f : FRef) (n : Nat) : (addWrap s f n).mp = s.mp := rfl
@[simp] theorem addWrap_dma (s : State) (f : FRef) (n : Nat) : (addWrap s f n).dma = s.dma := rfl

@[simp] theorem later_now (s : State) (t : Todo) : (later s t).now = s.now := rfl
@[simp] theorem later_free (s : State) (t : Todo) : (later s t).free = s.free := rfl
@[simp] theorem later_epoch (s : State) (t : Todo) : (later s t).epoch = s.epoch := rfl
@[simp] theorem later_pending (s : State) (t : Todo) : (later s t).pending = s.pending := rfl
@[simp] theorem later_out (s : State) (t : Todo) : (later s t).out = s.out := rfl
@[simp] theorem later_regs (s : State) (t : Todo) : (later s t).regs = s.regs := rfl
@[simp] theorem later_shadow (s : State) (t : Todo) : (later s t).shadow = s.shadow := rfl
@[simp] theorem later_old (s : State) (t : Todo) : (later s t).old = s.old := rfl
@[simp] theorem later_held (s : State) (t : Todo) : (later s t).held = s.held := rfl
@[simp] theorem later_latch (s : State) (t : Todo) : (later s t).latch = s.latch := rfl
@[simp] theorem later_loaded (s : State) (t : Todo) : (later s t).loaded = s.loaded := rfl
@[simp] theorem later_ram (s : State) (t : Todo) : (later s t).ram = s.ram := rfl
@[simp] theorem later_hbm (s : State) (t : Todo) : (later s t).hbm = s.hbm := rfl
@[simp] theorem later_powerOns (s : State) (t : Todo) : (later s t).powerOns = s.powerOns := rfl
@[simp] theorem later_sram (s : State) (t : Todo) : (later s t).sram = s.sram := rfl
@[simp] theorem later_ducBase (s : State) (t : Todo) : (later s t).ducBase = s.ducBase := rfl
@[simp] theorem later_ducAt (s : State) (t : Todo) : (later s t).ducAt = s.ducAt := rfl
@[simp] theorem later_rcd (s : State) (t : Todo) : (later s t).rcd = s.rcd := rfl
@[simp] theorem later_fw (s : State) (t : Todo) : (later s t).fw = s.fw := rfl
@[simp] theorem later_gyl (s : State) (t : Todo) : (later s t).gyl = s.gyl := rfl
@[simp] theorem later_hep (s : State) (t : Todo) : (later s t).hep = s.hep := rfl
@[simp] theorem later_modeCtl (s : State) (t : Todo) : (later s t).modeCtl = s.modeCtl := rfl
@[simp] theorem later_trl (s : State) (t : Todo) : (later s t).trl = s.trl := rfl
@[simp] theorem later_ser (s : State) (t : Todo) : (later s t).ser = s.ser := rfl
@[simp] theorem later_div (s : State) (t : Todo) : (later s t).div = s.div := rfl
@[simp] theorem later_corr (s : State) (t : Todo) : (later s t).corr = s.corr := rfl
@[simp] theorem later_homeLv (s : State) (t : Todo) : (later s t).homeLv = s.homeLv := rfl
@[simp] theorem later_dom (s : State) (t : Todo) : (later s t).dom = s.dom := rfl
@[simp] theorem later_path (s : State) (t : Todo) : (later s t).path = s.path := rfl
@[simp] theorem later_txq (s : State) (t : Todo) : (later s t).txq = s.txq := rfl
@[simp] theorem later_tpg (s : State) (t : Todo) : (later s t).tpg = s.tpg := rfl
@[simp] theorem later_stk (s : State) (t : Todo) : (later s t).stk = s.stk := rfl
@[simp] theorem later_due (s : State) (t : Todo) : (later s t).due = s.due := rfl
@[simp] theorem later_pins (s : State) (t : Todo) : (later s t).pins = s.pins := rfl
@[simp] theorem later_cxp (s : State) (t : Todo) : (later s t).cxp = s.cxp := rfl
@[simp] theorem later_mlk (s : State) (t : Todo) : (later s t).mlk = s.mlk := rfl
@[simp] theorem later_str (s : State) (t : Todo) : (later s t).str = s.str := rfl
@[simp] theorem later_frm (s : State) (t : Todo) : (later s t).frm = s.frm := rfl
@[simp] theorem later_lane (s : State) (t : Todo) : (later s t).lane = s.lane := rfl
@[simp] theorem later_pxe (s : State) (t : Todo) : (later s t).pxe = s.pxe := rfl
@[simp] theorem later_dlv (s : State) (t : Todo) : (later s t).dlv = s.dlv := rfl
@[simp] theorem later_derate (s : State) (t : Todo) : (later s t).derate = s.derate := rfl
@[simp] theorem later_posMark (s : State) (t : Todo) : (later s t).posMark = s.posMark := rfl
@[simp] theorem later_tth (s : State) (t : Todo) : (later s t).tth = s.tth := rfl
@[simp] theorem later_lan (s : State) (t : Todo) : (later s t).lan = s.lan := rfl
@[simp] theorem later_chg (s : State) (t : Todo) : (later s t).chg = s.chg := rfl
@[simp] theorem later_pwr (s : State) (t : Todo) : (later s t).pwr = s.pwr := rfl
@[simp] theorem later_mp (s : State) (t : Todo) : (later s t).mp = s.mp := rfl
@[simp] theorem later_dma (s : State) (t : Todo) : (later s t).dma = s.dma := rfl

@[simp] theorem send_now (s : State) (o : Out) : (send s o).now = s.now := rfl
@[simp] theorem send_free (s : State) (o : Out) : (send s o).free = s.free := rfl
@[simp] theorem send_epoch (s : State) (o : Out) : (send s o).epoch = s.epoch := rfl
@[simp] theorem send_pending (s : State) (o : Out) : (send s o).pending = s.pending := rfl
@[simp] theorem send_todo (s : State) (o : Out) : (send s o).todo = s.todo := rfl
@[simp] theorem send_regs (s : State) (o : Out) : (send s o).regs = s.regs := rfl
@[simp] theorem send_shadow (s : State) (o : Out) : (send s o).shadow = s.shadow := rfl
@[simp] theorem send_old (s : State) (o : Out) : (send s o).old = s.old := rfl
@[simp] theorem send_held (s : State) (o : Out) : (send s o).held = s.held := rfl
@[simp] theorem send_latch (s : State) (o : Out) : (send s o).latch = s.latch := rfl
@[simp] theorem send_loaded (s : State) (o : Out) : (send s o).loaded = s.loaded := rfl
@[simp] theorem send_ram (s : State) (o : Out) : (send s o).ram = s.ram := rfl
@[simp] theorem send_hbm (s : State) (o : Out) : (send s o).hbm = s.hbm := rfl
@[simp] theorem send_powerOns (s : State) (o : Out) : (send s o).powerOns = s.powerOns := rfl
@[simp] theorem send_sram (s : State) (o : Out) : (send s o).sram = s.sram := rfl
@[simp] theorem send_ducBase (s : State) (o : Out) : (send s o).ducBase = s.ducBase := rfl
@[simp] theorem send_ducAt (s : State) (o : Out) : (send s o).ducAt = s.ducAt := rfl
@[simp] theorem send_rcd (s : State) (o : Out) : (send s o).rcd = s.rcd := rfl
@[simp] theorem send_fw (s : State) (o : Out) : (send s o).fw = s.fw := rfl
@[simp] theorem send_gyl (s : State) (o : Out) : (send s o).gyl = s.gyl := rfl
@[simp] theorem send_hep (s : State) (o : Out) : (send s o).hep = s.hep := rfl
@[simp] theorem send_modeCtl (s : State) (o : Out) : (send s o).modeCtl = s.modeCtl := rfl
@[simp] theorem send_trl (s : State) (o : Out) : (send s o).trl = s.trl := rfl
@[simp] theorem send_ser (s : State) (o : Out) : (send s o).ser = s.ser := rfl
@[simp] theorem send_div (s : State) (o : Out) : (send s o).div = s.div := rfl
@[simp] theorem send_corr (s : State) (o : Out) : (send s o).corr = s.corr := rfl
@[simp] theorem send_homeLv (s : State) (o : Out) : (send s o).homeLv = s.homeLv := rfl
@[simp] theorem send_dom (s : State) (o : Out) : (send s o).dom = s.dom := rfl
@[simp] theorem send_path (s : State) (o : Out) : (send s o).path = s.path := rfl
@[simp] theorem send_txq (s : State) (o : Out) : (send s o).txq = s.txq := rfl
@[simp] theorem send_tpg (s : State) (o : Out) : (send s o).tpg = s.tpg := rfl
@[simp] theorem send_stk (s : State) (o : Out) : (send s o).stk = s.stk := rfl
@[simp] theorem send_due (s : State) (o : Out) : (send s o).due = s.due := rfl
@[simp] theorem send_pins (s : State) (o : Out) : (send s o).pins = s.pins := rfl
@[simp] theorem send_cxp (s : State) (o : Out) : (send s o).cxp = s.cxp := rfl
@[simp] theorem send_mlk (s : State) (o : Out) : (send s o).mlk = s.mlk := rfl
@[simp] theorem send_str (s : State) (o : Out) : (send s o).str = s.str := rfl
@[simp] theorem send_frm (s : State) (o : Out) : (send s o).frm = s.frm := rfl
@[simp] theorem send_lane (s : State) (o : Out) : (send s o).lane = s.lane := rfl
@[simp] theorem send_pxe (s : State) (o : Out) : (send s o).pxe = s.pxe := rfl
@[simp] theorem send_dlv (s : State) (o : Out) : (send s o).dlv = s.dlv := rfl
@[simp] theorem send_derate (s : State) (o : Out) : (send s o).derate = s.derate := rfl
@[simp] theorem send_posMark (s : State) (o : Out) : (send s o).posMark = s.posMark := rfl
@[simp] theorem send_tth (s : State) (o : Out) : (send s o).tth = s.tth := rfl
@[simp] theorem send_lan (s : State) (o : Out) : (send s o).lan = s.lan := rfl
@[simp] theorem send_chg (s : State) (o : Out) : (send s o).chg = s.chg := rfl
@[simp] theorem send_pwr (s : State) (o : Out) : (send s o).pwr = s.pwr := rfl
@[simp] theorem send_mp (s : State) (o : Out) : (send s o).mp = s.mp := rfl
@[simp] theorem send_dma (s : State) (o : Out) : (send s o).dma = s.dma := rfl

@[simp] theorem setReg_regs (s : State) (a : Nat) (v : DWord) : (setReg s a v).regs = mput (regReset a) s.regs a v := rfl
@[simp] theorem later_todo (s : State) (t : Todo) : (later s t).todo = s.todo ++ [t] := rfl
@[simp] theorem send_out (s : State) (o : Out) : (send s o).out = s.out ++ [o] := rfl

end Sys2Proof.Machine
end

