-- ==== Sys2Proof/Laws/Gates.lean ====
section
/-! SUPPORT. The gates of the commands and the end of a command, once for all of them. -/

namespace Sys2Proof.Machine

/-- A command that leaves no work for another block ends as it stands. -/
theorem finish_idle {s : State} (h : s.todo = []) : finish s = s := by
  unfold finish settle
  rw [h]

/-- An empty worklist is carried out at once. -/
theorem settle_idle {n : Nat} {s : State} (h : s.todo = []) : settle n s = s := by
  cases n with
  | zero => rfl
  | succ n => unfold settle; rw [h]

/-- A worklist with one entry that leaves nothing more ends with it. -/
theorem finish_one {s : State} {t : Todo} (h : s.todo = [t]) (ht : ∀ c n, t ≠ .gyl c n) (hd : (todoStep t { s with todo := [] }).todo = []) :
    finish s = todoStep t { s with todo := [] } := by
  show settle (4095 + 1) s = _
  unfold settle
  rw [h]
  cases t <;> first | exact absurd rfl (ht _ _) | exact (settle_idle hd)

/-- The host's command, while the host reaches the device. -/
theorem onHost_open {f : State → State} {s : State} (h : hostOpen s = true) : onHost f s = finish (f s) := by
  unfold onHost; rw [if_pos h]

/-- The host's command does nothing else. -/
theorem onHost_shut {f : State → State} {s : State} (h : hostOpen s = false) : onHost f s = s := by
  unfold onHost; rw [h]; rfl

/-- The main domain's command, while it runs. -/
theorem onMain_runs {f : State → State} {s : State} (h : mainRuns s = true) : onMain f s = finish (f s) := by
  unfold onMain; rw [if_pos h]

/-- The main domain's command does nothing in reset. -/
theorem onMain_reset {f : State → State} {s : State} (h : mainRuns s = false) : onMain f s = s := by
  unfold onMain; rw [h]; rfl

/-- The AON domain's command, while VDD_AON is there. -/
theorem onAon_on {f : State → State} {s : State} (h : s.pwr.aon = true) : onAon f s = finish (f s) := by
  unfold onAon; rw [if_pos h]

/-- An encoder port's command, while the main domain runs. -/
theorem atPort_runs {f g : State → State} {s : State} (h : mainRuns s = true) : atPort f g s = finish (f s) := by
  unfold atPort; rw [if_pos h]

/-- Where the host reaches the device, the main domain runs. -/
theorem mainRuns_of_hostOpen {s : State} (h : hostOpen s = true) : mainRuns s = true := (Bool.and_eq_true _ _ ▸ h).1

end Sys2Proof.Machine
end

