-- ==== Sys2Proof/Laws/Keeps.lean ====
section
/-! SUPPORT. What every operation of the model keeps (`Keeps s t`: from `s` to `t`): the waiting commands and the time as they were, the log of sent messages and the first area of
MRAM only longer, that area within its 2 048 slots (R509), and the canonical forms. Then how it passes through the forms that definitions are built from. -/

namespace Sys2Proof.Machine

/-- `Sound`, of the parts of a state it speaks of. -/
def SoundParts (epoch : Nat) (hbm : List Host.Cell) (regs : List (Nat × DWord)) (held : List (Nat × Word)) (ram : List (Nat × Option Word)) : Prop :=
  (mwf (fun a => if epoch = 0 then 0 else Config.undefinedByte epoch a) hbm = true ∧ hbm.all (fun c => decide (c.1 < hbmSize)) = true) ∧ mwf regReset regs = true ∧
    mwf (fun _ => (0 : Word)) held = true ∧ mwf (fun _ => (none : Option Word)) ram = true

/-- `Keeps`, of the parts of the later state it speaks of. -/
structure KeepsParts (s : State) (epoch : Nat) (pending : List Instr) (now : Nat) (out : List Out) (first : List Rec)
    (hbm : List Host.Cell) (regs : List (Nat × DWord)) (held : List (Nat × Word)) (ram : List (Nat × Option Word)) : Prop where
  pendingEq : pending = s.pending
  nowEq : now = s.now
  outMore : s.out <+: out
  firstMore : s.rcd.first <+: first
  full : s.rcd.first.length ≤ 2048 → first.length ≤ 2048
  soundKept : SoundParts s.epoch s.hbm s.regs s.held s.ram → SoundParts epoch hbm regs held ram

/-- What every operation keeps. -/
def Keeps (s t : State) : Prop := KeepsParts s t.epoch t.pending t.now t.out t.rcd.first t.hbm t.regs t.held t.ram

theorem keeps_refl (s : State) : Keeps s s := ⟨rfl, rfl, List.prefix_refl _, List.prefix_refl _, id, id⟩

/-- A sound state has sound parts, and parts that are sound make a sound state. -/
theorem soundParts_iff (s : State) : SoundParts s.epoch s.hbm s.regs s.held s.ram ↔ Sound s := by
  have e : (hbmWf s = true) = (mwf (hbmBlank s) s.hbm = true ∧ s.hbm.all (fun c => decide (c.1 < hbmSize)) = true) := by
    unfold hbmWf; rw [Bool.and_eq_true]
  unfold SoundParts Sound
  rw [e]; rfl

/-- What every operation keeps includes soundness. -/
theorem keeps_sound {s t : State} (h : Keeps s t) (hs : Sound s) : Sound t :=
  (soundParts_iff t).mp (h.soundKept ((soundParts_iff s).mpr hs))

theorem keeps_cut {s0 t : State} (v : State) (h : Keeps s0 v) (k : Keeps s0 v → Keeps s0 t) : Keeps s0 t := k h
theorem keeps_cut1 {α : Type} {s0 t : State} (v : State × α) (h : Keeps s0 v.1) (k : Keeps s0 v.1 → Keeps s0 t) : Keeps s0 t := k h
theorem keeps_cut2 {α : Type} {s0 t : State} (v : α × State) (h : Keeps s0 v.2) (k : Keeps s0 v.2 → Keeps s0 t) : Keeps s0 t := k h
theorem keeps_cutF {s0 t : State} (v : State → State) (h : ∀ u, Keeps s0 u → Keeps s0 (v u)) (k : (∀ u, Keeps s0 u → Keeps s0 (v u)) → Keeps s0 t) : Keeps s0 t := k h
theorem keeps_cutG {α : Type} {s0 t : State} (v : α → State → State) (h : ∀ a u, Keeps s0 u → Keeps s0 (v a u)) (k : (∀ a u, Keeps s0 u → Keeps s0 (v a u)) → Keeps s0 t) : Keeps s0 t := k h
theorem keeps_cutG' {α : Type} {s0 t : State} (v : State → α → State) (h : ∀ u a, Keeps s0 u → Keeps s0 (v u a)) (k : (∀ u a, Keeps s0 u → Keeps s0 (v u a)) → Keeps s0 t) : Keeps s0 t := k h
theorem keeps_cutH {α β : Type} {s0 t : State} (v : State → α → β → State) (h : ∀ u a b, Keeps s0 u → Keeps s0 (v u a b)) (k : (∀ u a b, Keeps s0 u → Keeps s0 (v u a b)) → Keeps s0 t) : Keeps s0 t := k h
theorem keeps_cutU {α : Type} {s0 t : State} (v : α → State) (h : ∀ a, Keeps s0 (v a)) (k : (∀ a, Keeps s0 (v a)) → Keeps s0 t) : Keeps s0 t := k h

theorem keeps_mk {s0 s : State} {rcd : Recorder} (hr : rcd.first = s.rcd.first) {x_free : Nat} {x_todo : List Todo} {x_shadow : List (Nat × DWord)} {x_old : List (Nat × DWord)} {x_latch : List (Nat × Option Word)} {x_loaded : List (Nat × Option DWord)} {x_powerOns : Nat} {x_sram : List (Nat × Option (BitVec 128))} {x_ducBase : Nat} {x_ducAt : Nat} {x_fw : List (Nat × Window)} {x_gyl : Guyline} {x_hep : Endpoint} {x_modeCtl : ModeCtl} {x_trl : List (Nat × Trail)} {x_ser : List (Nat × SerialPort)} {x_div : List (Nat × DividerS)} {x_corr : List (Nat × CorrS)} {x_homeLv : List (Nat × Bool)} {x_dom : List (Nat × DomainS)} {x_path : List (Nat × PathS)} {x_txq : List (Nat × List TxStamp)} {x_tpg : List (Nat × TpgS)} {x_stk : List (Nat × StakeS)} {x_due : List DueWork} {x_pins : List (Nat × PinS)} {x_cxp : List (Nat × Option CxpTrig)} {x_mlk : List (Nat × MlkUnit)} {x_str : List (Nat × StreamS)} {x_frm : List (Nat × FrmS)} {x_lane : List (Nat × LaneS)} {x_pxe : List (Nat × PxeS)} {x_dlv : Delivery} {x_derate : List (Nat × Nat)} {x_posMark : List (Nat × Nat)} {x_tth : Tether} {x_lan : Lantern} {x_chg : Changeover} {x_pwr : Power} {x_mp : MpS} {x_dma : List (Nat × DmaS)} :
    (Keeps s0 (State.mk s.now x_free s.epoch s.pending x_todo s.out s.regs x_shadow x_old s.held x_latch x_loaded s.ram s.hbm x_powerOns x_sram x_ducBase x_ducAt rcd x_fw x_gyl x_hep x_modeCtl x_trl x_ser x_div x_corr x_homeLv x_dom x_path x_txq x_tpg x_stk x_due x_pins x_cxp x_mlk x_str x_frm x_lane x_pxe x_dlv x_derate x_posMark x_tth x_lan x_chg x_pwr x_mp x_dma) ↔ Keeps s0 s) := by
  unfold Keeps
  simp only [hr]

theorem keeps_rec {s0 t : State} (_ : Recorder) (h : Keeps s0 t) : Keeps s0 t := h

theorem each_keeps {α : Type} {l : List α} {f : State → α → State} {s0 s : State} (hf : ∀ u a, Keeps s0 u → Keeps s0 (f u a)) (h : Keeps s0 s) : Keeps s0 (each l f s) := by
  unfold each
  induction l generalizing s with
  | nil => exact h
  | cons a l ih => exact ih (hf s a h)

theorem foldl_keeps {α : Type} {l : List α} {f : State → α → State} {s0 s : State} (hf : ∀ u a, Keeps s0 u → Keeps s0 (f u a)) (h : Keeps s0 s) : Keeps s0 (l.foldl f s) :=
  each_keeps hf h

theorem onlyIf_keeps {b : Bool} {f : State → State} {s0 s : State} (hf : ∀ u, Keeps s0 u → Keeps s0 (f u)) (h : Keeps s0 s) : Keeps s0 (onlyIf b f s) := by
  unfold onlyIf; split
  · exact hf s h
  · exact h

theorem keeps_trans {a b c : State} (h : Keeps a b) (k : Keeps b c) : Keeps a c :=
  ⟨k.pendingEq.trans h.pendingEq, k.nowEq.trans h.nowEq, h.outMore.trans k.outMore, h.firstMore.trans k.firstMore, fun x => k.full (h.full x), fun x => k.soundKept (h.soundKept x)⟩

theorem setReg_keeps {a : Nat} {v : DWord} {s0 s : State} (h : Keeps s0 s) : Keeps s0 (setReg s a v) :=
  { h with soundKept := fun x => have y := h.soundKept x; ⟨y.1, mput_wf regReset s.regs a v y.2.1, y.2.2⟩ }

theorem keeps_of {s0 s t : State} (h : Keeps s0 s)
    (e : t.epoch = s.epoch ∧ t.pending = s.pending ∧ t.now = s.now ∧ t.out = s.out ∧ t.rcd.first = s.rcd.first ∧ t.hbm = s.hbm ∧ t.regs = s.regs ∧ t.held = s.held ∧ t.ram = s.ram) :
    Keeps s0 t := by
  obtain ⟨e1, e2, e3, e4, e5, e6, e7, e8, e9⟩ := e
  unfold Keeps
  rw [e1, e2, e3, e4, e5, e6, e7, e8, e9]
  exact h

theorem ramSet_keeps {a : Nat} {v : Word} {s0 s : State} (h : Keeps s0 s) : Keeps s0 (ramSet s a v) :=
  { h with soundKept := fun x => have y := h.soundKept x; ⟨y.1, y.2.1, y.2.2.1, mput_wf (fun _ => none) s.ram a (some v) y.2.2.2⟩ }

theorem send_keeps {o : Out} {s0 s : State} (h : Keeps s0 s) : Keeps s0 (send s o) :=
  { h with outMore := h.outMore.trans (List.prefix_append _ _) }

theorem hbmSet_keeps {a : Nat} {b : Byte} {s0 s : State} (h : Keeps s0 s) : Keeps s0 (hbmSet s a b) := by
  unfold hbmSet; split
  · rename_i e
    exact { h with soundKept := fun x => have y := h.soundKept x
                                         ⟨⟨mput_wf (fun a => if s.epoch = 0 then 0 else Config.undefinedByte s.epoch a) s.hbm a b y.1.1,
                                           mput_all (fun n => decide (n < hbmSize)) _ s.hbm a b y.1.2 (by simpa using e)⟩, y.2⟩ }
  · exact h

theorem heldSet_keeps {a : Nat} {v : Word} {s0 s : State} (h : Keeps s0 s) : Keeps s0 { s with held := mput 0 s.held a v } :=
  { h with soundKept := fun x => have y := h.soundKept x; ⟨y.1, y.2.1, mput_wf (fun _ => 0) s.held a v y.2.2.1, y.2.2.2⟩ }

end Sys2Proof.Machine
end

