-- ==== Sys2Proof/Laws/KeepsCore.lean ====
section
/-! SUPPORT. What every operation keeps (`Keeps`), one lemma per operation: registers, records and interrupts. -/

set_option linter.all false

namespace Sys2Proof.Machine

theorem wr_keeps {f : FRef} {v : Nat} {s0 s : State} (hk : Keeps s0 s) : Keeps s0 (wr s f v) := by
  unfold wr
  repeat' first
    | with_reducible assumption
    | with_reducible apply setReg_keeps

theorem wrB_keeps {f : FRef} {b : Bool} {s0 s : State} (hk : Keeps s0 s) : Keeps s0 (wrB s f b) := by
  unfold wrB
  repeat' first
    | with_reducible assumption
    | with_reducible apply wr_keeps

theorem wrI_keeps {f : FRef} {i : Int} {s0 s : State} (hk : Keeps s0 s) : Keeps s0 (wrI s f i) := by
  unfold wrI
  repeat' first
    | with_reducible assumption
    | with_reducible apply wr_keeps

theorem addSat_keeps {f : FRef} {n : Nat} {s0 s : State} (hk : Keeps s0 s) : Keeps s0 (addSat s f n) := by
  unfold addSat
  repeat' first
    | with_reducible assumption
    | with_reducible apply wr_keeps

theorem addWrap_keeps {f : FRef} {n : Nat} {s0 s : State} (hk : Keeps s0 s) : Keeps s0 (addWrap s f n) := by
  unfold addWrap
  repeat' first
    | with_reducible assumption
    | with_reducible apply wr_keeps

theorem setShadow_keeps {a : Nat} {v : DWord} {s0 s : State} (hk : Keeps s0 s) : Keeps s0 (setShadow s a v) := by
  unfold setShadow
  repeat' first
    | with_reducible assumption
    | simp only [↓keeps_mk]

theorem later_keeps {t : Todo} {s0 s : State} (hk : Keeps s0 s) : Keeps s0 (later s t) := by
  unfold later
  repeat' first
    | with_reducible assumption
    | simp only [↓keeps_mk]

theorem laterOnce_keeps {t : Todo} {s0 s : State} (hk : Keeps s0 s) : Keeps s0 (laterOnce s t) := by
  unfold laterOnce
  repeat' first
    | with_reducible assumption
    | with_reducible apply later_keeps
    | split

theorem freeNext_keeps  {s0 s : State} (hk : Keeps s0 s) : Keeps s0 (freeNext s) := by
  unfold freeNext
  repeat' first
    | with_reducible assumption
    | simp only [↓keeps_mk]

theorem hbmWrite_keeps {a : Nat} {l : List Byte} {s0 s : State} (hk : Keeps s0 s) : Keeps s0 (hbmWrite s a l) := by
  induction l generalizing a s with
  | nil => exact hk
  | cons b bs ih => exact ih (hbmSet_keeps hk)

theorem ramStore_keeps {a : Nat} {l : List Byte} {s0 s : State} (hk : Keeps s0 s) : Keeps s0 (ramStore s a l) := by
  unfold ramStore
  repeat' first
    | with_reducible assumption
    | (intro)
    | with_reducible apply each_keeps
    | with_reducible apply ramSet_keeps

theorem dropRec_keeps {n : Nat} {s0 s : State} (hk : Keeps s0 s) : Keeps s0 (dropRec s n) := by
  unfold dropRec
  repeat' first
    | with_reducible assumption
    | (extract_lets +onlyGivenNames lx; first | (refine keeps_cut lx ?_ (fun _ => ?_); rotate_left; clear_value lx; revert lx; intro y hy; rotate_right; subst lx) | (refine keeps_rec lx ?_; subst lx) | (clear_value lx; revert lx; intro y) | subst lx)
    | with_reducible apply addSat_keeps
    | split
    | simp only [↓keeps_mk]

theorem toLatch_keeps {w : WaitRec} {s0 s : State} (hk : Keeps s0 s) : Keeps s0 (toLatch s w) := by
  unfold toLatch
  repeat' first
    | with_reducible assumption
    | with_reducible apply dropRec_keeps
    | split
    | simp only [↓keeps_mk]

theorem takeSeq_keeps  {s0 s : State} (hk : Keeps s0 s) : Keeps s0 (takeSeq s).2 := by
  unfold takeSeq
  repeat' first
    | with_reducible assumption
    | with_reducible apply addWrap_keeps

theorem lanternRec_keeps {r : Rec} {s0 s : State} (hk : Keeps s0 s) : Keeps s0 (lanternRec s r).2 := by
  unfold lanternRec
  repeat' first
    | with_reducible assumption
    | (extract_lets +onlyGivenNames lx; first | ((first | refine keeps_cut lx ?_ (fun _ => ?_) | refine keeps_cut1 lx ?_ (fun _ => ?_) | refine keeps_cut2 lx ?_ (fun _ => ?_)); rotate_left; clear_value lx; revert lx; intro y hy; rotate_right; subst lx) | (clear_value lx; revert lx; intro y) | subst lx)
    | with_reducible apply takeSeq_keeps
    | simp only [↓keeps_mk]

theorem lanternHold_keeps {r : Rec} {s0 s : State} (hk : Keeps s0 s) : Keeps s0 (lanternHold s r) := by
  unfold lanternHold
  repeat' first
    | with_reducible assumption
    | (extract_lets +onlyGivenNames lx; first | ((first | refine keeps_cut lx ?_ (fun _ => ?_) | refine keeps_cut1 lx ?_ (fun _ => ?_) | refine keeps_cut2 lx ?_ (fun _ => ?_)); rotate_left; clear_value lx; revert lx; intro y hy; rotate_right; subst lx) | (clear_value lx; revert lx; intro y) | subst lx)
    | with_reducible apply lanternRec_keeps
    | with_reducible apply addSat_keeps
    | split
    | simp only [↓keeps_mk]

theorem offerRec_keeps {port : Nat} {r : Rec} {s0 s : State} (hk : Keeps s0 s) : Keeps s0 (offerRec s port r) := by
  unfold offerRec
  repeat' first
    | with_reducible assumption
    | (intro)
    | with_reducible apply lanternHold_keeps
    | with_reducible apply toLatch_keeps
    | split
    | simp only [↓keeps_mk]

theorem offerInOrder_keeps {port : Nat} {a b : Rec} {s0 s : State} (hk : Keeps s0 s) : Keeps s0 (offerInOrder s port a b) := by
  unfold offerInOrder
  repeat' first
    | with_reducible assumption
    | (intro)
    | (extract_lets +onlyGivenNames lx; first | ((first | refine keeps_cut lx ?_ (fun _ => ?_) | refine keeps_cut1 lx ?_ (fun _ => ?_) | refine keeps_cut2 lx ?_ (fun _ => ?_)); rotate_left; clear_value lx; revert lx; intro y hy; rotate_right; subst lx) | (refine keeps_cutF lx ?_ (fun _ => ?_); rotate_left; clear_value lx; revert lx; intro y hF; rotate_right; subst lx) | (refine keeps_cutG lx ?_ (fun _ => ?_); rotate_left; clear_value lx; revert lx; intro y hG; rotate_right; subst lx) | (refine keeps_cutG' lx ?_ (fun _ => ?_); rotate_left; clear_value lx; revert lx; intro y hG'; rotate_right; subst lx) | (refine keeps_cutH lx ?_ (fun _ => ?_); rotate_left; clear_value lx; revert lx; intro y hH; rotate_right; subst lx) | (refine keeps_cutU lx ?_ (fun _ => ?_); rotate_left; clear_value lx; revert lx; intro y hU; rotate_right; subst lx) | (refine keeps_rec lx ?_; subst lx) | (clear_value lx; revert lx; intro y) | subst lx)
    | with_reducible apply lanternHold_keeps
    | with_reducible apply offerRec_keeps
    | with_reducible apply toLatch_keeps
    | with_reducible apply hF
    | with_reducible apply hG
    | with_reducible apply hG'
    | with_reducible apply hH
    | with_reducible apply hU
    | split

theorem record_keeps {port source sev code : Nat} {payload : List Byte} {s0 s : State} (hk : Keeps s0 s) : Keeps s0 (record s port source sev code payload) := by
  unfold record
  repeat' first
    | with_reducible assumption
    | with_reducible apply offerRec_keeps

theorem cfgSet_keeps {o v : Nat} {s0 s : State} (hk : Keeps s0 s) : Keeps s0 (cfgSet s o v) := by
  unfold cfgSet
  repeat' first
    | with_reducible assumption
    | simp only [↓keeps_mk]

theorem cfgOr_keeps {o m : Nat} {s0 s : State} (hk : Keeps s0 s) : Keeps s0 (cfgOr s o m) := by
  unfold cfgOr
  repeat' first
    | with_reducible assumption
    | with_reducible apply cfgSet_keeps

theorem msixSet_keeps {v i x : Nat} {s0 s : State} (hk : Keeps s0 s) : Keeps s0 (msixSet s v i x) := by
  unfold msixSet
  repeat' first
    | with_reducible assumption
    | (extract_lets +onlyGivenNames lx; first | (refine keeps_cut lx ?_ (fun _ => ?_); rotate_left; clear_value lx; revert lx; intro y hy; rotate_right; subst lx) | (clear_value lx; revert lx; intro y) | subst lx)
    | split
    | simp only [↓keeps_mk]

theorem sendMessage_keeps {v : Nat} {s0 s : State} (hk : Keeps s0 s) : Keeps s0 (sendMessage s v) := by
  unfold sendMessage
  repeat' first
    | with_reducible assumption
    | (extract_lets +onlyGivenNames lx; first | (refine keeps_cut lx ?_ (fun _ => ?_); rotate_left; clear_value lx; revert lx; intro y hy; rotate_right; subst lx) | (clear_value lx; revert lx; intro y) | subst lx)
    | with_reducible apply send_keeps
    | split

theorem requestVector_keeps {v0 : Nat} {s0 s : State} (hk : Keeps s0 s) : Keeps s0 (requestVector s v0) := by
  unfold requestVector
  repeat' first
    | with_reducible assumption
    | (extract_lets +onlyGivenNames lx; first | (refine keeps_cut lx ?_ (fun _ => ?_); rotate_left; clear_value lx; revert lx; intro y hy; rotate_right; subst lx) | (clear_value lx; revert lx; intro y) | subst lx)
    | with_reducible apply sendMessage_keeps
    | split
    | simp only [↓keeps_mk]

theorem flushPending_keeps  {s0 s : State} (hk : Keeps s0 s) : Keeps s0 (flushPending s) := by
  unfold flushPending
  repeat' first
    | with_reducible assumption
    | (intro)
    | with_reducible apply each_keeps
    | with_reducible apply sendMessage_keeps
    | split
    | simp only [↓keeps_mk]

theorem updateInta_keeps  {s0 s : State} (hk : Keeps s0 s) : Keeps s0 (updateInta s) := by
  unfold updateInta
  repeat' first
    | with_reducible assumption
    | (extract_lets +onlyGivenNames lx; first | (refine keeps_cut lx ?_ (fun _ => ?_); rotate_left; clear_value lx; revert lx; intro y hy; rotate_right; subst lx) | (clear_value lx; revert lx; intro y) | subst lx)
    | with_reducible apply send_keeps
    | split
    | simp only [↓keeps_mk]

theorem requestSrc_keeps {src : Nat} {s0 s : State} (hk : Keeps s0 s) : Keeps s0 (requestSrc s src) := by
  unfold requestSrc
  repeat' first
    | with_reducible assumption
    | with_reducible apply updateInta_keeps
    | with_reducible apply requestVector_keeps
    | split

theorem raise_keeps {src : Nat} {s0 s : State} (hk : Keeps s0 s) : Keeps s0 (raise s src) := by
  unfold raise
  repeat' first
    | with_reducible assumption
    | (extract_lets +onlyGivenNames lx; first | (refine keeps_cut lx ?_ (fun _ => ?_); rotate_left; clear_value lx; revert lx; intro y hy; rotate_right; subst lx) | (clear_value lx; revert lx; intro y) | subst lx)
    | with_reducible apply wr_keeps
    | with_reducible apply requestSrc_keeps
    | split

theorem intStatusWrite_keeps {g v : Nat} {s0 s : State} (hk : Keeps s0 s) : Keeps s0 (intStatusWrite s g v) := by
  unfold intStatusWrite
  repeat' first
    | with_reducible assumption
    | (extract_lets +onlyGivenNames lx; first | (refine keeps_cut lx ?_ (fun _ => ?_); rotate_left; clear_value lx; revert lx; intro y hy; rotate_right; subst lx) | (clear_value lx; revert lx; intro y) | subst lx)
    | with_reducible apply updateInta_keeps
    | with_reducible apply wr_keeps

theorem intEnableWrite_keeps {g v : Nat} {s0 s : State} (hk : Keeps s0 s) : Keeps s0 (intEnableWrite s g v) := by
  unfold intEnableWrite
  repeat' first
    | with_reducible assumption
    | (intro)
    | (extract_lets +onlyGivenNames lx; first | (refine keeps_cut lx ?_ (fun _ => ?_); rotate_left; clear_value lx; revert lx; intro y hy; rotate_right; subst lx) | (refine keeps_cutF lx ?_ (fun _ => ?_); rotate_left; clear_value lx; revert lx; intro y hF; rotate_right; subst lx) | (refine keeps_cutG lx ?_ (fun _ => ?_); rotate_left; clear_value lx; revert lx; intro y hG; rotate_right; subst lx) | (refine keeps_cutG' lx ?_ (fun _ => ?_); rotate_left; clear_value lx; revert lx; intro y hG'; rotate_right; subst lx) | (refine keeps_cutH lx ?_ (fun _ => ?_); rotate_left; clear_value lx; revert lx; intro y hH; rotate_right; subst lx) | (refine keeps_cutU lx ?_ (fun _ => ?_); rotate_left; clear_value lx; revert lx; intro y hU; rotate_right; subst lx) | (clear_value lx; revert lx; intro y) | subst lx)
    | with_reducible apply wr_keeps
    | with_reducible apply each_keeps
    | with_reducible apply requestSrc_keeps
    | with_reducible apply updateInta_keeps
    | with_reducible apply hF
    | with_reducible apply hG
    | with_reducible apply hG'
    | with_reducible apply hH
    | with_reducible apply hU

theorem intTest_keeps {src : Nat} {go : Bool} {s0 s : State} (hk : Keeps s0 s) : Keeps s0 (intTest s src go) := by
  unfold intTest
  repeat' first
    | with_reducible assumption
    | with_reducible apply raise_keeps
    | split

theorem setWindow_keeps {w : Nat} {x : Window} {s0 s : State} (hk : Keeps s0 s) : Keeps s0 (setWindow s w x) := by
  unfold setWindow
  repeat' first
    | with_reducible assumption
    | with_reducible apply wr_keeps
    | simp only [↓keeps_mk]

theorem windowRecord_keeps {w n : Nat} {s0 s : State} (hk : Keeps s0 s) : Keeps s0 (windowRecord s w n) := by
  unfold windowRecord
  repeat' first
    | with_reducible assumption
    | with_reducible apply offerRec_keeps
    | split

theorem windowAct_keeps {w : Nat} {s0 s : State} (hk : Keeps s0 s) : Keeps s0 (windowAct s w) := by
  unfold windowAct
  repeat' first
    | with_reducible assumption
    | (intro)
    | (extract_lets +onlyGivenNames lx; first | (refine keeps_cut lx ?_ (fun _ => ?_); rotate_left; clear_value lx; revert lx; intro y hy; rotate_right; subst lx) | (refine keeps_cutF lx ?_ (fun _ => ?_); rotate_left; clear_value lx; revert lx; intro y hF; rotate_right; subst lx) | (refine keeps_cutG lx ?_ (fun _ => ?_); rotate_left; clear_value lx; revert lx; intro y hG; rotate_right; subst lx) | (refine keeps_cutG' lx ?_ (fun _ => ?_); rotate_left; clear_value lx; revert lx; intro y hG'; rotate_right; subst lx) | (refine keeps_cutH lx ?_ (fun _ => ?_); rotate_left; clear_value lx; revert lx; intro y hH; rotate_right; subst lx) | (refine keeps_cutU lx ?_ (fun _ => ?_); rotate_left; clear_value lx; revert lx; intro y hU; rotate_right; subst lx) | (clear_value lx; revert lx; intro y) | subst lx)
    | with_reducible apply onlyIf_keeps
    | with_reducible apply raise_keeps
    | with_reducible apply later_keeps
    | with_reducible apply disableUnit_keeps
    | with_reducible apply hF
    | with_reducible apply hG
    | with_reducible apply hG'
    | with_reducible apply hH
    | with_reducible apply hU
    | split
    | simp only [↓keeps_mk]

theorem windowEscalate_keeps {w count n : Nat} {s0 s : State} (hk : Keeps s0 s) : Keeps s0 (windowEscalate s w count n) := by
  unfold windowEscalate
  repeat' first
    | with_reducible assumption
    | (extract_lets +onlyGivenNames lx; first | (refine keeps_cut lx ?_ (fun _ => ?_); rotate_left; clear_value lx; revert lx; intro y hy; rotate_right; subst lx) | (clear_value lx; revert lx; intro y) | subst lx)
    | with_reducible apply wr_keeps
    | with_reducible apply addSat_keeps
    | with_reducible apply offerInOrder_keeps
    | with_reducible apply windowAct_keeps
    | split
    | simp only [↓keeps_mk]

theorem windowInc_keeps {w n : Nat} {s0 s : State} (hk : Keeps s0 s) : Keeps s0 (windowInc s w n) := by
  unfold windowInc
  repeat' first
    | with_reducible assumption
    | (extract_lets +onlyGivenNames lx; first | (refine keeps_cut lx ?_ (fun _ => ?_); rotate_left; clear_value lx; revert lx; intro y hy; rotate_right; subst lx) | (clear_value lx; revert lx; intro y) | subst lx)
    | with_reducible apply addSat_keeps
    | with_reducible apply setWindow_keeps
    | with_reducible apply windowRecord_keeps
    | with_reducible apply wr_keeps
    | with_reducible apply windowEscalate_keeps
    | split

theorem windowClear_keeps {w : Nat} {s0 s : State} (hk : Keeps s0 s) : Keeps s0 (windowClear s w) := by
  unfold windowClear
  repeat' first
    | with_reducible assumption
    | with_reducible apply wr_keeps
    | with_reducible apply setWindow_keeps

theorem windowSubperiod_keeps {w : Nat} {s0 s : State} (hk : Keeps s0 s) : Keeps s0 (windowSubperiod s w) := by
  unfold windowSubperiod
  repeat' first
    | with_reducible assumption
    | (extract_lets +onlyGivenNames lx; first | (refine keeps_cut lx ?_ (fun _ => ?_); rotate_left; clear_value lx; revert lx; intro y hy; rotate_right; subst lx) | (clear_value lx; revert lx; intro y) | subst lx)
    | with_reducible apply setWindow_keeps
    | with_reducible apply wr_keeps
    | split

theorem windowCfgWrite_keeps {w v : Nat} {s0 s : State} (hk : Keeps s0 s) : Keeps s0 (windowCfgWrite s w v) := by
  unfold windowCfgWrite
  repeat' first
    | with_reducible assumption
    | (extract_lets +onlyGivenNames lx; first | (refine keeps_cut lx ?_ (fun _ => ?_); rotate_left; clear_value lx; revert lx; intro y hy; rotate_right; subst lx) | (clear_value lx; revert lx; intro y) | subst lx)
    | with_reducible apply wr_keeps
    | with_reducible apply windowClear_keeps
    | split

theorem windowKWrite_keeps {w v : Nat} {s0 s : State} (hk : Keeps s0 s) : Keeps s0 (windowKWrite s w v) := by
  unfold windowKWrite
  repeat' first
    | with_reducible assumption
    | with_reducible apply windowClear_keeps
    | with_reducible apply wr_keeps

theorem eccCorrected_keeps {array camp : Nat} {s0 s : State} (hk : Keeps s0 s) : Keeps s0 (eccCorrected s array camp) := by
  unfold eccCorrected
  repeat' first
    | with_reducible assumption
    | (extract_lets +onlyGivenNames lx; first | (refine keeps_cut lx ?_ (fun _ => ?_); rotate_left; clear_value lx; revert lx; intro y hy; rotate_right; subst lx) | (clear_value lx; revert lx; intro y) | subst lx)
    | with_reducible apply windowInc_keeps
    | with_reducible apply raise_keeps
    | with_reducible apply addSat_keeps
    | split

theorem eccUncorrectable_keeps {array camp addr : Nat} {s0 s : State} (hk : Keeps s0 s) : Keeps s0 (eccUncorrectable s array camp addr) := by
  unfold eccUncorrectable
  repeat' first
    | with_reducible assumption
    | (intro)
    | (extract_lets +onlyGivenNames lx; first | (refine keeps_cut lx ?_ (fun _ => ?_); rotate_left; clear_value lx; revert lx; intro y hy; rotate_right; subst lx) | (refine keeps_cutF lx ?_ (fun _ => ?_); rotate_left; clear_value lx; revert lx; intro y hF; rotate_right; subst lx) | (refine keeps_cutG lx ?_ (fun _ => ?_); rotate_left; clear_value lx; revert lx; intro y hG; rotate_right; subst lx) | (refine keeps_cutG' lx ?_ (fun _ => ?_); rotate_left; clear_value lx; revert lx; intro y hG'; rotate_right; subst lx) | (refine keeps_cutH lx ?_ (fun _ => ?_); rotate_left; clear_value lx; revert lx; intro y hH; rotate_right; subst lx) | (refine keeps_cutU lx ?_ (fun _ => ?_); rotate_left; clear_value lx; revert lx; intro y hU; rotate_right; subst lx) | (clear_value lx; revert lx; intro y) | subst lx)
    | with_reducible apply raise_keeps
    | with_reducible apply addSat_keeps
    | with_reducible apply onlyIf_keeps
    | with_reducible apply wr_keeps
    | with_reducible apply record_keeps
    | with_reducible apply hF
    | with_reducible apply hG
    | with_reducible apply hG'
    | with_reducible apply hH
    | with_reducible apply hU
    | split

end Sys2Proof.Machine
end

