-- ==== Sys2Proof/Laws/KeepsTime.lean ====
section
/-! SUPPORT. What every operation keeps (`Keeps`), one lemma per operation: trails, time domains and stakes. -/

set_option linter.all false

namespace Sys2Proof.Machine

theorem setTrl_keeps {t : Nat} {x : Trail} {s0 s : State} (hk : Keeps s0 s) : Keeps s0 (setTrl s t x) := by
  unfold setTrl
  repeat' first
    | with_reducible assumption
    | simp only [↓keeps_mk]

theorem trlSync_keeps {t : Nat} {s0 s : State} (hk : Keeps s0 s) : Keeps s0 (trlSync s t) := by
  unfold trlSync
  repeat' first
    | with_reducible assumption
    | (intro)
    | (extract_lets +onlyGivenNames lx; first | (refine keeps_cut lx ?_ (fun _ => ?_); rotate_left; clear_value lx; revert lx; intro y hy; rotate_right; subst lx) | (clear_value lx; revert lx; intro y) | subst lx)
    | with_reducible apply onlyIf_keeps
    | with_reducible apply wr_keeps
    | with_reducible apply setTrl_keeps
    | split
    | simp only [↓keeps_mk]

theorem virtSync_keeps  {s0 s : State} (hk : Keeps s0 s) : Keeps s0 (virtSync s) := by
  unfold virtSync
  repeat' first
    | with_reducible assumption
    | (intro)
    | with_reducible apply each_keeps
    | with_reducible apply trlSync_keeps

theorem trlOpen_keeps {t : Nat} {s0 s : State} (hk : Keeps s0 s) : Keeps s0 (trlOpen s t) := by
  unfold trlOpen
  repeat' first
    | with_reducible assumption
    | with_reducible apply virtSync_keeps
    | with_reducible apply trlSync_keeps

theorem trlMoved_keeps {t : Nat} {s0 s : State} (hk : Keeps s0 s) : Keeps s0 (trlMoved s t) := by
  unfold trlMoved
  repeat' first
    | with_reducible assumption
    | with_reducible apply later_keeps
    | with_reducible apply virtSync_keeps

theorem sendCorrection_keeps {p : Nat} {c : Int} {s0 s : State} (hk : Keeps s0 s) : Keeps s0 (sendCorrection s p c) := by
  unfold sendCorrection
  repeat' first
    | with_reducible assumption
    | (extract_lets +onlyGivenNames lx; first | (refine keeps_cut lx ?_ (fun _ => ?_); rotate_left; clear_value lx; revert lx; intro y hy; rotate_right; subst lx) | (clear_value lx; revert lx; intro y) | subst lx)
    | with_reducible apply wr_keeps
    | split
    | simp only [↓keeps_mk]

theorem trlIllegal_keeps {t : Nat} {s0 s : State} (hk : Keeps s0 s) : Keeps s0 (trlIllegal s t) := by
  unfold trlIllegal
  repeat' first
    | with_reducible assumption
    | (extract_lets +onlyGivenNames lx; first | (refine keeps_cut lx ?_ (fun _ => ?_); rotate_left; clear_value lx; revert lx; intro y hy; rotate_right; subst lx) | (clear_value lx; revert lx; intro y) | subst lx)
    | with_reducible apply setTrl_keeps
    | with_reducible apply wr_keeps
    | with_reducible apply addSat_keeps
    | with_reducible apply later_keeps
    | with_reducible apply windowInc_keeps
    | simp only [↓keeps_mk]

theorem frontNote_keeps {p : Nat} {d : Int} {s0 s : State} (hk : Keeps s0 s) : Keeps s0 (frontNote s p d) := by
  unfold frontNote
  repeat' first
    | with_reducible assumption
    | (extract_lets +onlyGivenNames lx; first | (refine keeps_cut lx ?_ (fun _ => ?_); rotate_left; clear_value lx; revert lx; intro y hy; rotate_right; subst lx) | (clear_value lx; revert lx; intro y) | subst lx)
    | split
    | simp only [↓keeps_mk]

theorem encoderEdge_keeps {p : Nat} {a b : Bool} {s0 s : State} (hk : Keeps s0 s) : Keeps s0 (encoderEdge p a b s) := by
  unfold encoderEdge
  repeat' first
    | with_reducible assumption
    | (intro)
    | (extract_lets +onlyGivenNames lx; first | ((first | refine keeps_cut lx ?_ (fun _ => ?_) | refine keeps_cut1 lx ?_ (fun _ => ?_) | refine keeps_cut2 lx ?_ (fun _ => ?_)); rotate_left; clear_value lx; revert lx; intro y hy; rotate_right; subst lx) | (refine keeps_cutF lx ?_ (fun _ => ?_); rotate_left; clear_value lx; revert lx; intro y hF; rotate_right; subst lx) | (refine keeps_cutG lx ?_ (fun _ => ?_); rotate_left; clear_value lx; revert lx; intro y hG; rotate_right; subst lx) | (refine keeps_cutG' lx ?_ (fun _ => ?_); rotate_left; clear_value lx; revert lx; intro y hG'; rotate_right; subst lx) | (refine keeps_cutH lx ?_ (fun _ => ?_); rotate_left; clear_value lx; revert lx; intro y hH; rotate_right; subst lx) | (refine keeps_cutU lx ?_ (fun _ => ?_); rotate_left; clear_value lx; revert lx; intro y hU; rotate_right; subst lx) | (clear_value lx; revert lx; intro y) | subst lx)
    | with_reducible apply trlOpen_keeps
    | with_reducible apply wrB_keeps
    | with_reducible apply trlIllegal_keeps
    | with_reducible apply frontNote_keeps
    | with_reducible apply setTrl_keeps
    | with_reducible apply onlyIf_keeps
    | with_reducible apply wr_keeps
    | with_reducible apply trlMoved_keeps
    | with_reducible apply sendCorrection_keeps
    | with_reducible apply hF
    | with_reducible apply hG
    | with_reducible apply hG'
    | with_reducible apply hH
    | with_reducible apply hU
    | split
    | simp only [↓keeps_mk]

theorem serialSettle_keeps {p : Nat} {ext : Int} {s0 s : State} (hk : Keeps s0 s) : Keeps s0 (serialSettle s p ext) := by
  unfold serialSettle
  repeat' first
    | with_reducible assumption
    | (extract_lets +onlyGivenNames lx; first | (refine keeps_cut lx ?_ (fun _ => ?_); rotate_left; clear_value lx; revert lx; intro y hy; rotate_right; subst lx) | (clear_value lx; revert lx; intro y) | subst lx)
    | split
    | simp only [↓keeps_mk]

theorem lineBreakEnter_keeps {p : Nat} {pair : Nat} {s0 s : State} (hk : Keeps s0 s) : Keeps s0 (lineBreakEnter p pair s) := by
  unfold lineBreakEnter
  repeat' first
    | with_reducible assumption
    | (extract_lets +onlyGivenNames lx; first | (refine keeps_cut lx ?_ (fun _ => ?_); rotate_left; clear_value lx; revert lx; intro y hy; rotate_right; subst lx) | (clear_value lx; revert lx; intro y) | subst lx)
    | with_reducible apply wr_keeps
    | with_reducible apply setTrl_keeps
    | with_reducible apply trlOpen_keeps
    | with_reducible apply serialSettle_keeps
    | with_reducible apply later_keeps
    | with_reducible apply trlMoved_keeps
    | with_reducible apply windowInc_keeps
    | split
    | simp only [↓keeps_mk]

theorem trlStill_keeps {t : Nat} {s0 s : State} (hk : Keeps s0 s) : Keeps s0 (trlStill s t) := by
  unfold trlStill
  repeat' first
    | with_reducible assumption
    | (extract_lets +onlyGivenNames lx; first | ((first | refine keeps_cut lx ?_ (fun _ => ?_) | refine keeps_cut1 lx ?_ (fun _ => ?_) | refine keeps_cut2 lx ?_ (fun _ => ?_)); rotate_left; clear_value lx; revert lx; intro y hy; rotate_right; subst lx) | (clear_value lx; revert lx; intro y) | subst lx)
    | with_reducible apply trlOpen_keeps
    | with_reducible apply serialSettle_keeps
    | with_reducible apply trlMoved_keeps
    | with_reducible apply setTrl_keeps
    | split
    | simp only [↓keeps_mk]

theorem lineBreakClear_keeps {p : Nat} {pair : Nat} {s0 s : State} (hk : Keeps s0 s) : Keeps s0 (lineBreakClear p pair s) := by
  unfold lineBreakClear
  repeat' first
    | with_reducible assumption
    | (extract_lets +onlyGivenNames lx; first | (refine keeps_cut lx ?_ (fun _ => ?_); rotate_left; clear_value lx; revert lx; intro y hy; rotate_right; subst lx) | (clear_value lx; revert lx; intro y) | subst lx)
    | with_reducible apply setTrl_keeps
    | with_reducible apply wr_keeps
    | with_reducible apply trlStill_keeps
    | split
    | simp only [↓keeps_mk]

theorem standstill_keeps {t : Nat} {s0 s : State} (hk : Keeps s0 s) : Keeps s0 (standstill t s) := by
  unfold standstill
  repeat' first
    | with_reducible assumption
    | (extract_lets +onlyGivenNames lx; first | (refine keeps_cut lx ?_ (fun _ => ?_); rotate_left; clear_value lx; revert lx; intro y hy; rotate_right; subst lx) | (clear_value lx; revert lx; intro y) | subst lx)
    | with_reducible apply trlStill_keeps
    | split

theorem speedWindowEnd_keeps {t : Nat} {s0 s : State} (hk : Keeps s0 s) : Keeps s0 (speedWindowEnd t s) := by
  unfold speedWindowEnd
  repeat' first
    | with_reducible assumption
    | (extract_lets +onlyGivenNames lx; first | (refine keeps_cut lx ?_ (fun _ => ?_); rotate_left; clear_value lx; revert lx; intro y hy; rotate_right; subst lx) | (clear_value lx; revert lx; intro y) | subst lx)
    | with_reducible apply trlSync_keeps
    | with_reducible apply setTrl_keeps
    | split
    | simp only [↓keeps_mk]

theorem lanMarkClear_keeps {p : Nat} {s0 s : State} (hk : Keeps s0 s) : Keeps s0 (lanMarkClear s p) := by
  unfold lanMarkClear
  repeat' first
    | with_reducible assumption
    | with_reducible apply wrB_keeps

theorem presetTrail_keeps {t : Nat} {value : Int} {s0 s : State} (hk : Keeps s0 s) : Keeps s0 (presetTrail t value s) := by
  unfold presetTrail
  repeat' first
    | with_reducible assumption
    | (intro)
    | (extract_lets +onlyGivenNames lx; first | ((first | refine keeps_cut lx ?_ (fun _ => ?_) | refine keeps_cut1 lx ?_ (fun _ => ?_) | refine keeps_cut2 lx ?_ (fun _ => ?_)); rotate_left; clear_value lx; revert lx; intro y hy; rotate_right; subst lx) | (refine keeps_cutF lx ?_ (fun _ => ?_); rotate_left; clear_value lx; revert lx; intro y hF; rotate_right; subst lx) | (refine keeps_cutG lx ?_ (fun _ => ?_); rotate_left; clear_value lx; revert lx; intro y hG; rotate_right; subst lx) | (refine keeps_cutG' lx ?_ (fun _ => ?_); rotate_left; clear_value lx; revert lx; intro y hG'; rotate_right; subst lx) | (refine keeps_cutH lx ?_ (fun _ => ?_); rotate_left; clear_value lx; revert lx; intro y hH; rotate_right; subst lx) | (refine keeps_cutU lx ?_ (fun _ => ?_); rotate_left; clear_value lx; revert lx; intro y hU; rotate_right; subst lx) | (clear_value lx; revert lx; intro y) | subst lx)
    | with_reducible apply trlOpen_keeps
    | with_reducible apply wr_keeps
    | with_reducible apply onlyIf_keeps
    | with_reducible apply lanMarkClear_keeps
    | with_reducible apply wrI_keeps
    | with_reducible apply setTrl_keeps
    | with_reducible apply sendCorrection_keeps
    | with_reducible apply later_keeps
    | with_reducible apply virtSync_keeps
    | with_reducible apply hF
    | with_reducible apply hG
    | with_reducible apply hG'
    | with_reducible apply hH
    | with_reducible apply hU
    | split
    | simp only [↓keeps_mk]

theorem homeTake_keeps {i : Nat} {s0 s : State} (hk : Keeps s0 s) : Keeps s0 (homeTake i s) := by
  unfold homeTake
  repeat' first
    | with_reducible assumption
    | (extract_lets +onlyGivenNames lx; first | (refine keeps_cut lx ?_ (fun _ => ?_); rotate_left; clear_value lx; revert lx; intro y hy; rotate_right; subst lx) | (clear_value lx; revert lx; intro y) | subst lx)
    | with_reducible apply wr_keeps
    | with_reducible apply wrI_keeps
    | with_reducible apply presetTrail_keeps
    | split

theorem limitsFollow_keeps  {s0 s : State} (hk : Keeps s0 s) : Keeps s0 (limitsFollow s) := by
  unfold limitsFollow
  repeat' first
    | with_reducible assumption
    | (intro)
    | (extract_lets +onlyGivenNames lx; first | (refine keeps_cut lx ?_ (fun _ => ?_); rotate_left; clear_value lx; revert lx; intro y hy; rotate_right; subst lx) | (clear_value lx; revert lx; intro y) | subst lx)
    | with_reducible apply each_keeps
    | with_reducible apply wrB_keeps
    | with_reducible apply later_keeps
    | split

theorem homeCapture_keeps {i : Nat} {s0 s : State} (hk : Keeps s0 s) : Keeps s0 (homeCapture i s) := by
  unfold homeCapture
  repeat' first
    | with_reducible assumption
    | (extract_lets +onlyGivenNames lx; first | (refine keeps_cut lx ?_ (fun _ => ?_); rotate_left; clear_value lx; revert lx; intro y hy; rotate_right; subst lx) | (clear_value lx; revert lx; intro y) | subst lx)
    | with_reducible apply setTrl_keeps
    | with_reducible apply homeTake_keeps
    | split
    | simp only [↓keeps_mk]

theorem zIndexEdge_keeps {p : Nat} {rise : Bool} {s0 s : State} (hk : Keeps s0 s) : Keeps s0 (zIndexEdge p rise s) := by
  unfold zIndexEdge
  repeat' first
    | with_reducible assumption
    | (intro)
    | (extract_lets +onlyGivenNames lx; first | (refine keeps_cut lx ?_ (fun _ => ?_); rotate_left; clear_value lx; revert lx; intro y hy; rotate_right; subst lx) | (refine keeps_cutF lx ?_ (fun _ => ?_); rotate_left; clear_value lx; revert lx; intro y hF; rotate_right; subst lx) | (refine keeps_cutG lx ?_ (fun _ => ?_); rotate_left; clear_value lx; revert lx; intro y hG; rotate_right; subst lx) | (refine keeps_cutG' lx ?_ (fun _ => ?_); rotate_left; clear_value lx; revert lx; intro y hG'; rotate_right; subst lx) | (refine keeps_cutH lx ?_ (fun _ => ?_); rotate_left; clear_value lx; revert lx; intro y hH; rotate_right; subst lx) | (refine keeps_cutU lx ?_ (fun _ => ?_); rotate_left; clear_value lx; revert lx; intro y hU; rotate_right; subst lx) | (clear_value lx; revert lx; intro y) | subst lx)
    | with_reducible apply wrB_keeps
    | with_reducible apply trlSync_keeps
    | with_reducible apply addWrap_keeps
    | with_reducible apply wrI_keeps
    | with_reducible apply windowInc_keeps
    | with_reducible apply wr_keeps
    | with_reducible apply setTrl_keeps
    | with_reducible apply each_keeps
    | with_reducible apply onlyIf_keeps
    | with_reducible apply homeTake_keeps
    | with_reducible apply later_keeps
    | with_reducible apply hF
    | with_reducible apply hG
    | with_reducible apply hG'
    | with_reducible apply hH
    | with_reducible apply hU
    | split
    | simp only [↓keeps_mk]

theorem homeLimitChange_keeps {i : Nat} {level : Bool} {s0 s : State} (hk : Keeps s0 s) : Keeps s0 (homeLimitChange i level s) := by
  unfold homeLimitChange
  repeat' first
    | with_reducible assumption
    | with_reducible apply limitsFollow_keeps
    | simp only [↓keeps_mk]

theorem trlBar_keeps {t : Nat} {s0 s : State} (hk : Keeps s0 s) : Keeps s0 (trlBar s t) := by
  unfold trlBar
  repeat' first
    | with_reducible assumption
    | with_reducible apply setTrl_keeps
    | simp only [↓keeps_mk]

theorem serialStart_keeps {t : Nat} {s0 s : State} (hk : Keeps s0 s) : Keeps s0 (serialStart s t) := by
  unfold serialStart
  repeat' first
    | with_reducible assumption
    | (extract_lets +onlyGivenNames lx; first | (refine keeps_cut lx ?_ (fun _ => ?_); rotate_left; clear_value lx; revert lx; intro y hy; rotate_right; subst lx) | (clear_value lx; revert lx; intro y) | subst lx)
    | with_reducible apply wr_keeps
    | with_reducible apply setTrl_keeps
    | simp only [↓keeps_mk]

theorem portCfgWrite_keeps {p : Nat} {v : Nat} {s0 s : State} (hk : Keeps s0 s) : Keeps s0 (portCfgWrite p v s) := by
  unfold portCfgWrite
  repeat' first
    | with_reducible assumption
    | (intro)
    | (extract_lets +onlyGivenNames lx; first | (refine keeps_cut lx ?_ (fun _ => ?_); rotate_left; clear_value lx; revert lx; intro y hy; rotate_right; subst lx) | (refine keeps_cutF lx ?_ (fun _ => ?_); rotate_left; clear_value lx; revert lx; intro y hF; rotate_right; subst lx) | (refine keeps_cutG lx ?_ (fun _ => ?_); rotate_left; clear_value lx; revert lx; intro y hG; rotate_right; subst lx) | (refine keeps_cutG' lx ?_ (fun _ => ?_); rotate_left; clear_value lx; revert lx; intro y hG'; rotate_right; subst lx) | (refine keeps_cutH lx ?_ (fun _ => ?_); rotate_left; clear_value lx; revert lx; intro y hH; rotate_right; subst lx) | (refine keeps_cutU lx ?_ (fun _ => ?_); rotate_left; clear_value lx; revert lx; intro y hU; rotate_right; subst lx) | (clear_value lx; revert lx; intro y) | subst lx)
    | with_reducible apply trlOpen_keeps
    | with_reducible apply wr_keeps
    | with_reducible apply onlyIf_keeps
    | with_reducible apply setTrl_keeps
    | with_reducible apply trlMoved_keeps
    | with_reducible apply sendCorrection_keeps
    | with_reducible apply serialStart_keeps
    | with_reducible apply hF
    | with_reducible apply hG
    | with_reducible apply hG'
    | with_reducible apply hH
    | with_reducible apply hU
    | split
    | simp only [↓keeps_mk]

theorem untrustedClear_keeps {t : Nat} {s0 s : State} (hk : Keeps s0 s) : Keeps s0 (untrustedClear t s) := by
  unfold untrustedClear
  repeat' first
    | with_reducible assumption
    | (extract_lets +onlyGivenNames lx; first | (refine keeps_cut lx ?_ (fun _ => ?_); rotate_left; clear_value lx; revert lx; intro y hy; rotate_right; subst lx) | (clear_value lx; revert lx; intro y) | subst lx)
    | with_reducible apply wr_keeps
    | with_reducible apply lanMarkClear_keeps
    | split

theorem softLimitWritten_keeps {t : Nat} {s0 s : State} (hk : Keeps s0 s) : Keeps s0 (softLimitWritten t s) := by
  unfold softLimitWritten
  repeat' first
    | with_reducible assumption
    | (intro)
    | (extract_lets +onlyGivenNames lx; first | (refine keeps_cut lx ?_ (fun _ => ?_); rotate_left; clear_value lx; revert lx; intro y hy; rotate_right; subst lx) | (clear_value lx; revert lx; intro y) | subst lx)
    | with_reducible apply trlOpen_keeps
    | with_reducible apply wr_keeps
    | with_reducible apply onlyIf_keeps
    | with_reducible apply sendCorrection_keeps
    | with_reducible apply setTrl_keeps
    | with_reducible apply trlSync_keeps
    | with_reducible apply trlMoved_keeps
    | split
    | simp only [↓keeps_mk]

theorem serialFrameStart_keeps {p : Nat} {s0 s : State} (hk : Keeps s0 s) : Keeps s0 (serialFrameStart p s) := by
  unfold serialFrameStart
  repeat' first
    | with_reducible assumption
    | with_reducible apply send_keeps
    | split
    | simp only [↓keeps_mk]

theorem serialDiscard_keeps {p : Nat} {s0 s : State} (hk : Keeps s0 s) : Keeps s0 (serialDiscard p s) := by
  unfold serialDiscard
  repeat' first
    | with_reducible assumption
    | (intro)
    | (extract_lets +onlyGivenNames lx; first | (refine keeps_cut lx ?_ (fun _ => ?_); rotate_left; clear_value lx; revert lx; intro y hy; rotate_right; subst lx) | (refine keeps_cutF lx ?_ (fun _ => ?_); rotate_left; clear_value lx; revert lx; intro y hF; rotate_right; subst lx) | (refine keeps_cutG lx ?_ (fun _ => ?_); rotate_left; clear_value lx; revert lx; intro y hG; rotate_right; subst lx) | (refine keeps_cutG' lx ?_ (fun _ => ?_); rotate_left; clear_value lx; revert lx; intro y hG'; rotate_right; subst lx) | (refine keeps_cutH lx ?_ (fun _ => ?_); rotate_left; clear_value lx; revert lx; intro y hH; rotate_right; subst lx) | (refine keeps_cutU lx ?_ (fun _ => ?_); rotate_left; clear_value lx; revert lx; intro y hU; rotate_right; subst lx) | (clear_value lx; revert lx; intro y) | subst lx)
    | with_reducible apply wr_keeps
    | with_reducible apply onlyIf_keeps
    | with_reducible apply windowInc_keeps
    | with_reducible apply hF
    | with_reducible apply hG
    | with_reducible apply hG'
    | with_reducible apply hH
    | with_reducible apply hU
    | simp only [↓keeps_mk]

theorem serialSample_keeps {p : Nat} {word : Nat} {crcOk nE : Bool} {s0 s : State} (hk : Keeps s0 s) : Keeps s0 (serialSample p word crcOk nE s) := by
  unfold serialSample
  repeat' first
    | with_reducible assumption
    | (intro)
    | (extract_lets +onlyGivenNames lx; first | (refine keeps_cut lx ?_ (fun _ => ?_); rotate_left; clear_value lx; revert lx; intro y hy; rotate_right; subst lx) | (refine keeps_cutF lx ?_ (fun _ => ?_); rotate_left; clear_value lx; revert lx; intro y hF; rotate_right; subst lx) | (refine keeps_cutG lx ?_ (fun _ => ?_); rotate_left; clear_value lx; revert lx; intro y hG; rotate_right; subst lx) | (refine keeps_cutG' lx ?_ (fun _ => ?_); rotate_left; clear_value lx; revert lx; intro y hG'; rotate_right; subst lx) | (refine keeps_cutH lx ?_ (fun _ => ?_); rotate_left; clear_value lx; revert lx; intro y hH; rotate_right; subst lx) | (refine keeps_cutU lx ?_ (fun _ => ?_); rotate_left; clear_value lx; revert lx; intro y hU; rotate_right; subst lx) | (clear_value lx; revert lx; intro y) | subst lx)
    | with_reducible apply serialDiscard_keeps
    | with_reducible apply trlOpen_keeps
    | with_reducible apply wr_keeps
    | with_reducible apply onlyIf_keeps
    | with_reducible apply trlMoved_keeps
    | with_reducible apply setTrl_keeps
    | with_reducible apply hF
    | with_reducible apply hG
    | with_reducible apply hG'
    | with_reducible apply hH
    | with_reducible apply hU
    | split
    | simp only [↓keeps_mk]

theorem serialStartTimeout_keeps {p : Nat} {s0 s : State} (hk : Keeps s0 s) : Keeps s0 (serialStartTimeout p s) := by
  unfold serialStartTimeout
  repeat' first
    | with_reducible assumption
    | with_reducible apply serialDiscard_keeps
    | split

theorem lanFlag_keeps {f : FRef} {s0 s : State} (hk : Keeps s0 s) : Keeps s0 (lanFlag s f) := by
  unfold lanFlag
  repeat' first
    | with_reducible assumption
    | with_reducible apply raise_keeps
    | with_reducible apply wr_keeps
    | split

theorem shadowTo_keeps {p : Nat} {v : Int} {s0 s : State} (hk : Keeps s0 s) : Keeps s0 (shadowTo s p v) := by
  unfold shadowTo
  repeat' first
    | with_reducible assumption
    | (extract_lets +onlyGivenNames lx; first | (refine keeps_cut lx ?_ (fun _ => ?_); rotate_left; clear_value lx; revert lx; intro y hy; rotate_right; subst lx) | (clear_value lx; revert lx; intro y) | subst lx)
    | with_reducible apply wrI_keeps
    | with_reducible apply wr_keeps
    | with_reducible apply lanFlag_keeps
    | split

theorem lanternCorrection_keeps {p : Nat} {s0 s : State} (hk : Keeps s0 s) : Keeps s0 (lanternCorrection p s) := by
  unfold lanternCorrection
  repeat' first
    | with_reducible assumption
    | (extract_lets +onlyGivenNames lx; first | (refine keeps_cut lx ?_ (fun _ => ?_); rotate_left; clear_value lx; revert lx; intro y hy; rotate_right; subst lx) | (clear_value lx; revert lx; intro y) | subst lx)
    | with_reducible apply shadowTo_keeps
    | split
    | simp only [↓keeps_mk]

theorem divStart_keeps {d : Nat} {s0 s : State} (hk : Keeps s0 s) : Keeps s0 (divStart s d) := by
  unfold divStart
  repeat' first
    | with_reducible assumption
    | simp only [↓keeps_mk]

theorem divDrop_keeps {d : Nat} {s0 s : State} (hk : Keeps s0 s) : Keeps s0 (divDrop s d) := by
  unfold divDrop
  repeat' first
    | with_reducible assumption
    | (extract_lets +onlyGivenNames lx; first | (refine keeps_cut lx ?_ (fun _ => ?_); rotate_left; clear_value lx; revert lx; intro y hy; rotate_right; subst lx) | (clear_value lx; revert lx; intro y) | subst lx)
    | with_reducible apply wr_keeps
    | split
    | simp only [↓keeps_mk]

theorem dividersFollow_keeps {t : Nat} {s0 s : State} (hk : Keeps s0 s) : Keeps s0 (dividersFollow s t) := by
  unfold dividersFollow
  repeat' first
    | with_reducible assumption
    | (intro)
    | with_reducible apply each_keeps
    | with_reducible apply divDrop_keeps

theorem dividerEdge_keeps {d : Nat} {s0 s : State} (hk : Keeps s0 s) : Keeps s0 (dividerEdge d s) := by
  unfold dividerEdge
  repeat' first
    | with_reducible assumption
    | (extract_lets +onlyGivenNames lx; first | ((first | refine keeps_cut lx ?_ (fun _ => ?_) | refine keeps_cut1 lx ?_ (fun _ => ?_) | refine keeps_cut2 lx ?_ (fun _ => ?_)); rotate_left; clear_value lx; revert lx; intro y hy; rotate_right; subst lx) | (clear_value lx; revert lx; intro y) | subst lx)
    | with_reducible apply divDrop_keeps
    | with_reducible apply send_keeps
    | split
    | simp only [↓keeps_mk]

theorem dividersHold_keeps  {s0 s : State} (hk : Keeps s0 s) : Keeps s0 (dividersHold s) := by
  unfold dividersHold
  repeat' first
    | with_reducible assumption
    | (intro)
    | with_reducible apply each_keeps
    | with_reducible apply onlyIf_keeps
    | simp only [↓keeps_mk]

theorem setDom_keeps {d : Nat} {x : DomainS} {s0 s : State} (hk : Keeps s0 s) : Keeps s0 (setDom s d x) := by
  unfold setDom
  repeat' first
    | with_reducible assumption
    | simp only [↓keeps_mk]

theorem domSync_keeps {d : Nat} {s0 s : State} (hk : Keeps s0 s) : Keeps s0 (domSync s d) := by
  unfold domSync
  repeat' first
    | with_reducible assumption
    | with_reducible apply setDom_keeps
    | simp only [↓keeps_mk]

theorem setRate_keeps {d : Nat} {r : Int} {s0 s : State} (hk : Keeps s0 s) : Keeps s0 (setRate s d r) := by
  unfold setRate
  repeat' first
    | with_reducible assumption
    | (intro)
    | (extract_lets +onlyGivenNames lx; first | ((first | refine keeps_cut lx ?_ (fun _ => ?_) | refine keeps_cut1 lx ?_ (fun _ => ?_)); rotate_left; clear_value lx; revert lx; intro y hy; rotate_right; subst lx) | (refine keeps_cutF lx ?_ (fun _ => ?_); rotate_left; clear_value lx; revert lx; intro y hF; rotate_right; subst lx) | (refine keeps_cutG lx ?_ (fun _ => ?_); rotate_left; clear_value lx; revert lx; intro y hG; rotate_right; subst lx) | (refine keeps_cutG' lx ?_ (fun _ => ?_); rotate_left; clear_value lx; revert lx; intro y hG'; rotate_right; subst lx) | (refine keeps_cutH lx ?_ (fun _ => ?_); rotate_left; clear_value lx; revert lx; intro y hH; rotate_right; subst lx) | (refine keeps_cutU lx ?_ (fun _ => ?_); rotate_left; clear_value lx; revert lx; intro y hU; rotate_right; subst lx) | (clear_value lx; revert lx; intro y) | subst lx)
    | with_reducible apply domSync_keeps
    | with_reducible apply wrI_keeps
    | with_reducible apply setDom_keeps
    | with_reducible apply hF
    | with_reducible apply hG
    | with_reducible apply hG'
    | with_reducible apply hH
    | with_reducible apply hU
    | simp only [↓keeps_mk]

theorem domStep_keeps {d : Nat} {raw : Nat} {loop : Bool} {s0 s : State} (hk : Keeps s0 s) : Keeps s0 (domStep s d raw loop) := by
  unfold domStep
  repeat' first
    | with_reducible assumption
    | (intro)
    | (extract_lets +onlyGivenNames lx; first | (refine keeps_cut lx ?_ (fun _ => ?_); rotate_left; clear_value lx; revert lx; intro y hy; rotate_right; subst lx) | (refine keeps_cutF lx ?_ (fun _ => ?_); rotate_left; clear_value lx; revert lx; intro y hF; rotate_right; subst lx) | (refine keeps_cutG lx ?_ (fun _ => ?_); rotate_left; clear_value lx; revert lx; intro y hG; rotate_right; subst lx) | (refine keeps_cutG' lx ?_ (fun _ => ?_); rotate_left; clear_value lx; revert lx; intro y hG'; rotate_right; subst lx) | (refine keeps_cutH lx ?_ (fun _ => ?_); rotate_left; clear_value lx; revert lx; intro y hH; rotate_right; subst lx) | (refine keeps_cutU lx ?_ (fun _ => ?_); rotate_left; clear_value lx; revert lx; intro y hU; rotate_right; subst lx) | (clear_value lx; revert lx; intro y) | subst lx)
    | with_reducible apply setDom_keeps
    | with_reducible apply wr_keeps
    | with_reducible apply record_keeps
    | with_reducible apply onlyIf_keeps
    | with_reducible apply raise_keeps
    | with_reducible apply later_keeps
    | with_reducible apply hF
    | with_reducible apply hG
    | with_reducible apply hG'
    | with_reducible apply hH
    | with_reducible apply hU
    | simp only [↓keeps_mk]

theorem setDomState_keeps {d st : Nat} {s0 s : State} (hk : Keeps s0 s) : Keeps s0 (setDomState s d st) := by
  unfold setDomState
  repeat' first
    | with_reducible assumption
    | (extract_lets +onlyGivenNames lx; first | (refine keeps_cut lx ?_ (fun _ => ?_); rotate_left; clear_value lx; revert lx; intro y hy; rotate_right; subst lx) | (clear_value lx; revert lx; intro y) | subst lx)
    | with_reducible apply wr_keeps
    | with_reducible apply raise_keeps
    | with_reducible apply setDom_keeps
    | split
    | simp only [↓keeps_mk]

theorem domWritten_keeps {d : Nat} {s0 s : State} (hk : Keeps s0 s) : Keeps s0 (domWritten s d) := by
  unfold domWritten
  repeat' first
    | with_reducible assumption
    | with_reducible apply setDomState_keeps
    | split

theorem domainSet_keeps {d : Nat} {v : Nat} {s0 s : State} (hk : Keeps s0 s) : Keeps s0 (domainSet d v s) := by
  unfold domainSet
  repeat' first
    | with_reducible assumption
    | (extract_lets +onlyGivenNames lx; first | (refine keeps_cut lx ?_ (fun _ => ?_); rotate_left; clear_value lx; revert lx; intro y hy; rotate_right; subst lx) | (clear_value lx; revert lx; intro y) | subst lx)
    | with_reducible apply domStep_keeps
    | with_reducible apply domWritten_keeps
    | with_reducible apply wr_keeps

theorem domainAdjust_keeps {d : Nat} {v : Int} {s0 s : State} (hk : Keeps s0 s) : Keeps s0 (domainAdjust d v s) := by
  unfold domainAdjust
  repeat' first
    | with_reducible assumption
    | with_reducible apply domWritten_keeps
    | with_reducible apply domStep_keeps

theorem timeSnapshot_keeps  {s0 s : State} (hk : Keeps s0 s) : Keeps s0 (timeSnapshot s) := by
  unfold timeSnapshot
  repeat' first
    | with_reducible assumption
    | (intro)
    | (extract_lets +onlyGivenNames lx; first | (refine keeps_cut lx ?_ (fun _ => ?_); rotate_left; clear_value lx; revert lx; intro y hy; rotate_right; subst lx) | (refine keeps_cutF lx ?_ (fun _ => ?_); rotate_left; clear_value lx; revert lx; intro y hF; rotate_right; subst lx) | (refine keeps_cutG lx ?_ (fun _ => ?_); rotate_left; clear_value lx; revert lx; intro y hG; rotate_right; subst lx) | (refine keeps_cutG' lx ?_ (fun _ => ?_); rotate_left; clear_value lx; revert lx; intro y hG'; rotate_right; subst lx) | (refine keeps_cutH lx ?_ (fun _ => ?_); rotate_left; clear_value lx; revert lx; intro y hH; rotate_right; subst lx) | (refine keeps_cutU lx ?_ (fun _ => ?_); rotate_left; clear_value lx; revert lx; intro y hU; rotate_right; subst lx) | (clear_value lx; revert lx; intro y) | subst lx)
    | with_reducible apply each_keeps
    | with_reducible apply wr_keeps
    | with_reducible apply hF
    | with_reducible apply hG
    | with_reducible apply hG'
    | with_reducible apply hH
    | with_reducible apply hU

theorem domainSrcWrite_keeps {d : Nat} {v : Nat} {s0 s : State} (hk : Keeps s0 s) : Keeps s0 (domainSrcWrite d v s) := by
  unfold domainSrcWrite
  repeat' first
    | with_reducible assumption
    | (extract_lets +onlyGivenNames lx; first | (refine keeps_cut lx ?_ (fun _ => ?_); rotate_left; clear_value lx; revert lx; intro y hy; rotate_right; subst lx) | (clear_value lx; revert lx; intro y) | subst lx)
    | with_reducible apply wr_keeps
    | with_reducible apply setDomState_keeps
    | with_reducible apply setDom_keeps
    | split
    | simp only [↓keeps_mk]

theorem pathSample_keeps {p : Nat} {mpd : Int} {s0 s : State} (hk : Keeps s0 s) : Keeps s0 (pathSample s p mpd) := by
  unfold pathSample
  repeat' first
    | with_reducible assumption
    | (intro)
    | (extract_lets +onlyGivenNames lx; first | ((first | refine keeps_cut lx ?_ (fun _ => ?_) | refine keeps_cut1 lx ?_ (fun _ => ?_) | refine keeps_cut2 lx ?_ (fun _ => ?_)); rotate_left; clear_value lx; revert lx; intro y hy; rotate_right; subst lx) | (refine keeps_cutF lx ?_ (fun _ => ?_); rotate_left; clear_value lx; revert lx; intro y hF; rotate_right; subst lx) | (refine keeps_cutG lx ?_ (fun _ => ?_); rotate_left; clear_value lx; revert lx; intro y hG; rotate_right; subst lx) | (refine keeps_cutG' lx ?_ (fun _ => ?_); rotate_left; clear_value lx; revert lx; intro y hG'; rotate_right; subst lx) | (refine keeps_cutH lx ?_ (fun _ => ?_); rotate_left; clear_value lx; revert lx; intro y hH; rotate_right; subst lx) | (refine keeps_cutU lx ?_ (fun _ => ?_); rotate_left; clear_value lx; revert lx; intro y hU; rotate_right; subst lx) | (clear_value lx; revert lx; intro y) | subst lx)
    | with_reducible apply wr_keeps
    | with_reducible apply onlyIf_keeps
    | with_reducible apply raise_keeps
    | with_reducible apply hF
    | with_reducible apply hG
    | with_reducible apply hG'
    | with_reducible apply hH
    | with_reducible apply hU
    | split
    | simp only [↓keeps_mk]

theorem pathWindowExpire_keeps {p : Nat} {s0 s : State} (hk : Keeps s0 s) : Keeps s0 (pathWindowExpire p s) := by
  unfold pathWindowExpire
  repeat' first
    | with_reducible assumption
    | (extract_lets +onlyGivenNames lx; first | (refine keeps_cut lx ?_ (fun _ => ?_); rotate_left; clear_value lx; revert lx; intro y hy; rotate_right; subst lx) | (clear_value lx; revert lx; intro y) | subst lx)
    | with_reducible apply wr_keeps
    | split
    | simp only [↓keeps_mk]

theorem enterHoldover_keeps {d : Nat} {s0 s : State} (hk : Keeps s0 s) : Keeps s0 (enterHoldover s d) := by
  unfold enterHoldover
  repeat' first
    | with_reducible assumption
    | (extract_lets +onlyGivenNames lx; first | (refine keeps_cut lx ?_ (fun _ => ?_); rotate_left; clear_value lx; revert lx; intro y hy; rotate_right; subst lx) | (clear_value lx; revert lx; intro y) | subst lx)
    | with_reducible apply setRate_keeps
    | with_reducible apply setDomState_keeps
    | with_reducible apply wrI_keeps

theorem loopStep_keeps {d : Nat} {theta : Int} {tau : Nat} {s0 s : State} (hk : Keeps s0 s) : Keeps s0 (loopStep s d theta tau) := by
  unfold loopStep
  repeat' first
    | with_reducible assumption
    | (intro)
    | (extract_lets +onlyGivenNames lx; first | (refine keeps_cut lx ?_ (fun _ => ?_); rotate_left; clear_value lx; revert lx; intro y hy; rotate_right; subst lx) | (refine keeps_cutF lx ?_ (fun _ => ?_); rotate_left; clear_value lx; revert lx; intro y hF; rotate_right; subst lx) | (refine keeps_cutG lx ?_ (fun _ => ?_); rotate_left; clear_value lx; revert lx; intro y hG; rotate_right; subst lx) | (refine keeps_cutG' lx ?_ (fun _ => ?_); rotate_left; clear_value lx; revert lx; intro y hG'; rotate_right; subst lx) | (refine keeps_cutH lx ?_ (fun _ => ?_); rotate_left; clear_value lx; revert lx; intro y hH; rotate_right; subst lx) | (refine keeps_cutU lx ?_ (fun _ => ?_); rotate_left; clear_value lx; revert lx; intro y hU; rotate_right; subst lx) | (clear_value lx; revert lx; intro y) | subst lx)
    | with_reducible apply setRate_keeps
    | with_reducible apply setDom_keeps
    | with_reducible apply hF
    | with_reducible apply hG
    | with_reducible apply hG'
    | with_reducible apply hH
    | with_reducible apply hU
    | simp only [↓keeps_mk]

theorem offsetCore_keeps {d : Nat} {theta : Int} {tau : Nat} {newMaster : Bool} {s0 s : State} (hk : Keeps s0 s) : Keeps s0 (offsetCore d theta tau newMaster s) := by
  unfold offsetCore
  repeat' first
    | with_reducible assumption
    | (extract_lets +onlyGivenNames lx; first | (refine keeps_cut lx ?_ (fun _ => ?_); rotate_left; clear_value lx; revert lx; intro y hy; rotate_right; subst lx) | (clear_value lx; revert lx; intro y) | subst lx)
    | with_reducible apply wrI_keeps
    | with_reducible apply enterHoldover_keeps
    | with_reducible apply setDomState_keeps
    | with_reducible apply setDom_keeps
    | with_reducible apply domStep_keeps
    | with_reducible apply loopStep_keeps
    | with_reducible apply wr_keeps
    | split
    | simp only [↓keeps_mk]

theorem offsetSample_keeps {d : Nat} {x : OffSample} {s0 s : State} (hk : Keeps s0 s) : Keeps s0 (offsetSample d x s) := by
  unfold offsetSample
  repeat' first
    | with_reducible assumption
    | (intro)
    | (extract_lets +onlyGivenNames lx; first | (refine keeps_cut lx ?_ (fun _ => ?_); rotate_left; clear_value lx; revert lx; intro y hy; rotate_right; subst lx) | (clear_value lx; revert lx; intro y) | subst lx)
    | with_reducible apply onlyIf_keeps
    | with_reducible apply pathSample_keeps
    | with_reducible apply offsetCore_keeps
    | split
    | simp only [↓keeps_mk]

theorem ptmDialogue_keeps {d : Nat} {x : PtmSample} {s0 s : State} (hk : Keeps s0 s) : Keeps s0 (ptmDialogue d x s) := by
  unfold ptmDialogue
  repeat' first
    | with_reducible assumption
    | (extract_lets +onlyGivenNames lx; first | (refine keeps_cut lx ?_ (fun _ => ?_); rotate_left; clear_value lx; revert lx; intro y hy; rotate_right; subst lx) | (clear_value lx; revert lx; intro y) | subst lx)
    | with_reducible apply send_keeps
    | with_reducible apply addSat_keeps
    | with_reducible apply setDom_keeps
    | with_reducible apply offsetCore_keeps
    | split
    | simp only [↓keeps_mk]

theorem sampleLoss_keeps {d : Nat} {s0 s : State} (hk : Keeps s0 s) : Keeps s0 (sampleLoss d s) := by
  unfold sampleLoss
  repeat' first
    | with_reducible assumption
    | with_reducible apply enterHoldover_keeps
    | split

theorem domRateWrite_keeps {d : Nat} {v : Nat} {s0 s : State} (hk : Keeps s0 s) : Keeps s0 (domRateWrite d v s) := by
  unfold domRateWrite
  repeat' first
    | with_reducible assumption
    | with_reducible apply setRate_keeps
    | split

theorem ptpEgress_keeps {p dn ty seq : Nat} {s0 s : State} (hk : Keeps s0 s) : Keeps s0 (ptpEgress s p dn ty seq) := by
  unfold ptpEgress
  repeat' first
    | with_reducible assumption
    | (intro)
    | (extract_lets +onlyGivenNames lx; first | (refine keeps_cut lx ?_ (fun _ => ?_); rotate_left; clear_value lx; revert lx; intro y hy; rotate_right; subst lx) | (refine keeps_cutF lx ?_ (fun _ => ?_); rotate_left; clear_value lx; revert lx; intro y hF; rotate_right; subst lx) | (refine keeps_cutG lx ?_ (fun _ => ?_); rotate_left; clear_value lx; revert lx; intro y hG; rotate_right; subst lx) | (refine keeps_cutG' lx ?_ (fun _ => ?_); rotate_left; clear_value lx; revert lx; intro y hG'; rotate_right; subst lx) | (refine keeps_cutH lx ?_ (fun _ => ?_); rotate_left; clear_value lx; revert lx; intro y hH; rotate_right; subst lx) | (refine keeps_cutU lx ?_ (fun _ => ?_); rotate_left; clear_value lx; revert lx; intro y hU; rotate_right; subst lx) | (clear_value lx; revert lx; intro y) | subst lx)
    | with_reducible apply wr_keeps
    | with_reducible apply onlyIf_keeps
    | with_reducible apply raise_keeps
    | with_reducible apply addSat_keeps
    | with_reducible apply hF
    | with_reducible apply hG
    | with_reducible apply hG'
    | with_reducible apply hH
    | with_reducible apply hU
    | split
    | simp only [↓keeps_mk]

theorem txqIdRead_keeps {p : Nat} {s0 s : State} (hk : Keeps s0 s) : Keeps s0 (txqIdRead p s) := by
  unfold txqIdRead
  repeat' first
    | with_reducible assumption
    | with_reducible apply wr_keeps
    | split
    | simp only [↓keeps_mk]

theorem ptpRestart_keeps {p : Nat} {s0 s : State} (hk : Keeps s0 s) : Keeps s0 (ptpRestart s p) := by
  unfold ptpRestart
  repeat' first
    | with_reducible assumption
    | with_reducible apply wr_keeps
    | simp only [↓keeps_mk]

theorem ptpTimeout_keeps {p : Nat} {s0 s : State} (hk : Keeps s0 s) : Keeps s0 (ptpTimeout s p) := by
  unfold ptpTimeout
  repeat' first
    | with_reducible assumption
    | (intro)
    | (extract_lets +onlyGivenNames lx; first | (refine keeps_cut lx ?_ (fun _ => ?_); rotate_left; clear_value lx; revert lx; intro y hy; rotate_right; subst lx) | (clear_value lx; revert lx; intro y) | subst lx)
    | with_reducible apply wr_keeps
    | with_reducible apply onlyIf_keeps
    | with_reducible apply freeNext_keeps
    | split

theorem ptpTake_keeps {p : Nat} {s0 s : State} (hk : Keeps s0 s) : Keeps s0 (ptpTake s p) := by
  unfold ptpTake
  repeat' first
    | with_reducible assumption
    | with_reducible apply wr_keeps
    | split
    | simp only [↓keeps_mk]

theorem ptpSend_keeps {p ty seq : Nat} {s0 s : State} (hk : Keeps s0 s) : Keeps s0 (ptpSend s p ty seq) := by
  unfold ptpSend
  repeat' first
    | with_reducible assumption
    | (intro)
    | (extract_lets +onlyGivenNames lx; first | (refine keeps_cut lx ?_ (fun _ => ?_); rotate_left; clear_value lx; revert lx; intro y hy; rotate_right; subst lx) | (refine keeps_cutF lx ?_ (fun _ => ?_); rotate_left; clear_value lx; revert lx; intro y hF; rotate_right; subst lx) | (refine keeps_cutG lx ?_ (fun _ => ?_); rotate_left; clear_value lx; revert lx; intro y hG; rotate_right; subst lx) | (refine keeps_cutG' lx ?_ (fun _ => ?_); rotate_left; clear_value lx; revert lx; intro y hG'; rotate_right; subst lx) | (refine keeps_cutH lx ?_ (fun _ => ?_); rotate_left; clear_value lx; revert lx; intro y hH; rotate_right; subst lx) | (refine keeps_cutU lx ?_ (fun _ => ?_); rotate_left; clear_value lx; revert lx; intro y hU; rotate_right; subst lx) | (clear_value lx; revert lx; intro y) | subst lx)
    | with_reducible apply onlyIf_keeps
    | with_reducible apply send_keeps
    | with_reducible apply hF
    | with_reducible apply hG
    | with_reducible apply hG'
    | with_reducible apply hH
    | with_reducible apply hU
    | split

theorem ptpEventTransmit_keeps {p ty seq : Nat} {s0 s : State} (hk : Keeps s0 s) : Keeps s0 (ptpEventTransmit p ty seq s) := by
  unfold ptpEventTransmit
  repeat' first
    | with_reducible assumption
    | (intro)
    | (extract_lets +onlyGivenNames lx; first | (refine keeps_cut lx ?_ (fun _ => ?_); rotate_left; clear_value lx; revert lx; intro y hy; rotate_right; subst lx) | (refine keeps_cutF lx ?_ (fun _ => ?_); rotate_left; clear_value lx; revert lx; intro y hF; rotate_right; subst lx) | (refine keeps_cutG lx ?_ (fun _ => ?_); rotate_left; clear_value lx; revert lx; intro y hG; rotate_right; subst lx) | (refine keeps_cutG' lx ?_ (fun _ => ?_); rotate_left; clear_value lx; revert lx; intro y hG'; rotate_right; subst lx) | (refine keeps_cutH lx ?_ (fun _ => ?_); rotate_left; clear_value lx; revert lx; intro y hH; rotate_right; subst lx) | (refine keeps_cutU lx ?_ (fun _ => ?_); rotate_left; clear_value lx; revert lx; intro y hU; rotate_right; subst lx) | (clear_value lx; revert lx; intro y) | subst lx)
    | with_reducible apply onlyIf_keeps
    | with_reducible apply ptpTimeout_keeps
    | with_reducible apply ptpEgress_keeps
    | with_reducible apply ptpSend_keeps
    | with_reducible apply ptpTake_keeps
    | with_reducible apply hF
    | with_reducible apply hG
    | with_reducible apply hG'
    | with_reducible apply hH
    | with_reducible apply hU
    | split

theorem ptpFollow_keeps {p m : Nat} {s0 s : State} (hk : Keeps s0 s) : Keeps s0 (ptpFollow s p m) := by
  unfold ptpFollow
  repeat' first
    | with_reducible assumption
    | (intro)
    | (extract_lets +onlyGivenNames lx; first | (refine keeps_cut lx ?_ (fun _ => ?_); rotate_left; clear_value lx; revert lx; intro y hy; rotate_right; subst lx) | (refine keeps_cutF lx ?_ (fun _ => ?_); rotate_left; clear_value lx; revert lx; intro y hF; rotate_right; subst lx) | (refine keeps_cutG lx ?_ (fun _ => ?_); rotate_left; clear_value lx; revert lx; intro y hG; rotate_right; subst lx) | (refine keeps_cutG' lx ?_ (fun _ => ?_); rotate_left; clear_value lx; revert lx; intro y hG'; rotate_right; subst lx) | (refine keeps_cutH lx ?_ (fun _ => ?_); rotate_left; clear_value lx; revert lx; intro y hH; rotate_right; subst lx) | (refine keeps_cutU lx ?_ (fun _ => ?_); rotate_left; clear_value lx; revert lx; intro y hU; rotate_right; subst lx) | (clear_value lx; revert lx; intro y) | subst lx)
    | with_reducible apply each_keeps
    | with_reducible apply ptpRestart_keeps
    | with_reducible apply wr_keeps
    | with_reducible apply enterHoldover_keeps
    | with_reducible apply hF
    | with_reducible apply hG
    | with_reducible apply hG'
    | with_reducible apply hH
    | with_reducible apply hU
    | split
    | simp only [↓keeps_mk]

theorem ptpAnnounce_keeps {p m : Nat} {s0 s : State} (hk : Keeps s0 s) : Keeps s0 (ptpAnnounce s p m) := by
  unfold ptpAnnounce
  repeat' first
    | with_reducible assumption
    | (intro)
    | (extract_lets +onlyGivenNames lx; first | (refine keeps_cut lx ?_ (fun _ => ?_); rotate_left; clear_value lx; revert lx; intro y hy; rotate_right; subst lx) | (refine keeps_cutF lx ?_ (fun _ => ?_); rotate_left; clear_value lx; revert lx; intro y hF; rotate_right; subst lx) | (refine keeps_cutG lx ?_ (fun _ => ?_); rotate_left; clear_value lx; revert lx; intro y hG; rotate_right; subst lx) | (refine keeps_cutG' lx ?_ (fun _ => ?_); rotate_left; clear_value lx; revert lx; intro y hG'; rotate_right; subst lx) | (refine keeps_cutH lx ?_ (fun _ => ?_); rotate_left; clear_value lx; revert lx; intro y hH; rotate_right; subst lx) | (refine keeps_cutU lx ?_ (fun _ => ?_); rotate_left; clear_value lx; revert lx; intro y hU; rotate_right; subst lx) | (clear_value lx; revert lx; intro y) | subst lx)
    | with_reducible apply ptpFollow_keeps
    | with_reducible apply freeNext_keeps
    | with_reducible apply wr_keeps
    | with_reducible apply hF
    | with_reducible apply hG
    | with_reducible apply hG'
    | with_reducible apply hH
    | with_reducible apply hU
    | split

theorem ptpReceive_keeps {p : Nat} {f : PtpFrame} {s0 s : State} (hk : Keeps s0 s) : Keeps s0 (ptpReceive s p f) := by
  unfold ptpReceive
  repeat' first
    | with_reducible assumption
    | (extract_lets +onlyGivenNames lx; first | (refine keeps_cut lx ?_ (fun _ => ?_); rotate_left; clear_value lx; revert lx; intro y hy; rotate_right; subst lx) | (clear_value lx; revert lx; intro y) | subst lx)
    | with_reducible apply unsupported_keeps
    | with_reducible apply addSat_keeps
    | with_reducible apply send_keeps
    | with_reducible apply ptpAnnounce_keeps
    | split
    | simp only [↓keeps_mk]

theorem setStk_keeps {n : Nat} {x : StakeS} {s0 s : State} (hk : Keeps s0 s) : Keeps s0 (setStk s n x) := by
  unfold setStk
  repeat' first
    | with_reducible assumption
    | simp only [↓keeps_mk]

theorem setMlk_keeps {u : Nat} {x : MlkUnit} {s0 s : State} (hk : Keeps s0 s) : Keeps s0 (setMlk s u x) := by
  unfold setMlk
  repeat' first
    | with_reducible assumption
    | simp only [↓keeps_mk]

theorem setStr_keeps {st : Nat} {x : StreamS} {s0 s : State} (hk : Keeps s0 s) : Keeps s0 (setStr s st x) := by
  unfold setStr
  repeat' first
    | with_reducible assumption
    | simp only [↓keeps_mk]

theorem countMissing_keeps {st : Nat} {s0 s : State} (hk : Keeps s0 s) : Keeps s0 (countMissing s st) := by
  unfold countMissing
  repeat' first
    | with_reducible assumption
    | with_reducible apply raise_keeps
    | with_reducible apply addSat_keeps

theorem stopLook_keeps {st : Nat} {s0 s : State} (hk : Keeps s0 s) : Keeps s0 (stopLook s st) := by
  unfold stopLook
  repeat' first
    | with_reducible assumption
    | with_reducible apply laterOnce_keeps
    | split

theorem giveSample_keeps {st mot stamp : Nat} {predicted late : Bool} {s0 s : State} (hk : Keeps s0 s) : Keeps s0 (giveSample s st mot stamp predicted late) := by
  unfold giveSample
  repeat' first
    | with_reducible assumption
    | (extract_lets +onlyGivenNames lx; first | (refine keeps_cut lx ?_ (fun _ => ?_); rotate_left; clear_value lx; revert lx; intro y hy; rotate_right; subst lx) | (clear_value lx; revert lx; intro y) | subst lx)
    | with_reducible apply setStr_keeps
    | with_reducible apply stopLook_keeps
    | with_reducible apply countMissing_keeps
    | with_reducible apply addSat_keeps
    | split
    | simp only [↓keeps_mk]

theorem setPin_keeps {p : Nat} {x : PinS} {s0 s : State} (hk : Keeps s0 s) : Keeps s0 (setPin s p x) := by
  unfold setPin
  repeat' first
    | with_reducible assumption
    | simp only [↓keeps_mk]

theorem firePin_keeps {p : Nat} {at8 width : Nat} {genPol : Bool} {s0 s : State} (hk : Keeps s0 s) : Keeps s0 (firePin s p at8 width genPol).1 := by
  unfold firePin
  repeat' first
    | with_reducible assumption
    | with_reducible apply addSat_keeps
    | with_reducible apply wr_keeps
    | with_reducible apply setPin_keeps
    | split
    | simp only [↓keeps_mk]

theorem pinPulseEnd_keeps {p : Nat} {s0 s : State} (hk : Keeps s0 s) : Keeps s0 (pinPulseEnd p s) := by
  unfold pinPulseEnd
  repeat' first
    | with_reducible assumption
    | (extract_lets +onlyGivenNames lx; first | (refine keeps_cut lx ?_ (fun _ => ?_); rotate_left; clear_value lx; revert lx; intro y hy; rotate_right; subst lx) | (clear_value lx; revert lx; intro y) | subst lx)
    | with_reducible apply wr_keeps
    | with_reducible apply setPin_keeps
    | split
    | simp only [↓keeps_mk]

theorem trgCfgWrite_keeps {p v : Nat} {s0 s : State} (hk : Keeps s0 s) : Keeps s0 (trgCfgWrite p v s) := by
  unfold trgCfgWrite
  repeat' first
    | with_reducible assumption
    | with_reducible apply setPin_keeps
    | with_reducible apply wr_keeps
    | split
    | simp only [↓keeps_mk]

theorem fireCxp_keeps {n tx : Nat} {s0 s : State} (hk : Keeps s0 s) : Keeps s0 (fireCxp s n tx).1 := by
  unfold fireCxp
  repeat' first
    | with_reducible assumption
    | (extract_lets +onlyGivenNames lx; first | (refine keeps_cut lx ?_ (fun _ => ?_); rotate_left; clear_value lx; revert lx; intro y hy; rotate_right; subst lx) | (clear_value lx; revert lx; intro y) | subst lx)
    | with_reducible apply wr_keeps
    | with_reducible apply freeNext_keeps
    | split
    | simp only [↓keeps_mk]

theorem cxpSend_keeps {n : Nat} {rising : Bool} {tx : Nat} {s0 s : State} (hk : Keeps s0 s) : Keeps s0 (cxpSend s n rising tx) := by
  unfold cxpSend
  repeat' first
    | with_reducible assumption
    | (intro)
    | (extract_lets +onlyGivenNames lx; first | (refine keeps_cut lx ?_ (fun _ => ?_); rotate_left; clear_value lx; revert lx; intro y hy; rotate_right; subst lx) | (clear_value lx; revert lx; intro y) | subst lx)
    | with_reducible apply onlyIf_keeps
    | with_reducible apply freeNext_keeps
    | with_reducible apply send_keeps
    | with_reducible apply addWrap_keeps
    | with_reducible apply wr_keeps

theorem cxpTriggerSend_keeps {n : Nat} {s0 s : State} (hk : Keeps s0 s) : Keeps s0 (cxpTriggerSend n s) := by
  unfold cxpTriggerSend
  repeat' first
    | with_reducible assumption
    | (extract_lets +onlyGivenNames lx; first | (refine keeps_cut lx ?_ (fun _ => ?_); rotate_left; clear_value lx; revert lx; intro y hy; rotate_right; subst lx) | (clear_value lx; revert lx; intro y) | subst lx)
    | with_reducible apply cxpSend_keeps
    | split
    | simp only [↓keeps_mk]

theorem cxpFallSend_keeps {n : Nat} {s0 s : State} (hk : Keeps s0 s) : Keeps s0 (cxpFallSend n s) := by
  unfold cxpFallSend
  repeat' first
    | with_reducible assumption
    | (extract_lets +onlyGivenNames lx; first | (refine keeps_cut lx ?_ (fun _ => ?_); rotate_left; clear_value lx; revert lx; intro y hy; rotate_right; subst lx) | (clear_value lx; revert lx; intro y) | subst lx)
    | with_reducible apply cxpSend_keeps
    | split
    | simp only [↓keeps_mk]

theorem armAt_keeps {n i k : Nat} {e : Entry} {trim : Int} {cyc : Nat} {s0 s : State} (hk : Keeps s0 s) : Keeps s0 (armAt s n i k e trim cyc) := by
  unfold armAt
  repeat' first
    | with_reducible assumption
    | (intro)
    | (extract_lets +onlyGivenNames lx; first | (refine keeps_cut lx ?_ (fun _ => ?_); rotate_left; clear_value lx; revert lx; intro y hy; rotate_right; subst lx) | (clear_value lx; revert lx; intro y) | subst lx)
    | with_reducible apply setStk_keeps
    | simp only [↓keeps_mk]

theorem armShow_keeps {n : Nat} {s0 s : State} (hk : Keeps s0 s) : Keeps s0 (armShow s n) := by
  unfold armShow
  repeat' first
    | with_reducible assumption
    | (extract_lets +onlyGivenNames lx; first | (refine keeps_cut lx ?_ (fun _ => ?_); rotate_left; clear_value lx; revert lx; intro y hy; rotate_right; subst lx) | (clear_value lx; revert lx; intro y) | subst lx)
    | with_reducible apply wr_keeps
    | with_reducible apply wrI_keeps

theorem stkDone_keeps {n : Nat} {s0 s : State} (hk : Keeps s0 s) : Keeps s0 (stkDone s n) := by
  unfold stkDone
  repeat' first
    | with_reducible assumption
    | with_reducible apply raise_keeps
    | with_reducible apply wr_keeps

theorem stkNext_keeps {n : Nat} {s0 s : State} (hk : Keeps s0 s) : Keeps s0 (stkNext s n) := by
  unfold stkNext
  repeat' first
    | with_reducible assumption
    | (extract_lets +onlyGivenNames lx; first | ((first | refine keeps_cut lx ?_ (fun _ => ?_) | refine keeps_cut1 lx ?_ (fun _ => ?_) | refine keeps_cut2 lx ?_ (fun _ => ?_)); rotate_left; clear_value lx; revert lx; intro y hy; rotate_right; subst lx) | (clear_value lx; revert lx; intro y) | subst lx)
    | with_reducible apply armAt_keeps
    | with_reducible apply stkDone_keeps
    | with_reducible apply wrI_keeps
    | split

theorem stkAdvance_keeps {n : Nat} {s0 s : State} (hk : Keeps s0 s) : Keeps s0 (stkAdvance s n) := by
  unfold stkAdvance
  repeat' first
    | with_reducible assumption
    | (extract_lets +onlyGivenNames lx; first | (refine keeps_cut lx ?_ (fun _ => ?_); rotate_left; clear_value lx; revert lx; intro y hy; rotate_right; subst lx) | (clear_value lx; revert lx; intro y) | subst lx)
    | with_reducible apply armAt_keeps
    | with_reducible apply stkNext_keeps
    | split

theorem stkSkip_keeps {n : Nat} {s0 s : State} (hk : Keeps s0 s) : Keeps s0 (stkSkip s n) := by
  unfold stkSkip
  repeat' first
    | with_reducible assumption
    | with_reducible apply raise_keeps
    | with_reducible apply addSat_keeps

theorem stkReads_keeps {n : Nat} {a0 : List MemEcc} {s0 s : State} (hk : Keeps s0 s) : Keeps s0 (stkReads n a0 s) := by
  induction a0 generalizing s with
  | nil => unfold stkReads; exact armShow_keeps hk
  | cons e l ih =>
    unfold stkReads
    repeat' first
      | with_reducible assumption
      | (extract_lets +onlyGivenNames lx; first | (refine keeps_cut lx ?_ (fun _ => ?_); rotate_left; clear_value lx; revert lx; intro y hy; rotate_right; subst lx) | (clear_value lx; revert lx; intro y) | subst lx)
      | with_reducible apply ih
      | with_reducible apply armShow_keeps
      | with_reducible apply eccCorrected_keeps
      | with_reducible apply uncorrectable_keeps
      | with_reducible apply stkNext_keeps
      | with_reducible apply stkSkip_keeps
      | with_reducible apply eccUncorrectable_keeps
      | split
      | simp only [↓keeps_mk]

theorem stkMove_keeps {n : Nat} {reads : List MemEcc} {s0 s : State} (hk : Keeps s0 s) : Keeps s0 (stkMove s n reads) := by
  unfold stkMove
  repeat' first
    | with_reducible assumption
    | (extract_lets +onlyGivenNames lx; first | (refine keeps_cut lx ?_ (fun _ => ?_); rotate_left; clear_value lx; revert lx; intro y hy; rotate_right; subst lx) | (clear_value lx; revert lx; intro y) | subst lx)
    | with_reducible apply stkAdvance_keeps
    | with_reducible apply stkReads_keeps
    | with_reducible apply armShow_keeps
    | split

theorem stkSeek_keeps {n : Nat} {s0 s : State} (hk : Keeps s0 s) : Keeps s0 (stkSeek s n) := by
  unfold stkSeek
  repeat' first
    | with_reducible assumption
    | with_reducible apply wr_keeps
    | with_reducible apply wrI_keeps

theorem stakeSeekComplete_keeps {n : Nat} {reads : List MemEcc} {s0 s : State} (hk : Keeps s0 s) : Keeps s0 (stakeSeekComplete n reads s) := by
  unfold stakeSeekComplete
  repeat' first
    | with_reducible assumption
    | (intro)
    | (extract_lets +onlyGivenNames lx; first | ((first | refine keeps_cut lx ?_ (fun _ => ?_) | refine keeps_cut1 lx ?_ (fun _ => ?_) | refine keeps_cut2 lx ?_ (fun _ => ?_)); rotate_left; clear_value lx; revert lx; intro y hy; rotate_right; subst lx) | (refine keeps_cutF lx ?_ (fun _ => ?_); rotate_left; clear_value lx; revert lx; intro y hF; rotate_right; subst lx) | (refine keeps_cutG lx ?_ (fun _ => ?_); rotate_left; clear_value lx; revert lx; intro y hG; rotate_right; subst lx) | (refine keeps_cutG' lx ?_ (fun _ => ?_); rotate_left; clear_value lx; revert lx; intro y hG'; rotate_right; subst lx) | (refine keeps_cutH lx ?_ (fun _ => ?_); rotate_left; clear_value lx; revert lx; intro y hH; rotate_right; subst lx) | (refine keeps_cutU lx ?_ (fun _ => ?_); rotate_left; clear_value lx; revert lx; intro y hU; rotate_right; subst lx) | (clear_value lx; revert lx; intro y) | subst lx)
    | with_reducible apply wrI_keeps
    | with_reducible apply stkReads_keeps
    | with_reducible apply armAt_keeps
    | with_reducible apply stkDone_keeps
    | with_reducible apply hF
    | with_reducible apply hG
    | with_reducible apply hG'
    | with_reducible apply hH
    | with_reducible apply hU
    | split
    | simp only [↓keeps_mk]

theorem stkHold_keeps {n : Nat} {s0 s : State} (hk : Keeps s0 s) : Keeps s0 (stkHold s n) := by
  unfold stkHold
  repeat' first
    | with_reducible assumption
    | with_reducible apply wr_keeps

theorem stakesStop_keeps  {s0 s : State} (hk : Keeps s0 s) : Keeps s0 (stakesStop s) := by
  unfold stakesStop
  repeat' first
    | with_reducible assumption
    | (intro)
    | with_reducible apply each_keeps
    | with_reducible apply stkHold_keeps

theorem stakesStart_keeps  {s0 s : State} (hk : Keeps s0 s) : Keeps s0 (stakesStart s) := by
  unfold stakesStart
  repeat' first
    | with_reducible assumption
    | (intro)
    | with_reducible apply each_keeps
    | with_reducible apply stkSeek_keeps

theorem stakesHold_keeps  {s0 s : State} (hk : Keeps s0 s) : Keeps s0 (stakesHold s) := by
  unfold stakesHold
  repeat' first
    | with_reducible assumption
    | (intro)
    | with_reducible apply each_keeps
    | with_reducible apply stkHold_keeps

theorem stakesHandover_keeps  {s0 s : State} (hk : Keeps s0 s) : Keeps s0 (stakesHandover s) := by
  unfold stakesHandover
  repeat' first
    | with_reducible assumption
    | (intro)
    | with_reducible apply each_keeps
    | with_reducible apply stkSeek_keeps

theorem stakesPosStep_keeps {t : Nat} {s0 s : State} (hk : Keeps s0 s) : Keeps s0 (stakesPosStep s t) := by
  unfold stakesPosStep
  repeat' first
    | with_reducible assumption
    | (intro)
    | with_reducible apply each_keeps
    | with_reducible apply wr_keeps
    | with_reducible apply stkSeek_keeps

theorem stakeRearm_keeps {n : Nat} {s0 s : State} (hk : Keeps s0 s) : Keeps s0 (stakeRearm n s) := by
  unfold stakeRearm
  repeat' first
    | with_reducible assumption
    | with_reducible apply stkSeek_keeps
    | split

theorem stkDrive_keeps {n : Nat} {outA outB : Bool} {fine : Nat} {predicted late : Bool} {s0 s : State} (hk : Keeps s0 s) : Keeps s0 (stkDrive s n outA outB fine predicted late) := by
  unfold stkDrive
  repeat' first
    | with_reducible assumption
    | (intro)
    | (extract_lets +onlyGivenNames lx; first | ((first | refine keeps_cut lx ?_ (fun _ => ?_) | refine keeps_cut1 lx ?_ (fun _ => ?_) | refine keeps_cut2 lx ?_ (fun _ => ?_)); rotate_left; clear_value lx; revert lx; intro y hy; rotate_right; subst lx) | (refine keeps_cutF lx ?_ (fun _ => ?_); rotate_left; clear_value lx; revert lx; intro y hF; rotate_right; subst lx) | (refine keeps_cutG lx ?_ (fun _ => ?_); rotate_left; clear_value lx; revert lx; intro y hG; rotate_right; subst lx) | (refine keeps_cutG' lx ?_ (fun _ => ?_); rotate_left; clear_value lx; revert lx; intro y hG'; rotate_right; subst lx) | (refine keeps_cutH lx ?_ (fun _ => ?_); rotate_left; clear_value lx; revert lx; intro y hH; rotate_right; subst lx) | (refine keeps_cutU lx ?_ (fun _ => ?_); rotate_left; clear_value lx; revert lx; intro y hU; rotate_right; subst lx) | (clear_value lx; revert lx; intro y) | subst lx)
    | with_reducible apply each_keeps
    | with_reducible apply firePin_keeps
    | with_reducible apply raise_keeps
    | with_reducible apply fireCxp_keeps
    | with_reducible apply giveSample_keeps
    | with_reducible apply hF
    | with_reducible apply hG
    | with_reducible apply hG'
    | with_reducible apply hH
    | with_reducible apply hU
    | split

theorem stkFire_keeps {n : Nat} {e : Entry} {late : Bool} {reads : List MemEcc} {s0 s : State} (hk : Keeps s0 s) : Keeps s0 (stkFire s n e late reads) := by
  unfold stkFire
  repeat' first
    | with_reducible assumption
    | (intro)
    | (extract_lets +onlyGivenNames lx; first | (refine keeps_cut lx ?_ (fun _ => ?_); rotate_left; clear_value lx; revert lx; intro y hy; rotate_right; subst lx) | (refine keeps_cutF lx ?_ (fun _ => ?_); rotate_left; clear_value lx; revert lx; intro y hF; rotate_right; subst lx) | (refine keeps_cutG lx ?_ (fun _ => ?_); rotate_left; clear_value lx; revert lx; intro y hG; rotate_right; subst lx) | (refine keeps_cutG' lx ?_ (fun _ => ?_); rotate_left; clear_value lx; revert lx; intro y hG'; rotate_right; subst lx) | (refine keeps_cutH lx ?_ (fun _ => ?_); rotate_left; clear_value lx; revert lx; intro y hH; rotate_right; subst lx) | (refine keeps_cutU lx ?_ (fun _ => ?_); rotate_left; clear_value lx; revert lx; intro y hU; rotate_right; subst lx) | (clear_value lx; revert lx; intro y) | subst lx)
    | with_reducible apply setStk_keeps
    | with_reducible apply addWrap_keeps
    | with_reducible apply wrI_keeps
    | with_reducible apply wr_keeps
    | with_reducible apply wrB_keeps
    | with_reducible apply onlyIf_keeps
    | with_reducible apply raise_keeps
    | with_reducible apply addSat_keeps
    | with_reducible apply stkDrive_keeps
    | with_reducible apply later_keeps
    | with_reducible apply stkMove_keeps
    | with_reducible apply hF
    | with_reducible apply hG
    | with_reducible apply hG'
    | with_reducible apply hH
    | with_reducible apply hU
    | split
    | simp only [↓keeps_mk]

theorem stakeFire_keeps {n : Nat} {reads : List MemEcc} {s0 s : State} (hk : Keeps s0 s) : Keeps s0 (stakeFire n reads s) := by
  unfold stakeFire
  repeat' first
    | with_reducible assumption
    | (extract_lets +onlyGivenNames lx; first | (refine keeps_cut lx ?_ (fun _ => ?_); rotate_left; clear_value lx; revert lx; intro y hy; rotate_right; subst lx) | (clear_value lx; revert lx; intro y) | subst lx)
    | with_reducible apply stkFire_keeps
    | with_reducible apply stkMove_keeps
    | with_reducible apply stkSkip_keeps
    | split

theorem twLoad_keeps  {s0 s : State} (hk : Keeps s0 s) : Keeps s0 (twLoad s) := by
  unfold twLoad
  repeat' first
    | with_reducible assumption
    | (intro)
    | (extract_lets +onlyGivenNames lx; first | (refine keeps_cut lx ?_ (fun _ => ?_); rotate_left; clear_value lx; revert lx; intro y hy; rotate_right; subst lx) | (clear_value lx; revert lx; intro y) | subst lx)
    | with_reducible apply each_keeps
    | with_reducible apply wr_keeps

theorem tableAddrWrite_keeps {v : Nat} {s0 s : State} (hk : Keeps s0 s) : Keeps s0 (tableAddrWrite v s) := by
  unfold tableAddrWrite
  repeat' first
    | with_reducible assumption
    | with_reducible apply twLoad_keeps
    | with_reducible apply wr_keeps

theorem twAdvance_keeps  {s0 s : State} (hk : Keeps s0 s) : Keeps s0 (twAdvance s) := by
  unfold twAdvance
  repeat' first
    | with_reducible assumption
    | with_reducible apply twLoad_keeps
    | with_reducible apply wr_keeps

theorem tableStored_keeps {a : Nat} {s0 s : State} (hk : Keeps s0 s) : Keeps s0 (tableStored s a) := by
  unfold tableStored
  repeat' first
    | with_reducible assumption
    | (intro)
    | (extract_lets +onlyGivenNames lx; first | (refine keeps_cut lx ?_ (fun _ => ?_); rotate_left; clear_value lx; revert lx; intro y hy; rotate_right; subst lx) | (refine keeps_cutF lx ?_ (fun _ => ?_); rotate_left; clear_value lx; revert lx; intro y hF; rotate_right; subst lx) | (refine keeps_cutG lx ?_ (fun _ => ?_); rotate_left; clear_value lx; revert lx; intro y hG; rotate_right; subst lx) | (refine keeps_cutG' lx ?_ (fun _ => ?_); rotate_left; clear_value lx; revert lx; intro y hG'; rotate_right; subst lx) | (refine keeps_cutH lx ?_ (fun _ => ?_); rotate_left; clear_value lx; revert lx; intro y hH; rotate_right; subst lx) | (refine keeps_cutU lx ?_ (fun _ => ?_); rotate_left; clear_value lx; revert lx; intro y hU; rotate_right; subst lx) | (clear_value lx; revert lx; intro y) | subst lx)
    | with_reducible apply each_keeps
    | with_reducible apply onlyIf_keeps
    | with_reducible apply raise_keeps
    | with_reducible apply wr_keeps
    | with_reducible apply armShow_keeps
    | with_reducible apply armAt_keeps
    | with_reducible apply hF
    | with_reducible apply hG
    | with_reducible apply hG'
    | with_reducible apply hH
    | with_reducible apply hU
    | split

theorem sramStore_keeps {a : Nat} {v : BitVec 128} {s0 s : State} (hk : Keeps s0 s) : Keeps s0 (sramStore s a v) := by
  unfold sramStore
  repeat' first
    | with_reducible assumption
    | simp only [↓keeps_mk]

theorem tableData3Write_keeps {v : Nat} {s0 s : State} (hk : Keeps s0 s) : Keeps s0 (tableData3Write v s) := by
  unfold tableData3Write
  repeat' first
    | with_reducible assumption
    | (extract_lets +onlyGivenNames lx; first | (refine keeps_cut lx ?_ (fun _ => ?_); rotate_left; clear_value lx; revert lx; intro y hy; rotate_right; subst lx) | (clear_value lx; revert lx; intro y) | subst lx)
    | with_reducible apply wr_keeps
    | with_reducible apply twAdvance_keeps
    | with_reducible apply tableStored_keeps
    | with_reducible apply sramStore_keeps

theorem tableData3Read_keeps  {s0 s : State} (hk : Keeps s0 s) : Keeps s0 (tableData3Read s) := by
  unfold tableData3Read
  repeat' first
    | with_reducible assumption
    | with_reducible apply twAdvance_keeps

theorem setTpg_keeps {g : Nat} {x : TpgS} {s0 s : State} (hk : Keeps s0 s) : Keeps s0 (setTpg s g x) := by
  unfold setTpg
  repeat' first
    | with_reducible assumption
    | simp only [↓keeps_mk]

theorem tpgFlag_keeps {g : Nat} {f : FRef} {s0 s : State} (hk : Keeps s0 s) : Keeps s0 (tpgFlag s g f) := by
  unfold tpgFlag
  repeat' first
    | with_reducible assumption
    | with_reducible apply raise_keeps
    | with_reducible apply wr_keeps
    | split

theorem tpgArmOneShot_keeps {g : Nat} {s0 s : State} (hk : Keeps s0 s) : Keeps s0 (tpgArmOneShot s g) := by
  unfold tpgArmOneShot
  repeat' first
    | with_reducible assumption
    | with_reducible apply setTpg_keeps
    | with_reducible apply tpgFlag_keeps
    | split
    | simp only [↓keeps_mk]

theorem tpgFinish_keeps {g : Nat} {s0 s : State} (hk : Keeps s0 s) : Keeps s0 (tpgFinish s g) := by
  unfold tpgFinish
  repeat' first
    | with_reducible assumption
    | with_reducible apply wr_keeps

theorem tpgCounted_keeps {g : Nat} {s0 s : State} (hk : Keeps s0 s) : Keeps s0 (tpgCounted s g) := by
  unfold tpgCounted
  repeat' first
    | with_reducible assumption
    | (extract_lets +onlyGivenNames lx; first | (refine keeps_cut lx ?_ (fun _ => ?_); rotate_left; clear_value lx; revert lx; intro y hy; rotate_right; subst lx) | (clear_value lx; revert lx; intro y) | subst lx)
    | with_reducible apply tpgFinish_keeps
    | split

theorem tpgStart_keeps {g : Nat} {s0 s : State} (hk : Keeps s0 s) : Keeps s0 (tpgStart s g) := by
  unfold tpgStart
  repeat' first
    | with_reducible assumption
    | (extract_lets +onlyGivenNames lx; first | (refine keeps_cut lx ?_ (fun _ => ?_); rotate_left; clear_value lx; revert lx; intro y hy; rotate_right; subst lx) | (clear_value lx; revert lx; intro y) | subst lx)
    | with_reducible apply tpgCounted_keeps
    | with_reducible apply addSat_keeps
    | with_reducible apply setTpg_keeps
    | with_reducible apply tpgArmOneShot_keeps
    | split
    | simp only [↓keeps_mk]

theorem tpgEmit_keeps {g hop fr : Nat} {s0 s : State} (hk : Keeps s0 s) : Keeps s0 (tpgEmit s g hop fr) := by
  unfold tpgEmit
  repeat' first
    | with_reducible assumption
    | (intro)
    | (extract_lets +onlyGivenNames lx; first | ((first | refine keeps_cut lx ?_ (fun _ => ?_) | refine keeps_cut1 lx ?_ (fun _ => ?_)); rotate_left; clear_value lx; revert lx; intro y hy; rotate_right; subst lx) | (refine keeps_cutF lx ?_ (fun _ => ?_); rotate_left; clear_value lx; revert lx; intro y hF; rotate_right; subst lx) | (refine keeps_cutG lx ?_ (fun _ => ?_); rotate_left; clear_value lx; revert lx; intro y hG; rotate_right; subst lx) | (refine keeps_cutG' lx ?_ (fun _ => ?_); rotate_left; clear_value lx; revert lx; intro y hG'; rotate_right; subst lx) | (refine keeps_cutH lx ?_ (fun _ => ?_); rotate_left; clear_value lx; revert lx; intro y hH; rotate_right; subst lx) | (refine keeps_cutU lx ?_ (fun _ => ?_); rotate_left; clear_value lx; revert lx; intro y hU; rotate_right; subst lx) | (clear_value lx; revert lx; intro y) | subst lx)
    | with_reducible apply addWrap_keeps
    | with_reducible apply later_keeps
    | with_reducible apply setTpg_keeps
    | with_reducible apply each_keeps
    | with_reducible apply firePin_keeps
    | with_reducible apply fireCxp_keeps
    | with_reducible apply giveSample_keeps
    | with_reducible apply hF
    | with_reducible apply hG
    | with_reducible apply hG'
    | with_reducible apply hH
    | with_reducible apply hU
    | split
    | simp only [↓keeps_mk]

theorem tpgFire_keeps {g : Nat} {s0 s : State} (hk : Keeps s0 s) : Keeps s0 (tpgFire g s) := by
  unfold tpgFire
  repeat' first
    | with_reducible assumption
    | (extract_lets +onlyGivenNames lx; first | (refine keeps_cut lx ?_ (fun _ => ?_); rotate_left; clear_value lx; revert lx; intro y hy; rotate_right; subst lx) | (clear_value lx; revert lx; intro y) | subst lx)
    | with_reducible apply tpgEmit_keeps
    | with_reducible apply tpgCounted_keeps
    | with_reducible apply setTpg_keeps
    | split
    | simp only [↓keeps_mk]

theorem tpgDomStep_keeps {d : Nat} {fwd : Bool} {s0 s : State} (hk : Keeps s0 s) : Keeps s0 (tpgDomStep s d fwd) := by
  unfold tpgDomStep
  repeat' first
    | with_reducible assumption
    | (intro)
    | (extract_lets +onlyGivenNames lx; first | (refine keeps_cut lx ?_ (fun _ => ?_); rotate_left; clear_value lx; revert lx; intro y hy; rotate_right; subst lx) | (clear_value lx; revert lx; intro y) | subst lx)
    | with_reducible apply each_keeps
    | with_reducible apply tpgCounted_keeps
    | with_reducible apply addSat_keeps
    | with_reducible apply setTpg_keeps
    | with_reducible apply tpgEmit_keeps
    | with_reducible apply tpgFlag_keeps
    | split
    | simp only [↓keeps_mk]

theorem tpgStartWrite_keeps {g v : Nat} {s0 s : State} (hk : Keeps s0 s) : Keeps s0 (tpgStartWrite g v s) := by
  unfold tpgStartWrite
  repeat' first
    | with_reducible assumption
    | (extract_lets +onlyGivenNames lx; first | (refine keeps_cut lx ?_ (fun _ => ?_); rotate_left; clear_value lx; revert lx; intro y hy; rotate_right; subst lx) | (clear_value lx; revert lx; intro y) | subst lx)
    | with_reducible apply wr_keeps
    | with_reducible apply tpgArmOneShot_keeps
    | with_reducible apply tpgFlag_keeps
    | split

end Sys2Proof.Machine
end

