-- ==== Sys2Proof/Laws/KeepsCamera.lean ====
section
/-! SUPPORT. What every operation keeps (`Keeps`), one lemma per operation: camera lanes, mark lock and frame assembly. -/

set_option linter.all false

namespace Sys2Proof.Machine

theorem setLane_keeps {n : Nat} {x : LaneS} {s0 s : State} (hk : Keeps s0 s) : Keeps s0 (setLane s n x) := by
  unfold setLane
  repeat' first
    | with_reducible assumption
    | simp only [↓keeps_mk]

theorem setTrain_keeps {m st : Nat} {s0 s : State} (hk : Keeps s0 s) : Keeps s0 (setTrain s m st) := by
  unfold setTrain
  repeat' first
    | with_reducible assumption
    | (intro)
    | with_reducible apply each_keeps
    | with_reducible apply wr_keeps

theorem showMembers_keeps {m : Nat} {s0 s : State} (hk : Keeps s0 s) : Keeps s0 (showMembers s m) := by
  unfold showMembers
  repeat' first
    | with_reducible assumption
    | (intro)
    | with_reducible apply each_keeps
    | with_reducible apply wr_keeps

theorem clearMembers_keeps {m : Nat} {s0 s : State} (hk : Keeps s0 s) : Keeps s0 (clearMembers s m) := by
  unfold clearMembers
  repeat' first
    | with_reducible assumption
    | (intro)
    | with_reducible apply each_keeps
    | with_reducible apply wr_keeps

theorem cfgErrRecord_keeps {page stream reason : Nat} {s0 s : State} (hk : Keeps s0 s) : Keeps s0 (cfgErrRecord s page stream reason) := by
  unfold cfgErrRecord
  repeat' first
    | with_reducible assumption
    | with_reducible apply raise_keeps
    | with_reducible apply record_keeps

theorem laneDetect_keeps {m : Nat} {s0 s : State} (hk : Keeps s0 s) : Keeps s0 (laneDetect s m) := by
  unfold laneDetect
  repeat' first
    | with_reducible assumption
    | (intro)
    | (extract_lets +onlyGivenNames lx; first | (refine keeps_cut lx ?_ (fun _ => ?_); rotate_left; clear_value lx; revert lx; intro y hy; rotate_right; subst lx) | (refine keeps_cutF lx ?_ (fun _ => ?_); rotate_left; clear_value lx; revert lx; intro y hF; rotate_right; subst lx) | (refine keeps_cutG lx ?_ (fun _ => ?_); rotate_left; clear_value lx; revert lx; intro y hG; rotate_right; subst lx) | (refine keeps_cutG' lx ?_ (fun _ => ?_); rotate_left; clear_value lx; revert lx; intro y hG'; rotate_right; subst lx) | (refine keeps_cutH lx ?_ (fun _ => ?_); rotate_left; clear_value lx; revert lx; intro y hH; rotate_right; subst lx) | (refine keeps_cutU lx ?_ (fun _ => ?_); rotate_left; clear_value lx; revert lx; intro y hU; rotate_right; subst lx) | (clear_value lx; revert lx; intro y) | subst lx)
    | with_reducible apply each_keeps
    | with_reducible apply setLane_keeps
    | with_reducible apply setTrain_keeps
    | with_reducible apply wr_keeps
    | with_reducible apply hF
    | with_reducible apply hG
    | with_reducible apply hG'
    | with_reducible apply hH
    | with_reducible apply hU
    | simp only [↓keeps_mk]

theorem laneAgain_keeps {m : Nat} {s0 s : State} (hk : Keeps s0 s) : Keeps s0 (laneAgain s m) := by
  unfold laneAgain
  repeat' first
    | with_reducible assumption
    | with_reducible apply laneDetect_keeps
    | with_reducible apply setLane_keeps
    | simp only [↓keeps_mk]

theorem laneLoad_keeps {n : Nat} {s0 s : State} (hk : Keeps s0 s) : Keeps s0 (laneLoad s n) := by
  unfold laneLoad
  repeat' first
    | with_reducible assumption
    | (extract_lets +onlyGivenNames lx; first | (refine keeps_cut lx ?_ (fun _ => ?_); rotate_left; clear_value lx; revert lx; intro y hy; rotate_right; subst lx) | (clear_value lx; revert lx; intro y) | subst lx)
    | with_reducible apply setLane_keeps
    | with_reducible apply showMembers_keeps
    | with_reducible apply laneDetect_keeps
    | split
    | simp only [↓keeps_mk]

theorem laneDown_keeps {m cause : Nat} {s0 s : State} (hk : Keeps s0 s) : Keeps s0 (laneDown s m cause) := by
  unfold laneDown
  repeat' first
    | with_reducible assumption
    | (intro)
    | (extract_lets +onlyGivenNames lx; first | (refine keeps_cut lx ?_ (fun _ => ?_); rotate_left; clear_value lx; revert lx; intro y hy; rotate_right; subst lx) | (clear_value lx; revert lx; intro y) | subst lx)
    | with_reducible apply record_keeps
    | with_reducible apply ptpRestart_keeps
    | with_reducible apply setLane_keeps
    | with_reducible apply each_keeps
    | with_reducible apply raise_keeps
    | with_reducible apply wr_keeps
    | simp only [↓keeps_mk]

theorem laneOff_keeps {n : Nat} {s0 s : State} (hk : Keeps s0 s) : Keeps s0 (laneOff s n) := by
  unfold laneOff
  repeat' first
    | with_reducible assumption
    | (intro)
    | (extract_lets +onlyGivenNames lx; first | (refine keeps_cut lx ?_ (fun _ => ?_); rotate_left; clear_value lx; revert lx; intro y hy; rotate_right; subst lx) | (refine keeps_cutF lx ?_ (fun _ => ?_); rotate_left; clear_value lx; revert lx; intro y hF; rotate_right; subst lx) | (refine keeps_cutG lx ?_ (fun _ => ?_); rotate_left; clear_value lx; revert lx; intro y hG; rotate_right; subst lx) | (refine keeps_cutG' lx ?_ (fun _ => ?_); rotate_left; clear_value lx; revert lx; intro y hG'; rotate_right; subst lx) | (refine keeps_cutH lx ?_ (fun _ => ?_); rotate_left; clear_value lx; revert lx; intro y hH; rotate_right; subst lx) | (refine keeps_cutU lx ?_ (fun _ => ?_); rotate_left; clear_value lx; revert lx; intro y hU; rotate_right; subst lx) | (clear_value lx; revert lx; intro y) | subst lx)
    | with_reducible apply onlyIf_keeps
    | with_reducible apply laneDown_keeps
    | with_reducible apply clearMembers_keeps
    | with_reducible apply hF
    | with_reducible apply hG
    | with_reducible apply hG'
    | with_reducible apply hH
    | with_reducible apply hU
    | simp only [↓keeps_mk]

theorem linkErrors_keeps {n k : Nat} {s0 s : State} (hk : Keeps s0 s) : Keeps s0 (linkErrors s n k) := by
  unfold linkErrors
  repeat' first
    | with_reducible assumption
    | with_reducible apply windowInc_keeps

theorem alignLoss_keeps {m : Nat} {s0 s : State} (hk : Keeps s0 s) : Keeps s0 (alignLoss s m) := by
  unfold alignLoss
  repeat' first
    | with_reducible assumption
    | with_reducible apply linkErrors_keeps
    | with_reducible apply addSat_keeps

theorem streamsUp_keeps {m : Nat} {s0 s : State} (hk : Keeps s0 s) : Keeps s0 (streamsUp s m) := by
  unfold streamsUp
  repeat' first
    | with_reducible assumption
    | (intro)
    | (extract_lets +onlyGivenNames lx; first | (refine keeps_cut lx ?_ (fun _ => ?_); rotate_left; clear_value lx; revert lx; intro y hy; rotate_right; subst lx) | (clear_value lx; revert lx; intro y) | subst lx)
    | with_reducible apply each_keeps
    | with_reducible apply wr_keeps
    | with_reducible apply setStr_keeps

theorem gvcpTake_keeps {n : Nat} {s0 s : State} (hk : Keeps s0 s) : Keeps s0 (gvcpTake s n) := by
  unfold gvcpTake
  repeat' first
    | with_reducible assumption
    | with_reducible apply send_keeps
    | with_reducible apply setLane_keeps
    | split
    | simp only [↓keeps_mk]

theorem laneUp_keeps {m : Nat} {s0 s : State} (hk : Keeps s0 s) : Keeps s0 (laneUp s m) := by
  unfold laneUp
  repeat' first
    | with_reducible assumption
    | (intro)
    | (extract_lets +onlyGivenNames lx; first | (refine keeps_cut lx ?_ (fun _ => ?_); rotate_left; clear_value lx; revert lx; intro y hy; rotate_right; subst lx) | (clear_value lx; revert lx; intro y) | subst lx)
    | with_reducible apply setTrain_keeps
    | with_reducible apply wr_keeps
    | with_reducible apply record_keeps
    | with_reducible apply streamsUp_keeps
    | with_reducible apply gvcpTake_keeps
    | with_reducible apply each_keeps
    | with_reducible apply raise_keeps

theorem discoveryRun_keeps {m : Nat} {s0 s : State} (hk : Keeps s0 s) : Keeps s0 (discoveryRun s m) := by
  unfold discoveryRun
  repeat' first
    | with_reducible assumption
    | (intro)
    | with_reducible apply send_keeps
    | with_reducible apply setTrain_keeps
    | with_reducible apply each_keeps
    | with_reducible apply setLane_keeps
    | simp only [↓keeps_mk]

theorem laneDiscover_keeps {m : Nat} {d : Discovered} {s0 s : State} (hk : Keeps s0 s) : Keeps s0 (laneDiscover s m d) := by
  unfold laneDiscover
  repeat' first
    | with_reducible assumption
    | (extract_lets +onlyGivenNames lx; first | (refine keeps_cut lx ?_ (fun _ => ?_); rotate_left; clear_value lx; revert lx; intro y hy; rotate_right; subst lx) | (clear_value lx; revert lx; intro y) | subst lx)
    | with_reducible apply clearMembers_keeps
    | with_reducible apply laneDetect_keeps
    | with_reducible apply wr_keeps
    | with_reducible apply setLane_keeps
    | with_reducible apply showMembers_keeps
    | simp only [↓keeps_mk]

theorem laneSignalDetect_keeps {n : Nat} {disc : Option Discovered} {s0 s : State} (hk : Keeps s0 s) : Keeps s0 (laneSignalDetect n disc s) := by
  unfold laneSignalDetect
  repeat' first
    | with_reducible assumption
    | (intro)
    | (extract_lets +onlyGivenNames lx; first | (refine keeps_cut lx ?_ (fun _ => ?_); rotate_left; clear_value lx; revert lx; intro y hy; rotate_right; subst lx) | (refine keeps_cutF lx ?_ (fun _ => ?_); rotate_left; clear_value lx; revert lx; intro y hF; rotate_right; subst lx) | (refine keeps_cutG lx ?_ (fun _ => ?_); rotate_left; clear_value lx; revert lx; intro y hG; rotate_right; subst lx) | (refine keeps_cutG' lx ?_ (fun _ => ?_); rotate_left; clear_value lx; revert lx; intro y hG'; rotate_right; subst lx) | (refine keeps_cutH lx ?_ (fun _ => ?_); rotate_left; clear_value lx; revert lx; intro y hH; rotate_right; subst lx) | (refine keeps_cutU lx ?_ (fun _ => ?_); rotate_left; clear_value lx; revert lx; intro y hU; rotate_right; subst lx) | (clear_value lx; revert lx; intro y) | subst lx)
    | with_reducible apply each_keeps
    | with_reducible apply wr_keeps
    | with_reducible apply setTrain_keeps
    | with_reducible apply discoveryRun_keeps
    | with_reducible apply laneDiscover_keeps
    | with_reducible apply hF
    | with_reducible apply hG
    | with_reducible apply hG'
    | with_reducible apply hH
    | with_reducible apply hU
    | split
    | simp only [↓keeps_mk]

theorem laneNoSignal_keeps {n : Nat} {s0 s : State} (hk : Keeps s0 s) : Keeps s0 (laneNoSignal n s) := by
  unfold laneNoSignal
  repeat' first
    | with_reducible assumption
    | (intro)
    | (extract_lets +onlyGivenNames lx; first | (refine keeps_cut lx ?_ (fun _ => ?_); rotate_left; clear_value lx; revert lx; intro y hy; rotate_right; subst lx) | (refine keeps_cutF lx ?_ (fun _ => ?_); rotate_left; clear_value lx; revert lx; intro y hF; rotate_right; subst lx) | (refine keeps_cutG lx ?_ (fun _ => ?_); rotate_left; clear_value lx; revert lx; intro y hG; rotate_right; subst lx) | (refine keeps_cutG' lx ?_ (fun _ => ?_); rotate_left; clear_value lx; revert lx; intro y hG'; rotate_right; subst lx) | (refine keeps_cutH lx ?_ (fun _ => ?_); rotate_left; clear_value lx; revert lx; intro y hH; rotate_right; subst lx) | (refine keeps_cutU lx ?_ (fun _ => ?_); rotate_left; clear_value lx; revert lx; intro y hU; rotate_right; subst lx) | (clear_value lx; revert lx; intro y) | subst lx)
    | with_reducible apply each_keeps
    | with_reducible apply wr_keeps
    | with_reducible apply record_keeps
    | with_reducible apply raise_keeps
    | with_reducible apply hF
    | with_reducible apply hG
    | with_reducible apply hG'
    | with_reducible apply hH
    | with_reducible apply hU
    | split

theorem laneAligned_keeps {n : Nat} {s0 s : State} (hk : Keeps s0 s) : Keeps s0 (laneAligned n s) := by
  unfold laneAligned
  repeat' first
    | with_reducible assumption
    | (extract_lets +onlyGivenNames lx; first | (refine keeps_cut lx ?_ (fun _ => ?_); rotate_left; clear_value lx; revert lx; intro y hy; rotate_right; subst lx) | (clear_value lx; revert lx; intro y) | subst lx)
    | with_reducible apply setTrain_keeps
    | with_reducible apply laneUp_keeps
    | split

theorem laneAlignTimeout_keeps {n : Nat} {s0 s : State} (hk : Keeps s0 s) : Keeps s0 (laneAlignTimeout n s) := by
  unfold laneAlignTimeout
  repeat' first
    | with_reducible assumption
    | (extract_lets +onlyGivenNames lx; first | (refine keeps_cut lx ?_ (fun _ => ?_); rotate_left; clear_value lx; revert lx; intro y hy; rotate_right; subst lx) | (clear_value lx; revert lx; intro y) | subst lx)
    | with_reducible apply alignLoss_keeps
    | with_reducible apply laneAgain_keeps
    | split

theorem skewsShow_keeps {l : List (Nat × Nat)} {s0 s : State} (hk : Keeps s0 s) : Keeps s0 (skewsShow l s) := by
  unfold skewsShow
  repeat' first
    | with_reducible assumption
    | (intro)
    | with_reducible apply each_keeps
    | with_reducible apply wr_keeps

theorem laneDeskewDone_keeps {n : Nat} {skews : List Nat} {s0 s : State} (hk : Keeps s0 s) : Keeps s0 (laneDeskewDone n skews s) := by
  unfold laneDeskewDone
  repeat' first
    | with_reducible assumption
    | (intro)
    | (extract_lets +onlyGivenNames lx; first | (refine keeps_cut lx ?_ (fun _ => ?_); rotate_left; clear_value lx; revert lx; intro y hy; rotate_right; subst lx) | (clear_value lx; revert lx; intro y) | subst lx)
    | with_reducible apply laneUp_keeps
    | with_reducible apply skewsShow_keeps
    | with_reducible apply alignLoss_keeps
    | with_reducible apply laneAgain_keeps
    | split

theorem lanesReskew_keeps {l : List (Nat × Nat)} {s0 s : State} (hk : Keeps s0 s) : Keeps s0 (lanesReskew l s) := by
  unfold lanesReskew
  repeat' first
    | with_reducible assumption
    | (intro)
    | with_reducible apply skewsShow_keeps

theorem cxpTests_keeps  {s0 s : State} (hk : Keeps s0 s) : Keeps s0 (cxpTests s) := by
  unfold cxpTests
  repeat' first
    | with_reducible assumption
    | (intro)
    | with_reducible apply each_keeps
    | with_reducible apply send_keeps

theorem laneLinkLoss_keeps {n : Nat} {cause : LossCause} {s0 s : State} (hk : Keeps s0 s) : Keeps s0 (laneLinkLoss n cause s) := by
  unfold laneLinkLoss
  repeat' first
    | with_reducible assumption
    | (extract_lets +onlyGivenNames lx; first | (refine keeps_cut lx ?_ (fun _ => ?_); rotate_left; clear_value lx; revert lx; intro y hy; rotate_right; subst lx) | (clear_value lx; revert lx; intro y) | subst lx)
    | with_reducible apply wr_keeps
    | with_reducible apply addSat_keeps
    | with_reducible apply laneAgain_keeps
    | with_reducible apply linkErrors_keeps
    | with_reducible apply laneDown_keeps
    | split
    | simp only [↓keeps_mk]

theorem laneRetrain_keeps {n : Nat} {s0 s : State} (hk : Keeps s0 s) : Keeps s0 (laneRetrain n s) := by
  unfold laneRetrain
  repeat' first
    | with_reducible assumption
    | (intro)
    | (extract_lets +onlyGivenNames lx; first | (refine keeps_cut lx ?_ (fun _ => ?_); rotate_left; clear_value lx; revert lx; intro y hy; rotate_right; subst lx) | (refine keeps_cutF lx ?_ (fun _ => ?_); rotate_left; clear_value lx; revert lx; intro y hF; rotate_right; subst lx) | (refine keeps_cutG lx ?_ (fun _ => ?_); rotate_left; clear_value lx; revert lx; intro y hG; rotate_right; subst lx) | (refine keeps_cutG' lx ?_ (fun _ => ?_); rotate_left; clear_value lx; revert lx; intro y hG'; rotate_right; subst lx) | (refine keeps_cutH lx ?_ (fun _ => ?_); rotate_left; clear_value lx; revert lx; intro y hH; rotate_right; subst lx) | (refine keeps_cutU lx ?_ (fun _ => ?_); rotate_left; clear_value lx; revert lx; intro y hU; rotate_right; subst lx) | (clear_value lx; revert lx; intro y) | subst lx)
    | with_reducible apply each_keeps
    | with_reducible apply addSat_keeps
    | with_reducible apply setTrain_keeps
    | with_reducible apply raise_keeps
    | with_reducible apply laneDown_keeps
    | with_reducible apply hF
    | with_reducible apply hG
    | with_reducible apply hG'
    | with_reducible apply hH
    | with_reducible apply hU
    | split

theorem laneRetrainDone_keeps {n : Nat} {s0 s : State} (hk : Keeps s0 s) : Keeps s0 (laneRetrainDone n s) := by
  unfold laneRetrainDone
  repeat' first
    | with_reducible assumption
    | (extract_lets +onlyGivenNames lx; first | (refine keeps_cut lx ?_ (fun _ => ?_); rotate_left; clear_value lx; revert lx; intro y hy; rotate_right; subst lx) | (clear_value lx; revert lx; intro y) | subst lx)
    | with_reducible apply laneAgain_keeps
    | split

theorem ctlEnd_keeps {n err code addr : Nat} {s0 s : State} (hk : Keeps s0 s) : Keeps s0 (ctlEnd s n err code addr) := by
  unfold ctlEnd
  repeat' first
    | with_reducible assumption
    | (extract_lets +onlyGivenNames lx; first | (refine keeps_cut lx ?_ (fun _ => ?_); rotate_left; clear_value lx; revert lx; intro y hy; rotate_right; subst lx) | (clear_value lx; revert lx; intro y) | subst lx)
    | with_reducible apply wr_keeps
    | with_reducible apply raise_keeps
    | with_reducible apply record_keeps
    | split

theorem camCtl_keeps {n : Nat} {write : Bool} {len : Nat} {s0 s : State} (hk : Keeps s0 s) : Keeps s0 (camCtl n write len s) := by
  unfold camCtl
  repeat' first
    | with_reducible assumption
    | (extract_lets +onlyGivenNames lx; first | (refine keeps_cut lx ?_ (fun _ => ?_); rotate_left; clear_value lx; revert lx; intro y hy; rotate_right; subst lx) | (clear_value lx; revert lx; intro y) | subst lx)
    | with_reducible apply ctlEnd_keeps
    | with_reducible apply wr_keeps
    | with_reducible apply setLane_keeps
    | with_reducible apply send_keeps
    | split
    | simp only [↓keeps_mk]

theorem crcError_keeps {n : Nat} {s0 s : State} (hk : Keeps s0 s) : Keeps s0 (crcError s n) := by
  unfold crcError
  repeat' first
    | with_reducible assumption
    | with_reducible apply linkErrors_keeps
    | with_reducible apply addSat_keeps

theorem camCtlAnswer_keeps {n code : Nat} {x : CtlAnswer} {s0 s : State} (hk : Keeps s0 s) : Keeps s0 (camCtlAnswer n code x s) := by
  unfold camCtlAnswer
  repeat' first
    | with_reducible assumption
    | (intro)
    | (extract_lets +onlyGivenNames lx; first | (refine keeps_cut lx ?_ (fun _ => ?_); rotate_left; clear_value lx; revert lx; intro y hy; rotate_right; subst lx) | (refine keeps_cutF lx ?_ (fun _ => ?_); rotate_left; clear_value lx; revert lx; intro y hF; rotate_right; subst lx) | (refine keeps_cutG lx ?_ (fun _ => ?_); rotate_left; clear_value lx; revert lx; intro y hG; rotate_right; subst lx) | (refine keeps_cutG' lx ?_ (fun _ => ?_); rotate_left; clear_value lx; revert lx; intro y hG'; rotate_right; subst lx) | (refine keeps_cutH lx ?_ (fun _ => ?_); rotate_left; clear_value lx; revert lx; intro y hH; rotate_right; subst lx) | (refine keeps_cutU lx ?_ (fun _ => ?_); rotate_left; clear_value lx; revert lx; intro y hU; rotate_right; subst lx) | (clear_value lx; revert lx; intro y) | subst lx)
    | with_reducible apply crcError_keeps
    | with_reducible apply wr_keeps
    | with_reducible apply setLane_keeps
    | with_reducible apply ctlEnd_keeps
    | with_reducible apply onlyIf_keeps
    | with_reducible apply ramStore_keeps
    | with_reducible apply hF
    | with_reducible apply hG
    | with_reducible apply hG'
    | with_reducible apply hH
    | with_reducible apply hU
    | split
    | simp only [↓keeps_mk]

theorem camCtlTimeout_keeps {n : Nat} {s0 s : State} (hk : Keeps s0 s) : Keeps s0 (camCtlTimeout n s) := by
  unfold camCtlTimeout
  repeat' first
    | with_reducible assumption
    | with_reducible apply ctlEnd_keeps
    | with_reducible apply wr_keeps
    | with_reducible apply setLane_keeps
    | split
    | simp only [↓keeps_mk]

theorem rawPush_keeps {n kind : Nat} {data : List Byte} {s0 s : State} (hk : Keeps s0 s) : Keeps s0 (rawPush s n kind data) := by
  unfold rawPush
  repeat' first
    | with_reducible assumption
    | (extract_lets +onlyGivenNames lx; first | (refine keeps_cut lx ?_ (fun _ => ?_); rotate_left; clear_value lx; revert lx; intro y hy; rotate_right; subst lx) | (clear_value lx; revert lx; intro y) | subst lx)
    | with_reducible apply addSat_keeps
    | with_reducible apply wr_keeps
    | with_reducible apply setLane_keeps
    | with_reducible apply raise_keeps
    | split
    | simp only [↓keeps_mk]

theorem rawRxPop_keeps {n : Nat} {s0 s : State} (hk : Keeps s0 s) : Keeps s0 (rawRxPop n s) := by
  unfold rawRxPop
  repeat' first
    | with_reducible assumption
    | (extract_lets +onlyGivenNames lx; first | (refine keeps_cut lx ?_ (fun _ => ?_); rotate_left; clear_value lx; revert lx; intro y hy; rotate_right; subst lx) | (clear_value lx; revert lx; intro y) | subst lx)
    | with_reducible apply wr_keeps
    | with_reducible apply setLane_keeps
    | simp only [↓keeps_mk]

theorem rawTxOver_keeps {n : Nat} {s0 s : State} (hk : Keeps s0 s) : Keeps s0 (rawTxOver s n) := by
  unfold rawTxOver
  repeat' first
    | with_reducible assumption
    | with_reducible apply wr_keeps
    | with_reducible apply setLane_keeps
    | split
    | simp only [↓keeps_mk]

theorem rawTxSend_keeps {n len : Nat} {s0 s : State} (hk : Keeps s0 s) : Keeps s0 (rawTxSend n len s) := by
  unfold rawTxSend
  repeat' first
    | with_reducible assumption
    | (extract_lets +onlyGivenNames lx; first | (refine keeps_cut lx ?_ (fun _ => ?_); rotate_left; clear_value lx; revert lx; intro y hy; rotate_right; subst lx) | (clear_value lx; revert lx; intro y) | subst lx)
    | with_reducible apply rawTxOver_keeps
    | with_reducible apply wr_keeps
    | with_reducible apply send_keeps
    | with_reducible apply setLane_keeps
    | with_reducible apply ptpEgress_keeps
    | split
    | simp only [↓keeps_mk]

theorem rxPush_keeps {st : Nat} {r : RxLine} {s0 s : State} (hk : Keeps s0 s) : Keeps s0 (rxPush s st r) := by
  unfold rxPush
  repeat' first
    | with_reducible assumption
    | with_reducible apply setStr_keeps
    | simp only [↓keeps_mk]

theorem lineStrobe_keeps {st : Nat} {s0 s : State} (hk : Keeps s0 s) : Keeps s0 (lineStrobe s st).1 := by
  unfold lineStrobe
  repeat' first
    | with_reducible assumption
    | (extract_lets +onlyGivenNames lx; first | (refine keeps_cut lx ?_ (fun _ => ?_); rotate_left; clear_value lx; revert lx; intro y hy; rotate_right; subst lx) | (clear_value lx; revert lx; intro y) | subst lx)
    | with_reducible apply giveSample_keeps
    | split

theorem sizeErr_keeps {st w h code : Nat} {s0 s : State} (hk : Keeps s0 s) : Keeps s0 (sizeErr s st w h code) := by
  unfold sizeErr
  repeat' first
    | with_reducible assumption
    | (extract_lets +onlyGivenNames lx; first | (refine keeps_cut lx ?_ (fun _ => ?_); rotate_left; clear_value lx; revert lx; intro y hy; rotate_right; subst lx) | (clear_value lx; revert lx; intro y) | subst lx)
    | with_reducible apply addSat_keeps
    | with_reducible apply wr_keeps
    | with_reducible apply record_keeps
    | with_reducible apply raise_keeps

theorem cutLines_keeps  {a0 : Nat} {a2 : Nat} {a3 : Nat} {a4 : Bool} {a5 : List Byte} {s0 s : State} (hk : Keeps s0 s) : Keeps s0 (cutLines a0 s a2 a3 a4 a5) := by
  induction a0 generalizing s a2 a3 a4 a5 with
  | zero => exact hk
  | succ n ih =>
    unfold cutLines
    repeat' first
      | with_reducible assumption
      | (intro)
      | (extract_lets +onlyGivenNames lx; first | ((first | refine keeps_cut lx ?_ (fun _ => ?_) | refine keeps_cut1 lx ?_ (fun _ => ?_) | refine keeps_cut2 lx ?_ (fun _ => ?_)); rotate_left; clear_value lx; revert lx; intro y hy; rotate_right; subst lx) | (refine keeps_cutF lx ?_ (fun _ => ?_); rotate_left; clear_value lx; revert lx; intro y hF; rotate_right; subst lx) | (refine keeps_cutG lx ?_ (fun _ => ?_); rotate_left; clear_value lx; revert lx; intro y hG; rotate_right; subst lx) | (refine keeps_cutG' lx ?_ (fun _ => ?_); rotate_left; clear_value lx; revert lx; intro y hG'; rotate_right; subst lx) | (refine keeps_cutH lx ?_ (fun _ => ?_); rotate_left; clear_value lx; revert lx; intro y hH; rotate_right; subst lx) | (refine keeps_cutU lx ?_ (fun _ => ?_); rotate_left; clear_value lx; revert lx; intro y hU; rotate_right; subst lx) | (clear_value lx; revert lx; intro y) | subst lx)
      | with_reducible apply ih
      | with_reducible apply lineStrobe_keeps
      | with_reducible apply setStr_keeps
      | with_reducible apply rxPush_keeps
      | with_reducible apply onlyIf_keeps
      | with_reducible apply addWrap_keeps
      | with_reducible apply wr_keeps
      | with_reducible apply hF
      | with_reducible apply hG
      | with_reducible apply hG'
      | with_reducible apply hH
      | with_reducible apply hU
      | split
      | simp only [↓keeps_mk]

theorem cxpHeader_keeps {st w h : Nat} {ok : Bool} {s0 s : State} (hk : Keeps s0 s) : Keeps s0 (cxpHeader s st w h ok) := by
  unfold cxpHeader
  repeat' first
    | with_reducible assumption
    | (intro)
    | (extract_lets +onlyGivenNames lx; first | ((first | refine keeps_cut lx ?_ (fun _ => ?_) | refine keeps_cut1 lx ?_ (fun _ => ?_) | refine keeps_cut2 lx ?_ (fun _ => ?_)); rotate_left; clear_value lx; revert lx; intro y hy; rotate_right; subst lx) | (refine keeps_cutF lx ?_ (fun _ => ?_); rotate_left; clear_value lx; revert lx; intro y hF; rotate_right; subst lx) | (refine keeps_cutG lx ?_ (fun _ => ?_); rotate_left; clear_value lx; revert lx; intro y hG; rotate_right; subst lx) | (refine keeps_cutG' lx ?_ (fun _ => ?_); rotate_left; clear_value lx; revert lx; intro y hG'; rotate_right; subst lx) | (refine keeps_cutH lx ?_ (fun _ => ?_); rotate_left; clear_value lx; revert lx; intro y hH; rotate_right; subst lx) | (refine keeps_cutU lx ?_ (fun _ => ?_); rotate_left; clear_value lx; revert lx; intro y hU; rotate_right; subst lx) | (clear_value lx; revert lx; intro y) | subst lx)
    | with_reducible apply lineStrobe_keeps
    | with_reducible apply setStr_keeps
    | with_reducible apply wr_keeps
    | with_reducible apply onlyIf_keeps
    | with_reducible apply addWrap_keeps
    | with_reducible apply sizeErr_keeps
    | with_reducible apply hF
    | with_reducible apply hG
    | with_reducible apply hG'
    | with_reducible apply hH
    | with_reducible apply hU
    | split
    | simp only [↓keeps_mk]

theorem cxpDeliver_keeps {st : Nat} {p : HeldPkt} {s0 s : State} (hk : Keeps s0 s) : Keeps s0 (cxpDeliver s st p) := by
  unfold cxpDeliver
  repeat' first
    | with_reducible assumption
    | with_reducible apply cxpHeader_keeps
    | with_reducible apply cutLines_keeps
    | split
    | simp only [↓keeps_mk]

theorem cxpDrain_keeps  {a0 : Nat} {a2 : Nat} {s0 s : State} (hk : Keeps s0 s) : Keeps s0 (cxpDrain a0 s a2) := by
  induction a0 generalizing s a2 with
  | zero => exact hk
  | succ n ih =>
    unfold cxpDrain
    repeat' first
      | with_reducible assumption
      | (intro)
      | (extract_lets +onlyGivenNames lx; first | (refine keeps_cut lx ?_ (fun _ => ?_); rotate_left; clear_value lx; revert lx; intro y hy; rotate_right; subst lx) | (refine keeps_cutF lx ?_ (fun _ => ?_); rotate_left; clear_value lx; revert lx; intro y hF; rotate_right; subst lx) | (refine keeps_cutG lx ?_ (fun _ => ?_); rotate_left; clear_value lx; revert lx; intro y hG; rotate_right; subst lx) | (refine keeps_cutG' lx ?_ (fun _ => ?_); rotate_left; clear_value lx; revert lx; intro y hG'; rotate_right; subst lx) | (refine keeps_cutH lx ?_ (fun _ => ?_); rotate_left; clear_value lx; revert lx; intro y hH; rotate_right; subst lx) | (refine keeps_cutU lx ?_ (fun _ => ?_); rotate_left; clear_value lx; revert lx; intro y hU; rotate_right; subst lx) | (clear_value lx; revert lx; intro y) | subst lx)
      | with_reducible apply ih
      | with_reducible apply setStr_keeps
      | with_reducible apply cxpDeliver_keeps
      | with_reducible apply foldl_keeps
      | with_reducible apply hF
      | with_reducible apply hG
      | with_reducible apply hG'
      | with_reducible apply hH
      | with_reducible apply hU
      | split
      | simp only [↓keeps_mk]

theorem cxpHold_keeps {st : Nat} {p : HeldPkt} {s0 s : State} (hk : Keeps s0 s) : Keeps s0 (cxpHold s st p) := by
  unfold cxpHold
  repeat' first
    | with_reducible assumption
    | (extract_lets +onlyGivenNames lx; first | (refine keeps_cut lx ?_ (fun _ => ?_); rotate_left; clear_value lx; revert lx; intro y hy; rotate_right; subst lx) | (clear_value lx; revert lx; intro y) | subst lx)
    | with_reducible apply cxpDrain_keeps
    | with_reducible apply setStr_keeps
    | split
    | simp only [↓keeps_mk]

theorem ingressDrop_keeps {n st size : Nat} {s0 s : State} (hk : Keeps s0 s) : Keeps s0 (ingressDrop s n st size) := by
  unfold ingressDrop
  repeat' first
    | with_reducible assumption
    | (extract_lets +onlyGivenNames lx; first | (refine keeps_cut lx ?_ (fun _ => ?_); rotate_left; clear_value lx; revert lx; intro y hy; rotate_right; subst lx) | (clear_value lx; revert lx; intro y) | subst lx)
    | with_reducible apply addSat_keeps
    | with_reducible apply record_keeps
    | with_reducible apply raise_keeps

theorem cxpEventPacket_keeps {n : Nat} {crcOk : Bool} {data : List Byte} {s0 s : State} (hk : Keeps s0 s) : Keeps s0 (cxpEventPacket n crcOk data s) := by
  unfold cxpEventPacket
  repeat' first
    | with_reducible assumption
    | with_reducible apply crcError_keeps
    | with_reducible apply rawPush_keeps
    | split

theorem cxpStreamPacket_keeps {n : Nat} {x : CxpPacket} {s0 s : State} (hk : Keeps s0 s) : Keeps s0 (cxpStreamPacket n x s) := by
  unfold cxpStreamPacket
  repeat' first
    | with_reducible assumption
    | (intro)
    | (extract_lets +onlyGivenNames lx; first | (refine keeps_cut lx ?_ (fun _ => ?_); rotate_left; clear_value lx; revert lx; intro y hy; rotate_right; subst lx) | (refine keeps_cutF lx ?_ (fun _ => ?_); rotate_left; clear_value lx; revert lx; intro y hF; rotate_right; subst lx) | (refine keeps_cutG lx ?_ (fun _ => ?_); rotate_left; clear_value lx; revert lx; intro y hG; rotate_right; subst lx) | (refine keeps_cutG' lx ?_ (fun _ => ?_); rotate_left; clear_value lx; revert lx; intro y hG'; rotate_right; subst lx) | (refine keeps_cutH lx ?_ (fun _ => ?_); rotate_left; clear_value lx; revert lx; intro y hH; rotate_right; subst lx) | (refine keeps_cutU lx ?_ (fun _ => ?_); rotate_left; clear_value lx; revert lx; intro y hU; rotate_right; subst lx) | (clear_value lx; revert lx; intro y) | subst lx)
    | with_reducible apply onlyIf_keeps
    | with_reducible apply crcError_keeps
    | with_reducible apply linkErrors_keeps
    | with_reducible apply addSat_keeps
    | with_reducible apply ingressDrop_keeps
    | with_reducible apply cxpDeliver_keeps
    | with_reducible apply cxpHold_keeps
    | with_reducible apply hF
    | with_reducible apply hG
    | with_reducible apply hG'
    | with_reducible apply hH
    | with_reducible apply hU
    | split
    | simp only [↓keeps_mk]

theorem setBlock_keeps {st blk : Nat} {g : GvspBlock → GvspBlock} {s0 s : State} (hk : Keeps s0 s) : Keeps s0 (setBlock s st blk g) := by
  unfold setBlock
  repeat' first
    | with_reducible assumption
    | (intro)
    | with_reducible apply setStr_keeps
    | split
    | simp only [↓keeps_mk]

theorem gvspRowBegin_keeps {st blk r : Nat} {s0 s : State} (hk : Keeps s0 s) : Keeps s0 (gvspRowBegin s st blk r) := by
  unfold gvspRowBegin
  repeat' first
    | with_reducible assumption
    | (intro)
    | (extract_lets +onlyGivenNames lx; first | ((first | refine keeps_cut lx ?_ (fun _ => ?_) | refine keeps_cut1 lx ?_ (fun _ => ?_) | refine keeps_cut2 lx ?_ (fun _ => ?_)); rotate_left; clear_value lx; revert lx; intro y hy; rotate_right; subst lx) | (clear_value lx; revert lx; intro y) | subst lx)
    | with_reducible apply lineStrobe_keeps
    | with_reducible apply setBlock_keeps
    | split
    | simp only [↓keeps_mk]

theorem gvspRowOut_keeps {st n : Nat} {b : GvspBlock} {r : Nat} {d : Option (List Byte)} {s0 s : State} (hk : Keeps s0 s) : Keeps s0 (gvspRowOut s st n b r d) := by
  unfold gvspRowOut
  repeat' first
    | with_reducible assumption
    | (intro)
    | (extract_lets +onlyGivenNames lx; first | ((first | refine keeps_cut lx ?_ (fun _ => ?_) | refine keeps_cut1 lx ?_ (fun _ => ?_) | refine keeps_cut2 lx ?_ (fun _ => ?_)); rotate_left; clear_value lx; revert lx; intro y hy; rotate_right; subst lx) | (clear_value lx; revert lx; intro y) | subst lx)
    | with_reducible apply rxPush_keeps
    | with_reducible apply onlyIf_keeps
    | with_reducible apply addWrap_keeps
    | split

theorem gvspRows_keeps  {a0 : Nat} {a2 : Nat} {a3 : Nat} {a4 : Bool} {a5 : GvspBlock} {s0 s : State} (hk : Keeps s0 s) : Keeps s0 (gvspRows a0 s a2 a3 a4 a5).1 := by
  induction a0 generalizing s a2 a3 a4 a5 with
  | zero => exact hk
  | succ n ih =>
    unfold gvspRows
    repeat' first
      | with_reducible assumption
      | (extract_lets +onlyGivenNames lx; first | (refine keeps_cut lx ?_ (fun _ => ?_); rotate_left; clear_value lx; revert lx; intro y hy; rotate_right; subst lx) | (clear_value lx; revert lx; intro y) | subst lx)
      | with_reducible apply ih
      | with_reducible apply gvspRowOut_keeps
      | split
      | simp only [↓keeps_mk]

theorem gvspDrain_keeps  {a0 : Nat} {a2 : Nat} {a3 : Nat} {s0 s : State} (hk : Keeps s0 s) : Keeps s0 (gvspDrain a0 s a2 a3) := by
  induction a0 generalizing s a2 a3 with
  | zero => exact hk
  | succ n ih =>
    unfold gvspDrain
    repeat' first
      | with_reducible assumption
      | (extract_lets +onlyGivenNames lx; first | ((first | refine keeps_cut lx ?_ (fun _ => ?_) | refine keeps_cut1 lx ?_ (fun _ => ?_) | refine keeps_cut2 lx ?_ (fun _ => ?_)); rotate_left; clear_value lx; revert lx; intro y hy; rotate_right; subst lx) | (clear_value lx; revert lx; intro y) | subst lx)
      | with_reducible apply ih
      | with_reducible apply wr_keeps
      | with_reducible apply gvspRows_keeps
      | with_reducible apply setStr_keeps
      | split
      | simp only [↓keeps_mk]

theorem gvspBegin_keeps {st : Nat} {p : GvspPkt} {leader : Bool} {s0 s : State} (hk : Keeps s0 s) : Keeps s0 (gvspBegin s st p leader) := by
  unfold gvspBegin
  repeat' first
    | with_reducible assumption
    | (extract_lets +onlyGivenNames lx; first | (refine keeps_cut lx ?_ (fun _ => ?_); rotate_left; clear_value lx; revert lx; intro y hy; rotate_right; subst lx) | (clear_value lx; revert lx; intro y) | subst lx)
    | with_reducible apply setStr_keeps
    | split
    | simp only [↓keeps_mk]

theorem gvspLeader_keeps {st : Nat} {p : GvspPkt} {w h code : Nat} {s0 s : State} (hk : Keeps s0 s) : Keeps s0 (gvspLeader s st p w h code) := by
  unfold gvspLeader
  repeat' first
    | with_reducible assumption
    | (intro)
    | (extract_lets +onlyGivenNames lx; first | ((first | refine keeps_cut lx ?_ (fun _ => ?_) | refine keeps_cut1 lx ?_ (fun _ => ?_) | refine keeps_cut2 lx ?_ (fun _ => ?_)); rotate_left; clear_value lx; revert lx; intro y hy; rotate_right; subst lx) | (refine keeps_cutF lx ?_ (fun _ => ?_); rotate_left; clear_value lx; revert lx; intro y hF; rotate_right; subst lx) | (refine keeps_cutG lx ?_ (fun _ => ?_); rotate_left; clear_value lx; revert lx; intro y hG; rotate_right; subst lx) | (refine keeps_cutG' lx ?_ (fun _ => ?_); rotate_left; clear_value lx; revert lx; intro y hG'; rotate_right; subst lx) | (refine keeps_cutH lx ?_ (fun _ => ?_); rotate_left; clear_value lx; revert lx; intro y hH; rotate_right; subst lx) | (refine keeps_cutU lx ?_ (fun _ => ?_); rotate_left; clear_value lx; revert lx; intro y hU; rotate_right; subst lx) | (clear_value lx; revert lx; intro y) | subst lx)
    | with_reducible apply lineStrobe_keeps
    | with_reducible apply setBlock_keeps
    | with_reducible apply addWrap_keeps
    | with_reducible apply wr_keeps
    | with_reducible apply sizeErr_keeps
    | with_reducible apply each_keeps
    | with_reducible apply gvspRowBegin_keeps
    | with_reducible apply hF
    | with_reducible apply hG
    | with_reducible apply hG'
    | with_reducible apply hH
    | with_reducible apply hU
    | split
    | simp only [↓keeps_mk]

theorem gvspData_keeps {st blk id : Nat} {bytes : List Byte} {s0 s : State} (hk : Keeps s0 s) : Keeps s0 (gvspData s st blk id bytes) := by
  unfold gvspData
  repeat' first
    | with_reducible assumption
    | (intro)
    | (extract_lets +onlyGivenNames lx; first | (refine keeps_cut lx ?_ (fun _ => ?_); rotate_left; clear_value lx; revert lx; intro y hy; rotate_right; subst lx) | (refine keeps_cutF lx ?_ (fun _ => ?_); rotate_left; clear_value lx; revert lx; intro y hF; rotate_right; subst lx) | (refine keeps_cutG lx ?_ (fun _ => ?_); rotate_left; clear_value lx; revert lx; intro y hG; rotate_right; subst lx) | (refine keeps_cutG' lx ?_ (fun _ => ?_); rotate_left; clear_value lx; revert lx; intro y hG'; rotate_right; subst lx) | (refine keeps_cutH lx ?_ (fun _ => ?_); rotate_left; clear_value lx; revert lx; intro y hH; rotate_right; subst lx) | (refine keeps_cutU lx ?_ (fun _ => ?_); rotate_left; clear_value lx; revert lx; intro y hU; rotate_right; subst lx) | (clear_value lx; revert lx; intro y) | subst lx)
    | with_reducible apply setBlock_keeps
    | with_reducible apply setStr_keeps
    | with_reducible apply each_keeps
    | with_reducible apply gvspRowBegin_keeps
    | with_reducible apply hF
    | with_reducible apply hG
    | with_reducible apply hG'
    | with_reducible apply hH
    | with_reducible apply hU
    | split
    | simp only [↓keeps_mk]

theorem gvspPacket_keeps {n st size : Nat} {p : GvspPkt} {s0 s : State} (hk : Keeps s0 s) : Keeps s0 (gvspPacket s n st size p) := by
  unfold gvspPacket
  repeat' first
    | with_reducible assumption
    | (intro)
    | (extract_lets +onlyGivenNames lx; first | (refine keeps_cut lx ?_ (fun _ => ?_); rotate_left; clear_value lx; revert lx; intro y hy; rotate_right; subst lx) | (clear_value lx; revert lx; intro y) | subst lx)
    | with_reducible apply wr_keeps
    | with_reducible apply addSat_keeps
    | with_reducible apply ingressDrop_keeps
    | with_reducible apply gvspLeader_keeps
    | with_reducible apply gvspBegin_keeps
    | with_reducible apply gvspData_keeps
    | with_reducible apply setBlock_keeps
    | with_reducible apply gvspDrain_keeps
    | split
    | simp only [↓keeps_mk]

theorem resendAsk_keeps {st n blk : Nat} {r : Nat × Nat} {s0 s : State} (hk : Keeps s0 s) : Keeps s0 (resendAsk s st n blk r) := by
  unfold resendAsk
  repeat' first
    | with_reducible assumption
    | (intro)
    | (extract_lets +onlyGivenNames lx; first | ((first | refine keeps_cut lx ?_ (fun _ => ?_) | refine keeps_cut1 lx ?_ (fun _ => ?_) | refine keeps_cut2 lx ?_ (fun _ => ?_)); rotate_left; clear_value lx; revert lx; intro y hy; rotate_right; subst lx) | (clear_value lx; revert lx; intro y) | subst lx)
    | with_reducible apply send_keeps
    | with_reducible apply addWrap_keeps
    | with_reducible apply setLane_keeps
    | with_reducible apply setBlock_keeps
    | with_reducible apply foldl_keeps
    | simp only [↓keeps_mk]

theorem gvspResendWait_keeps {st : Nat} {s0 s : State} (hk : Keeps s0 s) : Keeps s0 (gvspResendWait st s) := by
  unfold gvspResendWait
  repeat' first
    | with_reducible assumption
    | (intro)
    | (extract_lets +onlyGivenNames lx; first | ((first | refine keeps_cut lx ?_ (fun _ => ?_) | refine keeps_cut1 lx ?_ (fun _ => ?_) | refine keeps_cut2 lx ?_ (fun _ => ?_)); rotate_left; clear_value lx; revert lx; intro y hy; rotate_right; subst lx) | (clear_value lx; revert lx; intro y) | subst lx)
    | with_reducible apply each_keeps
    | with_reducible apply resendAsk_keeps
    | split

theorem gvspBlockTimeout_keeps {st : Nat} {s0 s : State} (hk : Keeps s0 s) : Keeps s0 (gvspBlockTimeout st s) := by
  unfold gvspBlockTimeout
  repeat' first
    | with_reducible assumption
    | (extract_lets +onlyGivenNames lx; first | ((first | refine keeps_cut lx ?_ (fun _ => ?_) | refine keeps_cut1 lx ?_ (fun _ => ?_)); rotate_left; clear_value lx; revert lx; intro y hy; rotate_right; subst lx) | (clear_value lx; revert lx; intro y) | subst lx)
    | with_reducible apply addSat_keeps
    | with_reducible apply record_keeps
    | with_reducible apply raise_keeps
    | with_reducible apply gvspRows_keeps
    | with_reducible apply gvspDrain_keeps
    | with_reducible apply setStr_keeps
    | split
    | simp only [↓keeps_mk]

theorem gvcpHeartbeat_keeps {n : Nat} {s0 s : State} (hk : Keeps s0 s) : Keeps s0 (gvcpHeartbeat n s) := by
  unfold gvcpHeartbeat
  repeat' first
    | with_reducible assumption
    | with_reducible apply send_keeps
    | split

theorem ethCfgWrite_keeps {n : Nat} {put : State → State} {s0 s : State} (hp : ∀ u, Keeps s0 u → Keeps s0 (put u)) (hk : Keeps s0 s) : Keeps s0 (ethCfgWrite n put s) := by
  unfold ethCfgWrite
  extract_lets was t is_
  have ht : Keeps s0 t := hp s hk
  split
  · exact send_keeps (setLane_keeps ht)
  · split
    · exact gvcpTake_keeps ht
    · exact ht

theorem ptpArrives_keeps {n : Nat} {f : PtpFrame} {data : List Byte} {s0 s : State} (hk : Keeps s0 s) : Keeps s0 (ptpArrives s n f data) := by
  unfold ptpArrives
  repeat' first
    | with_reducible assumption
    | (intro)
    | (extract_lets +onlyGivenNames lx; first | (refine keeps_cut lx ?_ (fun _ => ?_); rotate_left; clear_value lx; revert lx; intro y hy; rotate_right; subst lx) | (clear_value lx; revert lx; intro y) | subst lx)
    | with_reducible apply rawPush_keeps
    | with_reducible apply onlyIf_keeps
    | with_reducible apply ptpReceive_keeps
    | split
    | simp only [↓keeps_mk]

theorem ethClassify_keeps {n : Nat} {x : EthFrame} {s0 s : State} (hk : Keeps s0 s) : Keeps s0 (ethClassify s n x) := by
  unfold ethClassify
  extract_lets ip host fw raw
  have hr : Keeps s0 raw := by
    show Keeps s0 (if _ then _ else _)
    split
    · exact hk
    · exact rawPush_keeps hk
  clear_value raw ip host fw
  cases x.kind with
  | udp dip port g =>
    dsimp only
    split
    · exact gvspPacket_keeps hk
    · exact addSat_keeps hk
    · exact hr
  | ptp f => dsimp only; split
             · exact hk
             · exact ptpArrives_keeps hk
  | gvcpAck req => dsimp only; repeat' first | exact hk | exact hr | split
  | gvcp => dsimp only; repeat' first | exact hk | exact hr | split
  | arp dip => dsimp only; repeat' first | exact hr | exact onlyIf_keeps (fun _ h => send_keeps h) hk | split
  | icmpEcho dip => dsimp only; repeat' first | exact hr | exact send_keeps hk | split
  | _ => exact hr

theorem ethFrameReceive_keeps {n : Nat} {x : EthFrame} {s0 s : State} (hk : Keeps s0 s) : Keeps s0 (ethFrameReceive n x s) := by
  obtain ⟨a1, a2, a3, k, a5⟩ := x
  cases k <;> unfold ethFrameReceive <;> dsimp -zeta only
  repeat' first
    | with_reducible assumption
    | (intro)
    | (extract_lets +onlyGivenNames lx; first | (refine keeps_cut lx ?_ (fun _ => ?_); rotate_left; clear_value lx; revert lx; intro y hy; rotate_right; subst lx) | (refine keeps_cutF lx ?_ (fun _ => ?_); rotate_left; clear_value lx; revert lx; intro y hF; rotate_right; subst lx) | (refine keeps_cutG lx ?_ (fun _ => ?_); rotate_left; clear_value lx; revert lx; intro y hG; rotate_right; subst lx) | (refine keeps_cutG' lx ?_ (fun _ => ?_); rotate_left; clear_value lx; revert lx; intro y hG'; rotate_right; subst lx) | (refine keeps_cutH lx ?_ (fun _ => ?_); rotate_left; clear_value lx; revert lx; intro y hH; rotate_right; subst lx) | (refine keeps_cutU lx ?_ (fun _ => ?_); rotate_left; clear_value lx; revert lx; intro y hU; rotate_right; subst lx) | (clear_value lx; revert lx; intro y) | subst lx)
    | with_reducible apply onlyIf_keeps
    | with_reducible apply linkErrors_keeps
    | with_reducible apply addSat_keeps
    | with_reducible apply crcError_keeps
    | with_reducible apply ethClassify_keeps
    | with_reducible apply hF
    | with_reducible apply hG
    | with_reducible apply hG'
    | with_reducible apply hH
    | with_reducible apply hU
    | split

theorem staleDrop_keeps {st t : Nat} {s0 s : State} (hk : Keeps s0 s) : Keeps s0 (staleDrop s st t) := by
  unfold staleDrop
  repeat' first
    | with_reducible assumption
    | (extract_lets +onlyGivenNames lx; first | (refine keeps_cut lx ?_ (fun _ => ?_); rotate_left; clear_value lx; revert lx; intro y hy; rotate_right; subst lx) | (clear_value lx; revert lx; intro y) | subst lx)
    | with_reducible apply addSat_keeps
    | with_reducible apply setStr_keeps

theorem linePass_keeps {st : Nat} {r : RxLine} {y : Option TagSample} {s0 s : State} (hk : Keeps s0 s) : Keeps s0 (linePass s st r y) := by
  unfold linePass
  repeat' first
    | with_reducible assumption
    | (intro)
    | (extract_lets +onlyGivenNames lx; first | ((first | refine keeps_cut lx ?_ (fun _ => ?_) | refine keeps_cut1 lx ?_ (fun _ => ?_) | refine keeps_cut2 lx ?_ (fun _ => ?_)); rotate_left; clear_value lx; revert lx; intro y hy; rotate_right; subst lx) | (refine keeps_cutF lx ?_ (fun _ => ?_); rotate_left; clear_value lx; revert lx; intro y hF; rotate_right; subst lx) | (refine keeps_cutG lx ?_ (fun _ => ?_); rotate_left; clear_value lx; revert lx; intro y hG; rotate_right; subst lx) | (refine keeps_cutG' lx ?_ (fun _ => ?_); rotate_left; clear_value lx; revert lx; intro y hG'; rotate_right; subst lx) | (refine keeps_cutH lx ?_ (fun _ => ?_); rotate_left; clear_value lx; revert lx; intro y hH; rotate_right; subst lx) | (refine keeps_cutU lx ?_ (fun _ => ?_); rotate_left; clear_value lx; revert lx; intro y hU; rotate_right; subst lx) | (clear_value lx; revert lx; intro y) | subst lx)
    | with_reducible apply setStr_keeps
    | with_reducible apply onlyIf_keeps
    | with_reducible apply sizeErr_keeps
    | with_reducible apply countMissing_keeps
    | with_reducible apply addSat_keeps
    | with_reducible apply hF
    | with_reducible apply hG
    | with_reducible apply hG'
    | with_reducible apply hH
    | with_reducible apply hU
    | split
    | simp only [↓keeps_mk]

theorem pairLine_keeps {st : Nat} {r : RxLine} {s0 s : State} (hk : Keeps s0 s) : Keeps s0 (pairLine s st r) := by
  unfold pairLine
  repeat' first
    | with_reducible assumption
    | (intro)
    | (extract_lets +onlyGivenNames lx; first | ((first | refine keeps_cut lx ?_ (fun _ => ?_) | refine keeps_cut1 lx ?_ (fun _ => ?_) | refine keeps_cut2 lx ?_ (fun _ => ?_)); rotate_left; clear_value lx; revert lx; intro y hy; rotate_right; subst lx) | (clear_value lx; revert lx; intro y) | subst lx)
    | with_reducible apply setStr_keeps
    | with_reducible apply onlyIf_keeps
    | with_reducible apply countMissing_keeps
    | with_reducible apply staleDrop_keeps
    | with_reducible apply laterOnce_keeps
    | with_reducible apply linePass_keeps
    | split
    | simp only [↓keeps_mk]

theorem cameraLine_keeps {st : Nat} {x : Option CamLine} {s0 s : State} (hk : Keeps s0 s) : Keeps s0 (cameraLine st x s) := by
  unfold cameraLine
  repeat' first
    | with_reducible assumption
    | (extract_lets +onlyGivenNames lx; first | ((first | refine keeps_cut lx ?_ (fun _ => ?_) | refine keeps_cut1 lx ?_ (fun _ => ?_) | refine keeps_cut2 lx ?_ (fun _ => ?_)); rotate_left; clear_value lx; revert lx; intro y hy; rotate_right; subst lx) | (clear_value lx; revert lx; intro y) | subst lx)
    | with_reducible apply lineStrobe_keeps
    | with_reducible apply pairLine_keeps
    | with_reducible apply setStr_keeps
    | split
    | simp only [↓keeps_mk]



theorem mlkShow_keeps {u : Nat} {s0 s : State} (hk : Keeps s0 s) : Keeps s0 (mlkShow s u) := by
  unfold mlkShow
  repeat' first
    | with_reducible assumption
    | (extract_lets +onlyGivenNames lx; first | (refine keeps_cut lx ?_ (fun _ => ?_); rotate_left; clear_value lx; revert lx; intro y hy; rotate_right; subst lx) | (clear_value lx; revert lx; intro y) | subst lx)
    | with_reducible apply wr_keeps
    | with_reducible apply wrB_keeps
    | with_reducible apply wrI_keeps

theorem setLoop_keeps {u : Nat} {old : Bool} {l : Loop} {s0 s : State} (hk : Keeps s0 s) : Keeps s0 (setLoop s u old l) := by
  unfold setLoop
  repeat' first
    | with_reducible assumption
    | (extract_lets +onlyGivenNames lx; first | (refine keeps_cut lx ?_ (fun _ => ?_); rotate_left; clear_value lx; revert lx; intro y hy; rotate_right; subst lx) | (clear_value lx; revert lx; intro y) | subst lx)
    | with_reducible apply setMlk_keeps
    | with_reducible apply mlkShow_keeps
    | split
    | simp only [↓keeps_mk]

theorem setMot_keeps {u : Nat} {l : Loop} {s0 s : State} (hk : Keeps s0 s) : Keeps s0 (setMot s u l) := by
  unfold setMot
  repeat' first
    | with_reducible assumption
    | (extract_lets +onlyGivenNames lx; first | (refine keeps_cut lx ?_ (fun _ => ?_); rotate_left; clear_value lx; revert lx; intro y hy; rotate_right; subst lx) | (clear_value lx; revert lx; intro y) | subst lx)
    | with_reducible apply setMlk_keeps
    | split
    | simp only [↓keeps_mk]

theorem toMot_keeps {u : Nat} {s0 s : State} (hk : Keeps s0 s) : Keeps s0 (toMot s u) := by
  unfold toMot
  repeat' first
    | with_reducible assumption
    | (intro)
    | (extract_lets +onlyGivenNames lx; first | ((first | refine keeps_cut lx ?_ (fun _ => ?_) | refine keeps_cut1 lx ?_ (fun _ => ?_) | refine keeps_cut2 lx ?_ (fun _ => ?_)); rotate_left; clear_value lx; revert lx; intro y hy; rotate_right; subst lx) | (clear_value lx; revert lx; intro y) | subst lx)
    | with_reducible apply setMot_keeps
    | with_reducible apply setMlk_keeps
    | simp only [↓keeps_mk]

theorem toSearch_keeps {u : Nat} {old loss : Bool} {s0 s : State} (hk : Keeps s0 s) : Keeps s0 (toSearch s u old loss) := by
  unfold toSearch
  repeat' first
    | with_reducible assumption
    | (intro)
    | (extract_lets +onlyGivenNames lx; first | (refine keeps_cut lx ?_ (fun _ => ?_); rotate_left; clear_value lx; revert lx; intro y hy; rotate_right; subst lx) | (refine keeps_cutF lx ?_ (fun _ => ?_); rotate_left; clear_value lx; revert lx; intro y hF; rotate_right; subst lx) | (refine keeps_cutG lx ?_ (fun _ => ?_); rotate_left; clear_value lx; revert lx; intro y hG; rotate_right; subst lx) | (refine keeps_cutG' lx ?_ (fun _ => ?_); rotate_left; clear_value lx; revert lx; intro y hG'; rotate_right; subst lx) | (refine keeps_cutH lx ?_ (fun _ => ?_); rotate_left; clear_value lx; revert lx; intro y hH; rotate_right; subst lx) | (refine keeps_cutU lx ?_ (fun _ => ?_); rotate_left; clear_value lx; revert lx; intro y hU; rotate_right; subst lx) | (clear_value lx; revert lx; intro y) | subst lx)
    | with_reducible apply setLoop_keeps
    | with_reducible apply onlyIf_keeps
    | with_reducible apply later_keeps
    | with_reducible apply wr_keeps
    | with_reducible apply lockCheck_keeps
    | with_reducible apply toMot_keeps
    | with_reducible apply hF
    | with_reducible apply hG
    | with_reducible apply hG'
    | with_reducible apply hH
    | with_reducible apply hU
    | split
    | simp only [↓keeps_mk]

theorem toLocked_keeps {u : Nat} {old : Bool} {l : Loop} {s0 s : State} (hk : Keeps s0 s) : Keeps s0 (toLocked s u old l) := by
  unfold toLocked
  repeat' first
    | with_reducible assumption
    | with_reducible apply later_keeps
    | with_reducible apply setLoop_keeps
    | simp only [↓keeps_mk]

theorem markAccept_keeps {u : Nat} {old : Bool} {m : Int} {s0 s : State} (hk : Keeps s0 s) : Keeps s0 (markAccept s u old m).1 := by
  unfold markAccept
  repeat' first
    | with_reducible assumption
    | (extract_lets +onlyGivenNames lx; first | ((first | refine keeps_cut lx ?_ (fun _ => ?_) | refine keeps_cut1 lx ?_ (fun _ => ?_) | refine keeps_cut2 lx ?_ (fun _ => ?_)); rotate_left; clear_value lx; revert lx; intro y hy; rotate_right; subst lx) | (clear_value lx; revert lx; intro y) | subst lx)
    | with_reducible apply setLoop_keeps
    | with_reducible apply toLocked_keeps
    | with_reducible apply setMlk_keeps
    | with_reducible apply wrI_keeps
    | with_reducible apply addWrap_keeps
    | with_reducible apply later_keeps
    | with_reducible apply lockCheck_keeps
    | split
    | simp only [↓keeps_mk]

theorem markMissed_keeps {u : Nat} {old : Bool} {s0 s : State} (hk : Keeps s0 s) : Keeps s0 (markMissed s u old) := by
  unfold markMissed
  repeat' first
    | with_reducible assumption
    | (intro)
    | (extract_lets +onlyGivenNames lx; first | (refine keeps_cut lx ?_ (fun _ => ?_); rotate_left; clear_value lx; revert lx; intro y hy; rotate_right; subst lx) | (refine keeps_cutF lx ?_ (fun _ => ?_); rotate_left; clear_value lx; revert lx; intro y hF; rotate_right; subst lx) | (refine keeps_cutG lx ?_ (fun _ => ?_); rotate_left; clear_value lx; revert lx; intro y hG; rotate_right; subst lx) | (refine keeps_cutG' lx ?_ (fun _ => ?_); rotate_left; clear_value lx; revert lx; intro y hG'; rotate_right; subst lx) | (refine keeps_cutH lx ?_ (fun _ => ?_); rotate_left; clear_value lx; revert lx; intro y hH; rotate_right; subst lx) | (refine keeps_cutU lx ?_ (fun _ => ?_); rotate_left; clear_value lx; revert lx; intro y hU; rotate_right; subst lx) | (clear_value lx; revert lx; intro y) | subst lx)
    | with_reducible apply onlyIf_keeps
    | with_reducible apply addSat_keeps
    | with_reducible apply toMot_keeps
    | with_reducible apply toSearch_keeps
    | with_reducible apply setLoop_keeps
    | with_reducible apply record_keeps
    | with_reducible apply hF
    | with_reducible apply hG
    | with_reducible apply hG'
    | with_reducible apply hH
    | with_reducible apply hU
    | split
    | simp only [↓keeps_mk]

theorem setRun_keeps {u : Nat} {old : Bool} {r : Option MarkRun} {s0 s : State} (hk : Keeps s0 s) : Keeps s0 (setRun s u old r) := by
  unfold setRun
  repeat' first
    | with_reducible assumption
    | (extract_lets +onlyGivenNames lx; first | (refine keeps_cut lx ?_ (fun _ => ?_); rotate_left; clear_value lx; revert lx; intro y hy; rotate_right; subst lx) | (clear_value lx; revert lx; intro y) | subst lx)
    | with_reducible apply setMlk_keeps
    | split
    | simp only [↓keeps_mk]

theorem runEnd_keeps {u : Nat} {old : Bool} {r : MarkRun} {s0 s : State} (hk : Keeps s0 s) : Keeps s0 (runEnd s u old r).1 := by
  unfold runEnd
  repeat' first
    | with_reducible assumption
    | (intro)
    | (extract_lets +onlyGivenNames lx; first | ((first | refine keeps_cut lx ?_ (fun _ => ?_) | refine keeps_cut1 lx ?_ (fun _ => ?_) | refine keeps_cut2 lx ?_ (fun _ => ?_)); rotate_left; clear_value lx; revert lx; intro y hy; rotate_right; subst lx) | (refine keeps_cutF lx ?_ (fun _ => ?_); rotate_left; clear_value lx; revert lx; intro y hF; rotate_right; subst lx) | (refine keeps_cutG lx ?_ (fun _ => ?_); rotate_left; clear_value lx; revert lx; intro y hG; rotate_right; subst lx) | (refine keeps_cutG' lx ?_ (fun _ => ?_); rotate_left; clear_value lx; revert lx; intro y hG'; rotate_right; subst lx) | (refine keeps_cutH lx ?_ (fun _ => ?_); rotate_left; clear_value lx; revert lx; intro y hH; rotate_right; subst lx) | (refine keeps_cutU lx ?_ (fun _ => ?_); rotate_left; clear_value lx; revert lx; intro y hU; rotate_right; subst lx) | (clear_value lx; revert lx; intro y) | subst lx)
    | with_reducible apply setRun_keeps
    | with_reducible apply addSat_keeps
    | with_reducible apply markAccept_keeps
    | with_reducible apply hF
    | with_reducible apply hG
    | with_reducible apply hG'
    | with_reducible apply hH
    | with_reducible apply hU
    | split
    | simp only [↓keeps_mk]

theorem closeWindows_keeps  {a0 : Nat} {a2 : Nat} {a3 : Bool} {a4 : Int} {s0 s : State} (hk : Keeps s0 s) : Keeps s0 (closeWindows a0 s a2 a3 a4) := by
  induction a0 generalizing s a2 a3 a4 with
  | zero => exact hk
  | succ n ih =>
    unfold closeWindows
    repeat' first
      | with_reducible assumption
      | (intro)
      | (extract_lets +onlyGivenNames lx; first | (refine keeps_cut lx ?_ (fun _ => ?_); rotate_left; clear_value lx; revert lx; intro y hy; rotate_right; subst lx) | (refine keeps_cutF lx ?_ (fun _ => ?_); rotate_left; clear_value lx; revert lx; intro y hF; rotate_right; subst lx) | (refine keeps_cutG lx ?_ (fun _ => ?_); rotate_left; clear_value lx; revert lx; intro y hG; rotate_right; subst lx) | (refine keeps_cutG' lx ?_ (fun _ => ?_); rotate_left; clear_value lx; revert lx; intro y hG'; rotate_right; subst lx) | (refine keeps_cutH lx ?_ (fun _ => ?_); rotate_left; clear_value lx; revert lx; intro y hH; rotate_right; subst lx) | (refine keeps_cutU lx ?_ (fun _ => ?_); rotate_left; clear_value lx; revert lx; intro y hU; rotate_right; subst lx) | (clear_value lx; revert lx; intro y) | subst lx)
      | with_reducible apply ih
      | with_reducible apply onlyIf_keeps
      | with_reducible apply addSat_keeps
      | with_reducible apply setRun_keeps
      | with_reducible apply setLoop_keeps
      | with_reducible apply markMissed_keeps
      | with_reducible apply hF
      | with_reducible apply hG
      | with_reducible apply hG'
      | with_reducible apply hH
      | with_reducible apply hU
      | split
      | simp only [↓keeps_mk]

theorem mlkLine_keeps {u : Nat} {old : Bool} {x : Int} {px : List Nat} {bad : Bool} {s0 s : State} (hk : Keeps s0 s) : Keeps s0 (mlkLine s u old x px bad).1 := by
  unfold mlkLine
  repeat' first
    | with_reducible assumption
    | (intro)
    | (extract_lets +onlyGivenNames lx; first | ((first | refine keeps_cut lx ?_ (fun _ => ?_) | refine keeps_cut1 lx ?_ (fun _ => ?_) | refine keeps_cut2 lx ?_ (fun _ => ?_)); rotate_left; clear_value lx; revert lx; intro y hy; rotate_right; subst lx) | (refine keeps_cutF lx ?_ (fun _ => ?_); rotate_left; clear_value lx; revert lx; intro y hF; rotate_right; subst lx) | (refine keeps_cutG lx ?_ (fun _ => ?_); rotate_left; clear_value lx; revert lx; intro y hG; rotate_right; subst lx) | (refine keeps_cutG' lx ?_ (fun _ => ?_); rotate_left; clear_value lx; revert lx; intro y hG'; rotate_right; subst lx) | (refine keeps_cutH lx ?_ (fun _ => ?_); rotate_left; clear_value lx; revert lx; intro y hH; rotate_right; subst lx) | (refine keeps_cutU lx ?_ (fun _ => ?_); rotate_left; clear_value lx; revert lx; intro y hU; rotate_right; subst lx) | (clear_value lx; revert lx; intro y) | subst lx)
    | with_reducible apply closeWindows_keeps
    | with_reducible apply setRun_keeps
    | with_reducible apply runEnd_keeps
    | with_reducible apply hF
    | with_reducible apply hG
    | with_reducible apply hG'
    | with_reducible apply hH
    | with_reducible apply hU
    | split
    | simp only [↓keeps_mk]

theorem graceCheck_keeps {u : Nat} {x : Int} {xh : Option Int} {s0 s : State} (hk : Keeps s0 s) : Keeps s0 (graceCheck s u x xh) := by
  unfold graceCheck
  repeat' first
    | with_reducible assumption
    | (extract_lets +onlyGivenNames lx; first | (refine keeps_cut lx ?_ (fun _ => ?_); rotate_left; clear_value lx; revert lx; intro y hy; rotate_right; subst lx) | (clear_value lx; revert lx; intro y) | subst lx)
    | with_reducible apply later_keeps
    | with_reducible apply setLoop_keeps
    | with_reducible apply lockCheck_keeps
    | split
    | simp only [↓keeps_mk]

theorem mlkLoss_keeps {u : Nat} {old : Bool} {s0 s : State} (hk : Keeps s0 s) : Keeps s0 (mlkLoss s u old) := by
  unfold mlkLoss
  repeat' first
    | with_reducible assumption
    | with_reducible apply toSearch_keeps

theorem mlkPosStep_keeps {t : Nat} {s0 s : State} (hk : Keeps s0 s) : Keeps s0 (mlkPosStep s t) := by
  unfold mlkPosStep
  repeat' first
    | with_reducible assumption
    | (intro)
    | with_reducible apply each_keeps
    | with_reducible apply mlkLoss_keeps

theorem mlkLeave_keeps {u : Nat} {s0 s : State} (hk : Keeps s0 s) : Keeps s0 (mlkLeave s u) := by
  unfold mlkLeave
  repeat' first
    | with_reducible assumption
    | (extract_lets +onlyGivenNames lx; first | (refine keeps_cut lx ?_ (fun _ => ?_); rotate_left; clear_value lx; revert lx; intro y hy; rotate_right; subst lx) | (clear_value lx; revert lx; intro y) | subst lx)
    | with_reducible apply toSearch_keeps
    | with_reducible apply later_keeps
    | with_reducible apply setRun_keeps
    | with_reducible apply lockDrop_keeps

theorem mlkHandover_keeps {acq : Bool} {s0 s : State} (hk : Keeps s0 s) : Keeps s0 (mlkHandover s acq) := by
  unfold mlkHandover
  repeat' first
    | with_reducible assumption
    | (intro)
    | (extract_lets +onlyGivenNames lx; first | (refine keeps_cut lx ?_ (fun _ => ?_); rotate_left; clear_value lx; revert lx; intro y hy; rotate_right; subst lx) | (clear_value lx; revert lx; intro y) | subst lx)
    | with_reducible apply each_keeps
    | with_reducible apply toMot_keeps
    | with_reducible apply mlkShow_keeps
    | with_reducible apply setMlk_keeps
    | split
    | simp only [↓keeps_mk]

theorem mlkConjEnd_keeps  {s0 s : State} (hk : Keeps s0 s) : Keeps s0 (mlkConjEnd s) := by
  unfold mlkConjEnd
  repeat' first
    | with_reducible assumption
    | (intro)
    | with_reducible apply each_keeps
    | with_reducible apply setMlk_keeps
    | simp only [↓keeps_mk]

theorem markReportArrive_keeps {u : Nat} {s0 s : State} (hk : Keeps s0 s) : Keeps s0 (markReportArrive u s) := by
  unfold markReportArrive
  repeat' first
    | with_reducible assumption
    | (extract_lets +onlyGivenNames lx; first | ((first | refine keeps_cut lx ?_ (fun _ => ?_) | refine keeps_cut2 lx ?_ (fun _ => ?_)); rotate_left; clear_value lx; revert lx; intro y hy; rotate_right; subst lx) | (clear_value lx; revert lx; intro y) | subst lx)
    | with_reducible apply setMlk_keeps
    | with_reducible apply setMot_keeps
    | with_reducible apply later_keeps
    | with_reducible apply chgMark_keeps
    | with_reducible apply lockCheck_keeps
    | split
    | simp only [↓keeps_mk]

theorem setFrm_keeps {st : Nat} {x : FrmS} {s0 s : State} (hk : Keeps s0 s) : Keeps s0 (setFrm s st x) := by
  unfold setFrm
  repeat' first
    | with_reducible assumption
    | simp only [↓keeps_mk]

theorem setFrame_keeps {st id : Nat} {g : Frame → Frame} {s0 s : State} (hk : Keeps s0 s) : Keeps s0 (setFrame s st id g) := by
  unfold setFrame
  repeat' first
    | with_reducible assumption
    | (intro)
    | with_reducible apply setFrm_keeps
    | split
    | simp only [↓keeps_mk]

theorem removeFrame_keeps {st id : Nat} {s0 s : State} (hk : Keeps s0 s) : Keeps s0 (removeFrame s st id) := by
  unfold removeFrame
  repeat' first
    | with_reducible assumption
    | (intro)
    | with_reducible apply laterOnce_keeps
    | with_reducible apply setFrm_keeps
    | with_reducible apply oldSlots_keeps
    | simp only [↓keeps_mk]

theorem showLag_keeps {st : Nat} {s0 s : State} (hk : Keeps s0 s) : Keeps s0 (showLag s st) := by
  unfold showLag
  repeat' first
    | with_reducible assumption
    | (intro)
    | (extract_lets +onlyGivenNames lx; first | (refine keeps_cut lx ?_ (fun _ => ?_); rotate_left; clear_value lx; revert lx; intro y hy; rotate_right; subst lx) | (clear_value lx; revert lx; intro y) | subst lx)
    | with_reducible apply wr_keeps

theorem showFree_keeps {st : Nat} {s0 s : State} (hk : Keeps s0 s) : Keeps s0 (showFree s st) := by
  unfold showFree
  repeat' first
    | with_reducible assumption
    | with_reducible apply wr_keeps

theorem freeSlots_keeps {st : Nat} {s0 s : State} (hk : Keeps s0 s) : Keeps s0 (freeSlots s st) := by
  unfold freeSlots
  repeat' first
    | with_reducible assumption
    | (intro)
    | (extract_lets +onlyGivenNames lx; first | ((first | refine keeps_cut lx ?_ (fun _ => ?_) | refine keeps_cut2 lx ?_ (fun _ => ?_)); rotate_left; clear_value lx; revert lx; intro y hy; rotate_right; subst lx) | (refine keeps_cutF lx ?_ (fun _ => ?_); rotate_left; clear_value lx; revert lx; intro y hF; rotate_right; subst lx) | (refine keeps_cutG lx ?_ (fun _ => ?_); rotate_left; clear_value lx; revert lx; intro y hG; rotate_right; subst lx) | (refine keeps_cutG' lx ?_ (fun _ => ?_); rotate_left; clear_value lx; revert lx; intro y hG'; rotate_right; subst lx) | (refine keeps_cutH lx ?_ (fun _ => ?_); rotate_left; clear_value lx; revert lx; intro y hH; rotate_right; subst lx) | (refine keeps_cutU lx ?_ (fun _ => ?_); rotate_left; clear_value lx; revert lx; intro y hU; rotate_right; subst lx) | (clear_value lx; revert lx; intro y) | subst lx)
    | with_reducible apply showFree_keeps
    | with_reducible apply setFrm_keeps
    | with_reducible apply foldl_keeps
    | with_reducible apply hF
    | with_reducible apply hG
    | with_reducible apply hG'
    | with_reducible apply hH
    | with_reducible apply hU
    | split
    | simp only [↓keeps_mk]

theorem releaseSlot_keeps {st k : Nat} {s0 s : State} (hk : Keeps s0 s) : Keeps s0 (releaseSlot s st k) := by
  unfold releaseSlot
  repeat' first
    | with_reducible assumption
    | (intro)
    | (extract_lets +onlyGivenNames lx; first | ((first | refine keeps_cut lx ?_ (fun _ => ?_) | refine keeps_cut1 lx ?_ (fun _ => ?_) | refine keeps_cut2 lx ?_ (fun _ => ?_)); rotate_left; clear_value lx; revert lx; intro y hy; rotate_right; subst lx) | (clear_value lx; revert lx; intro y) | subst lx)
    | with_reducible apply laterOnce_keeps
    | with_reducible apply freeSlots_keeps
    | with_reducible apply setFrm_keeps
    | with_reducible apply oldSlots_keeps
    | split
    | simp only [↓keeps_mk]

theorem discardFrame_keeps {st id : Nat} {s0 s : State} (hk : Keeps s0 s) : Keeps s0 (discardFrame s st id) := by
  unfold discardFrame
  repeat' first
    | with_reducible assumption
    | (extract_lets +onlyGivenNames lx; first | (refine keeps_cut lx ?_ (fun _ => ?_); rotate_left; clear_value lx; revert lx; intro y hy; rotate_right; subst lx) | (clear_value lx; revert lx; intro y) | subst lx)
    | with_reducible apply removeFrame_keeps
    | with_reducible apply showLag_keeps
    | with_reducible apply releaseSlot_keeps
    | split
    | simp only [↓keeps_mk]

theorem openFrame_keeps {st : Nat} {c : SetCfg} {setNo : Nat} {old : Bool} {start bnext : Int} {area : Bool} {s0 s : State} (hk : Keeps s0 s) : Keeps s0 (openFrame s st c setNo old start bnext area).1 := by
  unfold openFrame
  repeat' first
    | with_reducible assumption
    | (intro)
    | (extract_lets +onlyGivenNames lx; first | ((first | refine keeps_cut lx ?_ (fun _ => ?_) | refine keeps_cut1 lx ?_ (fun _ => ?_)); rotate_left; clear_value lx; revert lx; intro y hy; rotate_right; subst lx) | (refine keeps_cutF lx ?_ (fun _ => ?_); rotate_left; clear_value lx; revert lx; intro y hF; rotate_right; subst lx) | (refine keeps_cutG lx ?_ (fun _ => ?_); rotate_left; clear_value lx; revert lx; intro y hG; rotate_right; subst lx) | (refine keeps_cutG' lx ?_ (fun _ => ?_); rotate_left; clear_value lx; revert lx; intro y hG'; rotate_right; subst lx) | (refine keeps_cutH lx ?_ (fun _ => ?_); rotate_left; clear_value lx; revert lx; intro y hH; rotate_right; subst lx) | (refine keeps_cutU lx ?_ (fun _ => ?_); rotate_left; clear_value lx; revert lx; intro y hU; rotate_right; subst lx) | (clear_value lx; revert lx; intro y) | subst lx)
    | with_reducible apply onlyIf_keeps
    | with_reducible apply later_keeps
    | with_reducible apply wr_keeps
    | with_reducible apply addSat_keeps
    | with_reducible apply showFree_keeps
    | with_reducible apply setFrm_keeps
    | with_reducible apply hF
    | with_reducible apply hG
    | with_reducible apply hG'
    | with_reducible apply hH
    | with_reducible apply hU
    | split
    | simp only [↓keeps_mk]

theorem spillLine_keeps {st id i : Nat} {s0 s : State} (hk : Keeps s0 s) : Keeps s0 (spillLine s st id i) := by
  unfold spillLine
  repeat' first
    | with_reducible assumption
    | (intro)
    | with_reducible apply setFrame_keeps
    | split
    | simp only [↓keeps_mk]

theorem storeLine_keeps {st id : Nat} {l : PLine} {s0 s : State} (hk : Keeps s0 s) : Keeps s0 (storeLine s st id l) := by
  unfold storeLine
  repeat' first
    | with_reducible assumption
    | (intro)
    | (extract_lets +onlyGivenNames lx; first | ((first | refine keeps_cut lx ?_ (fun _ => ?_) | refine keeps_cut1 lx ?_ (fun _ => ?_) | refine keeps_cut2 lx ?_ (fun _ => ?_)); rotate_left; clear_value lx; revert lx; intro y hy; rotate_right; subst lx) | (refine keeps_cutF lx ?_ (fun _ => ?_); rotate_left; clear_value lx; revert lx; intro y hF; rotate_right; subst lx) | (refine keeps_cutG lx ?_ (fun _ => ?_); rotate_left; clear_value lx; revert lx; intro y hG; rotate_right; subst lx) | (refine keeps_cutG' lx ?_ (fun _ => ?_); rotate_left; clear_value lx; revert lx; intro y hG'; rotate_right; subst lx) | (refine keeps_cutH lx ?_ (fun _ => ?_); rotate_left; clear_value lx; revert lx; intro y hH; rotate_right; subst lx) | (refine keeps_cutU lx ?_ (fun _ => ?_); rotate_left; clear_value lx; revert lx; intro y hU; rotate_right; subst lx) | (clear_value lx; revert lx; intro y) | subst lx)
    | with_reducible apply spillLine_keeps
    | with_reducible apply setFrame_keeps
    | with_reducible apply hbmWrite_keeps
    | with_reducible apply setFrm_keeps
    | with_reducible apply hF
    | with_reducible apply hG
    | with_reducible apply hG'
    | with_reducible apply hH
    | with_reducible apply hU
    | split
    | simp only [↓keeps_mk]

theorem closeFrame_keeps {st id flags : Nat} {s0 s : State} (hk : Keeps s0 s) : Keeps s0 (closeFrame s st id flags) := by
  unfold closeFrame
  repeat' first
    | with_reducible assumption
    | (intro)
    | (extract_lets +onlyGivenNames lx; first | (refine keeps_cut lx ?_ (fun _ => ?_); rotate_left; clear_value lx; revert lx; intro y hy; rotate_right; subst lx) | (refine keeps_cutF lx ?_ (fun _ => ?_); rotate_left; clear_value lx; revert lx; intro y hF; rotate_right; subst lx) | (refine keeps_cutG lx ?_ (fun _ => ?_); rotate_left; clear_value lx; revert lx; intro y hG; rotate_right; subst lx) | (refine keeps_cutG' lx ?_ (fun _ => ?_); rotate_left; clear_value lx; revert lx; intro y hG'; rotate_right; subst lx) | (refine keeps_cutH lx ?_ (fun _ => ?_); rotate_left; clear_value lx; revert lx; intro y hH; rotate_right; subst lx) | (refine keeps_cutU lx ?_ (fun _ => ?_); rotate_left; clear_value lx; revert lx; intro y hU; rotate_right; subst lx) | (clear_value lx; revert lx; intro y) | subst lx)
    | with_reducible apply setFrm_keeps
    | with_reducible apply addWrap_keeps
    | with_reducible apply setFrame_keeps
    | with_reducible apply onlyIf_keeps
    | with_reducible apply later_keeps
    | with_reducible apply campDrop_keeps
    | with_reducible apply frameClosed_keeps
    | with_reducible apply record_keeps
    | with_reducible apply removeFrame_keeps
    | with_reducible apply handOver_keeps
    | with_reducible apply hF
    | with_reducible apply hG
    | with_reducible apply hG'
    | with_reducible apply hH
    | with_reducible apply hU
    | split
    | simp only [↓keeps_mk]

theorem setCut_keeps {st : Nat} {old : Bool} {c : Cutter} {s0 s : State} (hk : Keeps s0 s) : Keeps s0 (setCut s st old c) := by
  unfold setCut
  repeat' first
    | with_reducible assumption
    | (extract_lets +onlyGivenNames lx; first | (refine keeps_cut lx ?_ (fun _ => ?_); rotate_left; clear_value lx; revert lx; intro y hy; rotate_right; subst lx) | (clear_value lx; revert lx; intro y) | subst lx)
    | with_reducible apply setFrm_keeps
    | with_reducible apply wrI_keeps
    | with_reducible apply wrB_keeps
    | split
    | simp only [↓keeps_mk]

theorem cutOpen_keeps {st : Nat} {c : Cutter} {start : Int} {s0 s : State} (hk : Keeps s0 s) : Keeps s0 (cutOpen s st c start).1 := by
  unfold cutOpen
  repeat' first
    | with_reducible assumption
    | (extract_lets +onlyGivenNames lx; first | ((first | refine keeps_cut lx ?_ (fun _ => ?_) | refine keeps_cut1 lx ?_ (fun _ => ?_) | refine keeps_cut2 lx ?_ (fun _ => ?_)); rotate_left; clear_value lx; revert lx; intro y hy; rotate_right; subst lx) | (clear_value lx; revert lx; intro y) | subst lx)
    | with_reducible apply openFrame_keeps
    | with_reducible apply storeLine_keeps
    | split
    | simp only [↓keeps_mk]

theorem cutClose_keeps {st : Nat} {f : CutFrame} {tail flags : Nat} {s0 s : State} (hk : Keeps s0 s) : Keeps s0 (cutClose s st f tail flags) := by
  unfold cutClose
  repeat' first
    | with_reducible assumption
    | (intro)
    | with_reducible apply closeFrame_keeps
    | with_reducible apply setFrame_keeps
    | split
    | simp only [↓keeps_mk]

theorem cutStore_keeps {st : Nat} {c : Cutter} {f : CutFrame} {l : PLine} {body nonMono : Bool} {tail : Nat} {s0 s : State} (hk : Keeps s0 s) : Keeps s0 (cutStore s st c f l body nonMono tail).1 := by
  unfold cutStore
  repeat' first
    | with_reducible assumption
    | (intro)
    | (extract_lets +onlyGivenNames lx; first | (refine keeps_cut lx ?_ (fun _ => ?_); rotate_left; clear_value lx; revert lx; intro y hy; rotate_right; subst lx) | (refine keeps_cutF lx ?_ (fun _ => ?_); rotate_left; clear_value lx; revert lx; intro y hF; rotate_right; subst lx) | (refine keeps_cutG lx ?_ (fun _ => ?_); rotate_left; clear_value lx; revert lx; intro y hG; rotate_right; subst lx) | (refine keeps_cutG' lx ?_ (fun _ => ?_); rotate_left; clear_value lx; revert lx; intro y hG'; rotate_right; subst lx) | (refine keeps_cutH lx ?_ (fun _ => ?_); rotate_left; clear_value lx; revert lx; intro y hH; rotate_right; subst lx) | (refine keeps_cutU lx ?_ (fun _ => ?_); rotate_left; clear_value lx; revert lx; intro y hU; rotate_right; subst lx) | (clear_value lx; revert lx; intro y) | subst lx)
    | with_reducible apply wr_keeps
    | with_reducible apply cutClose_keeps
    | with_reducible apply storeLine_keeps
    | with_reducible apply onlyIf_keeps
    | with_reducible apply setFrame_keeps
    | with_reducible apply hF
    | with_reducible apply hG
    | with_reducible apply hG'
    | with_reducible apply hH
    | with_reducible apply hU
    | split
    | simp only [↓keeps_mk]

theorem tailEnd_keeps {st : Nat} {c : Cutter} {t : Nat} {x : Int} {s0 s : State} (hk : Keeps s0 s) : Keeps s0 (tailEnd s st c t x).1 := by
  unfold tailEnd
  repeat' first
    | with_reducible assumption
    | (intro)
    | (extract_lets +onlyGivenNames lx; first | (refine keeps_cut lx ?_ (fun _ => ?_); rotate_left; clear_value lx; revert lx; intro y hy; rotate_right; subst lx) | (clear_value lx; revert lx; intro y) | subst lx)
    | with_reducible apply cutClose_keeps
    | split
    | simp only [↓keeps_mk]

theorem cutBody_keeps {st : Nat} {c : Cutter} {l : PLine} {nm : Bool} {s0 s : State} (hk : Keeps s0 s) : Keeps s0 (cutBody s st c l nm).1 := by
  unfold cutBody
  repeat' first
    | with_reducible assumption
    | (intro)
    | (extract_lets +onlyGivenNames lx; first | ((first | refine keeps_cut lx ?_ (fun _ => ?_) | refine keeps_cut1 lx ?_ (fun _ => ?_) | refine keeps_cut2 lx ?_ (fun _ => ?_)); rotate_left; clear_value lx; revert lx; intro y hy; rotate_right; subst lx) | (clear_value lx; revert lx; intro y) | subst lx)
    | with_reducible apply cutStore_keeps
    | with_reducible apply cutClose_keeps
    | with_reducible apply cutOpen_keeps
    | with_reducible apply tailEnd_keeps
    | split
    | simp only [↓keeps_mk]

theorem cutTail_keeps {st : Nat} {c : Cutter} {l : PLine} {nm : Bool} {s0 s : State} (hk : Keeps s0 s) : Keeps s0 (cutTail s st c l nm).1 := by
  unfold cutTail
  repeat' first
    | with_reducible assumption
    | (intro)
    | (extract_lets +onlyGivenNames lx; first | ((first | refine keeps_cut lx ?_ (fun _ => ?_) | refine keeps_cut1 lx ?_ (fun _ => ?_) | refine keeps_cut2 lx ?_ (fun _ => ?_)); rotate_left; clear_value lx; revert lx; intro y hy; rotate_right; subst lx) | (clear_value lx; revert lx; intro y) | subst lx)
    | with_reducible apply cutStore_keeps
    | with_reducible apply tailEnd_keeps
    | with_reducible apply cutBody_keeps
    | split
    | simp only [↓keeps_mk]

theorem cutNone_keeps {st : Nat} {c : Cutter} {l : PLine} {nm : Bool} {s0 s : State} (hk : Keeps s0 s) : Keeps s0 (cutNone s st c l nm).1 := by
  unfold cutNone
  repeat' first
    | with_reducible assumption
    | (extract_lets +onlyGivenNames lx; first | ((first | refine keeps_cut lx ?_ (fun _ => ?_) | refine keeps_cut1 lx ?_ (fun _ => ?_) | refine keeps_cut2 lx ?_ (fun _ => ?_)); rotate_left; clear_value lx; revert lx; intro y hy; rotate_right; subst lx) | (clear_value lx; revert lx; intro y) | subst lx)
    | with_reducible apply cutOpen_keeps
    | with_reducible apply cutStore_keeps
    | split
    | simp only [↓keeps_mk]

theorem cutEnd_keeps {st : Nat} {c : Cutter} {why : Nat} {s0 s : State} (hk : Keeps s0 s) : Keeps s0 (cutEnd s st c why).1 := by
  unfold cutEnd
  repeat' first
    | with_reducible assumption
    | (extract_lets +onlyGivenNames lx; first | (refine keeps_cut lx ?_ (fun _ => ?_); rotate_left; clear_value lx; revert lx; intro y hy; rotate_right; subst lx) | (clear_value lx; revert lx; intro y) | subst lx)
    | with_reducible apply cutClose_keeps
    | with_reducible apply discardFrame_keeps
    | split
    | simp only [↓keeps_mk]

theorem cutLine_keeps {st : Nat} {old : Bool} {l : PLine} {count : Bool} {s0 s : State} (hk : Keeps s0 s) : Keeps s0 (cutLine s st old l count) := by
  unfold cutLine
  repeat' first
    | with_reducible assumption
    | (intro)
    | (extract_lets +onlyGivenNames lx; first | ((first | refine keeps_cut lx ?_ (fun _ => ?_) | refine keeps_cut1 lx ?_ (fun _ => ?_) | refine keeps_cut2 lx ?_ (fun _ => ?_)); rotate_left; clear_value lx; revert lx; intro y hy; rotate_right; subst lx) | (refine keeps_cutF lx ?_ (fun _ => ?_); rotate_left; clear_value lx; revert lx; intro y hF; rotate_right; subst lx) | (refine keeps_cutG lx ?_ (fun _ => ?_); rotate_left; clear_value lx; revert lx; intro y hG; rotate_right; subst lx) | (refine keeps_cutG' lx ?_ (fun _ => ?_); rotate_left; clear_value lx; revert lx; intro y hG'; rotate_right; subst lx) | (refine keeps_cutH lx ?_ (fun _ => ?_); rotate_left; clear_value lx; revert lx; intro y hH; rotate_right; subst lx) | (refine keeps_cutU lx ?_ (fun _ => ?_); rotate_left; clear_value lx; revert lx; intro y hU; rotate_right; subst lx) | (clear_value lx; revert lx; intro y) | subst lx)
    | with_reducible apply onlyIf_keeps
    | with_reducible apply wr_keeps
    | with_reducible apply addSat_keeps
    | with_reducible apply cutEnd_keeps
    | with_reducible apply setFrm_keeps
    | with_reducible apply cutNone_keeps
    | with_reducible apply cutTail_keeps
    | with_reducible apply cutBody_keeps
    | with_reducible apply setCut_keeps
    | with_reducible apply hF
    | with_reducible apply hG
    | with_reducible apply hG'
    | with_reducible apply hH
    | with_reducible apply hU
    | split
    | simp only [↓keeps_mk]

theorem markFrames_keeps {st : Nat} {k : MarkS} {s0 s : State} (hk : Keeps s0 s) : Keeps s0 (markFrames s st k) := by
  unfold markFrames
  repeat' first
    | with_reducible assumption
    | (intro)
    | (extract_lets +onlyGivenNames lx; first | (refine keeps_cut lx ?_ (fun _ => ?_); rotate_left; clear_value lx; revert lx; intro y hy; rotate_right; subst lx) | (clear_value lx; revert lx; intro y) | subst lx)
    | with_reducible apply setFrm_keeps
    | split
    | simp only [↓keeps_mk]

theorem feedUnits_keeps {st : Nat} {old : Bool} {l : PLine} {s0 s : State} (hk : Keeps s0 s) : Keeps s0 (feedUnits s st old l) := by
  unfold feedUnits
  repeat' first
    | with_reducible assumption
    | (intro)
    | (extract_lets +onlyGivenNames lx; first | ((first | refine keeps_cut lx ?_ (fun _ => ?_) | refine keeps_cut1 lx ?_ (fun _ => ?_) | refine keeps_cut2 lx ?_ (fun _ => ?_)); rotate_left; clear_value lx; revert lx; intro y hy; rotate_right; subst lx) | (refine keeps_cutF lx ?_ (fun _ => ?_); rotate_left; clear_value lx; revert lx; intro y hF; rotate_right; subst lx) | (refine keeps_cutG lx ?_ (fun _ => ?_); rotate_left; clear_value lx; revert lx; intro y hG; rotate_right; subst lx) | (refine keeps_cutG' lx ?_ (fun _ => ?_); rotate_left; clear_value lx; revert lx; intro y hG'; rotate_right; subst lx) | (refine keeps_cutH lx ?_ (fun _ => ?_); rotate_left; clear_value lx; revert lx; intro y hH; rotate_right; subst lx) | (refine keeps_cutU lx ?_ (fun _ => ?_); rotate_left; clear_value lx; revert lx; intro y hU; rotate_right; subst lx) | (clear_value lx; revert lx; intro y) | subst lx)
    | with_reducible apply onlyIf_keeps
    | with_reducible apply each_keeps
    | with_reducible apply toSearch_keeps
    | with_reducible apply mlkLine_keeps
    | with_reducible apply markFrames_keeps
    | with_reducible apply graceCheck_keeps
    | with_reducible apply hF
    | with_reducible apply hG
    | with_reducible apply hG'
    | with_reducible apply hH
    | with_reducible apply hU
    | split
    | simp only [↓keeps_mk]

theorem feed_keeps {st : Nat} {old : Bool} {l : PLine} {count : Bool} {s0 s : State} (hk : Keeps s0 s) : Keeps s0 (feed s st old l count) := by
  unfold feed
  repeat' first
    | with_reducible assumption
    | with_reducible apply cutLine_keeps
    | with_reducible apply feedUnits_keeps

theorem oldCutStop_keeps {st why : Nat} {s0 s : State} (hk : Keeps s0 s) : Keeps s0 (oldCutStop s st why) := by
  unfold oldCutStop
  repeat' first
    | with_reducible assumption
    | (extract_lets +onlyGivenNames lx; first | ((first | refine keeps_cut lx ?_ (fun _ => ?_) | refine keeps_cut1 lx ?_ (fun _ => ?_) | refine keeps_cut2 lx ?_ (fun _ => ?_)); rotate_left; clear_value lx; revert lx; intro y hy; rotate_right; subst lx) | (clear_value lx; revert lx; intro y) | subst lx)
    | with_reducible apply cutEnd_keeps
    | with_reducible apply setCut_keeps
    | split
    | simp only [↓keeps_mk]

theorem imageCut_keeps {st : Nat} {s0 s : State} (hk : Keeps s0 s) : Keeps s0 (imageCut s st) := by
  unfold imageCut
  repeat' first
    | with_reducible assumption
    | with_reducible apply closeFrame_keeps
    | with_reducible apply setFrm_keeps
    | split
    | simp only [↓keeps_mk]

theorem oldImageStop_keeps {st : Nat} {s0 s : State} (hk : Keeps s0 s) : Keeps s0 (oldImageStop s st) := by
  unfold oldImageStop
  repeat' first
    | with_reducible assumption
    | with_reducible apply imageCut_keeps
    | split
    | simp only [↓keeps_mk]

theorem routeOld_keeps {st : Nat} {cj : ConjS} {l : PLine} {s0 s : State} (hk : Keeps s0 s) : Keeps s0 (routeOld s st cj l) := by
  unfold routeOld
  repeat' first
    | with_reducible assumption
    | (intro)
    | (extract_lets +onlyGivenNames lx; first | ((first | refine keeps_cut lx ?_ (fun _ => ?_) | refine keeps_cut2 lx ?_ (fun _ => ?_)); rotate_left; clear_value lx; revert lx; intro y hy; rotate_right; subst lx) | (clear_value lx; revert lx; intro y) | subst lx)
    | with_reducible apply setFrm_keeps
    | with_reducible apply feed_keeps
    | split
    | simp only [↓keeps_mk]

theorem routeLine_keeps {st : Nat} {old : Bool} {l : PLine} {s0 s : State} (hk : Keeps s0 s) : Keeps s0 (routeLine s st old l) := by
  unfold routeLine
  repeat' first
    | with_reducible assumption
    | (intro)
    | (extract_lets +onlyGivenNames lx; first | (refine keeps_cut lx ?_ (fun _ => ?_); rotate_left; clear_value lx; revert lx; intro y hy; rotate_right; subst lx) | (refine keeps_cutF lx ?_ (fun _ => ?_); rotate_left; clear_value lx; revert lx; intro y hF; rotate_right; subst lx) | (refine keeps_cutG lx ?_ (fun _ => ?_); rotate_left; clear_value lx; revert lx; intro y hG; rotate_right; subst lx) | (refine keeps_cutG' lx ?_ (fun _ => ?_); rotate_left; clear_value lx; revert lx; intro y hG'; rotate_right; subst lx) | (refine keeps_cutH lx ?_ (fun _ => ?_); rotate_left; clear_value lx; revert lx; intro y hH; rotate_right; subst lx) | (refine keeps_cutU lx ?_ (fun _ => ?_); rotate_left; clear_value lx; revert lx; intro y hU; rotate_right; subst lx) | (clear_value lx; revert lx; intro y) | subst lx)
    | with_reducible apply feed_keeps
    | with_reducible apply routeOld_keeps
    | with_reducible apply onlyIf_keeps
    | with_reducible apply feedUnits_keeps
    | with_reducible apply cutLine_keeps
    | with_reducible apply oldCutStop_keeps
    | with_reducible apply setFrm_keeps
    | with_reducible apply hF
    | with_reducible apply hG
    | with_reducible apply hG'
    | with_reducible apply hH
    | with_reducible apply hU
    | split
    | simp only [↓keeps_mk]

theorem areaLine_keeps {st : Nat} {l : LineS} {s0 s : State} (hk : Keeps s0 s) : Keeps s0 (areaLine s st l) := by
  unfold areaLine
  repeat' first
    | with_reducible assumption
    | (intro)
    | (extract_lets +onlyGivenNames lx; first | ((first | refine keeps_cut lx ?_ (fun _ => ?_) | refine keeps_cut1 lx ?_ (fun _ => ?_) | refine keeps_cut2 lx ?_ (fun _ => ?_)); rotate_left; clear_value lx; revert lx; intro y hy; rotate_right; subst lx) | (refine keeps_cutF lx ?_ (fun _ => ?_); rotate_left; clear_value lx; revert lx; intro y hF; rotate_right; subst lx) | (refine keeps_cutG lx ?_ (fun _ => ?_); rotate_left; clear_value lx; revert lx; intro y hG; rotate_right; subst lx) | (refine keeps_cutG' lx ?_ (fun _ => ?_); rotate_left; clear_value lx; revert lx; intro y hG'; rotate_right; subst lx) | (refine keeps_cutH lx ?_ (fun _ => ?_); rotate_left; clear_value lx; revert lx; intro y hH; rotate_right; subst lx) | (refine keeps_cutU lx ?_ (fun _ => ?_); rotate_left; clear_value lx; revert lx; intro y hU; rotate_right; subst lx) | (clear_value lx; revert lx; intro y) | subst lx)
    | with_reducible apply onlyIf_keeps
    | with_reducible apply freeNext_keeps
    | with_reducible apply closeFrame_keeps
    | with_reducible apply openFrame_keeps
    | with_reducible apply setFrame_keeps
    | with_reducible apply setFrm_keeps
    | with_reducible apply hbmWrite_keeps
    | with_reducible apply spillLine_keeps
    | with_reducible apply releaseSlot_keeps
    | with_reducible apply addWrap_keeps
    | with_reducible apply later_keeps
    | with_reducible apply removeFrame_keeps
    | with_reducible apply handOver_keeps
    | with_reducible apply wr_keeps
    | with_reducible apply hF
    | with_reducible apply hG
    | with_reducible apply hG'
    | with_reducible apply hH
    | with_reducible apply hU
    | split
    | simp only [↓keeps_mk]

theorem checkStream_keeps {st : Nat} {s0 s : State} (hk : Keeps s0 s) : Keeps s0 (checkStream s st) := by
  unfold checkStream
  repeat' first
    | with_reducible assumption
    | with_reducible apply later_keeps
    | with_reducible apply stakesCheck_keeps
    | split
    | simp only [↓keeps_mk]

theorem cutFinish_keeps {st : Nat} {old : Bool} {s0 s : State} (hk : Keeps s0 s) : Keeps s0 (cutFinish s st old) := by
  unfold cutFinish
  repeat' first
    | with_reducible assumption
    | (intro)
    | (extract_lets +onlyGivenNames lx; first | (refine keeps_cut lx ?_ (fun _ => ?_); rotate_left; clear_value lx; revert lx; intro y hy; rotate_right; subst lx) | (clear_value lx; revert lx; intro y) | subst lx)
    | with_reducible apply setCut_keeps
    | with_reducible apply discardFrame_keeps
    | split
    | simp only [↓keeps_mk]

theorem streamJudge_keeps {st : Nat} {s0 s : State} (hk : Keeps s0 s) : Keeps s0 (streamJudge s st) := by
  unfold streamJudge
  repeat' first
    | with_reducible assumption
    | (intro)
    | (extract_lets +onlyGivenNames lx; first | (refine keeps_cut lx ?_ (fun _ => ?_); rotate_left; clear_value lx; revert lx; intro y hy; rotate_right; subst lx) | (refine keeps_cutF lx ?_ (fun _ => ?_); rotate_left; clear_value lx; revert lx; intro y hF; rotate_right; subst lx) | (refine keeps_cutG lx ?_ (fun _ => ?_); rotate_left; clear_value lx; revert lx; intro y hG; rotate_right; subst lx) | (refine keeps_cutG' lx ?_ (fun _ => ?_); rotate_left; clear_value lx; revert lx; intro y hG'; rotate_right; subst lx) | (refine keeps_cutH lx ?_ (fun _ => ?_); rotate_left; clear_value lx; revert lx; intro y hH; rotate_right; subst lx) | (refine keeps_cutU lx ?_ (fun _ => ?_); rotate_left; clear_value lx; revert lx; intro y hU; rotate_right; subst lx) | (clear_value lx; revert lx; intro y) | subst lx)
    | with_reducible apply checkStream_keeps
    | with_reducible apply cutFinish_keeps
    | with_reducible apply setFrm_keeps
    | with_reducible apply hF
    | with_reducible apply hG
    | with_reducible apply hG'
    | with_reducible apply hH
    | with_reducible apply hU
    | split
    | simp only [↓keeps_mk]

theorem streamFinish_keeps {st : Nat} {s0 s : State} (hk : Keeps s0 s) : Keeps s0 (streamFinish s st) := by
  unfold streamFinish
  repeat' first
    | with_reducible assumption
    | with_reducible apply streamJudge_keeps
    | with_reducible apply setFrm_keeps
    | simp only [↓keeps_mk]

theorem streamCutShort_keeps {st : Nat} {s0 s : State} (hk : Keeps s0 s) : Keeps s0 (streamCutShort s st) := by
  unfold streamCutShort
  repeat' first
    | with_reducible assumption
    | (intro)
    | (extract_lets +onlyGivenNames lx; first | ((first | refine keeps_cut lx ?_ (fun _ => ?_) | refine keeps_cut1 lx ?_ (fun _ => ?_) | refine keeps_cut2 lx ?_ (fun _ => ?_)); rotate_left; clear_value lx; revert lx; intro y hy; rotate_right; subst lx) | (refine keeps_cutF lx ?_ (fun _ => ?_); rotate_left; clear_value lx; revert lx; intro y hF; rotate_right; subst lx) | (refine keeps_cutG lx ?_ (fun _ => ?_); rotate_left; clear_value lx; revert lx; intro y hG; rotate_right; subst lx) | (refine keeps_cutG' lx ?_ (fun _ => ?_); rotate_left; clear_value lx; revert lx; intro y hG'; rotate_right; subst lx) | (refine keeps_cutH lx ?_ (fun _ => ?_); rotate_left; clear_value lx; revert lx; intro y hH; rotate_right; subst lx) | (refine keeps_cutU lx ?_ (fun _ => ?_); rotate_left; clear_value lx; revert lx; intro y hU; rotate_right; subst lx) | (clear_value lx; revert lx; intro y) | subst lx)
    | with_reducible apply cutEnd_keeps
    | with_reducible apply setCut_keeps
    | with_reducible apply setFrm_keeps
    | with_reducible apply checkStream_keeps
    | with_reducible apply imageCut_keeps
    | with_reducible apply hF
    | with_reducible apply hG
    | with_reducible apply hG'
    | with_reducible apply hH
    | with_reducible apply hU
    | split
    | simp only [↓keeps_mk]

theorem holdLimit_keeps {st : Nat} {s0 s : State} (hk : Keeps s0 s) : Keeps s0 (holdLimit st s) := by
  unfold holdLimit
  repeat' first
    | with_reducible assumption
    | with_reducible apply streamCutShort_keeps
    | split

theorem streamStart_keeps {st : Nat} {s0 s : State} (hk : Keeps s0 s) : Keeps s0 (streamStart s st) := by
  unfold streamStart
  repeat' first
    | with_reducible assumption
    | (intro)
    | (extract_lets +onlyGivenNames lx; first | (refine keeps_cut lx ?_ (fun _ => ?_); rotate_left; clear_value lx; revert lx; intro y hy; rotate_right; subst lx) | (clear_value lx; revert lx; intro y) | subst lx)
    | with_reducible apply imageCut_keeps
    | with_reducible apply setStr_keeps
    | with_reducible apply setFrm_keeps
    | with_reducible apply showFree_keeps
    | with_reducible apply setCut_keeps
    | with_reducible apply foldl_keeps
    | simp only [↓keeps_mk]

theorem lineAssemble_keeps {st : Nat} {s0 s : State} (hk : Keeps s0 s) : Keeps s0 (lineAssemble st s) := by
  unfold lineAssemble
  repeat' first
    | with_reducible assumption
    | (intro)
    | (extract_lets +onlyGivenNames lx; first | (refine keeps_cut lx ?_ (fun _ => ?_); rotate_left; clear_value lx; revert lx; intro y hy; rotate_right; subst lx) | (clear_value lx; revert lx; intro y) | subst lx)
    | with_reducible apply setStr_keeps
    | with_reducible apply later_keeps
    | with_reducible apply showLag_keeps
    | with_reducible apply freeSlots_keeps
    | with_reducible apply areaLine_keeps
    | with_reducible apply onlyIf_keeps
    | with_reducible apply freeNext_keeps
    | with_reducible apply routeLine_keeps
    | with_reducible apply setFrm_keeps
    | with_reducible apply checkStream_keeps
    | with_reducible apply streamJudge_keeps
    | split
    | simp only [↓keeps_mk]

theorem triggerEnd_keeps {st : Nat} {s0 s : State} (hk : Keeps s0 s) : Keeps s0 (triggerEnd st s) := by
  unfold triggerEnd
  repeat' first
    | with_reducible assumption
    | with_reducible apply later_keeps
    | with_reducible apply stakesCheck_keeps
    | split
    | simp only [↓keeps_mk]

theorem leadCopyComplete_keeps {st : Nat} {s0 s : State} (hk : Keeps s0 s) : Keeps s0 (leadCopyComplete st s) := by
  unfold leadCopyComplete
  repeat' first
    | with_reducible assumption
    | (intro)
    | (extract_lets +onlyGivenNames lx; first | (refine keeps_cut lx ?_ (fun _ => ?_); rotate_left; clear_value lx; revert lx; intro y hy; rotate_right; subst lx) | (refine keeps_cutF lx ?_ (fun _ => ?_); rotate_left; clear_value lx; revert lx; intro y hF; rotate_right; subst lx) | (refine keeps_cutG lx ?_ (fun _ => ?_); rotate_left; clear_value lx; revert lx; intro y hG; rotate_right; subst lx) | (refine keeps_cutG' lx ?_ (fun _ => ?_); rotate_left; clear_value lx; revert lx; intro y hG'; rotate_right; subst lx) | (refine keeps_cutH lx ?_ (fun _ => ?_); rotate_left; clear_value lx; revert lx; intro y hH; rotate_right; subst lx) | (refine keeps_cutU lx ?_ (fun _ => ?_); rotate_left; clear_value lx; revert lx; intro y hU; rotate_right; subst lx) | (clear_value lx; revert lx; intro y) | subst lx)
    | with_reducible apply setFrm_keeps
    | with_reducible apply onlyIf_keeps
    | with_reducible apply wr_keeps
    | with_reducible apply each_keeps
    | with_reducible apply setRun_keeps
    | with_reducible apply feed_keeps
    | with_reducible apply later_keeps
    | with_reducible apply checkStream_keeps
    | with_reducible apply streamJudge_keeps
    | with_reducible apply freeSlots_keeps
    | with_reducible apply hF
    | with_reducible apply hG
    | with_reducible apply hG'
    | with_reducible apply hH
    | with_reducible apply hU
    | split
    | simp only [↓keeps_mk]

theorem framesHandover_keeps  {s0 s : State} (hk : Keeps s0 s) : Keeps s0 (framesHandover s) := by
  unfold framesHandover
  repeat' first
    | with_reducible assumption
    | (intro)
    | (extract_lets +onlyGivenNames lx; first | (refine keeps_cut lx ?_ (fun _ => ?_); rotate_left; clear_value lx; revert lx; intro y hy; rotate_right; subst lx) | (refine keeps_cutF lx ?_ (fun _ => ?_); rotate_left; clear_value lx; revert lx; intro y hF; rotate_right; subst lx) | (refine keeps_cutG lx ?_ (fun _ => ?_); rotate_left; clear_value lx; revert lx; intro y hG; rotate_right; subst lx) | (refine keeps_cutG' lx ?_ (fun _ => ?_); rotate_left; clear_value lx; revert lx; intro y hG'; rotate_right; subst lx) | (refine keeps_cutH lx ?_ (fun _ => ?_); rotate_left; clear_value lx; revert lx; intro y hH; rotate_right; subst lx) | (refine keeps_cutU lx ?_ (fun _ => ?_); rotate_left; clear_value lx; revert lx; intro y hU; rotate_right; subst lx) | (clear_value lx; revert lx; intro y) | subst lx)
    | with_reducible apply each_keeps
    | with_reducible apply setFrm_keeps
    | with_reducible apply setCut_keeps
    | with_reducible apply hF
    | with_reducible apply hG
    | with_reducible apply hG'
    | with_reducible apply hH
    | with_reducible apply hU
    | split
    | simp only [↓keeps_mk]

theorem framesRefresh_keeps  {s0 s : State} (hk : Keeps s0 s) : Keeps s0 (framesRefresh s) := by
  unfold framesRefresh
  repeat' first
    | with_reducible assumption
    | (intro)
    | with_reducible apply each_keeps
    | with_reducible apply streamStart_keeps

theorem framesConjEnd_keeps  {s0 s : State} (hk : Keeps s0 s) : Keeps s0 (framesConjEnd s) := by
  unfold framesConjEnd
  repeat' first
    | with_reducible assumption
    | (intro)
    | with_reducible apply each_keeps
    | with_reducible apply freeSlots_keeps
    | with_reducible apply setFrm_keeps
    | split
    | simp only [↓keeps_mk]

end Sys2Proof.Machine
end

