-- ==== Sys2Proof/Laws/KeepsDelivery.lean ====
section
/-! SUPPORT. What every operation keeps (`Keeps`), one lemma per operation: pixel engines and delivery. -/

set_option linter.all false

namespace Sys2Proof.Machine

theorem hostWrite_keeps {addr : Nat} {data : List Byte} {ro : Bool} {s0 s : State} (hk : Keeps s0 s) : Keeps s0 (hostWrite s addr data ro) := by
  unfold hostWrite
  repeat' first
    | with_reducible assumption
    | (intro)
    | (extract_lets +onlyGivenNames lx; first | ((first | refine keeps_cut lx ?_ (fun _ => ?_) | refine keeps_cut1 lx ?_ (fun _ => ?_) | refine keeps_cut2 lx ?_ (fun _ => ?_)); rotate_left; clear_value lx; revert lx; intro y hy; rotate_right; subst lx) | (clear_value lx; revert lx; intro y) | subst lx)
    | with_reducible apply each_keeps
    | with_reducible apply send_keeps

theorem issueRead_keeps {r : ReadReqS} {s0 s : State} (hk : Keeps s0 s) : Keeps s0 (issueRead s r) := by
  unfold issueRead
  repeat' first
    | with_reducible assumption
    | with_reducible apply send_keeps
    | split
    | simp only [↓keeps_mk]

theorem noteServed_keeps {w : Requester} {s0 s : State} (hk : Keeps s0 s) : Keeps s0 (noteServed s w) := by
  unfold noteServed
  repeat' first
    | with_reducible assumption
    | split
    | simp only [↓keeps_mk]

theorem issueAll_keeps  {a1 : List Requester} {a2 : List ReadReqS} {s0 s : State} (hk : Keeps s0 s) : Keeps s0 (issueAll s a1 a2).1 := by
  induction a2 generalizing s a1 with
  | nil => exact hk
  | cons e l ih =>
    unfold issueAll
    repeat' first
      | with_reducible assumption
      | (extract_lets +onlyGivenNames lx; first | ((first | refine keeps_cut lx ?_ (fun _ => ?_) | refine keeps_cut1 lx ?_ (fun _ => ?_) | refine keeps_cut2 lx ?_ (fun _ => ?_)); rotate_left; clear_value lx; revert lx; intro y hy; rotate_right; subst lx) | (clear_value lx; revert lx; intro y) | subst lx)
      | with_reducible apply ih
      | with_reducible apply issueRead_keeps
      | with_reducible apply noteServed_keeps
      | split

theorem pumpOnce_keeps  {s0 s : State} (hk : Keeps s0 s) : Keeps s0 (pumpOnce s) := by
  unfold pumpOnce
  repeat' first
    | with_reducible assumption
    | (intro)
    | (extract_lets +onlyGivenNames lx; first | ((first | refine keeps_cut lx ?_ (fun _ => ?_) | refine keeps_cut1 lx ?_ (fun _ => ?_) | refine keeps_cut2 lx ?_ (fun _ => ?_)); rotate_left; clear_value lx; revert lx; intro y hy; rotate_right; subst lx) | (refine keeps_cutF lx ?_ (fun _ => ?_); rotate_left; clear_value lx; revert lx; intro y hF; rotate_right; subst lx) | (refine keeps_cutG lx ?_ (fun _ => ?_); rotate_left; clear_value lx; revert lx; intro y hG; rotate_right; subst lx) | (refine keeps_cutG' lx ?_ (fun _ => ?_); rotate_left; clear_value lx; revert lx; intro y hG'; rotate_right; subst lx) | (refine keeps_cutH lx ?_ (fun _ => ?_); rotate_left; clear_value lx; revert lx; intro y hH; rotate_right; subst lx) | (refine keeps_cutU lx ?_ (fun _ => ?_); rotate_left; clear_value lx; revert lx; intro y hU; rotate_right; subst lx) | (clear_value lx; revert lx; intro y) | subst lx)
    | with_reducible apply issueAll_keeps
    | with_reducible apply hF
    | with_reducible apply hG
    | with_reducible apply hG'
    | with_reducible apply hH
    | with_reducible apply hU
    | simp only [↓keeps_mk]

theorem pumpReads_keeps  {a0 : Nat} {s0 s : State} (hk : Keeps s0 s) : Keeps s0 (pumpReads a0 s) := by
  induction a0 generalizing s with
  | zero => exact hk
  | succ n ih =>
    unfold pumpReads
    repeat' first
      | with_reducible assumption
      | (extract_lets +onlyGivenNames lx; first | (refine keeps_cut lx ?_ (fun _ => ?_); rotate_left; clear_value lx; revert lx; intro y hy; rotate_right; subst lx) | (clear_value lx; revert lx; intro y) | subst lx)
      | with_reducible apply ih
      | with_reducible apply pumpOnce_keeps
      | split

theorem serveReads_keeps  {s0 s : State} (hk : Keeps s0 s) : Keeps s0 (serveReads s) := by
  unfold serveReads
  repeat' first
    | with_reducible assumption
    | (intro)
    | (extract_lets +onlyGivenNames lx; first | (refine keeps_cut lx ?_ (fun _ => ?_); rotate_left; clear_value lx; revert lx; intro y hy; rotate_right; subst lx) | (clear_value lx; revert lx; intro y) | subst lx)
    | with_reducible apply pumpReads_keeps
    | with_reducible apply onlyIf_keeps
    | with_reducible apply addWrap_keeps

theorem wantRead_keeps {who : Requester} {addr len : Nat} {s0 s : State} (hk : Keeps s0 s) : Keeps s0 (wantRead s who addr len) := by
  unfold wantRead
  repeat' first
    | with_reducible assumption
    | (intro)
    | (extract_lets +onlyGivenNames lx; first | ((first | refine keeps_cut lx ?_ (fun _ => ?_) | refine keeps_cut1 lx ?_ (fun _ => ?_) | refine keeps_cut2 lx ?_ (fun _ => ?_)); rotate_left; clear_value lx; revert lx; intro y hy; rotate_right; subst lx) | (clear_value lx; revert lx; intro y) | subst lx)
    | with_reducible apply laterOnce_keeps
    | with_reducible apply each_keeps
    | split
    | simp only [↓keeps_mk]

theorem correctable_keeps {bit : Nat} {s0 s : State} (hk : Keeps s0 s) : Keeps s0 (correctable s bit) := by
  unfold correctable
  repeat' first
    | with_reducible assumption
    | (extract_lets +onlyGivenNames lx; first | (refine keeps_cut lx ?_ (fun _ => ?_); rotate_left; clear_value lx; revert lx; intro y hy; rotate_right; subst lx) | (clear_value lx; revert lx; intro y) | subst lx)
    | with_reducible apply cfgOr_keeps
    | with_reducible apply raise_keeps
    | with_reducible apply windowInc_keeps
    | with_reducible apply addSat_keeps
    | with_reducible apply send_keeps
    | split

theorem headLog_keeps {h : List Nat} {s0 s : State} (hk : Keeps s0 s) : Keeps s0 (headLog s h) := by
  unfold headLog
  repeat' first
    | with_reducible assumption
    | (intro)
    | with_reducible apply each_keeps
    | with_reducible apply cfgSet_keeps
    | with_reducible apply freeNext_keeps
    | split

theorem logError_keeps {bit : Nat} {tlp : Option (List Nat)} {s0 s : State} (hk : Keeps s0 s) : Keeps s0 (logError s bit tlp) := by
  unfold logError
  repeat' first
    | with_reducible assumption
    | (extract_lets +onlyGivenNames lx; first | (refine keeps_cut lx ?_ (fun _ => ?_); rotate_left; clear_value lx; revert lx; intro y hy; rotate_right; subst lx) | (clear_value lx; revert lx; intro y) | subst lx)
    | with_reducible apply cfgOr_keeps
    | with_reducible apply cfgSet_keeps
    | with_reducible apply headLog_keeps
    | split
    | simp only [↓keeps_mk]

theorem advisory_keeps {bit : Nat} {head : List Nat} {s0 s : State} (hk : Keeps s0 s) : Keeps s0 (advisory s bit head) := by
  unfold advisory
  repeat' first
    | with_reducible assumption
    | with_reducible apply correctable_keeps
    | with_reducible apply logError_keeps

theorem uncorrectable_keeps {bit : Nat} {tlp : Option (List Nat)} {s0 s : State} (hk : Keeps s0 s) : Keeps s0 (uncorrectable s bit tlp) := by
  unfold uncorrectable
  repeat' first
    | with_reducible assumption
    | (extract_lets +onlyGivenNames lx; first | (refine keeps_cut lx ?_ (fun _ => ?_); rotate_left; clear_value lx; revert lx; intro y hy; rotate_right; subst lx) | (clear_value lx; revert lx; intro y) | subst lx)
    | with_reducible apply cfgOr_keeps
    | with_reducible apply logError_keeps
    | with_reducible apply send_keeps
    | split

theorem setPxe_keeps {st : Nat} {x : PxeS} {s0 s : State} (hk : Keeps s0 s) : Keeps s0 (setPxe s st x) := by
  unfold setPxe
  repeat' first
    | with_reducible assumption
    | simp only [↓keeps_mk]

theorem setChk_keeps {w : Nat} {s0 s : State} (hk : Keeps s0 s) : Keeps s0 (setChk s w) := by
  unfold setChk
  repeat' first
    | with_reducible assumption
    | with_reducible apply setReg_keeps

theorem chainRefresh_keeps {st : Nat} {s0 s : State} (hk : Keeps s0 s) : Keeps s0 (chainRefresh s st) := by
  unfold chainRefresh
  repeat' first
    | with_reducible assumption
    | (extract_lets +onlyGivenNames lx; first | ((first | refine keeps_cut lx ?_ (fun _ => ?_) | refine keeps_cut1 lx ?_ (fun _ => ?_) | refine keeps_cut2 lx ?_ (fun _ => ?_)); rotate_left; clear_value lx; revert lx; intro y hy; rotate_right; subst lx) | (clear_value lx; revert lx; intro y) | subst lx)
    | with_reducible apply wr_keeps
    | with_reducible apply wrB_keeps
    | with_reducible apply setPxe_keeps
    | with_reducible apply setChk_keeps
    | split
    | simp only [↓keeps_mk]

theorem chainsActive_keeps  {s0 s : State} (hk : Keeps s0 s) : Keeps s0 (chainsActive s) := by
  unfold chainsActive
  repeat' first
    | with_reducible assumption
    | (intro)
    | with_reducible apply each_keeps
    | with_reducible apply chainRefresh_keeps

theorem dropClosed_keeps {st : Nat} {f : Frame} {cause : Nat} {s0 s : State} (hk : Keeps s0 s) : Keeps s0 (dropClosed s st f cause) := by
  unfold dropClosed
  repeat' first
    | with_reducible assumption
    | (extract_lets +onlyGivenNames lx; first | (refine keeps_cut lx ?_ (fun _ => ?_); rotate_left; clear_value lx; revert lx; intro y hy; rotate_right; subst lx) | (clear_value lx; revert lx; intro y) | subst lx)
    | with_reducible apply wr_keeps
    | with_reducible apply addSat_keeps
    | with_reducible apply record_keeps
    | with_reducible apply raise_keeps
    | with_reducible apply removeFrame_keeps
    | with_reducible apply releaseSlot_keeps
    | with_reducible apply later_keeps
    | with_reducible apply showLag_keeps
    | with_reducible apply handOver_keeps
    | split
    | simp only [↓keeps_mk]

theorem campDrop_keeps {st id cause : Nat} {s0 s : State} (hk : Keeps s0 s) : Keeps s0 (campDrop s st id cause) := by
  unfold campDrop
  repeat' first
    | with_reducible assumption
    | (intro)
    | with_reducible apply dropClosed_keeps
    | with_reducible apply showLag_keeps
    | with_reducible apply setFrame_keeps
    | split
    | simp only [↓keeps_mk]

theorem frameClosed_keeps {st id : Nat} {s0 s : State} (hk : Keeps s0 s) : Keeps s0 (frameClosed s st id) := by
  unfold frameClosed
  repeat' first
    | with_reducible assumption
    | (intro)
    | (extract_lets +onlyGivenNames lx; first | (refine keeps_cut lx ?_ (fun _ => ?_); rotate_left; clear_value lx; revert lx; intro y hy; rotate_right; subst lx) | (refine keeps_cutF lx ?_ (fun _ => ?_); rotate_left; clear_value lx; revert lx; intro y hF; rotate_right; subst lx) | (refine keeps_cutG lx ?_ (fun _ => ?_); rotate_left; clear_value lx; revert lx; intro y hG; rotate_right; subst lx) | (refine keeps_cutG' lx ?_ (fun _ => ?_); rotate_left; clear_value lx; revert lx; intro y hG'; rotate_right; subst lx) | (refine keeps_cutH lx ?_ (fun _ => ?_); rotate_left; clear_value lx; revert lx; intro y hH; rotate_right; subst lx) | (refine keeps_cutU lx ?_ (fun _ => ?_); rotate_left; clear_value lx; revert lx; intro y hU; rotate_right; subst lx) | (clear_value lx; revert lx; intro y) | subst lx)
    | with_reducible apply onlyIf_keeps
    | with_reducible apply wr_keeps
    | with_reducible apply campDrop_keeps
    | with_reducible apply hF
    | with_reducible apply hG
    | with_reducible apply hG'
    | with_reducible apply hH
    | with_reducible apply hU
    | split
    | simp only [↓keeps_mk]

theorem lagAbandon_keeps  {a0 : Nat} {a2 : Nat} {s0 s : State} (hk : Keeps s0 s) : Keeps s0 (lagAbandon a0 s a2) := by
  induction a0 generalizing s a2 with
  | zero => exact hk
  | succ n ih =>
    unfold lagAbandon
    repeat' first
      | with_reducible assumption
      | with_reducible apply ih
      | with_reducible apply campDrop_keeps
      | split
      | simp only [↓keeps_mk]

theorem runChain_keeps {st : Nat} {f : Frame} {k : Nat} {s0 s : State} (hk : Keeps s0 s) : Keeps s0 (runChain s st f k) := by
  unfold runChain
  repeat' first
    | with_reducible assumption
    | (intro)
    | (extract_lets +onlyGivenNames lx; first | ((first | refine keeps_cut lx ?_ (fun _ => ?_) | refine keeps_cut1 lx ?_ (fun _ => ?_) | refine keeps_cut2 lx ?_ (fun _ => ?_)); rotate_left; clear_value lx; revert lx; intro y hy; rotate_right; subst lx) | (refine keeps_cutF lx ?_ (fun _ => ?_); rotate_left; clear_value lx; revert lx; intro y hF; rotate_right; subst lx) | (refine keeps_cutG lx ?_ (fun _ => ?_); rotate_left; clear_value lx; revert lx; intro y hG; rotate_right; subst lx) | (refine keeps_cutG' lx ?_ (fun _ => ?_); rotate_left; clear_value lx; revert lx; intro y hG'; rotate_right; subst lx) | (refine keeps_cutH lx ?_ (fun _ => ?_); rotate_left; clear_value lx; revert lx; intro y hH; rotate_right; subst lx) | (refine keeps_cutU lx ?_ (fun _ => ?_); rotate_left; clear_value lx; revert lx; intro y hU; rotate_right; subst lx) | (clear_value lx; revert lx; intro y) | subst lx)
    | with_reducible apply hbmWrite_keeps
    | with_reducible apply setFrame_keeps
    | with_reducible apply each_keeps
    | with_reducible apply addSat_keeps
    | with_reducible apply addWrap_keeps
    | with_reducible apply foldl_keeps
    | with_reducible apply hF
    | with_reducible apply hG
    | with_reducible apply hG'
    | with_reducible apply hH
    | with_reducible apply hU
    | split
    | simp only [↓keeps_mk]

theorem frameChainComplete_keeps {st : Nat} {s0 s : State} (hk : Keeps s0 s) : Keeps s0 (frameChainComplete st s) := by
  unfold frameChainComplete
  repeat' first
    | with_reducible assumption
    | (extract_lets +onlyGivenNames lx; first | (refine keeps_cut lx ?_ (fun _ => ?_); rotate_left; clear_value lx; revert lx; intro y hy; rotate_right; subst lx) | (clear_value lx; revert lx; intro y) | subst lx)
    | with_reducible apply addWrap_keeps
    | with_reducible apply runChain_keeps
    | with_reducible apply later_keeps
    | with_reducible apply showLag_keeps
    | with_reducible apply handOver_keeps
    | split
    | simp only [↓keeps_mk]

theorem substitute_keeps {st : Nat} {s0 s : State} (hk : Keeps s0 s) : Keeps s0 (substitute s st) := by
  unfold substitute
  repeat' first
    | with_reducible assumption
    | (intro)
    | (extract_lets +onlyGivenNames lx; first | (refine keeps_cut lx ?_ (fun _ => ?_); rotate_left; clear_value lx; revert lx; intro y hy; rotate_right; subst lx) | (refine keeps_cutF lx ?_ (fun _ => ?_); rotate_left; clear_value lx; revert lx; intro y hF; rotate_right; subst lx) | (refine keeps_cutG lx ?_ (fun _ => ?_); rotate_left; clear_value lx; revert lx; intro y hG; rotate_right; subst lx) | (refine keeps_cutG' lx ?_ (fun _ => ?_); rotate_left; clear_value lx; revert lx; intro y hG'; rotate_right; subst lx) | (refine keeps_cutH lx ?_ (fun _ => ?_); rotate_left; clear_value lx; revert lx; intro y hH; rotate_right; subst lx) | (refine keeps_cutU lx ?_ (fun _ => ?_); rotate_left; clear_value lx; revert lx; intro y hU; rotate_right; subst lx) | (clear_value lx; revert lx; intro y) | subst lx)
    | with_reducible apply setPxe_keeps
    | with_reducible apply each_keeps
    | with_reducible apply wr_keeps
    | with_reducible apply chainRefresh_keeps
    | with_reducible apply setChk_keeps
    | with_reducible apply hF
    | with_reducible apply hG
    | with_reducible apply hG'
    | with_reducible apply hH
    | with_reducible apply hU
    | split
    | simp only [↓keeps_mk]

theorem engineFault_keeps {e cause : Nat} {s0 s : State} (hk : Keeps s0 s) : Keeps s0 (engineFault s e cause) := by
  unfold engineFault
  repeat' first
    | with_reducible assumption
    | (intro)
    | (extract_lets +onlyGivenNames lx; first | (refine keeps_cut lx ?_ (fun _ => ?_); rotate_left; clear_value lx; revert lx; intro y hy; rotate_right; subst lx) | (refine keeps_cutF lx ?_ (fun _ => ?_); rotate_left; clear_value lx; revert lx; intro y hF; rotate_right; subst lx) | (refine keeps_cutG lx ?_ (fun _ => ?_); rotate_left; clear_value lx; revert lx; intro y hG; rotate_right; subst lx) | (refine keeps_cutG' lx ?_ (fun _ => ?_); rotate_left; clear_value lx; revert lx; intro y hG'; rotate_right; subst lx) | (refine keeps_cutH lx ?_ (fun _ => ?_); rotate_left; clear_value lx; revert lx; intro y hH; rotate_right; subst lx) | (refine keeps_cutU lx ?_ (fun _ => ?_); rotate_left; clear_value lx; revert lx; intro y hU; rotate_right; subst lx) | (clear_value lx; revert lx; intro y) | subst lx)
    | with_reducible apply wr_keeps
    | with_reducible apply raise_keeps
    | with_reducible apply record_keeps
    | with_reducible apply each_keeps
    | with_reducible apply campDrop_keeps
    | with_reducible apply setPxe_keeps
    | with_reducible apply hF
    | with_reducible apply hG
    | with_reducible apply hG'
    | with_reducible apply hH
    | with_reducible apply hU
    | split
    | simp only [↓keeps_mk]

theorem chainLineProcess_keeps {st : Nat} {x : ChainEcc} {s0 s : State} (hk : Keeps s0 s) : Keeps s0 (chainLineProcess st x s) := by
  unfold chainLineProcess
  repeat' first
    | with_reducible assumption
    | (intro)
    | (extract_lets +onlyGivenNames lx; first | (refine keeps_cut lx ?_ (fun _ => ?_); rotate_left; clear_value lx; revert lx; intro y hy; rotate_right; subst lx) | (refine keeps_cutF lx ?_ (fun _ => ?_); rotate_left; clear_value lx; revert lx; intro y hF; rotate_right; subst lx) | (refine keeps_cutG lx ?_ (fun _ => ?_); rotate_left; clear_value lx; revert lx; intro y hG; rotate_right; subst lx) | (refine keeps_cutG' lx ?_ (fun _ => ?_); rotate_left; clear_value lx; revert lx; intro y hG'; rotate_right; subst lx) | (refine keeps_cutH lx ?_ (fun _ => ?_); rotate_left; clear_value lx; revert lx; intro y hH; rotate_right; subst lx) | (refine keeps_cutU lx ?_ (fun _ => ?_); rotate_left; clear_value lx; revert lx; intro y hU; rotate_right; subst lx) | (clear_value lx; revert lx; intro y) | subst lx)
    | with_reducible apply setFrame_keeps
    | with_reducible apply setPxe_keeps
    | with_reducible apply each_keeps
    | with_reducible apply addWrap_keeps
    | with_reducible apply eccCorrected_keeps
    | with_reducible apply engineFault_keeps
    | with_reducible apply eccUncorrectable_keeps
    | with_reducible apply campDrop_keeps
    | with_reducible apply later_keeps
    | with_reducible apply showLag_keeps
    | with_reducible apply hF
    | with_reducible apply hG
    | with_reducible apply hG'
    | with_reducible apply hH
    | with_reducible apply hU
    | split
    | simp only [↓keeps_mk]

theorem engineWatchdog_keeps {e : Nat} {s0 s : State} (hk : Keeps s0 s) : Keeps s0 (engineWatchdog e s) := by
  unfold engineWatchdog
  repeat' first
    | with_reducible assumption
    | with_reducible apply engineFault_keeps
    | split

theorem rateWindowEnd_keeps {st : Nat} {s0 s : State} (hk : Keeps s0 s) : Keeps s0 (rateWindowEnd st s) := by
  unfold rateWindowEnd
  repeat' first
    | with_reducible assumption
    | (intro)
    | (extract_lets +onlyGivenNames lx; first | (refine keeps_cut lx ?_ (fun _ => ?_); rotate_left; clear_value lx; revert lx; intro y hy; rotate_right; subst lx) | (refine keeps_cutF lx ?_ (fun _ => ?_); rotate_left; clear_value lx; revert lx; intro y hF; rotate_right; subst lx) | (refine keeps_cutG lx ?_ (fun _ => ?_); rotate_left; clear_value lx; revert lx; intro y hG; rotate_right; subst lx) | (refine keeps_cutG' lx ?_ (fun _ => ?_); rotate_left; clear_value lx; revert lx; intro y hG'; rotate_right; subst lx) | (refine keeps_cutH lx ?_ (fun _ => ?_); rotate_left; clear_value lx; revert lx; intro y hH; rotate_right; subst lx) | (refine keeps_cutU lx ?_ (fun _ => ?_); rotate_left; clear_value lx; revert lx; intro y hU; rotate_right; subst lx) | (clear_value lx; revert lx; intro y) | subst lx)
    | with_reducible apply wr_keeps
    | with_reducible apply setPxe_keeps
    | with_reducible apply onlyIf_keeps
    | with_reducible apply record_keeps
    | with_reducible apply raise_keeps
    | with_reducible apply hF
    | with_reducible apply hG
    | with_reducible apply hG'
    | with_reducible apply hH
    | with_reducible apply hU
    | split
    | simp only [↓keeps_mk]

theorem campSelfTest_keeps {c : Nat} {failed : Nat} {s0 s : State} (hk : Keeps s0 s) : Keeps s0 (campSelfTest c failed s) := by
  unfold campSelfTest
  repeat' first
    | with_reducible assumption
    | (intro)
    | (extract_lets +onlyGivenNames lx; first | (refine keeps_cut lx ?_ (fun _ => ?_); rotate_left; clear_value lx; revert lx; intro y hy; rotate_right; subst lx) | (refine keeps_cutF lx ?_ (fun _ => ?_); rotate_left; clear_value lx; revert lx; intro y hF; rotate_right; subst lx) | (refine keeps_cutG lx ?_ (fun _ => ?_); rotate_left; clear_value lx; revert lx; intro y hG; rotate_right; subst lx) | (refine keeps_cutG' lx ?_ (fun _ => ?_); rotate_left; clear_value lx; revert lx; intro y hG'; rotate_right; subst lx) | (refine keeps_cutH lx ?_ (fun _ => ?_); rotate_left; clear_value lx; revert lx; intro y hH; rotate_right; subst lx) | (refine keeps_cutU lx ?_ (fun _ => ?_); rotate_left; clear_value lx; revert lx; intro y hU; rotate_right; subst lx) | (clear_value lx; revert lx; intro y) | subst lx)
    | with_reducible apply each_keeps
    | with_reducible apply wr_keeps
    | with_reducible apply setReg_keeps
    | with_reducible apply chainRefresh_keeps
    | with_reducible apply hF
    | with_reducible apply hG
    | with_reducible apply hG'
    | with_reducible apply hH
    | with_reducible apply hU
    | split

theorem campStopped_keeps {c : Nat} {s0 s : State} (hk : Keeps s0 s) : Keeps s0 (campStopped s c) := by
  unfold campStopped
  repeat' first
    | with_reducible assumption
    | (intro)
    | (extract_lets +onlyGivenNames lx; first | (refine keeps_cut lx ?_ (fun _ => ?_); rotate_left; clear_value lx; revert lx; intro y hy; rotate_right; subst lx) | (clear_value lx; revert lx; intro y) | subst lx)
    | with_reducible apply each_keeps
    | with_reducible apply chainRefresh_keeps
    | with_reducible apply campDrop_keeps

theorem ctxStore_keeps {key : Nat} {c : QCtx} {s0 s : State} (hk : Keeps s0 s) : Keeps s0 (ctxStore s key c) := by
  unfold ctxStore
  repeat' first
    | with_reducible assumption
    | with_reducible apply hbmWrite_keeps

theorem setCache_keeps {key : Nat} {l : List CacheWay} {s0 s : State} (hk : Keeps s0 s) : Keeps s0 (setCache s key l) := by
  unfold setCache
  repeat' first
    | with_reducible assumption
    | simp only [↓keeps_mk]

theorem touchKey_keeps {key : Nat} {s0 s : State} (hk : Keeps s0 s) : Keeps s0 (touchKey s key) := by
  unfold touchKey
  repeat' first
    | with_reducible assumption
    | (intro)
    | (extract_lets +onlyGivenNames lx; first | (refine keeps_cut lx ?_ (fun _ => ?_); rotate_left; clear_value lx; revert lx; intro y hy; rotate_right; subst lx) | (clear_value lx; revert lx; intro y) | subst lx)
    | with_reducible apply setCache_keeps
    | with_reducible apply addWrap_keeps
    | with_reducible apply onlyIf_keeps
    | with_reducible apply ctxStore_keeps
    | split
    | simp only [↓keeps_mk]

theorem touchCtx_keeps {q : Nat} {s0 s : State} (hk : Keeps s0 s) : Keeps s0 (touchCtx s q) := by
  unfold touchCtx
  repeat' first
    | with_reducible assumption
    | with_reducible apply touchKey_keeps

theorem putCtx_keeps {key : Nat} {c : QCtx} {s0 s : State} (hk : Keeps s0 s) : Keeps s0 (putCtx s key c) := by
  unfold putCtx
  repeat' first
    | with_reducible assumption
    | (intro)
    | (extract_lets +onlyGivenNames lx; first | (refine keeps_cut lx ?_ (fun _ => ?_); rotate_left; clear_value lx; revert lx; intro y hy; rotate_right; subst lx) | (clear_value lx; revert lx; intro y) | subst lx)
    | with_reducible apply touchKey_keeps
    | with_reducible apply setCache_keeps
    | split
    | simp only [↓keeps_mk]

theorem setQueue_keeps {q : Nat} {x : Queue} {s0 s : State} (hk : Keeps s0 s) : Keeps s0 (setQueue s q x) := by
  unfold setQueue
  repeat' first
    | with_reducible assumption
    | with_reducible apply putCtx_keeps
    | simp only [↓keeps_mk]

theorem setCtx_keeps {q : Nat} {f : QCtx → QCtx} {s0 s : State} (hk : Keeps s0 s) : Keeps s0 (setCtx s q f) := by
  unfold setCtx
  repeat' first
    | with_reducible assumption
    | (extract_lets +onlyGivenNames lx; first | (refine keeps_cut lx ?_ (fun _ => ?_); rotate_left; clear_value lx; revert lx; intro y hy; rotate_right; subst lx) | (clear_value lx; revert lx; intro y) | subst lx)
    | with_reducible apply setQueue_keeps
    | simp only [↓keeps_mk]

theorem groupCause_keeps {g : Nat} {s0 s : State} (hk : Keeps s0 s) : Keeps s0 (groupCause s g) := by
  unfold groupCause
  repeat' first
    | with_reducible assumption
    | (extract_lets +onlyGivenNames lx; first | (refine keeps_cut lx ?_ (fun _ => ?_); rotate_left; clear_value lx; revert lx; intro y hy; rotate_right; subst lx) | (clear_value lx; revert lx; intro y) | subst lx)
    | with_reducible apply raise_keeps
    | split
    | simp only [↓keeps_mk]

theorem groupHoldoffEnd_keeps {g : Nat} {s0 s : State} (hk : Keeps s0 s) : Keeps s0 (groupHoldoffEnd g s) := by
  unfold groupHoldoffEnd
  repeat' first
    | with_reducible assumption
    | (extract_lets +onlyGivenNames lx; first | (refine keeps_cut lx ?_ (fun _ => ?_); rotate_left; clear_value lx; revert lx; intro y hy; rotate_right; subst lx) | (clear_value lx; revert lx; intro y) | subst lx)
    | with_reducible apply groupCause_keeps
    | split
    | simp only [↓keeps_mk]

theorem xoffUpdate_keeps  {s0 s : State} (hk : Keeps s0 s) : Keeps s0 (xoffUpdate s) := by
  unfold xoffUpdate
  repeat' first
    | with_reducible assumption
    | (intro)
    | with_reducible apply each_keeps
    | with_reducible apply wrB_keeps

theorem updateGroup_keeps {g : Nat} {s0 s : State} (hk : Keeps s0 s) : Keeps s0 (updateGroup s g) := by
  unfold updateGroup
  repeat' first
    | with_reducible assumption
    | (intro)
    | (extract_lets +onlyGivenNames lx; first | (refine keeps_cut lx ?_ (fun _ => ?_); rotate_left; clear_value lx; revert lx; intro y hy; rotate_right; subst lx) | (refine keeps_cutF lx ?_ (fun _ => ?_); rotate_left; clear_value lx; revert lx; intro y hF; rotate_right; subst lx) | (refine keeps_cutG lx ?_ (fun _ => ?_); rotate_left; clear_value lx; revert lx; intro y hG; rotate_right; subst lx) | (refine keeps_cutG' lx ?_ (fun _ => ?_); rotate_left; clear_value lx; revert lx; intro y hG'; rotate_right; subst lx) | (refine keeps_cutH lx ?_ (fun _ => ?_); rotate_left; clear_value lx; revert lx; intro y hH; rotate_right; subst lx) | (refine keeps_cutU lx ?_ (fun _ => ?_); rotate_left; clear_value lx; revert lx; intro y hU; rotate_right; subst lx) | (clear_value lx; revert lx; intro y) | subst lx)
    | with_reducible apply wr_keeps
    | with_reducible apply wrB_keeps
    | with_reducible apply onlyIf_keeps
    | with_reducible apply groupCause_keeps
    | with_reducible apply xoffUpdate_keeps
    | with_reducible apply hF
    | with_reducible apply hG
    | with_reducible apply hG'
    | with_reducible apply hH
    | with_reducible apply hU
    | split

theorem groupFlag_keeps {g : Nat} {f : FRef} {s0 s : State} (hk : Keeps s0 s) : Keeps s0 (groupFlag s g f) := by
  unfold groupFlag
  repeat' first
    | with_reducible assumption
    | with_reducible apply groupCause_keeps
    | with_reducible apply wr_keeps
    | split

theorem notifyPush_keeps {g q : Nat} {s0 s : State} (hk : Keeps s0 s) : Keeps s0 (notifyPush s g q) := by
  unfold notifyPush
  repeat' first
    | with_reducible assumption
    | (intro)
    | (extract_lets +onlyGivenNames lx; first | (refine keeps_cut lx ?_ (fun _ => ?_); rotate_left; clear_value lx; revert lx; intro y hy; rotate_right; subst lx) | (clear_value lx; revert lx; intro y) | subst lx)
    | with_reducible apply updateGroup_keeps
    | with_reducible apply onlyIf_keeps
    | with_reducible apply groupCause_keeps
    | with_reducible apply wr_keeps
    | split
    | simp only [↓keeps_mk]

theorem groupFifoRead_keeps {g : Nat} {s0 s : State} (hk : Keeps s0 s) : Keeps s0 (groupFifoRead g s) := by
  unfold groupFifoRead
  repeat' first
    | with_reducible assumption
    | (extract_lets +onlyGivenNames lx; first | (refine keeps_cut lx ?_ (fun _ => ?_); rotate_left; clear_value lx; revert lx; intro y hy; rotate_right; subst lx) | (clear_value lx; revert lx; intro y) | subst lx)
    | with_reducible apply updateGroup_keeps
    | split
    | simp only [↓keeps_mk]

theorem releaseItem_keeps {o : Offer} {s0 s : State} (hk : Keeps s0 s) : Keeps s0 (releaseItem s o) := by
  unfold releaseItem
  repeat' first
    | with_reducible assumption
    | with_reducible apply releaseSlot_keeps
    | split
    | simp only [↓keeps_mk]

theorem writeEntry_keeps {q pos k : Nat} {entry : List Byte} {s0 s : State} (hk : Keeps s0 s) : Keeps s0 (writeEntry s q pos k entry) := by
  unfold writeEntry
  repeat' first
    | with_reducible assumption
    | (intro)
    | (extract_lets +onlyGivenNames lx; first | (refine keeps_cut lx ?_ (fun _ => ?_); rotate_left; clear_value lx; revert lx; intro y hy; rotate_right; subst lx) | (clear_value lx; revert lx; intro y) | subst lx)
    | with_reducible apply hostWrite_keeps
    | with_reducible apply setQueue_keeps
    | with_reducible apply notifyPush_keeps
    | with_reducible apply setCtx_keeps
    | split
    | simp only [↓keeps_mk]

theorem fetchDescs_keeps {q : Nat} {s0 s : State} (hk : Keeps s0 s) : Keeps s0 (fetchDescs s q) := by
  unfold fetchDescs
  repeat' first
    | with_reducible assumption
    | (extract_lets +onlyGivenNames lx; first | (refine keeps_cut lx ?_ (fun _ => ?_); rotate_left; clear_value lx; revert lx; intro y hy; rotate_right; subst lx) | (clear_value lx; revert lx; intro y) | subst lx)
    | with_reducible apply wantRead_keeps
    | with_reducible apply setQueue_keeps
    | split
    | simp only [↓keeps_mk]

theorem fetchOwn_keeps {q num : Nat} {s0 s : State} (hk : Keeps s0 s) : Keeps s0 (fetchOwn s q num) := by
  unfold fetchOwn
  repeat' first
    | with_reducible assumption
    | (extract_lets +onlyGivenNames lx; first | (refine keeps_cut lx ?_ (fun _ => ?_); rotate_left; clear_value lx; revert lx; intro y hy; rotate_right; subst lx) | (clear_value lx; revert lx; intro y) | subst lx)
    | with_reducible apply wantRead_keeps
    | split

theorem clearQueue_keeps {q : Nat} {s0 s : State} (hk : Keeps s0 s) : Keeps s0 (clearQueue s q).1 := by
  unfold clearQueue
  repeat' first
    | with_reducible assumption
    | (intro)
    | (extract_lets +onlyGivenNames lx; first | ((first | refine keeps_cut lx ?_ (fun _ => ?_) | refine keeps_cut1 lx ?_ (fun _ => ?_) | refine keeps_cut2 lx ?_ (fun _ => ?_)); rotate_left; clear_value lx; revert lx; intro y hy; rotate_right; subst lx) | (refine keeps_cutF lx ?_ (fun _ => ?_); rotate_left; clear_value lx; revert lx; intro y hF; rotate_right; subst lx) | (refine keeps_cutG lx ?_ (fun _ => ?_); rotate_left; clear_value lx; revert lx; intro y hG; rotate_right; subst lx) | (refine keeps_cutG' lx ?_ (fun _ => ?_); rotate_left; clear_value lx; revert lx; intro y hG'; rotate_right; subst lx) | (refine keeps_cutH lx ?_ (fun _ => ?_); rotate_left; clear_value lx; revert lx; intro y hH; rotate_right; subst lx) | (refine keeps_cutU lx ?_ (fun _ => ?_); rotate_left; clear_value lx; revert lx; intro y hU; rotate_right; subst lx) | (clear_value lx; revert lx; intro y) | subst lx)
    | with_reducible apply setQueue_keeps
    | with_reducible apply each_keeps
    | with_reducible apply releaseItem_keeps
    | with_reducible apply hF
    | with_reducible apply hG
    | with_reducible apply hG'
    | with_reducible apply hH
    | with_reducible apply hU
    | split
    | simp only [↓keeps_mk]

theorem cancelReads_keeps {q : Nat} {s0 s : State} (hk : Keeps s0 s) : Keeps s0 (cancelReads s q) := by
  unfold cancelReads
  repeat' first
    | with_reducible assumption
    | (intro)
    | (extract_lets +onlyGivenNames lx; first | ((first | refine keeps_cut lx ?_ (fun _ => ?_) | refine keeps_cut1 lx ?_ (fun _ => ?_) | refine keeps_cut2 lx ?_ (fun _ => ?_)); rotate_left; clear_value lx; revert lx; intro y hy; rotate_right; subst lx) | (refine keeps_cutF lx ?_ (fun _ => ?_); rotate_left; clear_value lx; revert lx; intro y hF; rotate_right; subst lx) | (refine keeps_cutG lx ?_ (fun _ => ?_); rotate_left; clear_value lx; revert lx; intro y hG; rotate_right; subst lx) | (refine keeps_cutG' lx ?_ (fun _ => ?_); rotate_left; clear_value lx; revert lx; intro y hG'; rotate_right; subst lx) | (refine keeps_cutH lx ?_ (fun _ => ?_); rotate_left; clear_value lx; revert lx; intro y hH; rotate_right; subst lx) | (refine keeps_cutU lx ?_ (fun _ => ?_); rotate_left; clear_value lx; revert lx; intro y hU; rotate_right; subst lx) | (clear_value lx; revert lx; intro y) | subst lx)
    | with_reducible apply hF
    | with_reducible apply hG
    | with_reducible apply hG'
    | with_reducible apply hH
    | with_reducible apply hU
    | split
    | simp only [↓keeps_mk]

theorem queueFault_keeps {q addr cause : Nat} {s0 s : State} (hk : Keeps s0 s) : Keeps s0 (queueFault s q addr cause) := by
  unfold queueFault
  repeat' first
    | with_reducible assumption
    | (extract_lets +onlyGivenNames lx; first | ((first | refine keeps_cut lx ?_ (fun _ => ?_) | refine keeps_cut1 lx ?_ (fun _ => ?_)); rotate_left; clear_value lx; revert lx; intro y hy; rotate_right; subst lx) | (clear_value lx; revert lx; intro y) | subst lx)
    | with_reducible apply clearQueue_keeps
    | with_reducible apply setQueue_keeps
    | with_reducible apply cancelReads_keeps
    | with_reducible apply groupFlag_keeps
    | with_reducible apply record_keeps
    | with_reducible apply updateGroup_keeps
    | simp only [↓keeps_mk]

theorem contextFault_keeps {q a addr : Nat} {s0 s : State} (hk : Keeps s0 s) : Keeps s0 (contextFault s q a addr) := by
  unfold contextFault
  repeat' first
    | with_reducible assumption
    | with_reducible apply wr_keeps
    | with_reducible apply queueFault_keeps
    | with_reducible apply eccUncorrectable_keeps

theorem ctxAccess_keeps {q : Nat} {x : CtxEcc} {s0 s : State} (hk : Keeps s0 s) : Keeps s0 (ctxAccess s q x).1 := by
  unfold ctxAccess
  repeat' first
    | with_reducible assumption
    | (extract_lets +onlyGivenNames lx; first | (refine keeps_cut lx ?_ (fun _ => ?_); rotate_left; clear_value lx; revert lx; intro y hy; rotate_right; subst lx) | (clear_value lx; revert lx; intro y) | subst lx)
    | with_reducible apply touchCtx_keeps
    | with_reducible apply contextFault_keeps
    | split
    | simp only [↓keeps_mk]

theorem countDrop_keeps {c : QCtx} {s0 s : State} (hk : Keeps s0 s) : Keeps s0 (countDrop s c) := by
  unfold countDrop
  repeat' first
    | with_reducible assumption
    | (intro)
    | (extract_lets +onlyGivenNames lx; first | (refine keeps_cut lx ?_ (fun _ => ?_); rotate_left; clear_value lx; revert lx; intro y hy; rotate_right; subst lx) | (clear_value lx; revert lx; intro y) | subst lx)
    | with_reducible apply addSat_keeps
    | with_reducible apply onlyIf_keeps

theorem dropItem_keeps {q : Nat} {o : Offer} {reason : Nat} {s0 s : State} (hk : Keeps s0 s) : Keeps s0 (dropItem s q o reason) := by
  unfold dropItem
  repeat' first
    | with_reducible assumption
    | (extract_lets +onlyGivenNames lx; first | (refine keeps_cut lx ?_ (fun _ => ?_); rotate_left; clear_value lx; revert lx; intro y hy; rotate_right; subst lx) | (clear_value lx; revert lx; intro y) | subst lx)
    | with_reducible apply releaseItem_keeps
    | with_reducible apply setQueue_keeps
    | with_reducible apply countDrop_keeps
    | split
    | simp only [↓keeps_mk]

theorem admitItem_keeps {q : Nat} {o : Offer} {bufs : Option (List (Nat × Nat))} {s0 s : State} (hk : Keeps s0 s) : Keeps s0 (admitItem s q o bufs) := by
  unfold admitItem
  repeat' first
    | with_reducible assumption
    | (extract_lets +onlyGivenNames lx; first | (refine keeps_cut lx ?_ (fun _ => ?_); rotate_left; clear_value lx; revert lx; intro y hy; rotate_right; subst lx) | (clear_value lx; revert lx; intro y) | subst lx)
    | with_reducible apply setQueue_keeps
    | with_reducible apply updateGroup_keeps
    | split
    | simp only [↓keeps_mk]

theorem offerItem_keeps {o : Offer} {ecc : CtxEcc} {s0 s : State} (hk : Keeps s0 s) : Keeps s0 (offerItem s o ecc) := by
  unfold offerItem
  repeat' first
    | with_reducible assumption
    | (extract_lets +onlyGivenNames lx; first | ((first | refine keeps_cut lx ?_ (fun _ => ?_) | refine keeps_cut1 lx ?_ (fun _ => ?_)); rotate_left; clear_value lx; revert lx; intro y hy; rotate_right; subst lx) | (clear_value lx; revert lx; intro y) | subst lx)
    | with_reducible apply ctxAccess_keeps
    | with_reducible apply releaseItem_keeps
    | with_reducible apply addSat_keeps
    | with_reducible apply dropItem_keeps
    | with_reducible apply admitItem_keeps
    | with_reducible apply fetchOwn_keeps
    | split
    | simp only [↓keeps_mk]

theorem itemOffer_keeps {src : Option Nat} {ecc : CtxEcc} {s0 s : State} (hk : Keeps s0 s) : Keeps s0 (itemOffer src ecc s) := by
  unfold itemOffer
  repeat' first
    | with_reducible assumption
    | (intro)
    | (extract_lets +onlyGivenNames lx; first | (refine keeps_cut lx ?_ (fun _ => ?_); rotate_left; clear_value lx; revert lx; intro y hy; rotate_right; subst lx) | (clear_value lx; revert lx; intro y) | subst lx)
    | with_reducible apply offerItem_keeps
    | with_reducible apply each_keeps
    | with_reducible apply later_keeps
    | with_reducible apply handOver_keeps
    | split
    | simp only [↓keeps_mk]

theorem writeBufs_keeps {ro : Bool} {a0 : List Byte} {a1 : List (Nat × Nat)} {s0 s : State} (hk : Keeps s0 s) : Keeps s0 (writeBufs s ro a0 a1) := by
  induction a1 generalizing a0 s with
  | nil => exact hk
  | cons e l ih =>
    unfold writeBufs
    repeat' first
      | with_reducible assumption
      | with_reducible apply ih
      | with_reducible apply hostWrite_keeps
      | split

theorem writeItemEntry_keeps {q : Nat} {o : Offer} {num nbuf idx : Nat} {s0 s : State} (hk : Keeps s0 s) : Keeps s0 (writeItemEntry s q o num nbuf idx) := by
  unfold writeItemEntry
  repeat' first
    | with_reducible assumption
    | (extract_lets +onlyGivenNames lx; first | (refine keeps_cut lx ?_ (fun _ => ?_); rotate_left; clear_value lx; revert lx; intro y hy; rotate_right; subst lx) | (clear_value lx; revert lx; intro y) | subst lx)
    | with_reducible apply writeEntry_keeps
    | split

theorem writeGap_keeps {q n f r : Nat} {s0 s : State} (hk : Keeps s0 s) : Keeps s0 (writeGap s q n f r) := by
  unfold writeGap
  repeat' first
    | with_reducible assumption
    | (extract_lets +onlyGivenNames lx; first | (refine keeps_cut lx ?_ (fun _ => ?_); rotate_left; clear_value lx; revert lx; intro y hy; rotate_right; subst lx) | (clear_value lx; revert lx; intro y) | subst lx)
    | with_reducible apply updateGroup_keeps
    | with_reducible apply writeEntry_keeps

theorem writeFlushed_keeps {q n f b : Nat} {cut : Bool} {s0 s : State} (hk : Keeps s0 s) : Keeps s0 (writeFlushed s q n f b cut) := by
  unfold writeFlushed
  repeat' first
    | with_reducible assumption
    | (extract_lets +onlyGivenNames lx; first | (refine keeps_cut lx ?_ (fun _ => ?_); rotate_left; clear_value lx; revert lx; intro y hy; rotate_right; subst lx) | (clear_value lx; revert lx; intro y) | subst lx)
    | with_reducible apply writeEntry_keeps
    | split

theorem overItem_keeps {q num : Nat} {data : Bool} {s0 s : State} (hk : Keeps s0 s) : Keeps s0 (overItem s q num data) := by
  unfold overItem
  repeat' first
    | with_reducible assumption
    | (intro)
    | (extract_lets +onlyGivenNames lx; first | (refine keeps_cut lx ?_ (fun _ => ?_); rotate_left; clear_value lx; revert lx; intro y hy; rotate_right; subst lx) | (refine keeps_cutF lx ?_ (fun _ => ?_); rotate_left; clear_value lx; revert lx; intro y hF; rotate_right; subst lx) | (refine keeps_cutG lx ?_ (fun _ => ?_); rotate_left; clear_value lx; revert lx; intro y hG; rotate_right; subst lx) | (refine keeps_cutG' lx ?_ (fun _ => ?_); rotate_left; clear_value lx; revert lx; intro y hG'; rotate_right; subst lx) | (refine keeps_cutH lx ?_ (fun _ => ?_); rotate_left; clear_value lx; revert lx; intro y hH; rotate_right; subst lx) | (refine keeps_cutU lx ?_ (fun _ => ?_); rotate_left; clear_value lx; revert lx; intro y hU; rotate_right; subst lx) | (clear_value lx; revert lx; intro y) | subst lx)
    | with_reducible apply addSat_keeps
    | with_reducible apply setCtx_keeps
    | with_reducible apply onlyIf_keeps
    | with_reducible apply hostWrite_keeps
    | with_reducible apply hF
    | with_reducible apply hG
    | with_reducible apply hG'
    | with_reducible apply hH
    | with_reducible apply hU
    | split
    | simp only [↓keeps_mk]

theorem itemWrite_keeps {q : Nat} {s0 s : State} (hk : Keeps s0 s) : Keeps s0 (itemWrite q s) := by
  unfold itemWrite
  repeat' first
    | with_reducible assumption
    | (intro)
    | (extract_lets +onlyGivenNames lx; first | ((first | refine keeps_cut lx ?_ (fun _ => ?_) | refine keeps_cut2 lx ?_ (fun _ => ?_)); rotate_left; clear_value lx; revert lx; intro y hy; rotate_right; subst lx) | (refine keeps_cutF lx ?_ (fun _ => ?_); rotate_left; clear_value lx; revert lx; intro y hF; rotate_right; subst lx) | (refine keeps_cutG lx ?_ (fun _ => ?_); rotate_left; clear_value lx; revert lx; intro y hG; rotate_right; subst lx) | (refine keeps_cutG' lx ?_ (fun _ => ?_); rotate_left; clear_value lx; revert lx; intro y hG'; rotate_right; subst lx) | (refine keeps_cutH lx ?_ (fun _ => ?_); rotate_left; clear_value lx; revert lx; intro y hH; rotate_right; subst lx) | (refine keeps_cutU lx ?_ (fun _ => ?_); rotate_left; clear_value lx; revert lx; intro y hU; rotate_right; subst lx) | (clear_value lx; revert lx; intro y) | subst lx)
    | with_reducible apply touchCtx_keeps
    | with_reducible apply setQueue_keeps
    | with_reducible apply setCtx_keeps
    | with_reducible apply countDrop_keeps
    | with_reducible apply overItem_keeps
    | with_reducible apply writeBufs_keeps
    | with_reducible apply writeItemEntry_keeps
    | with_reducible apply addWrap_keeps
    | with_reducible apply releaseItem_keeps
    | with_reducible apply updateGroup_keeps
    | with_reducible apply hF
    | with_reducible apply hG
    | with_reducible apply hG'
    | with_reducible apply hH
    | with_reducible apply hU
    | split
    | simp only [↓keeps_mk]

theorem ellipsisWrite_keeps {q : Nat} {s0 s : State} (hk : Keeps s0 s) : Keeps s0 (ellipsisWrite q s) := by
  unfold ellipsisWrite
  repeat' first
    | with_reducible assumption
    | (extract_lets +onlyGivenNames lx; first | (refine keeps_cut lx ?_ (fun _ => ?_); rotate_left; clear_value lx; revert lx; intro y hy; rotate_right; subst lx) | (clear_value lx; revert lx; intro y) | subst lx)
    | with_reducible apply writeGap_keeps
    | with_reducible apply setQueue_keeps
    | split
    | simp only [↓keeps_mk]

theorem quiesced_keeps {q : Nat} {s0 s : State} (hk : Keeps s0 s) : Keeps s0 (quiesced s q) := by
  unfold quiesced
  repeat' first
    | with_reducible assumption
    | (intro)
    | with_reducible apply setCtx_keeps
    | split
    | simp only [↓keeps_mk]

theorem flushedWrite_keeps {q : Nat} {s0 s : State} (hk : Keeps s0 s) : Keeps s0 (flushedWrite q s) := by
  unfold flushedWrite
  repeat' first
    | with_reducible assumption
    | (extract_lets +onlyGivenNames lx; first | (refine keeps_cut lx ?_ (fun _ => ?_); rotate_left; clear_value lx; revert lx; intro y hy; rotate_right; subst lx) | (clear_value lx; revert lx; intro y) | subst lx)
    | with_reducible apply updateGroup_keeps
    | with_reducible apply writeFlushed_keeps
    | with_reducible apply setQueue_keeps
    | with_reducible apply fetchDescs_keeps
    | with_reducible apply quiesced_keeps
    | split
    | simp only [↓keeps_mk]

theorem cutFront_keeps {q : Nat} {s0 s : State} (hk : Keeps s0 s) : Keeps s0 (cutFront s q).1 := by
  unfold cutFront
  repeat' first
    | with_reducible assumption
    | (extract_lets +onlyGivenNames lx; first | (refine keeps_cut lx ?_ (fun _ => ?_); rotate_left; clear_value lx; revert lx; intro y hy; rotate_right; subst lx) | (clear_value lx; revert lx; intro y) | subst lx)
    | with_reducible apply freeNext_keeps
    | with_reducible apply writeBufs_keeps
    | with_reducible apply overItem_keeps
    | split
    | simp only [↓keeps_mk]

theorem flushRange_keeps {q : Nat} {cut : Bool} {s0 s : State} (hk : Keeps s0 s) : Keeps s0 (flushRange s q cut) := by
  unfold flushRange
  repeat' first
    | with_reducible assumption
    | (extract_lets +onlyGivenNames lx; first | ((first | refine keeps_cut lx ?_ (fun _ => ?_) | refine keeps_cut1 lx ?_ (fun _ => ?_) | refine keeps_cut2 lx ?_ (fun _ => ?_)); rotate_left; clear_value lx; revert lx; intro y hy; rotate_right; subst lx) | (clear_value lx; revert lx; intro y) | subst lx)
    | with_reducible apply clearQueue_keeps
    | with_reducible apply setQueue_keeps
    | with_reducible apply updateGroup_keeps
    | with_reducible apply flushedWrite_keeps
    | simp only [↓keeps_mk]

theorem flushQueue_keeps {q : Nat} {s0 s : State} (hk : Keeps s0 s) : Keeps s0 (flushQueue q s) := by
  unfold flushQueue
  repeat' first
    | with_reducible assumption
    | (extract_lets +onlyGivenNames lx; first | ((first | refine keeps_cut lx ?_ (fun _ => ?_) | refine keeps_cut1 lx ?_ (fun _ => ?_) | refine keeps_cut2 lx ?_ (fun _ => ?_)); rotate_left; clear_value lx; revert lx; intro y hy; rotate_right; subst lx) | (clear_value lx; revert lx; intro y) | subst lx)
    | with_reducible apply cutFront_keeps
    | with_reducible apply flushRange_keeps
    | split

theorem disableQueue_keeps {q : Nat} {s0 s : State} (hk : Keeps s0 s) : Keeps s0 (disableQueue q s) := by
  unfold disableQueue
  repeat' first
    | with_reducible assumption
    | (intro)
    | (extract_lets +onlyGivenNames lx; first | (refine keeps_cut lx ?_ (fun _ => ?_); rotate_left; clear_value lx; revert lx; intro y hy; rotate_right; subst lx) | (clear_value lx; revert lx; intro y) | subst lx)
    | with_reducible apply setCtx_keeps
    | with_reducible apply cancelReads_keeps
    | with_reducible apply flushRange_keeps
    | with_reducible apply updateGroup_keeps
    | with_reducible apply setQueue_keeps
    | split
    | simp only [↓keeps_mk]

theorem itemWritten_keeps {q : Nat} {x : ItemEcc} {s0 s : State} (hk : Keeps s0 s) : Keeps s0 (itemWritten q x s) := by
  unfold itemWritten
  repeat' first
    | with_reducible assumption
    | with_reducible apply itemWrite_keeps
    | with_reducible apply eccCorrected_keeps
    | with_reducible apply ctxAccess_keeps
    | with_reducible apply queueFault_keeps
    | with_reducible apply eccUncorrectable_keeps
    | split
    | simp only [↓keeps_mk]

theorem groupStopped_keeps {g : Nat} {s0 s : State} (hk : Keeps s0 s) : Keeps s0 (groupStopped s g) := by
  unfold groupStopped
  repeat' first
    | with_reducible assumption
    | (intro)
    | with_reducible apply each_keeps
    | with_reducible apply disableQueue_keeps

theorem qcmdEnd_keeps {r : Nat} {s0 s : State} (hk : Keeps s0 s) : Keeps s0 (qcmdEnd s r) := by
  unfold qcmdEnd
  repeat' first
    | with_reducible assumption
    | with_reducible apply wr_keeps

theorem qcmdOn_keeps {q : Nat} {ecc : CtxEcc} {f : State → State} {s0 s : State} (hf : ∀ u, Keeps s0 u → Keeps s0 (f u)) (hk : Keeps s0 s) : Keeps s0 (qcmdOn s q ecc f) := by
  unfold qcmdOn
  extract_lets a
  have ha : Keeps s0 a.1 := ctxAccess_keeps hk
  split
  · exact qcmdEnd_keeps ha
  · exact hf _ ha

theorem qcmdRead_keeps {q : Nat} {ecc : CtxEcc} {s0 s : State} (hk : Keeps s0 s) : Keeps s0 (qcmdRead q ecc s) := by
  unfold qcmdRead
  repeat' first
    | with_reducible assumption
    | (intro)
    | with_reducible apply qcmdOn_keeps
    | with_reducible apply qcmdEnd_keeps
    | with_reducible apply each_keeps
    | with_reducible apply wr_keeps

theorem qcmdWrite_keeps {q : Nat} {ecc : CtxEcc} {s0 s : State} (hk : Keeps s0 s) : Keeps s0 (qcmdWrite q ecc s) := by
  unfold qcmdWrite
  repeat' first
    | with_reducible assumption
    | (intro)
    | (extract_lets +onlyGivenNames lx; first | (refine keeps_cut lx ?_ (fun _ => ?_); rotate_left; clear_value lx; revert lx; intro y hy; rotate_right; subst lx) | (refine keeps_cutF lx ?_ (fun _ => ?_); rotate_left; clear_value lx; revert lx; intro y hF; rotate_right; subst lx) | (refine keeps_cutG lx ?_ (fun _ => ?_); rotate_left; clear_value lx; revert lx; intro y hG; rotate_right; subst lx) | (refine keeps_cutG' lx ?_ (fun _ => ?_); rotate_left; clear_value lx; revert lx; intro y hG'; rotate_right; subst lx) | (refine keeps_cutH lx ?_ (fun _ => ?_); rotate_left; clear_value lx; revert lx; intro y hH; rotate_right; subst lx) | (refine keeps_cutU lx ?_ (fun _ => ?_); rotate_left; clear_value lx; revert lx; intro y hU; rotate_right; subst lx) | (clear_value lx; revert lx; intro y) | subst lx)
    | with_reducible apply qcmdOn_keeps
    | with_reducible apply qcmdEnd_keeps
    | with_reducible apply updateGroup_keeps
    | with_reducible apply fetchDescs_keeps
    | with_reducible apply setQueue_keeps
    | with_reducible apply hF
    | with_reducible apply hG
    | with_reducible apply hG'
    | with_reducible apply hH
    | with_reducible apply hU
    | split

theorem qcmdEnable_keeps {q : Nat} {ecc : CtxEcc} {s0 s : State} (hk : Keeps s0 s) : Keeps s0 (qcmdEnable q ecc s) := by
  unfold qcmdEnable
  repeat' first
    | with_reducible assumption
    | (intro)
    | (extract_lets +onlyGivenNames lx; first | (refine keeps_cut lx ?_ (fun _ => ?_); rotate_left; clear_value lx; revert lx; intro y hy; rotate_right; subst lx) | (clear_value lx; revert lx; intro y) | subst lx)
    | with_reducible apply qcmdOn_keeps
    | with_reducible apply qcmdEnd_keeps
    | with_reducible apply setCtx_keeps
    | with_reducible apply updateGroup_keeps
    | with_reducible apply fetchDescs_keeps
    | split
    | simp only [↓keeps_mk]

theorem qcmdDisable_keeps {q : Nat} {ecc : CtxEcc} {s0 s : State} (hk : Keeps s0 s) : Keeps s0 (qcmdDisable q ecc s) := by
  unfold qcmdDisable
  repeat' first
    | with_reducible assumption
    | (intro)
    | with_reducible apply qcmdOn_keeps
    | with_reducible apply qcmdEnd_keeps
    | with_reducible apply disableQueue_keeps

theorem qcmdFlush_keeps {q : Nat} {ecc : CtxEcc} {s0 s : State} (hk : Keeps s0 s) : Keeps s0 (qcmdFlush q ecc s) := by
  unfold qcmdFlush
  repeat' first
    | with_reducible assumption
    | (intro)
    | with_reducible apply qcmdOn_keeps
    | with_reducible apply qcmdEnd_keeps
    | with_reducible apply flushQueue_keeps

theorem bellCi_keeps {q v : Nat} {s0 s : State} (hk : Keeps s0 s) : Keeps s0 (bellCi s q v) := by
  unfold bellCi
  repeat' first
    | with_reducible assumption
    | (extract_lets +onlyGivenNames lx; first | (refine keeps_cut lx ?_ (fun _ => ?_); rotate_left; clear_value lx; revert lx; intro y hy; rotate_right; subst lx) | (clear_value lx; revert lx; intro y) | subst lx)
    | with_reducible apply groupFlag_keeps
    | with_reducible apply setQueue_keeps
    | split
    | simp only [↓keeps_mk]

theorem bellBpi_keeps {q v : Nat} {s0 s : State} (hk : Keeps s0 s) : Keeps s0 (bellBpi s q v) := by
  unfold bellBpi
  repeat' first
    | with_reducible assumption
    | (intro)
    | (extract_lets +onlyGivenNames lx; first | (refine keeps_cut lx ?_ (fun _ => ?_); rotate_left; clear_value lx; revert lx; intro y hy; rotate_right; subst lx) | (clear_value lx; revert lx; intro y) | subst lx)
    | with_reducible apply groupFlag_keeps
    | with_reducible apply fetchDescs_keeps
    | with_reducible apply setCtx_keeps
    | split
    | simp only [↓keeps_mk]

theorem bellArm_keeps {q : Nat} {s0 s : State} (hk : Keeps s0 s) : Keeps s0 (bellArm s q) := by
  unfold bellArm
  repeat' first
    | with_reducible assumption
    | (intro)
    | (extract_lets +onlyGivenNames lx; first | (refine keeps_cut lx ?_ (fun _ => ?_); rotate_left; clear_value lx; revert lx; intro y hy; rotate_right; subst lx) | (clear_value lx; revert lx; intro y) | subst lx)
    | with_reducible apply notifyPush_keeps
    | with_reducible apply setCtx_keeps
    | split
    | simp only [↓keeps_mk]

theorem applyBell_keeps {b : Bell} {s0 s : State} (hk : Keeps s0 s) : Keeps s0 (applyBell s b) := by
  unfold applyBell
  repeat' first
    | with_reducible assumption
    | (extract_lets +onlyGivenNames lx; first | ((first | refine keeps_cut lx ?_ (fun _ => ?_) | refine keeps_cut1 lx ?_ (fun _ => ?_)); rotate_left; clear_value lx; revert lx; intro y hy; rotate_right; subst lx) | (clear_value lx; revert lx; intro y) | subst lx)
    | with_reducible apply ctxAccess_keeps
    | with_reducible apply bellCi_keeps
    | with_reducible apply bellBpi_keeps
    | with_reducible apply updateGroup_keeps
    | with_reducible apply arm_keeps
    | with_reducible apply bellArm_keeps
    | split
    | simp only [↓keeps_mk]

theorem doorbellApply_keeps  {s0 s : State} (hk : Keeps s0 s) : Keeps s0 (doorbellApply s) := by
  unfold doorbellApply
  repeat' first
    | with_reducible assumption
    | with_reducible apply applyBell_keeps
    | split
    | simp only [↓keeps_mk]

theorem queueDoorbell_keeps {q : Nat} {ecc : CtxEcc} {lo hi : Option Nat} {s0 s : State} (hk : Keeps s0 s) : Keeps s0 (queueDoorbell q ecc lo hi s) := by
  unfold queueDoorbell
  repeat' first
    | with_reducible assumption
    | (intro)
    | (extract_lets +onlyGivenNames lx; first | (refine keeps_cut lx ?_ (fun _ => ?_); rotate_left; clear_value lx; revert lx; intro y hy; rotate_right; subst lx) | (refine keeps_cutF lx ?_ (fun _ => ?_); rotate_left; clear_value lx; revert lx; intro y hF; rotate_right; subst lx) | (refine keeps_cutG lx ?_ (fun _ => ?_); rotate_left; clear_value lx; revert lx; intro y hG; rotate_right; subst lx) | (refine keeps_cutG' lx ?_ (fun _ => ?_); rotate_left; clear_value lx; revert lx; intro y hG'; rotate_right; subst lx) | (refine keeps_cutH lx ?_ (fun _ => ?_); rotate_left; clear_value lx; revert lx; intro y hH; rotate_right; subst lx) | (refine keeps_cutU lx ?_ (fun _ => ?_); rotate_left; clear_value lx; revert lx; intro y hU; rotate_right; subst lx) | (clear_value lx; revert lx; intro y) | subst lx)
    | with_reducible apply arm_keeps
    | with_reducible apply doorbellApply_keeps
    | with_reducible apply hF
    | with_reducible apply hG
    | with_reducible apply hG'
    | with_reducible apply hH
    | with_reducible apply hU
    | split
    | simp only [↓keeps_mk]

theorem descsArrive_keeps {q addr : Nat} {data : List Byte} {s0 s : State} (hk : Keeps s0 s) : Keeps s0 (descsArrive s q addr data) := by
  unfold descsArrive
  repeat' first
    | with_reducible assumption
    | (intro)
    | (extract_lets +onlyGivenNames lx; first | ((first | refine keeps_cut lx ?_ (fun _ => ?_) | refine keeps_cut1 lx ?_ (fun _ => ?_) | refine keeps_cut2 lx ?_ (fun _ => ?_)); rotate_left; clear_value lx; revert lx; intro y hy; rotate_right; subst lx) | (refine keeps_cutF lx ?_ (fun _ => ?_); rotate_left; clear_value lx; revert lx; intro y hF; rotate_right; subst lx) | (refine keeps_cutG lx ?_ (fun _ => ?_); rotate_left; clear_value lx; revert lx; intro y hG; rotate_right; subst lx) | (refine keeps_cutG' lx ?_ (fun _ => ?_); rotate_left; clear_value lx; revert lx; intro y hG'; rotate_right; subst lx) | (refine keeps_cutH lx ?_ (fun _ => ?_); rotate_left; clear_value lx; revert lx; intro y hH; rotate_right; subst lx) | (refine keeps_cutU lx ?_ (fun _ => ?_); rotate_left; clear_value lx; revert lx; intro y hU; rotate_right; subst lx) | (clear_value lx; revert lx; intro y) | subst lx)
    | with_reducible apply setQueue_keeps
    | with_reducible apply fetchDescs_keeps
    | with_reducible apply foldl_keeps
    | with_reducible apply hF
    | with_reducible apply hG
    | with_reducible apply hG'
    | with_reducible apply hH
    | with_reducible apply hU
    | split
    | simp only [↓keeps_mk]

theorem deliveryOff_keeps  {s0 s : State} (hk : Keeps s0 s) : Keeps s0 (deliveryOff s) := by
  unfold deliveryOff
  repeat' first
    | with_reducible assumption
    | (intro)
    | (extract_lets +onlyGivenNames lx; first | ((first | refine keeps_cut lx ?_ (fun _ => ?_) | refine keeps_cut1 lx ?_ (fun _ => ?_) | refine keeps_cut2 lx ?_ (fun _ => ?_)); rotate_left; clear_value lx; revert lx; intro y hy; rotate_right; subst lx) | (refine keeps_cutF lx ?_ (fun _ => ?_); rotate_left; clear_value lx; revert lx; intro y hF; rotate_right; subst lx) | (refine keeps_cutG lx ?_ (fun _ => ?_); rotate_left; clear_value lx; revert lx; intro y hG; rotate_right; subst lx) | (refine keeps_cutG' lx ?_ (fun _ => ?_); rotate_left; clear_value lx; revert lx; intro y hG'; rotate_right; subst lx) | (refine keeps_cutH lx ?_ (fun _ => ?_); rotate_left; clear_value lx; revert lx; intro y hH; rotate_right; subst lx) | (refine keeps_cutU lx ?_ (fun _ => ?_); rotate_left; clear_value lx; revert lx; intro y hU; rotate_right; subst lx) | (clear_value lx; revert lx; intro y) | subst lx)
    | with_reducible apply each_keeps
    | with_reducible apply setQueue_keeps
    | with_reducible apply hF
    | with_reducible apply hG
    | with_reducible apply hG'
    | with_reducible apply hH
    | with_reducible apply hU
    | split
    | simp only [↓keeps_mk]

theorem deliveryResume_keeps  {s0 s : State} (hk : Keeps s0 s) : Keeps s0 (deliveryResume s) := by
  unfold deliveryResume
  repeat' first
    | with_reducible assumption
    | (intro)
    | (extract_lets +onlyGivenNames lx; first | ((first | refine keeps_cut lx ?_ (fun _ => ?_) | refine keeps_cut1 lx ?_ (fun _ => ?_) | refine keeps_cut2 lx ?_ (fun _ => ?_)); rotate_left; clear_value lx; revert lx; intro y hy; rotate_right; subst lx) | (clear_value lx; revert lx; intro y) | subst lx)
    | with_reducible apply each_keeps
    | with_reducible apply fetchOwn_keeps
    | with_reducible apply fetchDescs_keeps
    | split
    | simp only [↓keeps_mk]

theorem handOver_keeps  {a0 : Nat} {a2 : Nat} {s0 s : State} (hk : Keeps s0 s) : Keeps s0 (handOver a0 s a2) := by
  induction a0 generalizing s a2 with
  | zero => exact hk
  | succ n ih =>
    unfold handOver
    repeat' first
      | with_reducible assumption
      | (intro)
      | (extract_lets +onlyGivenNames lx; first | (refine keeps_cut lx ?_ (fun _ => ?_); rotate_left; clear_value lx; revert lx; intro y hy; rotate_right; subst lx) | (refine keeps_cutF lx ?_ (fun _ => ?_); rotate_left; clear_value lx; revert lx; intro y hF; rotate_right; subst lx) | (refine keeps_cutG lx ?_ (fun _ => ?_); rotate_left; clear_value lx; revert lx; intro y hG; rotate_right; subst lx) | (refine keeps_cutG' lx ?_ (fun _ => ?_); rotate_left; clear_value lx; revert lx; intro y hG'; rotate_right; subst lx) | (refine keeps_cutH lx ?_ (fun _ => ?_); rotate_left; clear_value lx; revert lx; intro y hH; rotate_right; subst lx) | (refine keeps_cutU lx ?_ (fun _ => ?_); rotate_left; clear_value lx; revert lx; intro y hU; rotate_right; subst lx) | (clear_value lx; revert lx; intro y) | subst lx)
      | with_reducible apply ih
      | with_reducible apply hbmWrite_keeps
      | with_reducible apply setFrm_keeps
      | with_reducible apply removeFrame_keeps
      | with_reducible apply onlyIf_keeps
      | with_reducible apply releaseSlot_keeps
      | with_reducible apply hF
      | with_reducible apply hG
      | with_reducible apply hG'
      | with_reducible apply hH
      | with_reducible apply hU
      | split
      | simp only [↓keeps_mk]

theorem eventCopy_keeps {r : Rec} {s0 s : State} (hk : Keeps s0 s) : Keeps s0 (eventCopy s r) := by
  unfold eventCopy
  repeat' first
    | with_reducible assumption
    | (intro)
    | (extract_lets +onlyGivenNames lx; first | (refine keeps_cut lx ?_ (fun _ => ?_); rotate_left; clear_value lx; revert lx; intro y hy; rotate_right; subst lx) | (clear_value lx; revert lx; intro y) | subst lx)
    | with_reducible apply each_keeps
    | with_reducible apply addSat_keeps
    | split
    | simp only [↓keeps_mk]

end Sys2Proof.Machine
end

