-- ==== Sys2Proof/Laws/KeepsMode.lean ====
section
/-! SUPPORT. What every operation keeps (`Keeps`), one lemma per operation: modes, changeover, guylines and the tether. -/

set_option linter.all false

namespace Sys2Proof.Machine

theorem ltrSend_keeps {m : Nat} {s0 s : State} (hk : Keeps s0 s) : Keeps s0 (ltrSend s m) := by
  unfold ltrSend
  repeat' first
    | with_reducible assumption
    | (extract_lets +onlyGivenNames lx; first | ((first | refine keeps_cut lx ?_ (fun _ => ?_) | refine keeps_cut1 lx ?_ (fun _ => ?_) | refine keeps_cut2 lx ?_ (fun _ => ?_)); rotate_left; clear_value lx; revert lx; intro y hy; rotate_right; subst lx) | (clear_value lx; revert lx; intro y) | subst lx)
    | with_reducible apply send_keeps
    | split

theorem derateApply_keeps  {s0 s : State} (hk : Keeps s0 s) : Keeps s0 (derateApply s) := by
  unfold derateApply
  repeat' first
    | with_reducible assumption
    | (intro)
    | (extract_lets +onlyGivenNames lx; first | (refine keeps_cut lx ?_ (fun _ => ?_); rotate_left; clear_value lx; revert lx; intro y hy; rotate_right; subst lx) | (clear_value lx; revert lx; intro y) | subst lx)
    | with_reducible apply each_keeps
    | with_reducible apply chainRefresh_keeps
    | split
    | simp only [↓keeps_mk]

theorem padApply_keeps  {s0 s : State} (hk : Keeps s0 s) : Keeps s0 (padApply s) := by
  unfold padApply
  repeat' first
    | with_reducible assumption
    | with_reducible apply wr_keeps
    | split
    | simp only [↓keeps_mk]

theorem showTarget_keeps  {s0 s : State} (hk : Keeps s0 s) : Keeps s0 (showTarget s) := by
  unfold showTarget
  repeat' first
    | with_reducible assumption
    | (extract_lets +onlyGivenNames lx; first | ((first | refine keeps_cut lx ?_ (fun _ => ?_) | refine keeps_cut1 lx ?_ (fun _ => ?_) | refine keeps_cut2 lx ?_ (fun _ => ?_)); rotate_left; clear_value lx; revert lx; intro y hy; rotate_right; subst lx) | (clear_value lx; revert lx; intro y) | subst lx)
    | with_reducible apply laterOnce_keeps
    | with_reducible apply wrB_keeps
    | with_reducible apply wr_keeps

theorem modeEnter_keeps {m cause : Nat} {s0 s : State} (hk : Keeps s0 s) : Keeps s0 (modeEnter s m cause) := by
  unfold modeEnter
  repeat' first
    | with_reducible assumption
    | (extract_lets +onlyGivenNames lx; first | (refine keeps_cut lx ?_ (fun _ => ?_); rotate_left; clear_value lx; revert lx; intro y hy; rotate_right; subst lx) | (clear_value lx; revert lx; intro y) | subst lx)
    | with_reducible apply wr_keeps
    | with_reducible apply showTarget_keeps
    | with_reducible apply record_keeps
    | with_reducible apply ltrSend_keeps
    | with_reducible apply raise_keeps
    | with_reducible apply padApply_keeps
    | with_reducible apply derateApply_keeps
    | split

theorem modeRefuse_keeps {code : Nat} {s0 s : State} (hk : Keeps s0 s) : Keeps s0 (modeRefuse s code) := by
  unfold modeRefuse
  repeat' first
    | with_reducible assumption
    | with_reducible apply wr_keeps

theorem setParShadow_keeps {id v : Nat} {s0 s : State} (hk : Keeps s0 s) : Keeps s0 (setParShadow s id v) := by
  unfold setParShadow
  repeat' first
    | with_reducible assumption
    | simp only [↓keeps_mk]

theorem storeToActive_keeps {s0 s : State} (hk : Keeps s0 s) : Keeps s0 (storeToActive s) := by
  unfold storeToActive
  extract_lets t
  have ht : Keeps s0 t := each_keeps (fun u a hu => keeps_of hu ⟨rfl, rfl, rfl, rfl, rfl, rfl, rfl, rfl, rfl⟩) hk
  refine each_keeps (fun u a hu => setReg_keeps hu) ?_
  exact { ht with soundKept := fun x => have y := ht.soundKept x; ⟨y.1, mwf_filter regReset _ t.regs y.2.1, y.2.2⟩ }

theorem storeWrite_keeps {a v : Nat} {s0 s : State} (hk : Keeps s0 s) : Keeps s0 (storeWrite s a v) := by
  unfold storeWrite
  repeat' first
    | with_reducible assumption
    | with_reducible apply wr_keeps
    | with_reducible apply setParShadow_keeps
    | with_reducible apply setShadow_keeps
    | split
    | simp only [↓keeps_mk]

theorem oldSlots_keeps  {s0 s : State} (hk : Keeps s0 s) : Keeps s0 (oldSlots s) := by
  unfold oldSlots
  repeat' first
    | with_reducible assumption
    | (intro)
    | with_reducible apply each_keeps
    | with_reducible apply wr_keeps

theorem chgResult_keeps {r : Nat} {s0 s : State} (hk : Keeps s0 s) : Keeps s0 (chgResult s r) := by
  unfold chgResult
  repeat' first
    | with_reducible assumption
    | with_reducible apply wr_keeps

theorem arm_keeps {a : Armed} {shown : Nat} {s0 s : State} (hk : Keeps s0 s) : Keeps s0 (arm s a shown) := by
  unfold arm
  repeat' first
    | with_reducible assumption
    | (extract_lets +onlyGivenNames lx; first | (refine keeps_cut lx ?_ (fun _ => ?_); rotate_left; clear_value lx; revert lx; intro y hy; rotate_right; subst lx) | (clear_value lx; revert lx; intro y) | subst lx)
    | with_reducible apply wr_keeps
    | with_reducible apply laterOnce_keeps
    | with_reducible apply chgResult_keeps
    | split
    | simp only [↓keeps_mk]

theorem disarm_keeps {r : Nat} {s0 s : State} (hk : Keeps s0 s) : Keeps s0 (disarm s r) := by
  unfold disarm
  repeat' first
    | with_reducible assumption
    | (intro)
    | (extract_lets +onlyGivenNames lx; first | (refine keeps_cut lx ?_ (fun _ => ?_); rotate_left; clear_value lx; revert lx; intro y hy; rotate_right; subst lx) | (clear_value lx; revert lx; intro y) | subst lx)
    | with_reducible apply chgResult_keeps
    | with_reducible apply wr_keeps
    | with_reducible apply laterOnce_keeps
    | with_reducible apply each_keeps
    | with_reducible apply freeSlots_keeps
    | simp only [↓keeps_mk]

theorem armOrLate_keeps {a : Armed} {s0 s : State} (hk : Keeps s0 s) : Keeps s0 (armOrLate s a).1 := by
  unfold armOrLate
  repeat' first
    | with_reducible assumption
    | with_reducible apply arm_keeps
    | with_reducible apply chgResult_keeps
    | with_reducible apply wr_keeps
    | split
    | simp only [↓keeps_mk]

theorem chainMessage_keeps {a : Armed} {s0 s : State} (hk : Keeps s0 s) : Keeps s0 (chainMessage s a) := by
  unfold chainMessage
  repeat' first
    | with_reducible assumption
    | (extract_lets +onlyGivenNames lx; first | (refine keeps_cut lx ?_ (fun _ => ?_); rotate_left; clear_value lx; revert lx; intro y hy; rotate_right; subst lx) | (clear_value lx; revert lx; intro y) | subst lx)
    | simp only [↓keeps_mk]

theorem slotsHandover_keeps {old new : Nat} {acq : Bool} {s0 s : State} (hk : Keeps s0 s) : Keeps s0 (slotsHandover s old new acq) := by
  unfold slotsHandover
  repeat' first
    | with_reducible assumption
    | (extract_lets +onlyGivenNames lx; first | (refine keeps_cut lx ?_ (fun _ => ?_); rotate_left; clear_value lx; revert lx; intro y hy; rotate_right; subst lx) | (clear_value lx; revert lx; intro y) | subst lx)
    | with_reducible apply wr_keeps
    | split

theorem handOverNow_keeps {a : Armed} {shown : Nat} {s0 s : State} (hk : Keeps s0 s) : Keeps s0 (handOverNow s a shown) := by
  unfold handOverNow
  repeat' first
    | with_reducible assumption
    | (extract_lets +onlyGivenNames lx; first | (refine keeps_cut lx ?_ (fun _ => ?_); rotate_left; clear_value lx; revert lx; intro y hy; rotate_right; subst lx) | (clear_value lx; revert lx; intro y) | subst lx)
    | with_reducible apply storeToActive_keeps
    | with_reducible apply wr_keeps
    | with_reducible apply addWrap_keeps
    | with_reducible apply slotsHandover_keeps
    | with_reducible apply stakesHandover_keeps
    | with_reducible apply mlkHandover_keeps
    | with_reducible apply framesHandover_keeps
    | with_reducible apply framesRefresh_keeps
    | with_reducible apply chainsActive_keeps
    | with_reducible apply record_keeps
    | with_reducible apply laterOnce_keeps
    | with_reducible apply later_keeps
    | with_reducible apply raise_keeps
    | with_reducible apply lockCheck_keeps
    | with_reducible apply oldSlots_keeps
    | split
    | simp only [↓keeps_mk]

theorem chgCommit_keeps {v : Nat} {s0 s : State} (hk : Keeps s0 s) : Keeps s0 (chgCommit v s) := by
  unfold chgCommit
  repeat' first
    | with_reducible assumption
    | (intro)
    | (extract_lets +onlyGivenNames lx; first | ((first | refine keeps_cut lx ?_ (fun _ => ?_) | refine keeps_cut1 lx ?_ (fun _ => ?_) | refine keeps_cut2 lx ?_ (fun _ => ?_)); rotate_left; clear_value lx; revert lx; intro y hy; rotate_right; subst lx) | (refine keeps_cutF lx ?_ (fun _ => ?_); rotate_left; clear_value lx; revert lx; intro y hF; rotate_right; subst lx) | (refine keeps_cutG lx ?_ (fun _ => ?_); rotate_left; clear_value lx; revert lx; intro y hG; rotate_right; subst lx) | (refine keeps_cutG' lx ?_ (fun _ => ?_); rotate_left; clear_value lx; revert lx; intro y hG'; rotate_right; subst lx) | (refine keeps_cutH lx ?_ (fun _ => ?_); rotate_left; clear_value lx; revert lx; intro y hH; rotate_right; subst lx) | (refine keeps_cutU lx ?_ (fun _ => ?_); rotate_left; clear_value lx; revert lx; intro y hU; rotate_right; subst lx) | (clear_value lx; revert lx; intro y) | subst lx)
    | with_reducible apply chgResult_keeps
    | with_reducible apply setChk_keeps
    | with_reducible apply arm_keeps
    | with_reducible apply onlyIf_keeps
    | with_reducible apply chainMessage_keeps
    | with_reducible apply handOverNow_keeps
    | with_reducible apply armOrLate_keeps
    | with_reducible apply hF
    | with_reducible apply hG
    | with_reducible apply hG'
    | with_reducible apply hH
    | with_reducible apply hU
    | split
    | simp only [↓keeps_mk]

theorem chgWithdraw_keeps  {s0 s : State} (hk : Keeps s0 s) : Keeps s0 (chgWithdraw s) := by
  unfold chgWithdraw
  repeat' first
    | with_reducible assumption
    | (extract_lets +onlyGivenNames lx; first | (refine keeps_cut lx ?_ (fun _ => ?_); rotate_left; clear_value lx; revert lx; intro y hy; rotate_right; subst lx) | (clear_value lx; revert lx; intro y) | subst lx)
    | with_reducible apply disarm_keeps
    | with_reducible apply chgResult_keeps
    | split

theorem chgWrite_keeps {v : Nat} {s0 s : State} (hk : Keeps s0 s) : Keeps s0 (chgWrite v s) := by
  unfold chgWrite
  repeat' first
    | with_reducible assumption
    | (extract_lets +onlyGivenNames lx; first | (refine keeps_cut lx ?_ (fun _ => ?_); rotate_left; clear_value lx; revert lx; intro y hy; rotate_right; subst lx) | (clear_value lx; revert lx; intro y) | subst lx)
    | with_reducible apply chgWithdraw_keeps
    | with_reducible apply chgCommit_keeps
    | split
    | simp only [↓keeps_mk]

theorem modeWithdraw_keeps  {s0 s : State} (hk : Keeps s0 s) : Keeps s0 (modeWithdraw s) := by
  unfold modeWithdraw
  repeat' first
    | with_reducible assumption
    | with_reducible apply disarm_keeps
    | split

theorem chgMark_keeps {u : Nat} {s0 s : State} (hk : Keeps s0 s) : Keeps s0 (chgMark s u) := by
  unfold chgMark
  repeat' first
    | with_reducible assumption
    | split
    | simp only [↓keeps_mk]

theorem handoverCycle_keeps  {s0 s : State} (hk : Keeps s0 s) : Keeps s0 (handoverCycle s) := by
  unfold handoverCycle
  repeat' first
    | with_reducible assumption
    | with_reducible apply handOverNow_keeps
    | split
    | simp only [↓keeps_mk]

theorem chgDomStep_keeps {d : Nat} {s0 s : State} (hk : Keeps s0 s) : Keeps s0 (chgDomStep s d) := by
  unfold chgDomStep
  repeat' first
    | with_reducible assumption
    | with_reducible apply handoverCycle_keeps
    | split
    | simp only [↓keeps_mk]

theorem chgDone_keeps  {s0 s : State} (hk : Keeps s0 s) : Keeps s0 (chgDone s) := by
  unfold chgDone
  repeat' first
    | with_reducible assumption
    | with_reducible apply laterOnce_keeps
    | with_reducible apply later_keeps
    | with_reducible apply chgResult_keeps
    | with_reducible apply wr_keeps
    | with_reducible apply oldSlots_keeps
    | simp only [↓keeps_mk]

theorem shadowCopyComplete_keeps  {s0 s : State} (hk : Keeps s0 s) : Keeps s0 (shadowCopyComplete s) := by
  unfold shadowCopyComplete
  repeat' first
    | with_reducible assumption
    | (intro)
    | (extract_lets +onlyGivenNames lx; first | ((first | refine keeps_cut lx ?_ (fun _ => ?_) | refine keeps_cut1 lx ?_ (fun _ => ?_) | refine keeps_cut2 lx ?_ (fun _ => ?_)); rotate_left; clear_value lx; revert lx; intro y hy; rotate_right; subst lx) | (refine keeps_cutF lx ?_ (fun _ => ?_); rotate_left; clear_value lx; revert lx; intro y hF; rotate_right; subst lx) | (refine keeps_cutG lx ?_ (fun _ => ?_); rotate_left; clear_value lx; revert lx; intro y hG; rotate_right; subst lx) | (refine keeps_cutG' lx ?_ (fun _ => ?_); rotate_left; clear_value lx; revert lx; intro y hG'; rotate_right; subst lx) | (refine keeps_cutH lx ?_ (fun _ => ?_); rotate_left; clear_value lx; revert lx; intro y hH; rotate_right; subst lx) | (refine keeps_cutU lx ?_ (fun _ => ?_); rotate_left; clear_value lx; revert lx; intro y hU; rotate_right; subst lx) | (clear_value lx; revert lx; intro y) | subst lx)
    | with_reducible apply each_keeps
    | with_reducible apply setParShadow_keeps
    | with_reducible apply setShadow_keeps
    | with_reducible apply chgDone_keeps
    | with_reducible apply mlkConjEnd_keeps
    | with_reducible apply framesConjEnd_keeps
    | with_reducible apply modeEnter_keeps
    | with_reducible apply wr_keeps
    | with_reducible apply hF
    | with_reducible apply hG
    | with_reducible apply hG'
    | with_reducible apply hH
    | with_reducible apply hU
    | split
    | simp only [↓keeps_mk]

theorem conjEnd_keeps  {s0 s : State} (hk : Keeps s0 s) : Keeps s0 (conjEnd s) := by
  unfold conjEnd
  repeat' first
    | with_reducible assumption
    | (extract_lets +onlyGivenNames lx; first | (refine keeps_cut lx ?_ (fun _ => ?_); rotate_left; clear_value lx; revert lx; intro y hy; rotate_right; subst lx) | (clear_value lx; revert lx; intro y) | subst lx)
    | with_reducible apply chgDone_keeps
    | with_reducible apply mlkConjEnd_keeps
    | with_reducible apply framesConjEnd_keeps
    | with_reducible apply later_keeps
    | with_reducible apply modeEnter_keeps
    | with_reducible apply lockCheck_keeps
    | split

theorem conjunctionEnd_keeps  {s0 s : State} (hk : Keeps s0 s) : Keeps s0 (conjunctionEnd s) := by
  unfold conjunctionEnd
  repeat' first
    | with_reducible assumption
    | with_reducible apply conjEnd_keeps
    | split

theorem conjForce_keeps  {s0 s : State} (hk : Keeps s0 s) : Keeps s0 (conjForce s) := by
  unfold conjForce
  repeat' first
    | with_reducible assumption
    | (intro)
    | with_reducible apply each_keeps
    | with_reducible apply checkStream_keeps
    | with_reducible apply oldImageStop_keeps
    | with_reducible apply oldCutStop_keeps
    | with_reducible apply leadCopyComplete_keeps

theorem conjunctionLimit_keeps  {s0 s : State} (hk : Keeps s0 s) : Keeps s0 (conjunctionLimit s) := by
  unfold conjunctionLimit
  repeat' first
    | with_reducible assumption
    | with_reducible apply conjEnd_keeps
    | with_reducible apply wr_keeps
    | with_reducible apply conjForce_keeps
    | split

theorem conjLeave_keeps  {s0 s : State} (hk : Keeps s0 s) : Keeps s0 (conjLeave s) := by
  unfold conjLeave
  repeat' first
    | with_reducible assumption
    | with_reducible apply conjEnd_keeps
    | with_reducible apply conjForce_keeps
    | split

theorem beginStop_keeps  {s0 s : State} (hk : Keeps s0 s) : Keeps s0 (beginStop s) := by
  unfold beginStop
  repeat' first
    | with_reducible assumption
    | (intro)
    | (extract_lets +onlyGivenNames lx; first | (refine keeps_cut lx ?_ (fun _ => ?_); rotate_left; clear_value lx; revert lx; intro y hy; rotate_right; subst lx) | (clear_value lx; revert lx; intro y) | subst lx)
    | with_reducible apply modeWithdraw_keeps
    | with_reducible apply onlyIf_keeps
    | with_reducible apply stakesStop_keeps
    | with_reducible apply each_keeps
    | with_reducible apply streamFinish_keeps
    | split
    | simp only [↓keeps_mk]

theorem stopNow_keeps  {s0 s : State} (hk : Keeps s0 s) : Keeps s0 (stopNow s) := by
  unfold stopNow
  repeat' first
    | with_reducible assumption
    | (extract_lets +onlyGivenNames lx; first | (refine keeps_cut lx ?_ (fun _ => ?_); rotate_left; clear_value lx; revert lx; intro y hy; rotate_right; subst lx) | (clear_value lx; revert lx; intro y) | subst lx)
    | with_reducible apply dividersHold_keeps
    | split
    | simp only [↓keeps_mk]

theorem stopReached_keeps  {s0 s : State} (hk : Keeps s0 s) : Keeps s0 (stopReached s) := by
  unfold stopReached
  repeat' first
    | with_reducible assumption
    | with_reducible apply stopNow_keeps
    | split

theorem stakesCheck_keeps  {s0 s : State} (hk : Keeps s0 s) : Keeps s0 (stakesCheck s) := by
  unfold stakesCheck
  repeat' first
    | with_reducible assumption
    | with_reducible apply stakesStop_keeps
    | split

theorem enterHold_keeps {src idx : Nat} {disable : Bool} {s0 s : State} (hk : Keeps s0 s) : Keeps s0 (enterHold s src idx disable) := by
  unfold enterHold
  repeat' first
    | with_reducible assumption
    | (intro)
    | (extract_lets +onlyGivenNames lx; first | (refine keeps_cut lx ?_ (fun _ => ?_); rotate_left; clear_value lx; revert lx; intro y hy; rotate_right; subst lx) | (refine keeps_cutF lx ?_ (fun _ => ?_); rotate_left; clear_value lx; revert lx; intro y hF; rotate_right; subst lx) | (refine keeps_cutG lx ?_ (fun _ => ?_); rotate_left; clear_value lx; revert lx; intro y hG; rotate_right; subst lx) | (refine keeps_cutG' lx ?_ (fun _ => ?_); rotate_left; clear_value lx; revert lx; intro y hG'; rotate_right; subst lx) | (refine keeps_cutH lx ?_ (fun _ => ?_); rotate_left; clear_value lx; revert lx; intro y hH; rotate_right; subst lx) | (refine keeps_cutU lx ?_ (fun _ => ?_); rotate_left; clear_value lx; revert lx; intro y hU; rotate_right; subst lx) | (clear_value lx; revert lx; intro y) | subst lx)
    | with_reducible apply wr_keeps
    | with_reducible apply beginStop_keeps
    | with_reducible apply disableUnit_keeps
    | with_reducible apply modeEnter_keeps
    | with_reducible apply later_keeps
    | with_reducible apply onlyIf_keeps
    | with_reducible apply calAbort_keeps
    | with_reducible apply stopNow_keeps
    | with_reducible apply hF
    | with_reducible apply hG
    | with_reducible apply hG'
    | with_reducible apply hH
    | with_reducible apply hU
    | split
    | simp only [↓keeps_mk]

theorem enterAcq_keeps {m cause : Nat} {s0 s : State} (hk : Keeps s0 s) : Keeps s0 (enterAcq s m cause) := by
  unfold enterAcq
  repeat' first
    | with_reducible assumption
    | (intro)
    | (extract_lets +onlyGivenNames lx; first | (refine keeps_cut lx ?_ (fun _ => ?_); rotate_left; clear_value lx; revert lx; intro y hy; rotate_right; subst lx) | (clear_value lx; revert lx; intro y) | subst lx)
    | with_reducible apply modeEnter_keeps
    | with_reducible apply each_keeps
    | with_reducible apply streamStart_keeps
    | with_reducible apply later_keeps
    | with_reducible apply onlyIf_keeps
    | with_reducible apply stakesStart_keeps
    | with_reducible apply lockCheck_keeps
    | split
    | simp only [↓keeps_mk]

theorem enterDrain_keeps {cause : Nat} {s0 s : State} (hk : Keeps s0 s) : Keeps s0 (enterDrain s cause) := by
  unfold enterDrain
  repeat' first
    | with_reducible assumption
    | with_reducible apply later_keeps
    | with_reducible apply modeEnter_keeps
    | with_reducible apply beginStop_keeps

theorem leaveStop_keeps  {s0 s : State} (hk : Keeps s0 s) : Keeps s0 (leaveStop s) := by
  unfold leaveStop
  repeat' first
    | with_reducible assumption
    | (intro)
    | (extract_lets +onlyGivenNames lx; first | (refine keeps_cut lx ?_ (fun _ => ?_); rotate_left; clear_value lx; revert lx; intro y hy; rotate_right; subst lx) | (refine keeps_cutF lx ?_ (fun _ => ?_); rotate_left; clear_value lx; revert lx; intro y hF; rotate_right; subst lx) | (refine keeps_cutG lx ?_ (fun _ => ?_); rotate_left; clear_value lx; revert lx; intro y hG; rotate_right; subst lx) | (refine keeps_cutG' lx ?_ (fun _ => ?_); rotate_left; clear_value lx; revert lx; intro y hG'; rotate_right; subst lx) | (refine keeps_cutH lx ?_ (fun _ => ?_); rotate_left; clear_value lx; revert lx; intro y hH; rotate_right; subst lx) | (refine keeps_cutU lx ?_ (fun _ => ?_); rotate_left; clear_value lx; revert lx; intro y hU; rotate_right; subst lx) | (clear_value lx; revert lx; intro y) | subst lx)
    | with_reducible apply each_keeps
    | with_reducible apply streamCutShort_keeps
    | with_reducible apply stakesHold_keeps
    | with_reducible apply conjLeave_keeps
    | with_reducible apply disableUnit_keeps
    | with_reducible apply hF
    | with_reducible apply hG
    | with_reducible apply hG'
    | with_reducible apply hH
    | with_reducible apply hU
    | simp only [↓keeps_mk]

theorem drainEnd_keeps {cause : Nat} {s0 s : State} (hk : Keeps s0 s) : Keeps s0 (drainEnd s cause) := by
  unfold drainEnd
  repeat' first
    | with_reducible assumption
    | with_reducible apply later_keeps
    | with_reducible apply modeEnter_keeps
    | with_reducible apply leaveStop_keeps

theorem drainComplete_keeps  {s0 s : State} (hk : Keeps s0 s) : Keeps s0 (drainComplete s) := by
  unfold drainComplete
  repeat' first
    | with_reducible assumption
    | with_reducible apply drainEnd_keeps
    | split

theorem dropCampItems_keeps {c : Nat} {s0 s : State} (hk : Keeps s0 s) : Keeps s0 (dropCampItems s c) := by
  unfold dropCampItems
  repeat' first
    | with_reducible assumption
    | (intro)
    | (extract_lets +onlyGivenNames lx; first | ((first | refine keeps_cut lx ?_ (fun _ => ?_) | refine keeps_cut1 lx ?_ (fun _ => ?_) | refine keeps_cut2 lx ?_ (fun _ => ?_)); rotate_left; clear_value lx; revert lx; intro y hy; rotate_right; subst lx) | (refine keeps_cutF lx ?_ (fun _ => ?_); rotate_left; clear_value lx; revert lx; intro y hF; rotate_right; subst lx) | (refine keeps_cutG lx ?_ (fun _ => ?_); rotate_left; clear_value lx; revert lx; intro y hG; rotate_right; subst lx) | (refine keeps_cutG' lx ?_ (fun _ => ?_); rotate_left; clear_value lx; revert lx; intro y hG'; rotate_right; subst lx) | (refine keeps_cutH lx ?_ (fun _ => ?_); rotate_left; clear_value lx; revert lx; intro y hH; rotate_right; subst lx) | (refine keeps_cutU lx ?_ (fun _ => ?_); rotate_left; clear_value lx; revert lx; intro y hU; rotate_right; subst lx) | (clear_value lx; revert lx; intro y) | subst lx)
    | with_reducible apply each_keeps
    | with_reducible apply record_keeps
    | with_reducible apply wr_keeps
    | with_reducible apply addSat_keeps
    | with_reducible apply raise_keeps
    | with_reducible apply setFrm_keeps
    | with_reducible apply releaseItem_keeps
    | with_reducible apply hF
    | with_reducible apply hG
    | with_reducible apply hG'
    | with_reducible apply hH
    | with_reducible apply hU
    | simp only [↓keeps_mk]

theorem dropStream_keeps {st : Nat} {s0 s : State} (hk : Keeps s0 s) : Keeps s0 (dropStream s st) := by
  unfold dropStream
  repeat' first
    | with_reducible assumption
    | (intro)
    | (extract_lets +onlyGivenNames lx; first | (refine keeps_cut lx ?_ (fun _ => ?_); rotate_left; clear_value lx; revert lx; intro y hy; rotate_right; subst lx) | (clear_value lx; revert lx; intro y) | subst lx)
    | with_reducible apply setStr_keeps
    | with_reducible apply closeFrame_keeps
    | with_reducible apply setFrm_keeps
    | with_reducible apply each_keeps
    | with_reducible apply campDrop_keeps
    | split
    | simp only [↓keeps_mk]

theorem drainTimeout_keeps  {s0 s : State} (hk : Keeps s0 s) : Keeps s0 (drainTimeout s) := by
  unfold drainTimeout
  repeat' first
    | with_reducible assumption
    | (intro)
    | (extract_lets +onlyGivenNames lx; first | (refine keeps_cut lx ?_ (fun _ => ?_); rotate_left; clear_value lx; revert lx; intro y hy; rotate_right; subst lx) | (refine keeps_cutF lx ?_ (fun _ => ?_); rotate_left; clear_value lx; revert lx; intro y hF; rotate_right; subst lx) | (refine keeps_cutG lx ?_ (fun _ => ?_); rotate_left; clear_value lx; revert lx; intro y hG; rotate_right; subst lx) | (refine keeps_cutG' lx ?_ (fun _ => ?_); rotate_left; clear_value lx; revert lx; intro y hG'; rotate_right; subst lx) | (refine keeps_cutH lx ?_ (fun _ => ?_); rotate_left; clear_value lx; revert lx; intro y hH; rotate_right; subst lx) | (refine keeps_cutU lx ?_ (fun _ => ?_); rotate_left; clear_value lx; revert lx; intro y hU; rotate_right; subst lx) | (clear_value lx; revert lx; intro y) | subst lx)
    | with_reducible apply each_keeps
    | with_reducible apply dropStream_keeps
    | with_reducible apply dropCampItems_keeps
    | with_reducible apply flushQueue_keeps
    | with_reducible apply drainEnd_keeps
    | with_reducible apply modeRefuse_keeps
    | with_reducible apply hF
    | with_reducible apply hG
    | with_reducible apply hG'
    | with_reducible apply hH
    | with_reducible apply hU
    | split

theorem enterCalibrate_keeps {cause : Nat} {lanes : Bool} {s0 s : State} (hk : Keeps s0 s) : Keeps s0 (enterCalibrate s cause lanes) := by
  unfold enterCalibrate
  repeat' first
    | with_reducible assumption
    | (intro)
    | with_reducible apply onlyIf_keeps
    | with_reducible apply cxpTests_keeps
    | with_reducible apply modeEnter_keeps
    | simp only [↓keeps_mk]

theorem leaveCalibrate_keeps  {s0 s : State} (hk : Keeps s0 s) : Keeps s0 (leaveCalibrate s) := by
  unfold leaveCalibrate
  repeat' first
    | with_reducible assumption
    | with_reducible apply modeEnter_keeps
    | split

theorem targetIsMode_keeps  {s0 s : State} (hk : Keeps s0 s) : Keeps s0 (targetIsMode s) := by
  unfold targetIsMode
  repeat' first
    | with_reducible assumption
    | with_reducible apply laterOnce_keeps
    | with_reducible apply wr_keeps
    | simp only [↓keeps_mk]

theorem modeGrant_keeps {req : Nat} {s0 s : State} (hk : Keeps s0 s) : Keeps s0 (modeGrant req s) := by
  unfold modeGrant
  repeat' first
    | with_reducible assumption
    | (extract_lets +onlyGivenNames lx; first | (refine keeps_cut lx ?_ (fun _ => ?_); rotate_left; clear_value lx; revert lx; intro y hy; rotate_right; subst lx) | (clear_value lx; revert lx; intro y) | subst lx)
    | with_reducible apply enterHold_keeps
    | with_reducible apply enterCalibrate_keeps
    | with_reducible apply enterAcq_keeps
    | with_reducible apply enterDrain_keeps
    | with_reducible apply modeEnter_keeps
    | with_reducible apply leaveStop_keeps
    | split

theorem modeRequest_keeps {req : Nat} {s0 s : State} (hk : Keeps s0 s) : Keeps s0 (modeRequest req s) := by
  unfold modeRequest
  repeat' first
    | with_reducible assumption
    | (extract_lets +onlyGivenNames lx; first | (refine keeps_cut lx ?_ (fun _ => ?_); rotate_left; clear_value lx; revert lx; intro y hy; rotate_right; subst lx) | (clear_value lx; revert lx; intro y) | subst lx)
    | with_reducible apply modeRefuse_keeps
    | with_reducible apply targetIsMode_keeps
    | with_reducible apply modeGrant_keeps
    | split

theorem lockCheck_keeps  {s0 s : State} (hk : Keeps s0 s) : Keeps s0 (lockCheck s) := by
  unfold lockCheck
  repeat' first
    | with_reducible assumption
    | with_reducible apply modeEnter_keeps
    | split

theorem lockDrop_keeps  {s0 s : State} (hk : Keeps s0 s) : Keeps s0 (lockDrop s) := by
  unfold lockDrop
  repeat' first
    | with_reducible assumption
    | with_reducible apply later_keeps
    | with_reducible apply modeEnter_keeps
    | with_reducible apply lockCheck_keeps
    | split

theorem gylFlag_keeps {f : FRef} {s0 s : State} (hk : Keeps s0 s) : Keeps s0 (gylFlag s f) := by
  unfold gylFlag
  repeat' first
    | with_reducible assumption
    | with_reducible apply raise_keeps
    | with_reducible apply wr_keeps
    | split

theorem gylAccept_keeps {c hop : Nat} {s0 s : State} (hk : Keeps s0 s) : Keeps s0 (gylAccept s c hop).1 := by
  unfold gylAccept
  repeat' first
    | with_reducible assumption
    | (intro)
    | (extract_lets +onlyGivenNames lx; first | (refine keeps_cut lx ?_ (fun _ => ?_); rotate_left; clear_value lx; revert lx; intro y hy; rotate_right; subst lx) | (refine keeps_cutF lx ?_ (fun _ => ?_); rotate_left; clear_value lx; revert lx; intro y hF; rotate_right; subst lx) | (refine keeps_cutG lx ?_ (fun _ => ?_); rotate_left; clear_value lx; revert lx; intro y hG; rotate_right; subst lx) | (refine keeps_cutG' lx ?_ (fun _ => ?_); rotate_left; clear_value lx; revert lx; intro y hG'; rotate_right; subst lx) | (refine keeps_cutH lx ?_ (fun _ => ?_); rotate_left; clear_value lx; revert lx; intro y hH; rotate_right; subst lx) | (refine keeps_cutU lx ?_ (fun _ => ?_); rotate_left; clear_value lx; revert lx; intro y hU; rotate_right; subst lx) | (clear_value lx; revert lx; intro y) | subst lx)
    | with_reducible apply gylFlag_keeps
    | with_reducible apply addSat_keeps
    | with_reducible apply onlyIf_keeps
    | with_reducible apply wr_keeps
    | with_reducible apply raise_keeps
    | with_reducible apply addWrap_keeps
    | with_reducible apply hF
    | with_reducible apply hG
    | with_reducible apply hG'
    | with_reducible apply hH
    | with_reducible apply hU
    | split

theorem gylAcceptAll_keeps  {a1 : List (Nat × Nat)} {s0 s : State} (hk : Keeps s0 s) : Keeps s0 (gylAcceptAll s a1).1 := by
  induction a1 generalizing s with
  | nil => exact hk
  | cons e l ih =>
    unfold gylAcceptAll
    repeat' first
      | with_reducible assumption
      | (extract_lets +onlyGivenNames lx; first | ((first | refine keeps_cut lx ?_ (fun _ => ?_) | refine keeps_cut1 lx ?_ (fun _ => ?_) | refine keeps_cut2 lx ?_ (fun _ => ?_)); rotate_left; clear_value lx; revert lx; intro y hy; rotate_right; subst lx) | (clear_value lx; revert lx; intro y) | subst lx)
      | with_reducible apply ih
      | with_reducible apply gylAccept_keeps
      | split

theorem relayEnd_keeps {r : Nat} {s0 s : State} (hk : Keeps s0 s) : Keeps s0 (relayEnd s r) := by
  unfold relayEnd
  repeat' first
    | with_reducible assumption
    | with_reducible apply later_keeps
    | split
    | simp only [↓keeps_mk]

theorem taskRun_keeps {t c hop n : Nat} {s0 s : State} (hk : Keeps s0 s) : Keeps s0 (taskRun s t c hop n) := by
  unfold taskRun
  repeat' first
    | with_reducible assumption
    | (extract_lets +onlyGivenNames lx; first | (refine keeps_cut lx ?_ (fun _ => ?_); rotate_left; clear_value lx; revert lx; intro y hy; rotate_right; subst lx) | (clear_value lx; revert lx; intro y) | subst lx)
    | with_reducible apply stakeRearm_keeps
    | with_reducible apply relayEnd_keeps
    | with_reducible apply chgWrite_keeps
    | split
    | simp only [↓keeps_mk]

theorem mgtTask_keeps {t c hop n : Nat} {s0 s : State} (hk : Keeps s0 s) : Keeps s0 (mgtTask s t c hop n) := by
  unfold mgtTask
  repeat' first
    | with_reducible assumption
    | with_reducible apply later_keeps
    | with_reducible apply record_keeps
    | split

theorem taskMerge_keeps {t c hop n : Nat} {s0 s : State} (hk : Keeps s0 s) : Keeps s0 (taskMerge s t c hop n) := by
  unfold taskMerge
  repeat' first
    | with_reducible assumption
    | (intro)
    | (extract_lets +onlyGivenNames lx; first | (refine keeps_cut lx ?_ (fun _ => ?_); rotate_left; clear_value lx; revert lx; intro y hy; rotate_right; subst lx) | (refine keeps_cutF lx ?_ (fun _ => ?_); rotate_left; clear_value lx; revert lx; intro y hF; rotate_right; subst lx) | (refine keeps_cutG lx ?_ (fun _ => ?_); rotate_left; clear_value lx; revert lx; intro y hG; rotate_right; subst lx) | (refine keeps_cutG' lx ?_ (fun _ => ?_); rotate_left; clear_value lx; revert lx; intro y hG'; rotate_right; subst lx) | (refine keeps_cutH lx ?_ (fun _ => ?_); rotate_left; clear_value lx; revert lx; intro y hH; rotate_right; subst lx) | (refine keeps_cutU lx ?_ (fun _ => ?_); rotate_left; clear_value lx; revert lx; intro y hU; rotate_right; subst lx) | (clear_value lx; revert lx; intro y) | subst lx)
    | with_reducible apply hF
    | with_reducible apply hG
    | with_reducible apply hG'
    | with_reducible apply hH
    | with_reducible apply hU
    | split
    | simp only [↓keeps_mk]

theorem taskFill_keeps {t : Nat} {s0 s : State} (hk : Keeps s0 s) : Keeps s0 (taskFill s t) := by
  unfold taskFill
  repeat' first
    | with_reducible assumption
    | (extract_lets +onlyGivenNames lx; first | (refine keeps_cut lx ?_ (fun _ => ?_); rotate_left; clear_value lx; revert lx; intro y hy; rotate_right; subst lx) | (clear_value lx; revert lx; intro y) | subst lx)
    | with_reducible apply freeNext_keeps
    | split
    | simp only [↓keeps_mk]

theorem taskEvents_keeps {t : Nat} {evs : List (Nat × Nat)} {s0 s : State} (hk : Keeps s0 s) : Keeps s0 (taskEvents s t evs) := by
  unfold taskEvents
  repeat' first
    | with_reducible assumption
    | (intro)
    | (extract_lets +onlyGivenNames lx; first | ((first | refine keeps_cut lx ?_ (fun _ => ?_) | refine keeps_cut1 lx ?_ (fun _ => ?_) | refine keeps_cut2 lx ?_ (fun _ => ?_)); rotate_left; clear_value lx; revert lx; intro y hy; rotate_right; subst lx) | (refine keeps_cutF lx ?_ (fun _ => ?_); rotate_left; clear_value lx; revert lx; intro y hF; rotate_right; subst lx) | (refine keeps_cutG lx ?_ (fun _ => ?_); rotate_left; clear_value lx; revert lx; intro y hG; rotate_right; subst lx) | (refine keeps_cutG' lx ?_ (fun _ => ?_); rotate_left; clear_value lx; revert lx; intro y hG'; rotate_right; subst lx) | (refine keeps_cutH lx ?_ (fun _ => ?_); rotate_left; clear_value lx; revert lx; intro y hH; rotate_right; subst lx) | (refine keeps_cutU lx ?_ (fun _ => ?_); rotate_left; clear_value lx; revert lx; intro y hU; rotate_right; subst lx) | (clear_value lx; revert lx; intro y) | subst lx)
    | with_reducible apply onlyIf_keeps
    | with_reducible apply gylFlag_keeps
    | with_reducible apply addSat_keeps
    | with_reducible apply taskMerge_keeps
    | with_reducible apply taskRun_keeps
    | with_reducible apply addWrap_keeps
    | with_reducible apply taskFill_keeps
    | with_reducible apply foldl_keeps
    | with_reducible apply hF
    | with_reducible apply hG
    | with_reducible apply hG'
    | with_reducible apply hH
    | with_reducible apply hU
    | split
    | simp only [↓keeps_mk]

theorem gylCycle_keeps {evs : List (Nat × Nat)} {s0 s : State} (hk : Keeps s0 s) : Keeps s0 (gylCycle s evs) := by
  unfold gylCycle
  repeat' first
    | with_reducible assumption
    | (intro)
    | (extract_lets +onlyGivenNames lx; first | ((first | refine keeps_cut lx ?_ (fun _ => ?_) | refine keeps_cut1 lx ?_ (fun _ => ?_) | refine keeps_cut2 lx ?_ (fun _ => ?_)); rotate_left; clear_value lx; revert lx; intro y hy; rotate_right; subst lx) | (clear_value lx; revert lx; intro y) | subst lx)
    | with_reducible apply gylAcceptAll_keeps
    | with_reducible apply each_keeps
    | with_reducible apply taskEvents_keeps

theorem guylineEvent_keeps {c hop : Nat} {s0 s : State} (hk : Keeps s0 s) : Keeps s0 (guylineEvent c hop s) := by
  unfold guylineEvent
  repeat' first
    | with_reducible assumption
    | with_reducible apply later_keeps

theorem relayExpire_keeps {r : Nat} {s0 s : State} (hk : Keeps s0 s) : Keeps s0 (relayExpire r s) := by
  unfold relayExpire
  repeat' first
    | with_reducible assumption
    | with_reducible apply relayEnd_keeps

theorem enPut_keeps {c v : Nat} {s0 s : State} (hk : Keeps s0 s) : Keeps s0 (enPut s c v) := by
  unfold enPut
  repeat' first
    | with_reducible assumption
    | with_reducible apply wr_keeps
    | simp only [↓keeps_mk]

theorem gylSetEn_keeps {c v : Nat} {s0 s : State} (hk : Keeps s0 s) : Keeps s0 (gylSetEn s c v) := by
  unfold gylSetEn
  repeat' first
    | with_reducible assumption
    | with_reducible apply gylFlag_keeps
    | with_reducible apply enPut_keeps
    | split

theorem lanEnDrop_keeps {c bits : Nat} {s0 s : State} (hk : Keeps s0 s) : Keeps s0 (lanEnDrop s c bits) := by
  unfold lanEnDrop
  repeat' first
    | with_reducible assumption
    | (extract_lets +onlyGivenNames lx; first | (refine keeps_cut lx ?_ (fun _ => ?_); rotate_left; clear_value lx; revert lx; intro y hy; rotate_right; subst lx) | (clear_value lx; revert lx; intro y) | subst lx)
    | split
    | simp only [↓keeps_mk]

theorem gylChEnWrite_keeps {owner c v : Nat} {s0 s : State} (hk : Keeps s0 s) : Keeps s0 (gylChEnWrite owner c v s) := by
  unfold gylChEnWrite
  repeat' first
    | with_reducible assumption
    | (extract_lets +onlyGivenNames lx; first | (refine keeps_cut lx ?_ (fun _ => ?_); rotate_left; clear_value lx; revert lx; intro y hy; rotate_right; subst lx) | (clear_value lx; revert lx; intro y) | subst lx)
    | with_reducible apply gylSetEn_keeps
    | with_reducible apply gylFlag_keeps
    | split
    | simp only [↓keeps_mk]

theorem gylCfgWrite_keeps {c v : Nat} {s0 s : State} (hk : Keeps s0 s) : Keeps s0 (gylCfgWrite c v s) := by
  unfold gylCfgWrite
  repeat' first
    | with_reducible assumption
    | with_reducible apply wr_keeps
    | with_reducible apply gylFlag_keeps
    | split

theorem gylParam_keeps {c v : Nat} {s0 s : State} (hk : Keeps s0 s) : Keeps s0 (gylParam s c v) := by
  unfold gylParam
  repeat' first
    | with_reducible assumption
    | (intro)
    | (extract_lets +onlyGivenNames lx; first | (refine keeps_cut lx ?_ (fun _ => ?_); rotate_left; clear_value lx; revert lx; intro y hy; rotate_right; subst lx) | (refine keeps_cutF lx ?_ (fun _ => ?_); rotate_left; clear_value lx; revert lx; intro y hF; rotate_right; subst lx) | (refine keeps_cutG lx ?_ (fun _ => ?_); rotate_left; clear_value lx; revert lx; intro y hG; rotate_right; subst lx) | (refine keeps_cutG' lx ?_ (fun _ => ?_); rotate_left; clear_value lx; revert lx; intro y hG'; rotate_right; subst lx) | (refine keeps_cutH lx ?_ (fun _ => ?_); rotate_left; clear_value lx; revert lx; intro y hH; rotate_right; subst lx) | (refine keeps_cutU lx ?_ (fun _ => ?_); rotate_left; clear_value lx; revert lx; intro y hU; rotate_right; subst lx) | (clear_value lx; revert lx; intro y) | subst lx)
    | with_reducible apply onlyIf_keeps
    | with_reducible apply enPut_keeps
    | with_reducible apply lanEnDrop_keeps
    | with_reducible apply wr_keeps
    | with_reducible apply gylSetEn_keeps
    | with_reducible apply hF
    | with_reducible apply hG
    | with_reducible apply hG'
    | with_reducible apply hH
    | with_reducible apply hU
    | split

theorem tthErr_keeps  {s0 s : State} (hk : Keeps s0 s) : Keeps s0 (tthErr s) := by
  unfold tthErr
  repeat' first
    | with_reducible assumption
    | with_reducible apply raise_keeps

theorem tthCrc_keeps {down : Bool} {s0 s : State} (hk : Keeps s0 s) : Keeps s0 (tthCrc s down) := by
  unfold tthCrc
  repeat' first
    | with_reducible assumption
    | with_reducible apply windowInc_keeps
    | with_reducible apply addSat_keeps
    | split

theorem blockSend_keeps {down : Bool} {b : TthBlock} {s0 s : State} (hk : Keeps s0 s) : Keeps s0 (blockSend s down b) := by
  unfold blockSend
  repeat' first
    | with_reducible assumption
    | (extract_lets +onlyGivenNames lx; first | ((first | refine keeps_cut lx ?_ (fun _ => ?_) | refine keeps_cut1 lx ?_ (fun _ => ?_) | refine keeps_cut2 lx ?_ (fun _ => ?_)); rotate_left; clear_value lx; revert lx; intro y hy; rotate_right; subst lx) | (clear_value lx; revert lx; intro y) | subst lx)
    | with_reducible apply send_keeps
    | split
    | simp only [↓keeps_mk]

theorem tthJoin_keeps {down : Bool} {m : TthMsg} {s0 s : State} (hk : Keeps s0 s) : Keeps s0 (tthJoin s down m) := by
  unfold tthJoin
  repeat' first
    | with_reducible assumption
    | split
    | simp only [↓keeps_mk]

theorem tthOwn_keeps {down : Bool} {kind : Nat} {blocks : List TthBlock} {s0 s : State} (hk : Keeps s0 s) : Keeps s0 (tthOwn s down kind blocks) := by
  unfold tthOwn
  repeat' first
    | with_reducible assumption
    | with_reducible apply tthJoin_keeps

theorem tthRelay_keeps {down : Bool} {kind : Nat} {blocks : List TthBlock} {s0 s : State} (hk : Keeps s0 s) : Keeps s0 (tthRelay s down kind blocks) := by
  unfold tthRelay
  repeat' first
    | with_reducible assumption
    | (intro)
    | (extract_lets +onlyGivenNames lx; first | (refine keeps_cut lx ?_ (fun _ => ?_); rotate_left; clear_value lx; revert lx; intro y hy; rotate_right; subst lx) | (refine keeps_cutF lx ?_ (fun _ => ?_); rotate_left; clear_value lx; revert lx; intro y hF; rotate_right; subst lx) | (refine keeps_cutG lx ?_ (fun _ => ?_); rotate_left; clear_value lx; revert lx; intro y hG; rotate_right; subst lx) | (refine keeps_cutG' lx ?_ (fun _ => ?_); rotate_left; clear_value lx; revert lx; intro y hG'; rotate_right; subst lx) | (refine keeps_cutH lx ?_ (fun _ => ?_); rotate_left; clear_value lx; revert lx; intro y hH; rotate_right; subst lx) | (refine keeps_cutU lx ?_ (fun _ => ?_); rotate_left; clear_value lx; revert lx; intro y hU; rotate_right; subst lx) | (clear_value lx; revert lx; intro y) | subst lx)
    | with_reducible apply tthErr_keeps
    | with_reducible apply addSat_keeps
    | with_reducible apply tthJoin_keeps
    | with_reducible apply foldl_keeps
    | with_reducible apply hF
    | with_reducible apply hG
    | with_reducible apply hG'
    | with_reducible apply hH
    | with_reducible apply hU
    | split

theorem tthDrain_keeps  {a0 : Nat} {a2 : Bool} {s0 s : State} (hk : Keeps s0 s) : Keeps s0 (tthDrain a0 s a2) := by
  induction a0 generalizing s a2 with
  | zero => exact hk
  | succ n ih =>
    unfold tthDrain
    repeat' first
      | with_reducible assumption
      | (extract_lets +onlyGivenNames lx; first | (refine keeps_cut lx ?_ (fun _ => ?_); rotate_left; clear_value lx; revert lx; intro y hy; rotate_right; subst lx) | (clear_value lx; revert lx; intro y) | subst lx)
      | with_reducible apply ih
      | with_reducible apply blockSend_keeps
      | split
      | simp only [↓keeps_mk]

theorem slotFreeze_keeps {j : Nat} {s0 s : State} (hk : Keeps s0 s) : Keeps s0 (slotFreeze s j) := by
  unfold slotFreeze
  repeat' first
    | with_reducible assumption
    | (intro)
    | (extract_lets +onlyGivenNames lx; first | (refine keeps_cut lx ?_ (fun _ => ?_); rotate_left; clear_value lx; revert lx; intro y hy; rotate_right; subst lx) | (clear_value lx; revert lx; intro y) | subst lx)
    | with_reducible apply each_keeps
    | with_reducible apply trlBar_keeps
    | with_reducible apply wr_keeps
    | split
    | simp only [↓keeps_mk]

theorem upLock_keeps {lock : Bool} {s0 s : State} (hk : Keeps s0 s) : Keeps s0 (upLock s lock) := by
  unfold upLock
  repeat' first
    | with_reducible assumption
    | (intro)
    | (extract_lets +onlyGivenNames lx; first | (refine keeps_cut lx ?_ (fun _ => ?_); rotate_left; clear_value lx; revert lx; intro y hy; rotate_right; subst lx) | (clear_value lx; revert lx; intro y) | subst lx)
    | with_reducible apply raise_keeps
    | with_reducible apply wrB_keeps
    | with_reducible apply each_keeps
    | with_reducible apply slotFreeze_keeps
    | split

theorem portLock_keeps {down lock : Bool} {s0 s : State} (hk : Keeps s0 s) : Keeps s0 (portLock s down lock) := by
  unfold portLock
  repeat' first
    | with_reducible assumption
    | with_reducible apply upLock_keeps
    | with_reducible apply raise_keeps
    | with_reducible apply wrB_keeps
    | split
    | simp only [↓keeps_mk]

theorem setLock_keeps {down : Bool} {l : PortLock} {s0 s : State} (hk : Keeps s0 s) : Keeps s0 (setLock s down l) := by
  unfold setLock
  repeat' first
    | with_reducible assumption
    | split
    | simp only [↓keeps_mk]

theorem beatLock_keeps {down good : Bool} {seq : Option Nat} {s0 s : State} (hk : Keeps s0 s) : Keeps s0 (beatLock s down good seq) := by
  unfold beatLock
  repeat' first
    | with_reducible assumption
    | (intro)
    | (extract_lets +onlyGivenNames lx; first | (refine keeps_cut lx ?_ (fun _ => ?_); rotate_left; clear_value lx; revert lx; intro y hy; rotate_right; subst lx) | (clear_value lx; revert lx; intro y) | subst lx)
    | with_reducible apply portLock_keeps
    | with_reducible apply setLock_keeps
    | split
    | simp only [↓keeps_mk]

theorem ownClock_keeps  {s0 s : State} (hk : Keeps s0 s) : Keeps s0 (ownClock s) := by
  unfold ownClock
  repeat' first
    | with_reducible assumption
    | with_reducible apply send_keeps
    | simp only [↓keeps_mk]

theorem blockLockChange_keeps {down lock : Bool} {s0 s : State} (hk : Keeps s0 s) : Keeps s0 (blockLockChange down lock s) := by
  unfold blockLockChange
  repeat' first
    | with_reducible assumption
    | (extract_lets +onlyGivenNames lx; first | (refine keeps_cut lx ?_ (fun _ => ?_); rotate_left; clear_value lx; revert lx; intro y hy; rotate_right; subst lx) | (clear_value lx; revert lx; intro y) | subst lx)
    | with_reducible apply portLock_keeps
    | with_reducible apply setLock_keeps
    | with_reducible apply ownClock_keeps
    | split
    | simp only [↓keeps_mk]

theorem blocksSend_keeps {down : Bool} {l : List TthBlock} {s0 s : State} (hk : Keeps s0 s) : Keeps s0 (blocksSend s down l) := by
  unfold blocksSend
  repeat' first
    | with_reducible assumption
    | (intro)
    | with_reducible apply each_keeps
    | with_reducible apply blockSend_keeps

theorem beatTransmit_keeps  {s0 s : State} (hk : Keeps s0 s) : Keeps s0 (beatTransmit s) := by
  unfold beatTransmit
  repeat' first
    | with_reducible assumption
    | (extract_lets +onlyGivenNames lx; first | (refine keeps_cut lx ?_ (fun _ => ?_); rotate_left; clear_value lx; revert lx; intro y hy; rotate_right; subst lx) | (clear_value lx; revert lx; intro y) | subst lx)
    | with_reducible apply freeNext_keeps
    | with_reducible apply tthDrain_keeps
    | with_reducible apply blocksSend_keeps
    | split
    | simp only [↓keeps_mk]

theorem slotUntrusted_keeps {j : Nat} {s0 s : State} (hk : Keeps s0 s) : Keeps s0 (slotUntrusted s j) := by
  unfold slotUntrusted
  repeat' first
    | with_reducible assumption
    | (intro)
    | with_reducible apply each_keeps
    | with_reducible apply wr_keeps

theorem slotDeltaIn_keeps {w j : Nat} {s0 s : State} (hk : Keeps s0 s) : Keeps s0 (slotDeltaIn s w j) := by
  unfold slotDeltaIn
  repeat' first
    | with_reducible assumption
    | (intro)
    | (extract_lets +onlyGivenNames lx; first | (refine keeps_cut lx ?_ (fun _ => ?_); rotate_left; clear_value lx; revert lx; intro y hy; rotate_right; subst lx) | (refine keeps_cutF lx ?_ (fun _ => ?_); rotate_left; clear_value lx; revert lx; intro y hF; rotate_right; subst lx) | (refine keeps_cutG lx ?_ (fun _ => ?_); rotate_left; clear_value lx; revert lx; intro y hG; rotate_right; subst lx) | (refine keeps_cutG' lx ?_ (fun _ => ?_); rotate_left; clear_value lx; revert lx; intro y hG'; rotate_right; subst lx) | (refine keeps_cutH lx ?_ (fun _ => ?_); rotate_left; clear_value lx; revert lx; intro y hH; rotate_right; subst lx) | (refine keeps_cutU lx ?_ (fun _ => ?_); rotate_left; clear_value lx; revert lx; intro y hU; rotate_right; subst lx) | (clear_value lx; revert lx; intro y) | subst lx)
    | with_reducible apply slotFreeze_keeps
    | with_reducible apply onlyIf_keeps
    | with_reducible apply slotUntrusted_keeps
    | with_reducible apply hF
    | with_reducible apply hG
    | with_reducible apply hG'
    | with_reducible apply hH
    | with_reducible apply hU
    | split
    | simp only [↓keeps_mk]

theorem slotMissed_keeps {j : Nat} {s0 s : State} (hk : Keeps s0 s) : Keeps s0 (slotMissed s j) := by
  unfold slotMissed
  repeat' first
    | with_reducible assumption
    | (extract_lets +onlyGivenNames lx; first | (refine keeps_cut lx ?_ (fun _ => ?_); rotate_left; clear_value lx; revert lx; intro y hy; rotate_right; subst lx) | (clear_value lx; revert lx; intro y) | subst lx)
    | split
    | simp only [↓keeps_mk]

theorem beatRest_keeps {l : List TthBlock} {s0 s : State} (hk : Keeps s0 s) : Keeps s0 (beatRest s l) := by
  unfold beatRest
  repeat' first
    | with_reducible assumption
    | with_reducible apply tthDrain_keeps
    | with_reducible apply blocksSend_keeps
    | split
    | simp only [↓keeps_mk]

theorem hopTake_keeps {hop : Nat} {s0 s : State} (hk : Keeps s0 s) : Keeps s0 (hopTake s hop) := by
  unfold hopTake
  repeat' first
    | with_reducible assumption
    | (intro)
    | (extract_lets +onlyGivenNames lx; first | (refine keeps_cut lx ?_ (fun _ => ?_); rotate_left; clear_value lx; revert lx; intro y hy; rotate_right; subst lx) | (clear_value lx; revert lx; intro y) | subst lx)
    | with_reducible apply onlyIf_keeps
    | with_reducible apply tthErr_keeps
    | with_reducible apply wrB_keeps
    | with_reducible apply upLock_keeps
    | with_reducible apply wr_keeps
    | split
    | simp only [↓keeps_mk]

theorem deltaUpstream_keeps {x : DeltaPart} {s0 s : State} (hk : Keeps s0 s) : Keeps s0 (deltaUpstream x s) := by
  unfold deltaUpstream
  repeat' first
    | with_reducible assumption
    | (intro)
    | (extract_lets +onlyGivenNames lx; first | (refine keeps_cut lx ?_ (fun _ => ?_); rotate_left; clear_value lx; revert lx; intro y hy; rotate_right; subst lx) | (clear_value lx; revert lx; intro y) | subst lx)
    | with_reducible apply beatLock_keeps
    | with_reducible apply onlyIf_keeps
    | with_reducible apply tthCrc_keeps
    | split

theorem beatsSend_keeps {w : Option Nat} {s0 s : State} (hk : Keeps s0 s) : Keeps s0 (beatsSend s w) := by
  unfold beatsSend
  repeat' first
    | with_reducible assumption
    | (extract_lets +onlyGivenNames lx; first | (refine keeps_cut lx ?_ (fun _ => ?_); rotate_left; clear_value lx; revert lx; intro y hy; rotate_right; subst lx) | (clear_value lx; revert lx; intro y) | subst lx)
    | with_reducible apply blocksSend_keeps
    | with_reducible apply tthDrain_keeps
    | split
    | simp only [↓keeps_mk]

theorem deltaDown_keeps {x : DeltaPart} {s0 s : State} (hk : Keeps s0 s) : Keeps s0 (deltaDown x s) := by
  unfold deltaDown
  repeat' first
    | with_reducible assumption
    | (intro)
    | (extract_lets +onlyGivenNames lx; first | (refine keeps_cut lx ?_ (fun _ => ?_); rotate_left; clear_value lx; revert lx; intro y hy; rotate_right; subst lx) | (refine keeps_cutF lx ?_ (fun _ => ?_); rotate_left; clear_value lx; revert lx; intro y hF; rotate_right; subst lx) | (refine keeps_cutG lx ?_ (fun _ => ?_); rotate_left; clear_value lx; revert lx; intro y hG; rotate_right; subst lx) | (refine keeps_cutG' lx ?_ (fun _ => ?_); rotate_left; clear_value lx; revert lx; intro y hG'; rotate_right; subst lx) | (refine keeps_cutH lx ?_ (fun _ => ?_); rotate_left; clear_value lx; revert lx; intro y hH; rotate_right; subst lx) | (refine keeps_cutU lx ?_ (fun _ => ?_); rotate_left; clear_value lx; revert lx; intro y hU; rotate_right; subst lx) | (clear_value lx; revert lx; intro y) | subst lx)
    | with_reducible apply onlyIf_keeps
    | with_reducible apply tthCrc_keeps
    | with_reducible apply windowInc_keeps
    | with_reducible apply addSat_keeps
    | with_reducible apply each_keeps
    | with_reducible apply slotMissed_keeps
    | with_reducible apply beatLock_keeps
    | with_reducible apply hopTake_keeps
    | with_reducible apply slotDeltaIn_keeps
    | with_reducible apply beatsSend_keeps
    | with_reducible apply hF
    | with_reducible apply hG
    | with_reducible apply hG'
    | with_reducible apply hH
    | with_reducible apply hU
    | split
    | simp only [↓keeps_mk]

theorem positionDelta_keeps {x : DeltaPart} {s0 s : State} (hk : Keeps s0 s) : Keeps s0 (positionDelta x s) := by
  unfold positionDelta
  repeat' first
    | with_reducible assumption
    | with_reducible apply deltaUpstream_keeps
    | with_reducible apply deltaDown_keeps
    | with_reducible apply virtSync_keeps
    | with_reducible apply beatRest_keeps
    | split

theorem slotAnchor_keeps {j w : Nat} {s0 s : State} (hk : Keeps s0 s) : Keeps s0 (slotAnchor s j w) := by
  unfold slotAnchor
  repeat' first
    | with_reducible assumption
    | (intro)
    | (extract_lets +onlyGivenNames lx; first | (refine keeps_cut lx ?_ (fun _ => ?_); rotate_left; clear_value lx; revert lx; intro y hy; rotate_right; subst lx) | (refine keeps_cutF lx ?_ (fun _ => ?_); rotate_left; clear_value lx; revert lx; intro y hF; rotate_right; subst lx) | (refine keeps_cutG lx ?_ (fun _ => ?_); rotate_left; clear_value lx; revert lx; intro y hG; rotate_right; subst lx) | (refine keeps_cutG' lx ?_ (fun _ => ?_); rotate_left; clear_value lx; revert lx; intro y hG'; rotate_right; subst lx) | (refine keeps_cutH lx ?_ (fun _ => ?_); rotate_left; clear_value lx; revert lx; intro y hH; rotate_right; subst lx) | (refine keeps_cutU lx ?_ (fun _ => ?_); rotate_left; clear_value lx; revert lx; intro y hU; rotate_right; subst lx) | (clear_value lx; revert lx; intro y) | subst lx)
    | with_reducible apply onlyIf_keeps
    | with_reducible apply tthErr_keeps
    | with_reducible apply addSat_keeps
    | with_reducible apply each_keeps
    | with_reducible apply setTrl_keeps
    | with_reducible apply later_keeps
    | with_reducible apply hF
    | with_reducible apply hG
    | with_reducible apply hG'
    | with_reducible apply hH
    | with_reducible apply hU
    | split
    | simp only [↓keeps_mk]

theorem positionAnchor_keeps {x : AnchorPart} {s0 s : State} (hk : Keeps s0 s) : Keeps s0 (positionAnchor x s) := by
  unfold positionAnchor
  repeat' first
    | with_reducible assumption
    | (intro)
    | (extract_lets +onlyGivenNames lx; first | (refine keeps_cut lx ?_ (fun _ => ?_); rotate_left; clear_value lx; revert lx; intro y hy; rotate_right; subst lx) | (refine keeps_cutF lx ?_ (fun _ => ?_); rotate_left; clear_value lx; revert lx; intro y hF; rotate_right; subst lx) | (refine keeps_cutG lx ?_ (fun _ => ?_); rotate_left; clear_value lx; revert lx; intro y hG; rotate_right; subst lx) | (refine keeps_cutG' lx ?_ (fun _ => ?_); rotate_left; clear_value lx; revert lx; intro y hG'; rotate_right; subst lx) | (refine keeps_cutH lx ?_ (fun _ => ?_); rotate_left; clear_value lx; revert lx; intro y hH; rotate_right; subst lx) | (refine keeps_cutU lx ?_ (fun _ => ?_); rotate_left; clear_value lx; revert lx; intro y hU; rotate_right; subst lx) | (clear_value lx; revert lx; intro y) | subst lx)
    | with_reducible apply beatRest_keeps
    | with_reducible apply onlyIf_keeps
    | with_reducible apply tthCrc_keeps
    | with_reducible apply slotAnchor_keeps
    | with_reducible apply virtSync_keeps
    | with_reducible apply hF
    | with_reducible apply hG
    | with_reducible apply hG'
    | with_reducible apply hH
    | with_reducible apply hU
    | split
    | simp only [↓keeps_mk]

theorem slotStaleExpire_keeps {j : Nat} {s0 s : State} (hk : Keeps s0 s) : Keeps s0 (slotStaleExpire j s) := by
  unfold slotStaleExpire
  repeat' first
    | with_reducible assumption
    | with_reducible apply slotFreeze_keeps
    | split

theorem tthFwdSend_keeps  {s0 s : State} (hk : Keeps s0 s) : Keeps s0 (tthFwdSend s) := by
  unfold tthFwdSend
  repeat' first
    | with_reducible assumption
    | (intro)
    | (extract_lets +onlyGivenNames lx; first | (refine keeps_cut lx ?_ (fun _ => ?_); rotate_left; clear_value lx; revert lx; intro y hy; rotate_right; subst lx) | (refine keeps_cutF lx ?_ (fun _ => ?_); rotate_left; clear_value lx; revert lx; intro y hF; rotate_right; subst lx) | (refine keeps_cutG lx ?_ (fun _ => ?_); rotate_left; clear_value lx; revert lx; intro y hG; rotate_right; subst lx) | (refine keeps_cutG' lx ?_ (fun _ => ?_); rotate_left; clear_value lx; revert lx; intro y hG'; rotate_right; subst lx) | (refine keeps_cutH lx ?_ (fun _ => ?_); rotate_left; clear_value lx; revert lx; intro y hH; rotate_right; subst lx) | (refine keeps_cutU lx ?_ (fun _ => ?_); rotate_left; clear_value lx; revert lx; intro y hU; rotate_right; subst lx) | (clear_value lx; revert lx; intro y) | subst lx)
    | with_reducible apply onlyIf_keeps
    | with_reducible apply tthOwn_keeps
    | with_reducible apply hF
    | with_reducible apply hG
    | with_reducible apply hG'
    | with_reducible apply hH
    | with_reducible apply hU
    | split
    | simp only [↓keeps_mk]

theorem guylineMessage_keeps {down : Bool} {x : TthIn} {s0 s : State} (hk : Keeps s0 s) : Keeps s0 (guylineMessage down x s) := by
  unfold guylineMessage
  repeat' first
    | with_reducible assumption
    | (intro)
    | (extract_lets +onlyGivenNames lx; first | (refine keeps_cut lx ?_ (fun _ => ?_); rotate_left; clear_value lx; revert lx; intro y hy; rotate_right; subst lx) | (clear_value lx; revert lx; intro y) | subst lx)
    | with_reducible apply tthCrc_keeps
    | with_reducible apply onlyIf_keeps
    | with_reducible apply later_keeps
    | with_reducible apply tthRelay_keeps
    | split
    | simp only [↓keeps_mk]

theorem heartbeatSend_keeps {down : Bool} {s0 s : State} (hk : Keeps s0 s) : Keeps s0 (heartbeatSend down s) := by
  unfold heartbeatSend
  repeat' first
    | with_reducible assumption
    | (extract_lets +onlyGivenNames lx; first | (refine keeps_cut lx ?_ (fun _ => ?_); rotate_left; clear_value lx; revert lx; intro y hy; rotate_right; subst lx) | (clear_value lx; revert lx; intro y) | subst lx)
    | with_reducible apply tthOwn_keeps
    | split
    | simp only [↓keeps_mk]

theorem heartbeatCheck_keeps  {s0 s : State} (hk : Keeps s0 s) : Keeps s0 (heartbeatCheck s) := by
  unfold heartbeatCheck
  repeat' first
    | with_reducible assumption
    | with_reducible apply heartbeatSend_keeps
    | split

theorem followManager_keeps {mgrMode target : Nat} {s0 s : State} (hk : Keeps s0 s) : Keeps s0 (followManager s mgrMode target) := by
  unfold followManager
  repeat' first
    | with_reducible assumption
    | (extract_lets +onlyGivenNames lx; first | (refine keeps_cut lx ?_ (fun _ => ?_); rotate_left; clear_value lx; revert lx; intro y hy; rotate_right; subst lx) | (clear_value lx; revert lx; intro y) | subst lx)
    | with_reducible apply wr_keeps
    | with_reducible apply enterHold_keeps
    | with_reducible apply enterDrain_keeps
    | with_reducible apply enterAcq_keeps
    | with_reducible apply later_keeps
    | with_reducible apply showTarget_keeps
    | with_reducible apply lockCheck_keeps
    | split
    | simp only [↓keeps_mk]

theorem chainChange_keeps {w : Nat} {present : Bool} {s0 s : State} (hk : Keeps s0 s) : Keeps s0 (chainChange s w present) := by
  unfold chainChange
  repeat' first
    | with_reducible assumption
    | (intro)
    | (extract_lets +onlyGivenNames lx; first | (refine keeps_cut lx ?_ (fun _ => ?_); rotate_left; clear_value lx; revert lx; intro y hy; rotate_right; subst lx) | (refine keeps_cutF lx ?_ (fun _ => ?_); rotate_left; clear_value lx; revert lx; intro y hF; rotate_right; subst lx) | (refine keeps_cutG lx ?_ (fun _ => ?_); rotate_left; clear_value lx; revert lx; intro y hG; rotate_right; subst lx) | (refine keeps_cutG' lx ?_ (fun _ => ?_); rotate_left; clear_value lx; revert lx; intro y hG'; rotate_right; subst lx) | (refine keeps_cutH lx ?_ (fun _ => ?_); rotate_left; clear_value lx; revert lx; intro y hH; rotate_right; subst lx) | (refine keeps_cutU lx ?_ (fun _ => ?_); rotate_left; clear_value lx; revert lx; intro y hU; rotate_right; subst lx) | (clear_value lx; revert lx; intro y) | subst lx)
    | with_reducible apply onlyIf_keeps
    | with_reducible apply wr_keeps
    | with_reducible apply raise_keeps
    | with_reducible apply record_keeps
    | with_reducible apply hF
    | with_reducible apply hG
    | with_reducible apply hG'
    | with_reducible apply hH
    | with_reducible apply hU
    | split

theorem judgeHandover_keeps {w : Nat} {miss : Bool} {id : Nat} {s0 s : State} (hk : Keeps s0 s) : Keeps s0 (judgeHandover s w miss id) := by
  unfold judgeHandover
  repeat' first
    | with_reducible assumption
    | (extract_lets +onlyGivenNames lx; first | (refine keeps_cut lx ?_ (fun _ => ?_); rotate_left; clear_value lx; revert lx; intro y hy; rotate_right; subst lx) | (clear_value lx; revert lx; intro y) | subst lx)
    | with_reducible apply wr_keeps
    | split
    | simp only [↓keeps_mk]

theorem heartbeatUp_keeps {x : Heartbeat} {s0 s : State} (hk : Keeps s0 s) : Keeps s0 (heartbeatUp s x) := by
  unfold heartbeatUp
  repeat' first
    | with_reducible assumption
    | (intro)
    | (extract_lets +onlyGivenNames lx; first | (refine keeps_cut lx ?_ (fun _ => ?_); rotate_left; clear_value lx; revert lx; intro y hy; rotate_right; subst lx) | (refine keeps_cutF lx ?_ (fun _ => ?_); rotate_left; clear_value lx; revert lx; intro y hF; rotate_right; subst lx) | (refine keeps_cutG lx ?_ (fun _ => ?_); rotate_left; clear_value lx; revert lx; intro y hG; rotate_right; subst lx) | (refine keeps_cutG' lx ?_ (fun _ => ?_); rotate_left; clear_value lx; revert lx; intro y hG'; rotate_right; subst lx) | (refine keeps_cutH lx ?_ (fun _ => ?_); rotate_left; clear_value lx; revert lx; intro y hH; rotate_right; subst lx) | (refine keeps_cutU lx ?_ (fun _ => ?_); rotate_left; clear_value lx; revert lx; intro y hU; rotate_right; subst lx) | (clear_value lx; revert lx; intro y) | subst lx)
    | with_reducible apply tthErr_keeps
    | with_reducible apply wr_keeps
    | with_reducible apply chainChange_keeps
    | with_reducible apply onlyIf_keeps
    | with_reducible apply judgeHandover_keeps
    | with_reducible apply enterHold_keeps
    | with_reducible apply hF
    | with_reducible apply hG
    | with_reducible apply hG'
    | with_reducible apply hH
    | with_reducible apply hU
    | split
    | simp only [↓keeps_mk]

theorem heartbeatReceive_keeps {x : TthIn} {s0 s : State} (hk : Keeps s0 s) : Keeps s0 (heartbeatReceive x s) := by
  unfold heartbeatReceive
  repeat' first
    | with_reducible assumption
    | (extract_lets +onlyGivenNames lx; first | (refine keeps_cut lx ?_ (fun _ => ?_); rotate_left; clear_value lx; revert lx; intro y hy; rotate_right; subst lx) | (clear_value lx; revert lx; intro y) | subst lx)
    | with_reducible apply tthCrc_keeps
    | with_reducible apply tthRelay_keeps
    | with_reducible apply followManager_keeps
    | with_reducible apply heartbeatUp_keeps
    | split
    | simp only [↓keeps_mk]

theorem heartbeatLoss_keeps {w : Option Nat} {s0 s : State} (hk : Keeps s0 s) : Keeps s0 (heartbeatLoss w s) := by
  unfold heartbeatLoss
  repeat' first
    | with_reducible assumption
    | (extract_lets +onlyGivenNames lx; first | (refine keeps_cut lx ?_ (fun _ => ?_); rotate_left; clear_value lx; revert lx; intro y hy; rotate_right; subst lx) | (clear_value lx; revert lx; intro y) | subst lx)
    | with_reducible apply raise_keeps
    | with_reducible apply wr_keeps
    | with_reducible apply enterHold_keeps
    | with_reducible apply later_keeps
    | with_reducible apply chainChange_keeps
    | split
    | simp only [↓keeps_mk]

theorem timeMessageSend_keeps {d : Nat} {s0 s : State} (hk : Keeps s0 s) : Keeps s0 (timeMessageSend d s) := by
  unfold timeMessageSend
  repeat' first
    | with_reducible assumption
    | with_reducible apply tthJoin_keeps
    | split

theorem timeMessageReceive_keeps {x : TthIn} {s0 s : State} (hk : Keeps s0 s) : Keeps s0 (timeMessageReceive x s) := by
  unfold timeMessageReceive
  repeat' first
    | with_reducible assumption
    | (intro)
    | (extract_lets +onlyGivenNames lx; first | (refine keeps_cut lx ?_ (fun _ => ?_); rotate_left; clear_value lx; revert lx; intro y hy; rotate_right; subst lx) | (refine keeps_cutF lx ?_ (fun _ => ?_); rotate_left; clear_value lx; revert lx; intro y hF; rotate_right; subst lx) | (refine keeps_cutG lx ?_ (fun _ => ?_); rotate_left; clear_value lx; revert lx; intro y hG; rotate_right; subst lx) | (refine keeps_cutG' lx ?_ (fun _ => ?_); rotate_left; clear_value lx; revert lx; intro y hG'; rotate_right; subst lx) | (refine keeps_cutH lx ?_ (fun _ => ?_); rotate_left; clear_value lx; revert lx; intro y hH; rotate_right; subst lx) | (refine keeps_cutU lx ?_ (fun _ => ?_); rotate_left; clear_value lx; revert lx; intro y hU; rotate_right; subst lx) | (clear_value lx; revert lx; intro y) | subst lx)
    | with_reducible apply tthCrc_keeps
    | with_reducible apply onlyIf_keeps
    | with_reducible apply tthRelay_keeps
    | with_reducible apply offsetCore_keeps
    | with_reducible apply hF
    | with_reducible apply hG
    | with_reducible apply hG'
    | with_reducible apply hH
    | with_reducible apply hU
    | split
    | simp only [↓keeps_mk]

theorem handoverMessageSend_keeps  {s0 s : State} (hk : Keeps s0 s) : Keeps s0 (handoverMessageSend s) := by
  unfold handoverMessageSend
  repeat' first
    | with_reducible assumption
    | (intro)
    | (extract_lets +onlyGivenNames lx; first | (refine keeps_cut lx ?_ (fun _ => ?_); rotate_left; clear_value lx; revert lx; intro y hy; rotate_right; subst lx) | (clear_value lx; revert lx; intro y) | subst lx)
    | with_reducible apply onlyIf_keeps
    | with_reducible apply tthOwn_keeps
    | split
    | simp only [↓keeps_mk]

theorem handoverFollow_keeps {x : HoMsg} {s0 s : State} (hk : Keeps s0 s) : Keeps s0 (handoverFollow s x) := by
  unfold handoverFollow
  repeat' first
    | with_reducible assumption
    | (intro)
    | (extract_lets +onlyGivenNames lx; first | ((first | refine keeps_cut lx ?_ (fun _ => ?_) | refine keeps_cut1 lx ?_ (fun _ => ?_) | refine keeps_cut2 lx ?_ (fun _ => ?_)); rotate_left; clear_value lx; revert lx; intro y hy; rotate_right; subst lx) | (refine keeps_cutF lx ?_ (fun _ => ?_); rotate_left; clear_value lx; revert lx; intro y hF; rotate_right; subst lx) | (refine keeps_cutG lx ?_ (fun _ => ?_); rotate_left; clear_value lx; revert lx; intro y hG; rotate_right; subst lx) | (refine keeps_cutG' lx ?_ (fun _ => ?_); rotate_left; clear_value lx; revert lx; intro y hG'; rotate_right; subst lx) | (refine keeps_cutH lx ?_ (fun _ => ?_); rotate_left; clear_value lx; revert lx; intro y hH; rotate_right; subst lx) | (refine keeps_cutU lx ?_ (fun _ => ?_); rotate_left; clear_value lx; revert lx; intro y hU; rotate_right; subst lx) | (clear_value lx; revert lx; intro y) | subst lx)
    | with_reducible apply disarm_keeps
    | with_reducible apply armOrLate_keeps
    | with_reducible apply hF
    | with_reducible apply hG
    | with_reducible apply hG'
    | with_reducible apply hH
    | with_reducible apply hU
    | split
    | simp only [↓keeps_mk]

theorem handoverMessageReceive_keeps {x : TthIn} {s0 s : State} (hk : Keeps s0 s) : Keeps s0 (handoverMessageReceive x s) := by
  unfold handoverMessageReceive
  repeat' first
    | with_reducible assumption
    | (intro)
    | (extract_lets +onlyGivenNames lx; first | (refine keeps_cut lx ?_ (fun _ => ?_); rotate_left; clear_value lx; revert lx; intro y hy; rotate_right; subst lx) | (refine keeps_cutF lx ?_ (fun _ => ?_); rotate_left; clear_value lx; revert lx; intro y hF; rotate_right; subst lx) | (refine keeps_cutG lx ?_ (fun _ => ?_); rotate_left; clear_value lx; revert lx; intro y hG; rotate_right; subst lx) | (refine keeps_cutG' lx ?_ (fun _ => ?_); rotate_left; clear_value lx; revert lx; intro y hG'; rotate_right; subst lx) | (refine keeps_cutH lx ?_ (fun _ => ?_); rotate_left; clear_value lx; revert lx; intro y hH; rotate_right; subst lx) | (refine keeps_cutU lx ?_ (fun _ => ?_); rotate_left; clear_value lx; revert lx; intro y hU; rotate_right; subst lx) | (clear_value lx; revert lx; intro y) | subst lx)
    | with_reducible apply tthCrc_keeps
    | with_reducible apply onlyIf_keeps
    | with_reducible apply tthRelay_keeps
    | with_reducible apply handoverFollow_keeps
    | with_reducible apply hF
    | with_reducible apply hG
    | with_reducible apply hG'
    | with_reducible apply hH
    | with_reducible apply hU
    | split
    | simp only [↓keeps_mk]

theorem calMessageReceive_keeps {x : TthIn} {s0 s : State} (hk : Keeps s0 s) : Keeps s0 (calMessageReceive x s) := by
  unfold calMessageReceive
  repeat' first
    | with_reducible assumption
    | (extract_lets +onlyGivenNames lx; first | (refine keeps_cut lx ?_ (fun _ => ?_); rotate_left; clear_value lx; revert lx; intro y hy; rotate_right; subst lx) | (clear_value lx; revert lx; intro y) | subst lx)
    | with_reducible apply tthCrc_keeps
    | with_reducible apply wr_keeps
    | split
    | simp only [↓keeps_mk]

theorem tetherCalibrated_keeps {ok : Bool} {l : Nat} {s0 s : State} (hk : Keeps s0 s) : Keeps s0 (tetherCalibrated s ok l) := by
  unfold tetherCalibrated
  repeat' first
    | with_reducible assumption
    | (extract_lets +onlyGivenNames lx; first | (refine keeps_cut lx ?_ (fun _ => ?_); rotate_left; clear_value lx; revert lx; intro y hy; rotate_right; subst lx) | (clear_value lx; revert lx; intro y) | subst lx)
    | with_reducible apply raise_keeps
    | with_reducible apply wr_keeps
    | with_reducible apply tthOwn_keeps
    | split

theorem tthOff_keeps  {s0 s : State} (hk : Keeps s0 s) : Keeps s0 (tthOff s) := by
  unfold tthOff
  repeat' first
    | with_reducible assumption
    | (extract_lets +onlyGivenNames lx; first | (refine keeps_cut lx ?_ (fun _ => ?_); rotate_left; clear_value lx; revert lx; intro y hy; rotate_right; subst lx) | (clear_value lx; revert lx; intro y) | subst lx)
    | with_reducible apply upLock_keeps
    | with_reducible apply raise_keeps
    | with_reducible apply wr_keeps
    | split
    | simp only [↓keeps_mk]

end Sys2Proof.Machine
end

