-- ==== Sys2Proof/Laws/KeepsManagement.lean ====
section
/-! SUPPORT. What every operation keeps (`Keeps`), one lemma per operation: the recorder, Lantern and the mailboxes. -/

set_option linter.all false

namespace Sys2Proof.Machine

theorem recShow_keeps  {s0 s : State} (hk : Keeps s0 s) : Keeps s0 (recShow s) := by
  unfold recShow
  repeat' first
    | with_reducible assumption
    | (intro)
    | with_reducible apply wr_keeps

theorem recFlag_keeps {f : FRef} {s0 s : State} (hk : Keeps s0 s) : Keeps s0 (recFlag s f) := by
  unfold recFlag
  repeat' first
    | with_reducible assumption
    | with_reducible apply raise_keeps
    | with_reducible apply wr_keeps
    | split

theorem cursorFix_keeps  {s0 s : State} (hk : Keeps s0 s) : Keeps s0 (cursorFix s) := by
  unfold cursorFix
  repeat' first
    | with_reducible assumption
    | (extract_lets +onlyGivenNames lx; first | ((first | refine keeps_cut lx ?_ (fun _ => ?_) | refine keeps_cut1 lx ?_ (fun _ => ?_)); rotate_left; clear_value lx; revert lx; intro y hy; rotate_right; subst lx) | (clear_value lx; revert lx; intro y) | subst lx)
    | with_reducible apply recFlag_keeps
    | with_reducible apply wr_keeps
    | split

theorem markFix_keeps {s0 s : State} (hk : Keeps s0 s) : Keeps s0 (markFix s) := by
  unfold markFix
  split
  · exact recFlag_keeps (keeps_of (wr_keeps hk) ⟨rfl, rfl, rfl, rfl, rfl, rfl, rfl, rfl, rfl⟩)
  · exact hk

theorem cursorAdvance_keeps  {a0 : Nat} {a2 : Nat} {a3 : Nat} {s0 s : State} (hk : Keeps s0 s) : Keeps s0 (cursorAdvance a0 s a2 a3) := by
  induction a0 generalizing s a2 a3 with
  | zero => exact hk
  | succ n ih =>
    unfold cursorAdvance
    repeat' first
      | with_reducible assumption
      | (extract_lets +onlyGivenNames lx; first | ((first | refine keeps_cut lx ?_ (fun _ => ?_) | refine keeps_cut2 lx ?_ (fun _ => ?_)); rotate_left; clear_value lx; revert lx; intro y hy; rotate_right; subst lx) | (clear_value lx; revert lx; intro y) | subst lx)
      | with_reducible apply ih
      | with_reducible apply wr_keeps
      | split

theorem recWindowRead_keeps {off len : Nat} {s0 s : State} (hk : Keeps s0 s) : Keeps s0 (recWindowRead off len s) := by
  unfold recWindowRead
  repeat' first
    | with_reducible assumption
    | (extract_lets +onlyGivenNames lx; first | (refine keeps_cut lx ?_ (fun _ => ?_); rotate_left; clear_value lx; revert lx; intro y hy; rotate_right; subst lx) | (clear_value lx; revert lx; intro y) | subst lx)
    | with_reducible apply cursorAdvance_keeps
    | with_reducible apply send_keeps

theorem recCfgWrite_keeps {v : Nat} {s0 s : State} (hk : Keeps s0 s) : Keeps s0 (recCfgWrite v s) := by
  unfold recCfgWrite
  repeat' first
    | with_reducible assumption
    | (extract_lets +onlyGivenNames lx; first | ((first | refine keeps_cut lx ?_ (fun _ => ?_) | refine keeps_cut1 lx ?_ (fun _ => ?_)); rotate_left; clear_value lx; revert lx; intro y hy; rotate_right; subst lx) | (clear_value lx; revert lx; intro y) | subst lx)
    | with_reducible apply wr_keeps
    | split

theorem recCursorWrite_keeps {v : Nat} {s0 s : State} (hk : Keeps s0 s) : Keeps s0 (recCursorWrite v s) := by
  unfold recCursorWrite
  repeat' first
    | with_reducible assumption
    | (extract_lets +onlyGivenNames lx; first | ((first | refine keeps_cut lx ?_ (fun _ => ?_) | refine keeps_cut1 lx ?_ (fun _ => ?_) | refine keeps_cut2 lx ?_ (fun _ => ?_)); rotate_left; clear_value lx; revert lx; intro y hy; rotate_right; subst lx) | (clear_value lx; revert lx; intro y) | subst lx)
    | with_reducible apply wr_keeps
    | split

theorem recMarkWrite_keeps {v : Nat} {s0 s : State} (hk : Keeps s0 s) : Keeps s0 (recMarkWrite v s) :=
  markFix_keeps (keeps_of (wr_keeps (wr_keeps hk)) ⟨rfl, rfl, rfl, rfl, rfl, rfl, rfl, rfl, rfl⟩)

theorem recRewind_keeps  {s0 s : State} (hk : Keeps s0 s) : Keeps s0 (recRewind s) := by
  unfold recRewind
  repeat' first
    | with_reducible assumption
    | (extract_lets +onlyGivenNames lx; first | (refine keeps_cut lx ?_ (fun _ => ?_); rotate_left; clear_value lx; revert lx; intro y hy; rotate_right; subst lx) | (refine keeps_rec lx ?_; subst lx) | (clear_value lx; revert lx; intro y) | subst lx)
    | with_reducible apply wr_keeps
    | split

theorem circNext_keeps {r : Option Rec} {s0 s : State} (hk : Keeps s0 s) : Keeps s0 (circNext s r) := by
  unfold circNext
  repeat' first
    | with_reducible assumption
    | (extract_lets +onlyGivenNames lx; first | (refine keeps_cut lx ?_ (fun _ => ?_); rotate_left; clear_value lx; revert lx; intro y hy; rotate_right; subst lx) | (refine keeps_rec lx ?_; subst lx) | (clear_value lx; revert lx; intro y) | subst lx)
    | with_reducible apply wr_keeps
    | with_reducible apply markFix_keeps
    | with_reducible apply cursorFix_keeps
    | split
    | simp only [↓keeps_mk]

theorem mramSkip_keeps {fails : Nat} {s0 s : State} (hk : Keeps s0 s) : Keeps s0 (mramSkip s fails) := by
  unfold mramSkip
  repeat' first
    | with_reducible assumption
    | (intro)
    | with_reducible apply onlyIf_keeps
    | with_reducible apply recFlag_keeps
    | with_reducible apply each_keeps
    | with_reducible apply circNext_keeps

theorem firstStore_keeps {r : Rec} {s0 s : State} (hk : Keeps s0 s) : Keeps s0 (firstStore s r) := by
  unfold firstStore
  split
  · rename_i e
    exact wr_keeps (wr_keeps { hk with
      firstMore := hk.firstMore.trans (List.prefix_append _ _)
      full := fun _ => Nat.le_trans (Nat.le_of_eq List.length_append) e })
  · exact hk

theorem mramAppend_keeps {r : Rec} {fails : Nat} {s0 s : State} (hk : Keeps s0 s) : Keeps s0 (mramAppend s r fails) := by
  unfold mramAppend
  repeat' first
    | with_reducible assumption
    | with_reducible apply firstStore_keeps
    | with_reducible apply addWrap_keeps
    | with_reducible apply circNext_keeps
    | with_reducible apply mramSkip_keeps

theorem lanternDirect_keeps {code : Nat} {payload : List Byte} {s0 s : State} (hk : Keeps s0 s) : Keeps s0 (lanternDirect s code payload) := by
  unfold lanternDirect
  repeat' first
    | with_reducible assumption
    | (extract_lets +onlyGivenNames lx; first | ((first | refine keeps_cut lx ?_ (fun _ => ?_) | refine keeps_cut1 lx ?_ (fun _ => ?_) | refine keeps_cut2 lx ?_ (fun _ => ?_)); rotate_left; clear_value lx; revert lx; intro y hy; rotate_right; subst lx) | (clear_value lx; revert lx; intro y) | subst lx)
    | with_reducible apply lanternRec_keeps
    | with_reducible apply mramAppend_keeps

theorem flushStart_keeps  {s0 s : State} (hk : Keeps s0 s) : Keeps s0 (flushStart s) := by
  unfold flushStart
  repeat' first
    | with_reducible assumption
    | (intro)
    | (extract_lets +onlyGivenNames lx; first | (refine keeps_cut lx ?_ (fun _ => ?_); rotate_left; clear_value lx; revert lx; intro y hy; rotate_right; subst lx) | (refine keeps_cutF lx ?_ (fun _ => ?_); rotate_left; clear_value lx; revert lx; intro y hF; rotate_right; subst lx) | (refine keeps_cutG lx ?_ (fun _ => ?_); rotate_left; clear_value lx; revert lx; intro y hG; rotate_right; subst lx) | (refine keeps_cutG' lx ?_ (fun _ => ?_); rotate_left; clear_value lx; revert lx; intro y hG'; rotate_right; subst lx) | (refine keeps_cutH lx ?_ (fun _ => ?_); rotate_left; clear_value lx; revert lx; intro y hH; rotate_right; subst lx) | (refine keeps_cutU lx ?_ (fun _ => ?_); rotate_left; clear_value lx; revert lx; intro y hU; rotate_right; subst lx) | (refine keeps_rec lx ?_; subst lx) | (clear_value lx; revert lx; intro y) | subst lx)
    | with_reducible apply wr_keeps
    | with_reducible apply hF
    | with_reducible apply hG
    | with_reducible apply hG'
    | with_reducible apply hH
    | with_reducible apply hU
    | simp only [↓keeps_mk]

theorem flushTrigger_keeps  {s0 s : State} (hk : Keeps s0 s) : Keeps s0 (flushTrigger s) := by
  unfold flushTrigger
  repeat' first
    | with_reducible assumption
    | with_reducible apply wr_keeps
    | with_reducible apply flushStart_keeps
    | split

theorem copyRewrite_keeps {r : Rec} {c fails : Nat} {s0 s : State} (hk : Keeps s0 s) : Keeps s0 (copyRewrite s r c fails).1 := by
  unfold copyRewrite
  repeat' first
    | with_reducible assumption
    | (extract_lets +onlyGivenNames lx; first | (refine keeps_cut lx ?_ (fun _ => ?_); rotate_left; clear_value lx; revert lx; intro y hy; rotate_right; subst lx) | (refine keeps_rec lx ?_; subst lx) | (clear_value lx; revert lx; intro y) | subst lx)
    | with_reducible apply recFlag_keeps
    | with_reducible apply mramAppend_keeps
    | split
    | simp only [↓keeps_mk]

theorem flushOne_keeps {seq fails : Nat} {s0 s : State} (hk : Keeps s0 s) : Keeps s0 (flushOne s seq fails) := by
  unfold flushOne
  repeat' first
    | with_reducible assumption
    | (intro)
    | (extract_lets +onlyGivenNames lx; first | ((first | refine keeps_cut lx ?_ (fun _ => ?_) | refine keeps_cut1 lx ?_ (fun _ => ?_) | refine keeps_cut2 lx ?_ (fun _ => ?_)); rotate_left; clear_value lx; revert lx; intro y hy; rotate_right; subst lx) | (refine keeps_rec lx ?_; subst lx) | (clear_value lx; revert lx; intro y) | subst lx)
    | with_reducible apply mramAppend_keeps
    | with_reducible apply copyRewrite_keeps
    | split
    | simp only [↓keeps_mk]

theorem ringDiscard_keeps {seq : Nat} {s0 s : State} (hk : Keeps s0 s) : Keeps s0 (ringDiscard s seq) := by
  unfold ringDiscard
  repeat' first
    | with_reducible assumption
    | (intro)
    | (extract_lets +onlyGivenNames lx; first | (refine keeps_cut lx ?_ (fun _ => ?_); rotate_left; clear_value lx; revert lx; intro y hy; rotate_right; subst lx) | (refine keeps_cutF lx ?_ (fun _ => ?_); rotate_left; clear_value lx; revert lx; intro y hF; rotate_right; subst lx) | (refine keeps_cutG lx ?_ (fun _ => ?_); rotate_left; clear_value lx; revert lx; intro y hG; rotate_right; subst lx) | (refine keeps_cutG' lx ?_ (fun _ => ?_); rotate_left; clear_value lx; revert lx; intro y hG'; rotate_right; subst lx) | (refine keeps_cutH lx ?_ (fun _ => ?_); rotate_left; clear_value lx; revert lx; intro y hH; rotate_right; subst lx) | (refine keeps_cutU lx ?_ (fun _ => ?_); rotate_left; clear_value lx; revert lx; intro y hU; rotate_right; subst lx) | (refine keeps_rec lx ?_; subst lx) | (clear_value lx; revert lx; intro y) | subst lx)
    | with_reducible apply dropRec_keeps
    | with_reducible apply cursorFix_keeps
    | with_reducible apply hF
    | with_reducible apply hG
    | with_reducible apply hG'
    | with_reducible apply hH
    | with_reducible apply hU
    | split
    | simp only [↓keeps_mk]

theorem flushNext_keeps {f : Flush} {q : Nat} {rest : List Nat} {fails : Nat} {x : MemEcc} {s0 s : State} (hk : Keeps s0 s) : Keeps s0 (flushNext s f q rest fails x) := by
  unfold flushNext
  repeat' first
    | with_reducible assumption
    | (intro)
    | (extract_lets +onlyGivenNames lx; first | (refine keeps_cut lx ?_ (fun _ => ?_); rotate_left; clear_value lx; revert lx; intro y hy; rotate_right; subst lx) | (refine keeps_cutF lx ?_ (fun _ => ?_); rotate_left; clear_value lx; revert lx; intro y hF; rotate_right; subst lx) | (refine keeps_cutG lx ?_ (fun _ => ?_); rotate_left; clear_value lx; revert lx; intro y hG; rotate_right; subst lx) | (refine keeps_cutG' lx ?_ (fun _ => ?_); rotate_left; clear_value lx; revert lx; intro y hG'; rotate_right; subst lx) | (refine keeps_cutH lx ?_ (fun _ => ?_); rotate_left; clear_value lx; revert lx; intro y hH; rotate_right; subst lx) | (refine keeps_cutU lx ?_ (fun _ => ?_); rotate_left; clear_value lx; revert lx; intro y hU; rotate_right; subst lx) | (refine keeps_rec lx ?_; subst lx) | (clear_value lx; revert lx; intro y) | subst lx)
    | with_reducible apply flushOne_keeps
    | with_reducible apply eccCorrected_keeps
    | with_reducible apply uncorrectable_keeps
    | with_reducible apply eccUncorrectable_keeps
    | with_reducible apply ringDiscard_keeps
    | with_reducible apply hF
    | with_reducible apply hG
    | with_reducible apply hG'
    | with_reducible apply hH
    | with_reducible apply hU
    | split
    | simp only [↓keeps_mk]

theorem mramRecordWrite_keeps {fails : Nat} {x : MemEcc} {s0 s : State} (hk : Keeps s0 s) : Keeps s0 (mramRecordWrite fails x s) := by
  unfold mramRecordWrite
  repeat' first
    | with_reducible assumption
    | with_reducible apply mramAppend_keeps
    | with_reducible apply recShow_keeps
    | with_reducible apply flushNext_keeps
    | split
    | simp only [↓keeps_mk]

theorem ringFree_keeps  {s0 s : State} (hk : Keeps s0 s) : Keeps s0 (ringFree s) := by
  unfold ringFree
  repeat' first
    | with_reducible assumption
    | (intro)
    | with_reducible apply onlyIf_keeps
    | with_reducible apply addSat_keeps
    | split
    | simp only [↓keeps_mk]

theorem ringAdd_keeps {x : RingRec} {s0 s : State} (hk : Keeps s0 s) : Keeps s0 (ringAdd s x) := by
  unfold ringAdd
  repeat' first
    | with_reducible assumption
    | (extract_lets +onlyGivenNames lx; first | (refine keeps_cut lx ?_ (fun _ => ?_); rotate_left; clear_value lx; revert lx; intro y hy; rotate_right; subst lx) | (refine keeps_rec lx ?_; subst lx) | (clear_value lx; revert lx; intro y) | subst lx)
    | with_reducible apply ringFree_keeps
    | with_reducible apply cursorFix_keeps
    | split
    | simp only [↓keeps_mk]

theorem ringPush_keeps {r : Rec} {s0 s : State} (hk : Keeps s0 s) : Keeps s0 (ringPush s r) := by
  unfold ringPush
  repeat' first
    | with_reducible assumption
    | (extract_lets +onlyGivenNames lx; first | ((first | refine keeps_cut lx ?_ (fun _ => ?_) | refine keeps_cut1 lx ?_ (fun _ => ?_) | refine keeps_cut2 lx ?_ (fun _ => ?_)); rotate_left; clear_value lx; revert lx; intro y hy; rotate_right; subst lx) | (clear_value lx; revert lx; intro y) | subst lx)
    | with_reducible apply takeSeq_keeps
    | with_reducible apply ringAdd_keeps
    | simp only [↓keeps_mk]

theorem ringPushAll_keeps {n : Nat} {r : Rec} {s0 s t : State} (hk : Keeps s0 s) (h : ringPushAll n s r = some t) : Keeps s0 t := by
  induction n generalizing s r with
  | zero => exact absurd h (by unfold ringPushAll; simp)
  | succ n ih =>
    unfold ringPushAll at h
    split at h
    · exact absurd h (by simp)
    · split at h
      · exact Option.some.inj h ▸ ringPush_keeps hk
      · exact ih (ringPush_keeps hk) h

theorem ringAccept_keeps {w : WaitRec} {s0 s : State} (hk : Keeps s0 s) : Keeps s0 (ringAccept s w).1 := by
  unfold ringAccept
  extract_lets s1 fresh s2 grow pushed t
  have hg : ∀ l, Keeps s0 (grow l) := fun l => keeps_of hk ⟨rfl, rfl, rfl, rfl, rfl, rfl, rfl, rfl, rfl⟩
  have ht : ∀ v, t = some v → Keeps s0 v := by
    intro v hv
    dsimp only [t] at hv
    split at hv
    · exact Option.some.inj hv ▸ hg _
    · exact ringPushAll_keeps (hg _) hv
    · exact ringPushAll_keeps hk hv
  clear_value t
  split
  · rename_i v
    exact recShow_keeps (onlyIf_keeps (fun _ h => flushTrigger_keeps h) (eventCopy_keeps (ht v rfl)))
  · exact hk

theorem recordAccept_keeps {s0 s : State} (hk : Keeps s0 s) : Keeps s0 (recordAccept s) := by
  unfold recordAccept
  extract_lets lost rc
  split
  · extract_lets r q
    have hq : Keeps s0 q.1 := ringAccept_keeps (keeps_of hk ⟨rfl, rfl, rfl, rfl, rfl, rfl, rfl, rfl, rfl⟩)
    split
    · exact recFlag_keeps hq
    · exact hk
  · split
    · extract_lets t w' q
      have ht : Keeps s0 t := keeps_of hk ⟨rfl, rfl, rfl, rfl, rfl, rfl, rfl, rfl, rfl⟩
      split
      · exact ringAccept_keeps ht
      · split
        · exact recShow_keeps (toLatch_keeps ht)
        · exact hk
    · extract_lets q
      have hq : Keeps s0 q.1 := ringAccept_keeps hk
      split
      · exact recShow_keeps (keeps_of hq ⟨rfl, rfl, rfl, rfl, rfl, rfl, rfl, rfl, rfl⟩)
      · exact hk
    · exact hk

theorem acceptAll_keeps  {a0 : Nat} {s0 s : State} (hk : Keeps s0 s) : Keeps s0 (acceptAll a0 s) := by
  induction a0 generalizing s with
  | zero => exact hk
  | succ n ih =>
    unfold acceptAll
    repeat' first
      | with_reducible assumption
      | with_reducible apply ih
      | with_reducible apply recordAccept_keeps
      | split

theorem flushComplete_keeps  {s0 s : State} (hk : Keeps s0 s) : Keeps s0 (flushComplete s) := by
  unfold flushComplete
  repeat' first
    | with_reducible assumption
    | (intro)
    | (extract_lets +onlyGivenNames lx; first | (refine keeps_cut lx ?_ (fun _ => ?_); rotate_left; clear_value lx; revert lx; intro y hy; rotate_right; subst lx) | (refine keeps_rec lx ?_; subst lx) | (clear_value lx; revert lx; intro y) | subst lx)
    | with_reducible apply wr_keeps
    | with_reducible apply addWrap_keeps
    | with_reducible apply later_keeps
    | with_reducible apply raise_keeps
    | with_reducible apply recFlushed_keeps
    | with_reducible apply disableUnit_keeps
    | with_reducible apply flushStart_keeps
    | with_reducible apply onlyIf_keeps
    | with_reducible apply acceptAll_keeps
    | with_reducible apply enterReset_keeps
    | split
    | simp only [↓keeps_mk]

theorem resetFlush_keeps  {s0 s : State} (hk : Keeps s0 s) : Keeps s0 (resetFlush s) := by
  unfold resetFlush
  repeat' first
    | with_reducible assumption
    | (extract_lets +onlyGivenNames lx; first | (refine keeps_cut lx ?_ (fun _ => ?_); rotate_left; clear_value lx; revert lx; intro y hy; rotate_right; subst lx) | (clear_value lx; revert lx; intro y) | subst lx)
    | with_reducible apply acceptAll_keeps
    | with_reducible apply flushTrigger_keeps
    | simp only [↓keeps_mk]

theorem ringCleared_keeps {x : RingRec} {s0 s : State} (hk : Keeps s0 s) : Keeps s0 (ringCleared s x) :=
  ringAdd_keeps hk

theorem recClear_keeps {key : Nat} {s0 s : State} (hk : Keeps s0 s) : Keeps s0 (recClear s key) := by
  unfold recClear
  extract_lets n rc a b c r1 q r2 d
  have hb : Keeps s0 b := wr_keeps (wr_keeps (keeps_of hk ⟨rfl, rfl, rfl, rfl, rfl, rfl, rfl, rfl, rfl⟩))
  have hc : Keeps s0 c := by
    show Keeps s0 (if recArea b = 1 then cursorFix b else b)
    split
    · exact cursorFix_keeps hb
    · exact hb
  exact recShow_keeps (eventCopy_keeps (ringCleared_keeps (mramAppend_keeps (takeSeq_keeps hc))))

theorem frontEdge_keeps {p : Nat} {a b : Bool} {s0 s : State} (hk : Keeps s0 s) : Keeps s0 (frontEdge p a b s) := by
  unfold frontEdge
  repeat' first
    | with_reducible assumption
    | (extract_lets +onlyGivenNames lx; first | (refine keeps_cut lx ?_ (fun _ => ?_); rotate_left; clear_value lx; revert lx; intro y hy; rotate_right; subst lx) | (clear_value lx; revert lx; intro y) | subst lx)
    | with_reducible apply wrB_keeps
    | with_reducible apply frontNote_keeps
    | split
    | simp only [↓keeps_mk]

theorem lanternEdge_keeps {p : Nat} {a b : Bool} {s0 s : State} (hk : Keeps s0 s) : Keeps s0 (lanternEdge p a b s) := by
  unfold lanternEdge
  repeat' first
    | with_reducible assumption
    | (intro)
    | (extract_lets +onlyGivenNames lx; first | (refine keeps_cut lx ?_ (fun _ => ?_); rotate_left; clear_value lx; revert lx; intro y hy; rotate_right; subst lx) | (refine keeps_cutF lx ?_ (fun _ => ?_); rotate_left; clear_value lx; revert lx; intro y hF; rotate_right; subst lx) | (refine keeps_cutG lx ?_ (fun _ => ?_); rotate_left; clear_value lx; revert lx; intro y hG; rotate_right; subst lx) | (refine keeps_cutG' lx ?_ (fun _ => ?_); rotate_left; clear_value lx; revert lx; intro y hG'; rotate_right; subst lx) | (refine keeps_cutH lx ?_ (fun _ => ?_); rotate_left; clear_value lx; revert lx; intro y hH; rotate_right; subst lx) | (refine keeps_cutU lx ?_ (fun _ => ?_); rotate_left; clear_value lx; revert lx; intro y hU; rotate_right; subst lx) | (clear_value lx; revert lx; intro y) | subst lx)
    | with_reducible apply wr_keeps
    | with_reducible apply lanFlag_keeps
    | with_reducible apply windowInc_keeps
    | with_reducible apply addSat_keeps
    | with_reducible apply onlyIf_keeps
    | with_reducible apply frontNote_keeps
    | with_reducible apply shadowTo_keeps
    | with_reducible apply hF
    | with_reducible apply hG
    | with_reducible apply hG'
    | with_reducible apply hH
    | with_reducible apply hU
    | split
    | simp only [↓keeps_mk]

theorem lanternBreakEnter_keeps {p pair : Nat} {s0 s : State} (hk : Keeps s0 s) : Keeps s0 (lanternBreakEnter p pair s) := by
  unfold lanternBreakEnter
  repeat' first
    | with_reducible assumption
    | (extract_lets +onlyGivenNames lx; first | (refine keeps_cut lx ?_ (fun _ => ?_); rotate_left; clear_value lx; revert lx; intro y hy; rotate_right; subst lx) | (clear_value lx; revert lx; intro y) | subst lx)
    | with_reducible apply wr_keeps
    | split
    | simp only [↓keeps_mk]

theorem lanternBreakClear_keeps {p pair : Nat} {s0 s : State} (hk : Keeps s0 s) : Keeps s0 (lanternBreakClear p pair s) := by
  unfold lanternBreakClear
  repeat' first
    | with_reducible assumption
    | (extract_lets +onlyGivenNames lx; first | (refine keeps_cut lx ?_ (fun _ => ?_); rotate_left; clear_value lx; revert lx; intro y hy; rotate_right; subst lx) | (clear_value lx; revert lx; intro y) | subst lx)
    | with_reducible apply wrB_keeps
    | split
    | simp only [↓keeps_mk]

theorem setRule_keeps {i : Nat} {x : RuleS} {s0 s : State} (hk : Keeps s0 s) : Keeps s0 (setRule s i x) := by
  unfold setRule
  repeat' first
    | with_reducible assumption
    | simp only [↓keeps_mk]

theorem ruleFire_keeps {i : Nat} {s0 s : State} (hk : Keeps s0 s) : Keeps s0 (ruleFire s i) := by
  unfold ruleFire
  repeat' first
    | with_reducible assumption
    | (intro)
    | (extract_lets +onlyGivenNames lx; first | (refine keeps_cut lx ?_ (fun _ => ?_); rotate_left; clear_value lx; revert lx; intro y hy; rotate_right; subst lx) | (refine keeps_cutF lx ?_ (fun _ => ?_); rotate_left; clear_value lx; revert lx; intro y hF; rotate_right; subst lx) | (refine keeps_cutG lx ?_ (fun _ => ?_); rotate_left; clear_value lx; revert lx; intro y hG; rotate_right; subst lx) | (refine keeps_cutG' lx ?_ (fun _ => ?_); rotate_left; clear_value lx; revert lx; intro y hG'; rotate_right; subst lx) | (refine keeps_cutH lx ?_ (fun _ => ?_); rotate_left; clear_value lx; revert lx; intro y hH; rotate_right; subst lx) | (refine keeps_cutU lx ?_ (fun _ => ?_); rotate_left; clear_value lx; revert lx; intro y hU; rotate_right; subst lx) | (clear_value lx; revert lx; intro y) | subst lx)
    | with_reducible apply addSat_keeps
    | with_reducible apply wr_keeps
    | with_reducible apply onlyIf_keeps
    | with_reducible apply offerRec_keeps
    | with_reducible apply raise_keeps
    | with_reducible apply later_keeps
    | with_reducible apply hF
    | with_reducible apply hG
    | with_reducible apply hG'
    | with_reducible apply hH
    | with_reducible apply hU
    | split
    | simp only [↓keeps_mk]

theorem ruleTick_keeps {i : Nat} {s0 s : State} (hk : Keeps s0 s) : Keeps s0 (ruleTick s i) := by
  unfold ruleTick
  repeat' first
    | with_reducible assumption
    | (extract_lets +onlyGivenNames lx; first | (refine keeps_cut lx ?_ (fun _ => ?_); rotate_left; clear_value lx; revert lx; intro y hy; rotate_right; subst lx) | (clear_value lx; revert lx; intro y) | subst lx)
    | with_reducible apply setRule_keeps
    | with_reducible apply ruleFire_keeps
    | with_reducible apply wr_keeps
    | split

theorem shadowSpeed_keeps {p : Nat} {s0 s : State} (hk : Keeps s0 s) : Keeps s0 (shadowSpeed s p) := by
  unfold shadowSpeed
  repeat' first
    | with_reducible assumption
    | (extract_lets +onlyGivenNames lx; first | (refine keeps_cut lx ?_ (fun _ => ?_); rotate_left; clear_value lx; revert lx; intro y hy; rotate_right; subst lx) | (clear_value lx; revert lx; intro y) | subst lx)
    | with_reducible apply wrI_keeps
    | simp only [↓keeps_mk]

theorem lanternTick_keeps {homes : Nat} {s0 s : State} (hk : Keeps s0 s) : Keeps s0 (lanternTick homes s) := by
  unfold lanternTick
  repeat' first
    | with_reducible assumption
    | (intro)
    | (extract_lets +onlyGivenNames lx; first | (refine keeps_cut lx ?_ (fun _ => ?_); rotate_left; clear_value lx; revert lx; intro y hy; rotate_right; subst lx) | (clear_value lx; revert lx; intro y) | subst lx)
    | with_reducible apply each_keeps
    | with_reducible apply shadowSpeed_keeps
    | with_reducible apply ruleTick_keeps
    | simp only [↓keeps_mk]

theorem ruleEnableWrite_keeps {i : Nat} {en : Bool} {s0 s : State} (hk : Keeps s0 s) : Keeps s0 (ruleEnableWrite i en s) := by
  unfold ruleEnableWrite
  repeat' first
    | with_reducible assumption
    | (extract_lets +onlyGivenNames lx; first | (refine keeps_cut lx ?_ (fun _ => ?_); rotate_left; clear_value lx; revert lx; intro y hy; rotate_right; subst lx) | (clear_value lx; revert lx; intro y) | subst lx)
    | with_reducible apply wrB_keeps
    | with_reducible apply wr_keeps
    | with_reducible apply setRule_keeps
    | split

theorem ruleRegWrite_keeps {i a v : Nat} {s0 s : State} (hk : Keeps s0 s) : Keeps s0 (ruleRegWrite i a v s) := by
  unfold ruleRegWrite
  repeat' first
    | with_reducible assumption
    | with_reducible apply setReg_keeps
    | with_reducible apply wr_keeps
    | split

theorem ruleCfgWrite_keeps {i v : Nat} {s0 s : State} (hk : Keeps s0 s) : Keeps s0 (ruleCfgWrite i v s) := by
  unfold ruleCfgWrite
  repeat' first
    | with_reducible assumption
    | (extract_lets +onlyGivenNames lx; first | (refine keeps_cut lx ?_ (fun _ => ?_); rotate_left; clear_value lx; revert lx; intro y hy; rotate_right; subst lx) | (clear_value lx; revert lx; intro y) | subst lx)
    | with_reducible apply wr_keeps
    | with_reducible apply ruleEnableWrite_keeps
    | split

theorem lanOvrClear_keeps {mask : Nat} {s0 s : State} (hk : Keeps s0 s) : Keeps s0 (lanOvrClear mask s) := by
  unfold lanOvrClear
  repeat' first
    | with_reducible assumption
    | with_reducible apply wr_keeps

theorem xtalFail_keeps  {s0 s : State} (hk : Keeps s0 s) : Keeps s0 (xtalFail s) := by
  unfold xtalFail
  repeat' first
    | with_reducible assumption
    | (extract_lets +onlyGivenNames lx; first | (refine keeps_cut lx ?_ (fun _ => ?_); rotate_left; clear_value lx; revert lx; intro y hy; rotate_right; subst lx) | (clear_value lx; revert lx; intro y) | subst lx)
    | with_reducible apply wr_keeps
    | with_reducible apply raise_keeps
    | split

theorem xtalGood_keeps  {s0 s : State} (hk : Keeps s0 s) : Keeps s0 (xtalGood s) := by
  unfold xtalGood
  repeat' first
    | with_reducible assumption
    | with_reducible apply wr_keeps
    | split
    | simp only [↓keeps_mk]

theorem rcTrim_keeps  {s0 s : State} (hk : Keeps s0 s) : Keeps s0 (rcTrim s) := by
  unfold rcTrim
  repeat' first
    | with_reducible assumption
    | split
    | simp only [↓keeps_mk]

theorem ducCheckpoint_keeps  {s0 s : State} (hk : Keeps s0 s) : Keeps s0 (ducCheckpoint s) := by
  unfold ducCheckpoint
  repeat' first
    | with_reducible assumption
    | (extract_lets +onlyGivenNames lx; first | (refine keeps_cut lx ?_ (fun _ => ?_); rotate_left; clear_value lx; revert lx; intro y hy; rotate_right; subst lx) | (clear_value lx; revert lx; intro y) | subst lx)
    | split
    | simp only [↓keeps_mk]

theorem setParam_keeps {id v : Nat} {s0 s : State} (hk : Keeps s0 s) : Keeps s0 (setParam s id v) := by
  unfold setParam
  repeat' first
    | with_reducible assumption
    | simp only [↓keeps_mk]

theorem applyParam_keeps {e : ValEntry} {s0 s : State} (hk : Keeps s0 s) : Keeps s0 (applyParam s e) := by
  unfold applyParam
  repeat' first
    | with_reducible assumption
    | (extract_lets +onlyGivenNames lx; first | (refine keeps_cut lx ?_ (fun _ => ?_); rotate_left; clear_value lx; revert lx; intro y hy; rotate_right; subst lx) | (clear_value lx; revert lx; intro y) | subst lx)
    | with_reducible apply storeWrite_keeps
    | with_reducible apply setParam_keeps
    | with_reducible apply gylParam_keeps
    | split

theorem setResp_keeps {m : Nat} {l : List Byte} {s0 s : State} (hk : Keeps s0 s) : Keeps s0 (setResp s m l) := by
  unfold setResp
  repeat' first
    | with_reducible assumption
    | simp only [↓keeps_mk]

theorem cmdWrite_keeps {m a : Nat} {w : Word} {s0 s : State} (hk : Keeps s0 s) : Keeps s0 (cmdWrite s m a w) := by
  unfold cmdWrite
  repeat' first
    | with_reducible assumption
    | with_reducible apply wr_keeps
    | with_reducible apply ramSet_keeps
    | split

theorem mgmtSend_keeps {down : Bool} {dest : Nat} {toMgr : Bool} {seq : Nat} {l : List Byte} {s0 s : State} (hk : Keeps s0 s) : Keeps s0 (mgmtSend s down dest toMgr seq l) := by
  unfold mgmtSend
  repeat' first
    | with_reducible assumption
    | (intro)
    | (extract_lets +onlyGivenNames lx; first | ((first | refine keeps_cut lx ?_ (fun _ => ?_) | refine keeps_cut1 lx ?_ (fun _ => ?_) | refine keeps_cut2 lx ?_ (fun _ => ?_)); rotate_left; clear_value lx; revert lx; intro y hy; rotate_right; subst lx) | (clear_value lx; revert lx; intro y) | subst lx)
    | with_reducible apply onlyIf_keeps
    | with_reducible apply each_keeps
    | with_reducible apply tthOwn_keeps

theorem mbxCount_keeps {m seq status : Nat} {s0 s : State} (hk : Keeps s0 s) : Keeps s0 (mbxCount s m seq status) := by
  unfold mbxCount
  repeat' first
    | with_reducible assumption
    | (intro)
    | (extract_lets +onlyGivenNames lx; first | (refine keeps_cut lx ?_ (fun _ => ?_); rotate_left; clear_value lx; revert lx; intro y hy; rotate_right; subst lx) | (refine keeps_cutF lx ?_ (fun _ => ?_); rotate_left; clear_value lx; revert lx; intro y hF; rotate_right; subst lx) | (refine keeps_cutG lx ?_ (fun _ => ?_); rotate_left; clear_value lx; revert lx; intro y hG; rotate_right; subst lx) | (refine keeps_cutG' lx ?_ (fun _ => ?_); rotate_left; clear_value lx; revert lx; intro y hG'; rotate_right; subst lx) | (refine keeps_cutH lx ?_ (fun _ => ?_); rotate_left; clear_value lx; revert lx; intro y hH; rotate_right; subst lx) | (refine keeps_cutU lx ?_ (fun _ => ?_); rotate_left; clear_value lx; revert lx; intro y hU; rotate_right; subst lx) | (clear_value lx; revert lx; intro y) | subst lx)
    | with_reducible apply addWrap_keeps
    | with_reducible apply onlyIf_keeps
    | with_reducible apply addSat_keeps
    | with_reducible apply wr_keeps
    | with_reducible apply hF
    | with_reducible apply hG
    | with_reducible apply hG'
    | with_reducible apply hH
    | with_reducible apply hU
    | split
    | simp only [↓keeps_mk]

theorem mbxDone_keeps {m seq : Nat} {l : List Byte} {s0 s : State} (hk : Keeps s0 s) : Keeps s0 (mbxDone s m seq l) := by
  unfold mbxDone
  repeat' first
    | with_reducible assumption
    | (intro)
    | (extract_lets +onlyGivenNames lx; first | (refine keeps_cut lx ?_ (fun _ => ?_); rotate_left; clear_value lx; revert lx; intro y hy; rotate_right; subst lx) | (refine keeps_cutF lx ?_ (fun _ => ?_); rotate_left; clear_value lx; revert lx; intro y hF; rotate_right; subst lx) | (refine keeps_cutG lx ?_ (fun _ => ?_); rotate_left; clear_value lx; revert lx; intro y hG; rotate_right; subst lx) | (refine keeps_cutG' lx ?_ (fun _ => ?_); rotate_left; clear_value lx; revert lx; intro y hG'; rotate_right; subst lx) | (refine keeps_cutH lx ?_ (fun _ => ?_); rotate_left; clear_value lx; revert lx; intro y hH; rotate_right; subst lx) | (refine keeps_cutU lx ?_ (fun _ => ?_); rotate_left; clear_value lx; revert lx; intro y hU; rotate_right; subst lx) | (clear_value lx; revert lx; intro y) | subst lx)
    | with_reducible apply wr_keeps
    | with_reducible apply setResp_keeps
    | with_reducible apply onlyIf_keeps
    | with_reducible apply raise_keeps
    | with_reducible apply mgmtSend_keeps
    | with_reducible apply hF
    | with_reducible apply hG
    | with_reducible apply hG'
    | with_reducible apply hH
    | with_reducible apply hU

theorem respond_keeps {c : MpCmd} {status detail : Nat} {data : List Byte} {s0 s : State} (hk : Keeps s0 s) : Keeps s0 (respond s c status detail data) := by
  unfold respond
  repeat' first
    | with_reducible assumption
    | (extract_lets +onlyGivenNames lx; first | (refine keeps_cut lx ?_ (fun _ => ?_); rotate_left; clear_value lx; revert lx; intro y hy; rotate_right; subst lx) | (clear_value lx; revert lx; intro y) | subst lx)
    | with_reducible apply mbxCount_keeps
    | with_reducible apply wr_keeps
    | with_reducible apply mbxDone_keeps
    | split

theorem respondOk_keeps {c : MpCmd} {data : List Byte} {s0 s : State} (hk : Keeps s0 s) : Keeps s0 (respondOk s c data) := by
  unfold respondOk
  repeat' first
    | with_reducible assumption
    | with_reducible apply respond_keeps

theorem mbxRing_keeps {m : Nat} {s0 s : State} (hk : Keeps s0 s) : Keeps s0 (mbxRing m s) := by
  unfold mbxRing
  repeat' first
    | with_reducible assumption
    | (extract_lets +onlyGivenNames lx; first | (refine keeps_cut lx ?_ (fun _ => ?_); rotate_left; clear_value lx; revert lx; intro y hy; rotate_right; subst lx) | (clear_value lx; revert lx; intro y) | subst lx)
    | with_reducible apply wr_keeps
    | simp only [↓keeps_mk]

theorem mbxGo_keeps {m : Nat} {s0 s : State} (hk : Keeps s0 s) : Keeps s0 (mbxGo m s) := by
  unfold mbxGo
  repeat' first
    | with_reducible assumption
    | with_reducible apply wr_keeps
    | with_reducible apply mbxRing_keeps
    | split

theorem abortAsk_keeps {m : Nat} {s0 s : State} (hk : Keeps s0 s) : Keeps s0 (abortAsk m s) := by
  unfold abortAsk
  repeat' first
    | with_reducible assumption
    | with_reducible apply wr_keeps
    | split

theorem abortForward_keeps {w seq : Nat} {s0 s : State} (hk : Keeps s0 s) : Keeps s0 (abortForward s w seq) := by
  unfold abortForward
  repeat' first
    | with_reducible assumption
    | (intro)
    | with_reducible apply onlyIf_keeps
    | with_reducible apply tthOwn_keeps

theorem mbxAbort_keeps {m : Nat} {s0 s : State} (hk : Keeps s0 s) : Keeps s0 (mbxAbort m s) := by
  unfold mbxAbort
  repeat' first
    | with_reducible assumption
    | (intro)
    | (extract_lets +onlyGivenNames lx; first | (refine keeps_cut lx ?_ (fun _ => ?_); rotate_left; clear_value lx; revert lx; intro y hy; rotate_right; subst lx) | (clear_value lx; revert lx; intro y) | subst lx)
    | with_reducible apply wr_keeps
    | with_reducible apply abortAsk_keeps
    | with_reducible apply onlyIf_keeps
    | with_reducible apply abortForward_keeps
    | split
    | simp only [↓keeps_mk]

theorem mbxAck_keeps {m : Nat} {s0 s : State} (hk : Keeps s0 s) : Keeps s0 (mbxAck m s) := by
  unfold mbxAck
  repeat' first
    | with_reducible assumption
    | with_reducible apply wr_keeps
    | split

theorem authFailed_keeps {m op detail : Nat} {s0 s : State} (hk : Keeps s0 s) : Keeps s0 (authFailed s m op detail) := by
  unfold authFailed
  repeat' first
    | with_reducible assumption
    | (extract_lets +onlyGivenNames lx; first | (refine keeps_cut lx ?_ (fun _ => ?_); rotate_left; clear_value lx; revert lx; intro y hy; rotate_right; subst lx) | (clear_value lx; revert lx; intro y) | subst lx)
    | with_reducible apply record_keeps
    | split
    | simp only [↓keeps_mk]

theorem authenticate_keeps {c : MpCmd} {auth needs : Bool} {sig : Option SigFact} {key : Nat} {s0 s : State} (hk : Keeps s0 s) : Keeps s0 (authenticate s c auth needs sig key).1 := by
  unfold authenticate
  repeat' first
    | with_reducible assumption
    | (extract_lets +onlyGivenNames lx; first | (refine keeps_cut lx ?_ (fun _ => ?_); rotate_left; clear_value lx; revert lx; intro y hy; rotate_right; subst lx) | (clear_value lx; revert lx; intro y) | subst lx)
    | with_reducible apply authFailed_keeps
    | split
    | simp only [↓keeps_mk]

theorem forward_keeps {c : MpCmd} {s0 s : State} (hk : Keeps s0 s) : Keeps s0 (forward s c) := by
  unfold forward
  repeat' first
    | with_reducible assumption
    | (intro)
    | (extract_lets +onlyGivenNames lx; first | (refine keeps_cut lx ?_ (fun _ => ?_); rotate_left; clear_value lx; revert lx; intro y hy; rotate_right; subst lx) | (refine keeps_cutF lx ?_ (fun _ => ?_); rotate_left; clear_value lx; revert lx; intro y hF; rotate_right; subst lx) | (refine keeps_cutG lx ?_ (fun _ => ?_); rotate_left; clear_value lx; revert lx; intro y hG; rotate_right; subst lx) | (refine keeps_cutG' lx ?_ (fun _ => ?_); rotate_left; clear_value lx; revert lx; intro y hG'; rotate_right; subst lx) | (refine keeps_cutH lx ?_ (fun _ => ?_); rotate_left; clear_value lx; revert lx; intro y hH; rotate_right; subst lx) | (refine keeps_cutU lx ?_ (fun _ => ?_); rotate_left; clear_value lx; revert lx; intro y hU; rotate_right; subst lx) | (clear_value lx; revert lx; intro y) | subst lx)
    | with_reducible apply respond_keeps
    | with_reducible apply mgmtSend_keeps
    | with_reducible apply onlyIf_keeps
    | with_reducible apply abortForward_keeps
    | with_reducible apply respondOk_keeps
    | with_reducible apply hF
    | with_reducible apply hG
    | with_reducible apply hG'
    | with_reducible apply hH
    | with_reducible apply hU
    | split
    | simp only [↓keeps_mk]

theorem checkCommand_keeps {c : MpCmd} {cls : Nat} {needs : Bool} {sig : Option SigFact} {s0 s : State} (hk : Keeps s0 s) : Keeps s0 (checkCommand s c cls needs sig) := by
  unfold checkCommand
  repeat' first
    | with_reducible assumption
    | (extract_lets +onlyGivenNames lx; first | ((first | refine keeps_cut lx ?_ (fun _ => ?_) | refine keeps_cut1 lx ?_ (fun _ => ?_) | refine keeps_cut2 lx ?_ (fun _ => ?_)); rotate_left; clear_value lx; revert lx; intro y hy; rotate_right; subst lx) | (clear_value lx; revert lx; intro y) | subst lx)
    | with_reducible apply respond_keeps
    | with_reducible apply authenticate_keeps
    | split
    | simp only [↓keeps_mk]

theorem mpTake_keeps {sig : Option SigFact} {s0 s : State} (hk : Keeps s0 s) : Keeps s0 (mpTake sig s) := by
  unfold mpTake
  repeat' first
    | with_reducible assumption
    | (extract_lets +onlyGivenNames lx; first | (refine keeps_cut lx ?_ (fun _ => ?_); rotate_left; clear_value lx; revert lx; intro y hy; rotate_right; subst lx) | (clear_value lx; revert lx; intro y) | subst lx)
    | with_reducible apply respond_keeps
    | with_reducible apply forward_keeps
    | with_reducible apply checkCommand_keeps
    | split
    | simp only [↓keeps_mk]

theorem runOp_keeps {op m : Nat} {f : MpCmd → State → State} {s0 s : State} (hf : ∀ c u, Keeps s0 u → Keeps s0 (f c u)) (hk : Keeps s0 s) : Keeps s0 (runOp op m f s) := by
  unfold runOp
  split
  · split
    · split
      · exact respond_keeps hk
      · exact hf _ _ hk
    · exact hk
  · exact hk

theorem longStart_keeps {l : LongCmd} {s0 s : State} (hk : Keeps s0 s) : Keeps s0 (longStart s l) := by
  unfold longStart
  repeat' first
    | with_reducible assumption
    | simp only [↓keeps_mk]

theorem tetherMbxTimeout_keeps  {s0 s : State} (hk : Keeps s0 s) : Keeps s0 (tetherMbxTimeout s) := by
  unfold tetherMbxTimeout
  repeat' first
    | with_reducible assumption
    | with_reducible apply respond_keeps
    | split
    | simp only [↓keeps_mk]

theorem mgmtJoin_keeps {w seq frag : Nat} {last : Bool} {data : List Byte} {s0 s : State} (hk : Keeps s0 s) : Keeps s0 (mgmtJoin s w seq frag last data).1 := by
  unfold mgmtJoin
  repeat' first
    | with_reducible assumption
    | (extract_lets +onlyGivenNames lx; first | (refine keeps_cut lx ?_ (fun _ => ?_); rotate_left; clear_value lx; revert lx; intro y hy; rotate_right; subst lx) | (clear_value lx; revert lx; intro y) | subst lx)
    | split
    | simp only [↓keeps_mk]

theorem tunnelled_keeps {l : List Byte} {s0 s : State} (hk : Keeps s0 s) : Keeps s0 (tunnelled s l) := by
  unfold tunnelled
  repeat' first
    | with_reducible assumption
    | with_reducible apply mgmtSend_keeps
    | with_reducible apply mbxRing_keeps
    | with_reducible apply ramStore_keeps
    | split

theorem mgmtFragment_keeps {x : TthIn} {s0 s : State} (hk : Keeps s0 s) : Keeps s0 (mgmtFragment x s) := by
  unfold mgmtFragment
  repeat' first
    | with_reducible assumption
    | (intro)
    | (extract_lets +onlyGivenNames lx; first | ((first | refine keeps_cut lx ?_ (fun _ => ?_) | refine keeps_cut1 lx ?_ (fun _ => ?_) | refine keeps_cut2 lx ?_ (fun _ => ?_)); rotate_left; clear_value lx; revert lx; intro y hy; rotate_right; subst lx) | (clear_value lx; revert lx; intro y) | subst lx)
    | with_reducible apply tthCrc_keeps
    | with_reducible apply onlyIf_keeps
    | with_reducible apply tthRelay_keeps
    | with_reducible apply abortAsk_keeps
    | with_reducible apply mgmtJoin_keeps
    | with_reducible apply tunnelled_keeps
    | split
    | simp only [↓keeps_mk]

theorem mgmtResponse_keeps {x : TthIn} {s0 s : State} (hk : Keeps s0 s) : Keeps s0 (mgmtResponse x s) := by
  unfold mgmtResponse
  repeat' first
    | with_reducible assumption
    | (intro)
    | (extract_lets +onlyGivenNames lx; first | ((first | refine keeps_cut lx ?_ (fun _ => ?_) | refine keeps_cut1 lx ?_ (fun _ => ?_) | refine keeps_cut2 lx ?_ (fun _ => ?_)); rotate_left; clear_value lx; revert lx; intro y hy; rotate_right; subst lx) | (clear_value lx; revert lx; intro y) | subst lx)
    | with_reducible apply tthCrc_keeps
    | with_reducible apply onlyIf_keeps
    | with_reducible apply tthRelay_keeps
    | with_reducible apply mgmtJoin_keeps
    | with_reducible apply mbxDone_keeps
    | with_reducible apply mbxCount_keeps
    | split
    | simp only [↓keeps_mk]

theorem loadLost_keeps  {s0 s : State} (hk : Keeps s0 s) : Keeps s0 (loadLost s) := by
  unfold loadLost
  repeat' first
    | with_reducible assumption
    | (intro)
    | with_reducible apply each_keeps
    | with_reducible apply wr_keeps
    | split

theorem fwWatchdog_keeps {mem : Option (BitVec 35)} {s0 s : State} (hk : Keeps s0 s) : Keeps s0 (fwWatchdog mem s) := by
  unfold fwWatchdog
  repeat' first
    | with_reducible assumption
    | (intro)
    | (extract_lets +onlyGivenNames lx; first | (refine keeps_cut lx ?_ (fun _ => ?_); rotate_left; clear_value lx; revert lx; intro y hy; rotate_right; subst lx) | (refine keeps_cutF lx ?_ (fun _ => ?_); rotate_left; clear_value lx; revert lx; intro y hF; rotate_right; subst lx) | (refine keeps_cutG lx ?_ (fun _ => ?_); rotate_left; clear_value lx; revert lx; intro y hG; rotate_right; subst lx) | (refine keeps_cutG' lx ?_ (fun _ => ?_); rotate_left; clear_value lx; revert lx; intro y hG'; rotate_right; subst lx) | (refine keeps_cutH lx ?_ (fun _ => ?_); rotate_left; clear_value lx; revert lx; intro y hH; rotate_right; subst lx) | (refine keeps_cutU lx ?_ (fun _ => ?_); rotate_left; clear_value lx; revert lx; intro y hU; rotate_right; subst lx) | (clear_value lx; revert lx; intro y) | subst lx)
    | with_reducible apply eccUncorrectable_keeps
    | with_reducible apply raise_keeps
    | with_reducible apply wr_keeps
    | with_reducible apply loadLost_keeps
    | with_reducible apply each_keeps
    | with_reducible apply respond_keeps
    | with_reducible apply hF
    | with_reducible apply hG
    | with_reducible apply hG'
    | with_reducible apply hH
    | with_reducible apply hU
    | split
    | simp only [↓keeps_mk]

theorem edNop_keeps {c : MpCmd} {s0 s : State} (hk : Keeps s0 s) : Keeps s0 (edNop c s) := by
  unfold edNop
  repeat' first
    | with_reducible assumption
    | with_reducible apply respondOk_keeps

theorem edGetVersion_keeps {c : MpCmd} {s0 s : State} (hk : Keeps s0 s) : Keeps s0 (edGetVersion c s) := by
  unfold edGetVersion
  repeat' first
    | with_reducible assumption
    | with_reducible apply respondOk_keeps

theorem edGetIdentity_keeps {c : MpCmd} {s0 s : State} (hk : Keeps s0 s) : Keeps s0 (edGetIdentity c s) := by
  unfold edGetIdentity
  repeat' first
    | with_reducible assumption
    | (extract_lets +onlyGivenNames lx; first | (refine keeps_cut lx ?_ (fun _ => ?_); rotate_left; clear_value lx; revert lx; intro y hy; rotate_right; subst lx) | (clear_value lx; revert lx; intro y) | subst lx)
    | with_reducible apply respondOk_keeps

theorem edAuthNonce_keeps {c : MpCmd} {s0 s : State} (hk : Keeps s0 s) : Keeps s0 (edAuthNonce c s) := by
  unfold edAuthNonce
  repeat' first
    | with_reducible assumption
    | (extract_lets +onlyGivenNames lx; first | (refine keeps_cut lx ?_ (fun _ => ?_); rotate_left; clear_value lx; revert lx; intro y hy; rotate_right; subst lx) | (clear_value lx; revert lx; intro y) | subst lx)
    | with_reducible apply freeNext_keeps
    | with_reducible apply respondOk_keeps
    | simp only [↓keeps_mk]

theorem edModeGet_keeps {c : MpCmd} {s0 s : State} (hk : Keeps s0 s) : Keeps s0 (edModeGet c s) := by
  unfold edModeGet
  repeat' first
    | with_reducible assumption
    | with_reducible apply respondOk_keeps

theorem edChainInfo_keeps {c : MpCmd} {s0 s : State} (hk : Keeps s0 s) : Keeps s0 (edChainInfo c s) := by
  unfold edChainInfo
  repeat' first
    | with_reducible assumption
    | (intro)
    | (extract_lets +onlyGivenNames lx; first | (refine keeps_cut lx ?_ (fun _ => ?_); rotate_left; clear_value lx; revert lx; intro y hy; rotate_right; subst lx) | (refine keeps_cutF lx ?_ (fun _ => ?_); rotate_left; clear_value lx; revert lx; intro y hF; rotate_right; subst lx) | (refine keeps_cutG lx ?_ (fun _ => ?_); rotate_left; clear_value lx; revert lx; intro y hG; rotate_right; subst lx) | (refine keeps_cutG' lx ?_ (fun _ => ?_); rotate_left; clear_value lx; revert lx; intro y hG'; rotate_right; subst lx) | (refine keeps_cutH lx ?_ (fun _ => ?_); rotate_left; clear_value lx; revert lx; intro y hH; rotate_right; subst lx) | (refine keeps_cutU lx ?_ (fun _ => ?_); rotate_left; clear_value lx; revert lx; intro y hU; rotate_right; subst lx) | (clear_value lx; revert lx; intro y) | subst lx)
    | with_reducible apply respondOk_keeps
    | with_reducible apply hF
    | with_reducible apply hG
    | with_reducible apply hG'
    | with_reducible apply hH
    | with_reducible apply hU
    | split

theorem edAgeingRead_keeps {c : MpCmd} {s0 s : State} (hk : Keeps s0 s) : Keeps s0 (edAgeingRead c s) := by
  unfold edAgeingRead
  repeat' first
    | with_reducible assumption
    | (intro)
    | with_reducible apply respondOk_keeps

theorem edServiceEnter_keeps {c : MpCmd} {s0 s : State} (hk : Keeps s0 s) : Keeps s0 (edServiceEnter c s) := by
  unfold edServiceEnter
  repeat' first
    | with_reducible assumption
    | with_reducible apply respond_keeps
    | with_reducible apply respondOk_keeps
    | with_reducible apply modeEnter_keeps
    | with_reducible apply leaveStop_keeps
    | split
    | simp only [↓keeps_mk]

theorem edServiceExit_keeps {c : MpCmd} {s0 s : State} (hk : Keeps s0 s) : Keeps s0 (edServiceExit c s) := by
  unfold edServiceExit
  repeat' first
    | with_reducible assumption
    | (extract_lets +onlyGivenNames lx; first | (refine keeps_cut lx ?_ (fun _ => ?_); rotate_left; clear_value lx; revert lx; intro y hy; rotate_right; subst lx) | (clear_value lx; revert lx; intro y) | subst lx)
    | with_reducible apply later_keeps
    | with_reducible apply modeEnter_keeps
    | with_reducible apply respondOk_keeps
    | with_reducible apply dmaWake_keeps
    | with_reducible apply wr_keeps
    | with_reducible apply respond_keeps
    | split

theorem edCalibrate_keeps {c : MpCmd} {s0 s : State} (hk : Keeps s0 s) : Keeps s0 (edCalibrate c s) := by
  unfold edCalibrate
  repeat' first
    | with_reducible assumption
    | with_reducible apply respond_keeps
    | with_reducible apply enterCalibrate_keeps
    | with_reducible apply longStart_keeps
    | split
    | simp only [↓keeps_mk]

theorem flatResults_keeps {streams : Nat} {flats : List (Nat × List (Nat × Nat))} {s0 s : State} (hk : Keeps s0 s) : Keeps s0 (flatResults s streams flats) := by
  unfold flatResults
  repeat' first
    | with_reducible assumption
    | (intro)
    | with_reducible apply each_keeps
    | with_reducible apply setParam_keeps
    | split
    | simp only [↓keeps_mk]

theorem calibrateRoutineEnd_keeps {done failed l : Nat} {skews : List (Nat × Nat)} {flats : List (Nat × List (Nat × Nat))} {aborted : Bool} {s0 s : State} (hk : Keeps s0 s) : Keeps s0 (calibrateRoutineEnd done failed l skews flats aborted s) := by
  unfold calibrateRoutineEnd
  repeat' first
    | with_reducible assumption
    | (intro)
    | (extract_lets +onlyGivenNames lx; first | (refine keeps_cut lx ?_ (fun _ => ?_); rotate_left; clear_value lx; revert lx; intro y hy; rotate_right; subst lx) | (refine keeps_cutF lx ?_ (fun _ => ?_); rotate_left; clear_value lx; revert lx; intro y hF; rotate_right; subst lx) | (refine keeps_cutG lx ?_ (fun _ => ?_); rotate_left; clear_value lx; revert lx; intro y hG; rotate_right; subst lx) | (refine keeps_cutG' lx ?_ (fun _ => ?_); rotate_left; clear_value lx; revert lx; intro y hG'; rotate_right; subst lx) | (refine keeps_cutH lx ?_ (fun _ => ?_); rotate_left; clear_value lx; revert lx; intro y hH; rotate_right; subst lx) | (refine keeps_cutU lx ?_ (fun _ => ?_); rotate_left; clear_value lx; revert lx; intro y hU; rotate_right; subst lx) | (clear_value lx; revert lx; intro y) | subst lx)
    | with_reducible apply onlyIf_keeps
    | with_reducible apply lanesReskew_keeps
    | with_reducible apply flatResults_keeps
    | with_reducible apply tetherCalibrated_keeps
    | with_reducible apply leaveCalibrate_keeps
    | with_reducible apply hF
    | with_reducible apply hG
    | with_reducible apply hG'
    | with_reducible apply hH
    | with_reducible apply hU
    | split
    | simp only [↓keeps_mk]

theorem calAbort_keeps  {s0 s : State} (hk : Keeps s0 s) : Keeps s0 (calAbort s) := by
  unfold calAbort
  repeat' first
    | with_reducible assumption
    | with_reducible apply respond_keeps
    | with_reducible apply freeNext_keeps
    | split
    | simp only [↓keeps_mk]

theorem edParamList_keeps {c : MpCmd} {s0 s : State} (hk : Keeps s0 s) : Keeps s0 (edParamList c s) := by
  unfold edParamList
  repeat' first
    | with_reducible assumption
    | (intro)
    | (extract_lets +onlyGivenNames lx; first | (refine keeps_cut lx ?_ (fun _ => ?_); rotate_left; clear_value lx; revert lx; intro y hy; rotate_right; subst lx) | (refine keeps_cutF lx ?_ (fun _ => ?_); rotate_left; clear_value lx; revert lx; intro y hF; rotate_right; subst lx) | (refine keeps_cutG lx ?_ (fun _ => ?_); rotate_left; clear_value lx; revert lx; intro y hG; rotate_right; subst lx) | (refine keeps_cutG' lx ?_ (fun _ => ?_); rotate_left; clear_value lx; revert lx; intro y hG'; rotate_right; subst lx) | (refine keeps_cutH lx ?_ (fun _ => ?_); rotate_left; clear_value lx; revert lx; intro y hH; rotate_right; subst lx) | (refine keeps_cutU lx ?_ (fun _ => ?_); rotate_left; clear_value lx; revert lx; intro y hU; rotate_right; subst lx) | (clear_value lx; revert lx; intro y) | subst lx)
    | with_reducible apply respondOk_keeps
    | with_reducible apply hF
    | with_reducible apply hG
    | with_reducible apply hG'
    | with_reducible apply hH
    | with_reducible apply hU

theorem edParamDesc_keeps {c : MpCmd} {s0 s : State} (hk : Keeps s0 s) : Keeps s0 (edParamDesc c s) := by
  unfold edParamDesc
  repeat' first
    | with_reducible assumption
    | (extract_lets +onlyGivenNames lx; first | (refine keeps_cut lx ?_ (fun _ => ?_); rotate_left; clear_value lx; revert lx; intro y hy; rotate_right; subst lx) | (clear_value lx; revert lx; intro y) | subst lx)
    | with_reducible apply respond_keeps
    | with_reducible apply respondOk_keeps
    | split
    | simp only [↓keeps_mk]

theorem edParamGet_keeps {c : MpCmd} {s0 s : State} (hk : Keeps s0 s) : Keeps s0 (edParamGet c s) := by
  unfold edParamGet
  repeat' first
    | with_reducible assumption
    | (intro)
    | (extract_lets +onlyGivenNames lx; first | (refine keeps_cut lx ?_ (fun _ => ?_); rotate_left; clear_value lx; revert lx; intro y hy; rotate_right; subst lx) | (refine keeps_cutF lx ?_ (fun _ => ?_); rotate_left; clear_value lx; revert lx; intro y hF; rotate_right; subst lx) | (refine keeps_cutG lx ?_ (fun _ => ?_); rotate_left; clear_value lx; revert lx; intro y hG; rotate_right; subst lx) | (refine keeps_cutG' lx ?_ (fun _ => ?_); rotate_left; clear_value lx; revert lx; intro y hG'; rotate_right; subst lx) | (refine keeps_cutH lx ?_ (fun _ => ?_); rotate_left; clear_value lx; revert lx; intro y hH; rotate_right; subst lx) | (refine keeps_cutU lx ?_ (fun _ => ?_); rotate_left; clear_value lx; revert lx; intro y hU; rotate_right; subst lx) | (clear_value lx; revert lx; intro y) | subst lx)
    | with_reducible apply respond_keeps
    | with_reducible apply respondOk_keeps
    | with_reducible apply hF
    | with_reducible apply hG
    | with_reducible apply hG'
    | with_reducible apply hH
    | with_reducible apply hU
    | split
    | simp only [↓keeps_mk]

theorem edParamSet_keeps {c : MpCmd} {s0 s : State} (hk : Keeps s0 s) : Keeps s0 (edParamSet c s) := by
  unfold edParamSet
  repeat' first
    | with_reducible assumption
    | (intro)
    | (extract_lets +onlyGivenNames lx; first | (refine keeps_cut lx ?_ (fun _ => ?_); rotate_left; clear_value lx; revert lx; intro y hy; rotate_right; subst lx) | (refine keeps_cutF lx ?_ (fun _ => ?_); rotate_left; clear_value lx; revert lx; intro y hF; rotate_right; subst lx) | (refine keeps_cutG lx ?_ (fun _ => ?_); rotate_left; clear_value lx; revert lx; intro y hG; rotate_right; subst lx) | (refine keeps_cutG' lx ?_ (fun _ => ?_); rotate_left; clear_value lx; revert lx; intro y hG'; rotate_right; subst lx) | (refine keeps_cutH lx ?_ (fun _ => ?_); rotate_left; clear_value lx; revert lx; intro y hH; rotate_right; subst lx) | (refine keeps_cutU lx ?_ (fun _ => ?_); rotate_left; clear_value lx; revert lx; intro y hU; rotate_right; subst lx) | (clear_value lx; revert lx; intro y) | subst lx)
    | with_reducible apply respond_keeps
    | with_reducible apply respondOk_keeps
    | with_reducible apply each_keeps
    | with_reducible apply applyParam_keeps
    | with_reducible apply hF
    | with_reducible apply hG
    | with_reducible apply hG'
    | with_reducible apply hH
    | with_reducible apply hU
    | split
    | simp only [↓keeps_mk]

theorem setRcp_keeps {k : Nat} {x : RcpSlot} {s0 s : State} (hk : Keeps s0 s) : Keeps s0 (setRcp s k x) := by
  unfold setRcp
  repeat' first
    | with_reducible assumption
    | simp only [↓keeps_mk]

theorem edRecipeLoad_keeps {c : MpCmd} {s0 s : State} (hk : Keeps s0 s) : Keeps s0 (edRecipeLoad c s) := by
  unfold edRecipeLoad
  repeat' first
    | with_reducible assumption
    | (extract_lets +onlyGivenNames lx; first | (refine keeps_cut lx ?_ (fun _ => ?_); rotate_left; clear_value lx; revert lx; intro y hy; rotate_right; subst lx) | (clear_value lx; revert lx; intro y) | subst lx)
    | with_reducible apply respond_keeps
    | with_reducible apply wr_keeps
    | with_reducible apply longStart_keeps
    | split
    | simp only [↓keeps_mk]

theorem stageStore_keeps {l : List (Nat × Nat)} {s0 s : State} (hk : Keeps s0 s) : Keeps s0 (stageStore s l) := by
  unfold stageStore
  repeat' first
    | with_reducible assumption
    | (intro)
    | with_reducible apply each_keeps
    | with_reducible apply storeWrite_keeps

theorem imageLost_keeps {c : MpCmd} {k addr : Nat} {s0 s : State} (hk : Keeps s0 s) : Keeps s0 (imageLost s c k addr) := by
  unfold imageLost
  repeat' first
    | with_reducible assumption
    | (extract_lets +onlyGivenNames lx; first | (refine keeps_cut lx ?_ (fun _ => ?_); rotate_left; clear_value lx; revert lx; intro y hy; rotate_right; subst lx) | (clear_value lx; revert lx; intro y) | subst lx)
    | with_reducible apply eccUncorrectable_keeps
    | with_reducible apply respond_keeps
    | with_reducible apply wr_keeps
    | with_reducible apply setRcp_keeps

theorem stageEnd_keeps {g : StageRun} {r : RecipeImage} {c : MpCmd} {s0 s : State} (hk : Keeps s0 s) : Keeps s0 (stageEnd s g r c) := by
  unfold stageEnd
  repeat' first
    | with_reducible assumption
    | (intro)
    | (extract_lets +onlyGivenNames lx; first | ((first | refine keeps_cut lx ?_ (fun _ => ?_) | refine keeps_cut1 lx ?_ (fun _ => ?_) | refine keeps_cut2 lx ?_ (fun _ => ?_)); rotate_left; clear_value lx; revert lx; intro y hy; rotate_right; subst lx) | (refine keeps_cutF lx ?_ (fun _ => ?_); rotate_left; clear_value lx; revert lx; intro y hF; rotate_right; subst lx) | (refine keeps_cutG lx ?_ (fun _ => ?_); rotate_left; clear_value lx; revert lx; intro y hG; rotate_right; subst lx) | (refine keeps_cutG' lx ?_ (fun _ => ?_); rotate_left; clear_value lx; revert lx; intro y hG'; rotate_right; subst lx) | (refine keeps_cutH lx ?_ (fun _ => ?_); rotate_left; clear_value lx; revert lx; intro y hH; rotate_right; subst lx) | (refine keeps_cutU lx ?_ (fun _ => ?_); rotate_left; clear_value lx; revert lx; intro y hU; rotate_right; subst lx) | (clear_value lx; revert lx; intro y) | subst lx)
    | with_reducible apply each_keeps
    | with_reducible apply wr_keeps
    | with_reducible apply sramStore_keeps
    | with_reducible apply setRcp_keeps
    | with_reducible apply respond_keeps
    | with_reducible apply respondOk_keeps
    | with_reducible apply hF
    | with_reducible apply hG
    | with_reducible apply hG'
    | with_reducible apply hH
    | with_reducible apply hU
    | split
    | simp only [↓keeps_mk]

theorem stageRun_keeps {g : StageRun} {r : RecipeImage} {upto : Option Nat} {c : MpCmd} {s0 s : State} (hk : Keeps s0 s) : Keeps s0 (stageRun s g r upto c) := by
  unfold stageRun
  repeat' first
    | with_reducible assumption
    | (extract_lets +onlyGivenNames lx; first | (refine keeps_cut lx ?_ (fun _ => ?_); rotate_left; clear_value lx; revert lx; intro y hy; rotate_right; subst lx) | (clear_value lx; revert lx; intro y) | subst lx)
    | with_reducible apply stageEnd_keeps
    | with_reducible apply stageStore_keeps
    | split
    | simp only [↓keeps_mk]

theorem edRecipeStage_keeps {x : MemEcc} {upto : Option Nat} {c : MpCmd} {s0 s : State} (hk : Keeps s0 s) : Keeps s0 (edRecipeStage x upto c s) := by
  unfold edRecipeStage
  repeat' first
    | with_reducible assumption
    | (extract_lets +onlyGivenNames lx; first | (refine keeps_cut lx ?_ (fun _ => ?_); rotate_left; clear_value lx; revert lx; intro y hy; rotate_right; subst lx) | (clear_value lx; revert lx; intro y) | subst lx)
    | with_reducible apply stageRun_keeps
    | with_reducible apply respond_keeps
    | with_reducible apply uncorrectable_keeps
    | with_reducible apply imageLost_keeps
    | with_reducible apply eccCorrected_keeps
    | with_reducible apply stageStore_keeps
    | with_reducible apply setChk_keeps
    | with_reducible apply setRcp_keeps
    | split
    | simp only [↓keeps_mk]

theorem edRecipeCommit_keeps {c : MpCmd} {s0 s : State} (hk : Keeps s0 s) : Keeps s0 (edRecipeCommit c s) := by
  unfold edRecipeCommit
  repeat' first
    | with_reducible assumption
    | (extract_lets +onlyGivenNames lx; first | (refine keeps_cut lx ?_ (fun _ => ?_); rotate_left; clear_value lx; revert lx; intro y hy; rotate_right; subst lx) | (clear_value lx; revert lx; intro y) | subst lx)
    | with_reducible apply chgWrite_keeps
    | with_reducible apply respond_keeps
    | with_reducible apply respondOk_keeps
    | split

theorem edRecipeFree_keeps {c : MpCmd} {s0 s : State} (hk : Keeps s0 s) : Keeps s0 (edRecipeFree c s) := by
  unfold edRecipeFree
  repeat' first
    | with_reducible assumption
    | (extract_lets +onlyGivenNames lx; first | (refine keeps_cut lx ?_ (fun _ => ?_); rotate_left; clear_value lx; revert lx; intro y hy; rotate_right; subst lx) | (clear_value lx; revert lx; intro y) | subst lx)
    | with_reducible apply respond_keeps
    | with_reducible apply respondOk_keeps
    | with_reducible apply wr_keeps
    | with_reducible apply setRcp_keeps
    | split

theorem edRecipeInfo_keeps {c : MpCmd} {s0 s : State} (hk : Keeps s0 s) : Keeps s0 (edRecipeInfo c s) := by
  unfold edRecipeInfo
  repeat' first
    | with_reducible assumption
    | (intro)
    | (extract_lets +onlyGivenNames lx; first | (refine keeps_cut lx ?_ (fun _ => ?_); rotate_left; clear_value lx; revert lx; intro y hy; rotate_right; subst lx) | (refine keeps_cutF lx ?_ (fun _ => ?_); rotate_left; clear_value lx; revert lx; intro y hF; rotate_right; subst lx) | (refine keeps_cutG lx ?_ (fun _ => ?_); rotate_left; clear_value lx; revert lx; intro y hG; rotate_right; subst lx) | (refine keeps_cutG' lx ?_ (fun _ => ?_); rotate_left; clear_value lx; revert lx; intro y hG'; rotate_right; subst lx) | (refine keeps_cutH lx ?_ (fun _ => ?_); rotate_left; clear_value lx; revert lx; intro y hH; rotate_right; subst lx) | (refine keeps_cutU lx ?_ (fun _ => ?_); rotate_left; clear_value lx; revert lx; intro y hU; rotate_right; subst lx) | (clear_value lx; revert lx; intro y) | subst lx)
    | with_reducible apply respond_keeps
    | with_reducible apply respondOk_keeps
    | with_reducible apply hF
    | with_reducible apply hG
    | with_reducible apply hG'
    | with_reducible apply hH
    | with_reducible apply hU
    | split
    | simp only [↓keeps_mk]

theorem edRecFlush_keeps {c : MpCmd} {s0 s : State} (hk : Keeps s0 s) : Keeps s0 (edRecFlush c s) := by
  unfold edRecFlush
  repeat' first
    | with_reducible assumption
    | (extract_lets +onlyGivenNames lx; first | (refine keeps_cut lx ?_ (fun _ => ?_); rotate_left; clear_value lx; revert lx; intro y hy; rotate_right; subst lx) | (refine keeps_rec lx ?_; subst lx) | (clear_value lx; revert lx; intro y) | subst lx)
    | with_reducible apply flushTrigger_keeps
    | split
    | simp only [↓keeps_mk]

theorem recFlushed_keeps {n written : Nat} {s0 s : State} (hk : Keeps s0 s) : Keeps s0 (recFlushed s n written) := by
  unfold recFlushed
  repeat' first
    | with_reducible assumption
    | with_reducible apply respondOk_keeps
    | split
    | simp only [↓keeps_mk]

theorem edRecRead_keeps {c : MpCmd} {s0 s : State} (hk : Keeps s0 s) : Keeps s0 (edRecRead c s) := by
  unfold edRecRead
  repeat' first
    | with_reducible assumption
    | (intro)
    | (extract_lets +onlyGivenNames lx; first | (refine keeps_cut lx ?_ (fun _ => ?_); rotate_left; clear_value lx; revert lx; intro y hy; rotate_right; subst lx) | (refine keeps_cutF lx ?_ (fun _ => ?_); rotate_left; clear_value lx; revert lx; intro y hF; rotate_right; subst lx) | (refine keeps_cutG lx ?_ (fun _ => ?_); rotate_left; clear_value lx; revert lx; intro y hG; rotate_right; subst lx) | (refine keeps_cutG' lx ?_ (fun _ => ?_); rotate_left; clear_value lx; revert lx; intro y hG'; rotate_right; subst lx) | (refine keeps_cutH lx ?_ (fun _ => ?_); rotate_left; clear_value lx; revert lx; intro y hH; rotate_right; subst lx) | (refine keeps_cutU lx ?_ (fun _ => ?_); rotate_left; clear_value lx; revert lx; intro y hU; rotate_right; subst lx) | (clear_value lx; revert lx; intro y) | subst lx)
    | with_reducible apply respond_keeps
    | with_reducible apply respondOk_keeps
    | with_reducible apply hF
    | with_reducible apply hG
    | with_reducible apply hG'
    | with_reducible apply hH
    | with_reducible apply hU
    | split
    | simp only [↓keeps_mk]

theorem edRecClear_keeps {c : MpCmd} {s0 s : State} (hk : Keeps s0 s) : Keeps s0 (edRecClear c s) := by
  unfold edRecClear
  repeat' first
    | with_reducible assumption
    | with_reducible apply respond_keeps
    | with_reducible apply longStart_keeps
    | split
    | simp only [↓keeps_mk]

theorem edRecInfo_keeps {c : MpCmd} {s0 s : State} (hk : Keeps s0 s) : Keeps s0 (edRecInfo c s) := by
  unfold edRecInfo
  repeat' first
    | with_reducible assumption
    | with_reducible apply respondOk_keeps

theorem setBank_keeps {b : Nat} {f : Config.FwImage} {s0 s : State} (hk : Keeps s0 s) : Keeps s0 (setBank s b f) := by
  unfold setBank
  repeat' first
    | with_reducible assumption
    | simp only [↓keeps_mk]

theorem spoilBank_keeps {b : Nat} {s0 s : State} (hk : Keeps s0 s) : Keeps s0 (spoilBank s b) := by
  unfold spoilBank
  repeat' first
    | with_reducible assumption
    | (extract_lets +onlyGivenNames lx; first | (refine keeps_cut lx ?_ (fun _ => ?_); rotate_left; clear_value lx; revert lx; intro y hy; rotate_right; subst lx) | (clear_value lx; revert lx; intro y) | subst lx)
    | split
    | simp only [↓keeps_mk]

theorem setDirectory_keeps {b : Nat} {s0 s : State} (hk : Keeps s0 s) : Keeps s0 (setDirectory s b) := by
  unfold setDirectory
  repeat' first
    | with_reducible assumption
    | (intro)
    | (extract_lets +onlyGivenNames lx; first | ((first | refine keeps_cut lx ?_ (fun _ => ?_) | refine keeps_cut1 lx ?_ (fun _ => ?_)); rotate_left; clear_value lx; revert lx; intro y hy; rotate_right; subst lx) | (refine keeps_cutF lx ?_ (fun _ => ?_); rotate_left; clear_value lx; revert lx; intro y hF; rotate_right; subst lx) | (refine keeps_cutG lx ?_ (fun _ => ?_); rotate_left; clear_value lx; revert lx; intro y hG; rotate_right; subst lx) | (refine keeps_cutG' lx ?_ (fun _ => ?_); rotate_left; clear_value lx; revert lx; intro y hG'; rotate_right; subst lx) | (refine keeps_cutH lx ?_ (fun _ => ?_); rotate_left; clear_value lx; revert lx; intro y hH; rotate_right; subst lx) | (refine keeps_cutU lx ?_ (fun _ => ?_); rotate_left; clear_value lx; revert lx; intro y hU; rotate_right; subst lx) | (clear_value lx; revert lx; intro y) | subst lx)
    | with_reducible apply wr_keeps
    | with_reducible apply foldl_keeps
    | with_reducible apply hF
    | with_reducible apply hG
    | with_reducible apply hG'
    | with_reducible apply hH
    | with_reducible apply hU
    | simp only [↓keeps_mk]

theorem edFwWrite_keeps {c : MpCmd} {s0 s : State} (hk : Keeps s0 s) : Keeps s0 (edFwWrite c s) := by
  unfold edFwWrite
  repeat' first
    | with_reducible assumption
    | with_reducible apply respond_keeps
    | with_reducible apply longStart_keeps
    | split
    | simp only [↓keeps_mk]

theorem edFwSelect_keeps {c : MpCmd} {s0 s : State} (hk : Keeps s0 s) : Keeps s0 (edFwSelect c s) := by
  unfold edFwSelect
  repeat' first
    | with_reducible assumption
    | (extract_lets +onlyGivenNames lx; first | (refine keeps_cut lx ?_ (fun _ => ?_); rotate_left; clear_value lx; revert lx; intro y hy; rotate_right; subst lx) | (clear_value lx; revert lx; intro y) | subst lx)
    | with_reducible apply respond_keeps
    | with_reducible apply respondOk_keeps
    | with_reducible apply record_keeps
    | with_reducible apply setDirectory_keeps
    | split
    | simp only [↓keeps_mk]

theorem edBoardRead_keeps {c : MpCmd} {s0 s : State} (hk : Keeps s0 s) : Keeps s0 (edBoardRead c s) := by
  unfold edBoardRead
  repeat' first
    | with_reducible assumption
    | (intro)
    | (extract_lets +onlyGivenNames lx; first | (refine keeps_cut lx ?_ (fun _ => ?_); rotate_left; clear_value lx; revert lx; intro y hy; rotate_right; subst lx) | (clear_value lx; revert lx; intro y) | subst lx)
    | with_reducible apply respond_keeps
    | with_reducible apply respondOk_keeps
    | split

theorem edBoardWrite_keeps {c : MpCmd} {s0 s : State} (hk : Keeps s0 s) : Keeps s0 (edBoardWrite c s) := by
  unfold edBoardWrite
  repeat' first
    | with_reducible assumption
    | (intro)
    | (extract_lets +onlyGivenNames lx; first | ((first | refine keeps_cut lx ?_ (fun _ => ?_) | refine keeps_cut1 lx ?_ (fun _ => ?_) | refine keeps_cut2 lx ?_ (fun _ => ?_)); rotate_left; clear_value lx; revert lx; intro y hy; rotate_right; subst lx) | (refine keeps_cutF lx ?_ (fun _ => ?_); rotate_left; clear_value lx; revert lx; intro y hF; rotate_right; subst lx) | (refine keeps_cutG lx ?_ (fun _ => ?_); rotate_left; clear_value lx; revert lx; intro y hG; rotate_right; subst lx) | (refine keeps_cutG' lx ?_ (fun _ => ?_); rotate_left; clear_value lx; revert lx; intro y hG'; rotate_right; subst lx) | (refine keeps_cutH lx ?_ (fun _ => ?_); rotate_left; clear_value lx; revert lx; intro y hH; rotate_right; subst lx) | (refine keeps_cutU lx ?_ (fun _ => ?_); rotate_left; clear_value lx; revert lx; intro y hU; rotate_right; subst lx) | (clear_value lx; revert lx; intro y) | subst lx)
    | with_reducible apply respond_keeps
    | with_reducible apply each_keeps
    | with_reducible apply respondOk_keeps
    | with_reducible apply hF
    | with_reducible apply hG
    | with_reducible apply hG'
    | with_reducible apply hH
    | with_reducible apply hU
    | split
    | simp only [↓keeps_mk]

theorem recipeLoaded_keeps {l : LongCmd} {r : RecipeImage} {s0 s : State} (hk : Keeps s0 s) : Keeps s0 (recipeLoaded s l r) := by
  unfold recipeLoaded
  repeat' first
    | with_reducible assumption
    | (intro)
    | (extract_lets +onlyGivenNames lx; first | ((first | refine keeps_cut lx ?_ (fun _ => ?_) | refine keeps_cut1 lx ?_ (fun _ => ?_) | refine keeps_cut2 lx ?_ (fun _ => ?_)); rotate_left; clear_value lx; revert lx; intro y hy; rotate_right; subst lx) | (refine keeps_cutF lx ?_ (fun _ => ?_); rotate_left; clear_value lx; revert lx; intro y hF; rotate_right; subst lx) | (refine keeps_cutG lx ?_ (fun _ => ?_); rotate_left; clear_value lx; revert lx; intro y hG; rotate_right; subst lx) | (refine keeps_cutG' lx ?_ (fun _ => ?_); rotate_left; clear_value lx; revert lx; intro y hG'; rotate_right; subst lx) | (refine keeps_cutH lx ?_ (fun _ => ?_); rotate_left; clear_value lx; revert lx; intro y hH; rotate_right; subst lx) | (refine keeps_cutU lx ?_ (fun _ => ?_); rotate_left; clear_value lx; revert lx; intro y hU; rotate_right; subst lx) | (clear_value lx; revert lx; intro y) | subst lx)
    | with_reducible apply each_keeps
    | with_reducible apply hbmWrite_keeps
    | with_reducible apply setRcp_keeps
    | with_reducible apply wr_keeps
    | with_reducible apply respondOk_keeps
    | with_reducible apply hF
    | with_reducible apply hG
    | with_reducible apply hG'
    | with_reducible apply hH
    | with_reducible apply hU

theorem loadFailed_keeps {l : LongCmd} {st : Nat} {s0 s : State} (hk : Keeps s0 s) : Keeps s0 (loadFailed s l st) := by
  unfold loadFailed
  repeat' first
    | with_reducible assumption
    | with_reducible apply wr_keeps
    | with_reducible apply setRcp_keeps
    | split

theorem firmwareWritten_keeps {l : LongCmd} {f : Config.FwImage} {s0 s : State} (hk : Keeps s0 s) : Keeps s0 (firmwareWritten s l f) := by
  unfold firmwareWritten
  repeat' first
    | with_reducible assumption
    | (extract_lets +onlyGivenNames lx; first | (refine keeps_cut lx ?_ (fun _ => ?_); rotate_left; clear_value lx; revert lx; intro y hy; rotate_right; subst lx) | (clear_value lx; revert lx; intro y) | subst lx)
    | with_reducible apply record_keeps
    | with_reducible apply setBank_keeps
    | with_reducible apply setDirectory_keeps
    | with_reducible apply respondOk_keeps

theorem firmwareCut_keeps {l : LongCmd} {s0 s : State} (hk : Keeps s0 s) : Keeps s0 (firmwareCut s l) := by
  unfold firmwareCut
  repeat' first
    | with_reducible assumption
    | with_reducible apply spoilBank_keeps
    | with_reducible apply setDirectory_keeps
    | split

theorem firmwareBad_keeps {l : LongCmd} {s0 s : State} (hk : Keeps s0 s) : Keeps s0 (firmwareBad s l) := by
  unfold firmwareBad
  repeat' first
    | with_reducible assumption
    | with_reducible apply setBank_keeps
    | with_reducible apply setDirectory_keeps
    | split

theorem longComplete_keeps {m : Nat} {x : LongEnd} {s0 s : State} (hk : Keeps s0 s) : Keeps s0 (longComplete m x s) := by
  unfold longComplete
  repeat' first
    | with_reducible assumption
    | (intro)
    | (extract_lets +onlyGivenNames lx; first | (refine keeps_cut lx ?_ (fun _ => ?_); rotate_left; clear_value lx; revert lx; intro y hy; rotate_right; subst lx) | (clear_value lx; revert lx; intro y) | subst lx)
    | with_reducible apply respondOk_keeps
    | with_reducible apply recClear_keeps
    | with_reducible apply recipeLoaded_keeps
    | with_reducible apply respond_keeps
    | with_reducible apply loadFailed_keeps
    | with_reducible apply firmwareWritten_keeps
    | with_reducible apply leaveCalibrate_keeps
    | with_reducible apply firmwareCut_keeps
    | with_reducible apply firmwareBad_keeps
    | split
    | simp only [↓keeps_mk]

end Sys2Proof.Machine
end

