-- ==== Sys2Proof/Laws/KeepsHost.lean ====
section
/-! SUPPORT. What every operation keeps (`Keeps`), one lemma per operation: DMA, the endpoint, boot, maintenance, enables, the worklist and the bus. -/

set_option linter.all false

namespace Sys2Proof.Machine

theorem setDma_keeps {c : Nat} {x : DmaS} {s0 s : State} (hk : Keeps s0 s) : Keeps s0 (setDma s c x) := by
  unfold setDma
  repeat' first
    | with_reducible assumption
    | simp only [↓keeps_mk]

theorem dropReads_keeps {p : Nat → Bool} {s0 s : State} (hk : Keeps s0 s) : Keeps s0 (dropReads s p) := by
  unfold dropReads
  repeat' first
    | with_reducible assumption
    | (intro)
    | (extract_lets +onlyGivenNames lx; first | ((first | refine keeps_cut lx ?_ (fun _ => ?_) | refine keeps_cut1 lx ?_ (fun _ => ?_) | refine keeps_cut2 lx ?_ (fun _ => ?_)); rotate_left; clear_value lx; revert lx; intro y hy; rotate_right; subst lx) | (refine keeps_cutF lx ?_ (fun _ => ?_); rotate_left; clear_value lx; revert lx; intro y hF; rotate_right; subst lx) | (refine keeps_cutG lx ?_ (fun _ => ?_); rotate_left; clear_value lx; revert lx; intro y hG; rotate_right; subst lx) | (refine keeps_cutG' lx ?_ (fun _ => ?_); rotate_left; clear_value lx; revert lx; intro y hG'; rotate_right; subst lx) | (refine keeps_cutH lx ?_ (fun _ => ?_); rotate_left; clear_value lx; revert lx; intro y hH; rotate_right; subst lx) | (refine keeps_cutU lx ?_ (fun _ => ?_); rotate_left; clear_value lx; revert lx; intro y hU; rotate_right; subst lx) | (clear_value lx; revert lx; intro y) | subst lx)
    | with_reducible apply laterOnce_keeps
    | with_reducible apply hF
    | with_reducible apply hG
    | with_reducible apply hG'
    | with_reducible apply hH
    | with_reducible apply hU
    | split
    | simp only [↓keeps_mk]

theorem drainShow_keeps  {s0 s : State} (hk : Keeps s0 s) : Keeps s0 (drainShow s) := by
  unfold drainShow
  repeat' first
    | with_reducible assumption
    | with_reducible apply wr_keeps
    | split

theorem dmaStop_keeps {c run : Nat} {s0 s : State} (hk : Keeps s0 s) : Keeps s0 (dmaStop s c run) := by
  unfold dmaStop
  repeat' first
    | with_reducible assumption
    | (extract_lets +onlyGivenNames lx; first | (refine keeps_cut lx ?_ (fun _ => ?_); rotate_left; clear_value lx; revert lx; intro y hy; rotate_right; subst lx) | (clear_value lx; revert lx; intro y) | subst lx)
    | with_reducible apply wr_keeps
    | with_reducible apply setDma_keeps
    | with_reducible apply raise_keeps

theorem haltCh_keeps {c cause : Nat} {s0 s : State} (hk : Keeps s0 s) : Keeps s0 (haltCh s c cause) := by
  unfold haltCh
  repeat' first
    | with_reducible assumption
    | with_reducible apply wr_keeps
    | with_reducible apply dmaStop_keeps
    | with_reducible apply dropReads_keeps

theorem engineHalt_keeps {addr cause : Nat} {s0 s : State} (hk : Keeps s0 s) : Keeps s0 (engineHalt s addr cause) := by
  unfold engineHalt
  repeat' first
    | with_reducible assumption
    | (intro)
    | (extract_lets +onlyGivenNames lx; first | (refine keeps_cut lx ?_ (fun _ => ?_); rotate_left; clear_value lx; revert lx; intro y hy; rotate_right; subst lx) | (refine keeps_cutF lx ?_ (fun _ => ?_); rotate_left; clear_value lx; revert lx; intro y hF; rotate_right; subst lx) | (refine keeps_cutG lx ?_ (fun _ => ?_); rotate_left; clear_value lx; revert lx; intro y hG; rotate_right; subst lx) | (refine keeps_cutG' lx ?_ (fun _ => ?_); rotate_left; clear_value lx; revert lx; intro y hG'; rotate_right; subst lx) | (refine keeps_cutH lx ?_ (fun _ => ?_); rotate_left; clear_value lx; revert lx; intro y hH; rotate_right; subst lx) | (refine keeps_cutU lx ?_ (fun _ => ?_); rotate_left; clear_value lx; revert lx; intro y hU; rotate_right; subst lx) | (clear_value lx; revert lx; intro y) | subst lx)
    | with_reducible apply dropReads_keeps
    | with_reducible apply addSat_keeps
    | with_reducible apply each_keeps
    | with_reducible apply wr_keeps
    | with_reducible apply wrB_keeps
    | with_reducible apply dmaStop_keeps
    | with_reducible apply hF
    | with_reducible apply hG
    | with_reducible apply hG'
    | with_reducible apply hH
    | with_reducible apply hU
    | split

theorem dmaOff_keeps  {s0 s : State} (hk : Keeps s0 s) : Keeps s0 (dmaOff s) := by
  unfold dmaOff
  repeat' first
    | with_reducible assumption
    | (intro)
    | with_reducible apply each_keeps
    | with_reducible apply dmaStop_keeps
    | with_reducible apply dropReads_keeps

theorem cplShow_keeps {c : Nat} {s0 s : State} (hk : Keeps s0 s) : Keeps s0 (cplShow s c) := by
  unfold cplShow
  repeat' first
    | with_reducible assumption
    | with_reducible apply wrB_keeps

theorem dmaCount_keeps {c : Nat} {x : DmaS} {s0 s : State} (hk : Keeps s0 s) : Keeps s0 (dmaCount s c x) := by
  unfold dmaCount
  repeat' first
    | with_reducible assumption
    | (intro)
    | (extract_lets +onlyGivenNames lx; first | (refine keeps_cut lx ?_ (fun _ => ?_); rotate_left; clear_value lx; revert lx; intro y hy; rotate_right; subst lx) | (clear_value lx; revert lx; intro y) | subst lx)
    | with_reducible apply addWrap_keeps
    | with_reducible apply hostWrite_keeps
    | with_reducible apply cplShow_keeps
    | with_reducible apply onlyIf_keeps
    | with_reducible apply raise_keeps
    | split

theorem dmaPull_keeps {c src dst n : Nat} {s0 s : State} (hk : Keeps s0 s) : Keeps s0 (dmaPull s c src dst n) := by
  unfold dmaPull
  repeat' first
    | with_reducible assumption
    | (intro)
    | with_reducible apply each_keeps
    | with_reducible apply wantRead_keeps

theorem dmaPush_keeps {c src dst n : Nat} {s0 s : State} (hk : Keeps s0 s) : Keeps s0 (dmaPush s c src dst n) := by
  unfold dmaPush
  repeat' first
    | with_reducible assumption
    | with_reducible apply laterOnce_keeps
    | simp only [↓keeps_mk]

theorem dmaMove_keeps {c src dst n : Nat} {s0 s : State} (hk : Keeps s0 s) : Keeps s0 (dmaMove s c src dst n) := by
  unfold dmaMove
  repeat' first
    | with_reducible assumption
    | with_reducible apply dmaPull_keeps
    | with_reducible apply hbmWrite_keeps
    | with_reducible apply dmaPush_keeps
    | split

theorem badCheck_keeps {c : Nat} {s0 s : State} (hk : Keeps s0 s) : Keeps s0 (badCheck s c) := by
  unfold badCheck
  repeat' first
    | with_reducible assumption
    | with_reducible apply haltCh_keeps
    | split

theorem issueWrites_keeps  {a0 : Nat} {a2 : Nat} {s0 s : State} (hk : Keeps s0 s) : Keeps s0 (issueWrites a0 s a2) := by
  induction a0 generalizing s a2 with
  | zero => exact hk
  | succ n ih =>
    unfold issueWrites
    repeat' first
      | with_reducible assumption
      | (extract_lets +onlyGivenNames lx; first | (refine keeps_cut lx ?_ (fun _ => ?_); rotate_left; clear_value lx; revert lx; intro y hy; rotate_right; subst lx) | (clear_value lx; revert lx; intro y) | subst lx)
      | with_reducible apply ih
      | with_reducible apply send_keeps
      | with_reducible apply hostWrite_keeps
      | split
      | simp only [↓keeps_mk]

theorem writeTurn_keeps {c : Nat} {s0 s : State} (hk : Keeps s0 s) : Keeps s0 (writeTurn s c) := by
  unfold writeTurn
  repeat' first
    | with_reducible assumption
    | (extract_lets +onlyGivenNames lx; first | (refine keeps_cut lx ?_ (fun _ => ?_); rotate_left; clear_value lx; revert lx; intro y hy; rotate_right; subst lx) | (clear_value lx; revert lx; intro y) | subst lx)
    | with_reducible apply issueWrites_keeps
    | with_reducible apply badCheck_keeps
    | split
    | simp only [↓keeps_mk]

theorem pumpWrites_keeps  {a0 : Nat} {s0 s : State} (hk : Keeps s0 s) : Keeps s0 (pumpWrites a0 s) := by
  induction a0 generalizing s with
  | zero => exact hk
  | succ n ih =>
    unfold pumpWrites
    repeat' first
      | with_reducible assumption
      | (intro)
      | with_reducible apply ih
      | with_reducible apply each_keeps
      | with_reducible apply writeTurn_keeps
      | split

theorem serveHost_keeps  {s0 s : State} (hk : Keeps s0 s) : Keeps s0 (serveHost s) := by
  unfold serveHost
  repeat' first
    | with_reducible assumption
    | (extract_lets +onlyGivenNames lx; first | (refine keeps_cut lx ?_ (fun _ => ?_); rotate_left; clear_value lx; revert lx; intro y hy; rotate_right; subst lx) | (clear_value lx; revert lx; intro y) | subst lx)
    | with_reducible apply serveReads_keeps
    | with_reducible apply pumpWrites_keeps

theorem askIndex_keeps  {a0 : Nat} {a2 : Nat} {s0 s : State} (hk : Keeps s0 s) : Keeps s0 (askIndex a0 s a2) := by
  induction a0 generalizing s a2 with
  | zero => exact hk
  | succ n ih =>
    unfold askIndex
    repeat' first
      | with_reducible assumption
      | (extract_lets +onlyGivenNames lx; first | (refine keeps_cut lx ?_ (fun _ => ?_); rotate_left; clear_value lx; revert lx; intro y hy; rotate_right; subst lx) | (clear_value lx; revert lx; intro y) | subst lx)
      | with_reducible apply ih
      | with_reducible apply wantRead_keeps
      | with_reducible apply setDma_keeps
      | split
      | simp only [↓keeps_mk]

theorem moveElems_keeps  {a0 : Nat} {a2 : Nat} {s0 s : State} (hk : Keeps s0 s) : Keeps s0 (moveElems a0 s a2) := by
  induction a0 generalizing s a2 with
  | zero => exact hk
  | succ n ih =>
    unfold moveElems
    repeat' first
      | with_reducible assumption
      | (extract_lets +onlyGivenNames lx; first | (refine keeps_cut lx ?_ (fun _ => ?_); rotate_left; clear_value lx; revert lx; intro y hy; rotate_right; subst lx) | (clear_value lx; revert lx; intro y) | subst lx)
      | with_reducible apply ih
      | with_reducible apply setDma_keeps
      | with_reducible apply dmaMove_keeps
      | split
      | simp only [↓keeps_mk]

theorem dmaGather_keeps {c : Nat} {s0 s : State} (hk : Keeps s0 s) : Keeps s0 (dmaGather s c) := by
  unfold dmaGather
  repeat' first
    | with_reducible assumption
    | (extract_lets +onlyGivenNames lx; first | (refine keeps_cut lx ?_ (fun _ => ?_); rotate_left; clear_value lx; revert lx; intro y hy; rotate_right; subst lx) | (clear_value lx; revert lx; intro y) | subst lx)
    | with_reducible apply moveElems_keeps
    | with_reducible apply badCheck_keeps
    | with_reducible apply askIndex_keeps
    | split

theorem dmaLoad_keeps {c : Nat} {bytes : List Byte} {s0 s : State} (hk : Keeps s0 s) : Keeps s0 (dmaLoad s c bytes) := by
  unfold dmaLoad
  repeat' first
    | with_reducible assumption
    | (extract_lets +onlyGivenNames lx; first | (refine keeps_cut lx ?_ (fun _ => ?_); rotate_left; clear_value lx; revert lx; intro y hy; rotate_right; subst lx) | (clear_value lx; revert lx; intro y) | subst lx)
    | with_reducible apply haltCh_keeps
    | with_reducible apply setDma_keeps
    | with_reducible apply dmaGather_keeps
    | with_reducible apply dmaMove_keeps
    | split
    | simp only [↓keeps_mk]

theorem dmaFetch_keeps {c : Nat} {s0 s : State} (hk : Keeps s0 s) : Keeps s0 (dmaFetch s c) := by
  unfold dmaFetch
  repeat' first
    | with_reducible assumption
    | (extract_lets +onlyGivenNames lx; first | (refine keeps_cut lx ?_ (fun _ => ?_); rotate_left; clear_value lx; revert lx; intro y hy; rotate_right; subst lx) | (clear_value lx; revert lx; intro y) | subst lx)
    | with_reducible apply haltCh_keeps
    | with_reducible apply dmaLoad_keeps
    | with_reducible apply wantRead_keeps
    | with_reducible apply setDma_keeps
    | split
    | simp only [↓keeps_mk]

theorem dmaStart_keeps {c a : Nat} {s0 s : State} (hk : Keeps s0 s) : Keeps s0 (dmaStart s c a) := by
  unfold dmaStart
  repeat' first
    | with_reducible assumption
    | (extract_lets +onlyGivenNames lx; first | (refine keeps_cut lx ?_ (fun _ => ?_); rotate_left; clear_value lx; revert lx; intro y hy; rotate_right; subst lx) | (clear_value lx; revert lx; intro y) | subst lx)
    | with_reducible apply wr_keeps
    | with_reducible apply setDma_keeps
    | with_reducible apply dmaFetch_keeps
    | split
    | simp only [↓keeps_mk]

theorem dmaFollow_keeps {c a : Nat} {s0 s : State} (hk : Keeps s0 s) : Keeps s0 (dmaFollow s c a) := by
  unfold dmaFollow
  repeat' first
    | with_reducible assumption
    | with_reducible apply haltCh_keeps
    | with_reducible apply dmaStart_keeps
    | split

theorem dmaRefetch_keeps {c : Nat} {ecc : EccResult} {s0 s : State} (hk : Keeps s0 s) : Keeps s0 (dmaRefetch s c ecc) := by
  unfold dmaRefetch
  repeat' first
    | with_reducible assumption
    | (intro)
    | (extract_lets +onlyGivenNames lx; first | (refine keeps_cut lx ?_ (fun _ => ?_); rotate_left; clear_value lx; revert lx; intro y hy; rotate_right; subst lx) | (refine keeps_cutF lx ?_ (fun _ => ?_); rotate_left; clear_value lx; revert lx; intro y hF; rotate_right; subst lx) | (refine keeps_cutG lx ?_ (fun _ => ?_); rotate_left; clear_value lx; revert lx; intro y hG; rotate_right; subst lx) | (refine keeps_cutG' lx ?_ (fun _ => ?_); rotate_left; clear_value lx; revert lx; intro y hG'; rotate_right; subst lx) | (refine keeps_cutH lx ?_ (fun _ => ?_); rotate_left; clear_value lx; revert lx; intro y hH; rotate_right; subst lx) | (refine keeps_cutU lx ?_ (fun _ => ?_); rotate_left; clear_value lx; revert lx; intro y hU; rotate_right; subst lx) | (clear_value lx; revert lx; intro y) | subst lx)
    | with_reducible apply wr_keeps
    | with_reducible apply setDma_keeps
    | with_reducible apply dmaFollow_keeps
    | with_reducible apply wantRead_keeps
    | with_reducible apply dmaStop_keeps
    | with_reducible apply eccCorrected_keeps
    | with_reducible apply uncorrectable_keeps
    | with_reducible apply haltCh_keeps
    | with_reducible apply eccUncorrectable_keeps
    | with_reducible apply hF
    | with_reducible apply hG
    | with_reducible apply hG'
    | with_reducible apply hH
    | with_reducible apply hU
    | split
    | simp only [↓keeps_mk]

theorem dmaPark_keeps {c : Nat} {ecc : EccResult} {s0 s : State} (hk : Keeps s0 s) : Keeps s0 (dmaPark s c ecc) := by
  unfold dmaPark
  repeat' first
    | with_reducible assumption
    | (extract_lets +onlyGivenNames lx; first | (refine keeps_cut lx ?_ (fun _ => ?_); rotate_left; clear_value lx; revert lx; intro y hy; rotate_right; subst lx) | (clear_value lx; revert lx; intro y) | subst lx)
    | with_reducible apply wr_keeps
    | with_reducible apply setDma_keeps
    | with_reducible apply dmaRefetch_keeps
    | split
    | simp only [↓keeps_mk]

theorem dmaFinish_keeps {c : Nat} {ecc : EccResult} {s0 s : State} (hk : Keeps s0 s) : Keeps s0 (dmaFinish s c ecc) := by
  unfold dmaFinish
  repeat' first
    | with_reducible assumption
    | (extract_lets +onlyGivenNames lx; first | (refine keeps_cut lx ?_ (fun _ => ?_); rotate_left; clear_value lx; revert lx; intro y hy; rotate_right; subst lx) | (clear_value lx; revert lx; intro y) | subst lx)
    | with_reducible apply setDma_keeps
    | with_reducible apply dmaCount_keeps
    | with_reducible apply dmaPark_keeps
    | with_reducible apply dmaStart_keeps
    | split
    | simp only [↓keeps_mk]

theorem dmaDoorbell_keeps {c : Nat} {ecc : EccResult} {s0 s : State} (hk : Keeps s0 s) : Keeps s0 (dmaDoorbell c ecc s) := by
  unfold dmaDoorbell
  repeat' first
    | with_reducible assumption
    | with_reducible apply setDma_keeps
    | with_reducible apply dmaStart_keeps
    | with_reducible apply wr_keeps
    | with_reducible apply dmaRefetch_keeps
    | split
    | simp only [↓keeps_mk]

theorem dmaComplete_keeps {t : DmaTouch} {ecc : EccResult} {staging : Bool} {addr : Nat} {s0 s : State} (hk : Keeps s0 s) : Keeps s0 (dmaComplete t ecc staging addr s) := by
  unfold dmaComplete
  repeat' first
    | with_reducible assumption
    | (intro)
    | (extract_lets +onlyGivenNames lx; first | (refine keeps_cut lx ?_ (fun _ => ?_); rotate_left; clear_value lx; revert lx; intro y hy; rotate_right; subst lx) | (refine keeps_cutF lx ?_ (fun _ => ?_); rotate_left; clear_value lx; revert lx; intro y hF; rotate_right; subst lx) | (refine keeps_cutG lx ?_ (fun _ => ?_); rotate_left; clear_value lx; revert lx; intro y hG; rotate_right; subst lx) | (refine keeps_cutG' lx ?_ (fun _ => ?_); rotate_left; clear_value lx; revert lx; intro y hG'; rotate_right; subst lx) | (refine keeps_cutH lx ?_ (fun _ => ?_); rotate_left; clear_value lx; revert lx; intro y hH; rotate_right; subst lx) | (refine keeps_cutU lx ?_ (fun _ => ?_); rotate_left; clear_value lx; revert lx; intro y hU; rotate_right; subst lx) | (clear_value lx; revert lx; intro y) | subst lx)
    | with_reducible apply finish_keeps
    | with_reducible apply wantRead_keeps
    | with_reducible apply setDma_keeps
    | with_reducible apply dmaFinish_keeps
    | with_reducible apply eccCorrected_keeps
    | with_reducible apply uncorrectable_keeps
    | with_reducible apply haltCh_keeps
    | with_reducible apply eccUncorrectable_keeps
    | with_reducible apply hF
    | with_reducible apply hG
    | with_reducible apply hG'
    | with_reducible apply hH
    | with_reducible apply hU
    | split
    | simp only [↓keeps_mk]

theorem dmaBarrierDone_keeps {c : Nat} {ecc : EccResult} {s0 s : State} (hk : Keeps s0 s) : Keeps s0 (dmaBarrierDone s c ecc) := by
  unfold dmaBarrierDone
  repeat' first
    | with_reducible assumption
    | with_reducible apply dmaFinish_keeps
    | split

theorem barrierComplete_keeps {c : Nat} {ecc : EccResult} {s0 s : State} (hk : Keeps s0 s) : Keeps s0 (barrierComplete c ecc s) := by
  unfold barrierComplete
  repeat' first
    | with_reducible assumption
    | (intro)
    | (extract_lets +onlyGivenNames lx; first | ((first | refine keeps_cut lx ?_ (fun _ => ?_) | refine keeps_cut1 lx ?_ (fun _ => ?_) | refine keeps_cut2 lx ?_ (fun _ => ?_)); rotate_left; clear_value lx; revert lx; intro y hy; rotate_right; subst lx) | (refine keeps_cutF lx ?_ (fun _ => ?_); rotate_left; clear_value lx; revert lx; intro y hF; rotate_right; subst lx) | (refine keeps_cutG lx ?_ (fun _ => ?_); rotate_left; clear_value lx; revert lx; intro y hG; rotate_right; subst lx) | (refine keeps_cutG' lx ?_ (fun _ => ?_); rotate_left; clear_value lx; revert lx; intro y hG'; rotate_right; subst lx) | (refine keeps_cutH lx ?_ (fun _ => ?_); rotate_left; clear_value lx; revert lx; intro y hH; rotate_right; subst lx) | (refine keeps_cutU lx ?_ (fun _ => ?_); rotate_left; clear_value lx; revert lx; intro y hU; rotate_right; subst lx) | (clear_value lx; revert lx; intro y) | subst lx)
    | with_reducible apply drainShow_keeps
    | with_reducible apply laterOnce_keeps
    | with_reducible apply dmaBarrierDone_keeps
    | with_reducible apply hF
    | with_reducible apply hG
    | with_reducible apply hG'
    | with_reducible apply hH
    | with_reducible apply hU
    | split
    | simp only [↓keeps_mk]

theorem dmaArrive_keeps {who : Requester} {addr : Nat} {data : List Byte} {s0 s : State} (hk : Keeps s0 s) : Keeps s0 (dmaArrive s who addr data) := by
  unfold dmaArrive
  repeat' first
    | with_reducible assumption
    | (intro)
    | (extract_lets +onlyGivenNames lx; first | (refine keeps_cut lx ?_ (fun _ => ?_); rotate_left; clear_value lx; revert lx; intro y hy; rotate_right; subst lx) | (refine keeps_cutF lx ?_ (fun _ => ?_); rotate_left; clear_value lx; revert lx; intro y hF; rotate_right; subst lx) | (refine keeps_cutG lx ?_ (fun _ => ?_); rotate_left; clear_value lx; revert lx; intro y hG; rotate_right; subst lx) | (refine keeps_cutG' lx ?_ (fun _ => ?_); rotate_left; clear_value lx; revert lx; intro y hG'; rotate_right; subst lx) | (refine keeps_cutH lx ?_ (fun _ => ?_); rotate_left; clear_value lx; revert lx; intro y hH; rotate_right; subst lx) | (refine keeps_cutU lx ?_ (fun _ => ?_); rotate_left; clear_value lx; revert lx; intro y hU; rotate_right; subst lx) | (clear_value lx; revert lx; intro y) | subst lx)
    | with_reducible apply dmaLoad_keeps
    | with_reducible apply dmaStop_keeps
    | with_reducible apply dmaPark_keeps
    | with_reducible apply wantRead_keeps
    | with_reducible apply setDma_keeps
    | with_reducible apply dmaFollow_keeps
    | with_reducible apply badCheck_keeps
    | with_reducible apply hbmWrite_keeps
    | with_reducible apply dmaGather_keeps
    | with_reducible apply dmaBarrierDone_keeps
    | with_reducible apply foldl_keeps
    | with_reducible apply hF
    | with_reducible apply hG
    | with_reducible apply hG'
    | with_reducible apply hH
    | with_reducible apply hU
    | split
    | simp only [↓keeps_mk]

theorem dmaHeadWrite_keeps {c v : Nat} {s0 s : State} (hk : Keeps s0 s) : Keeps s0 (dmaHeadWrite c v s) := by
  unfold dmaHeadWrite
  repeat' first
    | with_reducible assumption
    | (extract_lets +onlyGivenNames lx; first | (refine keeps_cut lx ?_ (fun _ => ?_); rotate_left; clear_value lx; revert lx; intro y hy; rotate_right; subst lx) | (clear_value lx; revert lx; intro y) | subst lx)
    | with_reducible apply wr_keeps
    | split

theorem dmaRestart_keeps {c : Nat} {s0 s : State} (hk : Keeps s0 s) : Keeps s0 (dmaRestart c s) := by
  unfold dmaRestart
  repeat' first
    | with_reducible assumption
    | (extract_lets +onlyGivenNames lx; first | (refine keeps_cut lx ?_ (fun _ => ?_); rotate_left; clear_value lx; revert lx; intro y hy; rotate_right; subst lx) | (clear_value lx; revert lx; intro y) | subst lx)
    | with_reducible apply wr_keeps
    | with_reducible apply setDma_keeps
    | with_reducible apply raise_keeps
    | split

theorem engineHaltClear_keeps  {s0 s : State} (hk : Keeps s0 s) : Keeps s0 (engineHaltClear s) := by
  unfold engineHaltClear
  repeat' first
    | with_reducible assumption
    | with_reducible apply wr_keeps
    | split

theorem dmaCfgWrite_keeps {c a v : Nat} {s0 s : State} (hk : Keeps s0 s) : Keeps s0 (dmaCfgWrite c a v s) := by
  unfold dmaCfgWrite
  repeat' first
    | with_reducible assumption
    | with_reducible apply setReg_keeps
    | with_reducible apply wr_keeps
    | split

theorem dmaTry_keeps {c : Nat} {s0 s : State} (hk : Keeps s0 s) : Keeps s0 (dmaTry s c) := by
  unfold dmaTry
  repeat' first
    | with_reducible assumption
    | with_reducible apply dmaFetch_keeps
    | split

theorem dmaCiWrite_keeps {c v : Nat} {s0 s : State} (hk : Keeps s0 s) : Keeps s0 (dmaCiWrite c v s) := by
  unfold dmaCiWrite
  repeat' first
    | with_reducible assumption
    | with_reducible apply dmaTry_keeps
    | with_reducible apply cplShow_keeps
    | with_reducible apply wr_keeps

theorem dmaWake_keeps  {s0 s : State} (hk : Keeps s0 s) : Keeps s0 (dmaWake s) := by
  unfold dmaWake
  repeat' first
    | with_reducible assumption
    | (intro)
    | (extract_lets +onlyGivenNames lx; first | (refine keeps_cut lx ?_ (fun _ => ?_); rotate_left; clear_value lx; revert lx; intro y hy; rotate_right; subst lx) | (clear_value lx; revert lx; intro y) | subst lx)
    | with_reducible apply each_keeps
    | with_reducible apply dmaStart_keeps
    | with_reducible apply setDma_keeps
    | with_reducible apply dmaTry_keeps
    | with_reducible apply dmaRefetch_keeps
    | split
    | simp only [↓keeps_mk]

theorem dmaEnabled_keeps {c : Nat} {s0 s : State} (hk : Keeps s0 s) : Keeps s0 (dmaEnabled s c) := by
  unfold dmaEnabled
  repeat' first
    | with_reducible assumption
    | with_reducible apply dmaStop_keeps
    | split

theorem dmaFresh_keeps {c : Nat} {s0 s : State} (hk : Keeps s0 s) : Keeps s0 (dmaFresh s c) := by
  unfold dmaFresh
  repeat' first
    | with_reducible assumption
    | with_reducible apply cplShow_keeps
    | with_reducible apply wr_keeps
    | with_reducible apply setDma_keeps

theorem dmaOffShow_keeps {c : Nat} {s0 s : State} (hk : Keeps s0 s) : Keeps s0 (dmaOffShow s c) := by
  unfold dmaOffShow
  repeat' first
    | with_reducible assumption
    | with_reducible apply wr_keeps
    | with_reducible apply setDma_keeps
    | with_reducible apply dropReads_keeps

theorem nonPosted_keeps {bit : Nat} {head : List Nat} {s0 s : State} (hk : Keeps s0 s) : Keeps s0 (nonPosted s bit head) := by
  unfold nonPosted
  repeat' first
    | with_reducible assumption
    | with_reducible apply uncorrectable_keeps
    | with_reducible apply advisory_keeps
    | split

theorem unsupported_keeps {posted : Bool} {head : List Nat} {s0 s : State} (hk : Keeps s0 s) : Keeps s0 (unsupported s posted head) := by
  unfold unsupported
  repeat' first
    | with_reducible assumption
    | (extract_lets +onlyGivenNames lx; first | (refine keeps_cut lx ?_ (fun _ => ?_); rotate_left; clear_value lx; revert lx; intro y hy; rotate_right; subst lx) | (clear_value lx; revert lx; intro y) | subst lx)
    | with_reducible apply cfgOr_keeps
    | with_reducible apply uncorrectable_keeps
    | with_reducible apply send_keeps
    | with_reducible apply nonPosted_keeps
    | with_reducible apply addSat_keeps
    | split

theorem completerAbort_keeps {head : List Nat} {s0 s : State} (hk : Keeps s0 s) : Keeps s0 (completerAbort s head) := by
  unfold completerAbort
  repeat' first
    | with_reducible assumption
    | with_reducible apply send_keeps
    | with_reducible apply nonPosted_keeps
    | with_reducible apply cfgOr_keeps

theorem poisonedTlp_keeps {cpl : Bool} {head : List Nat} {s0 s : State} (hk : Keeps s0 s) : Keeps s0 (poisonedTlp s cpl head) := by
  unfold poisonedTlp
  repeat' first
    | with_reducible assumption
    | with_reducible apply advisory_keeps
    | with_reducible apply cfgOr_keeps
    | split

theorem deliverRead_keeps {r : ReadReqS} {s0 s : State} (hk : Keeps s0 s) : Keeps s0 (deliverRead s r) := by
  unfold deliverRead
  repeat' first
    | with_reducible assumption
    | with_reducible apply descsArrive_keeps
    | with_reducible apply dmaArrive_keeps
    | split
    | simp only [↓keeps_mk]

theorem deliverReady_keeps  {a0 : Nat} {s0 s : State} (hk : Keeps s0 s) : Keeps s0 (deliverReady a0 s) := by
  induction a0 generalizing s with
  | zero => exact hk
  | succ n ih =>
    unfold deliverReady
    repeat' first
      | with_reducible assumption
      | (intro)
      | (extract_lets +onlyGivenNames lx; first | ((first | refine keeps_cut lx ?_ (fun _ => ?_) | refine keeps_cut2 lx ?_ (fun _ => ?_)); rotate_left; clear_value lx; revert lx; intro y hy; rotate_right; subst lx) | (refine keeps_cutF lx ?_ (fun _ => ?_); rotate_left; clear_value lx; revert lx; intro y hF; rotate_right; subst lx) | (refine keeps_cutG lx ?_ (fun _ => ?_); rotate_left; clear_value lx; revert lx; intro y hG; rotate_right; subst lx) | (refine keeps_cutG' lx ?_ (fun _ => ?_); rotate_left; clear_value lx; revert lx; intro y hG'; rotate_right; subst lx) | (refine keeps_cutH lx ?_ (fun _ => ?_); rotate_left; clear_value lx; revert lx; intro y hH; rotate_right; subst lx) | (refine keeps_cutU lx ?_ (fun _ => ?_); rotate_left; clear_value lx; revert lx; intro y hU; rotate_right; subst lx) | (clear_value lx; revert lx; intro y) | subst lx)
      | with_reducible apply ih
      | with_reducible apply deliverRead_keeps
      | with_reducible apply hF
      | with_reducible apply hG
      | with_reducible apply hG'
      | with_reducible apply hH
      | with_reducible apply hU
      | split
      | simp only [↓keeps_mk]

theorem dropTag_keeps {t : Nat} {s0 s : State} (hk : Keeps s0 s) : Keeps s0 (dropTag s t) := by
  unfold dropTag
  repeat' first
    | with_reducible assumption
    | (intro)
    | with_reducible apply laterOnce_keeps
    | simp only [↓keeps_mk]

theorem readDone_keeps {t : Nat} {r : ReadReqS} {s0 s : State} (hk : Keeps s0 s) : Keeps s0 (readDone s t r) := by
  unfold readDone
  repeat' first
    | with_reducible assumption
    | (extract_lets +onlyGivenNames lx; first | (refine keeps_cut lx ?_ (fun _ => ?_); rotate_left; clear_value lx; revert lx; intro y hy; rotate_right; subst lx) | (clear_value lx; revert lx; intro y) | subst lx)
    | with_reducible apply drainShow_keeps
    | with_reducible apply dropTag_keeps
    | with_reducible apply deliverReady_keeps
    | split
    | simp only [↓keeps_mk]

theorem readFailed_keeps {r : ReadReqS} {cause : Nat} {s0 s : State} (hk : Keeps s0 s) : Keeps s0 (readFailed s r cause) := by
  unfold readFailed
  repeat' first
    | with_reducible assumption
    | with_reducible apply queueFault_keeps
    | with_reducible apply engineHalt_keeps
    | split
    | simp only [↓keeps_mk]

theorem strayCompletion_keeps {t : Nat} {x : Cpl} {s0 s : State} (hk : Keeps s0 s) : Keeps s0 (strayCompletion s t x) := by
  unfold strayCompletion
  repeat' first
    | with_reducible assumption
    | (extract_lets +onlyGivenNames lx; first | (refine keeps_cut lx ?_ (fun _ => ?_); rotate_left; clear_value lx; revert lx; intro y hy; rotate_right; subst lx) | (clear_value lx; revert lx; intro y) | subst lx)
    | with_reducible apply advisory_keeps
    | with_reducible apply laterOnce_keeps
    | with_reducible apply raise_keeps
    | with_reducible apply addSat_keeps
    | split
    | simp only [↓keeps_mk]

theorem completionReceive_keeps {t : Nat} {x : Cpl} {s0 s : State} (hk : Keeps s0 s) : Keeps s0 (completionReceive t x s) := by
  unfold completionReceive
  repeat' first
    | with_reducible assumption
    | (intro)
    | (extract_lets +onlyGivenNames lx; first | ((first | refine keeps_cut lx ?_ (fun _ => ?_) | refine keeps_cut1 lx ?_ (fun _ => ?_)); rotate_left; clear_value lx; revert lx; intro y hy; rotate_right; subst lx) | (clear_value lx; revert lx; intro y) | subst lx)
    | with_reducible apply strayCompletion_keeps
    | with_reducible apply unsupported_keeps
    | with_reducible apply readFailed_keeps
    | with_reducible apply dropTag_keeps
    | with_reducible apply cfgOr_keeps
    | with_reducible apply poisonedTlp_keeps
    | with_reducible apply readDone_keeps
    | split
    | simp only [↓keeps_mk]

theorem completionTimeout_keeps {t : Nat} {s0 s : State} (hk : Keeps s0 s) : Keeps s0 (completionTimeout t s) := by
  unfold completionTimeout
  repeat' first
    | with_reducible assumption
    | (intro)
    | (extract_lets +onlyGivenNames lx; first | ((first | refine keeps_cut lx ?_ (fun _ => ?_) | refine keeps_cut1 lx ?_ (fun _ => ?_)); rotate_left; clear_value lx; revert lx; intro y hy; rotate_right; subst lx) | (clear_value lx; revert lx; intro y) | subst lx)
    | with_reducible apply windowInc_keeps
    | with_reducible apply addSat_keeps
    | with_reducible apply uncorrectable_keeps
    | with_reducible apply dropTag_keeps
    | with_reducible apply readFailed_keeps
    | split
    | simp only [↓keeps_mk]

theorem quarantineExpire_keeps {t : Nat} {s0 s : State} (hk : Keeps s0 s) : Keeps s0 (quarantineExpire t s) := by
  unfold quarantineExpire
  repeat' first
    | with_reducible assumption
    | with_reducible apply laterOnce_keeps
    | simp only [↓keeps_mk]

theorem masterOff_keeps  {s0 s : State} (hk : Keeps s0 s) : Keeps s0 (masterOff s) := by
  unfold masterOff
  repeat' first
    | with_reducible assumption
    | with_reducible apply dmaOff_keeps
    | with_reducible apply deliveryOff_keeps

theorem setBme_keeps {v : Bool} {s0 s : State} (hk : Keeps s0 s) : Keeps s0 (setBme v s) := by
  unfold setBme
  repeat' first
    | with_reducible assumption
    | (extract_lets +onlyGivenNames lx; first | (refine keeps_cut lx ?_ (fun _ => ?_); rotate_left; clear_value lx; revert lx; intro y hy; rotate_right; subst lx) | (clear_value lx; revert lx; intro y) | subst lx)
    | with_reducible apply cfgSet_keeps
    | with_reducible apply masterOff_keeps
    | with_reducible apply laterOnce_keeps
    | with_reducible apply flushPending_keeps
    | split

theorem busMasterClear_keeps  {s0 s : State} (hk : Keeps s0 s) : Keeps s0 (busMasterClear s) := by
  unfold busMasterClear
  repeat' first
    | with_reducible assumption
    | with_reducible apply setBme_keeps

theorem powerState_keeps {d3 : Bool} {s0 s : State} (hk : Keeps s0 s) : Keeps s0 (powerState d3 s) := by
  unfold powerState
  repeat' first
    | with_reducible assumption
    | (extract_lets +onlyGivenNames lx; first | (refine keeps_cut lx ?_ (fun _ => ?_); rotate_left; clear_value lx; revert lx; intro y hy; rotate_right; subst lx) | (clear_value lx; revert lx; intro y) | subst lx)
    | with_reducible apply cfgSet_keeps
    | with_reducible apply masterOff_keeps
    | with_reducible apply laterOnce_keeps
    | with_reducible apply flushPending_keeps
    | split

theorem vectorUnmask_keeps {v : Nat} {s0 s : State} (hk : Keeps s0 s) : Keeps s0 (vectorUnmask v s) := by
  unfold vectorUnmask
  repeat' first
    | with_reducible assumption
    | (extract_lets +onlyGivenNames lx; first | (refine keeps_cut lx ?_ (fun _ => ?_); rotate_left; clear_value lx; revert lx; intro y hy; rotate_right; subst lx) | (clear_value lx; revert lx; intro y) | subst lx)
    | with_reducible apply cfgSet_keeps
    | with_reducible apply msixSet_keeps
    | with_reducible apply flushPending_keeps
    | split

theorem cfgPut_keeps {o be v : Nat} {s0 s : State} (hk : Keeps s0 s) : Keeps s0 (cfgPut s o be v) := by
  unfold cfgPut
  repeat' first
    | with_reducible assumption
    | (extract_lets +onlyGivenNames lx; first | (refine keeps_cut lx ?_ (fun _ => ?_); rotate_left; clear_value lx; revert lx; intro y hy; rotate_right; subst lx) | (clear_value lx; revert lx; intro y) | subst lx)
    | with_reducible apply cfgSet_keeps
    | split

theorem marginRun_keeps {o : Nat} {s0 s : State} (hk : Keeps s0 s) : Keeps s0 (marginRun s o) := by
  unfold marginRun
  repeat' first
    | with_reducible assumption
    | (extract_lets +onlyGivenNames lx; first | (refine keeps_cut lx ?_ (fun _ => ?_); rotate_left; clear_value lx; revert lx; intro y hy; rotate_right; subst lx) | (clear_value lx; revert lx; intro y) | subst lx)
    | with_reducible apply cfgSet_keeps
    | with_reducible apply freeNext_keeps
    | split
    | simp only [↓keeps_mk]

theorem cfgWrite_keeps {o be v : Nat} {s0 s : State} (hk : Keeps s0 s) : Keeps s0 (cfgWrite s o be v) := by
  unfold cfgWrite
  repeat' first
    | with_reducible assumption
    | (extract_lets +onlyGivenNames lx; first | (refine keeps_cut lx ?_ (fun _ => ?_); rotate_left; clear_value lx; revert lx; intro y hy; rotate_right; subst lx) | (clear_value lx; revert lx; intro y) | subst lx)
    | with_reducible apply cfgPut_keeps
    | with_reducible apply laterOnce_keeps
    | with_reducible apply masterOff_keeps
    | with_reducible apply updateInta_keeps
    | with_reducible apply flushPending_keeps
    | with_reducible apply marginRun_keeps
    | split

theorem configRequest_keeps {c : CfgReq} {s0 s : State} (hk : Keeps s0 s) : Keeps s0 (configRequest c s) := by
  unfold configRequest
  repeat' first
    | with_reducible assumption
    | (extract_lets +onlyGivenNames lx; first | (refine keeps_cut lx ?_ (fun _ => ?_); rotate_left; clear_value lx; revert lx; intro y hy; rotate_right; subst lx) | (clear_value lx; revert lx; intro y) | subst lx)
    | with_reducible apply unsupported_keeps
    | with_reducible apply send_keeps
    | with_reducible apply cfgWrite_keeps
    | split

theorem l0sIdle_keeps  {s0 s : State} (hk : Keeps s0 s) : Keeps s0 (l0sIdle s) := by
  unfold l0sIdle
  repeat' first
    | with_reducible assumption
    | with_reducible apply send_keeps
    | with_reducible apply wr_keeps
    | split

theorem l1Idle_keeps  {s0 s : State} (hk : Keeps s0 s) : Keeps s0 (l1Idle s) := by
  unfold l1Idle
  repeat' first
    | with_reducible assumption
    | with_reducible apply send_keeps
    | split

theorem linkFlag_keeps {f : FRef} {s0 s : State} (hk : Keeps s0 s) : Keeps s0 (linkFlag s f) := by
  unfold linkFlag
  repeat' first
    | with_reducible assumption
    | with_reducible apply raise_keeps
    | with_reducible apply wr_keeps
    | split

theorem linkState_keeps {speed width : Nat} {flit up : Bool} {ltssm : Nat} {s0 s : State} (hk : Keeps s0 s) : Keeps s0 (linkState s speed width flit up ltssm) := by
  unfold linkState
  repeat' first
    | with_reducible assumption
    | (intro)
    | (extract_lets +onlyGivenNames lx; first | (refine keeps_cut lx ?_ (fun _ => ?_); rotate_left; clear_value lx; revert lx; intro y hy; rotate_right; subst lx) | (refine keeps_cutF lx ?_ (fun _ => ?_); rotate_left; clear_value lx; revert lx; intro y hF; rotate_right; subst lx) | (refine keeps_cutG lx ?_ (fun _ => ?_); rotate_left; clear_value lx; revert lx; intro y hG; rotate_right; subst lx) | (refine keeps_cutG' lx ?_ (fun _ => ?_); rotate_left; clear_value lx; revert lx; intro y hG'; rotate_right; subst lx) | (refine keeps_cutH lx ?_ (fun _ => ?_); rotate_left; clear_value lx; revert lx; intro y hH; rotate_right; subst lx) | (refine keeps_cutU lx ?_ (fun _ => ?_); rotate_left; clear_value lx; revert lx; intro y hU; rotate_right; subst lx) | (clear_value lx; revert lx; intro y) | subst lx)
    | with_reducible apply onlyIf_keeps
    | with_reducible apply linkFlag_keeps
    | with_reducible apply addSat_keeps
    | with_reducible apply wr_keeps
    | with_reducible apply wrB_keeps
    | with_reducible apply hF
    | with_reducible apply hG
    | with_reducible apply hG'
    | with_reducible apply hH
    | with_reducible apply hU

theorem linkRetrain_keeps  {s0 s : State} (hk : Keeps s0 s) : Keeps s0 (linkRetrain s) := by
  unfold linkRetrain
  repeat' first
    | with_reducible assumption
    | with_reducible apply send_keeps

theorem keyCut_keeps  {s0 s : State} (hk : Keeps s0 s) : Keeps s0 (keyCut s) := by
  unfold keyCut
  repeat' first
    | with_reducible assumption
    | with_reducible apply wr_keeps
    | split
    | simp only [↓keeps_mk]

theorem regsKeep_wf (s : State) (keep : Nat → Nat) : mwf regReset (regsKeep s keep) = true := by
  have all : ∀ (l m : List (Nat × DWord)), mwf regReset m = true →
      mwf regReset (l.foldl (fun m p => mput (regReset p.1) m p.1 (mixReset p.1 p.2 (keep p.1))) m) = true := by
    intro l
    induction l with
    | nil => intro m h; exact h
    | cons p l ih => intro m h; exact ih _ (mput_wf regReset m p.1 _ h)
  exact all s.regs [] rfl

theorem resetMain_keeps {s0 s : State} (hk : Keeps s0 s) : Keeps s0 (resetMain s) := by
  unfold resetMain
  extract_lets t rc u v w
  have ht : Keeps s0 t := each_keeps (fun _ _ h => firmwareCut_keeps h) (keyCut_keeps hk)
  have hu : Keeps s0 u := { ht with soundKept := fun _ => ⟨⟨rfl, rfl⟩, regsKeep_wf t keepMask, rfl, rfl⟩ }
  exact keeps_of (wrB_keeps (wr_keeps hu)) ⟨rfl, rfl, rfl, rfl, rfl, rfl, rfl, rfl, rfl⟩

theorem seedTrail_keeps {p : Nat} {s0 s : State} (hk : Keeps s0 s) : Keeps s0 (seedTrail s p) := by
  unfold seedTrail
  repeat' first
    | with_reducible assumption
    | (intro)
    | (extract_lets +onlyGivenNames lx; first | ((first | refine keeps_cut lx ?_ (fun _ => ?_) | refine keeps_cut1 lx ?_ (fun _ => ?_) | refine keeps_cut2 lx ?_ (fun _ => ?_)); rotate_left; clear_value lx; revert lx; intro y hy; rotate_right; subst lx) | (refine keeps_cutF lx ?_ (fun _ => ?_); rotate_left; clear_value lx; revert lx; intro y hF; rotate_right; subst lx) | (refine keeps_cutG lx ?_ (fun _ => ?_); rotate_left; clear_value lx; revert lx; intro y hG; rotate_right; subst lx) | (refine keeps_cutG' lx ?_ (fun _ => ?_); rotate_left; clear_value lx; revert lx; intro y hG'; rotate_right; subst lx) | (refine keeps_cutH lx ?_ (fun _ => ?_); rotate_left; clear_value lx; revert lx; intro y hH; rotate_right; subst lx) | (refine keeps_cutU lx ?_ (fun _ => ?_); rotate_left; clear_value lx; revert lx; intro y hU; rotate_right; subst lx) | (clear_value lx; revert lx; intro y) | subst lx)
    | with_reducible apply wrB_keeps
    | with_reducible apply onlyIf_keeps
    | with_reducible apply wr_keeps
    | with_reducible apply setTrl_keeps
    | with_reducible apply serialStart_keeps
    | with_reducible apply hF
    | with_reducible apply hG
    | with_reducible apply hG'
    | with_reducible apply hH
    | with_reducible apply hU
    | split

theorem rebreak_keeps {p : Nat} {s0 s : State} (hk : Keeps s0 s) : Keeps s0 (rebreak s p) := by
  unfold rebreak
  repeat' first
    | with_reducible assumption
    | (intro)
    | (extract_lets +onlyGivenNames lx; first | (refine keeps_cut lx ?_ (fun _ => ?_); rotate_left; clear_value lx; revert lx; intro y hy; rotate_right; subst lx) | (clear_value lx; revert lx; intro y) | subst lx)
    | with_reducible apply wr_keeps
    | with_reducible apply onlyIf_keeps
    | with_reducible apply lineBreakEnter_keeps

theorem heldInBoot_keeps  {s0 s : State} (hk : Keeps s0 s) : Keeps s0 (heldInBoot s) := by
  unfold heldInBoot
  repeat' first
    | with_reducible assumption
    | (extract_lets +onlyGivenNames lx; first | (refine keeps_cut lx ?_ (fun _ => ?_); rotate_left; clear_value lx; revert lx; intro y hy; rotate_right; subst lx) | (clear_value lx; revert lx; intro y) | subst lx)
    | with_reducible apply wr_keeps

theorem headerLoad_keeps {rom : List Byte} {s0 s : State} (hk : Keeps s0 s) : Keeps s0 (headerLoad s rom) := by
  unfold headerLoad
  repeat' first
    | with_reducible assumption
    | (intro)
    | (extract_lets +onlyGivenNames lx; first | ((first | refine keeps_cut lx ?_ (fun _ => ?_) | refine keeps_cut1 lx ?_ (fun _ => ?_) | refine keeps_cut2 lx ?_ (fun _ => ?_)); rotate_left; clear_value lx; revert lx; intro y hy; rotate_right; subst lx) | (refine keeps_cutF lx ?_ (fun _ => ?_); rotate_left; clear_value lx; revert lx; intro y hF; rotate_right; subst lx) | (refine keeps_cutG lx ?_ (fun _ => ?_); rotate_left; clear_value lx; revert lx; intro y hG; rotate_right; subst lx) | (refine keeps_cutG' lx ?_ (fun _ => ?_); rotate_left; clear_value lx; revert lx; intro y hG'; rotate_right; subst lx) | (refine keeps_cutH lx ?_ (fun _ => ?_); rotate_left; clear_value lx; revert lx; intro y hH; rotate_right; subst lx) | (refine keeps_cutU lx ?_ (fun _ => ?_); rotate_left; clear_value lx; revert lx; intro y hU; rotate_right; subst lx) | (clear_value lx; revert lx; intro y) | subst lx)
    | with_reducible apply wr_keeps
    | with_reducible apply foldl_keeps
    | with_reducible apply hF
    | with_reducible apply hG
    | with_reducible apply hG'
    | with_reducible apply hH
    | with_reducible apply hU
    | split
    | simp only [↓keeps_mk]

theorem bootStart_keeps  {s0 s : State} (hk : Keeps s0 s) : Keeps s0 (bootStart s) := by
  unfold bootStart
  repeat' first
    | with_reducible assumption
    | (intro)
    | (extract_lets +onlyGivenNames lx; first | ((first | refine keeps_cut lx ?_ (fun _ => ?_) | refine keeps_cut1 lx ?_ (fun _ => ?_) | refine keeps_cut2 lx ?_ (fun _ => ?_)); rotate_left; clear_value lx; revert lx; intro y hy; rotate_right; subst lx) | (refine keeps_cutF lx ?_ (fun _ => ?_); rotate_left; clear_value lx; revert lx; intro y hF; rotate_right; subst lx) | (refine keeps_cutG lx ?_ (fun _ => ?_); rotate_left; clear_value lx; revert lx; intro y hG; rotate_right; subst lx) | (refine keeps_cutG' lx ?_ (fun _ => ?_); rotate_left; clear_value lx; revert lx; intro y hG'; rotate_right; subst lx) | (refine keeps_cutH lx ?_ (fun _ => ?_); rotate_left; clear_value lx; revert lx; intro y hH; rotate_right; subst lx) | (refine keeps_cutU lx ?_ (fun _ => ?_); rotate_left; clear_value lx; revert lx; intro y hU; rotate_right; subst lx) | (clear_value lx; revert lx; intro y) | subst lx)
    | with_reducible apply wrB_keeps
    | with_reducible apply wr_keeps
    | with_reducible apply each_keeps
    | with_reducible apply rebreak_keeps
    | with_reducible apply seedTrail_keeps
    | with_reducible apply gylSetEn_keeps
    | with_reducible apply headerLoad_keeps
    | with_reducible apply heldInBoot_keeps
    | with_reducible apply hF
    | with_reducible apply hG
    | with_reducible apply hG'
    | with_reducible apply hH
    | with_reducible apply hU
    | split
    | simp only [↓keeps_mk]

theorem tryBoot_keeps  {s0 s : State} (hk : Keeps s0 s) : Keeps s0 (tryBoot s) := by
  unfold tryBoot
  repeat' first
    | with_reducible assumption
    | (intro)
    | (extract_lets +onlyGivenNames lx; first | (refine keeps_cut lx ?_ (fun _ => ?_); rotate_left; clear_value lx; revert lx; intro y hy; rotate_right; subst lx) | (clear_value lx; revert lx; intro y) | subst lx)
    | with_reducible apply each_keeps
    | with_reducible apply windowAct_keeps
    | with_reducible apply bootStart_keeps
    | split

theorem enterReset_keeps  {s0 s : State} (hk : Keeps s0 s) : Keeps s0 (enterReset s) := by
  unfold enterReset
  repeat' first
    | with_reducible assumption
    | with_reducible apply tryBoot_keeps
    | with_reducible apply resetMain_keeps

theorem askReset_keeps  {s0 s : State} (hk : Keeps s0 s) : Keeps s0 (askReset s) := by
  unfold askReset
  repeat' first
    | with_reducible assumption
    | with_reducible apply resetFlush_keeps
    | split

theorem perstAssert_keeps  {s0 s : State} (hk : Keeps s0 s) : Keeps s0 (perstAssert s) := by
  unfold perstAssert
  repeat' first
    | with_reducible assumption
    | with_reducible apply askReset_keeps
    | simp only [↓keeps_mk]

theorem hotReset_keeps  {s0 s : State} (hk : Keeps s0 s) : Keeps s0 (hotReset s) := by
  unfold hotReset
  repeat' first
    | with_reducible assumption
    | with_reducible apply askReset_keeps
    | split
    | simp only [↓keeps_mk]

theorem dlDown_keeps  {s0 s : State} (hk : Keeps s0 s) : Keeps s0 (dlDown s) := by
  unfold dlDown
  repeat' first
    | with_reducible assumption
    | with_reducible apply hotReset_keeps
    | with_reducible apply wr_keeps
    | split

theorem resetHoldEnd_keeps  {s0 s : State} (hk : Keeps s0 s) : Keeps s0 (resetHoldEnd s) := by
  unfold resetHoldEnd
  repeat' first
    | with_reducible assumption
    | with_reducible apply tryBoot_keeps
    | split
    | simp only [↓keeps_mk]

theorem perstDeassert_keeps {role wid : Nat} {s0 s : State} (hk : Keeps s0 s) : Keeps s0 (perstDeassert role wid s) := by
  unfold perstDeassert
  repeat' first
    | with_reducible assumption
    | with_reducible apply tryBoot_keeps
    | simp only [↓keeps_mk]

theorem slotsCheck_keeps {bad : Nat} {s0 s : State} (hk : Keeps s0 s) : Keeps s0 (slotsCheck s bad) := by
  unfold slotsCheck
  repeat' first
    | with_reducible assumption
    | (intro)
    | (extract_lets +onlyGivenNames lx; first | (refine keeps_cut lx ?_ (fun _ => ?_); rotate_left; clear_value lx; revert lx; intro y hy; rotate_right; subst lx) | (clear_value lx; revert lx; intro y) | subst lx)
    | with_reducible apply each_keeps
    | with_reducible apply wr_keeps
    | split

theorem bootShow_keeps {x : BootImage} {s0 s : State} (hk : Keeps s0 s) : Keeps s0 (bootShow s x) := by
  unfold bootShow
  repeat' first
    | with_reducible assumption
    | (intro)
    | (extract_lets +onlyGivenNames lx; first | (refine keeps_cut lx ?_ (fun _ => ?_); rotate_left; clear_value lx; revert lx; intro y hy; rotate_right; subst lx) | (refine keeps_cutF lx ?_ (fun _ => ?_); rotate_left; clear_value lx; revert lx; intro y hF; rotate_right; subst lx) | (refine keeps_cutG lx ?_ (fun _ => ?_); rotate_left; clear_value lx; revert lx; intro y hG; rotate_right; subst lx) | (refine keeps_cutG' lx ?_ (fun _ => ?_); rotate_left; clear_value lx; revert lx; intro y hG'; rotate_right; subst lx) | (refine keeps_cutH lx ?_ (fun _ => ?_); rotate_left; clear_value lx; revert lx; intro y hH; rotate_right; subst lx) | (refine keeps_cutU lx ?_ (fun _ => ?_); rotate_left; clear_value lx; revert lx; intro y hU; rotate_right; subst lx) | (clear_value lx; revert lx; intro y) | subst lx)
    | with_reducible apply wrB_keeps
    | with_reducible apply wr_keeps
    | with_reducible apply onlyIf_keeps
    | with_reducible apply hF
    | with_reducible apply hG
    | with_reducible apply hG'
    | with_reducible apply hH
    | with_reducible apply hU

theorem bootLoad_keeps {x : BootImage} {s0 s : State} (hk : Keeps s0 s) : Keeps s0 (bootLoad s x) := by
  unfold bootLoad
  repeat' first
    | with_reducible assumption
    | (intro)
    | (extract_lets +onlyGivenNames lx; first | ((first | refine keeps_cut lx ?_ (fun _ => ?_) | refine keeps_cut1 lx ?_ (fun _ => ?_) | refine keeps_cut2 lx ?_ (fun _ => ?_)); rotate_left; clear_value lx; revert lx; intro y hy; rotate_right; subst lx) | (refine keeps_cutF lx ?_ (fun _ => ?_); rotate_left; clear_value lx; revert lx; intro y hF; rotate_right; subst lx) | (refine keeps_cutG lx ?_ (fun _ => ?_); rotate_left; clear_value lx; revert lx; intro y hG; rotate_right; subst lx) | (refine keeps_cutG' lx ?_ (fun _ => ?_); rotate_left; clear_value lx; revert lx; intro y hG'; rotate_right; subst lx) | (refine keeps_cutH lx ?_ (fun _ => ?_); rotate_left; clear_value lx; revert lx; intro y hH; rotate_right; subst lx) | (refine keeps_cutU lx ?_ (fun _ => ?_); rotate_left; clear_value lx; revert lx; intro y hU; rotate_right; subst lx) | (clear_value lx; revert lx; intro y) | subst lx)
    | with_reducible apply setBank_keeps
    | with_reducible apply wr_keeps
    | with_reducible apply each_keeps
    | with_reducible apply slotsCheck_keeps
    | with_reducible apply headerLoad_keeps
    | with_reducible apply hF
    | with_reducible apply hG
    | with_reducible apply hG'
    | with_reducible apply hH
    | with_reducible apply hU
    | split
    | simp only [↓keeps_mk]

theorem servesNow_keeps  {s0 s : State} (hk : Keeps s0 s) : Keeps s0 (servesNow s) := by
  unfold servesNow
  repeat' first
    | with_reducible assumption
    | with_reducible apply later_keeps
    | with_reducible apply wr_keeps
    | with_reducible apply dmaWake_keeps

theorem bootComplete_keeps {x : BootImage} {s0 s : State} (hk : Keeps s0 s) : Keeps s0 (bootComplete x s) := by
  unfold bootComplete
  repeat' first
    | with_reducible assumption
    | (extract_lets +onlyGivenNames lx; first | (refine keeps_cut lx ?_ (fun _ => ?_); rotate_left; clear_value lx; revert lx; intro y hy; rotate_right; subst lx) | (clear_value lx; revert lx; intro y) | subst lx)
    | with_reducible apply servesNow_keeps
    | with_reducible apply modeEnter_keeps
    | with_reducible apply bootLoad_keeps
    | with_reducible apply bootShow_keeps
    | with_reducible apply record_keeps
    | split

theorem bootFail_keeps {cause0 cause1 : Nat} {fuseErr : Bool} {s0 s : State} (hk : Keeps s0 s) : Keeps s0 (bootFail cause0 cause1 fuseErr s) := by
  unfold bootFail
  repeat' first
    | with_reducible assumption
    | (extract_lets +onlyGivenNames lx; first | (refine keeps_cut lx ?_ (fun _ => ?_); rotate_left; clear_value lx; revert lx; intro y hy; rotate_right; subst lx) | (clear_value lx; revert lx; intro y) | subst lx)
    | with_reducible apply wr_keeps
    | with_reducible apply wrB_keeps
    | with_reducible apply headerLoad_keeps
    | with_reducible apply heldInBoot_keeps
    | with_reducible apply record_keeps
    | split

theorem qspiRelease_keeps  {s0 s : State} (hk : Keeps s0 s) : Keeps s0 (qspiRelease s) := by
  unfold qspiRelease
  repeat' first
    | with_reducible assumption
    | with_reducible apply wr_keeps
    | split

theorem mainRailsUp_keeps  {s0 s : State} (hk : Keeps s0 s) : Keeps s0 (mainRailsUp s) := by
  unfold mainRailsUp
  repeat' first
    | with_reducible assumption
    | (extract_lets +onlyGivenNames lx; first | (refine keeps_cut lx ?_ (fun _ => ?_); rotate_left; clear_value lx; revert lx; intro y hy; rotate_right; subst lx) | (clear_value lx; revert lx; intro y) | subst lx)
    | with_reducible apply tryBoot_keeps
    | with_reducible apply lanternDirect_keeps
    | split
    | simp only [↓keeps_mk]

theorem mainRailsDown_keeps  {s0 s : State} (hk : Keeps s0 s) : Keeps s0 (mainRailsDown s) := by
  unfold mainRailsDown
  repeat' first
    | with_reducible assumption
    | (extract_lets +onlyGivenNames lx; first | (refine keeps_cut lx ?_ (fun _ => ?_); rotate_left; clear_value lx; revert lx; intro y hy; rotate_right; subst lx) | (clear_value lx; revert lx; intro y) | subst lx)
    | with_reducible apply resetMain_keeps
    | with_reducible apply wr_keeps
    | with_reducible apply lanternDirect_keeps
    | split
    | simp only [↓keeps_mk]

theorem pwrfailFall_keeps  {s0 s : State} (hk : Keeps s0 s) : Keeps s0 (pwrfailFall s) := by
  unfold pwrfailFall
  repeat' first
    | with_reducible assumption
    | (extract_lets +onlyGivenNames lx; first | (refine keeps_cut lx ?_ (fun _ => ?_); rotate_left; clear_value lx; revert lx; intro y hy; rotate_right; subst lx) | (clear_value lx; revert lx; intro y) | subst lx)
    | with_reducible apply enterHold_keeps
    | with_reducible apply later_keeps
    | with_reducible apply record_keeps
    | split
    | simp only [↓keeps_mk]

theorem pwrfailRise_keeps  {s0 s : State} (hk : Keeps s0 s) : Keeps s0 (pwrfailRise s) := by
  unfold pwrfailRise
  repeat' first
    | with_reducible assumption
    | with_reducible apply tryBoot_keeps
    | simp only [↓keeps_mk]

theorem vddAonLoss_keeps  {s0 s : State} (hk : Keeps s0 s) : Keeps s0 (vddAonLoss s) := by
  unfold vddAonLoss
  repeat' first
    | with_reducible assumption
    | (extract_lets +onlyGivenNames lx; first | (refine keeps_cut lx ?_ (fun _ => ?_); rotate_left; clear_value lx; revert lx; intro y hy; rotate_right; subst lx) | (clear_value lx; revert lx; intro y) | subst lx)
    | with_reducible apply resetMain_keeps
    | split
    | simp only [↓keeps_mk]

theorem aonPowerOn_keeps {s0 s : State} (hk : Keeps s0 s) : Keeps s0 (aonPowerOn s) := by
  unfold aonPowerOn
  split
  · exact hk
  · extract_lets d v pw t u
    have ht : Keeps s0 t := { hk with soundKept := fun x => have y := hk.soundKept x; ⟨y.1, regsKeep_wf s aonKeep, y.2.2⟩ }
    have hu : Keeps s0 u := wrB_keeps ht
    clear_value u
    exact tryBoot_keeps (lanternDirect_keeps hu)

theorem ageRecord_keeps {i sev st : Nat} {d : Int} {s0 s : State} (hk : Keeps s0 s) : Keeps s0 (ageRecord s i sev st d) := by
  unfold ageRecord
  repeat' first
    | with_reducible assumption
    | with_reducible apply record_keeps

theorem ageOne_keeps {i : Nat} {d : Int} {s0 s : State} (hk : Keeps s0 s) : Keeps s0 (ageOne s i d) := by
  unfold ageOne
  repeat' first
    | with_reducible assumption
    | (intro)
    | (extract_lets +onlyGivenNames lx; first | (refine keeps_cut lx ?_ (fun _ => ?_); rotate_left; clear_value lx; revert lx; intro y hy; rotate_right; subst lx) | (refine keeps_cutF lx ?_ (fun _ => ?_); rotate_left; clear_value lx; revert lx; intro y hF; rotate_right; subst lx) | (refine keeps_cutG lx ?_ (fun _ => ?_); rotate_left; clear_value lx; revert lx; intro y hG; rotate_right; subst lx) | (refine keeps_cutG' lx ?_ (fun _ => ?_); rotate_left; clear_value lx; revert lx; intro y hG'; rotate_right; subst lx) | (refine keeps_cutH lx ?_ (fun _ => ?_); rotate_left; clear_value lx; revert lx; intro y hH; rotate_right; subst lx) | (refine keeps_cutU lx ?_ (fun _ => ?_); rotate_left; clear_value lx; revert lx; intro y hU; rotate_right; subst lx) | (clear_value lx; revert lx; intro y) | subst lx)
    | with_reducible apply wr_keeps
    | with_reducible apply wrI_keeps
    | with_reducible apply onlyIf_keeps
    | with_reducible apply raise_keeps
    | with_reducible apply ageRecord_keeps
    | with_reducible apply hF
    | with_reducible apply hG
    | with_reducible apply hG'
    | with_reducible apply hH
    | with_reducible apply hU
    | split

theorem ageingMeasure_keeps {drifts : List (BitVec 16)} {s0 s : State} (hk : Keeps s0 s) : Keeps s0 (ageingMeasure drifts s) := by
  unfold ageingMeasure
  repeat' first
    | with_reducible assumption
    | (intro)
    | with_reducible apply each_keeps
    | with_reducible apply ageOne_keeps
    | split

theorem poweredHour_keeps  {s0 s : State} (hk : Keeps s0 s) : Keeps s0 (poweredHour s) := by
  unfold poweredHour
  repeat' first
    | with_reducible assumption
    | (extract_lets +onlyGivenNames lx; first | (refine keeps_cut lx ?_ (fun _ => ?_); rotate_left; clear_value lx; revert lx; intro y hy; rotate_right; subst lx) | (clear_value lx; revert lx; intro y) | subst lx)
    | with_reducible apply addWrap_keeps
    | with_reducible apply wr_keeps
    | split
    | simp only [↓keeps_mk]

theorem refreshUnit_keeps  {s0 s : State} (hk : Keeps s0 s) : Keeps s0 (refreshUnit s) := by
  unfold refreshUnit
  repeat' first
    | with_reducible assumption
    | (extract_lets +onlyGivenNames lx; first | (refine keeps_cut lx ?_ (fun _ => ?_); rotate_left; clear_value lx; revert lx; intro y hy; rotate_right; subst lx) | (refine keeps_rec lx ?_; subst lx) | (clear_value lx; revert lx; intro y) | subst lx)
    | with_reducible apply addWrap_keeps
    | with_reducible apply wr_keeps
    | with_reducible apply record_keeps
    | split

theorem keyGo_keeps {slot op : Nat} {recipe command : Bool} {s0 s : State} (hk : Keeps s0 s) : Keeps s0 (keyGo slot op recipe command s) := by
  unfold keyGo
  repeat' first
    | with_reducible assumption
    | (extract_lets +onlyGivenNames lx; first | (refine keeps_cut lx ?_ (fun _ => ?_); rotate_left; clear_value lx; revert lx; intro y hy; rotate_right; subst lx) | (clear_value lx; revert lx; intro y) | subst lx)
    | with_reducible apply wr_keeps
    | split
    | simp only [↓keeps_mk]

theorem keyApply_keeps {slot op roles : Nat} {key : List Byte} {s0 s : State} (hk : Keeps s0 s) : Keeps s0 (keyApply s slot op roles key) := by
  unfold keyApply
  repeat' first
    | with_reducible assumption
    | (extract_lets +onlyGivenNames lx; first | (refine keeps_cut lx ?_ (fun _ => ?_); rotate_left; clear_value lx; revert lx; intro y hy; rotate_right; subst lx) | (clear_value lx; revert lx; intro y) | subst lx)
    | with_reducible apply wr_keeps
    | split
    | simp only [↓keeps_mk]

theorem keyDone_keeps {fuseErr : Bool} {s0 s : State} (hk : Keeps s0 s) : Keeps s0 (keyDone fuseErr s) := by
  unfold keyDone
  repeat' first
    | with_reducible assumption
    | (extract_lets +onlyGivenNames lx; first | (refine keeps_cut lx ?_ (fun _ => ?_); rotate_left; clear_value lx; revert lx; intro y hy; rotate_right; subst lx) | (clear_value lx; revert lx; intro y) | subst lx)
    | with_reducible apply wr_keeps
    | with_reducible apply keyApply_keeps
    | with_reducible apply record_keeps
    | split
    | simp only [↓keeps_mk]

theorem thermalSense_keeps {mC : Int} {s0 s : State} (hk : Keeps s0 s) : Keeps s0 (thermalSense mC s) := by
  unfold thermalSense
  repeat' first
    | with_reducible assumption
    | (intro)
    | (extract_lets +onlyGivenNames lx; first | (refine keeps_cut lx ?_ (fun _ => ?_); rotate_left; clear_value lx; revert lx; intro y hy; rotate_right; subst lx) | (refine keeps_cutF lx ?_ (fun _ => ?_); rotate_left; clear_value lx; revert lx; intro y hF; rotate_right; subst lx) | (refine keeps_cutG lx ?_ (fun _ => ?_); rotate_left; clear_value lx; revert lx; intro y hG; rotate_right; subst lx) | (refine keeps_cutG' lx ?_ (fun _ => ?_); rotate_left; clear_value lx; revert lx; intro y hG'; rotate_right; subst lx) | (refine keeps_cutH lx ?_ (fun _ => ?_); rotate_left; clear_value lx; revert lx; intro y hH; rotate_right; subst lx) | (refine keeps_cutU lx ?_ (fun _ => ?_); rotate_left; clear_value lx; revert lx; intro y hU; rotate_right; subst lx) | (clear_value lx; revert lx; intro y) | subst lx)
    | with_reducible apply setParam_keeps
    | with_reducible apply onlyIf_keeps
    | with_reducible apply record_keeps
    | with_reducible apply raise_keeps
    | with_reducible apply hF
    | with_reducible apply hG
    | with_reducible apply hG'
    | with_reducible apply hH
    | with_reducible apply hU
    | split
    | simp only [↓keeps_mk]

theorem thermtrip_keeps  {s0 s : State} (hk : Keeps s0 s) : Keeps s0 (thermtrip s) := by
  unfold thermtrip
  repeat' first
    | with_reducible assumption
    | split
    | simp only [↓keeps_mk]

theorem patrolScrub_keeps {addr : Nat} {x : EccResult} {s0 s : State} (hk : Keeps s0 s) : Keeps s0 (patrolScrub addr x s) := by
  unfold patrolScrub
  repeat' first
    | with_reducible assumption
    | (extract_lets +onlyGivenNames lx; first | (refine keeps_cut lx ?_ (fun _ => ?_); rotate_left; clear_value lx; revert lx; intro y hy; rotate_right; subst lx) | (clear_value lx; revert lx; intro y) | subst lx)
    | with_reducible apply eccCorrected_keeps
    | with_reducible apply uncorrectable_keeps
    | with_reducible apply eccUncorrectable_keeps
    | with_reducible apply addWrap_keeps
    | split
    | simp only [↓keeps_mk]

theorem loadCfg_keeps {b : Block} {s0 s : State} (hk : Keeps s0 s) : Keeps s0 (loadCfg s b) := by
  unfold loadCfg
  repeat' first
    | with_reducible assumption
    | (intro)
    | with_reducible apply each_keeps
    | simp only [↓keeps_mk]

theorem dropCfg_keeps {b : Block} {s0 s : State} (hk : Keeps s0 s) : Keeps s0 (dropCfg s b) := by
  unfold dropCfg
  repeat' first
    | with_reducible assumption
    | (intro)
    | with_reducible apply each_keeps
    | simp only [↓keeps_mk]

theorem enVerdict_keeps {bad : Bool} {a0 : Block} {s0 s : State} (hk : Keeps s0 s) : Keeps s0 (enVerdict s bad a0) := by
  unfold enVerdict
  repeat' first
    | with_reducible assumption
    | (extract_lets +onlyGivenNames lx; first | (refine keeps_cut lx ?_ (fun _ => ?_); rotate_left; clear_value lx; revert lx; intro y hy; rotate_right; subst lx) | (clear_value lx; revert lx; intro y) | subst lx)
    | with_reducible apply wrB_keeps
    | with_reducible apply cfgErrRecord_keeps
    | with_reducible apply wr_keeps
    | with_reducible apply tpgFlag_keeps
    | with_reducible apply trlBar_keeps
    | with_reducible apply mlkShow_keeps
    | with_reducible apply setMlk_keeps
    | split
    | simp only [↓keeps_mk]

theorem gvspDest_keeps {st : Nat} {s0 s : State} (hk : Keeps s0 s) : Keeps s0 (gvspDest s st) := by
  unfold gvspDest
  repeat' first
    | with_reducible assumption
    | (extract_lets +onlyGivenNames lx; first | (refine keeps_cut lx ?_ (fun _ => ?_); rotate_left; clear_value lx; revert lx; intro y hy; rotate_right; subst lx) | (clear_value lx; revert lx; intro y) | subst lx)
    | with_reducible apply send_keeps
    | split

theorem strClear_keeps {st : Nat} {s0 s : State} (hk : Keeps s0 s) : Keeps s0 (strClear s st) := by
  unfold strClear
  repeat' first
    | with_reducible assumption
    | (extract_lets +onlyGivenNames lx; first | (refine keeps_cut lx ?_ (fun _ => ?_); rotate_left; clear_value lx; revert lx; intro y hy; rotate_right; subst lx) | (clear_value lx; revert lx; intro y) | subst lx)
    | with_reducible apply wr_keeps
    | with_reducible apply setStr_keeps

theorem streamBegin_keeps {st : Nat} {s0 s : State} (hk : Keeps s0 s) : Keeps s0 (streamBegin s st) := by
  unfold streamBegin
  repeat' first
    | with_reducible assumption
    | (extract_lets +onlyGivenNames lx; first | (refine keeps_cut lx ?_ (fun _ => ?_); rotate_left; clear_value lx; revert lx; intro y hy; rotate_right; subst lx) | (clear_value lx; revert lx; intro y) | subst lx)
    | with_reducible apply streamStart_keeps
    | with_reducible apply streamFinish_keeps
    | split

theorem enLoad_keeps {b : Block} {s0 s : State} (hk : Keeps s0 s) : Keeps s0 (enLoad s b) := by
  unfold enLoad
  repeat' first
    | with_reducible assumption
    | (extract_lets +onlyGivenNames lx; first | (refine keeps_cut lx ?_ (fun _ => ?_); rotate_left; clear_value lx; revert lx; intro y hy; rotate_right; subst lx) | (clear_value lx; revert lx; intro y) | subst lx)
    | with_reducible apply loadCfg_keeps
    | with_reducible apply laneLoad_keeps
    | with_reducible apply gvspDest_keeps
    | with_reducible apply strClear_keeps
    | with_reducible apply chainRefresh_keeps
    | with_reducible apply dmaFresh_keeps
    | with_reducible apply xoffUpdate_keeps
    | with_reducible apply updateGroup_keeps
    | split
    | simp only [↓keeps_mk]

theorem vtrailHold_keeps {t : Nat} {s0 s : State} (hk : Keeps s0 s) : Keeps s0 (vtrailHold s t) := by
  unfold vtrailHold
  repeat' first
    | with_reducible assumption
    | (extract_lets +onlyGivenNames lx; first | (refine keeps_cut lx ?_ (fun _ => ?_); rotate_left; clear_value lx; revert lx; intro y hy; rotate_right; subst lx) | (clear_value lx; revert lx; intro y) | subst lx)
    | with_reducible apply trlOpen_keeps
    | with_reducible apply wrB_keeps
    | with_reducible apply trlMoved_keeps
    | with_reducible apply setTrl_keeps
    | simp only [↓keeps_mk]

theorem enReady_keeps  {a0 : Block} {s0 s : State} (hk : Keeps s0 s) : Keeps s0 (enReady s a0) := by
  unfold enReady
  repeat' first
    | with_reducible assumption
    | with_reducible apply streamBegin_keeps
    | with_reducible apply stkSeek_keeps
    | with_reducible apply stkHold_keeps
    | with_reducible apply dmaEnabled_keeps
    | with_reducible apply tpgStart_keeps
    | with_reducible apply trlMoved_keeps
    | with_reducible apply wr_keeps
    | with_reducible apply divStart_keeps
    | with_reducible apply later_keeps
    | with_reducible apply lockCheck_keeps
    | with_reducible apply ownClock_keeps
    | split

theorem enLeave_keeps {was : Nat} {a0 : Block} {s0 s : State} (hk : Keeps s0 s) : Keeps s0 (enLeave s was a0) := by
  unfold enLeave
  repeat' first
    | with_reducible assumption
    | with_reducible apply streamFinish_keeps
    | with_reducible apply stkHold_keeps
    | with_reducible apply campStopped_keeps
    | with_reducible apply groupStopped_keeps
    | with_reducible apply mlkLeave_keeps
    | with_reducible apply windowClear_keeps
    | split

theorem enOff_keeps {b : Block} {s0 s : State} (hk : Keeps s0 s) : Keeps s0 (enOff s b) := by
  cases b <;> unfold enOff <;> dsimp -zeta only
  repeat' first
    | with_reducible assumption
    | (extract_lets +onlyGivenNames lx; first | (refine keeps_cut lx ?_ (fun _ => ?_); rotate_left; clear_value lx; revert lx; intro y hy; rotate_right; subst lx) | (clear_value lx; revert lx; intro y) | subst lx)
    | with_reducible apply dropCfg_keeps
    | with_reducible apply laneOff_keeps
    | with_reducible apply strClear_keeps
    | with_reducible apply setFrm_keeps
    | with_reducible apply setStr_keeps
    | with_reducible apply xoffUpdate_keeps
    | with_reducible apply dmaOffShow_keeps
    | with_reducible apply setTpg_keeps
    | with_reducible apply tthOff_keeps
    | split
    | simp only [↓keeps_mk]

theorem enAttempt_keeps {b : Block} {s0 s : State} (hk : Keeps s0 s) : Keeps s0 (enAttempt s b) := by
  unfold enAttempt
  repeat' first
    | with_reducible assumption
    | (extract_lets +onlyGivenNames lx; first | (refine keeps_cut lx ?_ (fun _ => ?_); rotate_left; clear_value lx; revert lx; intro y hy; rotate_right; subst lx) | (clear_value lx; revert lx; intro y) | subst lx)
    | with_reducible apply enVerdict_keeps
    | with_reducible apply enLoad_keeps
    | with_reducible apply wr_keeps
    | split

theorem enQuit_keeps {b : Block} {s0 s : State} (hk : Keeps s0 s) : Keeps s0 (enQuit s b) := by
  unfold enQuit
  repeat' first
    | with_reducible assumption
    | (extract_lets +onlyGivenNames lx; first | (refine keeps_cut lx ?_ (fun _ => ?_); rotate_left; clear_value lx; revert lx; intro y hy; rotate_right; subst lx) | (clear_value lx; revert lx; intro y) | subst lx)
    | with_reducible apply vtrailHold_keeps
    | with_reducible apply enLeave_keeps
    | with_reducible apply wr_keeps
    | with_reducible apply enOff_keeps
    | split
    | simp only [↓keeps_mk]

theorem enableWrite_keeps {b : Block} {en : Bool} {s0 s : State} (hk : Keeps s0 s) : Keeps s0 (enableWrite b en s) := by
  unfold enableWrite
  repeat' first
    | with_reducible assumption
    | (extract_lets +onlyGivenNames lx; first | (refine keeps_cut lx ?_ (fun _ => ?_); rotate_left; clear_value lx; revert lx; intro y hy; rotate_right; subst lx) | (clear_value lx; revert lx; intro y) | subst lx)
    | with_reducible apply wrB_keeps
    | with_reducible apply enAttempt_keeps
    | with_reducible apply enQuit_keeps
    | split

theorem enableSetupComplete_keeps {b : Block} {s0 s : State} (hk : Keeps s0 s) : Keeps s0 (enableSetupComplete b s) := by
  unfold enableSetupComplete
  repeat' first
    | with_reducible assumption
    | with_reducible apply enReady_keeps
    | with_reducible apply wr_keeps
    | split
    | simp only [↓keeps_mk]

theorem quiesceComplete_keeps {b : Block} {s0 s : State} (hk : Keeps s0 s) : Keeps s0 (quiesceComplete b s) := by
  unfold quiesceComplete
  repeat' first
    | with_reducible assumption
    | (extract_lets +onlyGivenNames lx; first | (refine keeps_cut lx ?_ (fun _ => ?_); rotate_left; clear_value lx; revert lx; intro y hy; rotate_right; subst lx) | (clear_value lx; revert lx; intro y) | subst lx)
    | with_reducible apply enOff_keeps
    | with_reducible apply wr_keeps
    | with_reducible apply enAttempt_keeps
    | split

theorem disableUnit_keeps {w : Nat} {s0 s : State} (hk : Keeps s0 s) : Keeps s0 (disableUnit w s) := by
  unfold disableUnit
  repeat' first
    | with_reducible assumption
    | with_reducible apply enableWrite_keeps
    | split

theorem retrainUnit_keeps {w : Nat} {s0 s : State} (hk : Keeps s0 s) : Keeps s0 (retrainUnit w s) := by
  unfold retrainUnit
  repeat' first
    | with_reducible assumption
    | (intro)
    | with_reducible apply laneRetrain_keeps
    | with_reducible apply linkRetrain_keeps
    | with_reducible apply each_keeps
    | with_reducible apply portLock_keeps
    | with_reducible apply setLock_keeps
    | split

theorem zeroRegs_keeps {l : List Nat} {s0 s : State} (hk : Keeps s0 s) : Keeps s0 (zeroRegs l s) := by
  unfold zeroRegs
  repeat' first
    | with_reducible assumption
    | (intro)
    | with_reducible apply each_keeps
    | with_reducible apply setReg_keeps

theorem counterClear_keeps {b : CntBlock} {s0 s : State} (hk : Keeps s0 s) : Keeps s0 (counterClear b s) := by
  unfold counterClear
  repeat' first
    | with_reducible assumption
    | with_reducible apply zeroRegs_keeps
    | with_reducible apply wr_keeps
    | split
    | simp only [↓keeps_mk]

theorem posStepDone_keeps {t : Nat} {s0 s : State} (hk : Keeps s0 s) : Keeps s0 (posStepDone t s) := by
  unfold posStepDone
  repeat' first
    | with_reducible assumption
    | (intro)
    | (extract_lets +onlyGivenNames lx; first | (refine keeps_cut lx ?_ (fun _ => ?_); rotate_left; clear_value lx; revert lx; intro y hy; rotate_right; subst lx) | (refine keeps_cutF lx ?_ (fun _ => ?_); rotate_left; clear_value lx; revert lx; intro y hF; rotate_right; subst lx) | (refine keeps_cutG lx ?_ (fun _ => ?_); rotate_left; clear_value lx; revert lx; intro y hG; rotate_right; subst lx) | (refine keeps_cutG' lx ?_ (fun _ => ?_); rotate_left; clear_value lx; revert lx; intro y hG'; rotate_right; subst lx) | (refine keeps_cutH lx ?_ (fun _ => ?_); rotate_left; clear_value lx; revert lx; intro y hH; rotate_right; subst lx) | (refine keeps_cutU lx ?_ (fun _ => ?_); rotate_left; clear_value lx; revert lx; intro y hU; rotate_right; subst lx) | (clear_value lx; revert lx; intro y) | subst lx)
    | with_reducible apply mlkPosStep_keeps
    | with_reducible apply stakesPosStep_keeps
    | with_reducible apply dividersFollow_keeps
    | with_reducible apply each_keeps
    | with_reducible apply setFrm_keeps
    | with_reducible apply hF
    | with_reducible apply hG
    | with_reducible apply hG'
    | with_reducible apply hH
    | with_reducible apply hU
    | simp only [↓keeps_mk]

theorem todoStep_keeps {t : Todo} {s0 s : State} (hk : Keeps s0 s) : Keeps s0 (todoStep t s) := by
  unfold todoStep
  repeat' first
    | with_reducible assumption
    | with_reducible apply gylCycle_keeps
    | with_reducible apply posStepDone_keeps
    | with_reducible apply dividersFollow_keeps
    | with_reducible apply domStep_keeps
    | with_reducible apply chgDomStep_keeps
    | with_reducible apply tpgDomStep_keeps
    | with_reducible apply retrainUnit_keeps
    | with_reducible apply disableUnit_keeps
    | with_reducible apply enterHold_keeps
    | with_reducible apply lockCheck_keeps
    | with_reducible apply lockDrop_keeps
    | with_reducible apply chgMark_keeps
    | with_reducible apply campDrop_keeps
    | with_reducible apply frameClosed_keeps
    | with_reducible apply handOver_keeps
    | with_reducible apply triggerEnd_keeps
    | with_reducible apply streamJudge_keeps
    | with_reducible apply substitute_keeps
    | with_reducible apply stakesCheck_keeps
    | with_reducible apply lagAbandon_keeps
    | with_reducible apply calAbort_keeps
    | with_reducible apply recFlushed_keeps
    | with_reducible apply enterReset_keeps
    | with_reducible apply dmaWake_keeps
    | with_reducible apply oldSlots_keeps
    | with_reducible apply serveHost_keeps
    | with_reducible apply heartbeatCheck_keeps
    | split
    | simp only [↓keeps_mk]

theorem settle_keeps {n : Nat} {s0 s : State} (hk : Keeps s0 s) : Keeps s0 (settle n s) := by
  induction n generalizing s with
  | zero => exact hk
  | succ n ih =>
    unfold settle
    split
    · exact hk
    · exact ih (gylCycle_keeps (keeps_of hk ⟨rfl, rfl, rfl, rfl, rfl, rfl, rfl, rfl, rfl⟩))
    · exact ih (todoStep_keeps (keeps_of hk ⟨rfl, rfl, rfl, rfl, rfl, rfl, rfl, rfl, rfl⟩))

theorem finish_keeps  {s0 s : State} (hk : Keeps s0 s) : Keeps s0 (finish s) := by
  unfold finish
  repeat' first
    | with_reducible assumption
    | with_reducible apply settle_keeps

theorem dueEdge_keeps {d : DueWork} {s0 s : State} (hk : Keeps s0 s) : Keeps s0 (dueEdge d s).1 := by
  unfold dueEdge
  repeat' first
    | with_reducible assumption
    | (intro)
    | (extract_lets +onlyGivenNames lx; first | (refine keeps_cut lx ?_ (fun _ => ?_); rotate_left; clear_value lx; revert lx; intro y hy; rotate_right; subst lx) | (clear_value lx; revert lx; intro y) | subst lx)
    | with_reducible apply setStk_keeps
    | with_reducible apply stopLook_keeps
    | with_reducible apply setStr_keeps
    | with_reducible apply cxpDrain_keeps
    | split
    | simp only [↓keeps_mk]

theorem taskEdge_keeps {s0 s : State} (hk : Keeps s0 s) : Keeps s0 (taskEdge s) := by
  unfold taskEdge
  extract_lets l act t
  split
  · exact hk
  · have ht : Keeps { s with now := s.now + 1, due := s.due.filter (fun d => !taskArrived (s.now + 1) d) } t := by
      refine finish_keeps (foldl_keeps (fun u a hu => ?_) (keeps_refl _))
      cases a <;> first | exact mgtTask_keeps hu | exact hu
    exact ⟨ht.pendingEq.trans hk.pendingEq, hk.nowEq, hk.outMore.trans ht.outMore, hk.firstMore.trans ht.firstMore, fun x => ht.full (hk.full x),
      fun x => ht.soundKept (hk.soundKept x)⟩

theorem edgeWork_keeps  {s0 s : State} (hk : Keeps s0 s) : Keeps s0 (edgeWork s) := by
  unfold edgeWork
  repeat' first
    | with_reducible assumption
    | (intro)
    | (extract_lets +onlyGivenNames lx; first | ((first | refine keeps_cut lx ?_ (fun _ => ?_) | refine keeps_cut1 lx ?_ (fun _ => ?_) | refine keeps_cut2 lx ?_ (fun _ => ?_)); rotate_left; clear_value lx; revert lx; intro y hy; rotate_right; subst lx) | (clear_value lx; revert lx; intro y) | subst lx)
    | with_reducible apply taskEdge_keeps
    | with_reducible apply finish_keeps
    | with_reducible apply dueEdge_keeps
    | with_reducible apply foldl_keeps
    | split
    | simp only [↓keeps_mk]

theorem readEffect_keeps {b : Nat} {s0 s : State} (hk : Keeps s0 s) : Keeps s0 (readEffect s b) := by
  unfold readEffect
  repeat' first
    | with_reducible assumption
    | with_reducible apply tableData3Read_keeps
    | with_reducible apply txqIdRead_keeps
    | with_reducible apply freeNext_keeps
    | with_reducible apply groupFifoRead_keeps
    | split
    | simp only [↓keeps_mk]

theorem read32_keeps {a : Nat} {s0 s : State} (hk : Keeps s0 s) : Keeps s0 (read32 s a).2 := by
  unfold read32
  repeat' first
    | with_reducible assumption
    | (extract_lets +onlyGivenNames lx; first | (refine keeps_cut lx ?_ (fun _ => ?_); rotate_left; clear_value lx; revert lx; intro y hy; rotate_right; subst lx) | (clear_value lx; revert lx; intro y) | subst lx)
    | with_reducible apply readEffect_keeps
    | split
    | simp only [↓keeps_mk]

theorem read64_keeps {a : Nat} {s0 s : State} (hk : Keeps s0 s) : Keeps s0 (read64 s a).2 := by
  unfold read64
  repeat' first
    | with_reducible assumption
    | (extract_lets +onlyGivenNames lx; first | ((first | refine keeps_cut lx ?_ (fun _ => ?_) | refine keeps_cut1 lx ?_ (fun _ => ?_) | refine keeps_cut2 lx ?_ (fun _ => ?_)); rotate_left; clear_value lx; revert lx; intro y hy; rotate_right; subst lx) | (clear_value lx; revert lx; intro y) | subst lx)
    | with_reducible apply read32_keeps
    | with_reducible apply readEffect_keeps
    | split
    | simp only [↓keeps_mk]

theorem readSpan_keeps  {a0 : Nat} {a2 : Nat} {a3 : List Bool} {s0 s : State} (hk : Keeps s0 s) : Keeps s0 (readSpan a0 s a2 a3).2 := by
  induction a0 generalizing s a2 a3 with
  | zero => exact hk
  | succ n ih =>
    unfold readSpan
    repeat' first
      | with_reducible assumption
      | (intro)
      | (extract_lets +onlyGivenNames lx; first | ((first | refine keeps_cut lx ?_ (fun _ => ?_) | refine keeps_cut1 lx ?_ (fun _ => ?_) | refine keeps_cut2 lx ?_ (fun _ => ?_)); rotate_left; clear_value lx; revert lx; intro y hy; rotate_right; subst lx) | (clear_value lx; revert lx; intro y) | subst lx)
      | with_reducible apply ih
      | with_reducible apply read64_keeps
      | with_reducible apply read32_keeps
      | with_reducible apply freeNext_keeps
      | split

theorem bar0Read_keeps {a : Nat} {en : List Bool} {s0 s : State} (hk : Keeps s0 s) : Keeps s0 (bar0Read s a en).2 := by
  unfold bar0Read
  repeat' first
    | with_reducible assumption
    | (extract_lets +onlyGivenNames lx; first | ((first | refine keeps_cut lx ?_ (fun _ => ?_) | refine keeps_cut1 lx ?_ (fun _ => ?_) | refine keeps_cut2 lx ?_ (fun _ => ?_)); rotate_left; clear_value lx; revert lx; intro y hy; rotate_right; subst lx) | (clear_value lx; revert lx; intro y) | subst lx)
    | with_reducible apply readSpan_keeps
    | with_reducible apply cursorAdvance_keeps
    | split

theorem regPut_keeps {r : Reg} {b v : Nat} {s0 s : State} (hk : Keeps s0 s) : Keeps s0 (regPut r b v s) := by
  unfold regPut
  repeat' first
    | with_reducible assumption
    | (extract_lets +onlyGivenNames lx; first | (refine keeps_cut lx ?_ (fun _ => ?_); rotate_left; clear_value lx; revert lx; intro y hy; rotate_right; subst lx) | (clear_value lx; revert lx; intro y) | subst lx)
    | with_reducible apply setReg_keeps

theorem trlWrite_keeps {r : Reg} {b v : Nat} {s0 s : State} (hk : Keeps s0 s) : Keeps s0 (trlWrite r b v s) := by
  unfold trlWrite
  repeat' first
    | with_reducible assumption
    | (intro)
    | (extract_lets +onlyGivenNames lx; first | (refine keeps_cut lx ?_ (fun _ => ?_); rotate_left; clear_value lx; revert lx; intro y hy; rotate_right; subst lx) | (clear_value lx; revert lx; intro y) | subst lx)
    | with_reducible apply onlyIf_keeps
    | with_reducible apply untrustedClear_keeps
    | with_reducible apply regPut_keeps
    | with_reducible apply trlOpen_keeps
    | with_reducible apply softLimitWritten_keeps
    | with_reducible apply presetTrail_keeps
    | with_reducible apply portCfgWrite_keeps
    | with_reducible apply limitsFollow_keeps
    | split
    | simp only [↓keeps_mk]

theorem stkWrite_keeps {r : Reg} {b v : Nat} {s0 s : State} (hk : Keeps s0 s) : Keeps s0 (stkWrite r b v s) := by
  unfold stkWrite
  repeat' first
    | with_reducible assumption
    | (intro)
    | with_reducible apply onlyIf_keeps
    | with_reducible apply stakeRearm_keeps
    | with_reducible apply trgCfgWrite_keeps
    | with_reducible apply tableAddrWrite_keeps
    | with_reducible apply tableData3Write_keeps
    | with_reducible apply regPut_keeps
    | split
    | simp only [↓keeps_mk]

theorem tmbWrite_keeps {r : Reg} {b v : Nat} {s0 s : State} (hk : Keeps s0 s) : Keeps s0 (tmbWrite r b v s) := by
  unfold tmbWrite
  repeat' first
    | with_reducible assumption
    | (intro)
    | (extract_lets +onlyGivenNames lx; first | (refine keeps_cut lx ?_ (fun _ => ?_); rotate_left; clear_value lx; revert lx; intro y hy; rotate_right; subst lx) | (clear_value lx; revert lx; intro y) | subst lx)
    | with_reducible apply domainSet_keeps
    | with_reducible apply domainAdjust_keeps
    | with_reducible apply domRateWrite_keeps
    | with_reducible apply domainSrcWrite_keeps
    | with_reducible apply onlyIf_keeps
    | with_reducible apply timeSnapshot_keeps
    | with_reducible apply tpgStartWrite_keeps
    | with_reducible apply ptpRestart_keeps
    | with_reducible apply regPut_keeps
    | with_reducible apply tpgFlag_keeps
    | split
    | simp only [↓keeps_mk]

theorem camWrite_keeps {r : Reg} {b v : Nat} {s0 s : State} (hk : Keeps s0 s) : Keeps s0 (camWrite r b v s) := by
  unfold camWrite
  repeat' first
    | with_reducible assumption
    | (intro)
    | (extract_lets +onlyGivenNames lx; first | (refine keeps_cut lx ?_ (fun _ => ?_); rotate_left; clear_value lx; revert lx; intro y hy; rotate_right; subst lx) | (clear_value lx; revert lx; intro y) | subst lx)
    | with_reducible apply regPut_keeps
    | with_reducible apply onlyIf_keeps
    | with_reducible apply counterClear_keeps
    | with_reducible apply ethCfgWrite_keeps
    | with_reducible apply rawTxOver_keeps
    | with_reducible apply camCtl_keeps
    | with_reducible apply ramSet_keeps
    | with_reducible apply rawRxPop_keeps
    | with_reducible apply rawTxSend_keeps
    | with_reducible apply wr_keeps
    | split
    | simp only [↓keeps_mk]

theorem frmWrite_keeps {r : Reg} {b v : Nat} {s0 s : State} (hk : Keeps s0 s) : Keeps s0 (frmWrite r b v s) := by
  unfold frmWrite
  repeat' first
    | with_reducible assumption
    | (intro)
    | (extract_lets +onlyGivenNames lx; first | (refine keeps_cut lx ?_ (fun _ => ?_); rotate_left; clear_value lx; revert lx; intro y hy; rotate_right; subst lx) | (clear_value lx; revert lx; intro y) | subst lx)
    | with_reducible apply onlyIf_keeps
    | with_reducible apply counterClear_keeps
    | with_reducible apply showFree_keeps
    | with_reducible apply regPut_keeps
    | with_reducible apply wr_keeps
    | split
    | simp only [↓keeps_mk]

theorem queueCommand_keeps {v : Nat} {s0 s : State} (hk : Keeps s0 s) : Keeps s0 (queueCommand v s) := by
  unfold queueCommand
  repeat' first
    | with_reducible assumption
    | (extract_lets +onlyGivenNames lx; first | (refine keeps_cut lx ?_ (fun _ => ?_); rotate_left; clear_value lx; revert lx; intro y hy; rotate_right; subst lx) | (clear_value lx; revert lx; intro y) | subst lx)
    | with_reducible apply qcmdRead_keeps
    | with_reducible apply qcmdWrite_keeps
    | with_reducible apply qcmdEnable_keeps
    | with_reducible apply qcmdDisable_keeps
    | with_reducible apply qcmdFlush_keeps
    | with_reducible apply qcmdEnd_keeps
    | split
    | simp only [↓keeps_mk]

theorem dlvWrite_keeps {r : Reg} {b v : Nat} {s0 s : State} (hk : Keeps s0 s) : Keeps s0 (dlvWrite r b v s) := by
  unfold dlvWrite
  repeat' first
    | with_reducible assumption
    | (intro)
    | with_reducible apply onlyIf_keeps
    | with_reducible apply deliveryResume_keeps
    | with_reducible apply queueCommand_keeps
    | with_reducible apply counterClear_keeps
    | with_reducible apply xoffUpdate_keeps
    | with_reducible apply regPut_keeps
    | with_reducible apply wr_keeps
    | split
    | simp only [↓keeps_mk]

theorem dmaWrite_keeps {r : Reg} {b v : Nat} {s0 s : State} (hk : Keeps s0 s) : Keeps s0 (dmaWrite r b v s) := by
  unfold dmaWrite
  repeat' first
    | with_reducible assumption
    | (intro)
    | (extract_lets +onlyGivenNames lx; first | (refine keeps_cut lx ?_ (fun _ => ?_); rotate_left; clear_value lx; revert lx; intro y hy; rotate_right; subst lx) | (clear_value lx; revert lx; intro y) | subst lx)
    | with_reducible apply onlyIf_keeps
    | with_reducible apply engineHaltClear_keeps
    | with_reducible apply dmaCfgWrite_keeps
    | with_reducible apply dmaHeadWrite_keeps
    | with_reducible apply dmaCiWrite_keeps
    | with_reducible apply dmaDoorbell_keeps
    | with_reducible apply dmaRestart_keeps
    | with_reducible apply regPut_keeps
    | split
    | simp only [↓keeps_mk]

theorem mbxWrite_keeps {r : Reg} {b v : Nat} {s0 s : State} (hk : Keeps s0 s) : Keeps s0 (mbxWrite r b v s) := by
  unfold mbxWrite
  repeat' first
    | with_reducible assumption
    | (intro)
    | (extract_lets +onlyGivenNames lx; first | (refine keeps_cut lx ?_ (fun _ => ?_); rotate_left; clear_value lx; revert lx; intro y hy; rotate_right; subst lx) | (clear_value lx; revert lx; intro y) | subst lx)
    | with_reducible apply cmdWrite_keeps
    | with_reducible apply onlyIf_keeps
    | with_reducible apply mbxAbort_keeps
    | with_reducible apply mbxGo_keeps
    | with_reducible apply mbxAck_keeps
    | with_reducible apply regPut_keeps
    | split
    | simp only [↓keeps_mk]

theorem intWrite_keeps {r : Reg} {b v : Nat} {s0 s : State} (hk : Keeps s0 s) : Keeps s0 (intWrite r b v s) := by
  unfold intWrite
  repeat' first
    | with_reducible assumption
    | with_reducible apply intStatusWrite_keeps
    | with_reducible apply intEnableWrite_keeps
    | with_reducible apply intTest_keeps
    | with_reducible apply updateInta_keeps
    | with_reducible apply regPut_keeps
    | with_reducible apply windowCfgWrite_keeps
    | with_reducible apply windowKWrite_keeps
    | split
    | simp only [↓keeps_mk]

theorem otherWrite_keeps {r : Reg} {b v : Nat} {s0 s : State} (hk : Keeps s0 s) : Keeps s0 (otherWrite r b v s) := by
  unfold otherWrite
  repeat' first
    | with_reducible assumption
    | (intro)
    | with_reducible apply onlyIf_keeps
    | with_reducible apply counterClear_keeps
    | with_reducible apply gylChEnWrite_keeps
    | with_reducible apply gylCfgWrite_keeps
    | with_reducible apply chgWrite_keeps
    | with_reducible apply regPut_keeps
    | with_reducible apply lanOvrClear_keeps
    | with_reducible apply ruleCfgWrite_keeps
    | with_reducible apply ruleRegWrite_keeps
    | with_reducible apply recRewind_keeps
    | with_reducible apply flushTrigger_keeps
    | with_reducible apply recCfgWrite_keeps
    | with_reducible apply recCursorWrite_keeps
    | with_reducible apply recMarkWrite_keeps
    | with_reducible apply modeRequest_keeps
    | with_reducible apply keyGo_keeps
    | with_reducible apply ramSet_keeps
    | split
    | simp only [↓keeps_mk]

theorem shadowWrite_keeps {r : Reg} {b v : Nat} {s0 s : State} (hk : Keeps s0 s) : Keeps s0 (shadowWrite r b v s) := by
  unfold shadowWrite
  repeat' first
    | with_reducible assumption
    | with_reducible apply storeWrite_keeps

theorem regWrite_keeps {r : Reg} {b v : Nat} {s0 s : State} (hk : Keeps s0 s) : Keeps s0 (regWrite r b v s) := by
  unfold regWrite
  repeat' first
    | with_reducible assumption
    | with_reducible apply shadowWrite_keeps
    | with_reducible apply enableWrite_keeps
    | with_reducible apply mbxWrite_keeps
    | with_reducible apply intWrite_keeps
    | with_reducible apply trlWrite_keeps
    | with_reducible apply stkWrite_keeps
    | with_reducible apply tmbWrite_keeps
    | with_reducible apply camWrite_keeps
    | with_reducible apply frmWrite_keeps
    | with_reducible apply dlvWrite_keeps
    | with_reducible apply dmaWrite_keeps
    | with_reducible apply otherWrite_keeps
    | split
    | simp only [↓keeps_mk]

theorem write32_keeps {a v : Nat} {s0 s : State} (hk : Keeps s0 s) : Keeps s0 (write32 a v s) := by
  unfold write32
  split
  · split <;> exact queueDoorbell_keeps hk
  · split
    · exact flushPending_keeps (msixSet_keeps hk)
    · split
      · exact hk
      · split
        · exact regWrite_keeps hk
        · split
          · exact heldSet_keeps hk
          · exact regWrite_keeps hk

theorem write64_keeps {a v : Nat} {s0 s : State} (hk : Keeps s0 s) : Keeps s0 (write64 a v s) := by
  unfold write64
  extract_lets two
  have h2 : Keeps s0 (two ()) := write32_keeps (write32_keeps hk)
  split
  · exact queueDoorbell_keeps hk
  · split
    · split
      · exact regWrite_keeps (heldSet_keeps hk)
      · exact h2
    · exact h2

theorem writeSpan_keeps  {a0 : Nat} {a1 : Nat} {a2 : List (Option Byte)} {s0 s : State} (hk : Keeps s0 s) : Keeps s0 (writeSpan a0 a1 a2 s) := by
  induction a0 generalizing a1 a2 s with
  | zero => exact hk
  | succ n ih =>
    unfold writeSpan
    repeat' first
      | with_reducible assumption
      | with_reducible apply ih
      | with_reducible apply write64_keeps
      | with_reducible apply write32_keeps
      | split
      | simp only [↓keeps_mk]

theorem registerWrite_keeps {off : Nat} {size : Size} {val : Nat} {s0 s : State} (hk : Keeps s0 s) : Keeps s0 (registerWrite off size val s) := by
  unfold registerWrite
  repeat' first
    | with_reducible assumption
    | with_reducible apply writeSpan_keeps
    | split
    | simp only [↓keeps_mk]

theorem reg64LowRead_keeps {off : Nat} {s0 s : State} (hk : Keeps s0 s) : Keeps s0 (reg64LowRead off s) := by
  unfold reg64LowRead
  repeat' first
    | with_reducible assumption
    | (extract_lets +onlyGivenNames lx; first | ((first | refine keeps_cut lx ?_ (fun _ => ?_) | refine keeps_cut1 lx ?_ (fun _ => ?_) | refine keeps_cut2 lx ?_ (fun _ => ?_)); rotate_left; clear_value lx; revert lx; intro y hy; rotate_right; subst lx) | (clear_value lx; revert lx; intro y) | subst lx)
    | with_reducible apply read32_keeps
    | with_reducible apply send_keeps

theorem reg64HighWrite_keeps {off v : Nat} {s0 s : State} (hk : Keeps s0 s) : Keeps s0 (reg64HighWrite off v s) := by
  unfold reg64HighWrite
  repeat' first
    | with_reducible assumption
    | with_reducible apply write32_keeps

theorem sendCpl_keeps {st : CplStatus} {off : Nat} {data : List Byte} {s0 s : State} (hk : Keeps s0 s) : Keeps s0 (sendCpl s st off data) := by
  unfold sendCpl
  repeat' first
    | with_reducible assumption
    | (intro)
    | with_reducible apply send_keeps
    | with_reducible apply each_keeps
    | split

theorem memoryRead_keeps {r : ReadReq} {s0 s : State} (hk : Keeps s0 s) : Keeps s0 (memoryRead r s) := by
  unfold memoryRead
  repeat' first
    | with_reducible assumption
    | (intro)
    | (extract_lets +onlyGivenNames lx; first | ((first | refine keeps_cut lx ?_ (fun _ => ?_) | refine keeps_cut1 lx ?_ (fun _ => ?_) | refine keeps_cut2 lx ?_ (fun _ => ?_)); rotate_left; clear_value lx; revert lx; intro y hy; rotate_right; subst lx) | (clear_value lx; revert lx; intro y) | subst lx)
    | with_reducible apply unsupported_keeps
    | with_reducible apply completerAbort_keeps
    | with_reducible apply bar0Read_keeps
    | with_reducible apply send_keeps
    | with_reducible apply sendCpl_keeps
    | with_reducible apply eccCorrected_keeps
    | with_reducible apply uncorrectable_keeps
    | with_reducible apply eccUncorrectable_keeps
    | split
    | simp only [↓keeps_mk]

theorem bar2Write_keeps {a : Nat} {l : List (Option Byte)} {s0 s : State} (hk : Keeps s0 s) : Keeps s0 (bar2Write a l s) := by
  induction l generalizing a s with
  | nil => exact hk
  | cons e l ih =>
    cases e with
    | none => exact ih hk
    | some b => exact ih (hbmSet_keeps hk)

theorem memoryWrite_keeps {w : WriteReq} {s0 s : State} (hk : Keeps s0 s) : Keeps s0 (memoryWrite w s) := by
  unfold memoryWrite
  repeat' first
    | with_reducible assumption
    | (extract_lets +onlyGivenNames lx; first | (refine keeps_cut lx ?_ (fun _ => ?_); rotate_left; clear_value lx; revert lx; intro y hy; rotate_right; subst lx) | (clear_value lx; revert lx; intro y) | subst lx)
    | with_reducible apply unsupported_keeps
    | with_reducible apply poisonedTlp_keeps
    | with_reducible apply bar2Write_keeps
    | with_reducible apply writeSpan_keeps
    | split
    | simp only [↓keeps_mk]

theorem onHost_keeps {f : State → State} {s0 s : State} (hf : ∀ u, Keeps s0 u → Keeps s0 (f u)) (hk : Keeps s0 s) : Keeps s0 (onHost f s) := by
  unfold onHost; split
  · exact finish_keeps (hf s hk)
  · exact hk

theorem onMain_keeps {f : State → State} {s0 s : State} (hf : ∀ u, Keeps s0 u → Keeps s0 (f u)) (hk : Keeps s0 s) : Keeps s0 (onMain f s) := by
  unfold onMain; split
  · exact finish_keeps (hf s hk)
  · exact hk

theorem onAon_keeps {f : State → State} {s0 s : State} (hf : ∀ u, Keeps s0 u → Keeps s0 (f u)) (hk : Keeps s0 s) : Keeps s0 (onAon f s) := by
  unfold onAon; split
  · exact finish_keeps (hf s hk)
  · exact hk

theorem onAonIf_keeps {aon : Bool} {f : State → State} {s0 s : State} (hf : ∀ u, Keeps s0 u → Keeps s0 (f u)) (hk : Keeps s0 s) : Keeps s0 (onAonIf aon f s) := by
  unfold onAonIf; split
  · exact onAon_keeps hf hk
  · exact onMain_keeps hf hk

theorem anyTime_keeps {f : State → State} {s0 s : State} (hf : ∀ u, Keeps s0 u → Keeps s0 (f u)) (hk : Keeps s0 s) : Keeps s0 (anyTime f s) :=
  finish_keeps (hf s hk)

theorem atPort_keeps {f g : State → State} {s0 s : State} (hf : ∀ u, Keeps s0 u → Keeps s0 (f u)) (hg : ∀ u, Keeps s0 u → Keeps s0 (g u)) (hk : Keeps s0 s) :
    Keeps s0 (atPort f g s) := by
  unfold atPort; split
  · exact finish_keeps (hf s hk)
  · split
    · exact finish_keeps (hg s hk)
    · exact hk

theorem pinBreak_keeps {p pair v : Nat} {s0 s : State} (hk : Keeps s0 s) : Keeps s0 (pinBreak p pair v s) := by
  unfold pinBreak
  repeat' first
    | with_reducible assumption
    | (intro)
    | with_reducible apply onlyIf_keeps
    | with_reducible apply wr_keeps
    | split

theorem holdLow_keeps {a v : Nat} {s0 s : State} (hk : Keeps s0 s) : Keeps s0 (holdLow s a v) := by
  unfold holdLow
  repeat' first | exact hk | exact heldSet_keeps hk | split

theorem dmaHeadWhole_keeps {c v : Nat} {s0 s : State} (hk : Keeps s0 s) : Keeps s0 (dmaHeadWhole c v s) := by
  unfold dmaHeadWhole
  repeat' first
    | with_reducible assumption
    | with_reducible apply dmaHeadWrite_keeps
    | with_reducible apply holdLow_keeps

theorem presetHigh_keeps {t hi : Nat} {s0 s : State} (hk : Keeps s0 s) : Keeps s0 (presetHigh t hi s) := by
  unfold presetHigh
  repeat' first
    | with_reducible assumption
    | with_reducible apply presetTrail_keeps

theorem domainSetHigh_keeps {d hi : Nat} {s0 s : State} (hk : Keeps s0 s) : Keeps s0 (domainSetHigh d hi s) := by
  unfold domainSetHigh
  repeat' first
    | with_reducible assumption
    | with_reducible apply domainSet_keeps

theorem domainAdjustHigh_keeps {d hi : Nat} {s0 s : State} (hk : Keeps s0 s) : Keeps s0 (domainAdjustHigh d hi s) := by
  unfold domainAdjustHigh
  repeat' first
    | with_reducible assumption
    | with_reducible apply domainAdjust_keeps

theorem tpgStartHigh_keeps {g hi : Nat} {s0 s : State} (hk : Keeps s0 s) : Keeps s0 (tpgStartHigh g hi s) := by
  unfold tpgStartHigh
  repeat' first
    | with_reducible assumption
    | with_reducible apply tpgStartWrite_keeps

theorem txqRead_keeps {p : Nat} {s0 s : State} (hk : Keeps s0 s) : Keeps s0 (txqRead p s) := by
  unfold txqRead
  repeat' first
    | with_reducible assumption
    | with_reducible apply send_keeps
    | with_reducible apply txqIdRead_keeps
    | split

theorem data3Read_keeps  {s0 s : State} (hk : Keeps s0 s) : Keeps s0 (data3Read s) := by
  unfold data3Read
  repeat' first
    | with_reducible assumption
    | with_reducible apply send_keeps
    | with_reducible apply tableData3Read_keeps

theorem groupRead_keeps {g : Nat} {s0 s : State} (hk : Keeps s0 s) : Keeps s0 (groupRead g s) := by
  unfold groupRead
  repeat' first
    | with_reducible assumption
    | with_reducible apply send_keeps
    | with_reducible apply groupFifoRead_keeps

theorem recordOffer_keeps {p : Nat} {r : RecOffer} {s0 s : State} (hk : Keeps s0 s) : Keeps s0 (recordOffer p r s) := by
  unfold recordOffer
  repeat' first
    | with_reducible assumption
    | with_reducible apply record_keeps

theorem linkEvent_keeps {x : LinkEvt} {s0 s : State} (hk : Keeps s0 s) : Keeps s0 (linkEvent x s) := by
  unfold linkEvent
  repeat' first
    | with_reducible assumption
    | (extract_lets +onlyGivenNames lx; first | (refine keeps_cut lx ?_ (fun _ => ?_); rotate_left; clear_value lx; revert lx; intro y hy; rotate_right; subst lx) | (clear_value lx; revert lx; intro y) | subst lx)
    | with_reducible apply linkState_keeps
    | with_reducible apply dlDown_keeps
    | with_reducible apply correctable_keeps
    | split
    | simp only [↓keeps_mk]

end Sys2Proof.Machine
end

