-- ==== Sys2Proof/Laws/KeepsCommands.lean ====
section
/-! SUPPORT. Each command answers a next state and keeps what every operation keeps. -/

set_option linter.all false

namespace Sys2Proof.Machine

theorem execRegisterWrite_keeps {off : BitVec 26} {size : Size} {val : BitVec 64} {s0 s : State} (hk : Keeps s0 s) : ∃ z, execRegisterWrite off size val s = .next z ∧ Keeps s0 z :=
  ⟨_, rfl, onHost_keeps (fun _ h => registerWrite_keeps h) hk⟩

theorem execReg64LowRead_keeps {off : BitVec 26} {s0 s : State} (hk : Keeps s0 s) : ∃ z, execReg64LowRead off s = .next z ∧ Keeps s0 z :=
  ⟨_, rfl, onHost_keeps (fun _ h => reg64LowRead_keeps h) hk⟩

theorem execReg64HighWrite_keeps {off : BitVec 26} {val : BitVec 32} {s0 s : State} (hk : Keeps s0 s) : ∃ z, execReg64HighWrite off val s = .next z ∧ Keeps s0 z :=
  ⟨_, rfl, onHost_keeps (fun _ h => reg64HighWrite_keeps h) hk⟩

theorem execMemoryReadRequest_keeps {r : ReadReq} {s0 s : State} (hk : Keeps s0 s) : ∃ z, execMemoryReadRequest r s = .next z ∧ Keeps s0 z :=
  ⟨_, rfl, onHost_keeps (fun _ h => memoryRead_keeps h) hk⟩

theorem execMemoryWriteRequest_keeps {w : WriteReq} {s0 s : State} (hk : Keeps s0 s) : ∃ z, execMemoryWriteRequest w s = .next z ∧ Keeps s0 z :=
  ⟨_, rfl, onHost_keeps (fun _ h => memoryWrite_keeps h) hk⟩

theorem execConfigRequest_keeps {c : CfgReq} {s0 s : State} (hk : Keeps s0 s) : ∃ z, execConfigRequest c s = .next z ∧ Keeps s0 z :=
  ⟨_, rfl, onHost_keeps (fun _ h => configRequest_keeps h) hk⟩

theorem execBusMasterEnableClear_keeps  {s0 s : State} (hk : Keeps s0 s) : ∃ z, execBusMasterEnableClear s = .next z ∧ Keeps s0 z :=
  ⟨_, rfl, onHost_keeps (fun _ h => busMasterClear_keeps h) hk⟩

theorem execPowerStateChange_keeps {d3 : Bool} {s0 s : State} (hk : Keeps s0 s) : ∃ z, execPowerStateChange d3 s = .next z ∧ Keeps s0 z :=
  ⟨_, rfl, onHost_keeps (fun _ h => powerState_keeps h) hk⟩

theorem execVectorUnmask_keeps {v : Fin 2048} {s0 s : State} (hk : Keeps s0 s) : ∃ z, execVectorUnmask v s = .next z ∧ Keeps s0 z :=
  ⟨_, rfl, onHost_keeps (fun _ h => vectorUnmask_keeps h) hk⟩

theorem execEnableWrite_keeps {b : Block} {en : Bool} {s0 s : State} (hk : Keeps s0 s) : ∃ z, execEnableWrite b en s = .next z ∧ Keeps s0 z :=
  ⟨_, rfl, onHost_keeps (fun _ h => enableWrite_keeps h) hk⟩

theorem execEnableSetupComplete_keeps {b : Block} {s0 s : State} (hk : Keeps s0 s) : ∃ z, execEnableSetupComplete b s = .next z ∧ Keeps s0 z :=
  ⟨_, rfl, onMain_keeps (fun _ h => enableSetupComplete_keeps h) hk⟩

theorem execQuiesceComplete_keeps {b : Block} {s0 s : State} (hk : Keeps s0 s) : ∃ z, execQuiesceComplete b s = .next z ∧ Keeps s0 z :=
  ⟨_, rfl, onMain_keeps (fun _ h => quiesceComplete_keeps h) hk⟩

theorem execCounterClearGo_keeps {b : CntBlock} {s0 s : State} (hk : Keeps s0 s) : ∃ z, execCounterClearGo b s = .next z ∧ Keeps s0 z :=
  ⟨_, rfl, onHost_keeps (fun _ h => counterClear_keeps h) hk⟩

theorem execModeRequest_keeps {req : BitVec 4} {s0 s : State} (hk : Keeps s0 s) : ∃ z, execModeRequest req s = .next z ∧ Keeps s0 z :=
  ⟨_, rfl, onHost_keeps (fun _ h => modeRequest_keeps h) hk⟩

theorem execHoldLimitExpire_keeps {st : StreamIx} {s0 s : State} (hk : Keeps s0 s) : ∃ z, execHoldLimitExpire st s = .next z ∧ Keeps s0 z :=
  ⟨_, rfl, onMain_keeps (fun _ h => holdLimit_keeps h) hk⟩

theorem execStopReached_keeps  {s0 s : State} (hk : Keeps s0 s) : ∃ z, execStopReached s = .next z ∧ Keeps s0 z :=
  ⟨_, rfl, onMain_keeps (fun _ h => stopReached_keeps h) hk⟩

theorem execDrainComplete_keeps  {s0 s : State} (hk : Keeps s0 s) : ∃ z, execDrainComplete s = .next z ∧ Keeps s0 z :=
  ⟨_, rfl, onMain_keeps (fun _ h => drainComplete_keeps h) hk⟩

theorem execDrainTimeout_keeps  {s0 s : State} (hk : Keeps s0 s) : ∃ z, execDrainTimeout s = .next z ∧ Keeps s0 z :=
  ⟨_, rfl, onMain_keeps (fun _ h => drainTimeout_keeps h) hk⟩

theorem execCalibrateRoutineEnd_keeps {done failed : BitVec 3} {meas : CalResults} {aborted : Bool} {s0 s : State} (hk : Keeps s0 s) : ∃ z, execCalibrateRoutineEnd done failed meas aborted s = .next z ∧ Keeps s0 z :=
  ⟨_, rfl, onMain_keeps (fun _ h => calibrateRoutineEnd_keeps h) hk⟩

theorem execEncoderEdge_keeps {p : PortIx} {a b : Bool} {s0 s : State} (hk : Keeps s0 s) : ∃ z, execEncoderEdge p a b s = .next z ∧ Keeps s0 z :=
  ⟨_, rfl, atPort_keeps (fun _ h => encoderEdge_keeps h) (fun _ h => frontEdge_keeps h) hk⟩

theorem execLineBreakEnter_keeps {p : PortIx} {pair : Pair} {s0 s : State} (hk : Keeps s0 s) : ∃ z, execLineBreakEnter p pair s = .next z ∧ Keeps s0 z :=
  ⟨_, rfl, atPort_keeps (fun _ h => lineBreakEnter_keeps h) (fun _ h => pinBreak_keeps h) hk⟩

theorem execLineBreakClear_keeps {p : PortIx} {pair : Pair} {s0 s : State} (hk : Keeps s0 s) : ∃ z, execLineBreakClear p pair s = .next z ∧ Keeps s0 z :=
  ⟨_, rfl, atPort_keeps (fun _ h => lineBreakClear_keeps h) (fun _ h => pinBreak_keeps h) hk⟩

theorem execZIndexEdge_keeps {e : ZEdge} {s0 s : State} (hk : Keeps s0 s) : ∃ z, execZIndexEdge e s = .next z ∧ Keeps s0 z :=
  ⟨_, rfl, onMain_keeps (fun _ h => zIndexEdge_keeps h) hk⟩

theorem execSpeedWindowEnd_keeps {t : TrailIx} {s0 s : State} (hk : Keeps s0 s) : ∃ z, execSpeedWindowEnd t s = .next z ∧ Keeps s0 z :=
  ⟨_, rfl, onMain_keeps (fun _ h => speedWindowEnd_keeps h) hk⟩

theorem execStandstillTimeout_keeps {t : TrailIx} {s0 s : State} (hk : Keeps s0 s) : ∃ z, execStandstillTimeout t s = .next z ∧ Keeps s0 z :=
  ⟨_, rfl, onMain_keeps (fun _ h => standstill_keeps h) hk⟩

theorem execSerialFrameStart_keeps {p : PortIx} {s0 s : State} (hk : Keeps s0 s) : ∃ z, execSerialFrameStart p s = .next z ∧ Keeps s0 z :=
  ⟨_, rfl, onMain_keeps (fun _ h => serialFrameStart_keeps h) hk⟩

theorem execSerialSample_keeps {p : PortIx} {word : BitVec 64} {crcOk ne : Bool} {s0 s : State} (hk : Keeps s0 s) : ∃ z, execSerialSample p word crcOk ne s = .next z ∧ Keeps s0 z :=
  ⟨_, rfl, onMain_keeps (fun _ h => serialSample_keeps h) hk⟩

theorem execSerialStartBitTimeout_keeps {p : PortIx} {s0 s : State} (hk : Keeps s0 s) : ∃ z, execSerialStartBitTimeout p s = .next z ∧ Keeps s0 z :=
  ⟨_, rfl, onMain_keeps (fun _ h => serialStartTimeout_keeps h) hk⟩

theorem execTrailPreset_keeps {t : TrailIx} {hi : BitVec 32} {s0 s : State} (hk : Keeps s0 s) : ∃ z, execTrailPreset t hi s = .next z ∧ Keeps s0 z :=
  ⟨_, rfl, onHost_keeps (fun _ h => presetHigh_keeps h) hk⟩

theorem execHomeCapture_keeps {k : HomeIx} {s0 s : State} (hk : Keeps s0 s) : ∃ z, execHomeCapture k s = .next z ∧ Keeps s0 z :=
  ⟨_, rfl, onMain_keeps (fun _ h => homeCapture_keeps h) hk⟩

theorem execHomeLimitChange_keeps {k : HomeIx} {level : Bool} {s0 s : State} (hk : Keeps s0 s) : ∃ z, execHomeLimitChange k level s = .next z ∧ Keeps s0 z :=
  ⟨_, rfl, onMain_keeps (fun _ h => homeLimitChange_keeps h) hk⟩

theorem execTrlPortCfgWrite_keeps {p : PortIx} {v : BitVec 32} {s0 s : State} (hk : Keeps s0 s) : ∃ z, execTrlPortCfgWrite p v s = .next z ∧ Keeps s0 z :=
  ⟨_, rfl, onHost_keeps (fun _ h => portCfgWrite_keeps h) hk⟩

theorem execTrlUntrustedClear_keeps {t : TrailIx} {s0 s : State} (hk : Keeps s0 s) : ∃ z, execTrlUntrustedClear t s = .next z ∧ Keeps s0 z :=
  ⟨_, rfl, onHost_keeps (fun _ h => untrustedClear_keeps h) hk⟩

theorem execLanternCorrection_keeps {p : PortIx} {s0 s : State} (hk : Keeps s0 s) : ∃ z, execLanternCorrection p s = .next z ∧ Keeps s0 z :=
  ⟨_, rfl, onAon_keeps (fun _ h => lanternCorrection_keeps h) hk⟩

theorem execDividerEdge_keeps {d : DivIx} {s0 s : State} (hk : Keeps s0 s) : ∃ z, execDividerEdge d s = .next z ∧ Keeps s0 z :=
  ⟨_, rfl, onMain_keeps (fun _ h => dividerEdge_keeps h) hk⟩

theorem execDomainSet_keeps {d : DomIx} {hi : BitVec 32} {s0 s : State} (hk : Keeps s0 s) : ∃ z, execDomainSet d hi s = .next z ∧ Keeps s0 z :=
  ⟨_, rfl, onHost_keeps (fun _ h => domainSetHigh_keeps h) hk⟩

theorem execDomainAdjust_keeps {d : DomIx} {hi : BitVec 32} {s0 s : State} (hk : Keeps s0 s) : ∃ z, execDomainAdjust d hi s = .next z ∧ Keeps s0 z :=
  ⟨_, rfl, onHost_keeps (fun _ h => domainAdjustHigh_keeps h) hk⟩

theorem execTimeSnapshot_keeps  {s0 s : State} (hk : Keeps s0 s) : ∃ z, execTimeSnapshot s = .next z ∧ Keeps s0 z :=
  ⟨_, rfl, onHost_keeps (fun _ h => timeSnapshot_keeps h) hk⟩

theorem execDomainSrcWrite_keeps {d : DomIx} {v : BitVec 32} {s0 s : State} (hk : Keeps s0 s) : ∃ z, execDomainSrcWrite d v s = .next z ∧ Keeps s0 z :=
  ⟨_, rfl, onHost_keeps (fun _ h => domainSrcWrite_keeps h) hk⟩

theorem execOffsetSample_keeps {d : DomIx} {x : OffSample} {s0 s : State} (hk : Keeps s0 s) : ∃ z, execOffsetSample d x s = .next z ∧ Keeps s0 z :=
  ⟨_, rfl, onMain_keeps (fun _ h => offsetSample_keeps h) hk⟩

theorem execPtmDialogue_keeps {d : DomIx} {x : PtmSample} {s0 s : State} (hk : Keeps s0 s) : ∃ z, execPtmDialogue d x s = .next z ∧ Keeps s0 z :=
  ⟨_, rfl, onMain_keeps (fun _ h => ptmDialogue_keeps h) hk⟩

theorem execSampleLossHoldover_keeps {d : DomIx} {s0 s : State} (hk : Keeps s0 s) : ∃ z, execSampleLossHoldover d s = .next z ∧ Keeps s0 z :=
  ⟨_, rfl, onMain_keeps (fun _ h => sampleLoss_keeps h) hk⟩

theorem execPathWindowExpire_keeps {n : LaneIx} {s0 s : State} (hk : Keeps s0 s) : ∃ z, execPathWindowExpire n s = .next z ∧ Keeps s0 z :=
  ⟨_, rfl, onMain_keeps (fun _ h => pathWindowExpire_keeps h) hk⟩

theorem execTxqIdRead_keeps {n : LaneIx} {s0 s : State} (hk : Keeps s0 s) : ∃ z, execTxqIdRead n s = .next z ∧ Keeps s0 z :=
  ⟨_, rfl, onHost_keeps (fun _ h => txqRead_keeps h) hk⟩

theorem execTpgFire_keeps {g : TpgIx} {s0 s : State} (hk : Keeps s0 s) : ∃ z, execTpgFire g s = .next z ∧ Keeps s0 z :=
  ⟨_, rfl, onMain_keeps (fun _ h => tpgFire_keeps h) hk⟩

theorem execTpgStartWrite_keeps {g : TpgIx} {hi : BitVec 32} {s0 s : State} (hk : Keeps s0 s) : ∃ z, execTpgStartWrite g hi s = .next z ∧ Keeps s0 z :=
  ⟨_, rfl, onHost_keeps (fun _ h => tpgStartHigh_keeps h) hk⟩

theorem execStakeFire_keeps {n : StakeIx} {reads : List MemEcc} {s0 s : State} (hk : Keeps s0 s) : ∃ z, execStakeFire n reads s = .next z ∧ Keeps s0 z :=
  ⟨_, rfl, onMain_keeps (fun _ h => stakeFire_keeps h) hk⟩

theorem execStakeSeekComplete_keeps {n : StakeIx} {reads : List MemEcc} {s0 s : State} (hk : Keeps s0 s) : ∃ z, execStakeSeekComplete n reads s = .next z ∧ Keeps s0 z :=
  ⟨_, rfl, onMain_keeps (fun _ h => stakeSeekComplete_keeps h) hk⟩

theorem execStkTableAddrWrite_keeps {v : BitVec 32} {s0 s : State} (hk : Keeps s0 s) : ∃ z, execStkTableAddrWrite v s = .next z ∧ Keeps s0 z :=
  ⟨_, rfl, onHost_keeps (fun _ h => tableAddrWrite_keeps h) hk⟩

theorem execStkTableData3Write_keeps {v : BitVec 32} {s0 s : State} (hk : Keeps s0 s) : ∃ z, execStkTableData3Write v s = .next z ∧ Keeps s0 z :=
  ⟨_, rfl, onHost_keeps (fun _ h => tableData3Write_keeps h) hk⟩

theorem execStkTableData3Read_keeps  {s0 s : State} (hk : Keeps s0 s) : ∃ z, execStkTableData3Read s = .next z ∧ Keeps s0 z :=
  ⟨_, rfl, onHost_keeps (fun _ h => data3Read_keeps h) hk⟩

theorem execStakeRearm_keeps {n : StakeIx} {s0 s : State} (hk : Keeps s0 s) : ∃ z, execStakeRearm n s = .next z ∧ Keeps s0 z :=
  ⟨_, rfl, onHost_keeps (fun _ h => stakeRearm_keeps h) hk⟩

theorem execPinPulseEnd_keeps {p : PinIx} {s0 s : State} (hk : Keeps s0 s) : ∃ z, execPinPulseEnd p s = .next z ∧ Keeps s0 z :=
  ⟨_, rfl, onMain_keeps (fun _ h => pinPulseEnd_keeps h) hk⟩

theorem execCxpTriggerSend_keeps {n : LaneIx} {s0 s : State} (hk : Keeps s0 s) : ∃ z, execCxpTriggerSend n s = .next z ∧ Keeps s0 z :=
  ⟨_, rfl, onMain_keeps (fun _ h => cxpTriggerSend_keeps h) hk⟩

theorem execCxpFallTriggerSend_keeps {n : LaneIx} {s0 s : State} (hk : Keeps s0 s) : ∃ z, execCxpFallTriggerSend n s = .next z ∧ Keeps s0 z :=
  ⟨_, rfl, onMain_keeps (fun _ h => cxpFallSend_keeps h) hk⟩

theorem execLaneSignalDetect_keeps {n : LaneIx} {disc : Option Discovered} {s0 s : State} (hk : Keeps s0 s) : ∃ z, execLaneSignalDetect n disc s = .next z ∧ Keeps s0 z :=
  ⟨_, rfl, onMain_keeps (fun _ h => laneSignalDetect_keeps h) hk⟩

theorem execLaneNoSignalTimeout_keeps {n : LaneIx} {s0 s : State} (hk : Keeps s0 s) : ∃ z, execLaneNoSignalTimeout n s = .next z ∧ Keeps s0 z :=
  ⟨_, rfl, onMain_keeps (fun _ h => laneNoSignal_keeps h) hk⟩

theorem execLaneAligned_keeps {n : LaneIx} {s0 s : State} (hk : Keeps s0 s) : ∃ z, execLaneAligned n s = .next z ∧ Keeps s0 z :=
  ⟨_, rfl, onMain_keeps (fun _ h => laneAligned_keeps h) hk⟩

theorem execLaneAlignTimeout_keeps {n : LaneIx} {s0 s : State} (hk : Keeps s0 s) : ∃ z, execLaneAlignTimeout n s = .next z ∧ Keeps s0 z :=
  ⟨_, rfl, onMain_keeps (fun _ h => laneAlignTimeout_keeps h) hk⟩

theorem execLaneDeskewDone_keeps {n : LaneIx} {skews : List (BitVec 16)} {s0 s : State} (hk : Keeps s0 s) : ∃ z, execLaneDeskewDone n skews s = .next z ∧ Keeps s0 z :=
  ⟨_, rfl, onMain_keeps (fun _ h => laneDeskewDone_keeps h) hk⟩

theorem execLaneLinkLoss_keeps {n : LaneIx} {cause : LossCause} {s0 s : State} (hk : Keeps s0 s) : ∃ z, execLaneLinkLoss n cause s = .next z ∧ Keeps s0 z :=
  ⟨_, rfl, onMain_keeps (fun _ h => laneLinkLoss_keeps h) hk⟩

theorem execLaneRetrainDone_keeps {n : LaneIx} {s0 s : State} (hk : Keeps s0 s) : ∃ z, execLaneRetrainDone n s = .next z ∧ Keeps s0 z :=
  ⟨_, rfl, onMain_keeps (fun _ h => laneRetrainDone_keeps h) hk⟩

theorem execCamCtlRead_keeps {n : LaneIx} {len : BitVec 9} {s0 s : State} (hk : Keeps s0 s) : ∃ z, execCamCtlRead n len s = .next z ∧ Keeps s0 z :=
  ⟨_, rfl, onHost_keeps (fun _ h => camCtl_keeps h) hk⟩

theorem execCamCtlWrite_keeps {n : LaneIx} {len : BitVec 9} {s0 s : State} (hk : Keeps s0 s) : ∃ z, execCamCtlWrite n len s = .next z ∧ Keeps s0 z :=
  ⟨_, rfl, onHost_keeps (fun _ h => camCtl_keeps h) hk⟩

theorem execCamCtlAnswer_keeps {n : LaneIx} {code : BitVec 16} {x : CtlAnswer} {s0 s : State} (hk : Keeps s0 s) : ∃ z, execCamCtlAnswer n code x s = .next z ∧ Keeps s0 z :=
  ⟨_, rfl, onMain_keeps (fun _ h => camCtlAnswer_keeps h) hk⟩

theorem execCamCtlTimeout_keeps {n : LaneIx} {s0 s : State} (hk : Keeps s0 s) : ∃ z, execCamCtlTimeout n s = .next z ∧ Keeps s0 z :=
  ⟨_, rfl, onMain_keeps (fun _ h => camCtlTimeout_keeps h) hk⟩

theorem execCxpEventPacket_keeps {n : LaneIx} {x : EventPacket} {s0 s : State} (hk : Keeps s0 s) : ∃ z, execCxpEventPacket n x s = .next z ∧ Keeps s0 z :=
  ⟨_, rfl, onMain_keeps (fun _ h => cxpEventPacket_keeps h) hk⟩

theorem execCxpStreamPacket_keeps {n : LaneIx} {x : CxpPacket} {s0 s : State} (hk : Keeps s0 s) : ∃ z, execCxpStreamPacket n x s = .next z ∧ Keeps s0 z :=
  ⟨_, rfl, onMain_keeps (fun _ h => cxpStreamPacket_keeps h) hk⟩

theorem execEthFrameReceive_keeps {n : LaneIx} {x : EthFrame} {s0 s : State} (hk : Keeps s0 s) : ∃ z, execEthFrameReceive n x s = .next z ∧ Keeps s0 z :=
  ⟨_, rfl, onMain_keeps (fun _ h => ethFrameReceive_keeps h) hk⟩

theorem execGvspResendWait_keeps {st : StreamIx} {s0 s : State} (hk : Keeps s0 s) : ∃ z, execGvspResendWait st s = .next z ∧ Keeps s0 z :=
  ⟨_, rfl, onMain_keeps (fun _ h => gvspResendWait_keeps h) hk⟩

theorem execGvspBlockTimeout_keeps {st : StreamIx} {s0 s : State} (hk : Keeps s0 s) : ∃ z, execGvspBlockTimeout st s = .next z ∧ Keeps s0 z :=
  ⟨_, rfl, onMain_keeps (fun _ h => gvspBlockTimeout_keeps h) hk⟩

theorem execGvcpHeartbeatSend_keeps {n : LaneIx} {s0 s : State} (hk : Keeps s0 s) : ∃ z, execGvcpHeartbeatSend n s = .next z ∧ Keeps s0 z :=
  ⟨_, rfl, onMain_keeps (fun _ h => gvcpHeartbeat_keeps h) hk⟩

theorem execRawRxPop_keeps {n : LaneIx} {s0 s : State} (hk : Keeps s0 s) : ∃ z, execRawRxPop n s = .next z ∧ Keeps s0 z :=
  ⟨_, rfl, onHost_keeps (fun _ h => rawRxPop_keeps h) hk⟩

theorem execRawTxSend_keeps {n : LaneIx} {len : BitVec 12} {s0 s : State} (hk : Keeps s0 s) : ∃ z, execRawTxSend n len s = .next z ∧ Keeps s0 z :=
  ⟨_, rfl, onHost_keeps (fun _ h => rawTxSend_keeps h) hk⟩

theorem execCameraLine_keeps {st : StreamIx} {x : Option CamLine} {s0 s : State} (hk : Keeps s0 s) : ∃ z, execCameraLine st x s = .next z ∧ Keeps s0 z :=
  ⟨_, rfl, onMain_keeps (fun _ h => cameraLine_keeps h) hk⟩

theorem execLineAssemble_keeps {st : StreamIx} {s0 s : State} (hk : Keeps s0 s) : ∃ z, execLineAssemble st s = .next z ∧ Keeps s0 z :=
  ⟨_, rfl, onMain_keeps (fun _ h => lineAssemble_keeps h) hk⟩

theorem execMarkReportArrive_keeps {u : CompassIx} {s0 s : State} (hk : Keeps s0 s) : ∃ z, execMarkReportArrive u s = .next z ∧ Keeps s0 z :=
  ⟨_, rfl, onMain_keeps (fun _ h => markReportArrive_keeps h) hk⟩

theorem execChgCommitGo_keeps {v : BitVec 32} {s0 s : State} (hk : Keeps s0 s) : ∃ z, execChgCommitGo v s = .next z ∧ Keeps s0 z :=
  ⟨_, rfl, onHost_keeps (fun _ h => chgCommit_keeps h) hk⟩

theorem execChgCommitWithdraw_keeps  {s0 s : State} (hk : Keeps s0 s) : ∃ z, execChgCommitWithdraw s = .next z ∧ Keeps s0 z :=
  ⟨_, rfl, onHost_keeps (fun _ h => chgWithdraw_keeps h) hk⟩

theorem execHandoverCycle_keeps  {s0 s : State} (hk : Keeps s0 s) : ∃ z, execHandoverCycle s = .next z ∧ Keeps s0 z :=
  ⟨_, rfl, onMain_keeps (fun _ h => handoverCycle_keeps h) hk⟩

theorem execShadowCopyComplete_keeps  {s0 s : State} (hk : Keeps s0 s) : ∃ z, execShadowCopyComplete s = .next z ∧ Keeps s0 z :=
  ⟨_, rfl, onMain_keeps (fun _ h => shadowCopyComplete_keeps h) hk⟩

theorem execLeadCopyComplete_keeps {st : StreamIx} {s0 s : State} (hk : Keeps s0 s) : ∃ z, execLeadCopyComplete st s = .next z ∧ Keeps s0 z :=
  ⟨_, rfl, onMain_keeps (fun _ h => leadCopyComplete_keeps h) hk⟩

theorem execConjunctionEnd_keeps  {s0 s : State} (hk : Keeps s0 s) : ∃ z, execConjunctionEnd s = .next z ∧ Keeps s0 z :=
  ⟨_, rfl, onMain_keeps (fun _ h => conjunctionEnd_keeps h) hk⟩

theorem execConjunctionLimitExpire_keeps  {s0 s : State} (hk : Keeps s0 s) : ∃ z, execConjunctionLimitExpire s = .next z ∧ Keeps s0 z :=
  ⟨_, rfl, onMain_keeps (fun _ h => conjunctionLimit_keeps h) hk⟩

theorem execChainLineProcess_keeps {st : StreamIx} {x : ChainEcc} {s0 s : State} (hk : Keeps s0 s) : ∃ z, execChainLineProcess st x s = .next z ∧ Keeps s0 z :=
  ⟨_, rfl, onMain_keeps (fun _ h => chainLineProcess_keeps h) hk⟩

theorem execFrameChainComplete_keeps {st : StreamIx} {s0 s : State} (hk : Keeps s0 s) : ∃ z, execFrameChainComplete st s = .next z ∧ Keeps s0 z :=
  ⟨_, rfl, onMain_keeps (fun _ h => frameChainComplete_keeps h) hk⟩

theorem execRateWindowEnd_keeps {st : StreamIx} {s0 s : State} (hk : Keeps s0 s) : ∃ z, execRateWindowEnd st s = .next z ∧ Keeps s0 z :=
  ⟨_, rfl, onMain_keeps (fun _ h => rateWindowEnd_keeps h) hk⟩

theorem execEngineWatchdog_keeps {e : EngineIx} {s0 s : State} (hk : Keeps s0 s) : ∃ z, execEngineWatchdog e s = .next z ∧ Keeps s0 z :=
  ⟨_, rfl, onMain_keeps (fun _ h => engineWatchdog_keeps h) hk⟩

theorem execCampSelfTestComplete_keeps {c : CampIx} {failed : BitVec 16} {s0 s : State} (hk : Keeps s0 s) : ∃ z, execCampSelfTestComplete c failed s = .next z ∧ Keeps s0 z :=
  ⟨_, rfl, onMain_keeps (fun _ h => campSelfTest_keeps h) hk⟩

theorem execItemOffer_keeps {x : OfferSrc} {s0 s : State} (hk : Keeps s0 s) : ∃ z, execItemOffer x s = .next z ∧ Keeps s0 z :=
  ⟨_, rfl, onMain_keeps (fun _ h => itemOffer_keeps h) hk⟩

theorem execItemWritten_keeps {q : QidIx} {x : ItemEcc} {s0 s : State} (hk : Keeps s0 s) : ∃ z, execItemWritten q x s = .next z ∧ Keeps s0 z :=
  ⟨_, rfl, onMain_keeps (fun _ h => itemWritten_keeps h) hk⟩

theorem execEllipsisWrite_keeps {q : QidIx} {s0 s : State} (hk : Keeps s0 s) : ∃ z, execEllipsisWrite q s = .next z ∧ Keeps s0 z :=
  ⟨_, rfl, onMain_keeps (fun _ h => ellipsisWrite_keeps h) hk⟩

theorem execQueueDoorbell_keeps {q : QAccess} {lo hi : Option (BitVec 32)} {s0 s : State} (hk : Keeps s0 s) : ∃ z, execQueueDoorbell q lo hi s = .next z ∧ Keeps s0 z :=
  ⟨_, rfl, onHost_keeps (fun _ h => queueDoorbell_keeps h) hk⟩

theorem execDoorbellApply_keeps  {s0 s : State} (hk : Keeps s0 s) : ∃ z, execDoorbellApply s = .next z ∧ Keeps s0 z :=
  ⟨_, rfl, onMain_keeps (fun _ h => doorbellApply_keeps h) hk⟩

theorem execQcmdRead_keeps {q : QAccess} {s0 s : State} (hk : Keeps s0 s) : ∃ z, execQcmdRead q s = .next z ∧ Keeps s0 z :=
  ⟨_, rfl, onHost_keeps (fun _ h => qcmdRead_keeps h) hk⟩

theorem execQcmdWrite_keeps {q : QAccess} {s0 s : State} (hk : Keeps s0 s) : ∃ z, execQcmdWrite q s = .next z ∧ Keeps s0 z :=
  ⟨_, rfl, onHost_keeps (fun _ h => qcmdWrite_keeps h) hk⟩

theorem execQcmdEnable_keeps {q : QAccess} {s0 s : State} (hk : Keeps s0 s) : ∃ z, execQcmdEnable q s = .next z ∧ Keeps s0 z :=
  ⟨_, rfl, onHost_keeps (fun _ h => qcmdEnable_keeps h) hk⟩

theorem execQcmdDisable_keeps {q : QAccess} {s0 s : State} (hk : Keeps s0 s) : ∃ z, execQcmdDisable q s = .next z ∧ Keeps s0 z :=
  ⟨_, rfl, onHost_keeps (fun _ h => qcmdDisable_keeps h) hk⟩

theorem execQcmdFlush_keeps {q : QAccess} {s0 s : State} (hk : Keeps s0 s) : ∃ z, execQcmdFlush q s = .next z ∧ Keeps s0 z :=
  ⟨_, rfl, onHost_keeps (fun _ h => qcmdFlush_keeps h) hk⟩

theorem execFlushedWrite_keeps {q : QidIx} {s0 s : State} (hk : Keeps s0 s) : ∃ z, execFlushedWrite q s = .next z ∧ Keeps s0 z :=
  ⟨_, rfl, onMain_keeps (fun _ h => flushedWrite_keeps h) hk⟩

theorem execGroupFifoRead_keeps {g : GroupIx} {s0 s : State} (hk : Keeps s0 s) : ∃ z, execGroupFifoRead g s = .next z ∧ Keeps s0 z :=
  ⟨_, rfl, onHost_keeps (fun _ h => groupRead_keeps h) hk⟩

theorem execGroupHoldoffEnd_keeps {g : GroupIx} {s0 s : State} (hk : Keeps s0 s) : ∃ z, execGroupHoldoffEnd g s = .next z ∧ Keeps s0 z :=
  ⟨_, rfl, onMain_keeps (fun _ h => groupHoldoffEnd_keeps h) hk⟩

theorem execDeliveryResume_keeps  {s0 s : State} (hk : Keeps s0 s) : ∃ z, execDeliveryResume s = .next z ∧ Keeps s0 z :=
  ⟨_, rfl, onHost_keeps (fun _ h => deliveryResume_keeps h) hk⟩

theorem execDmaDoorbell_keeps {t : DmaTouch} {s0 s : State} (hk : Keeps s0 s) : ∃ z, execDmaDoorbell t s = .next z ∧ Keeps s0 z :=
  ⟨_, rfl, onHost_keeps (fun _ h => dmaDoorbell_keeps h) hk⟩

theorem execDmaDescriptorComplete_keeps {t : DmaTouch} {ecc : EccResult} {staging : Bool} {addr : BitVec 35} {s0 s : State} (hk : Keeps s0 s) : ∃ z, execDmaDescriptorComplete t ecc staging addr s = .next z ∧ Keeps s0 z :=
  ⟨_, rfl, onMain_keeps (fun _ h => dmaComplete_keeps h) hk⟩

theorem execBarrierReadComplete_keeps {t : DmaTouch} {s0 s : State} (hk : Keeps s0 s) : ∃ z, execBarrierReadComplete t s = .next z ∧ Keeps s0 z :=
  ⟨_, rfl, onMain_keeps (fun _ h => barrierComplete_keeps h) hk⟩

theorem execDmaHeadWrite_keeps {c : DmaIx} {v : BitVec 64} {s0 s : State} (hk : Keeps s0 s) : ∃ z, execDmaHeadWrite c v s = .next z ∧ Keeps s0 z :=
  ⟨_, rfl, onHost_keeps (fun _ h => dmaHeadWhole_keeps h) hk⟩

theorem execDmaRestart_keeps {c : DmaIx} {s0 s : State} (hk : Keeps s0 s) : ∃ z, execDmaRestart c s = .next z ∧ Keeps s0 z :=
  ⟨_, rfl, onHost_keeps (fun _ h => dmaRestart_keeps h) hk⟩

theorem execEngineHaltClear_keeps  {s0 s : State} (hk : Keeps s0 s) : ∃ z, execEngineHaltClear s = .next z ∧ Keeps s0 z :=
  ⟨_, rfl, onHost_keeps (fun _ h => engineHaltClear_keeps h) hk⟩

theorem execCompletionReceive_keeps {tag : Fin 1024} {x : Cpl} {s0 s : State} (hk : Keeps s0 s) : ∃ z, execCompletionReceive tag x s = .next z ∧ Keeps s0 z :=
  ⟨_, rfl, onMain_keeps (fun _ h => completionReceive_keeps h) hk⟩

theorem execCompletionTimeout_keeps {tag : Fin 1024} {s0 s : State} (hk : Keeps s0 s) : ∃ z, execCompletionTimeout tag s = .next z ∧ Keeps s0 z :=
  ⟨_, rfl, onMain_keeps (fun _ h => completionTimeout_keeps h) hk⟩

theorem execQuarantineExpire_keeps {tag : Fin 1024} {s0 s : State} (hk : Keeps s0 s) : ∃ z, execQuarantineExpire tag s = .next z ∧ Keeps s0 z :=
  ⟨_, rfl, onMain_keeps (fun _ h => quarantineExpire_keeps h) hk⟩

theorem execL0sIdleExpire_keeps  {s0 s : State} (hk : Keeps s0 s) : ∃ z, execL0sIdleExpire s = .next z ∧ Keeps s0 z :=
  ⟨_, rfl, onMain_keeps (fun _ h => l0sIdle_keeps h) hk⟩

theorem execL1IdleExpire_keeps  {s0 s : State} (hk : Keeps s0 s) : ∃ z, execL1IdleExpire s = .next z ∧ Keeps s0 z :=
  ⟨_, rfl, onMain_keeps (fun _ h => l1Idle_keeps h) hk⟩

theorem execPerstAssert_keeps  {s0 s : State} (hk : Keeps s0 s) : ∃ z, execPerstAssert s = .next z ∧ Keeps s0 z :=
  ⟨_, rfl, anyTime_keeps (fun _ h => perstAssert_keeps h) hk⟩

theorem execHotReset_keeps  {s0 s : State} (hk : Keeps s0 s) : ∃ z, execHotReset s = .next z ∧ Keeps s0 z :=
  ⟨_, rfl, anyTime_keeps (fun _ h => hotReset_keeps h) hk⟩

theorem execDlDown_keeps  {s0 s : State} (hk : Keeps s0 s) : ∃ z, execDlDown s = .next z ∧ Keeps s0 z :=
  ⟨_, rfl, anyTime_keeps (fun _ h => dlDown_keeps h) hk⟩

theorem execResetHoldEnd_keeps  {s0 s : State} (hk : Keeps s0 s) : ∃ z, execResetHoldEnd s = .next z ∧ Keeps s0 z :=
  ⟨_, rfl, anyTime_keeps (fun _ h => resetHoldEnd_keeps h) hk⟩

theorem execPerstDeassert_keeps {role : BitVec 2} {wid : BitVec 4} {s0 s : State} (hk : Keeps s0 s) : ∃ z, execPerstDeassert role wid s = .next z ∧ Keeps s0 z :=
  ⟨_, rfl, anyTime_keeps (fun _ h => perstDeassert_keeps h) hk⟩

theorem execBootComplete_keeps {x : BootImage} {s0 s : State} (hk : Keeps s0 s) : ∃ z, execBootComplete x s = .next z ∧ Keeps s0 z :=
  ⟨_, rfl, onMain_keeps (fun _ h => bootComplete_keeps h) hk⟩

theorem execBootFail_keeps {cause0 cause1 : BitVec 3} {fuseErr : Bool} {s0 s : State} (hk : Keeps s0 s) : ∃ z, execBootFail cause0 cause1 fuseErr s = .next z ∧ Keeps s0 z :=
  ⟨_, rfl, onMain_keeps (fun _ h => bootFail_keeps h) hk⟩

theorem execQspiRelease_keeps  {s0 s : State} (hk : Keeps s0 s) : ∃ z, execQspiRelease s = .next z ∧ Keeps s0 z :=
  ⟨_, rfl, onMain_keeps (fun _ h => qspiRelease_keeps h) hk⟩

theorem execMbxGo_keeps {m : MbxIx} {s0 s : State} (hk : Keeps s0 s) : ∃ z, execMbxGo m s = .next z ∧ Keeps s0 z :=
  ⟨_, rfl, onHost_keeps (fun _ h => mbxGo_keeps h) hk⟩

theorem execMbxAbort_keeps {m : MbxIx} {s0 s : State} (hk : Keeps s0 s) : ∃ z, execMbxAbort m s = .next z ∧ Keeps s0 z :=
  ⟨_, rfl, onHost_keeps (fun _ h => mbxAbort_keeps h) hk⟩

theorem execMbxAck_keeps {m : MbxIx} {s0 s : State} (hk : Keeps s0 s) : ∃ z, execMbxAck m s = .next z ∧ Keeps s0 z :=
  ⟨_, rfl, onHost_keeps (fun _ h => mbxAck_keeps h) hk⟩

theorem execMpTakeCommand_keeps {sig : Option SigFact} {s0 s : State} (hk : Keeps s0 s) : ∃ z, execMpTakeCommand sig s = .next z ∧ Keeps s0 z :=
  ⟨_, rfl, onMain_keeps (fun _ h => mpTake_keeps h) hk⟩

theorem execLongCommandComplete_keeps {m : MbxIx} {x : LongEnd} {s0 s : State} (hk : Keeps s0 s) : ∃ z, execLongCommandComplete m x s = .next z ∧ Keeps s0 z :=
  ⟨_, rfl, onMain_keeps (fun _ h => longComplete_keeps h) hk⟩

theorem execFwWatchdog_keeps {mem : Option (BitVec 35)} {s0 s : State} (hk : Keeps s0 s) : ∃ z, execFwWatchdog mem s = .next z ∧ Keeps s0 z :=
  ⟨_, rfl, onMain_keeps (fun _ h => fwWatchdog_keeps h) hk⟩

theorem execNop_keeps {m : MbxIx} {s0 s : State} (hk : Keeps s0 s) : ∃ z, execNop m s = .next z ∧ Keeps s0 z :=
  ⟨_, rfl, onMain_keeps (fun _ h => runOp_keeps (fun _ _ h => edNop_keeps h) h) hk⟩

theorem execGetVersion_keeps {m : MbxIx} {s0 s : State} (hk : Keeps s0 s) : ∃ z, execGetVersion m s = .next z ∧ Keeps s0 z :=
  ⟨_, rfl, onMain_keeps (fun _ h => runOp_keeps (fun _ _ h => edGetVersion_keeps h) h) hk⟩

theorem execGetIdentity_keeps {m : MbxIx} {s0 s : State} (hk : Keeps s0 s) : ∃ z, execGetIdentity m s = .next z ∧ Keeps s0 z :=
  ⟨_, rfl, onMain_keeps (fun _ h => runOp_keeps (fun _ _ h => edGetIdentity_keeps h) h) hk⟩

theorem execAuthNonce_keeps {m : MbxIx} {s0 s : State} (hk : Keeps s0 s) : ∃ z, execAuthNonce m s = .next z ∧ Keeps s0 z :=
  ⟨_, rfl, onMain_keeps (fun _ h => runOp_keeps (fun _ _ h => edAuthNonce_keeps h) h) hk⟩

theorem execModeGet_keeps {m : MbxIx} {s0 s : State} (hk : Keeps s0 s) : ∃ z, execModeGet m s = .next z ∧ Keeps s0 z :=
  ⟨_, rfl, onMain_keeps (fun _ h => runOp_keeps (fun _ _ h => edModeGet_keeps h) h) hk⟩

theorem execServiceEnter_keeps {m : MbxIx} {s0 s : State} (hk : Keeps s0 s) : ∃ z, execServiceEnter m s = .next z ∧ Keeps s0 z :=
  ⟨_, rfl, onMain_keeps (fun _ h => runOp_keeps (fun _ _ h => edServiceEnter_keeps h) h) hk⟩

theorem execServiceExit_keeps {m : MbxIx} {s0 s : State} (hk : Keeps s0 s) : ∃ z, execServiceExit m s = .next z ∧ Keeps s0 z :=
  ⟨_, rfl, onMain_keeps (fun _ h => runOp_keeps (fun _ _ h => edServiceExit_keeps h) h) hk⟩

theorem execCalibrate_keeps {m : MbxIx} {s0 s : State} (hk : Keeps s0 s) : ∃ z, execCalibrate m s = .next z ∧ Keeps s0 z :=
  ⟨_, rfl, onMain_keeps (fun _ h => runOp_keeps (fun _ _ h => edCalibrate_keeps h) h) hk⟩

theorem execParamList_keeps {m : MbxIx} {s0 s : State} (hk : Keeps s0 s) : ∃ z, execParamList m s = .next z ∧ Keeps s0 z :=
  ⟨_, rfl, onMain_keeps (fun _ h => runOp_keeps (fun _ _ h => edParamList_keeps h) h) hk⟩

theorem execParamDesc_keeps {m : MbxIx} {s0 s : State} (hk : Keeps s0 s) : ∃ z, execParamDesc m s = .next z ∧ Keeps s0 z :=
  ⟨_, rfl, onMain_keeps (fun _ h => runOp_keeps (fun _ _ h => edParamDesc_keeps h) h) hk⟩

theorem execParamGet_keeps {m : MbxIx} {s0 s : State} (hk : Keeps s0 s) : ∃ z, execParamGet m s = .next z ∧ Keeps s0 z :=
  ⟨_, rfl, onMain_keeps (fun _ h => runOp_keeps (fun _ _ h => edParamGet_keeps h) h) hk⟩

theorem execParamSet_keeps {m : MbxIx} {s0 s : State} (hk : Keeps s0 s) : ∃ z, execParamSet m s = .next z ∧ Keeps s0 z :=
  ⟨_, rfl, onMain_keeps (fun _ h => runOp_keeps (fun _ _ h => edParamSet_keeps h) h) hk⟩

theorem execRecipeLoad_keeps {m : MbxIx} {s0 s : State} (hk : Keeps s0 s) : ∃ z, execRecipeLoad m s = .next z ∧ Keeps s0 z :=
  ⟨_, rfl, onMain_keeps (fun _ h => runOp_keeps (fun _ _ h => edRecipeLoad_keeps h) h) hk⟩

theorem execRecipeStage_keeps {m : MbxIx} {x : StageEvents} {s0 s : State} (hk : Keeps s0 s) : ∃ z, execRecipeStage m x s = .next z ∧ Keeps s0 z :=
  ⟨_, rfl, onMain_keeps (fun _ h => runOp_keeps (fun _ _ h => edRecipeStage_keeps h) h) hk⟩

theorem execRecipeCommit_keeps {m : MbxIx} {s0 s : State} (hk : Keeps s0 s) : ∃ z, execRecipeCommit m s = .next z ∧ Keeps s0 z :=
  ⟨_, rfl, onMain_keeps (fun _ h => runOp_keeps (fun _ _ h => edRecipeCommit_keeps h) h) hk⟩

theorem execRecipeFree_keeps {m : MbxIx} {s0 s : State} (hk : Keeps s0 s) : ∃ z, execRecipeFree m s = .next z ∧ Keeps s0 z :=
  ⟨_, rfl, onMain_keeps (fun _ h => runOp_keeps (fun _ _ h => edRecipeFree_keeps h) h) hk⟩

theorem execRecipeInfo_keeps {m : MbxIx} {s0 s : State} (hk : Keeps s0 s) : ∃ z, execRecipeInfo m s = .next z ∧ Keeps s0 z :=
  ⟨_, rfl, onMain_keeps (fun _ h => runOp_keeps (fun _ _ h => edRecipeInfo_keeps h) h) hk⟩

theorem execRecFlush_keeps {m : MbxIx} {s0 s : State} (hk : Keeps s0 s) : ∃ z, execRecFlush m s = .next z ∧ Keeps s0 z :=
  ⟨_, rfl, onMain_keeps (fun _ h => runOp_keeps (fun _ _ h => edRecFlush_keeps h) h) hk⟩

theorem execRecRead_keeps {m : MbxIx} {s0 s : State} (hk : Keeps s0 s) : ∃ z, execRecRead m s = .next z ∧ Keeps s0 z :=
  ⟨_, rfl, onMain_keeps (fun _ h => runOp_keeps (fun _ _ h => edRecRead_keeps h) h) hk⟩

theorem execRecClear_keeps {m : MbxIx} {s0 s : State} (hk : Keeps s0 s) : ∃ z, execRecClear m s = .next z ∧ Keeps s0 z :=
  ⟨_, rfl, onMain_keeps (fun _ h => runOp_keeps (fun _ _ h => edRecClear_keeps h) h) hk⟩

theorem execRecInfo_keeps {m : MbxIx} {s0 s : State} (hk : Keeps s0 s) : ∃ z, execRecInfo m s = .next z ∧ Keeps s0 z :=
  ⟨_, rfl, onMain_keeps (fun _ h => runOp_keeps (fun _ _ h => edRecInfo_keeps h) h) hk⟩

theorem execFwWrite_keeps {m : MbxIx} {s0 s : State} (hk : Keeps s0 s) : ∃ z, execFwWrite m s = .next z ∧ Keeps s0 z :=
  ⟨_, rfl, onMain_keeps (fun _ h => runOp_keeps (fun _ _ h => edFwWrite_keeps h) h) hk⟩

theorem execFwSelect_keeps {m : MbxIx} {s0 s : State} (hk : Keeps s0 s) : ∃ z, execFwSelect m s = .next z ∧ Keeps s0 z :=
  ⟨_, rfl, onMain_keeps (fun _ h => runOp_keeps (fun _ _ h => edFwSelect_keeps h) h) hk⟩

theorem execBoardRead_keeps {m : MbxIx} {s0 s : State} (hk : Keeps s0 s) : ∃ z, execBoardRead m s = .next z ∧ Keeps s0 z :=
  ⟨_, rfl, onMain_keeps (fun _ h => runOp_keeps (fun _ _ h => edBoardRead_keeps h) h) hk⟩

theorem execBoardWrite_keeps {m : MbxIx} {s0 s : State} (hk : Keeps s0 s) : ∃ z, execBoardWrite m s = .next z ∧ Keeps s0 z :=
  ⟨_, rfl, onMain_keeps (fun _ h => runOp_keeps (fun _ _ h => edBoardWrite_keeps h) h) hk⟩

theorem execChainInfo_keeps {m : MbxIx} {s0 s : State} (hk : Keeps s0 s) : ∃ z, execChainInfo m s = .next z ∧ Keeps s0 z :=
  ⟨_, rfl, onMain_keeps (fun _ h => runOp_keeps (fun _ _ h => edChainInfo_keeps h) h) hk⟩

theorem execAgeingRead_keeps {m : MbxIx} {s0 s : State} (hk : Keeps s0 s) : ∃ z, execAgeingRead m s = .next z ∧ Keeps s0 z :=
  ⟨_, rfl, onMain_keeps (fun _ h => runOp_keeps (fun _ _ h => edAgeingRead_keeps h) h) hk⟩

theorem execTetherMbxTimeout_keeps  {s0 s : State} (hk : Keeps s0 s) : ∃ z, execTetherMbxTimeout s = .next z ∧ Keeps s0 z :=
  ⟨_, rfl, onMain_keeps (fun _ h => tetherMbxTimeout_keeps h) hk⟩

theorem execGuylineEvent_keeps {ch : ChanIx} {hop : Fin 8} {s0 s : State} (hk : Keeps s0 s) : ∃ z, execGuylineEvent ch hop s = .next z ∧ Keeps s0 z :=
  ⟨_, rfl, onMain_keeps (fun _ h => guylineEvent_keeps h) hk⟩

theorem execRelayExpire_keeps {r : RelayIx} {s0 s : State} (hk : Keeps s0 s) : ∃ z, execRelayExpire r s = .next z ∧ Keeps s0 z :=
  ⟨_, rfl, onMain_keeps (fun _ h => relayExpire_keeps h) hk⟩

theorem execTthFwdSend_keeps  {s0 s : State} (hk : Keeps s0 s) : ∃ z, execTthFwdSend s = .next z ∧ Keeps s0 z :=
  ⟨_, rfl, onMain_keeps (fun _ h => tthFwdSend_keeps h) hk⟩

theorem execGylChEnWrite_keeps {owner : BitVec 2} {ch : ChanIx} {v : BitVec 8} {s0 s : State} (hk : Keeps s0 s) : ∃ z, execGylChEnWrite owner ch v s = .next z ∧ Keeps s0 z :=
  ⟨_, rfl, onMain_keeps (fun _ h => gylChEnWrite_keeps h) hk⟩

theorem execBeatTransmit_keeps  {s0 s : State} (hk : Keeps s0 s) : ∃ z, execBeatTransmit s = .next z ∧ Keeps s0 z :=
  ⟨_, rfl, onMain_keeps (fun _ h => beatTransmit_keeps h) hk⟩

theorem execPositionDeltaReceive_keeps {x : DeltaPart} {s0 s : State} (hk : Keeps s0 s) : ∃ z, execPositionDeltaReceive x s = .next z ∧ Keeps s0 z :=
  ⟨_, rfl, onMain_keeps (fun _ h => positionDelta_keeps h) hk⟩

theorem execPositionAnchorReceive_keeps {x : AnchorPart} {s0 s : State} (hk : Keeps s0 s) : ∃ z, execPositionAnchorReceive x s = .next z ∧ Keeps s0 z :=
  ⟨_, rfl, onMain_keeps (fun _ h => positionAnchor_keeps h) hk⟩

theorem execSlotStaleExpire_keeps {j : Fin 4} {s0 s : State} (hk : Keeps s0 s) : ∃ z, execSlotStaleExpire j s = .next z ∧ Keeps s0 z :=
  ⟨_, rfl, onMain_keeps (fun _ h => slotStaleExpire_keeps h) hk⟩

theorem execGuylineMessageReceive_keeps {down : Bool} {x : TthIn} {s0 s : State} (hk : Keeps s0 s) : ∃ z, execGuylineMessageReceive down x s = .next z ∧ Keeps s0 z :=
  ⟨_, rfl, onMain_keeps (fun _ h => guylineMessage_keeps h) hk⟩

theorem execHeartbeatSend_keeps {down : Bool} {s0 s : State} (hk : Keeps s0 s) : ∃ z, execHeartbeatSend down s = .next z ∧ Keeps s0 z :=
  ⟨_, rfl, onMain_keeps (fun _ h => heartbeatSend_keeps h) hk⟩

theorem execHeartbeatReceive_keeps {x : TthIn} {s0 s : State} (hk : Keeps s0 s) : ∃ z, execHeartbeatReceive x s = .next z ∧ Keeps s0 z :=
  ⟨_, rfl, onMain_keeps (fun _ h => heartbeatReceive_keeps h) hk⟩

theorem execHeartbeatLoss_keeps {w : Option (BitVec 4)} {s0 s : State} (hk : Keeps s0 s) : ∃ z, execHeartbeatLoss w s = .next z ∧ Keeps s0 z :=
  ⟨_, rfl, onMain_keeps (fun _ h => heartbeatLoss_keeps h) hk⟩

theorem execTimeMessageSend_keeps {d : DomIx} {s0 s : State} (hk : Keeps s0 s) : ∃ z, execTimeMessageSend d s = .next z ∧ Keeps s0 z :=
  ⟨_, rfl, onMain_keeps (fun _ h => timeMessageSend_keeps h) hk⟩

theorem execTimeMessageReceive_keeps {x : TthIn} {s0 s : State} (hk : Keeps s0 s) : ∃ z, execTimeMessageReceive x s = .next z ∧ Keeps s0 z :=
  ⟨_, rfl, onMain_keeps (fun _ h => timeMessageReceive_keeps h) hk⟩

theorem execHandoverMessageSend_keeps  {s0 s : State} (hk : Keeps s0 s) : ∃ z, execHandoverMessageSend s = .next z ∧ Keeps s0 z :=
  ⟨_, rfl, onMain_keeps (fun _ h => handoverMessageSend_keeps h) hk⟩

theorem execHandoverMessageReceive_keeps {x : TthIn} {s0 s : State} (hk : Keeps s0 s) : ∃ z, execHandoverMessageReceive x s = .next z ∧ Keeps s0 z :=
  ⟨_, rfl, onMain_keeps (fun _ h => handoverMessageReceive_keeps h) hk⟩

theorem execMgmtFragmentReceive_keeps {x : TthIn} {s0 s : State} (hk : Keeps s0 s) : ∃ z, execMgmtFragmentReceive x s = .next z ∧ Keeps s0 z :=
  ⟨_, rfl, onMain_keeps (fun _ h => mgmtFragment_keeps h) hk⟩

theorem execMgmtResponseReceive_keeps {x : TthIn} {s0 s : State} (hk : Keeps s0 s) : ∃ z, execMgmtResponseReceive x s = .next z ∧ Keeps s0 z :=
  ⟨_, rfl, onMain_keeps (fun _ h => mgmtResponse_keeps h) hk⟩

theorem execCalMessageReceive_keeps {x : TthIn} {s0 s : State} (hk : Keeps s0 s) : ∃ z, execCalMessageReceive x s = .next z ∧ Keeps s0 z :=
  ⟨_, rfl, onMain_keeps (fun _ h => calMessageReceive_keeps h) hk⟩

theorem execTetherBlockLockChange_keeps {down : Bool} {lock : Bool} {s0 s : State} (hk : Keeps s0 s) : ∃ z, execTetherBlockLockChange down lock s = .next z ∧ Keeps s0 z :=
  ⟨_, rfl, onMain_keeps (fun _ h => blockLockChange_keeps h) hk⟩

theorem execLanternEdge_keeps {p : PortIx} {a b : Bool} {s0 s : State} (hk : Keeps s0 s) : ∃ z, execLanternEdge p a b s = .next z ∧ Keeps s0 z :=
  ⟨_, rfl, onAon_keeps (fun _ h => lanternEdge_keeps h) hk⟩

theorem execLanternLineBreakEnter_keeps {p : PortIx} {pair : Pair} {s0 s : State} (hk : Keeps s0 s) : ∃ z, execLanternLineBreakEnter p pair s = .next z ∧ Keeps s0 z :=
  ⟨_, rfl, onAon_keeps (fun _ h => lanternBreakEnter_keeps h) hk⟩

theorem execLanternLineBreakClear_keeps {p : PortIx} {pair : Pair} {s0 s : State} (hk : Keeps s0 s) : ∃ z, execLanternLineBreakClear p pair s = .next z ∧ Keeps s0 z :=
  ⟨_, rfl, onAon_keeps (fun _ h => lanternBreakClear_keeps h) hk⟩

theorem execLanternTick_keeps {homes : BitVec 8} {s0 s : State} (hk : Keeps s0 s) : ∃ z, execLanternTick homes s = .next z ∧ Keeps s0 z :=
  ⟨_, rfl, onAon_keeps (fun _ h => lanternTick_keeps h) hk⟩

theorem execRuleEnableWrite_keeps {k : RuleIx} {en : Bool} {s0 s : State} (hk : Keeps s0 s) : ∃ z, execRuleEnableWrite k en s = .next z ∧ Keeps s0 z :=
  ⟨_, rfl, onHost_keeps (fun _ h => ruleEnableWrite_keeps h) hk⟩

theorem execLanOvrClear_keeps {mask : BitVec 32} {s0 s : State} (hk : Keeps s0 s) : ∃ z, execLanOvrClear mask s = .next z ∧ Keeps s0 z :=
  ⟨_, rfl, onHost_keeps (fun _ h => lanOvrClear_keeps h) hk⟩

theorem execXtalFail_keeps  {s0 s : State} (hk : Keeps s0 s) : ∃ z, execXtalFail s = .next z ∧ Keeps s0 z :=
  ⟨_, rfl, onAon_keeps (fun _ h => xtalFail_keeps h) hk⟩

theorem execXtalGood_keeps  {s0 s : State} (hk : Keeps s0 s) : ∃ z, execXtalGood s = .next z ∧ Keeps s0 z :=
  ⟨_, rfl, onAon_keeps (fun _ h => xtalGood_keeps h) hk⟩

theorem execRcTrim_keeps  {s0 s : State} (hk : Keeps s0 s) : ∃ z, execRcTrim s = .next z ∧ Keeps s0 z :=
  ⟨_, rfl, onAon_keeps (fun _ h => rcTrim_keeps h) hk⟩

theorem execDucCheckpoint_keeps  {s0 s : State} (hk : Keeps s0 s) : ∃ z, execDucCheckpoint s = .next z ∧ Keeps s0 z :=
  ⟨_, rfl, onAon_keeps (fun _ h => ducCheckpoint_keeps h) hk⟩

theorem execAonPowerOn_keeps  {s0 s : State} (hk : Keeps s0 s) : ∃ z, execAonPowerOn s = .next z ∧ Keeps s0 z :=
  ⟨_, rfl, anyTime_keeps (fun _ h => aonPowerOn_keeps h) hk⟩

theorem execVddAonLoss_keeps  {s0 s : State} (hk : Keeps s0 s) : ∃ z, execVddAonLoss s = .next z ∧ Keeps s0 z :=
  ⟨_, rfl, anyTime_keeps (fun _ h => vddAonLoss_keeps h) hk⟩

theorem execMainRailsUp_keeps  {s0 s : State} (hk : Keeps s0 s) : ∃ z, execMainRailsUp s = .next z ∧ Keeps s0 z :=
  ⟨_, rfl, anyTime_keeps (fun _ h => mainRailsUp_keeps h) hk⟩

theorem execMainRailsDown_keeps  {s0 s : State} (hk : Keeps s0 s) : ∃ z, execMainRailsDown s = .next z ∧ Keeps s0 z :=
  ⟨_, rfl, anyTime_keeps (fun _ h => mainRailsDown_keeps h) hk⟩

theorem execPwrfailFall_keeps  {s0 s : State} (hk : Keeps s0 s) : ∃ z, execPwrfailFall s = .next z ∧ Keeps s0 z :=
  ⟨_, rfl, anyTime_keeps (fun _ h => pwrfailFall_keeps h) hk⟩

theorem execPwrfailRise_keeps  {s0 s : State} (hk : Keeps s0 s) : ∃ z, execPwrfailRise s = .next z ∧ Keeps s0 z :=
  ⟨_, rfl, anyTime_keeps (fun _ h => pwrfailRise_keeps h) hk⟩

theorem execRecordOffer_keeps {p : RecPortIx} {r : RecOffer} {s0 s : State} (hk : Keeps s0 s) : ∃ z, execRecordOffer p r s = .next z ∧ Keeps s0 z :=
  ⟨_, rfl, onAonIf_keeps (fun _ h => recordOffer_keeps h) hk⟩

theorem execRecordAccept_keeps  {s0 s : State} (hk : Keeps s0 s) : ∃ z, execRecordAccept s = .next z ∧ Keeps s0 z :=
  ⟨_, rfl, onMain_keeps (fun _ h => recordAccept_keeps h) hk⟩

theorem execMramRecordWrite_keeps {fails : Nat} {x : MemEcc} {s0 s : State} (hk : Keeps s0 s) : ∃ z, execMramRecordWrite fails x s = .next z ∧ Keeps s0 z :=
  ⟨_, rfl, onAon_keeps (fun _ h => mramRecordWrite_keeps h) hk⟩

theorem execFlushComplete_keeps  {s0 s : State} (hk : Keeps s0 s) : ∃ z, execFlushComplete s = .next z ∧ Keeps s0 z :=
  ⟨_, rfl, onMain_keeps (fun _ h => flushComplete_keeps h) hk⟩

theorem execRecCtrlFlush_keeps  {s0 s : State} (hk : Keeps s0 s) : ∃ z, execRecCtrlFlush s = .next z ∧ Keeps s0 z :=
  ⟨_, rfl, onHost_keeps (fun _ h => flushTrigger_keeps h) hk⟩

theorem execRecCtrlRewind_keeps  {s0 s : State} (hk : Keeps s0 s) : ∃ z, execRecCtrlRewind s = .next z ∧ Keeps s0 z :=
  ⟨_, rfl, onHost_keeps (fun _ h => recRewind_keeps h) hk⟩

theorem execRecMarkWrite_keeps {v : BitVec 32} {s0 s : State} (hk : Keeps s0 s) : ∃ z, execRecMarkWrite v s = .next z ∧ Keeps s0 z :=
  ⟨_, rfl, onHost_keeps (fun _ h => recMarkWrite_keeps h) hk⟩

theorem execRecCfgWrite_keeps {v : BitVec 32} {s0 s : State} (hk : Keeps s0 s) : ∃ z, execRecCfgWrite v s = .next z ∧ Keeps s0 z :=
  ⟨_, rfl, onHost_keeps (fun _ h => recCfgWrite_keeps h) hk⟩

theorem execRecCursorWrite_keeps {v : BitVec 32} {s0 s : State} (hk : Keeps s0 s) : ∃ z, execRecCursorWrite v s = .next z ∧ Keeps s0 z :=
  ⟨_, rfl, onHost_keeps (fun _ h => recCursorWrite_keeps h) hk⟩

theorem execRecWindowRead_keeps {off : Fin 1024} {len : Nat} {s0 s : State} (hk : Keeps s0 s) : ∃ z, execRecWindowRead off len s = .next z ∧ Keeps s0 z :=
  ⟨_, rfl, onHost_keeps (fun _ h => recWindowRead_keeps h) hk⟩

theorem execIntEnableWrite_keeps {g : Fin 48} {v : BitVec 32} {s0 s : State} (hk : Keeps s0 s) : ∃ z, execIntEnableWrite g v s = .next z ∧ Keeps s0 z :=
  ⟨_, rfl, onHost_keeps (fun _ h => intEnableWrite_keeps h) hk⟩

theorem execIntTest_keeps {src : BitVec 11} {s0 s : State} (hk : Keeps s0 s) : ∃ z, execIntTest src s = .next z ∧ Keeps s0 z :=
  ⟨_, rfl, onHost_keeps (fun _ h => intTest_keeps h) hk⟩

theorem execFaultWindowIncrement_keeps {w : WindowIx} {n : BitVec 16} {s0 s : State} (hk : Keeps s0 s) : ∃ z, execFaultWindowIncrement w n s = .next z ∧ Keeps s0 z :=
  ⟨_, rfl, onAonIf_keeps (fun _ h => windowInc_keeps h) hk⟩

theorem execFaultWindowSubperiod_keeps {w : WindowIx} {s0 s : State} (hk : Keeps s0 s) : ∃ z, execFaultWindowSubperiod w s = .next z ∧ Keeps s0 z :=
  ⟨_, rfl, onAonIf_keeps (fun _ h => windowSubperiod_keeps h) hk⟩

theorem execFaultWindowConfigWrite_keeps {w : WindowIx} {k : Bool} {v : BitVec 32} {s0 s : State} (hk : Keeps s0 s) : ∃ z, execFaultWindowConfigWrite w k v s = .next z ∧ Keeps s0 z :=
  ⟨_, rfl, onHost_keeps (fun _ h => by cases k <;> first | exact windowCfgWrite_keeps h | exact windowKWrite_keeps h) hk⟩

theorem execPatrolScrub_keeps {addr : BitVec 35} {x : EccResult} {s0 s : State} (hk : Keeps s0 s) : ∃ z, execPatrolScrub addr x s = .next z ∧ Keeps s0 z :=
  ⟨_, rfl, onMain_keeps (fun _ h => patrolScrub_keeps h) hk⟩

theorem execAgeingMeasure_keeps {drifts : List (BitVec 16)} {s0 s : State} (hk : Keeps s0 s) : ∃ z, execAgeingMeasure drifts s = .next z ∧ Keeps s0 z :=
  ⟨_, rfl, onMain_keeps (fun _ h => ageingMeasure_keeps h) hk⟩

theorem execPoweredHour_keeps  {s0 s : State} (hk : Keeps s0 s) : ∃ z, execPoweredHour s = .next z ∧ Keeps s0 z :=
  ⟨_, rfl, onMain_keeps (fun _ h => poweredHour_keeps h) hk⟩

theorem execMramRefreshUnit_keeps  {s0 s : State} (hk : Keeps s0 s) : ∃ z, execMramRefreshUnit s = .next z ∧ Keeps s0 z :=
  ⟨_, rfl, onMain_keeps (fun _ h => refreshUnit_keeps h) hk⟩

theorem execSecKeyProgram_keeps {slot : BitVec 2} {recipe command : Bool} {s0 s : State} (hk : Keeps s0 s) : ∃ z, execSecKeyProgram slot recipe command s = .next z ∧ Keeps s0 z :=
  ⟨_, rfl, onHost_keeps (fun _ h => keyGo_keeps h) hk⟩

theorem execSecKeyRevoke_keeps {slot : BitVec 2} {s0 s : State} (hk : Keeps s0 s) : ∃ z, execSecKeyRevoke slot s = .next z ∧ Keeps s0 z :=
  ⟨_, rfl, onHost_keeps (fun _ h => keyGo_keeps h) hk⟩

theorem execSecKeyRestore_keeps {slot : BitVec 2} {s0 s : State} (hk : Keeps s0 s) : ∃ z, execSecKeyRestore slot s = .next z ∧ Keeps s0 z :=
  ⟨_, rfl, onHost_keeps (fun _ h => keyGo_keeps h) hk⟩

theorem execSecKeyOpDone_keeps {fuseErr : Bool} {s0 s : State} (hk : Keeps s0 s) : ∃ z, execSecKeyOpDone fuseErr s = .next z ∧ Keeps s0 z :=
  ⟨_, rfl, onMain_keeps (fun _ h => keyDone_keeps h) hk⟩

theorem execThermalSense_keeps {mC : Int} {s0 s : State} (hk : Keeps s0 s) : ∃ z, execThermalSense mC s = .next z ∧ Keeps s0 z :=
  ⟨_, rfl, onMain_keeps (fun _ h => thermalSense_keeps h) hk⟩

theorem execThermtrip_keeps  {s0 s : State} (hk : Keeps s0 s) : ∃ z, execThermtrip s = .next z ∧ Keeps s0 z :=
  ⟨_, rfl, anyTime_keeps (fun _ h => thermtrip_keeps h) hk⟩

theorem execPcieLinkEvent_keeps {x : LinkEvt} {s0 s : State} (hk : Keeps s0 s) : ∃ z, execPcieLinkEvent x s = .next z ∧ Keeps s0 z :=
  ⟨_, rfl, onMain_keeps (fun _ h => linkEvent_keeps h) hk⟩

theorem execPtpEventTransmit_keeps {n : LaneIx} {ty : BitVec 4} {seq : BitVec 16} {s0 s : State} (hk : Keeps s0 s) : ∃ z, execPtpEventTransmit n ty seq s = .next z ∧ Keeps s0 z :=
  ⟨_, rfl, onMain_keeps (fun _ h => ptpEventTransmit_keeps h) hk⟩

end Sys2Proof.Machine
end

