-- ==== Sys2Proof/WellFormed.lean ====
section
/-! DEFINITION. Which commands can come from outside: checks on operands that their types do not make. No meaning depends on them: every command has its meaning on every operand. -/

namespace Sys2Proof

/-- What is wrong with a command's operands. -/
inductive Ill where
  /-- REG64_LOW_READ and REG64_HIGH_WRITE name a 64-bit register, which is aligned to 8 bytes (R9). -/
  | offset
  /-- A memory write carries at least one byte and at most 512 (R361, Max_Payload_Size). -/
  | payload
  /-- A configuration request names a dword (R355). -/
  | cfgOffset
  /-- A group has 1, 2, 4 or 8 lanes, and so many skews (R162, R163). -/
  | skews
  /-- A camera's answer has at most 256 bytes (R167). -/
  | answer
  /-- An Ethernet frame has 14 to 9 022 bytes (Table 6-4). -/
  | frame
  /-- A doorbell write holds at least one word (R297). -/
  | bell
  /-- A completion carries at most 4 096 bytes (R377). -/
  | completion
  /-- A message of the tether is one block, or a header and at most 32 data blocks (R449, Table 16-6). -/
  | message
  /-- A record's severity is 0 to 6 and its payload at most 32 bytes (Tables 18-1, 18-2). -/
  | record
  /-- A read of the record window lies in its 1 024 bytes (R512). -/
  | window
  /-- There are 55 ageing monitors (R542). -/
  | monitors
  /-- An address of HBM lies below 24 GB (R362). -/
  | hbmAddress
  /-- The option ROM image has at most 512 KB (R364). -/
  | optionRom
  /-- A PTP event message is Sync, Delay_Req, Pdelay_Req or Pdelay_Resp (R117). -/
  | ptpType
  /-- A recipe's area lies in HBM (R243). -/
  | recipeArea
  deriving DecidableEq, Repr

/-- An address is below 24 GB. -/
def inHbm24 (a : Nat) : Bool := decide (a < 24 * 2 ^ 30)

/-- Whether an ECC event of a chain names an address of HBM. -/
def ChainEcc.addrOk : ChainEcc → Bool
  | .hbm a => inHbm24 a.toNat
  | _ => true

/-- Whether a received message of the tether has a block, and at most a header and 32 data blocks. -/
def TthIn.sizeOk (x : TthIn) : Bool := decide (1 ≤ x.blocks.length) && decide (x.blocks.length ≤ 33)

/-- The first check a command's operands fail, if any. -/
def Instr.ill : Instr → Option Ill
  | .reg64LowRead off => if off.toNat % 8 = 0 then none else some .offset
  | .reg64HighWrite off _ => if off.toNat % 8 = 0 then none else some .offset
  | .memoryWriteRequest w => if w.data.length = 0 || 512 < w.data.length then some .payload else none
  | .configRequest c => if c.off.toNat % 4 = 0 then none else some .cfgOffset
  | .laneDeskewDone _ l => if l.length = 1 || l.length = 2 || l.length = 4 || l.length = 8 then none else some .skews
  | .camCtlAnswer _ _ x => if 256 < x.data.length then some .answer else none
  | .ethFrameReceive _ x => if x.data.length < 14 || 9022 < x.data.length then some .frame else none
  | .chainLineProcess _ x => if x.addrOk then none else some .hbmAddress
  | .queueDoorbell _ lo hi => if lo.isNone && hi.isNone then some .bell else none
  | .dmaDescriptorComplete _ _ st a => if st || inHbm24 a.toNat then none else some .hbmAddress
  | .completionReceive _ x => if 4096 < x.data.length then some .completion else none
  | .bootComplete x => if 0x80000 < x.optRom.length then some .optionRom else none
  | .longCommandComplete _ x => match x with
    | .recipe _ _ r => if r.base.toNat + 4096 * r.area.toNat ≤ 24 * 2 ^ 30 then none else some .recipeArea
    | _ => none
  | .guylineMessageReceive _ x => if x.sizeOk then none else some .message
  | .heartbeatReceive x => if x.sizeOk then none else some .message
  | .timeMessageReceive x => if x.sizeOk then none else some .message
  | .handoverMessageReceive x => if x.sizeOk then none else some .message
  | .mgmtFragmentReceive x => if x.sizeOk then none else some .message
  | .mgmtResponseReceive x => if x.sizeOk then none else some .message
  | .calMessageReceive x => if x.sizeOk then none else some .message
  | .recipeStage _ x => match x.image with
    | .uncorrectable a => if inHbm24 a.toNat then none else some .hbmAddress
    | _ => none
  | .recordOffer _ r => if 6 < r.sev.toNat || 32 < r.payload.length then some .record else none
  | .recWindowRead off len => if 1024 < off.val + len then some .window else none
  | .patrolScrub a _ => if inHbm24 a.toNat then none else some .hbmAddress
  | .ageingMeasure l => if l.length = 55 then none else some .monitors
  | .ptpEventTransmit _ ty _ => if ty.toNat < 4 then none else some .ptpType
  | _ => none

/-- A command that can come from outside. DESIGN CHOICE (log 1). -/
def Instr.wellFormed (i : Instr) : Bool := i.ill.isNone

end Sys2Proof
end

