-- ==== Sys2Proof/Tests/Slice0.lean ====
section
/-! SUPPORT. The model's own tests: terms that WellFormed refuses, for each statement states that meet its hypotheses, and small steps whose results the spec states. -/

namespace Sys2Proof.Tests

open Sys2Proof.Machine

/-- A state with fields set. -/
def put (l : List (FRef × Nat)) (s : State := State.reset) : State := each l (fun s p => wr s p.1 p.2) s

/-- A state with registers set. -/
def reg (l : List (Nat × DWord)) (s : State := State.reset) : State := each l (fun s p => setReg s p.1 p.2) s

/-- A state with configuration dwords set. -/
def cfg (l : List (Nat × Nat)) (s : State := State.reset) : State := each l (fun s p => cfgSet s p.1 p.2) s

theorem witness_StepRunsFrontCommand : ∃ (s : State) (c : Instr) (rest : List Instr), s.pending = c :: rest := ⟨{ State.reset with pending := [.rcTrim] }, _, _, rfl⟩

theorem witness_EmptyQueueTicks : State.reset.pending = [] ∧ State.reset.todo = [] ∧ State.reset.due = [] := by decide

theorem witness_HostShutOut : ∃ s : State, hostOpen s = false := ⟨{ State.reset with pwr := { reset := true } }, by decide⟩

/-- A state that serves requests of the host. -/
def open_ : State := cfg [(0x04, 0x00100006), (0x30, 1)] { State.reset with hep := { loaded := true } }

theorem witness_ReservedOffsets : ∃ (s : State) (off : BitVec 26), hostOpen s = true ∧ off.toNat % 8 = 0 ∧ served s .bar0 off.toNat 8 = true ∧
    ∀ i < 8, windowWord s (off.toNat + i) = none ∧ bellOf (off.toNat + i) = none ∧ regAt (off.toNat + i) = none ∧ ¬ (0x160400 ≤ off.toNat + i ∧ off.toNat + i < 0x160800) :=
  ⟨open_, 0x1FFFFF8, by decide⟩

theorem witness_RegisterWrites :
    (∃ (s : State) (off : BitVec 26), hostOpen s = true ∧ off.toNat % 4 = 0 ∧ 0x10000 ≤ off.toNat ∧ off.toNat < 0x2000000 ∧ regAt off.toNat = none) ∧
    (∃ (s : State) (off : BitVec 26) (r : Reg) (b : Nat), hostOpen s = true ∧ off.toNat % 4 = 0 ∧ 0x10000 ≤ off.toNat ∧ off.toNat < 0x2000000 ∧ regAt off.toNat = some (r, b) ∧ r.wide = false) ∧
    (∃ (s : State) (off : BitVec 26) (r : Reg) (b : Nat), hostOpen s = true ∧ off.toNat % 4 = 0 ∧ 0x10000 ≤ off.toNat ∧ off.toNat < 0x2000000 ∧ regAt off.toNat = some (r, b) ∧ r.wide = true ∧ off.toNat = b) ∧
    (∃ (s : State) (off : BitVec 26) (r : Reg) (b : Nat), hostOpen s = true ∧ off.toNat % 4 = 0 ∧ 0x10000 ≤ off.toNat ∧ off.toNat < 0x2000000 ∧
      regAt (off.toNat / 8 * 8 + 4) = some (r, b) ∧ r.wide = true ∧ b = off.toNat / 8 * 8) :=
  ⟨⟨State.reset, 0x1FFFFFC, by decide⟩, ⟨State.reset, 0x170208, _, _, by decide, by decide, by decide, by decide, rfl, by decide⟩,
    ⟨State.reset, 0x40010, _, _, by decide, by decide, by decide, by decide, rfl, by decide, by decide⟩, ⟨State.reset, 0x40010, _, _, by decide, by decide, by decide, by decide, rfl, by decide, by decide⟩⟩

theorem witness_LowReadLatches : ∃ (s : State) (off : BitVec 26) (r : Reg) (b : Nat), hostOpen s = true ∧ 0x10000 ≤ off.toNat ∧ regAt (off.toNat / 8 * 8) = some (r, b) ∧ r.wide = true ∧ b = off.toNat / 8 * 8 :=
  ⟨State.reset, 0x40000, _, _, by decide, by decide, rfl, by decide, by decide⟩

theorem witness_AccessCodes : ∃ (s : State) (r : Reg) (b i : Nat), Sound s ∧ i < 64 ∧ Nat.land r.rw r.w1c = 0 ∧ regAt b = some (r, b) :=
  ⟨State.reset, ((regAt 0x4000C).get (by decide)).1, 0x4000C, 7, by decide, by decide, by decide, rfl⟩

theorem witness_FieldWriteFrame : ∃ (s : State) (f g : FRef), Sound s ∧ f.lo + f.w ≤ 64 ∧ (g.a ≠ f.a ∨ g.lo + g.w ≤ f.lo ∨ f.lo + f.w ≤ g.lo) :=
  ⟨State.reset, MODE_STATUS_MODE, MODE_STATUS_TARGET, by decide⟩

theorem witness_MemoryRequests :
    (∃ (s : State) (r : ReadReq), hostOpen s = true ∧ r.space = .bar2 ∧ r.ecc = .none ∧ served s .bar2 r.off.toNat r.len = true ∧ 0 < r.len.val ∧ r.off.toNat % mps s + r.len.val ≤ mps s) ∧
    (∃ (s : State) (r : ReadReq), hostOpen s = true ∧ r.space = .bar2 ∧ r.ecc = .none ∧ served s r.space r.off.toNat r.len = true ∧ r.len.val = 0) ∧
    (∃ (s : State) (r : ReadReq), hostOpen s = true ∧ r.space = .rom ∧ served s .rom r.off.toNat r.len = true ∧ 0 < r.len.val ∧ r.off.toNat % mps s + r.len.val ≤ mps s) ∧
    (∃ (s : State) (r : ReadReq), hostOpen s = true ∧ served s r.space r.off.toNat r.len = false) ∧
    (∃ (s : State) (w : WriteReq), hostOpen s = true ∧ w.space = .bar2 ∧ w.poisoned = false ∧ served s .bar2 w.off.toNat w.data.length = true) ∧
    (∃ (s : State) (w : WriteReq), hostOpen s = true ∧ w.space = .rom ∧ served s .rom w.off.toNat w.data.length = true) ∧
    (∃ (s : State) (w : WriteReq), hostOpen s = true ∧ (w.space = .bar2 ∨ w.space = .bar0) ∧ w.poisoned = true ∧ served s w.space w.off.toNat w.data.length = true) ∧
    (∃ (s : State) (w : WriteReq), hostOpen s = true ∧ served s w.space w.off.toNat w.data.length = false) :=
  ⟨⟨open_, { space := .bar2, off := 0, len := 4, ecc := .none }, by decide⟩, ⟨open_, { space := .bar2, off := 0, len := 0, ecc := .none }, by decide⟩,
    ⟨open_, { space := .rom, off := 0, len := 4, ecc := .none }, by decide⟩, ⟨State.reset, { space := .bar2, off := 0, len := 4, ecc := .none }, by decide⟩,
    ⟨open_, { space := .bar2, off := 0, data := [some 1], poisoned := false }, by decide⟩, ⟨open_, { space := .rom, off := 0, data := [some 1], poisoned := false }, by decide⟩,
    ⟨open_, { space := .bar0, off := 0, data := [some 1], poisoned := true }, by decide⟩, ⟨open_, { space := .unserved 0 0 0 0, off := 0, data := [], poisoned := false }, by decide⟩⟩

theorem witness_Bar2WriteFrame : ∃ (s : State) (a : Nat) (l : List (Option Byte)) (c : Nat) (b : Byte), Sound s ∧ a ≤ c ∧ l[c - a]? = some (some b) ∧ c < hbmSize :=
  ⟨State.reset, hbmSize - 2, [none, some 7], hbmSize - 1, 7, by decide⟩

theorem witness_ConfigRequests :
    (∃ (s : State) (c : CfgReq), hostOpen s = true ∧ c.type1 = true) ∧
    (∃ (s : State) (c : CfgReq), hostOpen s = true ∧ c.type1 = false ∧ s.hep.loaded = false) ∧
    (∃ (s : State) (c : CfgReq), hostOpen s = true ∧ c.type1 = false ∧ s.hep.loaded = true ∧ c.write = false) ∧
    (∃ (s : State) (c : CfgReq), hostOpen s = true ∧ c.type1 = false ∧ s.hep.loaded = true ∧ c.write = true ∧ mayIssue s = false ∧ ¬ c.off.toNat / 4 * 4 ∈ [0x04, 0x44, 0x50, 0x60, 0xB0]) :=
  ⟨⟨open_, { type1 := true, write := false, off := 0, be := 15, data := 0 }, by decide⟩, ⟨State.reset, { type1 := false, write := false, off := 0, be := 15, data := 0 }, by decide⟩, ⟨open_, { type1 := false, write := false, off := 0, be := 15, data := 0 }, by decide⟩,
    ⟨{ State.reset with hep := { loaded := true } }, { type1 := false, write := true, off := 0x3C, be := 15, data := 5 }, by decide⟩⟩

theorem witness_MasterEnableAndMasks :
    (∃ s : State, hostOpen s = true ∧ mayIssue s = true) ∧ (∃ s : State, hostOpen s = true ∧ mayIssue s = false) ∧ (∃ s : State, hostOpen s = true ∧ intMode s = 2) ∧ (∃ s : State, hostOpen s = true ∧ intMode s = 1) :=
  ⟨⟨open_, by decide⟩, ⟨State.reset, by decide⟩, ⟨cfg [(0xB0, 0x87FF0011)], by decide⟩, ⟨cfg [(0x50, 0x018B7005)], by decide⟩⟩

theorem witness_LinkPower :
    (∃ s : State, mainRuns s = true ∧ bitOf (cfgDw s 0x80) 0 = true ∧ rdB s HEP_LINK_FLIT = false ∧ rd s HEP_LINK_LTSSM = 3) ∧
    (∃ s : State, mainRuns s = true ∧ bitOf (cfgDw s 0x80) 0 = false) ∧ (∃ s : State, mainRuns s = true ∧ rdB s HEP_LINK_FLIT = true) ∧
    (∃ s : State, mainRuns s = true ∧ bitOf (cfgDw s 0x80) 1 = true ∧ rd s HEP_LINK_LTSSM = 3 ∧ hostWork s = false) ∧
    (∃ s : State, mainRuns s = true ∧ bitOf (cfgDw s 0x80) 1 = true ∧ rd s HEP_LINK_LTSSM = 4 ∧ acquiring s = false ∧ mode s ≠ 8) ∧
    (∃ s : State, mainRuns s = true ∧ bitOf (cfgDw s 0x80) 1 = false) :=
  ⟨⟨put [(HEP_LINK_LTSSM, 3)] (cfg [(0x80, 3)]), by decide⟩, ⟨State.reset, by decide⟩, ⟨put [(HEP_LINK_FLIT, 1)], by decide⟩, ⟨put [(HEP_LINK_LTSSM, 3)] (cfg [(0x80, 3)]), by decide⟩,
    ⟨put [(HEP_LINK_LTSSM, 4)] (cfg [(0x80, 3)]), by decide⟩, ⟨State.reset, by decide⟩⟩

theorem witness_EnableWrites :
    (∃ (s : State) (b : Block), hostOpen s = true ∧ enLocked s b = false ∧ enState s (enAddr b) = 0 ∧ enRefused (wrB s (enEN b) true) b = false) ∧
    (∃ (s : State) (b : Block), hostOpen s = true ∧ enLocked s b = false ∧ enState s (enAddr b) = 0 ∧ enRefused (wrB s (enEN b) true) b = true) ∧
    (∃ (s : State) (b : Block), hostOpen s = true ∧ enLocked s b = false ∧ enState s (enAddr b) = 3) ∧
    (∃ (s : State) (b : Block), hostOpen s = true ∧ enLocked s b = false ∧ enState s (enAddr b) = 1) ∧
    (∃ (s : State) (b : Block), hostOpen s = true ∧ enLocked s b = false ∧ enState s (enAddr b) = 2) :=
  ⟨⟨State.reset, .divider 0, by decide⟩, ⟨State.reset, .window 85, by decide⟩, ⟨reg [(0x43000, 6)], .divider 0, by decide⟩, ⟨reg [(0x43000, 3)], .divider 0, by decide⟩, ⟨reg [(0x43000, 5)], .divider 0, by decide⟩⟩

theorem witness_EnableStates :
    (∃ (s : State) (b : Block), mainRuns s = true ∧ enState s (enAddr b) = 1 ∧ ∀ c, b ≠ .camp c) ∧ (∃ (s : State) (b : Block), mainRuns s = true ∧ enState s (enAddr b) = 3 ∧ enDone s b = true) :=
  ⟨⟨reg [(0x43000, 3)], .divider 0, by decide⟩, ⟨reg [(0x43000, 6)], .divider 0, by decide⟩⟩

theorem witness_CounterClears : ∃ (s : State) (l : List Nat), Sound s ∧ hostOpen s = true ∧ s.todo = [] ∧ l = [0x1200C4, 0x1200C8, 0x1200CC] := ⟨State.reset, _, by decide, by decide, rfl, rfl⟩

theorem witness_ModeRequests :
    (∃ (s : State) (req : BitVec 4), hostOpen s = true ∧ requestRefusal s req.toNat ≠ 0) ∧
    (∃ (s : State) (req : BitVec 4), hostOpen s = true ∧ requestRefusal s req.toNat = 0 ∧ req.toNat = mode s) ∧
    (∃ s : State, hostOpen s = true ∧ mode s = 2 ∧ rdB s MODE_STATUS_TRANSITION = false ∧ haveRecipe s = true ∧ lanesUp s = true) ∧
    (∃ s : State, hostOpen s = true ∧ mode s = 3 ∧ rdB s MODE_STATUS_TRANSITION = false ∧ role s ≠ 2) ∧
    (∃ s : State, hostOpen s = true ∧ acquiring s = true ∧ rdB s MODE_STATUS_TRANSITION = false) ∧
    (∃ s : State, hostOpen s = true ∧ mode s = 9) :=
  ⟨⟨State.reset, 11, by decide⟩, ⟨put [(MODE_STATUS_MODE, 3), (MODE_STATUS_TRANSITION, 0)], 3, by decide⟩,
    ⟨put [(MODE_STATUS_MODE, 2), (MODE_STATUS_TRANSITION, 0), (CHG_RCP_STATE_STATE 0, 4)], by decide⟩, ⟨put [(MODE_STATUS_MODE, 3), (MODE_STATUS_TRANSITION, 0)], by decide⟩,
    ⟨put [(MODE_STATUS_MODE, 6), (MODE_STATUS_TRANSITION, 0)], by decide⟩, ⟨put [(MODE_STATUS_MODE, 9)], by decide⟩⟩

theorem witness_ModeRefusals :
    (∃ s : State, rdB s MODE_STATUS_TRANSITION = true) ∧ (∃ s : State, rdB s MODE_STATUS_TRANSITION = false ∧ 4 ≠ mode s ∧ role s = 2) ∧
    (∃ s : State, mode s = 2 ∧ rdB s MODE_STATUS_TRANSITION = false ∧ haveRecipe s = false) ∧
    (∃ s : State, mode s = 2 ∧ rdB s MODE_STATUS_TRANSITION = false ∧ haveRecipe s = true ∧ lanesUp s = false) ∧
    (∃ s : State, mode s = 10 ∧ rdB s MODE_STATUS_TRANSITION = false ∧ rdB s MODE_CAUSE_STICKY = true) :=
  ⟨⟨State.reset, by decide⟩, ⟨put [(MODE_STATUS_ROLE, 2), (MODE_STATUS_TRANSITION, 0)], by decide⟩, ⟨put [(MODE_STATUS_MODE, 2), (MODE_STATUS_TRANSITION, 0)], by decide⟩,
    ⟨put [(MODE_STATUS_MODE, 2), (MODE_STATUS_TRANSITION, 0), (CHG_RCP_STATE_STATE 0, 4), (⟨0x71000, 1, 2⟩, 2)], by decide⟩, ⟨put [(MODE_STATUS_MODE, 10), (MODE_STATUS_TRANSITION, 0), (MODE_CAUSE_STICKY, 1)], by decide⟩⟩

theorem witness_StopAndDrain :
    (∃ s : State, mainRuns s = true ∧ mode s = 8 ∧ s.modeCtl.stopped = false ∧ stopMet s = true) ∧ (∃ s : State, mainRuns s = true ∧ mode s = 10 ∧ s.modeCtl.stopped = false ∧ stopMet s = true) ∧
    (∃ s : State, mainRuns s = true ∧ mode s = 8 ∧ s.modeCtl.stopped = true ∧ drained s = true) ∧ (∃ s : State, mainRuns s = true ∧ mode s = 8 ∧ s.modeCtl.stopped = true ∧ drained s = false) :=
  ⟨⟨put [(MODE_STATUS_MODE, 8)], by decide⟩, ⟨put [(MODE_STATUS_MODE, 10)], by decide⟩, ⟨{ put [(MODE_STATUS_MODE, 8)] with modeCtl := { stopped := true } }, by decide⟩,
    ⟨{ put [(MODE_STATUS_MODE, 8)] with modeCtl := { stopped := true }, frm := [(3, { frames := [{ id := 0, cfg := {}, setNo := 0, slot := none }] })] }, by decide⟩⟩

theorem witness_HoldLimit :
    (∃ (s : State) (st : StreamIx), mainRuns s = true ∧ (frm s st).finishing = true ∧ cutsStopped s st = false) ∧
    (∃ (s : State) (st : StreamIx), mainRuns s = true ∧ (frm s st).finishing = true ∧ (frm s st).image.isSome = true) ∧ (∃ (s : State) (st : StreamIx), mainRuns s = true ∧ (frm s st).finishing = false) :=
  ⟨⟨{ State.reset with frm := [(5, { finishing := true, cut := some { setNo := 0, cfg := {} } })] }, 5, by decide⟩, ⟨{ State.reset with frm := [(5, { finishing := true, image := some 0 })] }, 5, by decide⟩, ⟨State.reset, 5, by decide⟩⟩

theorem witness_CalibrateEnds :
    (∃ (s : State) (done failed : BitVec 3) (x : LongCmd), mainRuns s = true ∧ mode s = 9 ∧ done.getLsbD 2 = false ∧ failed.getLsbD 2 = false ∧ longOf s 0x0103 = some x) ∧
    (∃ s : State, mainRuns s = true ∧ mode s = 9 ∧ longOf s 0x0103 = none) ∧ (∃ s : State, mainRuns s = true ∧ mode s ≠ 9) :=
  ⟨⟨{ put [(MODE_STATUS_MODE, 9)] with mp := { long := [{ cmd := { m := 0, op := 0x0103, seq := 0, quiet := false, par := [], key := 0 } }] } }, 1, 2, _, by decide, by decide, by decide, by decide, rfl⟩, ⟨put [(MODE_STATUS_MODE, 9)], by decide⟩, ⟨State.reset, by decide⟩⟩

/-- Ports 0 and 7 in mode INCREMENTAL, decoding all edges, with Z of port 0 watched. -/
def incr : State := put [(TRL_PORT_CFG_MODE 0, 1), (TRL_PORT_CFG_Z_EN 0, 1), (TRL_PORT_CFG_MODE 7, 1)]

theorem witness_EncoderPorts :
    (∃ (s : State) (p : PortIx) (a b : Bool), mainRuns s = true ∧
      ∃ u, u = wrB (wrB (trlOpen s p) (TRL_PIN_A p) a) (TRL_PIN_B p) b ∧ portMode u p = 1 ∧ lineBroken u p = false ∧ ((a != rdB s (TRL_PIN_A p)) != (b != rdB s (TRL_PIN_B p))) = true ∧
        (decodeEdge (rd u (TRL_PORT_CFG_DECODE p)) (a != rdB s (TRL_PIN_A p)) a b).isSome = true) ∧
    (∃ (s : State) (p : PortIx) (a b : Bool), mainRuns s = true ∧
      ∃ u, u = wrB (wrB (trlOpen s p) (TRL_PIN_A p) a) (TRL_PIN_B p) b ∧ portMode u p = 1 ∧ lineBroken u p = false ∧ (a != rdB s (TRL_PIN_A p) && b != rdB s (TRL_PIN_B p)) = true) ∧
    (∃ (s : State) (p : PortIx), mainRuns s = true ∧ lineBroken s p = false) ∧
    (∃ (s : State) (p : PortIx), mainRuns s = true ∧ rdB s (TRL_PORT_CFG_Z_EN p) = true ∧ rdB s (TRL_PIN_Z_LB p) = false) ∧
    (∃ (s : State) (p : PortIx), mainRuns s = true ∧ lineBroken s p = true ∧ rdB s (TRL_PIN_B_LB p) = true) :=
  ⟨⟨incr, 0, true, false, by decide, _, rfl, by decide⟩, ⟨incr, 7, true, true, by decide, _, rfl, by decide⟩, ⟨incr, 0, by decide⟩, ⟨incr, 0, by decide⟩, ⟨put [(TRL_PIN_A_LB 0, 1), (TRL_PIN_B_LB 0, 1)], 0, by decide⟩⟩

theorem witness_EdgeMovesOneCount :
    (∃ (s : State) (x : Trail), x.presetAt ≠ some (s.now / 2) ∧ x.satDir = none ∧ x.limMin ≤ (trlCount x + 1) * 256 ∧ (trlCount x + 1) * 256 ≤ x.limMax) ∧
    (∃ (s : State) (x : Trail) (neg : Bool), x.presetAt ≠ some (s.now / 2) ∧ x.satDir = some neg) :=
  ⟨⟨State.reset, { limMax := 256, limMin := 0 }, by decide⟩, ⟨State.reset, { satDir := some true }, true, by decide⟩⟩

theorem witness_SpeedAndIndex :
    (∃ (s : State) (p : PortIx), mainRuns s = true ∧ rdB (wrB s (TRL_PIN_Z p) true) (TRL_PORT_CFG_Z_EN p) = false) ∧
    (∃ (s : State) (p : PortIx), mainRuns s = true ∧ ∃ o, o = wrB s (TRL_PIN_Z p) true ∧ rdB o (TRL_PORT_CFG_Z_EN p) = true ∧
      ∃ v, v = addWrap (wrI (trlSync o p) (TRL_ZCAP_ZCAP p) (posNow (trlSync o p) p)) (TRL_CNT_Z_COUNT p) 1 ∧ (trl v p).zPrev = none ∧ (trl v p).homeZ = []) ∧
    (∃ (s : State) (t : TrailIx), mainRuns s = true ∧ t.val < 8 ∧ portMode s t = 1 ∧ (trl (trlSync s t) t).winN = 81 ∧ (trl (trlSync s t) t).mst = .running) ∧
    (∃ (s : State) (t : TrailIx), mainRuns s = true ∧ t.val < 8 ∧ portMode s t = 1 ∧ (trl (trlSync s t) t).winN = 48) ∧
    (∃ (s : State) (t : TrailIx), mainRuns s = true ∧ t.val < 8 ∧ (trl s t).mst ≠ .none ∧ (trl s t).mst ≠ .still) ∧ (∃ (s : State) (t : TrailIx), (trl (trlOpen s t) t).mst ≠ .none) :=
  ⟨⟨incr, 7, by decide⟩, ⟨incr, 0, by decide, _, rfl, by decide, _, rfl, by decide⟩, ⟨{ incr with trl := [(7, { mst := .running, winN := 81 })] }, 7, by decide⟩, ⟨{ incr with trl := [(7, { winN := 48 })] }, 7, by decide⟩,
    ⟨{ incr with trl := [(7, { mst := .running })] }, 7, by decide⟩, ⟨{ incr with trl := [(7, { mst := .starting })] }, 7, by decide⟩⟩

theorem witness_SerialPorts :
    (∃ (s : State) (p : PortIx), mainRuns s = true ∧ 2 ≤ portMode s p ∧ (mget ({} : SerialPort) s.ser p).startAt = none) ∧
    (∃ (s : State) (p : PortIx), mainRuns s = true ∧ (mget ({} : SerialPort) s.ser p).startAt.isSome = true) ∧ (∃ (s : State) (p : PortIx), mainRuns s = true ∧ 2 ≤ portMode s p ∧ lineBroken s p = true) ∧
    (∃ (s : State) (p : PortIx), mainRuns s = true ∧ portMode s p = 2 ∧ lineBroken s p = false ∧ rdB s (TRL_SER_CFG_CRC_EN p) = true) ∧
    (∃ (s : State) (p : PortIx), mainRuns s = true ∧ 2 ≤ portMode s p ∧ (mget ({} : SerialPort) s.ser p).startAt.isSome = true) ∧
    (∃ (s : State) (p : PortIx), mainRuns s = true ∧ portMode s p = 3 ∧ lineBroken s p = false ∧ rdB (trlOpen s p) (TRL_SER_CFG_GRAY p) = false ∧ (mget ({} : SerialPort) (trlOpen s p).ser p).hist = [] ∧
      (mget ({} : SerialPort) (trlOpen s p).ser p).valid = false) :=
  ⟨⟨put [(TRL_PORT_CFG_MODE 7, 2)], 7, by decide⟩, ⟨{ put [(TRL_PORT_CFG_MODE 7, 3)] with ser := [(7, { startAt := some 0 })] }, 7, by decide⟩, ⟨put [(TRL_PORT_CFG_MODE 7, 2), (TRL_PIN_A_LB 7, 1)], 7, by decide⟩,
    ⟨put [(TRL_PORT_CFG_MODE 7, 2)], 7, by decide⟩, ⟨{ put [(TRL_PORT_CFG_MODE 7, 3)] with ser := [(7, { startAt := some 0 })] }, 7, by decide⟩, ⟨put [(TRL_PORT_CFG_MODE 7, 3)], 7, by decide⟩⟩

theorem witness_PresetsAndPortModes :
    (∃ (s : State) (t : TrailIx) (hi : BitVec 32), hostOpen s = true ∧ t.val < 8 ∧
      ∃ v, v = floorDiv (toSigned 64 (joined s (0x40020 + 0x100 * t) hi.toNat)) 256 * 256 ∧ ∃ m, m = wr (trlOpen s t) (TRL_STATUS_UNTRUSTED t) 0 ∧ ∃ w, w = wrB m (LAN_PORT_STATUS_UNTRUSTED t) (rdB m (LAN_PORT_STATUS_LINE_BREAK t) || lineBroken m t) ∧ portMode w t = 1 ∧ (trl (trlOpen s t) t).limMin ≤ v ∧ v ≤ (trl (trlOpen s t) t).limMax) ∧
    (∃ (s : State) (t : TrailIx), hostOpen s = true ∧ t.val < 8 ∧ ratioOn s t = false) ∧ (∃ (s : State) (t : TrailIx), hostOpen s = true ∧ 8 ≤ t.val ∧ ratioOn s t = false) ∧
    (∀ v ∈ [(0x0001 : BitVec 32), 0x0000, 0x0002], hostOpen incr = true ∧
      ∃ w, w = wr (trlOpen incr 7) ⟨0x41000 + 0x40 * 7, 0, 14⟩ (Nat.land v.toNat 0x3FFF) ∧ rdB w (TRL_PORT_CFG_Z_EN 7) = false ∧ portMode incr 7 = 1 ∧ portMode w 7 = v.toNat) :=
  ⟨⟨incr, 0, 1, by decide, by decide, _, rfl, _, rfl, _, rfl, by decide⟩, ⟨incr, 7, by decide⟩, ⟨incr, 8, by decide⟩, fun v h => by
    rcases List.mem_cons.1 h with rfl | h
    · exact ⟨by decide, _, rfl, by decide⟩
    · rcases List.mem_cons.1 h with rfl | h
      · exact ⟨by decide, _, rfl, by decide⟩
      · rw [List.mem_singleton.1 h]; exact ⟨by decide, _, rfl, by decide⟩⟩

theorem witness_HomesAndDividers :
    (∃ (s : State) (i : HomeIx), mainRuns s = true ∧ rd s (TRL_HOME_CFG_FUNC i) = 1 ∧ rdB s (TRL_HOME_CFG_ARM i) = true ∧ rd s (TRL_HOME_CFG_TRAIL i) < 12 ∧ rdB s (TRL_HOME_CFG_ZGATE i) = false) ∧
    (∃ (s : State) (i : HomeIx), mainRuns s = true ∧ rd s (TRL_HOME_CFG_FUNC i) = 1 ∧ rdB s (TRL_HOME_CFG_ARM i) = true ∧ rd s (TRL_HOME_CFG_TRAIL i) < 12 ∧ rdB s (TRL_HOME_CFG_ZGATE i) = true ∧
      i.val ∉ (trl s (rd s (TRL_HOME_CFG_TRAIL i))).homeZ) ∧
    (∃ (s : State) (t : TrailIx), Sound s ∧ limitActive s t 2 = true ∧ rdB s (TRL_STATUS_LIMIT_MIN t) = false) ∧ (∃ (s : State) (t : TrailIx), Sound s ∧ limitActive s t 3 = true ∧ rdB s (TRL_STATUS_LIMIT_MAX t) = false) ∧
    (∃ (s : State) (p : PortIx), s.pwr.aon = true ∧ ∃ n, n = rdI s (LAN_SHADOW_SHADOW p) + (mget ({} : CorrS) s.corr p).fly.getD 0 ∧ n ≤ 2 ^ 55 - 1 ∧ -(2 ^ 55) ≤ n) ∧
    (∃ (s : State) (d : DivIx), mainRuns s = true ∧ enabled s (0x43000 + 0x10 * d) = true ∧ divRatioErr s d = false ∧ divHeld s (mget ({} : DividerS) s.div d) = false ∧
      divTarget s d - (mget ({} : DividerS) s.div d).emitted ≠ 0 ∧ (divTarget s d - (mget ({} : DividerS) s.div d).emitted).natAbs ≤ 65535 ∧ (mget ({} : DividerS) s.div d).lastAt = none) :=
  ⟨⟨put [(TRL_HOME_CFG_FUNC 1, 1), (TRL_HOME_CFG_ARM 1, 1), (TRL_HOME_CFG_TRAIL 1, 11)], 1, by decide⟩, ⟨put [(TRL_HOME_CFG_FUNC 1, 1), (TRL_HOME_CFG_ARM 1, 1), (TRL_HOME_CFG_ZGATE 1, 1)], 1, by decide⟩,
    ⟨{ put [(TRL_HOME_CFG_FUNC 1, 2), (TRL_HOME_CFG_TRAIL 1, 11)] with homeLv := [(1, true)] }, 11, by decide⟩, ⟨{ put [(TRL_HOME_CFG_FUNC 1, 3), (TRL_HOME_CFG_TRAIL 1, 11)] with homeLv := [(1, true)] }, 11, by decide⟩,
    ⟨{ State.reset with corr := [(0, { fly := some (-1), sum := 2 })] }, 0, by decide, _, rfl, by decide⟩,
    ⟨{ reg [(0x43000, 5)] with div := [(0, { emitted := 7 })] }, 0, by decide⟩⟩

theorem witness_SnapshotCaptures : Sound State.reset ∧ hostOpen State.reset = true ∧ State.reset.todo = [] := by decide

theorem witness_DomainWrites : (∃ (s : State) (v : BitVec 32), hostOpen s = true ∧ bitsOf (Nat.land v.toNat 0x3FFFF7F) 1 0 = 0) ∧
    (∃ (s : State) (v : BitVec 32), hostOpen s = true ∧ bitsOf (Nat.land v.toNat 0x3FFFF7F) 1 0 ≠ 0 ∧
      srcAccepted (wr s (TMB_DOM_CFG_SRC 0) (bitsOf (Nat.land v.toNat 0x3FFFF7F) 1 0)) (bitsOf (Nat.land v.toNat 0x3FFFF7F) 1 0) (bitsOf (Nat.land v.toNat 0x3FFFF7F) 6 2) = false) :=
  ⟨⟨State.reset, 0, by decide⟩, ⟨State.reset, 1, by decide⟩⟩

theorem witness_DomainStep : (∃ s : State, rdB s (TMB_DOM_STATUS_STEPPED 0) = true) ∧ (∃ s : State, rdB s (TMB_DOM_STATUS_STEPPED 0) = false) := ⟨⟨put [(TMB_DOM_STATUS_STEPPED 0, 1)], by decide⟩, ⟨State.reset, by decide⟩⟩

/-- Lane 0 UP in a CoaXPress mode, lane 1 UP in an Ethernet mode. -/
def lanes : State := put [(⟨0x70004, 0, 4⟩, 1), (⟨0x72004, 0, 4⟩, 8), (CAM_LANE_STATUS_UP 0, 1), (CAM_LANE_STATUS_UP 1, 1)]

theorem witness_Discipline :
    (∃ (s : State) (d : DomIx) (x : OffSample), mainRuns s = true ∧ x.newMaster = false ∧ rd s (TMB_DOM_CFG_SRC d) ≠ 0 ∧ rd s (TMB_DOM_CFG_SRC d) ≠ 1 ∧ rdB s (TMB_DOM_STATUS_SRC_ERR d) = false ∧
      ∃ u, u = wrI s (TMB_DOM_OFFSET_OFFSET d) (satSigned 32 x.theta) ∧ rd u (TMB_DOM_STATUS_STATE d) = 2 ∧ x.theta.natAbs ≤ 4 * (orOne (rd u (TMB_DOM_SERVO_LOCK_NS d)) * 256)) ∧
    (∃ (s : State) (d : DomIx) (x : OffSample), mainRuns s = true ∧ x.newMaster = false ∧ rd s (TMB_DOM_CFG_SRC d) = 1 ∧ rdB s (TMB_DOM_STATUS_SRC_ERR d) = false ∧ x.mpd = none ∧
      portState s (rd s (TMB_DOM_CFG_PORT d)) = 2 ∧ rdB s (TMB_PORT_STATUS_PATH_SUSPECT (rd s (TMB_DOM_CFG_PORT d))) = true) ∧
    (∃ (s : State) (d : DomIx) (x : OffSample), mainRuns s = true ∧ x.newMaster = false ∧ rd s (TMB_DOM_CFG_SRC d) = 1 ∧ rdB s (TMB_DOM_STATUS_SRC_ERR d) = false ∧ x.mpd = none ∧ portState s (rd s (TMB_DOM_CFG_PORT d)) ≠ 2) ∧
    (∃ (s : State) (d : DomIx) (x : PtmSample), mainRuns s = true ∧ rd s (TMB_DOM_CFG_SRC d) = 2 ∧ bme s = true ∧ inD3 s = false ∧ 32 < ((x.delay : Int) - ((domS s d).ptmMean.getD x.delay : Nat)).natAbs) ∧
    (∃ (s : State) (d : DomIx) (x : PtmSample), mainRuns s = true ∧ rd s (TMB_DOM_CFG_SRC d) = 2 ∧ bme s = true ∧ inD3 s = false ∧ ((x.delay : Int) - ((domS s d).ptmMean.getD x.delay : Nat)).natAbs ≤ 32) ∧
    (∃ (s : State) (d : DomIx), mainRuns s = true ∧ (rd s (TMB_DOM_STATUS_STATE d) = 1 ∨ rd s (TMB_DOM_STATUS_STATE d) = 2)) ∧
    (∃ (s : State) (n : LaneIx), mainRuns s = true ∧ (mget ({} : PathS) s.path n).suspect.isSome = true) :=
  ⟨⟨put [(TMB_DOM_CFG_SRC 3, 3), (TMB_DOM_STATUS_STATE 3, 2)], 3, ⟨-20480, 1000, none, false⟩, by decide, by decide, by decide, by decide, by decide, _, rfl, by decide⟩,
    ⟨put [(TMB_DOM_CFG_SRC 3, 1), (TMB_DOM_CFG_PORT 3, 1), (TMB_PORT_STATUS_PATH_SUSPECT 1, 1), (TMB_PORT_PTP_EN 1, 1), (TMB_PORT_STATUS_PORT_STATE 1, 2)] lanes, 3, ⟨7, 1000, none, false⟩, by decide⟩,
    ⟨put [(TMB_DOM_CFG_SRC 3, 1), (TMB_DOM_CFG_PORT 3, 31)], 3, ⟨7, 1000, none, false⟩, by decide⟩,
    ⟨{ put [(TMB_DOM_CFG_SRC 0, 2)] open_ with dom := [(0, { ptmMean := some 100 })] }, 0, ⟨0, 133⟩, by decide⟩, ⟨{ put [(TMB_DOM_CFG_SRC 0, 2)] open_ with dom := [(0, { ptmMean := some 100 })] }, 0, ⟨0, 132⟩, by decide⟩,
    ⟨put [(TMB_DOM_STATUS_STATE 0, 1)], 0, by decide⟩, ⟨{ State.reset with path := [(31, { suspect := some (true, 1, 0, 0) })] }, 31, by decide⟩⟩

theorem witness_TransmitStamps :
    (∃ (s : State) (n : LaneIx) (e : TxStamp) (q : List TxStamp), hostOpen s = true ∧ ethMode s n = true ∧ mget ([] : List TxStamp) s.txq n = e :: q) ∧
    (∃ (s : State) (n : LaneIx), hostOpen s = true ∧ mget ([] : List TxStamp) s.txq n = []) ∧ (∃ (s : State) (n : LaneIx), hostOpen s = true ∧ ethMode s n = false) ∧
    (∃ (s : State) (n : LaneIx) (ty : BitVec 4), mainRuns s = true ∧ ethMode s n = true ∧ rdB s (TMB_PORT_PTP_EN n) = true ∧ rdB s (TMB_PORT_PTP_HOST_STACK n) = false ∧ rdB s (CAM_LANE_STATUS_UP n) = true ∧
      ty.toNat < 4 ∧ ty.toNat ≠ 0 ∧ ptpMay s n ty.toNat = true) ∧
    (∃ (s : State) (n : LaneIx), mainRuns s = true ∧ ethMode s n = true ∧ rdB s (TMB_PORT_PTP_EN n) = true ∧ rdB s (TMB_PORT_PTP_HOST_STACK n) = false ∧ rdB s (CAM_LANE_STATUS_UP n) = true ∧ ptpMay (ptpTimeout s n) n 0 = true) ∧
    (∃ (s : State) (n : LaneIx), mainRuns s = true ∧ ethMode s n = true ∧ rdB s (TMB_PORT_PTP_EN n) = true ∧ rdB s (TMB_PORT_PTP_HOST_STACK n) = false ∧ rdB s (CAM_LANE_STATUS_UP n) = true ∧ ptpMay s n 2 = false) :=
  ⟨⟨{ lanes with txq := [(1, [⟨5, 6⟩])] }, 1, ⟨5, 6⟩, [], by decide⟩, ⟨lanes, 0, by decide⟩, ⟨lanes, 0, by decide⟩, ⟨put [(TMB_PORT_PTP_EN 1, 1), (TMB_PORT_PTP_P2P 1, 1)] lanes, 1, 3, by decide⟩,
    ⟨put [(TMB_PORT_PTP_EN 1, 1), (TMB_PORT_STATUS_PORT_STATE 1, 3)] lanes, 1, by decide⟩, ⟨put [(TMB_PORT_PTP_EN 1, 1)] lanes, 1, by decide⟩⟩

theorem witness_Generators :
    (∃ (s : State) (g : TpgIx), mainRuns s = true ∧ enabled s (tpgEn g) = true ∧ mget (none : Option Nat) s.gyl.tpg g = none ∧ rdB s (TPG_CFG_PERIODIC g) = false ∧ (tpg s g).armed = true ∧ (tpg s g).late = false ∧
      tpgDue s g (gridTime s g 0) = true) ∧
    (∃ (s : State) (g : TpgIx), mainRuns s = true ∧ enabled s (tpgEn g) = true ∧ mget (none : Option Nat) s.gyl.tpg g = none ∧ rdB s (TPG_CFG_PERIODIC g) = false ∧ (tpg s g).armed = true ∧ (tpg s g).late = true) ∧
    (∃ (s : State) (g : TpgIx), mainRuns s = true ∧ enabled s (tpgEn g) = true ∧ mget (none : Option Nat) s.gyl.tpg g = none ∧ rdB s (TPG_CFG_PERIODIC g) = true ∧ tpgDue s g (gridTime s g (tpg s g).k) = true ∧
      ∃ v, v = tpgEmit (setTpg s g { tpg s g with k := (tpg s g).k + 1 }) g 0 (tpgFine s g (gridTime s g (tpg s g).k)) ∧ rd v (TPG_COUNT_COUNT g) = 0) ∧
    (∃ (s : State) (g : TpgIx), mainRuns s = true ∧ enabled s (tpgEn g) = true ∧ mget (none : Option Nat) s.gyl.tpg g = none ∧ rdB s (TPG_CFG_PERIODIC g) = true ∧ tpgDue s g (gridTime s g (tpg s g).k) = true ∧
      ∃ v, v = tpgEmit (setTpg s g { tpg s g with k := (tpg s g).k + 1 }) g 0 (tpgFine s g (gridTime s g (tpg s g).k)) ∧ rd v (TPG_COUNT_COUNT g) ≠ 0 ∧ rd v (TPG_COUNT_COUNT g) ≤ (tpg v g).k) ∧
    (∃ (s : State) (g : TpgIx), mainRuns s = true ∧ enabled s (tpgEn g) = true ∧ mget (none : Option Nat) s.gyl.tpg g = none ∧ rdB s (TPG_CFG_PERIODIC g) = true ∧ tpgDue s g (gridTime s g (tpg s g).k) = false) ∧
    (∃ (s : State) (g : TpgIx), hostOpen s = true ∧ enState s (tpgEn g) = 0) ∧ (∃ (s : State) (g : TpgIx), hostOpen s = true ∧ enState s (tpgEn g) = 2 ∧ rdB s (TPG_CFG_PERIODIC g) = false) ∧
    (∃ (s : State) (g : TpgIx), hostOpen s = true ∧ enState s (tpgEn g) = 3) :=
  ⟨⟨{ put [(TPG_EN_STATE 15, 2)] with tpg := [(15, { armed := true })] }, 15, by decide⟩, ⟨{ put [(TPG_EN_STATE 15, 2)] with tpg := [(15, { armed := true, late := true })] }, 15, by decide⟩,
    ⟨put [(TPG_EN_STATE 0, 2), (TPG_CFG_PERIODIC 0, 1)], 0, by decide, by decide, by decide, by decide, by decide, _, rfl, by decide⟩,
    ⟨put [(TPG_EN_STATE 0, 2), (TPG_CFG_PERIODIC 0, 1), (TPG_COUNT_COUNT 0, 1)], 0, by decide, by decide, by decide, by decide, by decide, _, rfl, by decide⟩,
    ⟨put [(TPG_EN_STATE 0, 2), (TPG_CFG_PERIODIC 0, 1), (TPG_START_START 0, 9)], 0, by decide⟩, ⟨State.reset, 0, by decide⟩, ⟨put [(TPG_EN_STATE 0, 2)], 0, by decide⟩,
    ⟨put [(TPG_EN_STATE 0, 3)], 0, by decide⟩⟩

/-- Stake 0 ENABLED and ARMED at a target below its compare position, or above it. -/
def armedStake (tgt : Nat) (passed late : Bool) : State := { put [(⟨stkEn 0, 1, 2⟩, 2), (STK_STATUS_WALK 0, 2), (STK_ARMED_TGT_TGT 0, tgt), (STK_CTRL_LATE_FIRE 0, b2n late)] with now := 5, stk := [(0, { passed := some passed, entry := some { target := 0, stepN := 0, stepD := 1, count := 0, outA := true, outB := false, event := false, noLead := true } })] }

theorem witness_StakeFires :
    (∀ s ∈ [armedStake 0 false false, armedStake 1 true true], mainRuns s = true ∧ rd s (STK_STATUS_WALK 0) = 2 ∧ enabled s (stkEn 0) = true ∧ rd s (STK_CTRL_TRAIL 0) < 12) ∧
    (∃ s : State, mainRuns s = true ∧ rd s (STK_STATUS_WALK 0) = 2 ∧ enabled s (stkEn 0) = true ∧ rd s (STK_CTRL_TRAIL 0) < 12 ∧ stkBarred s (rd s (STK_CTRL_TRAIL 0)) = true) ∧
    (∃ s : State, mainRuns s = true ∧ rd s (STK_STATUS_WALK 0) = 2 ∧ enabled s (stkEn 0) = true ∧ rd s (STK_CTRL_TRAIL 0) < 12 ∧ stkCompares s 0 = false) ∧
    (∃ s : State, s = armedStake 0 false false ∧ stkBarred s (rd s (STK_CTRL_TRAIL 0)) = false ∧ stkCompares s 0 = true ∧ stkPassed s 0 = false ∧
      atOrPast (rdB s (STK_CTRL_DIR 0)) (cmp16 s 0 ((stk s 0).entry.getD (stkEntry s 0 (stk s 0).idx)).noLead) (rdI s (STK_ARMED_TGT_TGT 0)) = true) ∧
    (∃ s : State, s = armedStake 1 false false ∧ stkBarred s (rd s (STK_CTRL_TRAIL 0)) = false ∧ stkCompares s 0 = true ∧ stkPassed s 0 = false ∧
      atOrPast (rdB s (STK_CTRL_DIR 0)) (cmp16 s 0 ((stk s 0).entry.getD (stkEntry s 0 (stk s 0).idx)).noLead) (rdI s (STK_ARMED_TGT_TGT 0)) = false) ∧
    (∀ late : Bool, stkBarred (armedStake 0 true late) 0 = false ∧ stkCompares (armedStake 0 true late) 0 = true ∧ stkPassed (armedStake 0 true late) 0 = true ∧ rdB (armedStake 0 true late) (STK_CTRL_LATE_FIRE 0) = late) ∧
    (∃ (s : State) (n : StakeIx), hostOpen s = true ∧ rd s (STK_STATUS_WALK n) = 3 ∧ enabled s (stkEn n) = true) ∧ (∃ (s : State) (n : StakeIx), mainRuns s = true ∧ 12 ≤ rd s (STK_CTRL_TRAIL n)) :=
  ⟨by decide, ⟨{ armedStake 0 true true with trl := [(0, { barred := true })] }, by decide⟩, ⟨{ armedStake 0 true true with now := 1, stk := [(0, { first := 1 })] }, by decide⟩, ⟨_, rfl, by decide⟩, ⟨_, rfl, by decide⟩, by decide,
    ⟨put [(⟨stkEn 0, 1, 2⟩, 2), (STK_STATUS_WALK 0, 3)], 0, by decide⟩, ⟨put [(STK_CTRL_TRAIL 0, 15)], 0, by decide⟩⟩

theorem witness_StakeSeeks :
    (∃ (s : State) (n : StakeIx), mainRuns s = true ∧ rd s (STK_STATUS_WALK n) = 1 ∧ enabled s (stkEn n) = true ∧ steered s n = false ∧ rd s (STK_CYCLE_CYCLE n) = 0 ∧
      rdB s (STK_CTRL_DIR n) = false ∧ (seekIn s n false (rdI s (STK_OFFSET_OFFSET n)) (cmp16 s n false) (cmp16 s n true) (rd s (STK_TBL_LEN_LEN n)) 0).isSome = true) ∧
    (∃ (s : State) (n : StakeIx), mainRuns s = true ∧ rd s (STK_STATUS_WALK n) = 1 ∧ enabled s (stkEn n) = true ∧ rd s (STK_CTRL_TRAIL n) = 15 ∧ steered s n = false ∧ rd s (STK_CYCLE_CYCLE n) = 0 ∧
      rdB s (STK_CTRL_DIR n) = true ∧ (seekIn s n true (-(rdI s (STK_OFFSET_OFFSET n))) (cmp16 s n false) (cmp16 s n true) (rd s (STK_TBL_LEN_LEN n)) 0).isSome = false) :=
  ⟨⟨{ put [(⟨stkEn 0, 1, 2⟩, 2), (STK_STATUS_WALK 0, 1), (STK_TBL_LEN_LEN 0, 1), (STK_OFFSET_OFFSET 0, 256)] with sram := [(0, some 0)] }, 0, by decide⟩,
    ⟨put [(⟨stkEn 0, 1, 2⟩, 2), (STK_STATUS_WALK 0, 1), (STK_CTRL_DIR 0, 1), (STK_CTRL_TRAIL 0, 15)], 0, by decide⟩⟩

theorem witness_PinsAndUplinks :
    (∃ (s : State) (p : PinIx), mainRuns s = true ∧ rdB s (STK_TRG_STATUS_ACTIVE p) = true ∧ (pinS s p).cfgWait = none) ∧
    (∃ (s : State) (p : PinIx) (v : Nat), mainRuns s = true ∧ rdB s (STK_TRG_STATUS_ACTIVE p) = true ∧ (pinS s p).cfgWait = some v) ∧
    (∃ (s : State) (n : LaneIx) (x : CxpTrig), mainRuns s = true ∧ mget none s.cxp n = some x ∧ x.rose = false ∧ rdB s (CAM_LANE_STATUS_UP n) = true ∧ x.tx ≤ 8 * s.now) ∧
    (∃ (s : State) (n : LaneIx) (x : CxpTrig), mainRuns s = true ∧ mget none s.cxp n = some x ∧ x.rose = true ∧ rdB s (CAM_LANE_STATUS_UP n) = true ∧ x.tx + 8 * rd s (STK_CXP_WIDTH_WIDTH n) + x.lag ≤ 8 * s.now) ∧
    (∃ (s : State) (n : LaneIx), mainRuns s = true ∧ rdB s (CAM_LANE_STATUS_UP n) = false) :=
  ⟨⟨put [(STK_TRG_STATUS_ACTIVE 23, 1)], 23, by decide⟩, ⟨{ put [(STK_TRG_STATUS_ACTIVE 23, 1)] with pins := [(23, { cfgWait := some 3 })] }, 23, 3, by decide⟩,
    ⟨{ lanes with cxp := [(0, some { tx := 0, lag := 0, fall := true })] }, 0, { tx := 0, lag := 0, fall := true }, by decide⟩,
    ⟨{ lanes with now := 1000, cxp := [(0, some { tx := 0, lag := 40, rose := true, fall := true })] }, 0, { tx := 0, lag := 40, rose := true, fall := true }, by decide⟩, ⟨State.reset, 31, by decide⟩⟩

/-- Lane 0 in step `t` of its training, in a group of 1 or 2 lanes. -/
def training (t bond : Nat) : State := { put [(CAM_LANE_STATUS_TRAIN 0, t), (⟨0x70004, 0, 4⟩, 1)] with lane := [(0, { cfg := 1 + 16 * bond })] }

/-- Lane 0 in an Ethernet mode in a step of its training, and one of CoaXPress that has a discovery to run. -/
def ethTraining (t high : Nat) : State := put [(CAM_LANE_STATUS_TRAIN 0, t), (⟨0x70004, 0, 4⟩, 8), (CAM_LANE_STATUS_HIGH_BER 0, high)]
def mustFind : State := { training 1 0 with lane := [(0, { cfg := 65 })] }

theorem witness_LaneTraining :
    (∃ (s : State) (n : LaneIx), mainRuns s = true ∧ train s (masterOf s n) = 1 ∧ mustDiscover (each (members s (masterOf s n)) (fun s k => wr s (CAM_LANE_STATUS_NO_SIGNAL k) 0) s) (masterOf s n) = false) ∧
    (∃ (s : State) (n : LaneIx) (d : Discovered), mainRuns s = true ∧ train s (masterOf s n) = 1 ∧ mustDiscover (each (members s (masterOf s n)) (fun s k => wr s (CAM_LANE_STATUS_NO_SIGNAL k) 0) s) (masterOf s n) = true ∧ discoveryFits (masterOf s n) d = true) ∧
    (∃ (s : State) (n : LaneIx), mainRuns s = true ∧ train s (masterOf s n) = 2 ∧ (lane s (masterOf s n)).discovering = false ∧ ethMode s (masterOf s n) = false ∧ 1 < (members s (masterOf s n)).length) ∧
    (∃ (s : State) (n : LaneIx), mainRuns s = true ∧ train s (masterOf s n) = 2 ∧ (lane s (masterOf s n)).discovering = false ∧ ethMode s (masterOf s n) = true ∧ rdB s (CAM_LANE_STATUS_HIGH_BER (masterOf s n)) = false ∧
      (members s (masterOf s n)).length ≤ 1) ∧
    (∃ (s : State) (n : LaneIx), mainRuns s = true ∧ train s (masterOf s n) = 2 ∧ ethMode s (masterOf s n) = true ∧ rdB s (CAM_LANE_STATUS_HIGH_BER (masterOf s n)) = true) ∧
    (∃ (s : State) (n : LaneIx) (l : List (BitVec 16)), mainRuns s = true ∧ train s (masterOf s n) = 3 ∧ ∃ k ∈ l, 4000 < k.toNat) ∧
    (∃ (s : State) (n : LaneIx) (l : List (BitVec 16)), mainRuns s = true ∧ train s (masterOf s n) = 3 ∧ ∀ k ∈ l, k.toNat ≤ 4000) ∧
    (∃ (s : State) (n : LaneIx), mainRuns s = true ∧ train s (masterOf s n) = 4) ∧ (∃ (s : State) (n : LaneIx), mainRuns s = true ∧ 1 < train s (masterOf s n) ∧ ethMode s (masterOf s n) = true) ∧
    (∃ (s : State) (n : LaneIx), mainRuns s = true ∧ train s (masterOf s n) = 5) :=
  ⟨⟨training 1 0, 0, by decide⟩, ⟨mustFind, 0, ⟨7, 0⟩, by decide⟩, ⟨training 2 1, 0, by decide⟩, ⟨ethTraining 2 0, 0, by decide⟩, ⟨ethTraining 2 1, 0, by decide⟩,
    ⟨training 3 1, 0, [0, 4001], by decide, by decide, 4001, by decide, by decide⟩, ⟨training 3 1, 0, [0, 4000], by decide, by decide, by simp⟩, ⟨training 4 0, 0, by decide⟩, ⟨ethTraining 2 0, 0, by decide⟩,
    ⟨training 5 0, 0, by decide⟩⟩

theorem witness_CameraControl :
    (∃ (s : State) (n : LaneIx) (len : BitVec 9), hostOpen s = true ∧ rdB s (CAM_CTL_STATUS_BUSY n) = false ∧ 4 ≤ len.toNat ∧ len.toNat ≤ 256 ∧ len.toNat % 4 = 0 ∧ rdB s (CAM_LANE_STATUS_UP n) = true ∧
      rdB s (CAM_LANE_STATUS_MEMBER n) = false ∧ ethMode s n = false) ∧
    (∃ (s : State) (n : LaneIx), hostOpen s = true ∧ rdB s (CAM_CTL_STATUS_BUSY n) = true) ∧
    (∃ (s : State) (n : LaneIx) (x : CtlAnswer), mainRuns s = true ∧ x.crcOk = false ∧ rdB s (CAM_LANE_STATUS_UP n) = true) ∧
    (∀ w : Bool, ∃ (s : State) (n : LaneIx) (c : CtlCmd), mainRuns s = true ∧ (lane s n).ctl = some c ∧ c.write = w) ∧
    (∀ r : Bool, ∃ x : CtlAnswer, x.crcOk = true ∧ x.refused = r) :=
  ⟨⟨lanes, 0, 256, by decide⟩, ⟨put [(CAM_CTL_STATUS_BUSY 0, 1)], 0, by decide⟩, ⟨lanes, 0, ⟨false, false, []⟩, by decide⟩,
    fun w => ⟨{ lanes with lane := [(0, { ctl := some ⟨w, 0, 4⟩ })] }, 0, ⟨w, 0, 4⟩, by revert w; decide, rfl, rfl⟩, fun r => ⟨⟨true, r, []⟩, rfl, rfl⟩⟩

/-- Stream 0 ENABLED on lane 0 in an acquisition mode. -/
def streaming : State := put [(MODE_STATUS_MODE, 4), (⟨0x71000, 1, 2⟩, 2), (CAM_STR_BIND_SRC_ID 0, 9), (⟨frmEn 0, 1, 2⟩, 2), (CAM_STR_BIND_LINE 0, 1)] lanes

/-- The same with a line begun and its lane in QUIESCING. -/
def begun : State := { put [(⟨laneEn 0, 1, 2⟩, 3)] streaming with lane := [(0, { cfg := 1 })], str := [(0, { part := [1] })] }

theorem witness_RawPath :
    (∃ (s : State) (n : LaneIx), mainRuns s = true ∧ cxpMode s n = true ∧ laneTakes s n = true ∧ rdB s (CAM_LANE_STATUS_MEMBER n) = false ∧ laneStops s n = false) ∧
    (∃ (s : State) (n : LaneIx), mainRuns s = true ∧ cxpMode s n = true ∧ laneTakes s n = true ∧ laneStops s n = true) ∧
    (∃ (s : State) (n : LaneIx), mainRuns s = true ∧ ethMode s n = true ∧ laneTakes s n = true ∧ laneStops s n = true ∧ macAccepts s n 5 = true) ∧
    (∃ (s : State) (n : LaneIx) (e : RawEntry) (q : List RawEntry), hostOpen s = true ∧ (lane s n).raw = e :: q) ∧
    (∃ (s : State) (n : LaneIx) (len : BitVec 12), hostOpen s = true ∧ (lane (rawTxOver s n) n).tx = none ∧ 14 ≤ len.toNat ∧ len.toNat ≤ 2044 ∧ ethMode (rawTxOver s n) n = true ∧
      rdB (rawTxOver s n) (CAM_LANE_STATUS_UP n) = true ∧ ptpIn (ramBytes (rawTxOver s n) (0x71800 + 0x2000 * n) len.toNat) = none) ∧
    (∃ (s : State) (n : LaneIx), hostOpen s = true ∧ (lane (rawTxOver s n) n).tx ≠ none) ∧ (∃ (s : State) (len : BitVec 12), hostOpen s = true ∧ (len.toNat < 14 ∨ 2044 < len.toNat)) ∧
    (∀ p : Bool, ∃ (s : State) (n : LaneIx), mainRuns s = true ∧ (lane s n).privilege = p) ∧
    (∀ arp : Nat, arp < 2 → ∃ (s : State) (n : LaneIx), s = put [(CAM_ETH_CFG_ARP_FW 1, arp), (CAM_ETH_MAC_MAC 1, 5), (CAM_ETH_IP_IP 1, 6)] lanes ∧ n.val = 1 ∧ mainRuns s = true ∧ ethMode s n = true ∧ laneTakes s n = true ∧ laneStops s n = false ∧
      macAccepts s n 9 = false ∧ macAccepts s n 5 = true ∧ rd s (CAM_ETH_IP_IP n) = 6 ∧ rdB s (CAM_ETH_CFG_ARP_FW n) = (arp == 1)) ∧
    (∃ (s : State) (n : LaneIx) (x : EthFrame) (ip : BitVec 32) (port : BitVec 16) (p : GvspPkt) (st : Nat), mainRuns s = true ∧ ethMode s n = true ∧ laneTakes s n = true ∧ laneStops s n = false ∧ x.codeErrs = 0 ∧ macAccepts s n x.dst.toNat = true ∧
      x.fcsOk = true ∧ x.data.length ≤ 9018 ∧ x.kind = .udp ip port (some p) ∧ ip.toNat = rd s (CAM_ETH_IP_IP n) ∧
      (streamsOf s n).find? (fun st => rd s (CAM_STR_BIND_UDP st) == port.toNat) = some st) :=
  ⟨⟨lanes, 0, by decide⟩, ⟨begun, 0, by decide⟩, ⟨{ put [(CAM_STR_BIND_LANE 0, 1), (⟨laneEn 1, 1, 2⟩, 3), (CAM_ETH_MAC_MAC 1, 5)] streaming with lane := [(1, { cfg := 8 })], str := [(0, { part := [1] })] }, 1, by decide⟩, ⟨{ lanes with lane := [(0, { raw := [⟨1, [2]⟩] })] }, 0, ⟨1, [2]⟩, [], by decide⟩, ⟨lanes, 1, 14, by decide⟩, ⟨{ lanes with lane := [(1, { tx := some 9 })] }, 1, by decide⟩, ⟨lanes, 2045, by decide⟩,
    fun p => ⟨{ lanes with lane := [(1, { privilege := p })] }, 1, by revert p; decide, rfl⟩,
    fun arp h => ⟨_, 1, rfl, by revert h arp; decide⟩,
    ⟨put [(⟨0x71000, 1, 2⟩, 2), (CAM_STR_BIND_LANE 0, 1), (CAM_STR_BIND_UDP 0, 77)] lanes, 1, ⟨true, 0, 0, .udp 0 77 (some ⟨false, 0, 0, .trailer⟩), []⟩, 0, 77, ⟨false, 0, 0, .trailer⟩, 0, by decide⟩⟩

/-- A block of two lines of four bytes that has lost its first data packet. -/
def lossy : GvspBlock := { block := 1, leader := true, height := 2, width := 4, lineBytes := 4, got := [(2, [1, 2, 3, 4])], last := some 2 }

theorem witness_StreamPackets :
    (∃ (s : State) (n : LaneIx) (x : CxpPacket), mainRuns s = true ∧ cxpMode s n = true ∧ laneTakes s n = true ∧ x.crcOk = true ∧ x.codeErrs = 0 ∧ x.body = .other) ∧
    (∀ b ∈ [CxpBody.header 8 8, .data [1, 2]], ∃ (s : State) (n : LaneIx) (x : CxpPacket) (st : Nat), mainRuns s = true ∧ cxpMode s n = true ∧ laneTakes s n = true ∧ x.crcOk = true ∧ x.codeErrs = 0 ∧
      (streamsOf s (masterOf s n)).find? (fun st => rd s (CAM_STR_BIND_SRC_ID st) == x.sid.toNat) = some st ∧ receiving s = true ∧ ingressFill s n + x.size.toNat ≤ 65536 ∧ (members s (masterOf s n)).length ≤ 1 ∧
      x.body = b ∧ laneStops s n = false) ∧
    (∃ (s : State) (n : LaneIx) (x : CxpPacket) (st : Nat), mainRuns s = true ∧ cxpMode s n = true ∧ laneTakes s n = true ∧ x.crcOk = true ∧ x.codeErrs = 0 ∧
      (streamsOf s (masterOf s n)).find? (fun st => rd s (CAM_STR_BIND_SRC_ID st) == x.sid.toNat) = some st ∧ receiving s = true ∧ ingressFill s n + x.size.toNat ≤ 65536 ∧ (members s (masterOf s n)).length ≤ 1 ∧
      x.body = .header 8 8 ∧ laneStops s n = true) ∧
    (∃ (s : State) (st : StreamIx) (b : GvspBlock), mainRuns s = true ∧ ethMode s (rd s (CAM_STR_BIND_LANE st)) = true ∧ (strS s st).blocks = [b] ∧ gvspMissing (strS s st).pp b false = [1] ∧
      0 < rd s (CAM_STR_RESEND_MAX st) ∧ runsOf ((gvspMissing (strS s st).pp b false).filter (fun i => mget 0 b.asks i == 0)) = [(1, 1)]) ∧
    (∃ (s : State) (st : StreamIx) (b : GvspBlock) (bs : List GvspBlock), mainRuns s = true ∧ (strS s st).blocks = b :: bs) :=
  ⟨⟨streaming, 0, ⟨9, 0, 64, true, 0, .other⟩, by decide⟩, fun b h => ⟨streaming, 0, ⟨9, 0, 64, true, 0, b⟩, 0, by revert h b; decide⟩, ⟨begun, 0, ⟨9, 0, 64, true, 0, .header 8 8⟩, 0, by decide⟩,
    ⟨{ put [(CAM_STR_BIND_LANE 0, 1)] streaming with str := [(0, { blocks := [lossy], pp := 4 })] }, 0, lossy, by decide⟩,
    ⟨{ streaming with str := [(0, { blocks := [lossy] })] }, 0, lossy, [], by decide⟩⟩

theorem witness_LinePairing :
    (∃ (s : State) (st : StreamIx) (h : TagSample), mainRuns s = true ∧ receiving s = true ∧ strActive s st = true ∧ enState s (frmEn st) = 2 ∧ rdB s (CAM_STR_BIND_LINE st) = true ∧
      rd s (FRM_STR_BIND_SAMPLER st) ≠ 2 ∧ ∃ x, x = strS (staleDrop s st s.now) st ∧ x.nextSeq ≠ x.seq ∧ x.samples.find? (fun y => y.seq == x.nextSeq) = some h) ∧
    (∃ (s : State) (st : StreamIx), mainRuns s = true ∧ receiving s = true ∧ strActive s st = true ∧ enState s (frmEn st) = 2 ∧ rdB s (CAM_STR_BIND_LINE st) = true ∧
      rd s (FRM_STR_BIND_SAMPLER st) ≠ 2 ∧ ∃ x, x = strS (staleDrop s st s.now) st ∧ x.nextSeq ≠ x.seq ∧ x.samples ≠ [] ∧ ∀ y ∈ x.samples, y.seq ≠ x.nextSeq) ∧
    (∃ (x : StreamS) (mx t : Nat) (h : TagSample) (l : List TagSample), x.samples = h :: l ∧ t - h.at_ = mx * 1000 ∧ mx ≠ 0 ∧ t - h.at_ ≤ 2 * 2 ^ 31) ∧
    (∃ (s : State) (st : StreamIx) (r : RxLine) (y : TagSample), mainRuns s = true ∧ r.line.missing = false ∧ lineFails s (sampleOld s (some y)) st r.img = false ∧ rdB s (CAM_STR_BIND_LINE st) = true) ∧
    (∃ (s : State) (st : StreamIx) (r : RxLine) (rs : List RxLine), mainRuns s = true ∧ (strS s st).rx = r :: rs) ∧ (∃ (s : State) (st : StreamIx), mainRuns s = true ∧ (strS s st).rx = []) :=
  ⟨⟨{ put [(FRM_STR_MAXAGE_MAXAGE 0, 0)] streaming with str := [(0, { samples := [{ seq := 7 }], nextSeq := 7, seq := 9 })] }, 0, { seq := 7 }, by decide, by decide, by decide, by decide, by decide, by decide, _, rfl, by decide⟩,
    ⟨{ put [(FRM_STR_MAXAGE_MAXAGE 0, 0)] streaming with str := [(0, { samples := [{ seq := 7 }], nextSeq := 6, seq := 9 })] }, 0, by decide, by decide, by decide, by decide, by decide, by decide, _, rfl, by decide⟩,
    ⟨{ samples := [{ seq := 7, at_ := 5 }] }, 2, 2005, { seq := 7, at_ := 5 }, [], by decide⟩,
    ⟨streaming, 0, { lane := 0, line := ⟨false, true, true, []⟩, at_ := 0 }, {}, by decide⟩,
    ⟨{ State.reset with str := [(0, { rx := [{ lane := 0, line := ⟨false, true, true, []⟩, at_ := 0 }] })] }, 0, { lane := 0, line := ⟨false, true, true, []⟩, at_ := 0 }, [], by decide⟩, ⟨State.reset, 63, by decide⟩⟩

/-- A line, and stream 0 with one of its lines waiting for the cutter. -/
def lineWaits : State := { put [(⟨frmEn 0, 1, 2⟩, 2), (CAM_STR_BIND_LINE 0, 1)] with str := [(0, { lines := [⟨some {}, false, true, true, [1]⟩] })] }

theorem witness_LinesMarksAndLeads :
    (∃ (s : State) (st : StreamIx) (l : LineS) (ls : List LineS) (y : TagSample), mainRuns s = true ∧ (strS s st).lines = l :: ls ∧ l.sample = some y ∧ enState s (frmEn st) = 2 ∧ rdB s (CAM_STR_BIND_LINE st) = true ∧
      (frm s st).conj = none ∧ sampleOld s (some y) = false) ∧
    (∃ (s : State) (u : CompassIx) (r : Int × Option Loop) (rs : List (Int × Option Loop)), mainRuns s = true ∧ (mlk s u).reports = r :: rs) ∧
    (∃ (s : State) (st : StreamIx) (cj : ConjS), mainRuns s = true ∧ (frm s st).conj = some cj ∧ cj.lead = true ∧ cj.copied = false ∧ cj.xh = none ∧ s.chg.hAt = some 1) ∧
    (∃ (s : State) (st : StreamIx) (cj : ConjS) (xh : Int) (h : Nat), mainRuns s = true ∧ (frm s st).conj = some cj ∧ cj.lead = true ∧ cj.copied = false ∧ cj.xh = some xh ∧ s.chg.hAt = some h ∧ (frm s st).freedX = none) :=
  ⟨⟨lineWaits, 0, ⟨some {}, false, true, true, [1]⟩, [], {}, by decide⟩, ⟨{ State.reset with mlk := [(31, { reports := [(5, some {})] })] }, 31, (5, some {}), [], by decide⟩,
    ⟨{ State.reset with chg := { hAt := some 1 }, frm := [(0, { conj := some { lead := true, copied := false } })] }, 0, { lead := true, copied := false }, by decide⟩,
    ⟨{ State.reset with chg := { hAt := some 1 }, frm := [(0, { conj := some { lead := true, copied := false, xh := some 4 } })] }, 0, { lead := true, copied := false, xh := some 4 }, 4, 1, by decide⟩⟩

theorem witness_MissedMark :
    (∃ (s : State) (l : Loop), loopOf s 0 true = some l ∧ l.st = 2) ∧ (∃ (s : State) (l : Loop), loopOf s 0 true = some l ∧ l.st = 3 ∧ l.miss < orOne (rdSet s true (MLK_UNLOCK_THR_COAST_K 0))) :=
  ⟨⟨{ State.reset with mlk := [(0, { old := some { st := 2 } })] }, { st := 2 }, by decide⟩, ⟨{ State.reset with mlk := [(0, { old := some { st := 3 } })] }, { st := 3 }, by decide⟩⟩

/-- Mode `m` with slot 0 loaded and named by the shadow store, its hand-over in phase `ph`. -/
def changing (m ph : Nat) : State := put [(MODE_STATUS_MODE, m), (CHG_STATUS_PHASE, ph), (CHG_RCP_STATE_STATE 0, 3)]

theorem witness_Commits :
    (∃ s : State, hostOpen s = true ∧ mode s = 1) ∧ (∃ s : State, hostOpen s = true ∧ mode s = 8) ∧ (∃ s : State, hostOpen s = true ∧ mode s = 7) ∧ (∃ s : State, hostOpen s = true ∧ mode s = 6 ∧ rd s CHG_STATUS_PHASE ≠ 0) ∧
    (∃ (s : State) (v : BitVec 32), hostOpen s = true ∧ mode s = 2 ∧ rd s CHG_STATUS_PHASE = 0 ∧ bitsOf v.toNat 2 1 = 3) ∧
    (∃ (s : State) (v : BitVec 32), hostOpen s = true ∧ rd s CHG_STATUS_PHASE = 0 ∧ bitsOf v.toNat 2 1 ≠ 3 ∧ rd s (CHG_RCP_STATE_STATE (rdShadow s CHG_RCP_SLOT)) = 3 ∧ bitOf v.toNat 3 = false ∧ bitOf v.toNat 4 = false ∧
      commitBudget s = none ∧ mode s = 3) ∧
    (∃ (s : State) (v : BitVec 32), hostOpen s = true ∧ rd s CHG_STATUS_PHASE = 0 ∧ bitsOf v.toNat 2 1 ≠ 3 ∧ rd s (CHG_RCP_STATE_STATE (rdShadow s CHG_RCP_SLOT)) = 3 ∧ bitOf v.toNat 3 = false ∧ bitOf v.toNat 4 = false ∧
      commitBudget s = none ∧ mode s = 4 ∧
      isLate { s with chg := { s.chg with lead := rd s CHG_CONJ_LEAD_LEAD, trail := rd s CHG_CONJ_TRAIL_TRAIL } } (captured s (bitsOf v.toNat 2 1) false false) = false) :=
  ⟨⟨changing 1 0, by decide⟩, ⟨changing 8 0, by decide⟩, ⟨changing 7 0, by decide⟩, ⟨changing 6 1, by decide⟩, ⟨changing 2 0, 7, by decide⟩, ⟨changing 3 0, 1, by decide⟩, ⟨changing 4 0, 3, by decide⟩⟩

theorem witness_Withdrawals :
    (∃ s : State, hostOpen s = true ∧ rd s CHG_STATUS_PHASE = 1) ∧ (∃ s : State, hostOpen s = true ∧ 2 ≤ rd s CHG_STATUS_PHASE) ∧ (∃ s : State, hostOpen s = true ∧ rd s CHG_STATUS_PHASE = 0 ∧ rd s CHG_STATUS_RESULT = 2) :=
  ⟨⟨changing 4 1, by decide⟩, ⟨changing 4 2, by decide⟩, ⟨put [(CHG_STATUS_RESULT, 2)], by decide⟩⟩

/-- A hand-over armed on a count of marks. -/
def armedMarks (n : Nat) : Armed := { captured State.reset 1 false false with marks := n }

theorem witness_HandOvers :
    (∃ (s : State) (a : Armed), mainRuns s = true ∧ s.chg.armed = some a ∧ handoverDue s a = true) ∧ (∃ (s : State) (a : Armed), mainRuns s = true ∧ s.chg.armed = some a ∧ handoverDue s a = false) ∧
    (∃ s : State, mainRuns s = true ∧ rd s CHG_STATUS_PHASE = 2 ∧ s.chg.waiting = [] ∧ s.chg.conj = true ∧ mode s = 6) ∧ (∃ s : State, mainRuns s = true ∧ rd s CHG_STATUS_PHASE = 2 ∧ s.chg.waiting = [] ∧ s.chg.conj = false) ∧
    (∃ s : State, mainRuns s = true ∧ rd s CHG_STATUS_PHASE = 3 ∧ conjDone s = true) ∧ (∃ s : State, mainRuns s = true ∧ rd s CHG_STATUS_PHASE = 3 ∧ conjDone s = false) :=
  ⟨⟨{ changing 4 1 with chg := { armed := some (armedMarks 0) } }, armedMarks 0, by decide⟩, ⟨{ changing 4 1 with chg := { armed := some (armedMarks 1) } }, armedMarks 1, by decide⟩,
    ⟨{ changing 6 2 with chg := { conj := true } }, by decide⟩, ⟨changing 10 2, by decide⟩, ⟨changing 7 3, by decide⟩, ⟨{ changing 7 3 with frm := [(0, { conj := some { lead := true, copied := false } })] }, by decide⟩⟩

/-- A frame of stream 0 in camp 0, with `n` of its one line processed. -/
def chainFrame (n : Nat) : Frame := { id := 0, cfg := { base := 64 }, setNo := 0, slot := some 1, seq := some 0, recs := [{}], done := n }

/-- Stream 0 with that frame, its chain of one kernel in HBM. -/
def chaining (n : Nat) : State := hbmSet { put [(⟨campEn 0, 1, 2⟩, 2)] with frm := [(0, { frames := [chainFrame n] })] } 64 1

theorem witness_Chains :
    (∃ (s : State) (st : StreamIx) (f : Frame), mainRuns s = true ∧ (inCamp s st).find? (fun f => chained s f && decide (f.done < frameLines f)) = some f ∧ enabled s (campEn f.cfg.camp) = true ∧ campWaits s f.cfg.camp = false) ∧
    (∃ (s : State) (st : StreamIx) (f : Frame), mainRuns s = true ∧ (inCamp s st).find? (fun f => chained s f && decide (f.done < frameLines f)) = some f ∧ enabled s (campEn f.cfg.camp) = false) ∧
    (∃ (s : State) (st : StreamIx) (f : Frame), mainRuns s = true ∧ (inCamp s st).find? (fun f => chained s f && decide (f.done < frameLines f)) = some f ∧ campWaits s f.cfg.camp = true) ∧
    (∃ (s : State) (st : StreamIx) (f : Frame) (k : Nat), mainRuns s = true ∧ (inCamp s st).find? (chainReady s) = some f ∧ f.slot = some k) ∧
    (∃ (s : State) (st : StreamIx), mainRuns s = true ∧ min (2 ^ 24 - 1) ((pxe s st).lines * 10) ≤ rd (wr s (PXE_STR_RATE_MEAS_RATE st) (min (2 ^ 24 - 1) ((pxe s st).lines * 10))) (PXE_STR_RATE_RATE st)) ∧
    (∃ (s : State) (st : StreamIx), mainRuns s = true ∧ rd (wr s (PXE_STR_RATE_MEAS_RATE st) (min (2 ^ 24 - 1) ((pxe s st).lines * 10))) (PXE_STR_RATE_RATE st) < min (2 ^ 24 - 1) ((pxe s st).lines * 10) ∧
      (pxe s st).rateOver = true) ∧
    (∃ (s : State) (e : EngineIx), mainRuns s = true ∧ enState s (campEn (e / 16)) = 3) ∧ (∃ (s : State) (c : CampIx), mainRuns s = true ∧ enState s (campEn c) = 1) :=
  ⟨⟨chaining 0, 0, chainFrame 0, by decide⟩, ⟨put [(⟨campEn 0, 1, 2⟩, 3)] (chaining 0), 0, chainFrame 0, by decide⟩,
    ⟨{ chaining 0 with frm := [(0, { frames := [{ chainFrame 1 with complete := true }, { chainFrame 0 with id := 1, seq := some 1, slot := some 2 }] })] }, 0, { chainFrame 0 with id := 1, seq := some 1, slot := some 2 }, by decide⟩,
    ⟨chaining 1, 0, chainFrame 1, 1, by decide⟩,
    ⟨State.reset, 0, by decide⟩, ⟨{ put [(PXE_STR_RATE_RATE 0, 5)] with pxe := [(0, { lines := 1, rateOver := true })] }, 0, by decide⟩, ⟨put [(⟨campEn 15, 1, 2⟩, 3)], 255, by decide⟩, ⟨put [(⟨campEn 15, 1, 2⟩, 1)], 15, by decide⟩⟩

/-- An event item for queue 0, a data item of one page, and a queue in a state, of 2^4 entries, with entries that wait. -/
def item0 : Offer := { qid := 0, kind := 3 }
def dataItem : Offer := { qid := 0, kind := 1, len := 64 }
def queue0 (st pi : Nat) (ents : List QEnt) : Queue := { ctx := { ctxOf (fun _ => 0) with state := st, cfg := 4 + 32 * 4, pi := pi }, ents := ents }

/-- The device with queue 0, its context in the cache, its group ENABLED, delivery resumed, in mode `m`. -/
def queues (m : Nat) (q : Queue) (ev : List Offer) : State :=
  { put [(MODE_STATUS_MODE, m), (⟨grpEn 0, 1, 2⟩, 2)] open_ with dlv := { qs := [(0, some q.toQueueW)], cache := [(0, [⟨0, q.ctx, true⟩])], ev := ev, resumed := true } }

theorem witness_Admission :
    (∃ (s : State) (o : Offer) (l : List Offer), mainRuns s = true ∧ s.dlv.ev = o :: l ∧ 2 ≤ mode s ∧ mode s ≠ 11 ∧ ∃ t, t = touchCtx { s with dlv := { s.dlv with ev := l } } o.qid ∧ ∃ x, x = queueOf t o.qid ∧ queueActive t x.ctx = false) ∧
    (∃ (s : State) (o : Offer) (l : List Offer), mainRuns s = true ∧ s.dlv.ev = o :: l ∧ 2 ≤ mode s ∧ mode s ≠ 11 ∧ ∃ t, t = touchCtx { s with dlv := { s.dlv with ev := l } } o.qid ∧ ∃ x, x = queueOf t o.qid ∧ queueActive t x.ctx = true ∧ o.len = 0xFFFFFFC1) ∧
    (∃ (s : State) (o : Offer) (l : List Offer), mainRuns s = true ∧ s.dlv.ev = o :: l ∧ 2 ≤ mode s ∧ mode s ≠ 11 ∧ ∃ t, t = touchCtx { s with dlv := { s.dlv with ev := l } } o.qid ∧ ∃ x, x = queueOf t o.qid ∧ queueActive t x.ctx = true ∧ o.len = 0xFFFFFFC0 ∧ x.ctx.overwrite = false ∧ o.kind = 3 ∧ 1 + b2n x.gap.isSome + b2n x.flu.isSome ≤ freeEntries x) ∧
    (∃ (s : State) (o : Offer) (l : List Offer), mainRuns s = true ∧ s.dlv.ev = o :: l ∧ 2 ≤ mode s ∧ mode s ≠ 11 ∧ ∃ t, t = touchCtx { s with dlv := { s.dlv with ev := l } } o.qid ∧ ∃ x, x = queueOf t o.qid ∧ queueActive t x.ctx = true ∧ o.len ≤ 0xFFFFFFC0 ∧ x.ctx.overwrite = false ∧ o.kind = 3 ∧ freeEntries x < 1 + b2n x.gap.isSome + b2n x.flu.isSome) ∧
    (∃ (s : State) (o : Offer) (l : List Offer), mainRuns s = true ∧ s.dlv.ev = o :: l ∧ 2 ≤ mode s ∧ mode s ≠ 11 ∧ ∃ t, t = touchCtx { s with dlv := { s.dlv with ev := l } } o.qid ∧ ∃ x, x = queueOf t o.qid ∧ queueActive t x.ctx = true ∧ o.len ≤ 0xFFFFFFC0 ∧ x.ctx.overwrite = false ∧ o.kind ≠ 3 ∧ x.ctx.noBuf = true) ∧
    (∃ (s : State) (o : Offer) (l : List Offer) (bufs : List (Nat × Nat)), mainRuns s = true ∧ s.dlv.ev = o :: l ∧ 2 ≤ mode s ∧ mode s ≠ 11 ∧ ∃ t, t = touchCtx { s with dlv := { s.dlv with ev := l } } o.qid ∧ ∃ x, x = queueOf t o.qid ∧ queueActive t x.ctx = true ∧ o.len ≤ 0xFFFFFFC0 ∧ x.ctx.overwrite = false ∧ o.kind ≠ 3 ∧ x.ctx.noBuf = false ∧ takeBufs o.len x.descs = some bufs ∧ bufs ≠ [] ∧ bufs.length ≤ 65535 ∧ 1 + b2n x.gap.isSome + b2n x.flu.isSome ≤ freeEntries x) ∧
    (∃ (s : State) (o : Offer) (l : List Offer) (bufs : List (Nat × Nat)), mainRuns s = true ∧ s.dlv.ev = o :: l ∧ 2 ≤ mode s ∧ mode s ≠ 11 ∧ ∃ t, t = touchCtx { s with dlv := { s.dlv with ev := l } } o.qid ∧ ∃ x, x = queueOf t o.qid ∧ queueActive t x.ctx = true ∧ o.len ≤ 0xFFFFFFC0 ∧ x.ctx.overwrite = false ∧ o.kind ≠ 3 ∧ x.ctx.noBuf = false ∧ takeBufs o.len x.descs = some bufs ∧ bufs ≠ [] ∧ bufs.length ≤ 65535 ∧ freeEntries x < 1 + b2n x.gap.isSome + b2n x.flu.isSome) ∧
    (∃ (s : State) (o : Offer) (l : List Offer), mainRuns s = true ∧ s.dlv.ev = o :: l ∧ 2 ≤ mode s ∧ mode s ≠ 11 ∧ ∃ t, t = touchCtx { s with dlv := { s.dlv with ev := l } } o.qid ∧ ∃ x, x = queueOf t o.qid ∧ queueActive t x.ctx = true ∧ o.len ≤ 0xFFFFFFC0 ∧ x.ctx.overwrite = false ∧ o.kind ≠ 3 ∧ x.ctx.noBuf = false ∧ takeBufs o.len x.descs = none ∧ x.descs.length < min (2 ^ x.ctx.bqLog) 65535) ∧
    (∃ (s : State) (o : Offer) (l : List Offer), mainRuns s = true ∧ s.dlv.ev = o :: l ∧ 2 ≤ mode s ∧ mode s ≠ 11 ∧ ∃ t, t = touchCtx { s with dlv := { s.dlv with ev := l } } o.qid ∧ ∃ x, x = queueOf t o.qid ∧ queueActive t x.ctx = true ∧ o.len ≤ 0xFFFFFFC0 ∧ x.ctx.overwrite = true ∧ x.flu.isSome = true ∧ freeEntries x = 0) ∧
    (∃ (s : State) (o : Offer) (l : List Offer), mainRuns s = true ∧ s.dlv.ev = o :: l ∧ 2 ≤ mode s ∧ mode s ≠ 11 ∧ ∃ t, t = touchCtx { s with dlv := { s.dlv with ev := l } } o.qid ∧ ∃ x, x = queueOf t o.qid ∧ queueActive t x.ctx = true ∧ o.len ≤ 0xFFFFFFC0 ∧ x.ctx.overwrite = true ∧ x.flu = none ∧ o.kind = 3) ∧
    (∃ (s : State) (o : Offer) (l : List Offer), mainRuns s = true ∧ s.dlv.ev = o :: l ∧ 2 ≤ mode s ∧ mode s ≠ 11 ∧ ∃ t, t = touchCtx { s with dlv := { s.dlv with ev := l } } o.qid ∧ ∃ x, x = queueOf t o.qid ∧ queueActive t x.ctx = true ∧ o.len ≤ 0xFFFFFFC0 ∧ x.ctx.overwrite = true ∧ x.flu = none ∧ o.kind ≠ 3 ∧ x.ctx.noBuf = true) ∧
    (∃ (s : State) (o : Offer) (l : List Offer), mainRuns s = true ∧ s.dlv.ev = o :: l ∧ 2 ≤ mode s ∧ mode s ≠ 11 ∧ ∃ t, t = touchCtx { s with dlv := { s.dlv with ev := l } } o.qid ∧ ∃ x, x = queueOf t o.qid ∧ queueActive t x.ctx = true ∧ o.len ≤ 0xFFFFFFC0 ∧ x.ctx.overwrite = true ∧ x.flu = none ∧ o.kind ≠ 3 ∧ x.ctx.noBuf = false) ∧
    (∃ (s : State) (c : CampIx) (o : Offer) (l : List Offer), mainRuns s = true ∧ mget ([] : List Offer) s.dlv.camp c = o :: l ∧ 3 ≤ mode s ∧ mode s ≠ 11) :=
  ⟨⟨queues 2 (queue0 0 0 []) [item0], item0, [], by decide, rfl, by decide, by decide, _, rfl, _, rfl, by decide⟩,
    ⟨queues 2 (queue0 2 0 []) [{ item0 with len := 0xFFFFFFC1 }], _, [], by decide, rfl, by decide, by decide, _, rfl, _, rfl, by decide⟩,
    ⟨queues 2 (queue0 2 0 []) [{ item0 with len := 0xFFFFFFC0 }], _, [], by decide, rfl, by decide, by decide, _, rfl, _, rfl, by decide⟩,
    ⟨queues 2 (queue0 2 16 []) [item0], item0, [], by decide, rfl, by decide, by decide, _, rfl, _, rfl, by decide⟩,
    ⟨queues 4 { queue0 2 0 [] with ctx := { (queue0 2 0 []).ctx with cfg := 4 + 2 ^ 18 } } [dataItem], dataItem, [], by decide, rfl, by decide, by decide, _, rfl, _, rfl, by decide⟩,
    ⟨queues 4 { queue0 2 0 [] with descs := [(0x1000, 64)] } [dataItem], dataItem, [], [(0x1000, 64)], by decide, rfl, by decide, by decide, _, rfl, _, rfl, by decide⟩,
    ⟨queues 4 { queue0 2 16 [] with descs := [(0x1000, 64)] } [dataItem], dataItem, [], [(0x1000, 64)], by decide, rfl, by decide, by decide, _, rfl, _, rfl, by decide⟩,
    ⟨queues 4 (queue0 2 0 []) [dataItem], dataItem, [], by decide, rfl, by decide, by decide, _, rfl, _, rfl, by decide⟩,
    ⟨queues 4 { queue0 2 0 [] with ctx := { (queue0 2 0 []).ctx with cfg := 4 + 32 * 4 + 2 ^ 19 }, unread := 16, flu := some (1, 0, 0, false) } [item0], item0, [], by decide, rfl, by decide, by decide, _, rfl, _, rfl, by decide⟩,
    ⟨queues 4 { queue0 2 0 [] with ctx := { (queue0 2 0 []).ctx with cfg := 4 + 32 * 4 + 2 ^ 19 } } [item0], item0, [], by decide, rfl, by decide, by decide, _, rfl, _, rfl, by decide⟩,
    ⟨queues 4 { queue0 2 0 [] with ctx := { (queue0 2 0 []).ctx with cfg := 4 + 32 * 4 + 2 ^ 19 + 2 ^ 18 } } [dataItem], dataItem, [], by decide, rfl, by decide, by decide, _, rfl, _, rfl, by decide⟩,
    ⟨queues 4 { queue0 2 0 [] with ctx := { (queue0 2 0 []).ctx with cfg := 4 + 32 * 4 + 2 ^ 19 } } [dataItem], dataItem, [], by decide, rfl, by decide, by decide, _, rfl, _, rfl, by decide⟩,
    ⟨{ queues 3 (queue0 2 0 []) [] with dlv := { camp := [(15, [item0])] } }, 15, item0, [], by decide⟩⟩

theorem witness_GapsAreNumbered :
    (∃ (s : State) (q : Nat), (queueOf s q).ctx.overwrite = false ∧ (queueOf s q).flu = none ∧ (queueOf s q).gap = none) ∧
    (∃ (s : State) (q n f r : Nat), (queueOf s q).ctx.overwrite = false ∧ (queueOf s q).flu = none ∧ (queueOf s q).gap = some (n, f, r)) :=
  ⟨⟨queues 2 (queue0 2 0 []) [], 0, by decide⟩, ⟨queues 2 { queue0 2 0 [] with gap := some (1, 2, 3) } [], 0, 1, 2, 3, by decide⟩⟩

theorem witness_EntriesAreWritten :
    (∃ (s : State) (q : QidIx) (o : Offer) (num idx : Nat) (bufs : List (Nat × Nat)) (rest : List QEnt), mainRuns s = true ∧ dlvOn s = true ∧ ∃ x, x = queueOf (touchCtx s q) q ∧ x.ents = .item o num (some bufs) idx :: rest ∧
      x.ctx.overwrite = false) ∧ (∃ y : Queue, y.ctx.overwrite = false) ∧ (∃ (y : State) (q : QidIx), (queueOf y q).ctx.overwrite = false) ∧
    (∃ (s : State) (q : QidIx) (o : Offer) (num idx : Nat) (bufs : List (Nat × Nat)) (rest : List QEnt), mainRuns s = true ∧ dlvOn s = true ∧ (queueOf s q).ents = .item o num (some bufs) idx :: rest) ∧
    (∃ (s : State) (q : QidIx), mainRuns s = true ∧ dlvOn s = true ∧ cached s (qKey s q) = none) ∧ (∃ (s : State) (q : QidIx) (w : CacheWay), mainRuns s = true ∧ dlvOn s = true ∧ cached s (qKey s q) = some w) ∧
    (∃ (s : State) (q : QidIx) (n f r : Nat) (rest : List QEnt), mainRuns s = true ∧ dlvOn s = true ∧ (queueOf s q).ctx.overwrite = false ∧ (queueOf s q).ents = .gap n f r :: rest) ∧
    (∃ (s : State) (q : QidIx) (n f r : Nat), mainRuns s = true ∧ dlvOn s = true ∧ (queueOf s q).ctx.overwrite = false ∧ (queueOf s q).ents = [] ∧ (queueOf s q).gap = some (n, f, r) ∧ (queueOf s q).ctx.state = 2 ∧
      1 ≤ freeEntries (queueOf s q)) ∧
    (∃ (s : State) (q : QidIx) (n f b : Nat) (cut : Bool) (rest : List QEnt), mainRuns s = true ∧ dlvOn s = true ∧ (queueOf s q).ents = .flushed n f b cut :: rest) ∧
    (∃ (s : State) (q : QidIx) (n f b : Nat) (cut : Bool), mainRuns s = true ∧ dlvOn s = true ∧ (queueOf s q).ents = [] ∧ (queueOf s q).flu = some (n, f, b, cut) ∧ 1 ≤ freeEntries (queueOf s q)) :=
  ⟨⟨queues 4 (queue0 2 0 [.item item0 0 (some []) 0]) [], 0, item0, 0, 0, [], [], by decide, by decide, _, rfl, by decide⟩, ⟨queue0 2 0 [], rfl⟩, ⟨queues 4 (queue0 2 0 []) [], 0, by decide⟩,
    ⟨queues 4 (queue0 2 0 [.item item0 0 (some []) 0]) [], 0, item0, 0, 0, [], [], by decide⟩,
    ⟨queues 4 (queue0 2 0 []) [], 1, by decide⟩, ⟨queues 4 (queue0 2 0 []) [], 0, ⟨0, (queue0 2 0 []).ctx, true⟩, by decide⟩, ⟨queues 4 (queue0 2 0 [.gap 1 0 1]) [], 0, 1, 0, 1, [], by decide⟩,
    ⟨queues 4 { queue0 2 15 [] with gap := some (1, 2, 1) } [], 0, 1, 2, 1, by decide⟩, ⟨queues 4 (queue0 2 0 [.flushed 1 0 1 false]) [], 0, 1, 0, 1, false, [], by decide⟩,
    ⟨queues 4 { queue0 3 15 [] with flu := some (1, 2, 3, true) } [], 0, 1, 2, 3, true, by decide⟩⟩

theorem witness_EntryAtProducerIndex : ∀ p : Bool, ∃ (s : State) (q : Nat), (queueOf s q).ctx.overwrite = false ∧ (queueOf s q).ctx.armed = p :=
  fun p => ⟨queues 4 { queue0 2 0 [] with ctx := { (queue0 2 0 []).ctx with armed := p } } [], 0, by revert p; decide⟩

/-- A set of the cache with four pinned contexts beside that of queue 0, which is pinned too, and a window that pins. -/
def pinned : State :=
  let c : QCtx := { (queue0 0 0 []).ctx with cfg := 4 + 32 * 4 + 2 ^ 21 }
  { put [(DLV_QWIN_DATA 4, 2 ^ 21)] (queues 4 (queue0 0 0 []) []) with dlv := { qs := [(0, some {})], cache := [(0, [⟨0, c, true⟩, ⟨2048, c, true⟩, ⟨4096, c, true⟩, ⟨6144, c, true⟩, ⟨8192, c, true⟩])] } }

theorem witness_QueueCommands :
    (∀ st ∈ [(0 : Nat), 1, 2, 3], ∃ (s : State) (q : QidIx), hostOpen s = true ∧ ∃ t, t = touchCtx s q ∧ (queueOf t q).ctx.state = st ∧ pinFull t q = false) ∧
    (∃ (s : State) (q : QidIx), hostOpen s = true ∧ (queueOf (touchCtx s q) q).ctx.state = 0 ∧ ctxBad (queueOf (touchCtx s q) q).ctx = true) ∧
    (∃ (s : State) (q : QidIx), hostOpen s = true ∧ (queueOf (touchCtx s q) q).ctx.state = 0 ∧ ctxBad (queueOf (touchCtx s q) q).ctx = false ∧ (queueOf (touchCtx s q) q).ctx.pin = false) ∧
    (∃ (s : State) (q : QidIx), hostOpen s = true ∧ ∃ t, t = touchCtx s q ∧ (queueOf t q).ctx.state = 0 ∧ ctxBad (queueOf t q).ctx = false ∧ (queueOf t q).ctx.pin = true ∧ pinFull t q = true ∧
      (ctxOf (fun i => rd t (DLV_QWIN_DATA i))).pin = true) ∧
    (∃ (s : State) (q : QidIx) (e : CtxEcc), hostOpen s = true ∧ (ctxAccess s q e).2 = true) :=
  ⟨fun st h => ⟨queues 4 (queue0 st 0 []) [], 0, by revert h st; decide, _, rfl, by revert h st; decide⟩, ⟨queues 4 { queue0 0 0 [] with ctx := { ctxOf (fun _ => 0) with cfg := 3 } } [], 0, by decide⟩, ⟨queues 4 (queue0 0 0 []) [], 0, by decide⟩,
    ⟨pinned, 0, by decide, _, rfl, by decide⟩, ⟨queues 4 (queue0 2 0 []) [], 0, .cache 8, by decide⟩⟩

theorem fullBells : ∃ (s : State) (q : QidIx), hostOpen s = true ∧ s.dlv.bells.any (fun b => b.q == q.val) = false ∧ 4096 ≤ s.dlv.bells.length :=
  ⟨{ State.reset with dlv := { bells := List.replicate 4096 { q := 5, ci := none, bpi := none, arm := false } } }, 6, rfl, (List.any_replicate ..).trans (by decide), Nat.le_of_eq (List.length_replicate ..).symm⟩

theorem witness_Doorbells :
    (∃ (s : State) (q : QidIx), hostOpen s = true ∧ s.dlv.bells.any (fun b => b.q == q.val) = false ∧ s.dlv.bells.length < 4096) ∧
    (∃ (s : State) (q : QidIx), hostOpen s = true ∧ s.dlv.bells.any (fun b => b.q == q.val) = false ∧ 4096 ≤ s.dlv.bells.length) ∧
    (∃ (s : State) (q : QidIx) (b : Bell), hostOpen s = true ∧ s.dlv.bells = [b] ∧ b.q = q.val) ∧ (∃ s : State, mainRuns s = true ∧ s.dlv.bells = []) ∧
    (∃ (s : State) (b : Bell) (l : List Bell), mainRuns s = true ∧ s.dlv.bells = b :: l ∧ b.ecc = .none ∧ (queueOf (touchCtx { s with dlv := { s.dlv with bells := l } } b.q) b.q).ctx.state ≠ 2) ∧
    (∃ (s : State) (b : Bell) (l : List Bell), mainRuns s = true ∧ s.dlv.bells = b :: l ∧ b.ecc = .none ∧ (queueOf (touchCtx { s with dlv := { s.dlv with bells := l } } b.q) b.q).ctx.state = 2) :=
  ⟨⟨queues 4 (queue0 2 0 []) [], 1048575, by decide⟩, fullBells, ⟨{ State.reset with dlv := { bells := [{ q := 5, ci := none, bpi := none, arm := false }] } }, 5, { q := 5, ci := none, bpi := none, arm := false }, by decide⟩, ⟨State.reset, by decide⟩,
    ⟨{ State.reset with dlv := { bells := [{ q := 5, ci := none, bpi := none, arm := false }] } }, { q := 5, ci := none, bpi := none, arm := false }, [], by decide⟩,
    ⟨{ queues 4 (queue0 2 0 []) [] with dlv := { (queues 4 (queue0 2 0 []) []).dlv with bells := [{ q := 0, ci := none, bpi := none, arm := true }] } }, { q := 0, ci := none, bpi := none, arm := true }, [], by decide⟩⟩

theorem witness_GroupsAndResume :
    (∃ (s : State) (g : GroupIx) (q : Nat) (l : List Nat), hostOpen s = true ∧ mget ([] : List Nat) s.dlv.fifo g = q :: l) ∧ (∃ (s : State) (g : GroupIx), hostOpen s = true ∧ mget ([] : List Nat) s.dlv.fifo g = []) ∧
    (∀ h ∈ [none, some false, some true], ∃ (s : State) (g : GroupIx), mainRuns s = true ∧ mget none s.dlv.hold g = h) ∧
    (∃ s : State, hostOpen s = true ∧ mayIssue s = false) ∧ (∃ s : State, hostOpen s = true ∧ s.dlv.resumed = true) ∧ (∃ s : State, hostOpen s = true ∧ mayIssue s = true ∧ s.dlv.resumed = false) :=
  ⟨⟨{ State.reset with dlv := { fifo := [(255, [7])] } }, 255, 7, [], by decide⟩, ⟨State.reset, 255, by decide⟩, fun h hh => ⟨{ State.reset with dlv := { hold := [(0, h)] } }, 0, by revert hh h; decide⟩,
    ⟨State.reset, by decide⟩, ⟨{ State.reset with dlv := { resumed := true } }, by decide⟩, ⟨{ open_ with dlv := { resumed := false } }, by decide⟩⟩

/-- DMA channel 127 ENABLED with its RUN field `r`, in IDLE. -/
def channel (r : Nat) : State := put [(MODE_STATUS_MODE, 2), (⟨dmaEn 127, 1, 2⟩, 2), (DMA_CH_STATUS_RUN 127, r)] open_

theorem witness_ChannelControl :
    (∀ r < 5, hostOpen (channel r) = true ∧ dmaRuns (channel r) 127 = true ∧ rd (channel r) (DMA_CH_STATUS_RUN 127) = r ∧ dmaBlocked (channel r) = false ∧ enState (channel r) (dmaEn 127) ≠ 0 ∧
      rdB (channel r) DMA_STATUS_DRAINING = false ∧ mayIssue (channel r) = true) ∧ (∃ s : State, hostOpen s = true ∧ rdB s DMA_STATUS_DRAINING = true) ∧
    (∃ (s : State) (c : DmaIx), hostOpen s = true ∧ dmaRuns s c = true ∧ rd s (DMA_CH_STATUS_RUN c) = 0 ∧ dmaBlocked s = true) ∧ (∃ (s : State) (c : DmaIx), hostOpen s = true ∧ dmaRuns s c = false) ∧
    (∃ s : State, hostOpen s = true ∧ mayIssue s = false) :=
  ⟨by decide, ⟨put [(DMA_STATUS_DRAINING, 1)], by decide⟩, ⟨put [(MODE_STATUS_MODE, 11)] (channel 0), 127, by decide⟩, ⟨State.reset, 0, by decide⟩, ⟨State.reset, by decide⟩⟩

/-- Channel 127 with a descriptor of 64 bytes from HBM address 0 whose first byte is `f`, all its bytes moved. -/
def described (f : Byte) (dst : List Byte) : State := { channel 1 with dma := [(127, { stage := 2, desc := [f, 0, 0, 0, 64, 0, 0, 0] ++ [0, 0, 0, 0, 0, 0, 0, 0x80] ++ dst })] }

theorem witness_DescriptorsComplete :
    (∃ (s : State) (c : DmaIx), mainRuns s = true ∧ dmaMoved s c = true ∧ (dma s c).barrier = false ∧ dmaReadsHbm s c = true ∧ (dma s c).bytes ≠ 0) ∧
    (∃ (s : State) (c : DmaIx), mainRuns s = true ∧ dmaMoved s c = true ∧ (dma s c).barrier = true ∧ inHbm (dma s c).dst = false ∧ (dma s c).bytes ≠ 0) ∧
    (∃ (s : State) (c : DmaIx) (tag : Nat) (r : ReadReqS), mainRuns s = true ∧ s.hep.tags = [(tag, r)] ∧ r.who = .dmaBarrier c ∧ r.discard = false ∧ (dma s c).stage = 4) :=
  ⟨⟨described 0 [], 127, by decide⟩, ⟨described 2 [0, 0x10], 127, by decide⟩,
    ⟨{ channel 1 with dma := [(127, { stage := 4 })], hep := { tags := [(3, { id := 0, who := .dmaBarrier 127, addr := 0, len := 0 })] } }, 127, 3, { id := 0, who := .dmaBarrier 127, addr := 0, len := 0 }, by decide⟩⟩

/-- A read of 8 bytes in flight with tag 1023. -/
def reading8 : ReadReqS := { id := 0, who := .queueRing 0, addr := 0, len := 8 }

theorem witness_Completions :
    (∃ (s : State) (tag : Fin 1024) (r : ReadReqS) (d : List Byte), mainRuns s = true ∧ s.hep.tags.find? (fun p => p.1 == tag.val) = some (tag.val, r) ∧ r.len ≤ ((r.got ++ d).take r.len).length) ∧
    (∃ (s : State) (tag : Fin 1024) (r : ReadReqS) (d : List Byte), mainRuns s = true ∧ s.hep.tags.find? (fun p => p.1 == tag.val) = some (tag.val, r) ∧ ((r.got ++ d).take r.len).length < r.len) ∧
    (∀ c ∈ [CplRes.ok, .unsupported, .abort, .poisoned], ∃ x : Cpl, x.status = c) ∧
    (∃ (s : State) (tag : Fin 1024), mainRuns s = true ∧ s.hep.tags.find? (fun p => p.1 == tag.val) = none ∧ s.hep.quar.contains tag.val = false) ∧
    (∃ (s : State) (tag : Fin 1024), mainRuns s = true ∧ s.hep.tags.find? (fun p => p.1 == tag.val) = none ∧ s.hep.quar.contains tag.val = true) :=
  ⟨⟨{ State.reset with hep := { tags := [(1023, reading8)] } }, 1023, reading8, [1, 2, 3, 4, 5, 6, 7, 8], by decide⟩, ⟨{ State.reset with hep := { tags := [(1023, reading8)] } }, 1023, reading8, [1, 2, 3, 4, 5, 6, 7], by decide⟩,
    fun c _ => ⟨{ status := c, data := [] }, rfl⟩, ⟨State.reset, 1023, by decide⟩, ⟨{ State.reset with hep := { quar := [1023] } }, 1023, by decide⟩⟩

theorem witness_Resets :
    (∃ s : State, mainRuns s = true ∧ s.modeCtl.resetWait = false) ∧ (∃ s : State, s.pwr.aon = true ∧ s.pwr.main = true ∧ s.pwr.reset = true ∧ s.pwr.fail = false ∧ s.pwr.perst = false ∧ s.pwr.hold = true) ∧
    (∃ s : State, s.pwr.aon = true ∧ s.pwr.main = true ∧ s.pwr.reset = true ∧ s.pwr.fail = false ∧ s.pwr.perst = true ∧ s.pwr.hold = false) ∧ (∃ s : State, s.pwr.reset = false) :=
  ⟨⟨State.reset, by decide⟩, ⟨{ State.reset with pwr := { reset := true, hold := true } }, by decide⟩, ⟨{ State.reset with pwr := { reset := true, perst := true } }, by decide⟩, ⟨State.reset, by decide⟩⟩

theorem witness_Boots :
    (∃ s : State, mainRuns s = true ∧ 2 ≤ mode s ∧ rdB s MBX_FW_STATUS_READY = false) ∧
    (∃ (s : State) (x : BootImage), mainRuns s = true ∧ mode s = 1 ∧ bootHeld s = false ∧ rd s BOOT_SVN_MIN = x.svn.toNat) ∧
    (∃ s : State, mainRuns s = true ∧ mode s = 1 ∧ bootHeld s = true ∧ rdB s BOOT_STATUS_ROM = true) :=
  ⟨⟨put [(MODE_STATUS_MODE, 2)], by decide⟩, ⟨put [(BOOT_SVN_MIN, 3)], ⟨false, false, 0, 0, 1, 3, false, 1, [], 300, [], 0⟩, by decide⟩, ⟨put [(MODE_STATUS_TRANSITION, 0), (MODE_STATUS_REFUSE, 8), (BOOT_STATUS_ROM, 1)], by decide⟩⟩

theorem witness_ResetClearsMain : ∃ (s : State) (a b : Nat), Sound s ∧ s.mp.keyOp = none ∧ s.mp.long = [] ∧ keepMask a = 0 ∧ a ≠ 0x160010 ∧ a ≠ 0x160004 ∧ keepMask b = 2 ^ 64 - 1 :=
  ⟨State.reset, 0x43000, 0x23F00, by decide⟩

/-- Mailbox 0 in a state. -/
def mbx0 (st : Nat) : State := put [(MBX_STATUS_STATE 0, st)]

theorem witness_MailboxDoorbells :
    (∃ (s : State) (m : MbxIx), hostOpen s = true ∧ hostOwns s m = true ∧ rd s (MBX_STATUS_STATE m) ≠ 1) ∧ (∃ (s : State) (m : MbxIx), hostOpen s = true ∧ hostOwns s m = false) ∧
    (∃ (s : State) (m : MbxIx), hostOpen s = true ∧ hostOwns s m = true ∧ rd s (MBX_STATUS_STATE m) = 1 ∧ s.mp.fwd = none) ∧
    (∃ (s : State) (m : MbxIx), hostOpen s = true ∧ hostOwns s m = true ∧ rd s (MBX_STATUS_STATE m) = 1 ∧ s.mp.fwd ≠ none ∧ m.val ≠ 6) ∧
    (∃ (s : State) (m : MbxIx) (w q : Nat), hostOpen s = true ∧ hostOwns s m = true ∧ rd s (MBX_STATUS_STATE m) = 1 ∧ m.val = 6 ∧ s.mp.fwd = some (w, q)) ∧
    (∃ (s : State) (m : MbxIx), hostOpen s = true ∧ hostOwns s m = true ∧ rd s (MBX_STATUS_STATE m) = 2) ∧ (∃ (s : State) (m : MbxIx), hostOpen s = true ∧ hostOwns s m = false ∧ rd s (MBX_STATUS_STATE m) = 2) :=
  ⟨⟨mbx0 0, 0, by decide⟩, ⟨mbx0 0, 7, by decide⟩, ⟨mbx0 1, 0, by decide⟩, ⟨{ mbx0 1 with mp := { fwd := some (3, 4) } }, 0, by decide⟩,
    ⟨{ put [(MODE_STATUS_ROLE, 1), (MBX_STATUS_STATE 6, 1)] with mp := { fwd := some (3, 4) } }, 6, 3, 4, by decide⟩, ⟨mbx0 2, 0, by decide⟩, ⟨put [(MODE_STATUS_ROLE, 2), (MBX_STATUS_STATE 6, 2)], 6, by decide⟩⟩

/-- Mailbox 0 with a command whose first words are given, first in doorbell order, in front of the MP or of its ROM. -/
def taken (rom : Nat) (ws : List Word) : State :=
  { put [(MBX_FW_STATUS_READY, 1), (MBX_FW_STATUS_ROM, rom), (MODE_STATUS_MODE, 2)] with
    ram := (ws.zipIdx.map (fun p => (0x10000 + 4 * p.2, some p.1))), mp := { order := [0] } }

/-- The same with a signed NOP whose trailer names the root key, which is known, and with the mailbox's nonce. -/
def signed (lock : Option Nat) (nonce : Option (Nat × List Byte)) : State :=
  { put [(SEC_STATUS_ROOT_OK, 1)] (taken 0 ([1, 65640, 255, 0] ++ List.replicate 26 0)) with mp := { order := [0], lock := lock, nonces := [(0, nonce)] } }

theorem good_signature (s : State) (m key e : Nat) (n : List Byte) (h : mget none s.mp.nonces m = some (e, n)) (he : ¬ e < ducNow s) (hk : keyKnown s key 1 = true) :
    authDetail s m key (some (trailerSig s m key n)) = 0 := by simp [authDetail, h, he, hk]

/-- What the clauses of the statement ask in common: mailbox 0 first in line with a good header. -/
def ready (s : State) : Prop := mainRuns s = true ∧ rdB s MBX_FW_STATUS_READY = true ∧ s.mp.cur = none ∧ s.mp.order = [0] ∧ headerFault { s with mp := { s.mp with order := [] } } 0 = none

/-- The command of mailbox 0 in such a state, its AUTH bit and its class with whether it needs a signature. -/
def frontCmd (s : State) : MpCmd := cmdOf { s with mp := { s.mp with order := [] } } 0
def frontAuth (s : State) : Bool := bitOf (atBytes (cmdHeader { s with mp := { s.mp with order := [] } } 0) 6 2) 0

theorem witness_MpTakes :
    (∃ (s : State) (m o : Nat) (rest : List Nat), mainRuns s = true ∧ rdB s MBX_FW_STATUS_READY = true ∧ s.mp.cur = none ∧ s.mp.order = m :: rest ∧ headerFault { s with mp := { s.mp with order := rest } } m = some o) ∧
    (∃ s : State, ready s ∧ opInfo (frontCmd s).op = none) ∧
    (∃ s : State, ready s ∧ opInfo (frontCmd s).op = some (2, false) ∧ rdB s MBX_FW_STATUS_ROM = true ∧ romOp (frontCmd s).op = false) ∧
    (∃ s : State, ready s ∧ opInfo (frontCmd s).op = some (0, false) ∧ rdB s MBX_FW_STATUS_ROM = true ∧ romOp (frontCmd s).op = true) ∧
    (∃ s : State, mainRuns s = true ∧ rdB s MBX_FW_STATUS_READY = true ∧ s.mp.cur = none ∧ s.mp.order = [1] ∧ ∃ u, u = { s with mp := { s.mp with order := [] } } ∧ headerFault u 1 = none ∧ (1 : Nat) ≠ 6 ∧
      opInfo (cmdOf u 1).op = some (2, false) ∧ rdB s MBX_FW_STATUS_ROM = false ∧ serves 1 2 = false) ∧
    (∃ s : State, ready s ∧ serves 0 2 = true ∧ opInfo (frontCmd s).op = some (2, true) ∧ rdB s MBX_FW_STATUS_ROM = false ∧ frontAuth s = false) ∧
    (∃ s : State, ready s ∧ opInfo (frontCmd s).op = some (2, false) ∧ rdB s MBX_FW_STATUS_ROM = false ∧ frontAuth s = false ∧ modeForbids s (frontCmd s).op = true) ∧
    (∃ s : State, ready s ∧ opInfo (frontCmd s).op = some (0, false) ∧ frontAuth s = false ∧ modeForbids s (frontCmd s).op = false ∧ (frontCmd s).par.length ≠ lengthOf (frontCmd s)) ∧
    (∃ s : State, ready s ∧ opInfo (frontCmd s).op = some (0, false) ∧ frontAuth s = false ∧ (frontCmd s).op ≠ 0x0600 ∧ modeForbids s (frontCmd s).op = false ∧ (frontCmd s).par.length = lengthOf (frontCmd s)) ∧
    (∃ s : State, ready s ∧ frontAuth s = true ∧ atBytes (cmdHeader { s with mp := { s.mp with order := [] } } 0) 4 2 = 104 ∧ lockedMs { s with mp := { s.mp with order := [] } } ≠ 0) ∧
    (∃ s : State, ready s ∧ frontAuth s = true ∧ atBytes (cmdHeader { s with mp := { s.mp with order := [] } } 0) 4 2 = 104 ∧ ∃ u, u = { s with mp := { s.mp with order := [] } } ∧ lockedMs u = 0 ∧ ∀ key, authDetail u 0 key none ≠ 0) ∧
    (∃ (s : State) (sig : Option SigFact), ready s ∧ frontAuth s = true ∧ atBytes (cmdHeader { s with mp := { s.mp with order := [] } } 0) 4 2 = 104 ∧ ∃ u, u = { s with mp := { s.mp with order := [] } } ∧ lockedMs u = 0 ∧
      authDetail u 0 (atBytes (ramBytes u (cmdBuf 0) 120) 16 4) sig = 0 ∧ modeForbids s (frontCmd s).op = false ∧ (frontCmd s).par.length = lengthOf (frontCmd s)) :=
  ⟨⟨taken 0 [1, 4081, 255, 0], 0, 4, [], by decide⟩, ⟨taken 0 [0x7777, 0, 255, 0], by unfold ready; decide, by decide⟩, ⟨taken 1 [0x0300, 16, 255, 0], by unfold ready; decide, by decide⟩,
    ⟨taken 1 [1, 0, 255, 0], by unfold ready; decide, by decide⟩,
    ⟨{ put [(MBX_FW_STATUS_READY, 1), (MODE_STATUS_MODE, 2)] with ram := (List.zip [0, 4, 8, 12] [some 0x0300, some 16, some 255, some 0]).map (fun p => (cmdBuf 1 + p.1, p.2)), mp := { order := [1] } }, by decide, by decide, rfl, rfl, _, rfl, by decide⟩,
    ⟨taken 0 [0x0102, 8, 255, 0], by unfold ready; decide, by decide⟩, ⟨put [(MODE_STATUS_MODE, 11)] (taken 0 [0x0300, 16, 255, 0]), by unfold ready; decide, by decide⟩, ⟨taken 0 [0x0200, 4, 255, 0], by unfold ready; decide, by decide⟩,
    ⟨taken 0 [0x0001, 4, 255, 0], by unfold ready; decide, by decide⟩, ⟨signed (some 5000) none, by unfold ready; decide, by decide⟩, ⟨signed none none, by unfold ready; decide, by decide, by decide, _, rfl, by decide, fun _ => by show (1 : Nat) ≠ 0; decide⟩,
    ⟨signed none (some (60000000, [])), some (trailerSig { signed none (some (60000000, [])) with mp := { (signed none (some (60000000, []))).mp with order := [] } } 0 0 []), by unfold ready; decide, by decide, by decide, _, rfl, by decide,
      good_signature _ 0 0 60000000 [] rfl (by decide) (by decide), by decide⟩⟩

/-- The command of an opcode and parameters, and the MP with it in hand, in mode `md`. -/
def cmd (op : Nat) (par : List Byte) : MpCmd := { m := 0, op := op, seq := 0, quiet := false, par := par, key := 0 }
def inHand (md op : Nat) (par : List Byte) : State := { put [(MODE_STATUS_MODE, md)] with mp := { cur := some (cmd op par) } }

theorem witness_EduskQueries :
    (∀ op ∈ [0x0001, 0x0002, 0x0003, 0x0004, 0x0100, 0x0403, 0x0601, 0x0600, 0x0200], mainRuns (inHand 2 op []) = true ∧ (inHand 2 op []).mp.cur = some (cmd op []) ∧ (cmd op []).op = op ∧ (cmd op []).m = 0) ∧
    (1 ≤ (cmd 0x0502 [0, 0, 1, 0, 0, 0, 0]).num 4 4 + 1 ∧ 1 ≤ (cmd 0x0502 [0xFF, 0xFF, 0, 0, 1]).num 4 4 ∧ (cmd 0x0502 [0xFF, 0xFF, 0, 0, 1]).num 4 4 ≤ 4080 ∧
      (cmd 0x0502 [0xFF, 0xFF, 0, 0, 1]).num 0 4 + (cmd 0x0502 [0xFF, 0xFF, 0, 0, 1]).num 4 4 ≤ 65536) ∧
    ((cmd 0x0304 [63]).num 0 1 < 64 ∧ 64 ≤ (cmd 0x0304 [64]).num 0 1) ∧ ((cmd 0x0401 [1, 63]).num 0 1 ≤ 1 ∧ 1 ≤ (cmd 0x0401 [1, 63]).num 1 1 ∧ (cmd 0x0401 [1, 63]).num 1 1 ≤ 63) ∧
    ((cmd 0x0201 [1]).num 0 2 = 1 ∧ unknownAt (idsOf 1 ([1, 0, 0, 0, 0, 0, 0, 0, 0, 0].drop 8)) = some 0 ∧ unknownAt (idsOf 1 ([1, 0, 0, 0, 0, 0, 0, 0, 1, 0x41].drop 8)) = none) ∧
    ((cmd 0x0202 [1]).num 2 1 ≤ 1 ∧ (cmd 0x0202 [1]).num 0 2 ≠ 0 ∧ 8 + (((idsOf 1 [0x11, 0x41]).filterMap paramOf).flatMap (fun d => entryOut State.reset d false)).length ≤ 4080) := by decide

/-- A recipe with nothing in it. -/
def recipe0 : RecipeImage := { job := 1, ver := 1, base := 0, area := 1, regs := [], tables := [], regBase := 0, regLen := 0, params := [], blobs := [] }

/-- The MP holds a command of mailbox 0, with an opcode. -/
def holds (s : State) (c : MpCmd) (op : Nat) : Prop := mainRuns s = true ∧ s.mp.cur = some c ∧ c.m = 0 ∧ c.op = op

/-- A command in hand, in mode `md`, beside fields set and with recipe 0's image in slot 0. -/
def staged (l : List (FRef × Nat)) (op : Nat) (par : List Byte) (g : Option StageRun) : State :=
  { put l (put [(MODE_STATUS_MODE, 2)]) with mp := { cur := some (cmd op par), rcp := [(0, { image := some recipe0 })], stage := g } }

theorem witness_EduskActions :
    (∀ p ∈ [(3, 0x0101), (2, 0x0102), (4, 0x0103), (11, 0x0300), (11, 0x0301), (11, 0x0302)], holds (inHand p.1 p.2 []) (cmd p.2 []) p.2 ∧ (inHand p.1 p.2 []).mp.stage = none ∧ modeForbids (inHand p.1 p.2 []) p.2 = true) ∧
    (∀ md ∈ [2, 10], holds (inHand md 0x0101 []) (cmd 0x0101 []) 0x0101 ∧ (inHand md 0x0101 []).mp.long = [] ∧ mode (inHand md 0x0101 []) = md) ∧
    (∀ k ∈ [(1 : Byte), 2], holds (inHand 11 0x0102 [k]) (cmd 0x0102 [k]) 0x0102 ∧ mode (inHand 11 0x0102 [k]) = 11 ∧ (cmd 0x0102 [k]).num 0 1 = k.toNat) ∧
    (∀ md ∈ [2, 3], holds (inHand md 0x0103 [7]) (cmd 0x0103 [7]) 0x0103 ∧ mode (inHand md 0x0103 [7]) = md ∧ longOf (inHand md 0x0103 [7]) 0x0103 = none ∧ (cmd 0x0103 [7]).num 0 4 < 8) ∧
    (∃ c es n, holds (inHand 2 0x0203 c.par) c 0x0203 ∧ c.num 0 2 = 1 ∧ readEntries (c.num 0 2) (c.par.drop 8) = some (es, n) ∧ firstFault (inHand 2 0x0203 c.par) 0 es = none) ∧
    (∃ c es n i f, holds (inHand 2 0x0203 c.par) c 0x0203 ∧ c.num 0 2 = 1 ∧ readEntries (c.num 0 2) (c.par.drop 8) = some (es, n) ∧ firstFault (inHand 2 0x0203 c.par) 0 es = some (i, f)) ∧
    (∀ st ∈ [3, 4], ∃ (s : State) (c : MpCmd), holds s c 0x0300 ∧ mode s ≠ 11 ∧ longOf s 0x0300 = none ∧ c.num 0 1 = 0 ∧ slotState s 0 = st) ∧
    (∃ (s : State) (c : MpCmd), holds s c 0x0301 ∧ mode s ≠ 11 ∧ s.mp.stage = none ∧ c.num 0 1 = 0 ∧ slotState s 0 = 2 ∧ rd s CHG_STATUS_PHASE = 0 ∧ (rcpSlot s 0).image = some recipe0 ∧ regionClash s recipe0 = none ∧
      stageBudget (stageStore s (stageWrites 0 recipe0)) = none ∧ 0 < (stageWrites 0 recipe0).length) ∧
    (∃ (s : State) (c : MpCmd) (w : Nat), holds s c 0x0301 ∧ mode s ≠ 11 ∧ s.mp.stage = none ∧ c.num 0 1 = 0 ∧ slotState s 0 = 2 ∧ rd s CHG_STATUS_PHASE = 0 ∧ (rcpSlot s 0).image = some recipe0 ∧ regionClash s recipe0 = none ∧
      stageBudget (stageStore s (stageWrites 0 recipe0)) = some w) ∧
    (∃ (s : State) (c : MpCmd) (g : StageRun), holds s c 0x0301 ∧ s.mp.stage = some g ∧ c.num 0 1 = 0 ∧ (rcpSlot s 0).image = some recipe0) ∧
    (∀ r : Bool, ∃ g : StageRun, g.raced = r) ∧
    (∃ (s : State) (c : MpCmd), holds s c 0x0302 ∧ mode s ≠ 11 ∧ rd (chgWrite (c.num 0 4) s) CHG_STATUS_RESULT < 3) ∧
    (∀ st ∈ [0, 4], ∃ (s : State) (c : MpCmd), holds s c 0x0303 ∧ c.num 0 1 = 0 ∧ slotState s 0 = st) ∧
    (∀ op ∈ [0x0400, 0x0402, 0x0500], holds (inHand 2 op []) (cmd op []) op ∧ (inHand 2 op []).rcd.flush = none ∧ longOf (inHand 2 op []) op = none) ∧
    (∀ v ∈ [0, 1], ∃ (s : State) (c : MpCmd), holds s c 0x0501 ∧ longOf s 0x0500 = none ∧ c.num 0 1 = 1 ∧ (bankImage s 1).cause = 0 ∧ (bankImage s 1).svn = 0 ∧ rd s BOOT_SVN_MIN = v) ∧
    (∃ (s : State) (c : MpCmd), holds s c 0x0503 ∧ c.num 4 4 = 1 ∧ c.num 0 4 + c.num 4 4 = 65536) := by
  unfold holds
  exact ⟨by decide, by decide, by decide, by decide, ⟨cmd 0x0203 [1, 0, 0, 0, 0, 0, 0, 0, 0x11, 0x41, 4, 0, 0, 0, 0, 0, 0x70, 0x11, 1, 0, 0, 0, 0, 0], _, _, by decide, by decide, rfl, by decide⟩,
    ⟨cmd 0x0203 [1, 0, 0, 0, 0, 0, 0, 0, 1, 0, 4, 0, 0, 0, 0, 0, 0, 0, 0, 0, 0, 0, 0, 0], _, _, 0, 0x16, by decide, by decide, rfl, by decide⟩,
    fun st h => ⟨staged [(CHG_RCP_STATE_STATE 0, st)] 0x0300 [] none, cmd 0x0300 [], by revert h st; decide⟩,
    ⟨staged [(CHG_RCP_STATE_STATE 0, 2)] 0x0301 [] none, cmd 0x0301 [], by decide⟩, ⟨staged [(CHG_RCP_STATE_STATE 0, 2), (⟨frmEn 0, 1, 2⟩, 2)] 0x0301 [] none, cmd 0x0301 [], 12 + 2 ^ 18, by decide⟩,
    ⟨staged [] 0x0301 [] (some { slot := 0, done := 0, raced := false }), cmd 0x0301 [], { slot := 0, done := 0, raced := false }, by decide⟩, fun r => ⟨{ slot := 0, done := 0, raced := r }, rfl⟩,
    ⟨inHand 2 0x0302 [], cmd 0x0302 [], by decide⟩, fun st h => ⟨staged [(CHG_RCP_STATE_STATE 0, st)] 0x0303 [] none, cmd 0x0303 [], by revert h st; decide⟩, by decide,
    fun v h => ⟨{ put [(BOOT_SVN_MIN, v)] with mp := { cur := some (cmd 0x0501 [1]), banks := [(1, .inr { cause := 0, ver := 1, svn := 0, commit := false })] } }, cmd 0x0501 [1], by revert h v; decide⟩,
    ⟨inHand 2 0x0503 [0xFF, 0xFF, 0, 0, 1], cmd 0x0503 [0xFF, 0xFF, 0, 0, 1], by decide⟩⟩

/-- A recipe image of 256 bytes signed with key 0, and a firmware image of 512 bytes with the root key. -/
def recipeImg : List Byte := leBytes 4 0x52524C47 ++ (leBytes 2 1 ++ (leBytes 2 0x5120 ++ (leBytes 4 0 ++ (leBytes 4 256 ++ List.replicate 240 0))))
def firmwareHead : List Byte := leBytes 4 0x46524C47 ++ (leBytes 2 1 ++ (leBytes 2 0x5120 ++ (leBytes 8 0 ++ (leBytes 4 512 ++ List.replicate 44 0))))
def firmwareImg : List Byte := firmwareHead ++ (leBytes 97 Config.rootKey.toNat ++ List.replicate 351 0)

theorem firmware_key : (firmwareImg.drop 64).take 97 = leBytes 97 Config.rootKey.toNat := rfl

theorem recipe_good (s : State) (img : List Byte) (ha : (imgNum img 0 4 != 0x52524C47 || imgNum img 4 2 != 1 || imgNum img 0x0C 4 != img.length) = false) (hb : keyKnown s (imgNum img 0x10 4) 0 = true)
    (hc : (imgNum img 6 2 != 0x5120 || (imgNum img 0x18 8 != 0 && imgNum img 0x18 8 != Config.dieId.toNat) || decide ((getReg s 0x110000).toNat < imgNum img 0x14 4)) = false) :
    recipeDetail s img (some { key := keyBytes s (imgNum img 0x10 4), msg := img.take 0xA0 ++ img.drop 0x100, rs := (img.drop 0xA0).take 96 }) = 0 := by
  unfold recipeDetail; dsimp only; rw [ha, hb, hc]; simp

theorem firmware_good (s : State) (img : List Byte) (ha : (imgNum img 0 4 != 0x46524C47 || imgNum img 4 2 != 1) = false) (hb : (imgNum img 6 2 != 0x5120) = false)
    (hc : (imgNum img 0x10 4 != img.length || decide (15 * 2 ^ 20 < img.length)) = false) (hk : (img.drop 0x40).take 97 = keyBytes s 0) (hd : ¬ imgNum img 0x0C 1 < rd s BOOT_SVN_MIN) :
    firmwareDetail s img (some { key := keyBytes s 0, msg := img.take 0x100 ++ img.drop 0x200, rs := (img.drop 0x100).take 96 }) = 0 := by
  unfold firmwareDetail; rw [ha, hb, hc, hk]; simp [hd]

/-- Mailbox 0's long command, in progress. -/
def longRuns (op : Nat) (par : List Byte) : State := { State.reset with mp := { long := [{ cmd := cmd op par }] } }

theorem witness_LongCommandsEnd :
    (∀ op ∈ [0x0300, 0x0402, 0x0500], mainRuns (longRuns op []) = true ∧ (longRuns op []).mp.long.find? (fun l => l.cmd.m == 0) = some { cmd := cmd op [] }) ∧
    (imageRead (longRuns 0x0300 []) 0 0 [] = true ∧ ∃ d, recipeDetail (longRuns 0x0300 []) [] none = d + 1) ∧ (imageRead (longRuns 0x0500 []) 0 0 [] = true ∧ ∃ d, firmwareDetail (longRuns 0x0500 []) [] none = d + 1) ∧
    (∃ (s : State) (img : List Byte) (sig : Option SigFact), imageRead s 256 0 img = true ∧ recipeDetail s img sig = 0) ∧
    (∃ (s : State) (img : List Byte) (sig : Option SigFact), imageRead s 512 0 img = true ∧ firmwareDetail s img sig = 0) ∧
    (∃ s : State, mainRuns s = true ∧ rdB s MBX_FW_STATUS_READY = true) ∧ (∃ (s : State) (w q : Nat), mainRuns s = true ∧ s.mp.fwd = some (w, q)) :=
  ⟨by decide, ⟨by decide, 0, rfl⟩, ⟨by decide, 0, rfl⟩, ⟨put [(SEC_STATUS_ROOT_OK, 1)], recipeImg, _, by decide +kernel, recipe_good _ _ (by decide +kernel) (by decide +kernel) (by decide +kernel)⟩,
    ⟨State.reset, firmwareImg, _, by decide +kernel, firmware_good _ _ (by decide +kernel) (by decide +kernel) (by decide +kernel) firmware_key (by decide +kernel)⟩,
    ⟨put [(MBX_FW_STATUS_READY, 1)], by decide⟩, ⟨{ State.reset with mp := { fwd := some (3, 4) } }, 3, 4, by decide⟩⟩

theorem witness_Guylines :
    (∃ s : State, mainRuns s = true ∧ s.todo = []) ∧
    (∃ (s : State) (r : RelayIx) (t hop : Nat), mainRuns s = true ∧ mget (none : Option (Nat × Nat)) s.gyl.relay r = some (t, hop) ∧ s.now < t) ∧
    (∃ (s : State) (r : RelayIx) (t hop : Nat), mainRuns s = true ∧ mget (none : Option (Nat × Nat)) s.gyl.relay r = some (t, hop) ∧ t ≤ s.now) ∧
    (∃ (s : State) (ch : ChanIx), mainRuns s = true ∧ rd s (GYL_CH_CFG_OWNER ch) = 0 ∧ rdB s (GYL_CH_CFG_SEC ch) = true) ∧
    (∃ (s : State) (ch : ChanIx) (v : BitVec 8), mainRuns s = true ∧ rd s (GYL_CH_CFG_OWNER ch) = 0 ∧ rdB s (GYL_CH_CFG_SEC ch) = false ∧ v.toNat.testBit 1 = false ∧ v.toNat.testBit 3 = false) ∧
    (∃ (s : State) (ch : ChanIx), mainRuns s = true ∧ rd s (GYL_CH_CFG_OWNER ch) ≠ 0 ∧ rdB s (GYL_CH_STATUS_OWN_ERR ch) = false) ∧
    (∃ (s : State) (slot dir hop : Nat), mainRuns s = true ∧ s.gyl.fwd = some (slot, dir, hop) ∧ portUp s true = true ∧ dir = 2) :=
  ⟨⟨State.reset, by decide⟩, ⟨{ State.reset with gyl := { relay := [(15, some (1, 2))] } }, 15, 1, 2, by decide⟩, ⟨{ State.reset with now := 9, gyl := { relay := [(15, some (9, 2))] } }, 15, 9, 2, by decide⟩,
    ⟨put [(GYL_CH_CFG_SEC 0, 1)], 0, by decide⟩, ⟨put [(GYL_CH_CFG_SEC 0, 0)], 0, 0xF5, by decide⟩, ⟨State.reset, 192, by decide⟩,
    ⟨{ put [(MODE_STATUS_ROLE, 1), (⟨tthEn, 1, 2⟩, 2), (TTH_STATUS_DN_LOCK, 1)] with gyl := { fwd := some (3, 2, 1) } }, 3, 2, 1, by decide⟩⟩

theorem witness_MergesAndOverruns :
    (∃ (s : State) (t : Nat), (mget ({} : TaskIn) s.gyl.ins t).cycle ≠ s.now / 2 + 1 ∧ (mget ({} : TaskIn) s.gyl.ins t).full ≤ 2000 * (s.now / 2) ∧ taskBusy s t = false) ∧
    (∃ (s : State) (t : Nat), (mget ({} : TaskIn) s.gyl.ins t).cycle ≠ s.now / 2 + 1 ∧ 2000 * (s.now / 2) < (mget ({} : TaskIn) s.gyl.ins t).full) ∧
    (∃ (s : State) (t : Nat), (mget ({} : TaskIn) s.gyl.ins t).cycle ≠ s.now / 2 + 1 ∧ taskBusy s t = true) ∧
    (∃ (s : State) (t : Nat), (mget ({} : TaskIn) s.gyl.ins t).cycle = s.now / 2 + 1 ∧ (mget ({} : TaskIn) s.gyl.ins t).merged = true ∧ (mget ({} : TaskIn) s.gyl.ins t).ran = true) :=
  ⟨⟨State.reset, 80, by decide⟩, ⟨{ State.reset with gyl := { ins := [(80, { full := 1 })] } }, 80, by decide⟩, ⟨{ State.reset with gyl := { relay := [(0, some (9, 2))] } }, 80, by decide⟩,
    ⟨{ State.reset with gyl := { ins := [(80, { cycle := 1, merged := true, ran := true, full := 1 })] } }, 80, by decide⟩⟩

/-- A manager and a worker with the tether ENABLED and both ports locked. -/
def manager : State := put [(MODE_STATUS_MODE, 2), (MODE_STATUS_ROLE, 1), (⟨tthEn, 1, 2⟩, 2), (TTH_STATUS_DN_LOCK, 1)]
def worker : State := { put [(MODE_STATUS_MODE, 2), (MODE_STATUS_ROLE, 2), (MODE_STATUS_WORKER_ID, 4), (⟨tthEn, 1, 2⟩, 2), (TTH_STATUS_DN_LOCK, 1), (TTH_STATUS_UP_LOCK, 1)] with tth := { up := { block := true } } }

/-- The worker with a slot, and with the SEQ that TTH_UP expects next. -/
def slotted (j : Nat) (x : TthSlot) (next : Option Nat) : State := { worker with tth := { slots := [(j, x)], up := { block := true, expect := next } } }

/-- A delta part and an anchor part as a device makes them. -/
def deltaOn (down : Bool) (w : Nat) : DeltaPart := { down := down, present := true, b0 := (partBlocks 0xE1 w).getD 0 idleBlock, b1 := (partBlocks 0xE1 w).getD 1 idleBlock }
def anchorOn (w : Nat) : AnchorPart := { b0 := (partBlocks 0xE2 w).getD 0 idleBlock, b1 := (partBlocks 0xE2 w).getD 1 idleBlock }

/-- What a port receives as blocks that a device makes. -/
def received (down : Bool) (l : List TthBlock) : TthIn := { blocks := l, down := down }

/-- A condition that an answer meets is met by what it answers. -/
theorem any_some {α : Type} {o : Option α} {p : α → Bool} (h : o.any p = true) : ∃ a, o = some a ∧ p a = true := by cases o with | none => cases h | some a => exact ⟨a, rfl, h⟩

theorem witness_BeatsAndAnchors :
    (mainRuns manager = true ∧ tthOn manager = true ∧ isManager manager = true) ∧ (∀ j < 4, slotSent manager j = false) ∧
    (∃ (s : State) (x : AnchorPart), mainRuns s = true ∧ tthOn s = true ∧ isWorker s = true ∧ s.tth.up.block = true ∧ anchorOf x = none ∧ rdB s TTH_STATUS_UP_LOCK = true) ∧
    (∃ (s : State) (x : AnchorPart), mainRuns s = true ∧ tthOn s = true ∧ isWorker s = true ∧ s.tth.up.block = true ∧ anchorOf x = none ∧ rdB s TTH_STATUS_UP_LOCK = false) ∧
    (∃ (s : State) (x : AnchorPart), mainRuns s = true ∧ tthOn s = true ∧ isWorker s = true ∧ s.tth.up.block = true ∧ ∃ w, anchorOf x = some w ∧ (decide (w % 4 ≠ (s.tth.up.expect.getD 0 + 15) % 4)) = true) ∧
    (∃ (s : State) (j : Fin 4), mainRuns s = true ∧ tthOn s = true ∧ isWorker s = true ∧ (mget ({} : TthSlot) s.tth.slots j).stale = true) ∧
    (∀ lock : Bool, ∃ s : State, mainRuns s = true ∧ tthOn s = true ∧ s.tth.dn.block = !lock) ∧ (∀ lock : Bool, ∃ s : State, mainRuns s = true ∧ tthOn s = true ∧ isWorker s = true ∧ s.tth.up.block = !lock) :=
  ⟨by decide, by decide, ⟨worker, { b0 := idleBlock, b1 := idleBlock }, by decide⟩, ⟨put [(TTH_STATUS_UP_LOCK, 0)] worker, { b0 := idleBlock, b1 := idleBlock }, by decide⟩,
    ⟨worker, anchorOn (anchorWord 2 0 false 0 0 0), by decide, by decide, by decide, rfl, any_some (by decide +kernel)⟩, ⟨slotted 3 { stale := true } none, 3, by decide⟩,
    fun lock => ⟨{ worker with tth := { dn := { block := !lock } } }, by revert lock; decide⟩, fun lock => ⟨{ worker with tth := { up := { block := !lock } } }, by revert lock; decide⟩⟩

theorem witness_BeatLock :
    (∃ s : State, rdB s TTH_STATUS_UP_LOCK = false ∧ s.tth.up.good + 1 = 7) ∧ (∃ s : State, rdB s TTH_STATUS_UP_LOCK = false ∧ s.tth.up.good + 1 = 8) ∧
    (∃ s : State, rdB s TTH_STATUS_UP_LOCK = true ∧ s.tth.up.bad + 1 = 3) ∧ (∃ s : State, rdB s TTH_STATUS_UP_LOCK = true ∧ s.tth.up.bad + 1 = 4) :=
  ⟨⟨{ State.reset with tth := { up := { good := 6 } } }, by decide⟩, ⟨{ State.reset with tth := { up := { good := 7 } } }, by decide⟩, ⟨{ worker with tth := { up := { bad := 2 } } }, by decide⟩, ⟨{ worker with tth := { up := { bad := 3 } } }, by decide⟩⟩

theorem witness_GoodAnchor : ∃ (s : State) (x : AnchorPart) (w : Nat), mainRuns s = true ∧ tthOn s = true ∧ isWorker s = true ∧ s.tth.up.block = true ∧ rdB s TTH_STATUS_UP_LOCK = true ∧ rdB s TTH_STATUS_CHAIN_LONG = false ∧
    ∃ u, u = virtSync (beatRest s [x.b0, x.b1]) ∧ anchorOf x = some w ∧ w % 4 = (s.tth.up.expect.getD 0 + 15) % 4 ∧ (mget ({} : TthSlot) s.tth.slots (w % 4)).valid = true ∧
    (mget ({} : TthSlot) u.tth.slots (w % 4)).step = false ∧ (mget ({} : TthSlot) u.tth.slots (w % 4)).s = toSigned 64 (bitsOf w 111 48) * 256 + bitsOf w 47 40 ∧ ∀ t < 12, tetherOn u t = false :=
  ⟨slotted 3 { valid := true } (some 4), anchorOn (anchorWord 3 0 false 0 0 0), anchorWord 3 0 false 0 0 0, by decide, by decide, by decide, rfl, by decide, by decide, _, rfl, by decide +kernel⟩

theorem witness_LostBeats :
    (∃ (s : State) (x : DeltaPart), mainRuns s = true ∧ tthOn s = true ∧ x.down = false ∧ isWorker s = true ∧ s.tth.up.block = true ∧ x.present = false ∧ deltaOf x = none) ∧
    (∃ (s : State) (x : DeltaPart), mainRuns s = true ∧ tthOn s = true ∧ x.down = false ∧ isWorker s = true ∧ s.tth.up.block = true ∧ x.present = true ∧ deltaOf x = none ∧ rdB s TTH_STATUS_UP_LOCK = true ∧ s.tth.up.bad + 1 = 4) ∧
    (∃ (s : State) (x : DeltaPart), mainRuns s = true ∧ tthOn s = true ∧ x.down = true ∧ s.tth.dn.block = true ∧ ∃ w, deltaOf x = some w ∧ true = true) ∧
    (∃ (s : State) (x : DeltaPart), mainRuns s = true ∧ tthOn s = true ∧ x.down = true ∧ s.tth.dn.block = true ∧ deltaOf x = none ∧ x.present = true) :=
  ⟨⟨worker, { present := false, b0 := idleBlock, b1 := idleBlock }, by decide⟩, ⟨{ worker with tth := { up := { block := true, bad := 3 } } }, { present := true, b0 := idleBlock, b1 := idleBlock }, by decide⟩,
    ⟨{ manager with tth := { dn := { block := true } } }, deltaOn true (deltaWord 3 0 0 0 0 0 0), by decide, by decide, rfl, rfl, any_some (p := fun _ => true) (by decide +kernel)⟩,
    ⟨{ manager with tth := { dn := { block := true } } }, { down := true, present := true, b0 := idleBlock, b1 := idleBlock }, by decide⟩⟩

theorem witness_GoodBeat : ∃ (s : State) (x : DeltaPart) (w : Nat), mainRuns s = true ∧ tthOn s = true ∧ x.down = false ∧ isWorker s = true ∧ s.tth.up.block = true ∧ deltaOf x = some w ∧ bitsOf w 7 4 = 14 ∧
    ∃ u, u = virtSync (beatRest s idlePart) ∧ u.tth.up.expect = some (w % 16) ∧ rdB u TTH_STATUS_UP_LOCK = true ∧ ∃ h, h = hopTake (beatLock u false true (some (w % 16))) (bitsOf w 7 4) ∧
      rdB { h with tth := { h.tth with beatAt := 8 * h.now + x.phase.toNat } } TTH_STATUS_UP_LOCK = true :=
  ⟨slotted 0 {} (some 5), deltaOn false (deltaWord 5 14 1 0 0 0 0), deltaWord 5 14 1 0 0 0 0, by decide, by decide, rfl, by decide, rfl, by decide +kernel, by decide +kernel, _, rfl, by decide +kernel, by decide +kernel, _, rfl, by decide +kernel⟩

/-- A HEARTBEAT of a manager or of worker 4, in mode IDLE with no transition. -/
def beat (mgr : Bool) : TthBlock := heartbeatBlock 2 2 4 mgr true false false 0 0 0

theorem witness_TetherEvents :
    (mainRuns worker = true ∧ portUp worker false = true ∧ portUp worker true = true ∧ mainRuns manager = true ∧ portUp manager true = true) ∧
    (∃ x : TthIn, ∃ c, singleOf 0xE8 x.blocks = some c ∧ (!(atBytes c 1 1 % 16 == rd worker MODE_STATUS_WORKER_ID && bitOf (atBytes c 1 1) 4 == isManager worker)) = true) ∧
    (∃ x : TthIn, singleOf 0xE8 x.blocks = none) ∧ (true = isManager manager ∧ mode manager ≠ 10) ∧ (∃ x : TthIn, x.down = true ∧ singleOf 0xE9 x.blocks = none) ∧
    (∃ x : TthIn, x.down = false ∧ (∃ c, singleOf 0xE9 x.blocks = some c ∧ (heartbeatOf c).mgr = true) ∧ isWorker worker = true) ∧
    (∃ x : TthIn, x.down = true ∧ (∃ c, singleOf 0xE9 x.blocks = some c ∧ (!(heartbeatOf c).mgr) = true) ∧ isManager manager = true) ∧
    (∀ down : Bool, ∃ x : TthIn, x.down = down ∧ ∃ c, singleOf 0xE9 x.blocks = some c ∧ ((heartbeatOf c).mgr == down) = true) ∧
    (tthOn worker = true ∧ isWorker worker = true) ∧ (∃ (s : State) (w : BitVec 4), mainRuns s = true ∧ portUp s true = true ∧ tthOn s = true ∧ isManager s = true ∧ bitOf (rd s TTH_PRESENT_PRESENT) w.toNat = true) :=
  ⟨by decide, ⟨received false [guylineBlock 3 1 5 false], any_some (by decide +kernel)⟩, ⟨received false [idleBlock], by decide +kernel⟩, by decide, ⟨received true [], rfl, rfl⟩,
    ⟨received false [beat true], rfl, any_some (by decide +kernel), by decide⟩, ⟨received true [beat false], rfl, any_some (by decide +kernel), by decide⟩,
    fun down => ⟨received down [beat down], rfl, any_some (by revert down; decide +kernel)⟩, by decide, ⟨put [(TTH_PRESENT_PRESENT, 16)] manager, 4, by decide⟩⟩

/-- TIME, HANDOVER, MGMT and CAL messages as their senders make them: domain 3 valid; job 0 at position 5 with HO_ID 7; a command for worker 4; the delay 4608. -/
def timeIn (d : Nat) : TthIn := received false (multi 1 0x20 (leBytes 1 (d + 4)) (leBytes 12 5))
def handoverIn : TthIn := received false (handoverBlocks 0 false 7 5 0 0)
def mgmtIn (down mgr : Bool) (seq : Nat) : TthIn := received down (mgmtBlocks 4 mgr 0 true false seq (leBytes 16 0))
def calIn : TthIn := received false (calBlocks 4000)

theorem witness_TetherMessages :
    (∃ (s : State) (d : DomIx), mainRuns s = true ∧ portUp s true = true ∧ isManager s = true ∧ bitOf (rdC s TTH_CFG_TIME_DOM) d = true) ∧
    (∃ s : State, mainRuns s = true ∧ portUp s false = true ∧ isWorker s = true ∧ ∀ ty, multiOf ty (received false []).blocks = none) ∧
    (∃ (s : State) (x : TthIn), mainRuns s = true ∧ portUp s false = true ∧ ∃ a, multiOf 1 x.blocks = some a ∧ (relayable a.1 && (rd s (TMB_DOM_CFG_SRC (atBytes a.1 4 1 % 4)) != 3)) = true) ∧
    (∃ (s : State) (x : TthIn), mainRuns s = true ∧ portUp s false = true ∧ ∃ a, multiOf 1 x.blocks = some a ∧ (relayable a.1 && (rd s (TMB_DOM_CFG_SRC (atBytes a.1 4 1 % 4)) == 3) && bitOf (atBytes a.1 4 1) 2) = true) ∧
    (∃ (s : State) (h : HoSend), mainRuns s = true ∧ s.tth.ho = some h ∧ portUp s true = true ∧ isManager s = true) ∧
    (∀ seen ∈ [some 7, none], ∃ (s : State) (x : TthIn), mainRuns s = true ∧ portUp s false = true ∧ isWorker s = true ∧ s.tth.hoSeen = seen ∧ ∃ a, multiOf 2 x.blocks = some a ∧ (relayable a.1 && ((handoverOf a.1 a.2).id == 7)) = true) ∧
    (∃ (s : State) (x : TthIn), mainRuns s = true ∧ portUp s false = true ∧ isWorker s = true ∧ ∃ a, multiOf 3 x.blocks = some a ∧ (relayable a.1 && (fragOf a.1 a.2).destMgr) = true) ∧
    (∃ (s : State) (x : TthIn), mainRuns s = true ∧ portUp s false = true ∧ isWorker s = true ∧ ∃ a, multiOf 3 x.blocks = some a ∧
      (!(fragOf a.1 a.2).destMgr && ((fragOf a.1 a.2).dest == rd s MODE_STATUS_WORKER_ID) && !(fragOf a.1 a.2).abort && ((fragOf a.1 a.2).frag == 0) && (fragOf a.1 a.2).last) = true) ∧
    (∃ (s : State) (x : TthIn), mainRuns s = true ∧ portUp s true = true ∧ isWorker s = false ∧ ∃ a, multiOf 3 x.blocks = some a ∧
      ((fragOf a.1 a.2).destMgr && ((fragOf a.1 a.2).frag == 0) && (fragOf a.1 a.2).last && (s.mp.fwd == some (4, (fragOf a.1 a.2).seq))) = true) ∧
    (∃ (s : State) (x : TthIn), mainRuns s = true ∧ portUp s false = true ∧ isWorker s = true ∧ mode s = 2 ∧ ∃ a, multiOf 4 x.blocks = some a ∧ true = true) :=
  ⟨⟨put [(TTH_CFG_TIME_DOM, 8)] manager, 3, by decide⟩, ⟨worker, by decide, by decide, by decide, fun _ => rfl⟩, ⟨worker, timeIn 0, by decide, by decide, any_some (by decide +kernel)⟩,
    ⟨put [(TMB_DOM_CFG_SRC 3, 3)] worker, timeIn 3, by decide, by decide, any_some (by decide +kernel)⟩,
    ⟨{ manager with tth := { ho := some ⟨3, 0, false, 1, 5, 0, 0⟩ } }, ⟨3, 0, false, 1, 5, 0, 0⟩, by decide⟩,
    fun seen h => ⟨{ worker with tth := { hoSeen := seen } }, handoverIn, by revert h seen; decide, by revert h seen; decide, by revert h seen; decide, rfl, any_some (by decide +kernel)⟩,
    ⟨worker, mgmtIn false true 0, by decide, by decide, by decide, any_some (by decide +kernel)⟩, ⟨worker, mgmtIn false false 0, by decide, by decide, by decide, any_some (by decide +kernel)⟩,
    ⟨{ manager with mp := { fwd := some (4, 9) } }, mgmtIn true true 9, by decide, by decide, by decide, any_some (by decide +kernel)⟩,
    ⟨worker, calIn, by decide, by decide, by decide, by decide, any_some (p := fun _ => true) (by decide +kernel)⟩⟩

/-- The ranges of the statement at their upper ends. -/
theorem witness_TetherMessagesReadBack :
    (255 < 256 ∧ (leBytes 6 0).length = 6) ∧ (∃ h : Heartbeat, h.mode = 15 ∧ h.target = 15 ∧ h.id = 15 ∧ h.hop = 15 ∧ h.hoId = 255) ∧ (∃ flags d : Nat, flags < 4096 ∧ d < 2 ^ 21 ∧ flags = 4095 ∧ d = 2 ^ 21 - 1) ∧
    (∃ spd fine pos : Nat, spd < 2 ^ 32 ∧ fine < 2 ^ 8 ∧ pos < 2 ^ 64 ∧ spd = 2 ^ 32 - 1 ∧ fine = 255 ∧ pos = 2 ^ 64 - 1) :=
  ⟨by decide, ⟨⟨15, 15, 15, true, true, true, true, 15, 255⟩, by decide⟩, ⟨4095, 2 ^ 21 - 1, by decide⟩, ⟨2 ^ 32 - 1, 255, 2 ^ 64 - 1, by decide⟩⟩

theorem witness_LanternCounts :
    (∃ (s : State) (p : PortIx), s.pwr.aon = true ∧ rd s (TRL_PORT_CFG_MODE p) ≠ 1) ∧
    (∃ (s : State) (p : PortIx) (a b : Bool), s.pwr.aon = true ∧ rd s (TRL_PORT_CFG_MODE p) = 1 ∧ lanBroken s p = false ∧ a ≠ bitOf (mget 0 s.lan.levels p) 0 ∧ b ≠ bitOf (mget 0 s.lan.levels p) 1) ∧
    (∃ (s : State) (p : PortIx) (a b : Bool), s.pwr.aon = true ∧ rd s (TRL_PORT_CFG_MODE p) = 1 ∧ lanBroken s p = false ∧ a ≠ bitOf (mget 0 s.lan.levels p) 0 ∧ b = bitOf (mget 0 s.lan.levels p) 1 ∧
      (decodeEdge (rd s (TRL_PORT_CFG_DECODE p)) (a != bitOf (mget 0 s.lan.levels p) 0) a b).isSome = true ∧ mget none s.lan.edgeAt p = none) :=
  ⟨⟨State.reset, 0, by decide⟩, ⟨put [(TRL_PORT_CFG_MODE 0, 1)], 0, true, true, by decide⟩, ⟨put [(TRL_PORT_CFG_MODE 0, 1)], 0, true, false, by decide⟩⟩

theorem witness_LanternRules : (∃ (s : State) (i : RuleIx), hostOpen s = true ∧ rd s (LAN_RULE_STATUS_STATE i) = 0) ∧ (∃ (s : State) (i : RuleIx), hostOpen s = true ∧ rd s (LAN_RULE_STATUS_STATE i) ≠ 0) :=
  ⟨⟨State.reset, 31, by decide⟩, ⟨put [(LAN_RULE_STATUS_STATE 31, 2)], 31, by decide⟩⟩

/-- Rule 0 in a state, with an input that does not hold or one that does. -/
def ruleIn (st : Nat) (th : Nat) : State := { put [(LAN_RULE_STATUS_STATE 0, st), (LAN_RULE_TIME_T_W 0, th), (LAN_RULE_CFG_Q 0, 7), (LAN_RULE_CFG_CMP 0, 2), (LAN_RULE_THR_THR 0, 1)] with lan := { rules := [(0, { run := 5 })] } }

theorem witness_RuleStates :
    (∃ (s : State) (i : Nat), Sound s ∧ i < 32 ∧ rd s (LAN_RULE_STATUS_STATE i) = 0) ∧
    (∃ (s : State) (i : Nat), Sound s ∧ i < 32 ∧ ∃ x, x = ruleCount (rule s i) (ruleHolds s i) (rd s (LAN_RULE_TIME_T_W i)) ∧ rd s (LAN_RULE_STATUS_STATE i) ≠ 0 ∧ ruleSatisfied (setRule s i x) i x = false) ∧
    (∃ (s : State) (i : Nat), Sound s ∧ i < 32 ∧ ∃ x, x = ruleCount (rule s i) (ruleHolds s i) (rd s (LAN_RULE_TIME_T_W i)) ∧ rd s (LAN_RULE_STATUS_STATE i) = 2 ∧ ruleSatisfied (setRule s i x) i x = true) :=
  ⟨⟨State.reset, 31, by decide⟩, ⟨ruleIn 1 100, 0, by decide, by decide, _, rfl, by decide⟩, ⟨ruleIn 2 0, 0, by decide, by decide, _, rfl, by decide⟩⟩

theorem witness_LanternClocks :
    (∃ s : State, s.pwr.aon = true ∧ rdB s LAN_STATUS_XTAL_OK = true) ∧ (∃ s : State, s.pwr.aon = true ∧ rdB s LAN_STATUS_XTAL_OK = false) ∧
    (∃ s : State, s.pwr.aon = true ∧ mget none s.lan.slots ((s.lan.nextSlot + 15) % 16) = some (ducNow s / 2 ^ 20 * 2 ^ 20)) ∧
    (∃ s : State, s.pwr.aon = true ∧ mget none s.lan.slots ((s.lan.nextSlot + 15) % 16) ≠ some (ducNow s / 2 ^ 20 * 2 ^ 20)) ∧
    (∃ (s : State) (d : Nat), s.pwr.aon = false ∧ s.pwr.main = false ∧ ducResume s = some d) ∧ (∃ s : State, s.pwr.aon = true ∧ s.pwr.main = false) ∧ (∃ s : State, s.pwr.aon = true ∧ s.pwr.main = true ∧ s.pwr.reset = false) :=
  ⟨⟨put [(LAN_STATUS_XTAL_OK, 1)], by decide⟩, ⟨put [(LAN_STATUS_XTAL_OK, 0)], by decide⟩, ⟨{ State.reset with lan := { slots := [(15, some 0)] } }, by decide⟩, ⟨State.reset, by decide⟩,
    ⟨{ State.reset with pwr := { aon := false, main := false }, lan := { slots := [(15, some 7)] } }, 7, by decide⟩,
    ⟨{ State.reset with pwr := { main := false } }, by decide⟩, ⟨State.reset, by decide⟩⟩

theorem witness_Rails :
    (∃ s : State, s.pwr.main = false ∧ s.pwr.aon = true) ∧ (∃ s : State, s.pwr.main = true ∧ s.pwr.aon = true) ∧ (∃ s : State, s.pwr.fail = false ∧ mainRuns s = true) ∧ (∃ u : State, u.pwr.hold = true) :=
  ⟨⟨{ State.reset with pwr := { main := false } }, by decide⟩, ⟨{ State.reset with pwr := { reset := true } }, by decide⟩, ⟨State.reset, by decide⟩, ⟨{ State.reset with pwr := { hold := true } }, rfl⟩⟩

/-- A record, and the ring with it. -/
def rec0 : Rec := { source := 9, sev := 1, code := 7 }

theorem witness_RecordsAreTaken :
    (∃ (s : State) (p : RecPortIx), mainRuns s = true ∧ p.val ≠ 3 ∧ s.rcd.ports.any (fun q => q.1 == p.val) = false) ∧ (∃ (s : State) (p : RecPortIx), mainRuns s = true ∧ p.val ≠ 3 ∧ s.rcd.ports.any (fun q => q.1 == p.val) = true) ∧
    (∃ (s : State) (w : WaitRec) (rest : List WaitRec), mainRuns s = true ∧ s.rcd.drop = none ∧ s.rcd.latch = w :: rest ∧ w.behind = none ∧ (ringAccept s w).2 = true) ∧
    (∃ (s : State) (p : Nat) (w : WaitRec), mainRuns s = true ∧ s.rcd.drop = none ∧ s.rcd.latch = [] ∧ nextPort s = some (p, w) ∧
      (ringAccept { s with rcd := { s.rcd with ports := s.rcd.ports.filter (fun x => x.1 != p) } } { w with r := stampRec s w.r }).2 = true) ∧
    (∃ s : State, mainRuns s = true ∧ s.rcd.drop = none ∧ s.rcd.latch = [] ∧ s.rcd.ports = []) :=
  ⟨⟨State.reset, 2, by decide⟩, ⟨{ State.reset with rcd := { ports := [(2, { r := rec0, last := 0 })] } }, 2, by decide⟩, ⟨{ State.reset with rcd := { latch := [{ r := rec0, last := 0 }] } }, { r := rec0, last := 0 }, [], by decide⟩,
    ⟨{ State.reset with rcd := { ports := [(2, { r := rec0, last := 0 })] } }, 2, { r := rec0, last := 0 }, by decide⟩, ⟨State.reset, by decide⟩⟩

theorem witness_RecordsCoalesce :
    (∃ (s : State) (w : WaitRec) (x : RingRec) (pre : List RingRec), Sound s ∧ s.rcd.ring = pre ++ [x] ∧ w.r.sev < 5 ∧ recArea s ≠ 2 ∧ (∀ i < 4, rdB s (DLV_EVT_ROUTE_EN i) = false) ∧ sameRec x.r w.r = true ∧
      x.r.rep + w.r.rep ≤ 65535 ∧ x.r.rep < 65535) ∧
    (∃ (s : State) (w : WaitRec) (x : RingRec) (pre : List RingRec), Sound s ∧ s.rcd.ring = pre ++ [x] ∧ w.r.sev < 5 ∧ recArea s ≠ 2 ∧ (∀ i < 4, rdB s (DLV_EVT_ROUTE_EN i) = false) ∧ sameRec x.r w.r = false ∧ w.r.rep ≤ 65535 ∧
      s.rcd.ring.length < 4096) :=
  ⟨⟨{ State.reset with rcd := { ring := [⟨{ rec0 with rep := 65534 }, none, false⟩] } }, { r := rec0, last := 0 }, ⟨{ rec0 with rep := 65534 }, none, false⟩, [], by decide⟩,
    ⟨{ State.reset with rcd := { ring := [⟨rec0, none, false⟩] } }, { r := { rec0 with code := 8 }, last := 0 }, ⟨rec0, none, false⟩, [], by decide⟩⟩

theorem witness_Flushes :
    (∃ (s : State) (r : Rec) (l : List Rec), s.pwr.aon = true ∧ s.lan.log = r :: l) ∧ (∃ (s : State) (f : Flush) (q : Nat) (rest : List Nat), s.pwr.aon = true ∧ s.lan.log = [] ∧ s.rcd.flush = some f ∧ f.todo = q :: rest) ∧
    (∃ (s : State) (f : Flush), mainRuns s = true ∧ s.rcd.flush = some f ∧ f.todo = [] ∧ s.modeCtl.disableUnit = none ∧ s.modeCtl.resetWait = false ∧
      ∃ u, u = wr (addWrap { s with rcd := { s.rcd with flush := none, flushDone := s.rcd.flushDone + 1 } } REC_CNT_FLUSH_COUNT 1) REC_STATUS_FLUSHING 0 ∧
      ∃ v, v = wr (wr u REC_LAST_FLUSH_US (min 65535 (ducNow u - f.start))) REC_LAST_FLUSH_RECORDS (min 65535 f.written) ∧
      ∃ t, t = later (raise v srcFlushDone) (.recFlushed (s.rcd.flushDone + 1) f.written) ∧ t.modeCtl.disableUnit = none ∧ t.modeCtl.resetWait = false ∧ rdB t REC_STATUS_FLUSH_PEND = false) ∧
    (∃ s : State, hostOpen s = true ∧ s.rcd.flush.isSome = true) ∧ (∃ s : State, hostOpen s = true ∧ s.rcd.flush = none) :=
  ⟨⟨{ State.reset with lan := { log := [rec0] } }, rec0, [], by decide⟩, ⟨{ State.reset with rcd := { flush := some { todo := [0], start := 0 } } }, { todo := [0], start := 0 }, 0, [], by decide⟩,
    ⟨{ State.reset with rcd := { flush := some { todo := [], start := 0 } } }, { todo := [], start := 0 }, by decide, rfl, rfl, rfl, rfl, _, rfl, _, rfl, _, rfl, by decide⟩,
    ⟨{ State.reset with rcd := { flush := some { todo := [], start := 0 } } }, by decide⟩, ⟨State.reset, by decide⟩⟩

theorem witness_RecorderWindow :
    (∃ s : State, hostOpen s = true ∧ recArea s = 1 ∧ rdB s REC_STATUS_MARK_VALID = true) ∧ (∃ s : State, hostOpen s = true ∧ recArea s ≠ 1) ∧
    (∃ (s : State) (v : BitVec 32), hostOpen s = true ∧ recArea (wr s REC_CFG_AREA (bitsOf v.toNat 1 0)) = recArea s) ∧ (∃ (s : State) (v : BitVec 32), hostOpen s = true ∧ recArea (wr s REC_CFG_AREA (bitsOf v.toNat 1 0)) ≠ recArea s) ∧
    (∃ (s : State) (v : BitVec 32), hostOpen s = true ∧ idxDist (areaBounds s (recArea s)).1 v.toNat ≤ idxDist (areaBounds s (recArea s)).1 (areaBounds s (recArea s)).2) :=
  ⟨⟨put [(REC_CFG_AREA, 3), (REC_STATUS_MARK_VALID, 1)], by decide⟩, ⟨put [(REC_CFG_AREA, 0)], by decide⟩, ⟨put [(REC_CFG_AREA, 1)], 3, by decide⟩, ⟨put [(REC_CFG_AREA, 1)], 2, by decide⟩,
    ⟨{ put [(REC_CFG_AREA, 0), (REC_FIRST_USED_USED, 1)] with rcd := { first := [rec0] } }, 0, by decide⟩⟩

theorem witness_Interrupts :
    (∃ (s : State) (g : Fin 48) (v : BitVec 32), hostOpen s = true ∧ ∀ b < 32, bitOf v.toNat b = false ∨ bitOf (rd (wr s (INT_ENABLE_ENABLE g) v.toNat) (INT_STATUS_STATUS g)) b = false) ∧
    (∃ (s : State) (src : BitVec 11), hostOpen s = true ∧ srcAssigned src.toNat = true ∧ rdB s (statusField src.toNat) = false ∧
      bitOf (rd (wr s (statusField src.toNat) 1) (INT_ENABLE_ENABLE (src.toNat / 32))) (src.toNat % 32) = true) ∧
    (∃ (s : State) (src : BitVec 11), hostOpen s = true ∧ srcAssigned src.toNat = true ∧ rdB s (statusField src.toNat) = false ∧
      bitOf (rd (wr s (statusField src.toNat) 1) (INT_ENABLE_ENABLE (src.toNat / 32))) (src.toNat % 32) = false) ∧
    (∃ (s : State) (src : BitVec 11), hostOpen s = true ∧ srcAssigned src.toNat = false) :=
  ⟨⟨put [(INT_STATUS_STATUS 47, 5)], 47, 0xFFFFFFFA, by decide⟩, ⟨put [(INT_ENABLE_ENABLE 0, 1)], 0, by decide⟩, ⟨State.reset, 0, by decide⟩, ⟨State.reset, 2047, by decide⟩⟩

theorem witness_FaultWindows :
    (∃ (s : State) (w : WindowIx) (n : BitVec 16), mainRuns s = true ∧ s.pwr.aon = true ∧ n ≠ 0 ∧ (w.val < 85 ∨ 120 ≤ w.val) ∧ enabled (addSat s (INT_FW_TOTAL_TOTAL w) n.toNat) (0x23000 + 0x20 * w) = false) ∧
    (∃ (s : State) (w : WindowIx) (n : BitVec 16), mainRuns s = true ∧ s.pwr.aon = true ∧ n ≠ 0 ∧ (w.val < 85 ∨ 120 ≤ w.val) ∧ ∃ u, u = addSat s (INT_FW_TOTAL_TOTAL w) n.toNat ∧ enabled u (0x23000 + 0x20 * w) = true ∧
      rd u (INT_FW_STATUS_STATE w) ≠ 2 ∧ windowCount (mget {} u.fw w) + n.toNat < windowK u w) ∧
    (∃ (s : State) (w : WindowIx), mainRuns s = true ∧ s.pwr.aon = true ∧ w.val < 85 ∧ ∃ u, u = addSat s (INT_FW_TOTAL_TOTAL w) 1 ∧ enabled u (0x23000 + 0x20 * w) = true ∧
      rd u (INT_FW_STATUS_STATE w) ≠ 2 ∧ windowCount (mget {} u.fw w) + 1 = windowK u w) ∧
    (∃ (s : State) (w : WindowIx), mainRuns s = true ∧ s.pwr.aon = true ∧ enabled s (0x23000 + 0x20 * w) = true ∧ windowCount { subs := 0 :: (mget ({} : Window) s.fw w).subs.take 15 } = 0) ∧
    (∃ (s : State) (w : WindowIx), mainRuns s = true ∧ s.pwr.aon = true ∧ enabled s (0x23000 + 0x20 * w) = true ∧ windowCount { subs := 0 :: (mget ({} : Window) s.fw w).subs.take 15 } ≠ 0) ∧
    (∃ (s : State) (w : WindowIx) (v : BitVec 32), mainRuns s = true ∧ s.modeCtl.resetWait = false ∧ actionAllowed w (bitsOf v.toNat 19 17) = true) ∧ (∃ (w : WindowIx) (v : BitVec 32), actionAllowed w (bitsOf v.toNat 19 17) = false) :=
  ⟨⟨State.reset, 127, 1, by decide⟩, ⟨State.reset, 0, 1, by decide, by decide, by decide, by decide, _, rfl, by decide⟩, ⟨put [(INT_FW_K_K 84, 1)], 84, by decide, by decide, by decide, _, rfl, by decide⟩, ⟨State.reset, 0, by decide⟩,
    ⟨{ State.reset with fw := [(0, { subs := [5] })] }, 0, by decide⟩, ⟨State.reset, 0, 0, by decide⟩, ⟨127, 0xFFFFFFFF, by decide⟩⟩

theorem witness_ScrubHeatAndLink :
    (∃ addr : BitVec 35, addr.toNat + 64 < hbmSize) ∧ (∃ addr : BitVec 35, hbmSize ≤ addr.toNat + 64) ∧
    (∃ (s : State) (mC : Int), mainRuns s = true ∧ firmwareUp s = true ∧
      ∃ u, u = setParam s 0x4110 (ofSigned 32 mC) ∧ ∃ warn : Int, warn = (match paramOf 0x4111 with | some d => toSigned 32 (paramVal u d false) | none => 100000) ∧ warn ≤ mC ∧ u.mp.warned = false) ∧
    (∃ (s : State) (mC : Int), ∃ u, u = setParam s 0x4110 (ofSigned 32 mC) ∧ ∃ warn : Int, warn = (match paramOf 0x4111 with | some d => toSigned 32 (paramVal u d false) | none => 100000) ∧ warn - 3000 < mC ∧ mC < warn) ∧
    (∃ s : State, s.pwr.main = true) :=
  ⟨⟨0, by decide⟩, ⟨BitVec.ofNat 35 (hbmSize - 64), by decide⟩, ⟨put [(MBX_FW_STATUS_READY, 1)], 100000, by decide, by decide, _, rfl, _, rfl, by decide⟩, ⟨State.reset, 99999, _, rfl, _, rfl, by decide⟩, ⟨State.reset, by decide⟩⟩

/-- Firmware runs, with the hours counted and the refresh at a unit. -/
def running (h run prog : Nat) : State := put [(MBX_FW_STATUS_READY, 1), (BOOT_HOURS_HOURS, h), (BOOT_REFRESH_RUNNING, run), (BOOT_REFRESH_PROGRESS, prog)]

theorem witness_AgeingAndRefresh :
    (∃ s : State, mainRuns s = true ∧ firmwareUp s = true ∧ rd (addWrap s BOOT_HOURS_HOURS 1) BOOT_HOURS_HOURS % 43830 ≠ 0) ∧ (∃ s : State, mainRuns s = true ∧ firmwareUp s = true ∧ rd (addWrap s BOOT_HOURS_HOURS 1) BOOT_HOURS_HOURS % 43830 = 0) ∧
    (∃ s : State, mainRuns s = true ∧ firmwareUp s = true ∧ rdB s BOOT_REFRESH_RUNNING = true ∧ s.rcd.flush = none ∧ rd s BOOT_REFRESH_PROGRESS < 65535) ∧
    (∃ s : State, mainRuns s = true ∧ firmwareUp s = true ∧ rdB s BOOT_REFRESH_RUNNING = true ∧ s.rcd.flush = none ∧ 65535 ≤ rd s BOOT_REFRESH_PROGRESS) ∧
    (∃ s : State, mainRuns s = true ∧ firmwareUp s = true ∧ s.rcd.flush.isSome = true) :=
  ⟨⟨running 5 0 0, by decide⟩, ⟨running 43829 0 0, by decide⟩, ⟨running 0 1 65534, by decide⟩, ⟨running 0 1 65535, by decide⟩, ⟨{ running 0 1 0 with rcd := { flush := some { todo := [], start := 0 } } }, by decide⟩⟩

theorem witness_DeratingNeverReverses : (∃ (s : State) (i : Nat) (d : Int), Sound s ∧ i < 55 ∧ -32768 ≤ d ∧ d < 32768 ∧ isPix i = false) ∧ (∃ (s : State) (i : Nat) (d : Int), Sound s ∧ i < 55 ∧ -32768 ≤ d ∧ d < 32768 ∧ isPix i = true) :=
  ⟨⟨State.reset, 54, 32767, by decide⟩, ⟨State.reset, 34, -32768, by decide⟩⟩

/-- A key operation whose result is `res`, in progress. -/
def keyRuns (res : Nat) : State := { State.reset with mp := { keyOp := some (0, 0, 3, res, []) } }

theorem witness_KeyOperations :
    (∃ s : State, hostOpen s = true ∧ rdB s SEC_KEY_RESULT_BUSY = false) ∧ (∃ s : State, hostOpen s = true ∧ rdB s SEC_KEY_RESULT_BUSY = true) ∧
    (∀ res < 5, mainRuns (keyRuns res) = true ∧ (keyRuns res).mp.keyOp.map (fun k => k.2.2.2.1) = some res) :=
  ⟨⟨State.reset, by decide⟩, ⟨put [(SEC_KEY_RESULT_BUSY, 1)], by decide⟩, by decide⟩

theorem witness_InterruptTest : hostOpen State.reset = true ∧ srcAssigned (0 : BitVec 11).toNat = true ∧ Sound State.reset := by decide

theorem witness_LoopedEvents : mainRuns State.reset = true ∧ State.reset.todo = [] := by decide

theorem witness_StepKeepsSound : ∃ s t : State, Sound s ∧ step s = .next t ∧ s.pending ≠ [] := ⟨{ put [(MODE_STATUS_MODE, 2)] with pending := [.rcTrim] }, _, by decide, rfl, by decide⟩

theorem witness_FirstAreaWrittenOnce : ∃ s t : State, step s = .next t ∧ s.pending ≠ [] := ⟨{ State.reset with pending := [.mramRecordWrite 0 .none], lan := { log := [rec0] } }, _, rfl, by decide⟩

/-! WellFormed: for each check, a term that it refuses. -/

theorem test_ill_offset : (Instr.reg64LowRead 0x40004).ill = some .offset ∧ (Instr.reg64HighWrite 0x40001 0).ill = some .offset := by decide
theorem test_ill_payload : (Instr.memoryWriteRequest { space := .bar0, off := 0, data := [], poisoned := false }).ill = some .payload := by decide
theorem test_ill_cfgOffset : (Instr.configRequest { type1 := false, write := false, off := 2, be := 15, data := 0 }).ill = some .cfgOffset := by decide
theorem test_ill_skews : (Instr.laneDeskewDone 0 [1, 2, 3]).ill = some .skews := by decide
theorem test_ill_answer (n : Nat) (h : 256 < n) : (Instr.camCtlAnswer 0 0 ⟨true, false, List.replicate n 0⟩).ill = some .answer :=
  if_pos (by rw [List.length_replicate]; exact h)
theorem test_ill_frame : (Instr.ethFrameReceive 0 ⟨true, 0, 0, .arp 0, [1]⟩).ill = some .frame := by decide
theorem test_ill_bell : (Instr.queueDoorbell { q := 0 } none none).ill = some .bell := by decide
theorem test_ill_completion (n : Nat) (h : 4096 < n) : (Instr.completionReceive 0 { status := .ok, data := List.replicate n 0 }).ill = some .completion :=
  if_pos (by rw [List.length_replicate]; exact h)
theorem test_ill_message (n : Nat) (h : 33 < n) : (Instr.mgmtFragmentReceive { blocks := List.replicate n ⟨true, 0⟩ }).ill = some .message ∧ (Instr.heartbeatReceive { blocks := [] }).ill = some .message :=
  ⟨if_neg (by simp only [TthIn.sizeOk, List.length_replicate, Bool.and_eq_true, decide_eq_true_eq]; omega), by decide⟩
theorem test_ill_record : (Instr.recordOffer 0 ⟨0, 7, 0, []⟩).ill = some .record := by decide
theorem test_ill_window : (Instr.recWindowRead 1023 2).ill = some .window := by decide
theorem test_ill_monitors : (Instr.ageingMeasure []).ill = some .monitors := by decide
theorem test_ill_hbmAddress : (Instr.patrolScrub 0x600000000 .none).ill = some .hbmAddress := by decide
theorem test_ill_optionRom (n : Nat) (h : 0x80000 < n) : (Instr.bootComplete ⟨false, false, 0, 0, 1, 0, false, 1, [], 300, List.replicate n 0, 0⟩).ill = some .optionRom :=
  if_pos (by rw [List.length_replicate]; exact h)
theorem test_ill_ptpType : (Instr.ptpEventTransmit 0 4 0).ill = some .ptpType := by decide
theorem test_ill_recipeArea : (Instr.longCommandComplete 0 (.recipe [] none { recipe0 with area := 0x600001 })).ill = some .recipeArea := by decide
theorem test_wellFormed : (Instr.recWindowRead 1023 1).wellFormed = true := by decide

/-! Decoding: no row of the table has bits. -/

theorem test_decode : decodeTableWord 32 0x12345678 = none ∧ (State.reset.withFetchWord 32 7).pending = [] := by decide

/-! One step each, with the result the spec states. -/

/-- The state after one command. -/
def after (c : Instr) (s : State) : State := match step { s with pending := [c] } with | .next t => t | _ => s

/-- Table 2-7: MODE_STATUS after reset is BOOT on its way to IDLE. -/
theorem test_reset_mode : rd State.reset MODE_STATUS_MODE = 1 ∧ rd State.reset MODE_STATUS_TARGET = 2 ∧ rd State.reset MODE_STATUS_PREV = 15 ∧ rd State.reset MODE_STATUS_TRANSITION = 1 := by decide

/-- Table 2-3: a request for SERVICE is refused with AUTH, and one in HOLD without the cause cleared with CAUSE_PENDING. -/
theorem test_service_refused : rd (after (.modeRequest 11) (put [(MODE_STATUS_MODE, 2), (MODE_STATUS_TRANSITION, 0)])) MODE_STATUS_REFUSE = 7 := by decide
theorem test_hold_sticky : rd (after (.modeRequest 2) (put [(MODE_STATUS_MODE, 10), (MODE_STATUS_TRANSITION, 0), (MODE_CAUSE_STICKY, 1)])) MODE_STATUS_REFUSE = 6 := by decide

/-- R9: the low read latches the high word, and sends the low one. -/
theorem test_low_read : (after (.reg64LowRead 0x40010) State.reset).out.length = 1 ∧ mget none (after (.reg64LowRead 0x40010) State.reset).latch 0x40010 = some 0x80000000 := by decide

/-- R10: a high-word write pairs with the held low word. -/
theorem test_high_write : getReg (after (.reg64HighWrite 0x40018 5) { State.reset with held := [(0x40018, 0x123)] }) 0x40018 = 0x500000100 := by decide

/-- R68: the first positive edge puts the trail at the boundary between counts 0 and 1, POS = 256: B leads A, which is positive (R61). -/
theorem test_first_edge : posNow (after (.encoderEdge 0 false true) incr) 0 = 256 := by decide

/-- R72: a preset keeps whole counts: SUB = 0. -/
theorem test_preset : posNow (after (.trailPreset 0 0) { incr with held := [(0x40020, 0x2FF)] }) 0 = 0x200 := by decide

/-- R430: an event of hop count 7 only counts as a loop. -/
theorem test_loop : rd (after (.guylineEvent 9 7) State.reset) GYL_CNT_LOOP_COUNT = 1 ∧ rdB (after (.guylineEvent 9 7) State.reset) (GYL_CH_STATUS_LOOP 9) = true := by decide

/-- R390: a doorbell of a mailbox that the host does not own sets DB_ERR. -/
theorem test_not_owner : rd (after (.mbxGo 7) State.reset) (MBX_STATUS_DB_ERR 7) = 1 := by decide

/-- R520: INT_TEST of source 33 sets bit 1 of group 1. -/
theorem test_int_test : rd (after (.intTest 33) State.reset) (INT_STATUS_STATUS 1) = 2 := by decide

/-- R362: a byte written through BAR2 reads back; a byte at 24 GB is discarded. -/
theorem test_bar2 : hbmByte (after (.memoryWriteRequest { space := .bar2, off := 5, data := [some 7], poisoned := false }) open_) 5 = 7 ∧ hbmByte (hbmSet open_ hbmSize 7) hbmSize = 0 := by decide

/-- R521: an increment of an enabled window counts, and at K it escalates (Table 19-4: window 0 has K = 4). -/
theorem test_window : rd (after (.faultWindowIncrement 80 255) State.reset) (INT_FW_STATUS_STATE 80) = 1 ∧ rd (after (.faultWindowIncrement 80 256) State.reset) (INT_FW_STATUS_STATE 80) = 2 := by decide

/-- R336: HEAD is not taken while the channel is ACTIVE. -/
theorem test_head : rd (after (.dmaHeadWrite 127 0x1000) (channel 0)) (DMA_CH_HEAD_HEAD 127) = 0x40 ∧ rd (after (.dmaHeadWrite 127 0x1000) (channel 1)) (DMA_CH_HEAD_HEAD 127) = 0 := by decide

/-- R473: an edge of Lantern's moves the shadow by one, A leading B backwards. -/
theorem test_shadow : rdI (after (.lanternEdge 0 true false) incr) (LAN_SHADOW_SHADOW 0) = -1 := by decide

/-- R15: with nothing waiting, one nanosecond passes. -/
theorem test_tick : ∃ t, step State.reset = .next t ∧ t.now = 1 := ⟨_, rfl, rfl⟩


theorem witness_FinishWithoutWork : State.reset.todo = [] := rfl

theorem witness_PxeCounterClear : ∃ (s : State) (st : StreamIx), Sound s ∧ hostOpen s = true ∧ s.todo = [] ∧ st.val = 15 := ⟨State.reset, 15, by decide⟩

theorem witness_TriggerTable : ∃ s : State, hostOpen s = true ∧ rd s STK_TW_ADDR_ADDR = 131071 := ⟨put [(STK_TW_ADDR_ADDR, 131071)], by decide⟩

theorem witness_Responses : (∃ c : MpCmd, c.quiet = true) ∧ (∃ c : MpCmd, c.quiet = false ∧ c.m < 6 ∧ c.m = 5) :=
  ⟨⟨⟨0, 0, 0, true, [], 0⟩, rfl⟩, ⟨⟨5, 0, 0, false, [], 0⟩, by decide⟩⟩

theorem witness_QueueCommandResults :
    (∃ (s : State) (q : QidIx), hostOpen s = true ∧ Sound s ∧ (queueOf s q).ctx.state = 0 ∧ ctxBad (queueOf s q).ctx = false ∧ (queueOf s q).ctx.pin = false ∧
      ∃ w, w = ctxOf (fun i => rd s (DLV_QWIN_DATA i)) ∧ w.pin = false ∧ w.state = 0 ∧ w.ellPend = false ∧ w.fluPend = false) ∧
    (∃ (s : State) (q : QidIx), hostOpen s = true ∧ Sound s ∧ (queueOf s q).ctx.state = 0 ∧ ctxBad (queueOf s q).ctx = true) ∧
    (∃ (s : State) (q : QidIx), hostOpen s = true ∧ Sound s ∧ (queueOf s q).ctx.state = 2) ∧ (∃ (s : State) (q : QidIx), hostOpen s = true ∧ Sound s ∧ (queueOf s q).ctx.state = 3) ∧ (0 < (ctxWords (queue0 0 0 []).ctx).length) :=
  ⟨⟨queues 4 (queue0 0 0 []) [], 0, by decide, by decide, by decide, by decide, by decide, _, rfl, by decide⟩, ⟨queues 4 { queue0 0 0 [] with ctx := { ctxOf (fun _ => 0) with cfg := 3 } } [], 0, by decide⟩,
    ⟨queues 4 (queue0 2 0 [.gap 1 0 1]) [], 0, by decide⟩, ⟨queues 4 (queue0 3 0 []) [], 0, by decide⟩, by decide⟩

theorem witness_ContextCacheIsTransparent : Sound State.reset ∧ (∀ i : Nat, (fun _ : Nat => 2 ^ 32 - 1) i < 2 ^ 32) := ⟨by decide, fun _ => Nat.sub_lt (Nat.two_pow_pos 32) Nat.one_pos⟩

/-- Queue 0 with NOTIFY and its ring half full, with a doorbell that waits. -/
def rung (b : Bell) : State :=
  let s := queues 4 { queue0 2 8 [] with ctx := { (queue0 2 8 []).ctx with cfg := 4 + 2 ^ 20 } } []
  { s with dlv := { s.dlv with bells := [b] } }

/-- A doorbell for queue 0. -/
def bell (ci bpi : Option Nat) (arm : Bool) : Bell := { q := 0, ci := ci, bpi := bpi, arm := arm }

theorem witness_DoorbellResults :
    (∃ (s : State) (q : QidIx) (b : Bell) (rest : List Bell), Sound s ∧ hostOpen s = true ∧ s.dlv.bells = b :: rest ∧ b.q = q.val ∧ rest.any (fun y => y.q == q.val) = false) ∧
    (∃ (s : State) (q : QidIx), hostOpen s = true ∧ s.dlv.bells.any (fun y => y.q == q.val) = false ∧ 4096 ≤ s.dlv.bells.length) ∧
    (∀ b ∈ [bell (some 0) none false, bell (some 9) none false, bell none (some 1) false, bell none none true], Sound (rung b) ∧ mainRuns (rung b) = true ∧ (rung b).dlv.bells = [b] ∧ b.q < 2 ^ 20 ∧ b.ecc = .none ∧ (queueOf (rung b) 0).ctx.state = 2) ∧
    (∃ c, c = (queueOf (rung (bell none none false)) 0).ctx ∧ (c.pi + 2 ^ 24 - 0) % 2 ^ 24 ≤ c.ring ∧ c.ring < (c.pi + 2 ^ 24 - 9) % 2 ^ 24 ∧ c.group < 256 ∧ (1 + 2 ^ 24 - c.bci) % 2 ^ 24 ≤ 2 ^ c.bqLog) ∧
    (∃ (s : State) (b : Bell), Sound s ∧ mainRuns s = true ∧ s.dlv.bells = [b] ∧ b.arm = true ∧ (queueOf s b.q).ctx.state = 2 ∧ (queueOf s b.q).ctx.notify = true ∧ (queueOf s b.q).used ≠ 0 ∧
      (mget ([] : List Nat) s.dlv.fifo (queueOf s b.q).ctx.group).length < 64) ∧
    (∃ (s : State) (b : Bell), Sound s ∧ mainRuns s = true ∧ s.dlv.bells = [b] ∧ b.arm = true ∧ b.ci = none ∧ b.bpi = none ∧ (queueOf s b.q).ctx.state = 2 ∧ (queueOf s b.q).ctx.notify = true ∧ (queueOf s b.q).used = 0) :=
  ⟨⟨rung (bell (some 1) none false), 0, bell (some 1) none false, [], by decide⟩, ⟨fullBells.choose, fullBells.choose_spec.choose, fullBells.choose_spec.choose_spec⟩,
    by decide, ⟨_, rfl, by decide⟩, ⟨rung (bell none none true), bell none none true, by decide⟩,
    ⟨let s := queues 4 { queue0 2 0 [] with ctx := { (queue0 2 0 []).ctx with cfg := 4 + 2 ^ 20 } } []
     { s with dlv := { s.dlv with bells := [bell none none true] } }, bell none none true, by decide⟩⟩

theorem witness_ItemResults :
    (∀ n ∈ [15, 16], ∃ (s : State) (o : Offer) (l : List Offer), mainRuns s = true ∧ Sound s ∧ mode s = 3 ∧ o.len ≤ 0xFFFFFFC0 ∧ o.qid < 2 ^ 20 ∧ queueActive s (queueOf s o.qid).ctx = true ∧ (queueOf s o.qid).ctx.overwrite = false ∧
      (queueOf s o.qid).gap = none ∧ (queueOf s o.qid).flu = none ∧ (queueOf s o.qid).ents.all QEnt.isItem = true ∧ s.dlv.ev = o :: l ∧ o.kind = 3 ∧ freeEntries (queueOf s o.qid) + n = 16) ∧
    (∃ (s : State) (k : CampIx) (o : Offer) (l : List Offer) (bufs : List (Nat × Nat)), mainRuns s = true ∧ Sound s ∧ mode s = 4 ∧ o.len ≤ 0xFFFFFFC0 ∧ o.qid < 2 ^ 20 ∧ queueActive s (queueOf s o.qid).ctx = true ∧
      (queueOf s o.qid).ctx.overwrite = false ∧ (queueOf s o.qid).gap = none ∧ (queueOf s o.qid).flu = none ∧ (queueOf s o.qid).ents.all QEnt.isItem = true ∧ mget ([] : List Offer) s.dlv.camp k = o :: l ∧ o.kind ≠ 3 ∧
      (queueOf s o.qid).ctx.noBuf = false ∧ takeBufs o.len (queueOf s o.qid).descs = some bufs ∧ bufs ≠ [] ∧ bufs.length ≤ 65535 ∧ 1 ≤ freeEntries (queueOf s o.qid)) ∧
    (∃ (s : State) (k : CampIx) (o : Offer) (l : List Offer), mainRuns s = true ∧ Sound s ∧ mode s = 4 ∧ o.len ≤ 0xFFFFFFC0 ∧ o.qid < 2 ^ 20 ∧ queueActive s (queueOf s o.qid).ctx = true ∧
      (queueOf s o.qid).ctx.overwrite = false ∧ (queueOf s o.qid).gap = none ∧ (queueOf s o.qid).flu = none ∧ (queueOf s o.qid).ents.all QEnt.isItem = true ∧ mget ([] : List Offer) s.dlv.camp k = o :: l ∧ o.kind ≠ 3 ∧
      (queueOf s o.qid).ctx.noBuf = false ∧ takeBufs o.len (queueOf s o.qid).descs = none ∧ (queueOf s o.qid).descs.length < 2 ^ (queueOf s o.qid).ctx.bqLog ∧ 1 ≤ freeEntries (queueOf s o.qid)) :=
  ⟨fun n h => ⟨queues 3 (queue0 2 n []) [item0], item0, [], by revert h n; decide⟩,
    ⟨let s := queues 4 { queue0 2 0 [] with descs := [(0x1000, 64)] } []
     { s with dlv := { s.dlv with camp := [(15, [dataItem])] } }, 15, dataItem, [], [(0x1000, 64)], by decide⟩,
    ⟨let s := queues 4 (queue0 2 0 []) []
     { s with dlv := { s.dlv with camp := [(15, [dataItem])] } }, 15, dataItem, [], by decide⟩⟩

/-- Channel 127 at the last descriptor of its chain, its bytes moved. -/
def lastOne (stage : Nat) : State := { channel 1 with dma := [(127, { stage := stage, desc := [1, 0, 0, 0, 64, 0, 0, 0] ++ [0, 0, 0, 0, 0, 0, 0, 0x80] })] }

theorem witness_ChannelResults :
    (∃ (s : State) (c : DmaIx), Sound s ∧ dmaRuns s c = true ∧ hostOpen s = true ∧ rd s (DMA_CH_STATUS_RUN c) = 0 ∧ dmaBlocked s = false ∧ rd s (DMA_CH_CPL_BASE_BASE c) = 0 ∧ rd s (DMA_CH_HEAD_HEAD c) < 2 ^ 57) ∧
    (∃ (s : State) (c : DmaIx), Sound s ∧ dmaRuns s c = true ∧ mainRuns s = true ∧ (dma s c).fullStop = true ∧ (dma s c).irq = false ∧ rdB s (DMA_CH_STATUS_DB_PEND c) = false ∧ rd s (DMA_CH_CPL_BASE_BASE c) = 0 ∧
      dmaMoved s c = true ∧ (dma s c).barrier = false) ∧
    (∃ (s : State) (c : DmaIx) (tag : Nat) (r : ReadReqS), Sound s ∧ dmaRuns s c = true ∧ mainRuns s = true ∧ (dma s c).fullStop = true ∧ (dma s c).irq = false ∧ rdB s (DMA_CH_STATUS_DB_PEND c) = false ∧
      s.hep.tags = [(tag, r)] ∧ r.who = .dmaBarrier c ∧ r.discard = false ∧ (dma s c).stage = 4) :=
  ⟨⟨channel 0, 127, by decide⟩, ⟨lastOne 2, 127, by decide⟩,
    ⟨{ lastOne 4 with hep := { (lastOne 4).hep with tags := [(3, { id := 0, who := .dmaBarrier 127, addr := 0, len := 0 })] } }, 127, 3, { id := 0, who := .dmaBarrier 127, addr := 0, len := 0 }, by decide⟩⟩

theorem witness_ReadResults :
    (∃ (s : State) (tag : Fin 1024) (r : ReadReqS) (c : DmaIx) (dst : Nat) (d : List Byte), mainRuns s = true ∧ Sound s ∧ s.hep.tags = [(tag.val, r)] ∧ r.who = .dmaData c dst ∧ r.discard = false ∧ s.hep.ready = [] ∧
      (dma s c).bad = false ∧ r.got = [] ∧ d.length = r.len ∧ 1 ≤ r.len ∧ dst + r.len = hbmSize) ∧
    (∃ (s : State) (tag : Fin 1024) (r : ReadReqS) (q : Nat), mainRuns s = true ∧ Sound s ∧ s.hep.tags = [(tag.val, r)] ∧ r.who = .queueRing q ∧ r.discard = false) :=
  ⟨⟨{ State.reset with hep := { tags := [(1023, { id := 0, who := .dmaData 0 (hbmSize - 2), addr := 0, len := 2 })] } }, 1023, { id := 0, who := .dmaData 0 (hbmSize - 2), addr := 0, len := 2 }, 0, hbmSize - 2, [1, 2], by decide⟩,
    ⟨{ State.reset with hep := { tags := [(1023, reading8)] } }, 1023, reading8, 0, by decide⟩⟩

theorem witness_ResetResults :
    (∃ s : State, mainRuns s = true ∧ s.modeCtl.resetWait = false) ∧
    (∃ s : State, Sound s ∧ s.pwr.aon = true ∧ s.pwr.main = true ∧ s.pwr.reset = true ∧ s.pwr.fail = false ∧ s.lan.esc = [] ∧ s.pwr.perst = false ∧ s.pwr.hold = true) ∧
    (∃ s : State, Sound s ∧ s.pwr.aon = true ∧ s.pwr.main = true ∧ s.pwr.reset = true ∧ s.pwr.fail = false ∧ s.lan.esc = [] ∧ s.pwr.perst = true ∧ s.pwr.hold = false) :=
  ⟨⟨State.reset, by decide⟩, ⟨{ State.reset with pwr := { reset := true, hold := true } }, by decide⟩, ⟨{ State.reset with pwr := { reset := true, perst := true } }, by decide⟩⟩

theorem witness_RecordResults :
    (∃ (s : State) (p : Nat) (w : WaitRec), Sound s ∧ mainRuns s = true ∧ s.rcd.drop = none ∧ s.rcd.latch = [] ∧ s.rcd.ports = [(p, w)] ∧ p < 4 ∧ s.rcd.ring = [] ∧ w.r.rep ≤ 65535 ∧ w.r.sev < 5 ∧ recArea s ≠ 2 ∧
      ∀ i < 4, rdB s (DLV_EVT_ROUTE_EN i) = false) ∧
    (∃ (s : State) (r : Rec) (l : List Rec), Sound s ∧ s.pwr.aon = true ∧ s.lan.log = r :: l ∧ s.rcd.nextC < 2 ^ 32) ∧ (∃ s : State, Sound s ∧ hostOpen s = true ∧ s.rcd.flush = none ∧ s.rcd.ring ≠ []) :=
  ⟨⟨{ State.reset with rcd := { ports := [(2, { r := rec0, last := 0 })] } }, 2, { r := rec0, last := 0 }, by decide⟩, ⟨{ State.reset with lan := { log := [rec0] } }, rec0, [], by decide⟩,
    ⟨{ State.reset with rcd := { ring := [{ r := rec0 }] } }, by decide⟩⟩

/-- A delta part with SEQ 3 and slot 0 alone valid, its position unchanged. -/
def delta3 : DeltaPart := deltaOn false (deltaWord 3 0 1 0 0 0 0)

theorem witness_TetherResults :
    (∃ (s : State) (x : DeltaPart), mainRuns s = true ∧ Sound s ∧ tthOn s = true ∧ mwf (fun _ => ({} : TthSlot)) s.tth.slots = true ∧ mwf (fun _ => ({} : WorkerS)) s.tth.workers = true ∧ x.down = false ∧ isWorker s = true ∧
      s.tth.up.block = true ∧ s.tth.half = false ∧ rdB s TTH_STATUS_UP_LOCK = true ∧ ∃ w, deltaOf x = some w ∧
      ((s.tth.up.expect == some (w % 16)) && (bitsOf w 7 4 != 15) && bitOf w 8 && (bitsOf w 40 20 != 0x100000)) = true) ∧
    (∃ (s : State) (x : TthIn), mainRuns s = true ∧ Sound s ∧ tthOn s = true ∧ x.down = true ∧ isManager s = true ∧ portUp s true = true ∧ s.tth.hAt = none ∧ ∃ c, singleOf 0xE9 x.blocks = some c ∧
      (!(heartbeatOf c).mgr && ((heartbeatOf c).mode != 10) && !bitOf (rd s TTH_PRESENT_DUP) (heartbeatOf c).id && !bitOf (rd s TTH_PRESENT_PRESENT) (heartbeatOf c).id) = true) ∧
    (∃ (s : State) (x : TthIn), mainRuns s = true ∧ Sound s ∧ tthOn s = true ∧ isWorker s = true ∧ portUp s false = true ∧ followReady s = false ∧ ∃ a, multiOf 2 x.blocks = some a ∧ (s.tth.hoSeen != some (handoverOf a.1 a.2).id) = true) ∧
    (∃ (s : State) (x : TthIn), mainRuns s = true ∧ Sound s ∧ tthOn s = true ∧ isWorker s = true ∧ portUp s false = true ∧ rd s (MBX_STATUS_STATE 6) ≠ 1 ∧ ∃ a, multiOf 3 x.blocks = some a ∧
      (!(fragOf a.1 a.2).destMgr && ((fragOf a.1 a.2).dest == rd s MODE_STATUS_WORKER_ID) && !(fragOf a.1 a.2).abort && ((fragOf a.1 a.2).frag == 0) && (fragOf a.1 a.2).last) = true) ∧
    (∃ (s : State) (j : Fin 4), mainRuns s = true ∧ Sound s ∧ tthOn s = true ∧ isWorker s = true ∧ (mget ({} : TthSlot) s.tth.slots j).stale = true ∧ (mget ({} : TthSlot) s.tth.slots j).frozen = none) :=
  ⟨⟨{ worker with tth := { worker.tth with up := { block := true, expect := some 3 } } }, delta3, by decide, by decide, by decide, by decide, by decide, rfl, by decide, rfl, rfl, by decide, any_some (by decide +kernel)⟩,
    ⟨manager, received true [beat false], by decide, by decide, by decide, rfl, by decide, by decide, rfl, any_some (by decide +kernel)⟩,
    ⟨worker, handoverIn, by decide, by decide, by decide, by decide, by decide, by decide, any_some (by decide +kernel)⟩,
    ⟨worker, mgmtIn false false 0, by decide, by decide, by decide, by decide, by decide, by decide, any_some (by decide +kernel)⟩, ⟨slotted 3 { stale := true, frozen := none } none, 3, by decide⟩⟩

end Sys2Proof.Tests
end

section
/-! SUPPORT. Reserved offsets of BAR0 (R12): what each access of the bus does where no register, table, array or doorbell stands, first for one word, then for a whole request. -/

namespace Sys2Proof.Machine

/-- Nothing stands at BAR0 offset `a`: no word of a window, no doorbell, no register, no byte of the recorder's reading area. -/
structure Reserved (s : State) (a : Nat) : Prop where
  noWindow : windowWord s a = none
  noBell : bellOf a = none
  noReg : regAt a = none
  notReadingArea : ¬ (0x160400 ≤ a ∧ a < 0x160800)

/-- Nothing stands at any BAR0 offset from `a` up to `b`, `b` excluded. -/
def ReservedFrom (s : State) (a b : Nat) : Prop := ∀ c, a ≤ c → c < b → Reserved s c

/-- The MSI-X table is a window, so it has no reserved offset. -/
theorem Reserved.notMsix {s : State} {a : Nat} (h : Reserved s a) : ¬ (0x8000 ≤ a ∧ a < 0x10000) := by
  intro hm
  have hw := h.noWindow
  unfold windowWord at hw
  rw [if_neg (by omega), if_neg (by omega), if_pos hm] at hw
  exact absurd hw (Option.some_ne_none _)

/-! One word. -/

theorem peekWord_reserved {s : State} {a : Nat} (h : Reserved s a) : peekWord s a = 0 := by
  unfold peekWord
  rw [h.noWindow, h.noReg]

theorem read32_reserved {s : State} {a : Nat} (h : Reserved s a) : read32 s a = (0, s) := by
  unfold read32
  rw [h.noWindow, h.noReg]

theorem read64_reserved {s : State} {a : Nat} (h : Reserved s a) (h4 : Reserved s (a + 4)) : read64 s a = (0, s) := by
  unfold read64
  rw [h.noWindow, h.noReg]
  simp only [read32_reserved h, read32_reserved h4, Nat.mul_zero, Nat.add_zero]

theorem write32_reserved {s : State} {a v : Nat} (h : Reserved s a) : write32 a v s = s := by
  unfold write32
  rw [h.noBell, h.noReg]
  exact if_neg h.notMsix

theorem write64_reserved {s : State} {a v : Nat} (h : Reserved s a) (h4 : Reserved s (a + 4)) : write64 a v s = s := by
  unfold write64
  rw [h.noBell, h.noReg]
  simp only [write32_reserved h, write32_reserved h4]

/-! A span of bytes. -/

/-- The bytes of the number 0. -/
theorem leBytes_zero (n : Nat) : leBytes n 0 = List.replicate n 0 := by
  induction n with
  | zero => rfl
  | succ n ih => simp [leBytes, ih, List.replicate_succ]

/-- A number has as many bytes as it is spelled with. -/
theorem length_leBytes (n v : Nat) : (leBytes n v).length = n := by
  induction n generalizing v with
  | zero => rfl
  | succ n ih => simp [leBytes, ih]

/-- The enabled bytes that a narrow read takes from offset `o` of a word of zeros, each with its enable. -/
theorem narrowBytes_zero (o k : Nat) :
    ((leBytes 4 0).drop o).zip ((List.replicate k true).take (4 - o)) = List.replicate (min k (4 - o)) (0, true) := by
  rw [leBytes_zero, List.drop_replicate, List.take_replicate, List.zip_replicate]
  congr 1
  omega

/-- Enabled zeros read as zeros, whatever the free value `f` of a byte that is not enabled. -/
theorem map_enabledZeros (n : Nat) (f : Nat → Byte) :
    ((List.replicate n ((0 : Byte), true)).zipIdx.map (fun p => if p.1.2 then p.1.1 else f p.2)) = List.replicate n 0 := by
  refine List.eq_replicate_iff.mpr ⟨by simp, fun b hb => ?_⟩
  obtain ⟨p, hp, rfl⟩ := List.mem_map.mp hb
  rw [List.eq_of_mem_replicate (List.fst_mem_of_mem_zipIdx hp)]
  rfl

/-- A read of reserved offsets, every byte enabled, returns zeros and has no effect, however it splits into accesses. -/
theorem readSpan_reserved {s : State} (n a k : Nat) (hk : k ≤ n) (h : ReservedFrom s (a / 4 * 4) (a + k)) :
    readSpan n s a (List.replicate k true) = (List.replicate k 0, s) := by
  induction n generalizing a k with
  | zero =>
    obtain rfl := Nat.le_zero.mp hk
    rfl
  | succ n ih =>
    have rest : ∀ j, 0 < j → (a + j) % 4 = 0 →
        readSpan n s (a + j) ((List.replicate k true).drop j) = (List.replicate (k - j) 0, s) := fun j h0 ha => by
      rw [List.drop_replicate]
      exact ih _ _ (by omega) (fun c h1 h2 => h c (by omega) (by omega))
    unfold readSpan
    split
    case isTrue he =>
      obtain rfl : k = 0 := by simpa using he
      rfl
    case isFalse he =>
      have hpos : 0 < k := by simpa [Nat.pos_iff_ne_zero] using he
      split
      case isTrue h8 =>
        obtain ⟨ha, hl, -⟩ := h8
        rw [List.length_replicate] at hl
        rw [read64_reserved (h a (by omega) (by omega)) (h (a + 4) (by omega) (by omega))]
        simp only [rest 8 (by omega) (by omega), leBytes_zero, List.replicate_append_replicate, Nat.add_sub_cancel' hl]
      case isFalse =>
        split
        case isTrue h4 =>
          obtain ⟨ha, hl, -⟩ := h4
          rw [List.length_replicate] at hl
          rw [read32_reserved (h a (by omega) (by omega))]
          simp only [rest 4 (by omega) (by omega), leBytes_zero, List.replicate_append_replicate, Nat.add_sub_cancel' hl]
        case isFalse =>
          rw [peekWord_reserved (h _ le_rfl (by omega))]
          have hall : (List.replicate (min k (4 - a % 4)) ((0 : Byte), true)).all (·.2) = true := by simp
          simp only [narrowBytes_zero, hall, if_true, map_enabledZeros _ (fun i => BitVec.ofNat 8 (freeNat s / 256 ^ i)), rest (4 - a % 4) (by omega) (by omega), List.replicate_append_replicate]
          congr 2
          omega

/-- A write of reserved offsets does nothing, whichever of its bytes are enabled and however it splits into accesses. -/
theorem writeSpan_reserved {s : State} (n a : Nat) (l : List (Option Byte)) (h : ReservedFrom s a (a + l.length)) : writeSpan n a l s = s := by
  induction n generalizing a l with
  | zero => rfl
  | succ n ih =>
    have rest : ∀ j, writeSpan n (a + j) (l.drop j) s = s := fun j => ih _ _ (by
      intro c h1 h2
      rw [List.length_drop] at h2
      exact h c (by omega) (by omega))
    unfold writeSpan
    split
    · rfl
    · split
      case h_1 v hv =>
        obtain ⟨⟨-, hl⟩, -⟩ := Option.ite_none_right_eq_some.mp hv
        rw [write64_reserved (h a (by omega) (by omega)) (h (a + 4) (by omega) (by omega))]
        exact rest 8
      case h_2 =>
        split
        case h_1 v hv =>
          obtain ⟨⟨-, hl⟩, -⟩ := Option.ite_none_right_eq_some.mp hv
          rw [write32_reserved (h a (by omega) (by omega))]
          exact rest 4
        case h_2 => exact rest _

/-! A request. -/

/-- A read without byte enables left out enables every byte. -/
theorem readEn_whole (sp : HostSpace) (off : BitVec 64) (len : Fin 4097) (ecc : EccResult) (id : TlpId) :
    readEn { space := sp, off := off, len := len, ecc := ecc, id := id } = List.replicate len true := by
  simp [readEn, bitOf, List.map_const']

/-- A read of at least one byte at reserved offsets does not move the recorder's cursor either (R513). -/
theorem bar0Read_reserved {s : State} {a k : Nat} (hk : 0 < k) (h : ReservedFrom s (a / 4 * 4) (a + k)) :
    bar0Read s a (List.replicate k true) = (List.replicate k 0, s) := by
  have outside : ¬ (0x160400 < a + k ∧ a < 0x160800) := fun hc =>
    (h (max a 0x160400) (by omega) (by omega)).notReadingArea (by omega)
  unfold bar0Read
  simp only [List.length_replicate, readSpan_reserved (k + 1) a k (by omega) h, if_neg outside]

/-- What BAR0 serves, it serves in part. -/
theorem served_bar0_mono {s : State} {off m n : Nat} (h : served s .bar0 off n = true) (hm : m ≤ n) : served s .bar0 off m = true := by
  simp only [served, Bool.and_eq_true, decide_eq_true_eq] at h ⊢
  exact ⟨h.1, by omega⟩

/-- A served read of reserved offsets of BAR0, within 128 bytes and a page, completes with zeros and has no other effect. -/
theorem memoryRead_reserved {s : State} {off : BitVec 64} {len : Fin 4097} {ecc : EccResult} {id : TlpId} (hs : served s .bar0 off.toNat len = true)
    (hpos : 0 < len.val) (hmax : len.val ≤ 128) (hpage : off.toNat / 4096 = (off.toNat + len.val - 1) / 4096)
    (h : ReservedFrom s (off.toNat / 4 * 4) (off.toNat + len)) :
    memoryRead { space := .bar0, off := off, len := len, ecc := ecc, id := id } s = send s (.completion .ok (List.replicate len 0)) := by
  have inBounds : ¬ (128 < len.val ∨ (0 < len.val ∧ off.toNat / 4096 ≠ (off.toNat + len.val - 1) / 4096)) := by omega
  unfold memoryRead
  simp only [hs, Bool.not_true, Bool.false_eq_true, if_false, if_neg inBounds, readEn_whole, bar0Read_reserved hpos h]

/-- A served write of reserved offsets of BAR0 is discarded. -/
theorem memoryWrite_reserved {s : State} {off : BitVec 64} {data : List (Option Byte)} {id : TlpId} (hs : served s .bar0 off.toNat data.length = true)
    (h : ReservedFrom s off.toNat (off.toNat + data.length)) :
    memoryWrite { space := .bar0, off := off, data := data, poisoned := false, id := id } s = s := by
  unfold memoryWrite
  simp only [hs, Bool.not_true, Bool.false_eq_true, if_false]
  exact writeSpan_reserved _ _ _ h

/-- A register write of 32 or 64 bits, or of another size, at reserved offsets is discarded. -/
theorem registerWrite_reserved {s : State} {off val : Nat} (size : Size) (h : ReservedFrom s off (off + 8)) : registerWrite off size val s = s := by
  have bytes : ∀ n ≤ 8, writeSpan 8 off ((leBytes n val).map some) s = s := fun n hn =>
    writeSpan_reserved _ _ _ (fun c h1 h2 => h c h1 (by rw [List.length_map, length_leBytes] at h2; omega))
  cases size with
  | dword => exact bytes 4 (by omega)
  | qword => exact bytes 8 le_rfl
  | other => rfl

/-! The commands, on a host that reaches the device. -/

theorem exec_memoryReadRequest_open {s : State} (h : hostOpen s = true) (r : ReadReq) : exec (.memoryReadRequest r) s = .next (finish (memoryRead r s)) :=
  congrArg Host.Outcome.next (onHost_open h)

theorem exec_memoryWriteRequest_open {s : State} (h : hostOpen s = true) (w : WriteReq) : exec (.memoryWriteRequest w) s = .next (finish (memoryWrite w s)) :=
  congrArg Host.Outcome.next (onHost_open h)

theorem exec_registerWrite_open {s : State} (h : hostOpen s = true) (off : BitVec 26) (size : Size) (v : BitVec 64) :
    exec (.registerWrite off size v) s = .next (finish (registerWrite off.toNat size v.toNat s)) :=
  congrArg Host.Outcome.next (onHost_open h)

end Sys2Proof.Machine

open Sys2Proof Sys2Proof.Machine

/-- Settles O2 (R12): the eight bytes from the offset on are reserved, so every access within them meets nothing. A read of `len` of them, at most 8, lies in one page since the offset is a multiple of 8. -/
theorem reservedOffsets : Obligations.ReservedOffsets := by
  unfold Obligations.ReservedOffsets
  intro s off id hopen halign hserved hres
  have hoff : (off.zeroExtend 64).toNat = off.toNat := by
    rw [BitVec.toNat_setWidth]
    omega
  have reserved : ReservedFrom s off.toNat (off.toNat + 8) := fun a h1 h2 =>
    let ⟨hw, hb, hr, ha⟩ := hres a h1 h2
    ⟨hw, hb, hr, ha⟩
  have reads : ∀ len : Fin 4097, 0 < len.val → len.val ≤ 8 →
      exec (.memoryReadRequest { space := .bar0, off := off.zeroExtend 64, len := len, ecc := .none, id := id }) s =
        .next (finish (send s (.completion .ok (List.replicate len 0)))) := fun len hpos hle => by
    rw [exec_memoryReadRequest_open hopen, memoryRead_reserved (hoff ▸ served_bar0_mono hserved hle) hpos (by omega) (by omega)]
    exact fun c h1 h2 => reserved c (by omega) (by omega)
  have registerWrites : ∀ (size : Size) (v : BitVec 64), exec (.registerWrite off size v) s = .next (finish s) := fun size v => by
    rw [exec_registerWrite_open hopen, registerWrite_reserved size reserved]
  refine ⟨reads 4 (by decide) (by decide), reads 8 (by decide) (by decide), reads 1 (by decide) (by decide), fun v => ⟨registerWrites _ v, registerWrites _ v⟩, fun b hb => ?_⟩
  rw [exec_memoryWriteRequest_open hopen, memoryWrite_reserved (hoff ▸ served_bar0_mono hserved hb)]
  exact fun c h1 h2 => reserved c (by omega) (by omega)
end

section
/-! SUPPORT. Fields written one after another: what the list of writes sets and what it leaves; and what the snapshot of the time domains writes (R102). -/

namespace Sys2Proof.Machine

/-- Fields written in order, each with its value. -/
def writeFields (s : State) (l : List (FRef × Nat)) : State := each l (fun s p => wr s p.1 p.2) s

/-- The offsets of the registers that a list of field writes touches. -/
def writtenRegs (l : List (FRef × Nat)) : List Nat := l.map (·.1.a)

@[simp] theorem writeFields_nil (s : State) : writeFields s [] = s := rfl
@[simp] theorem writeFields_cons (s : State) (p : FRef × Nat) (l : List (FRef × Nat)) : writeFields s (p :: l) = writeFields (wr s p.1 p.2) l := rfl

theorem writeFields_append (s : State) (l m : List (FRef × Nat)) : writeFields s (l ++ m) = writeFields (writeFields s l) m := List.foldl_append

/-- Writes of fields change the registers only. -/
theorem writeFields_frame (s : State) (l : List (FRef × Nat)) : writeFields s l = { s with regs := (writeFields s l).regs } := by
  induction l generalizing s with
  | nil => rfl
  | cons p l ih => exact ih (wr s p.1 p.2)

@[simp] theorem writeFields_todo (s : State) (l : List (FRef × Nat)) : (writeFields s l).todo = s.todo := by rw [writeFields_frame]
@[simp] theorem writeFields_dom (s : State) (l : List (FRef × Nat)) : (writeFields s l).dom = s.dom := by rw [writeFields_frame]
@[simp] theorem writeFields_now (s : State) (l : List (FRef × Nat)) : (writeFields s l).now = s.now := by rw [writeFields_frame]
@[simp] theorem ducNow_writeFields (s : State) (l : List (FRef × Nat)) : ducNow (writeFields s l) = ducNow s := by rw [writeFields_frame]; rfl
@[simp] theorem ducNow_wr (s : State) (f : FRef) (v : Nat) : ducNow (wr s f v) = ducNow s := rfl

/-- The fields of a register that is not written read as before. -/
theorem rd_writeFields_apart {s : State} {l : List (FRef × Nat)} {g : FRef} (h : regsWf s = true) (hg : g.a ∉ writtenRegs l) : rd (writeFields s l) g = rd s g := by
  induction l generalizing s with
  | nil => rfl
  | cons p l ih =>
    obtain ⟨hp, hl⟩ := not_or.mp (mt List.mem_cons.mpr hg)
    rw [writeFields_cons, ih (regsWf_wr h) hl, rd_wr_apart h hp]

/-- A field reads as written when no register is written twice. -/
theorem rd_writeFields_mem {s : State} {l : List (FRef × Nat)} {f : FRef} {v : Nat} (h : regsWf s = true) (once : (writtenRegs l).Nodup)
    (hf : f.lo + f.w ≤ 64) (hm : (f, v) ∈ l) : rd (writeFields s l) f = v % 2 ^ f.w := by
  induction l generalizing s with
  | nil => exact absurd hm List.not_mem_nil
  | cons p l ih =>
    obtain ⟨hp, hl⟩ := List.nodup_cons.mp once
    rcases List.mem_cons.mp hm with rfl | hm
    · rw [writeFields_cons, rd_writeFields_apart (regsWf_wr h) hp, rd_wr_self h hf]
    · exact ih (regsWf_wr h) hl hm

/-! The time domains. -/

/-- The time of a domain hangs on its register RATE and on no other. -/
theorem domRaw_writeFields {s : State} {l : List (FRef × Nat)} {d : Nat} (h : regsWf s = true) (hd : (TMB_DOM_RATE_RATE d).a ∉ writtenRegs l) :
    domRaw (writeFields s l) d = domRaw s d := by
  unfold domRaw domRawAt rdI
  rw [writeFields_dom, writeFields_now, rd_writeFields_apart h hd]

/-- A domain's raw value has 104 bits (R98). -/
theorem domRaw_lt (s : State) (d : Nat) : domRaw s d < 2 ^ 104 := by
  have hpos : (0 : Int) < 2 ^ 104 := by decide
  exact (Int.toNat_lt (Int.emod_nonneg _ hpos.ne')).mpr (Int.emod_lt_of_pos _ hpos)

/-- TS64 has 64 bits (R98). -/
theorem domNow_lt (s : State) (d : Nat) : domNow s d < 2 ^ 64 := by
  have := domRaw_lt s d
  unfold domNow
  omega

theorem domFrac_lt (s : State) (d : Nat) : domFrac s d < 256 := Nat.mod_lt _ (by decide)

theorem ducNow_lt (s : State) : ducNow s < 2 ^ 64 := Nat.mod_lt _ (by decide)

/-! The snapshot. -/

/-- The fractions of the four domains as TMB_SNAP_FRAC holds them, byte `d` that of domain `d`. -/
def snapshotFrac (s : State) : Nat := domFrac s 0 + 256 * domFrac s 1 + 65536 * domFrac s 2 + 16777216 * domFrac s 3

theorem snapshotFrac_lt (s : State) : snapshotFrac s < 2 ^ 32 := by
  have h0 := domFrac_lt s 0
  have h1 := domFrac_lt s 1
  have h2 := domFrac_lt s 2
  have h3 := domFrac_lt s 3
  unfold snapshotFrac
  omega

/-- The times of the first `n` domains, as the snapshot writes them. -/
def domainFields (s : State) (n : Nat) : List (FRef × Nat) := (List.range n).map (fun d => (TMB_SNAP_D_TS d, domNow s d))

theorem domainFields_succ (s : State) (n : Nat) : domainFields s (n + 1) = domainFields s n ++ [(TMB_SNAP_D_TS n, domNow s n)] := by
  simp [domainFields, List.range_succ]

/-- All that the snapshot writes, with the values at this TIM edge. -/
def snapshotFields (s : State) : List (FRef × Nat) :=
  domainFields s 4 ++ [(TMB_SNAP_FRAC_FRAC, snapshotFrac s), (TMB_SNAP_DUC_DUC, ducNow s), (TMB_SNAP_CTRL_DONE, 1)]

/-- No domain's RATE is among the captured times. -/
theorem rate_notMem_domainFields (s : State) {n d : Nat} (hn : n ≤ 4) (hd : d < 4) : (TMB_DOM_RATE_RATE d).a ∉ writtenRegs (domainFields s n) := by
  simp only [writtenRegs, domainFields, List.map_map, List.mem_map, List.mem_range, Function.comp_apply, TMB_DOM_RATE_RATE, TMB_SNAP_D_TS]
  omega

/-- The domains captured one after another hold what each stood at before the first capture: no capture moves a domain still to be captured. -/
theorem each_capture {s : State} (h : regsWf s = true) {n : Nat} (hn : n ≤ 4) :
    each (List.range n) (fun u d => wr u (TMB_SNAP_D_TS d) (domNow u d)) s = writeFields s (domainFields s n) := by
  induction n with
  | zero => rfl
  | succ n ih =>
    have same : domNow (writeFields s (domainFields s n)) n = domNow s n :=
      congrArg (· / 2 ^ 40) (domRaw_writeFields h (rate_notMem_domainFields s (by omega) hn))
    have ih := ih (by omega)
    unfold each at ih ⊢
    rw [List.range_succ, List.foldl_append, ih, domainFields_succ, writeFields_append, ← same]
    rfl

/-- The snapshot is one list of writes whose values all belong to the state before it. -/
theorem timeSnapshot_eq {s : State} (h : regsWf s = true) : timeSnapshot s = writeFields s (snapshotFields s) := by
  have frac : ∀ d < 4, domFrac (writeFields s (domainFields s 4)) d = domFrac s d := fun d hd =>
    congrArg (· / 2 ^ 32 % 256) (domRaw_writeFields h (rate_notMem_domainFields s le_rfl hd))
  unfold timeSnapshot
  rw [each_capture h le_rfl]
  dsimp only
  rw [ducNow_wr, ducNow_writeFields, frac 0 (by decide), frac 1 (by decide), frac 2 (by decide), frac 3 (by decide), snapshotFields, writeFields_append]
  rfl

/-- The registers of the snapshot block that the snapshot writes. -/
theorem writtenRegs_snapshotFields (s : State) : writtenRegs (snapshotFields s) =
    [(TMB_SNAP_D_TS 0).a, (TMB_SNAP_D_TS 1).a, (TMB_SNAP_D_TS 2).a, (TMB_SNAP_D_TS 3).a, TMB_SNAP_FRAC_FRAC.a, TMB_SNAP_DUC_DUC.a, TMB_SNAP_CTRL_DONE.a] := rfl

/-- A field of the snapshot reads afterwards as captured. -/
theorem rd_snapshotFields {s : State} {f : FRef} {v : Nat} (h : regsWf s = true) (hm : (f, v) ∈ snapshotFields s) (hf : f.lo + f.w ≤ 64) (hv : v < 2 ^ f.w) :
    rd (writeFields s (snapshotFields s)) f = v := by
  rw [rd_writeFields_mem h (by rw [writtenRegs_snapshotFields]; decide) hf hm, Nat.mod_eq_of_lt hv]

theorem mem_snapshotFields_domain (s : State) {d : Nat} (hd : d < 4) : (TMB_SNAP_D_TS d, domNow s d) ∈ snapshotFields s :=
  List.mem_append_left _ (List.mem_map_of_mem (List.mem_range.mpr hd))

/-- Where the host reaches the device and no work waits, TIME_SNAPSHOT is that list of writes. -/
theorem exec_timeSnapshot_open {s : State} (h : regsWf s = true) (hopen : hostOpen s = true) (idle : s.todo = []) :
    exec .timeSnapshot s = .next (writeFields s (snapshotFields s)) := by
  refine congrArg Host.Outcome.next ?_
  rw [onHost_open hopen, timeSnapshot_eq h, finish_idle ((writeFields_todo s _).trans idle)]

end Sys2Proof.Machine

open Sys2Proof Sys2Proof.Machine

/-- Settles O16 (R102, R21): the snapshot is one list of writes of values of the state before it, so every value is of one TIM edge. That DUC too is this edge's, where R102 lets it be up to 1 µs older, is the model's choice (log 2: latencies are left out, DUC is computed from State.now). -/
theorem snapshotCaptures : Obligations.SnapshotCaptures := by
  unfold Obligations.SnapshotCaptures
  rintro s ⟨-, hregs, -⟩ hopen idle
  refine ⟨writeFields s (snapshotFields s), exec_timeSnapshot_open hregs hopen idle, fun d hd => ?times, ?duc, ?done, ?frac, fun g hg => ?others, writeFields_frame s _⟩
  case times => exact rd_snapshotFields hregs (mem_snapshotFields_domain s hd) le_rfl (domNow_lt s d)
  case duc => exact rd_snapshotFields hregs (List.mem_append_right _ (.tail _ (.head _))) (by decide) (ducNow_lt s)
  case done => exact rd_snapshotFields hregs (List.mem_append_right _ (.tail _ (.tail _ (.head _)))) (by decide) (by decide)
  case frac => exact rd_snapshotFields hregs (List.mem_append_right _ (.head _)) (by decide) (snapshotFrac_lt s)
  case others => exact rd_writeFields_apart hregs (writtenRegs_snapshotFields s ▸ hg)
end

section
/-! SUPPORT. The arrival cycle of the guyline core (R424): the command that brings it, and the cycle of an event that the core drops (R430). -/

namespace Sys2Proof.Machine

/-- At hop count 7 the core only counts a loop and flags it on the channel, and does not accept the event. -/
theorem gylAccept_looped (s : State) (c : Nat) {hop : Nat} (h : 7 ≤ hop) :
    gylAccept s c hop = (gylFlag (addSat s GYL_CNT_LOOP_COUNT 1) (GYL_CH_STATUS_LOOP c), false) := by
  unfold gylAccept
  rw [if_pos h]

/-- Of one event that is not accepted, the cycle keeps none. -/
theorem gylAcceptAll_dropped {s u : State} {c hop : Nat} (h : gylAccept s c hop = (u, false)) : gylAcceptAll s [(c, hop)] = (u, []) := by
  simp [gylAcceptAll, h]

/-- Where no event is accepted no task input is reached: the cycle ends with what acceptance did. -/
theorem gylCycle_noneAccepted {s u : State} {evs : List (Nat × Nat)} (h : gylAcceptAll s evs = (u, [])) : gylCycle s evs = u := by
  simp [gylCycle, h, below, each]

theorem gylCycle_looped (s : State) (c : Nat) {hop : Nat} (h : 7 ≤ hop) :
    gylCycle s [(c, hop)] = gylFlag (addSat s GYL_CNT_LOOP_COUNT 1) (GYL_CH_STATUS_LOOP c) :=
  gylCycle_noneAccepted (gylAcceptAll_dropped (gylAccept_looped s c h))

/-- An event alone on the worklist takes one step of it: its own arrival cycle. -/
theorem settle_succ_gyl {s : State} (n c hop : Nat) (idle : s.todo = []) :
    settle (n + 1) (later s (.gyl c hop)) = settle n (gylCycle s [(c, hop)]) := by
  have alone : (later s (.gyl c hop)).todo = [.gyl c hop] := by rw [later_todo, idle, List.nil_append]
  have taken : { later s (.gyl c hop) with todo := [] } = s := by rw [← idle]; rfl
  rw [settle, alone]
  exact congrArg (fun u => settle n (gylCycle u [(c, hop)])) taken

/-- GUYLINE_EVENT while the main domain runs and no work waits: the event's arrival cycle, then what that cycle leaves to do. -/
theorem exec_guylineEvent_runs {s : State} (ch : ChanIx) (hop : Fin 8) (runs : mainRuns s = true) (idle : s.todo = []) :
    exec (.guylineEvent ch hop) s = .next (settle 4095 (gylCycle s [(ch.val, hop.val)])) := by
  refine congrArg Host.Outcome.next ?_
  rw [onMain_runs runs]
  exact settle_succ_gyl 4095 ch hop idle

end Sys2Proof.Machine

open Sys2Proof Sys2Proof.Machine

/-- Settles O45 (R430): at hop count 7 the core accepts nothing, so the arrival cycle reaches no task input and ends with the loop's count and flag; the command is that cycle. -/
theorem loopedEvents : Obligations.LoopedEvents := by
  unfold Obligations.LoopedEvents
  intro s ch runs idle
  have dropped : gylCycle s [(ch.val, 7)] = gylFlag (addSat s GYL_CNT_LOOP_COUNT 1) (GYL_CH_STATUS_LOOP ch) := gylCycle_looped s ch le_rfl
  refine ⟨dropped, (exec_guylineEvent_runs ch 7 runs idle).trans ?_⟩
  exact congrArg (fun u => Host.Outcome.next (settle 4095 u)) dropped
end

section
/-! SUPPORT. A source's event (R518, R519): its request touches only the host endpoint's state and what is sent, so of the registers only the source's status bit changes. -/

namespace Sys2Proof.Machine

theorem sendMessage_frame (s : State) (v : Nat) : sendMessage s v = { s with out := (sendMessage s v).out } := by
  unfold sendMessage
  split <;> rfl

/-- A requested vector is recorded as pending, or its message is sent (R369). -/
theorem requestVector_frame (s : State) (v : Nat) : requestVector s v = { s with hep := (requestVector s v).hep, out := (requestVector s v).out } := by
  unfold requestVector
  dsimp only
  split
  · rfl
  · rw [sendMessage_frame]

theorem updateInta_frame (s : State) : updateInta s = { s with hep := (updateInta s).hep, out := (updateInta s).out } := by
  unfold updateInta
  dsimp only
  split <;> rfl

/-- A source requests through INTA, vector 0 or the vector of its route (R368). -/
theorem requestSrc_frame (s : State) (src : Nat) : requestSrc s src = { s with hep := (requestSrc s src).hep, out := (requestSrc s src).out } := by
  unfold requestSrc
  split
  · exact updateInta_frame s
  · split
    · exact requestVector_frame s 0
    · exact requestVector_frame s _

theorem statusField_fits (src : Nat) : (statusField src).lo + (statusField src).w ≤ 64 := by
  have bit : src % 32 < 32 := Nat.mod_lt src (by decide)
  change src % 32 + 1 ≤ 64
  omega

/-- A status bit is one bit wide: where it is not 0 it is 1. -/
theorem rd_statusField_of_set {s : State} {src : Nat} (set : rdB s (statusField src) = true) : rd s (statusField src) = 1 := by
  have nonzero : rd s (statusField src) ≠ 0 := bne_iff_ne.mp set
  have small : rd s (statusField src) < 2 := Nat.mod_lt _ (Nat.two_pow_pos 1)
  omega

/-- The event of an assigned source: nothing where its status is set already, else its status bit sets, with what the request changes. -/
theorem raise_cases (s : State) {src : Nat} (assigned : srcAssigned src = true) :
    (rdB s (statusField src) = true ∧ raise s src = s) ∨
    ∃ hep out, raise s src = { wr s (statusField src) 1 with hep := hep, out := out } := by
  unfold raise
  rw [assigned, Bool.true_and]
  cases set : rdB s (statusField src) with
  | true => exact .inl ⟨rfl, rfl⟩
  | false =>
    refine .inr ?_
    rw [if_pos Bool.not_false]
    dsimp only
    split
    · exact ⟨_, _, requestSrc_frame _ src⟩
    · exact ⟨_, _, rfl⟩

/-- INT_TEST where the host reaches the device: the source's event. -/
theorem exec_intTest_open {s : State} (src : BitVec 11) (hopen : hostOpen s = true) : exec (.intTest src) s = .next (finish (raise s src.toNat)) :=
  congrArg Host.Outcome.next (onHost_open hopen)

end Sys2Proof.Machine

open Sys2Proof Sys2Proof.Machine

/-- Settles O56 (R520): the command is the source's event, which either finds the status bit set and changes nothing, or writes that one bit and requests. -/
theorem interruptTest : Obligations.InterruptTest := by
  unfold Obligations.InterruptTest
  intro s src hopen
  refine ⟨exec_intTest_open src hopen, ?_⟩
  rintro assigned ⟨-, hregs, -⟩
  obtain ⟨set, unchanged⟩ | ⟨hep, out, written⟩ := raise_cases s assigned
  · rw [unchanged]
    exact ⟨rd_statusField_of_set set, fun _ _ => rfl, rfl⟩
  · rw [written]
    exact ⟨rd_wr_self hregs (statusField_fits _), fun _ apart => rd_wr_other hregs (statusField_fits _) apart, rfl⟩
end

section
/-! SUPPORT. What every command and every step keep: from the commands' own laws, one for each row of the opcode table, to `exec`, and from the edge's work to `step`. -/

namespace Sys2Proof.Machine

/-- Every command answers a next state, and what every operation keeps is kept. -/
theorem exec_keeps {s0 s : State} (c : Instr) (hk : Keeps s0 s) : ∃ t, exec c s = .next t ∧ Keeps s0 t :=
  match c with
  | .registerWrite .. => execRegisterWrite_keeps hk
  | .reg64LowRead .. => execReg64LowRead_keeps hk
  | .reg64HighWrite .. => execReg64HighWrite_keeps hk
  | .memoryReadRequest .. => execMemoryReadRequest_keeps hk
  | .memoryWriteRequest .. => execMemoryWriteRequest_keeps hk
  | .configRequest .. => execConfigRequest_keeps hk
  | .busMasterEnableClear => execBusMasterEnableClear_keeps hk
  | .powerStateChange .. => execPowerStateChange_keeps hk
  | .vectorUnmask .. => execVectorUnmask_keeps hk
  | .enableWrite .. => execEnableWrite_keeps hk
  | .enableSetupComplete .. => execEnableSetupComplete_keeps hk
  | .quiesceComplete .. => execQuiesceComplete_keeps hk
  | .counterClearGo .. => execCounterClearGo_keeps hk
  | .modeRequest .. => execModeRequest_keeps hk
  | .holdLimitExpire .. => execHoldLimitExpire_keeps hk
  | .stopReached => execStopReached_keeps hk
  | .drainComplete => execDrainComplete_keeps hk
  | .drainTimeout => execDrainTimeout_keeps hk
  | .calibrateRoutineEnd .. => execCalibrateRoutineEnd_keeps hk
  | .encoderEdge .. => execEncoderEdge_keeps hk
  | .lineBreakEnter .. => execLineBreakEnter_keeps hk
  | .lineBreakClear .. => execLineBreakClear_keeps hk
  | .zIndexEdge .. => execZIndexEdge_keeps hk
  | .speedWindowEnd .. => execSpeedWindowEnd_keeps hk
  | .standstillTimeout .. => execStandstillTimeout_keeps hk
  | .serialFrameStart .. => execSerialFrameStart_keeps hk
  | .serialSample .. => execSerialSample_keeps hk
  | .serialStartBitTimeout .. => execSerialStartBitTimeout_keeps hk
  | .trailPreset .. => execTrailPreset_keeps hk
  | .homeCapture .. => execHomeCapture_keeps hk
  | .homeLimitChange .. => execHomeLimitChange_keeps hk
  | .trlPortCfgWrite .. => execTrlPortCfgWrite_keeps hk
  | .trlUntrustedClear .. => execTrlUntrustedClear_keeps hk
  | .lanternCorrection .. => execLanternCorrection_keeps hk
  | .dividerEdge .. => execDividerEdge_keeps hk
  | .domainSet .. => execDomainSet_keeps hk
  | .domainAdjust .. => execDomainAdjust_keeps hk
  | .timeSnapshot => execTimeSnapshot_keeps hk
  | .domainSrcWrite .. => execDomainSrcWrite_keeps hk
  | .offsetSample .. => execOffsetSample_keeps hk
  | .ptmDialogue .. => execPtmDialogue_keeps hk
  | .sampleLossHoldover .. => execSampleLossHoldover_keeps hk
  | .pathWindowExpire .. => execPathWindowExpire_keeps hk
  | .txqIdRead .. => execTxqIdRead_keeps hk
  | .tpgFire .. => execTpgFire_keeps hk
  | .tpgStartWrite .. => execTpgStartWrite_keeps hk
  | .stakeFire .. => execStakeFire_keeps hk
  | .stakeSeekComplete .. => execStakeSeekComplete_keeps hk
  | .stkTableAddrWrite .. => execStkTableAddrWrite_keeps hk
  | .stkTableData3Write .. => execStkTableData3Write_keeps hk
  | .stkTableData3Read => execStkTableData3Read_keeps hk
  | .stakeRearm .. => execStakeRearm_keeps hk
  | .pinPulseEnd .. => execPinPulseEnd_keeps hk
  | .cxpTriggerSend .. => execCxpTriggerSend_keeps hk
  | .cxpFallTriggerSend .. => execCxpFallTriggerSend_keeps hk
  | .laneSignalDetect .. => execLaneSignalDetect_keeps hk
  | .laneNoSignalTimeout .. => execLaneNoSignalTimeout_keeps hk
  | .laneAligned .. => execLaneAligned_keeps hk
  | .laneAlignTimeout .. => execLaneAlignTimeout_keeps hk
  | .laneDeskewDone .. => execLaneDeskewDone_keeps hk
  | .laneLinkLoss .. => execLaneLinkLoss_keeps hk
  | .laneRetrainDone .. => execLaneRetrainDone_keeps hk
  | .camCtlRead .. => execCamCtlRead_keeps hk
  | .camCtlWrite .. => execCamCtlWrite_keeps hk
  | .camCtlAnswer .. => execCamCtlAnswer_keeps hk
  | .camCtlTimeout .. => execCamCtlTimeout_keeps hk
  | .cxpEventPacket .. => execCxpEventPacket_keeps hk
  | .cxpStreamPacket .. => execCxpStreamPacket_keeps hk
  | .ethFrameReceive .. => execEthFrameReceive_keeps hk
  | .gvspResendWait .. => execGvspResendWait_keeps hk
  | .gvspBlockTimeout .. => execGvspBlockTimeout_keeps hk
  | .gvcpHeartbeatSend .. => execGvcpHeartbeatSend_keeps hk
  | .rawRxPop .. => execRawRxPop_keeps hk
  | .rawTxSend .. => execRawTxSend_keeps hk
  | .cameraLine .. => execCameraLine_keeps hk
  | .lineAssemble .. => execLineAssemble_keeps hk
  | .markReportArrive .. => execMarkReportArrive_keeps hk
  | .chgCommitGo .. => execChgCommitGo_keeps hk
  | .chgCommitWithdraw => execChgCommitWithdraw_keeps hk
  | .handoverCycle => execHandoverCycle_keeps hk
  | .shadowCopyComplete => execShadowCopyComplete_keeps hk
  | .leadCopyComplete .. => execLeadCopyComplete_keeps hk
  | .conjunctionEnd => execConjunctionEnd_keeps hk
  | .conjunctionLimitExpire => execConjunctionLimitExpire_keeps hk
  | .chainLineProcess .. => execChainLineProcess_keeps hk
  | .frameChainComplete .. => execFrameChainComplete_keeps hk
  | .rateWindowEnd .. => execRateWindowEnd_keeps hk
  | .engineWatchdog .. => execEngineWatchdog_keeps hk
  | .campSelfTestComplete .. => execCampSelfTestComplete_keeps hk
  | .itemOffer .. => execItemOffer_keeps hk
  | .itemWritten .. => execItemWritten_keeps hk
  | .ellipsisWrite .. => execEllipsisWrite_keeps hk
  | .queueDoorbell .. => execQueueDoorbell_keeps hk
  | .doorbellApply => execDoorbellApply_keeps hk
  | .qcmdRead .. => execQcmdRead_keeps hk
  | .qcmdWrite .. => execQcmdWrite_keeps hk
  | .qcmdEnable .. => execQcmdEnable_keeps hk
  | .qcmdDisable .. => execQcmdDisable_keeps hk
  | .qcmdFlush .. => execQcmdFlush_keeps hk
  | .flushedWrite .. => execFlushedWrite_keeps hk
  | .groupFifoRead .. => execGroupFifoRead_keeps hk
  | .groupHoldoffEnd .. => execGroupHoldoffEnd_keeps hk
  | .deliveryResume => execDeliveryResume_keeps hk
  | .dmaDoorbell .. => execDmaDoorbell_keeps hk
  | .dmaDescriptorComplete .. => execDmaDescriptorComplete_keeps hk
  | .barrierReadComplete .. => execBarrierReadComplete_keeps hk
  | .dmaHeadWrite .. => execDmaHeadWrite_keeps hk
  | .dmaRestart .. => execDmaRestart_keeps hk
  | .engineHaltClear => execEngineHaltClear_keeps hk
  | .completionReceive .. => execCompletionReceive_keeps hk
  | .completionTimeout .. => execCompletionTimeout_keeps hk
  | .quarantineExpire .. => execQuarantineExpire_keeps hk
  | .l0sIdleExpire => execL0sIdleExpire_keeps hk
  | .l1IdleExpire => execL1IdleExpire_keeps hk
  | .perstAssert => execPerstAssert_keeps hk
  | .hotReset => execHotReset_keeps hk
  | .dlDown => execDlDown_keeps hk
  | .resetHoldEnd => execResetHoldEnd_keeps hk
  | .perstDeassert .. => execPerstDeassert_keeps hk
  | .bootComplete .. => execBootComplete_keeps hk
  | .bootFail .. => execBootFail_keeps hk
  | .qspiRelease => execQspiRelease_keeps hk
  | .mbxGo .. => execMbxGo_keeps hk
  | .mbxAbort .. => execMbxAbort_keeps hk
  | .mbxAck .. => execMbxAck_keeps hk
  | .mpTakeCommand .. => execMpTakeCommand_keeps hk
  | .longCommandComplete .. => execLongCommandComplete_keeps hk
  | .fwWatchdog .. => execFwWatchdog_keeps hk
  | .nop .. => execNop_keeps hk
  | .getVersion .. => execGetVersion_keeps hk
  | .getIdentity .. => execGetIdentity_keeps hk
  | .authNonce .. => execAuthNonce_keeps hk
  | .modeGet .. => execModeGet_keeps hk
  | .serviceEnter .. => execServiceEnter_keeps hk
  | .serviceExit .. => execServiceExit_keeps hk
  | .calibrate .. => execCalibrate_keeps hk
  | .paramList .. => execParamList_keeps hk
  | .paramDesc .. => execParamDesc_keeps hk
  | .paramGet .. => execParamGet_keeps hk
  | .paramSet .. => execParamSet_keeps hk
  | .recipeLoad .. => execRecipeLoad_keeps hk
  | .recipeStage .. => execRecipeStage_keeps hk
  | .recipeCommit .. => execRecipeCommit_keeps hk
  | .recipeFree .. => execRecipeFree_keeps hk
  | .recipeInfo .. => execRecipeInfo_keeps hk
  | .recFlush .. => execRecFlush_keeps hk
  | .recRead .. => execRecRead_keeps hk
  | .recClear .. => execRecClear_keeps hk
  | .recInfo .. => execRecInfo_keeps hk
  | .fwWrite .. => execFwWrite_keeps hk
  | .fwSelect .. => execFwSelect_keeps hk
  | .boardRead .. => execBoardRead_keeps hk
  | .boardWrite .. => execBoardWrite_keeps hk
  | .chainInfo .. => execChainInfo_keeps hk
  | .ageingRead .. => execAgeingRead_keeps hk
  | .tetherMbxTimeout => execTetherMbxTimeout_keeps hk
  | .guylineEvent .. => execGuylineEvent_keeps hk
  | .relayExpire .. => execRelayExpire_keeps hk
  | .tthFwdSend => execTthFwdSend_keeps hk
  | .gylChEnWrite .. => execGylChEnWrite_keeps hk
  | .beatTransmit => execBeatTransmit_keeps hk
  | .positionDeltaReceive .. => execPositionDeltaReceive_keeps hk
  | .positionAnchorReceive .. => execPositionAnchorReceive_keeps hk
  | .slotStaleExpire .. => execSlotStaleExpire_keeps hk
  | .guylineMessageReceive .. => execGuylineMessageReceive_keeps hk
  | .heartbeatSend .. => execHeartbeatSend_keeps hk
  | .heartbeatReceive .. => execHeartbeatReceive_keeps hk
  | .heartbeatLoss .. => execHeartbeatLoss_keeps hk
  | .timeMessageSend .. => execTimeMessageSend_keeps hk
  | .timeMessageReceive .. => execTimeMessageReceive_keeps hk
  | .handoverMessageSend => execHandoverMessageSend_keeps hk
  | .handoverMessageReceive .. => execHandoverMessageReceive_keeps hk
  | .mgmtFragmentReceive .. => execMgmtFragmentReceive_keeps hk
  | .mgmtResponseReceive .. => execMgmtResponseReceive_keeps hk
  | .calMessageReceive .. => execCalMessageReceive_keeps hk
  | .lanternEdge .. => execLanternEdge_keeps hk
  | .lanternLineBreakEnter .. => execLanternLineBreakEnter_keeps hk
  | .lanternLineBreakClear .. => execLanternLineBreakClear_keeps hk
  | .lanternTick .. => execLanternTick_keeps hk
  | .ruleEnableWrite .. => execRuleEnableWrite_keeps hk
  | .lanOvrClear .. => execLanOvrClear_keeps hk
  | .xtalFail => execXtalFail_keeps hk
  | .xtalGood => execXtalGood_keeps hk
  | .rcTrim => execRcTrim_keeps hk
  | .ducCheckpoint => execDucCheckpoint_keeps hk
  | .aonPowerOn => execAonPowerOn_keeps hk
  | .vddAonLoss => execVddAonLoss_keeps hk
  | .mainRailsUp => execMainRailsUp_keeps hk
  | .mainRailsDown => execMainRailsDown_keeps hk
  | .pwrfailFall => execPwrfailFall_keeps hk
  | .pwrfailRise => execPwrfailRise_keeps hk
  | .recordOffer .. => execRecordOffer_keeps hk
  | .recordAccept => execRecordAccept_keeps hk
  | .mramRecordWrite .. => execMramRecordWrite_keeps hk
  | .flushComplete => execFlushComplete_keeps hk
  | .recCtrlFlush => execRecCtrlFlush_keeps hk
  | .recCtrlRewind => execRecCtrlRewind_keeps hk
  | .recMarkWrite .. => execRecMarkWrite_keeps hk
  | .recCfgWrite .. => execRecCfgWrite_keeps hk
  | .recCursorWrite .. => execRecCursorWrite_keeps hk
  | .recWindowRead .. => execRecWindowRead_keeps hk
  | .intEnableWrite .. => execIntEnableWrite_keeps hk
  | .intTest .. => execIntTest_keeps hk
  | .faultWindowIncrement .. => execFaultWindowIncrement_keeps hk
  | .faultWindowSubperiod .. => execFaultWindowSubperiod_keeps hk
  | .faultWindowConfigWrite .. => execFaultWindowConfigWrite_keeps hk
  | .patrolScrub .. => execPatrolScrub_keeps hk
  | .ageingMeasure .. => execAgeingMeasure_keeps hk
  | .poweredHour => execPoweredHour_keeps hk
  | .mramRefreshUnit => execMramRefreshUnit_keeps hk
  | .secKeyProgram .. => execSecKeyProgram_keeps hk
  | .secKeyRevoke .. => execSecKeyRevoke_keeps hk
  | .secKeyRestore .. => execSecKeyRestore_keeps hk
  | .secKeyOpDone .. => execSecKeyOpDone_keeps hk
  | .thermalSense .. => execThermalSense_keeps hk
  | .thermtrip => execThermtrip_keeps hk
  | .tetherBlockLockChange .. => execTetherBlockLockChange_keeps hk
  | .pcieLinkEvent .. => execPcieLinkEvent_keeps hk
  | .ptpEventTransmit .. => execPtpEventTransmit_keeps hk

/-- A step is the front command on the queue's rest, or a tick; either way messages and first-area records are only added, that area stays within its slots, and a sound state stays sound. -/
theorem step_keeps {s t : State} (h : step s = .next t) : s.rcd.first <+: t.rcd.first ∧ (s.rcd.first.length ≤ 2048 → t.rcd.first.length ≤ 2048) ∧ (Sound s → Sound t) := by
  unfold step at h
  split at h
  · cases h
    have hk := edgeWork_keeps (keeps_refl s)
    exact ⟨hk.firstMore, hk.full, fun hs => have sound : Sound (edgeWork s) := keeps_sound hk hs; sound⟩
  · next c rest _ =>
    obtain ⟨z, hz, hk⟩ := exec_keeps c (keeps_refl { s with pending := rest })
    cases hz.symm.trans h
    exact ⟨hk.firstMore, hk.full, fun hs => keeps_sound hk hs⟩

end Sys2Proof.Machine

open Sys2Proof Sys2Proof.Machine

/-- Settles O59: what every operation keeps includes soundness, and a step is one command or one edge's work. -/
theorem stepKeepsSound : Obligations.StepKeepsSound := by
  unfold Obligations.StepKeepsSound
  intro s t hs h
  obtain ⟨-, -, sound⟩ := step_keeps h
  exact sound hs

/-- Settles O60 (R509): the first area only grows, and stays within its 2 048 slots. That commands let no time pass, leave the queue alone and only add to what is sent are choices of the model (logs 1, 2 and 6). -/
theorem firstAreaAndFrame : Obligations.FirstAreaAndFrame := by
  unfold Obligations.FirstAreaAndFrame Claims.FirstAreaWrittenOnce Claims.EveryCommandCompletes
  refine ⟨fun s t h => ?_, fun c s => ?_⟩
  · obtain ⟨more, full, -⟩ := step_keeps h
    exact ⟨more, full⟩
  · obtain ⟨t, ht, hk⟩ := exec_keeps c (keeps_refl s)
    exact ⟨t, ht, hk.pendingEq, hk.nowEq, hk.outMore⟩
end

section
/-! SUPPORT. The commands of each clock domain, by what their operation does: where it is known what the operation makes of the state, it is known how the command ends. -/

namespace Sys2Proof.Machine

/-- A host's command whose operation makes `t` of `s` ends with the work that `t` leaves. -/
theorem onHost_next {f : State → State} {s t : State} (h : hostOpen s = true) (ht : f s = t) :
    (Host.Outcome.next (onHost f s) : Host.Outcome State Fault Refusal) = .next (finish t) := by
  rw [onHost_open h, ht]

/-- A command of the main domain likewise. -/
theorem onMain_next {f : State → State} {s t : State} (h : mainRuns s = true) (ht : f s = t) :
    (Host.Outcome.next (onMain f s) : Host.Outcome State Fault Refusal) = .next (finish t) := by
  rw [onMain_runs h, ht]

/-- A command of the AON domain likewise. -/
theorem onAon_next {f : State → State} {s t : State} (h : s.pwr.aon = true) (ht : f s = t) :
    (Host.Outcome.next (onAon f s) : Host.Outcome State Fault Refusal) = .next (finish t) := by
  rw [onAon_on h, ht]

/-- A command of the rails and resets likewise, at any time. -/
theorem anyTime_next {f : State → State} {s t : State} (ht : f s = t) :
    (Host.Outcome.next (anyTime f s) : Host.Outcome State Fault Refusal) = .next (finish t) := by
  rw [anyTime, ht]

/-- A command of an encoder port likewise, while the main domain runs. -/
theorem atPort_next {f g : State → State} {s t : State} (h : mainRuns s = true) (ht : f s = t) :
    (Host.Outcome.next (atPort f g s) : Host.Outcome State Fault Refusal) = .next (finish t) := by
  rw [atPort_runs h, ht]

end Sys2Proof.Machine
end

section
/-! SUPPORT. A 32-bit access of BAR0 where a register stands (R8 to R10), below the doorbell window and above the MSI-X table. -/

namespace Sys2Proof.Machine

/-- Offsets of BAR0 where registers stand: beyond the MSI-X table, before the doorbells. -/
structure RegOffset (a : Nat) : Prop where
  low : 0x10000 ≤ a
  high : a < 0x2000000

theorem RegOffset.noBell {a : Nat} (h : RegOffset a) : bellOf a = none := if_neg (fun hb => absurd hb.1 (Nat.not_le.mpr h.high))

theorem RegOffset.notMsix {a : Nat} (h : RegOffset a) : ¬ (0x8000 ≤ a ∧ a < 0x10000) := fun hm => absurd hm.2 (Nat.not_lt.mpr h.low)

theorem windowWord_none {s : State} {a : Nat} (h : 0x10000 ≤ a) : windowWord s a = none := by
  unfold windowWord
  rw [if_neg (by omega), if_neg (by omega), if_neg (by omega)]

/-- No register stands at the offset. -/
theorem write32_none {s : State} {a v : Nat} (h : RegOffset a) (hr : regAt a = none) : write32 a v s = s := by
  unfold write32
  rw [h.noBell, hr]
  exact if_neg h.notMsix

/-- A 32-bit register takes effect whole. -/
theorem write32_narrow {s : State} {a v b : Nat} {r : Reg} (h : RegOffset a) (hr : regAt a = some (r, b)) (hw : r.wide = false) :
    write32 a v s = regWrite r b v s := by
  unfold write32
  rw [h.noBell, hr]
  simp only [if_neg h.notMsix, hw, Bool.not_false, if_true]

/-- The low word of a 64-bit register is held. -/
theorem write32_low {s : State} {a v : Nat} {r : Reg} (h : RegOffset a) (hr : regAt a = some (r, a)) (hw : r.wide = true) :
    write32 a v s = { s with held := mput 0 s.held a (BitVec.ofNat 32 v) } := by
  unfold write32
  rw [h.noBell, hr]
  simp only [if_neg h.notMsix, hw, Bool.not_true, Bool.false_eq_true, if_false, if_true]

/-- The high word of a 64-bit register takes effect with the held low word. -/
theorem write32_high {s : State} {a v b : Nat} {r : Reg} (h : RegOffset a) (hr : regAt a = some (r, b)) (hw : r.wide = true) (hb : a ≠ b) :
    write32 a v s = regWrite r b (heldLow s b + 2 ^ 32 * v) s := by
  unfold write32
  rw [h.noBell, hr]
  simp only [if_neg h.notMsix, hw, Bool.not_true, Bool.false_eq_true, if_false, if_neg hb]
  rfl

/-- The bytes of a number, all enabled, spell the number. -/
theorem allBytes_leBytes (n v : Nat) : allBytes ((leBytes n v).map some) = some (v % 256 ^ n) := by
  induction n generalizing v with
  | zero => rw [Nat.pow_zero, Nat.mod_one]; rfl
  | succ n ih =>
    rw [leBytes, List.map_cons, allBytes, ih, Option.map_some, BitVec.toNat_ofNat, show 256 ^ (n + 1) = 256 * 256 ^ n from Nat.pow_succ']
    exact congrArg some Nat.mod_mul.symm

/-- Four enabled bytes at an aligned offset are one 32-bit write. -/
theorem writeSpan_dword {s : State} {a v n : Nat} (ha : a % 4 = 0) (hv : v < 2 ^ 32) : writeSpan (n + 2) a ((leBytes 4 v).map some) s = write32 a v s := by
  have length : ((leBytes 4 v).map some).length = 4 := by rw [List.length_map, length_leBytes]
  have whole : ((leBytes 4 v).map some).take 4 = (leBytes 4 v).map some := List.take_of_length_le length.le
  have nothing : ((leBytes 4 v).map some).drop 4 = [] := List.drop_of_length_le length.le
  have bytes : allBytes ((leBytes 4 v).map some) = some v := by rw [allBytes_leBytes, Nat.mod_eq_of_lt (show v < 256 ^ 4 from hv)]
  rw [writeSpan, if_neg (by simp [leBytes]), if_neg (by omega), if_pos ⟨ha, length.ge⟩, whole, bytes, nothing]
  exact if_pos rfl

/-- REGISTER_WRITE of 32 bits at an aligned offset is that write. -/
theorem registerWrite_dword {s : State} {off v : Nat} (ha : off % 4 = 0) (hv : v < 2 ^ 32) : registerWrite off .dword v s = write32 off v s := writeSpan_dword ha hv

/-- A read of the low word returns it and leaves the high word in the latch, pending. -/
theorem read32_low {s : State} {a : Nat} {r : Reg} (h : 0x10000 ≤ a) (hr : regAt a = some (r, a)) (hw : r.wide = true) :
    read32 s a = (regNow s a % 2 ^ 32, readEffect { s with latch := mput none s.latch a (some (BitVec.ofNat 32 (regNow s a / 2 ^ 32))) } a) := by
  unfold read32
  rw [windowWord_none h, hr]
  simp only [hw, Bool.not_true, Bool.false_eq_true, if_false, if_true]

end Sys2Proof.Machine

open Sys2Proof Sys2Proof.Machine

theorem registerWrites_of_width : Claims.RegisterWrites := by
  unfold Claims.RegisterWrites
  intro s off v hopen halign hlow hhigh
  have at_ : RegOffset off.toNat := ⟨hlow, hhigh⟩
  have dword : ∀ t, write32 off.toNat v.toNat s = t → exec (.registerWrite off .dword (v.zeroExtend 64)) s = .next (finish t) := fun t ht => by
    rw [exec_registerWrite_open hopen, BitVec.toNat_setWidth, Nat.mod_eq_of_lt (by omega), registerWrite_dword halign v.isLt, ht]
  refine ⟨fun hr => dword _ (write32_none at_ hr), fun w => onHost_next hopen rfl, fun r b hr hw => dword _ (write32_narrow at_ hr hw), fun r b hr hw hb => ?_, fun r b hr hw hb => ?_⟩
  · subst hb
    rw [dword _ (write32_low at_ hr hw), BitVec.ofNat_toNat, BitVec.setWidth_eq]
  · exact onHost_next hopen (write32_high ⟨by omega, by omega⟩ hr hw (by omega))

theorem lowReadLatches_pending : Claims.LowReadLatches := by
  unfold Claims.LowReadLatches
  intro s off r b hopen hlow hr hw hb
  refine onHost_next hopen ?_
  subst hb
  unfold reg64LowRead
  rw [read32_low (by omega) hr hw]

/-- Settles O3 (R8 to R10, R12): a 32-bit write reaches the register that stands at its offset, whole or by halves; a read of a low word latches the high one. -/
theorem registerAccess : Obligations.RegisterAccess := ⟨registerWrites_of_width, lowReadLatches_pending⟩
end

section
/-! SUPPORT. Register writes by access code (Table 0-5), bit by bit, and what a write through BAR2 leaves in HBM. -/

namespace Sys2Proof.Machine

/-- Numbers without a common bit add without a carry. -/
theorem add_eq_or {x y : Nat} (h : x &&& y = 0) : x + y = x ||| y := by
  have hx : x < 2 ^ (x + y) := Nat.lt_two_pow_self.trans_le (Nat.pow_le_pow_right (by decide) (Nat.le_add_right x y))
  have hy : y < 2 ^ (x + y) := Nat.lt_two_pow_self.trans_le (Nat.pow_le_pow_right (by decide) (Nat.le_add_left y x))
  have apart : BitVec.ofNat (x + y) x &&& BitVec.ofNat (x + y) y = 0#(x + y) := by
    apply BitVec.eq_of_toNat_eq
    simp [Nat.mod_eq_of_lt hx, Nat.mod_eq_of_lt hy, h]
  have sum := congrArg BitVec.toNat (BitVec.add_eq_or_of_and_eq_zero _ _ apart)
  simpa [Nat.mod_eq_of_lt hx, Nat.mod_eq_of_lt hy, Nat.mod_eq_of_lt (Nat.lt_two_pow_self (n := x + y))] using sum

/-- A number without the bits it has in a mask. -/
theorem testBit_sub_land (a b i : Nat) : (a - Nat.land a b).testBit i = (a.testBit i && !b.testBit i) := by
  change (a - (a &&& b)).testBit i = _
  have disjoint : (a &&& b) &&& (a ^^^ (a &&& b)) = 0 := Nat.eq_of_testBit_eq fun j => by
    simp only [Nat.testBit_and, Nat.testBit_xor, Nat.zero_testBit]
    cases a.testBit j <;> cases b.testBit j <;> rfl
  have whole : (a &&& b) ||| (a ^^^ (a &&& b)) = a := Nat.eq_of_testBit_eq fun j => by
    simp only [Nat.testBit_and, Nat.testBit_or, Nat.testBit_xor]
    cases a.testBit j <;> cases b.testBit j <;> rfl
  have rest : a - (a &&& b) = a ^^^ (a &&& b) := by
    have := add_eq_or disjoint
    rw [whole] at this
    omega
  rw [rest, Nat.testBit_xor, Nat.testBit_and]
  cases a.testBit i <;> cases b.testBit i <;> rfl

/-- The bits of a number with those of a mask taken from another number. -/
theorem testBit_masked (o v m i : Nat) : (o - Nat.land o m + Nat.land v m).testBit i = if m.testBit i then v.testBit i else o.testBit i := by
  have disjoint : (o - Nat.land o m) &&& Nat.land v m = 0 := Nat.eq_of_testBit_eq fun j => by
    rw [Nat.testBit_and, testBit_sub_land]
    change (_ && (v &&& m).testBit j) = _
    rw [Nat.testBit_and, Nat.zero_testBit]
    cases m.testBit j <;> simp
  rw [add_eq_or disjoint, Nat.testBit_or, testBit_sub_land]
  change (_ || (v &&& m).testBit i) = _
  rw [Nat.testBit_and]
  cases m.testBit i <;> simp

/-- A register after a plain write, bit by bit (Table 0-5). -/
theorem getReg_regPut_bit {s : State} {r : Reg} {b v i : Nat} (h : regsWf s = true) (hi : i < 64) (apart : Nat.land r.rw r.w1c = 0) :
    (getReg (regPut r b v s) b).getLsbD i =
      ((if r.rw.testBit i then v.testBit i else (getReg s b).getLsbD i && !(r.w1c.testBit i && v.testBit i)) || (r.w1s.testBit i && v.testBit i)) := by
  have notBoth : (r.rw.testBit i && r.w1c.testBit i) = false := by
    have bit := congrArg (Nat.testBit · i) (show r.rw &&& r.w1c = 0 from apart)
    simpa only [Nat.testBit_and, Nat.zero_testBit] using bit
  unfold regPut
  rw [getReg_setReg_self h, BitVec.getLsbD_ofNat, decide_eq_true hi, Bool.true_and]
  change (_ ||| (v &&& r.w1s)).testBit i = _
  rw [Nat.testBit_or, Nat.testBit_and]
  have cleared : ∀ n, (n - Nat.land (Nat.land n r.w1c) v).testBit i = (n.testBit i && !(r.w1c.testBit i && v.testBit i)) := fun n => by
    have both : Nat.land (Nat.land n r.w1c) v = Nat.land n (Nat.land r.w1c v) := Nat.and_assoc ..
    rw [both, testBit_sub_land]
    exact congrArg (fun x => _ && !x) (Nat.testBit_and ..)
  rw [cleared, testBit_masked, BitVec.testBit_toNat]
  cases hrw : r.rw.testBit i with
  | true =>
    rw [hrw, Bool.true_and] at notBoth
    simp [notBoth, Bool.and_comm]
  | false => simp [Bool.and_comm]

/-- A plain write of a register leaves every other one. -/
theorem getReg_regPut_other {s : State} {r : Reg} {a b v : Nat} (h : regsWf s = true) (hab : a ≠ b) : getReg (regPut r b v s) a = getReg s a := by
  unfold regPut
  exact getReg_setReg_other h hab

/-! A write through BAR2 (R362). -/

theorem hbmWf_of_sound {s : State} (h : Sound s) : hbmWf s = true := h.1
theorem regsWf_of_sound {s : State} (h : Sound s) : regsWf s = true := h.2.1

theorem hbmWf_hbmSet {s : State} {a : Nat} {b : Byte} (h : hbmWf s = true) : hbmWf (hbmSet s a b) = true := by
  obtain ⟨form, below⟩ := (Bool.and_eq_true _ _ ▸ h : mwf (hbmBlank s) s.hbm = true ∧ s.hbm.all (fun c => decide (c.1 < hbmSize)) = true)
  unfold hbmSet
  split
  case isTrue ha => exact (Bool.and_eq_true _ _).mpr ⟨mput_wf (hbmBlank s) s.hbm a b form, mput_all (fun n => decide (n < hbmSize)) _ s.hbm a b below (decide_eq_true ha)⟩
  case isFalse => exact h

/-- Beyond 24 GB every byte reads 0. -/
theorem hbmByte_beyond {s : State} {c : Nat} (h : hbmSize ≤ c) : hbmByte s c = 0 := if_neg (Nat.not_lt.mpr h)

/-- A store of a byte changes HBM alone. -/
theorem hbmSet_frame (s : State) (a : Nat) (b : Byte) : hbmSet s a b = { s with hbm := (hbmSet s a b).hbm } := by
  unfold hbmSet
  split <;> rfl

theorem bar2Write_frame (a : Nat) (l : List (Option Byte)) (s : State) : bar2Write a l s = { s with hbm := (bar2Write a l s).hbm } := by
  induction l generalizing a s with
  | nil => rfl
  | cons x l ih =>
    cases x with
    | none => exact ih _ _
    | some b =>
      rw [bar2Write, ih, hbmSet_frame]

/-- A byte before the write's first address reads as before. -/
theorem hbmByte_bar2Write_before {s : State} (a : Nat) (l : List (Option Byte)) {c : Nat} (h : hbmWf s = true) (hc : c < a) : hbmByte (bar2Write a l s) c = hbmByte s c := by
  induction l generalizing a s with
  | nil => rfl
  | cons x l ih =>
    cases x with
    | none => exact ih _ h (by omega)
    | some b => exact (ih _ (hbmWf_hbmSet h) (by omega)).trans (hbmByte_hbmSet_other h (by omega))

/-- An enabled byte below 24 GB reads as written. -/
theorem hbmByte_bar2Write_enabled {s : State} (a : Nat) (l : List (Option Byte)) {c : Nat} {b : Byte} (h : hbmWf s = true) (hc : a ≤ c) (hb : l[c - a]? = some (some b))
    (size : c < hbmSize) : hbmByte (bar2Write a l s) c = b := by
  induction l generalizing a s with
  | nil => exact absurd hb (by simp)
  | cons x l ih =>
    by_cases first : c = a
    · subst first
      rw [Nat.sub_self, List.getElem?_cons_zero, Option.some.injEq] at hb
      subst hb
      exact (hbmByte_bar2Write_before _ l (hbmWf_hbmSet h) (Nat.lt_succ_self c)).trans (hbmByte_hbmSet_self h size)
    · have next : (x :: l)[c - a]? = l[c - (a + 1)]? := by rw [show c - a = c - (a + 1) + 1 by omega, List.getElem?_cons_succ]
      rw [next] at hb
      cases x with
      | none => exact ih _ h (by omega) hb
      | some => exact ih _ (hbmWf_hbmSet h) (by omega) hb

/-- Every other byte reads as before. -/
theorem hbmByte_bar2Write_other {s : State} (a : Nat) (l : List (Option Byte)) {c : Nat} (h : hbmWf s = true) (hc : ∀ b, a ≤ c → l[c - a]? ≠ some (some b)) :
    hbmByte (bar2Write a l s) c = hbmByte s c := by
  induction l generalizing a s with
  | nil => rfl
  | cons x l ih =>
    have next : ∀ b, a + 1 ≤ c → l[c - (a + 1)]? ≠ some (some b) := fun b hle he => hc b (by omega) (by
      rw [show c - a = c - (a + 1) + 1 by omega, List.getElem?_cons_succ, he])
    cases x with
    | none => exact ih _ h next
    | some b =>
      have apart : c ≠ a := fun e => hc b e.ge (by rw [e, Nat.sub_self, List.getElem?_cons_zero])
      exact (ih _ (hbmWf_hbmSet h) next).trans (hbmByte_hbmSet_other h apart)

/-! Counters set to 0. -/

theorem zeroRegs_frame (l : List Nat) (s : State) : zeroRegs l s = { s with regs := (zeroRegs l s).regs } := by
  induction l generalizing s with
  | nil => rfl
  | cons a l ih => exact ih (setReg s a 0)

theorem regsWf_zeroRegs {l : List Nat} {s : State} (h : regsWf s = true) : regsWf (zeroRegs l s) = true := by
  induction l generalizing s with
  | nil => exact h
  | cons a l ih => exact ih (regsWf_setReg h)

/-- A register reads 0 where it is among those cleared, else as before. -/
theorem getReg_zeroRegs {l : List Nat} {s : State} {a : Nat} (h : regsWf s = true) : getReg (zeroRegs l s) a = if a ∈ l then 0 else getReg s a := by
  induction l generalizing s with
  | nil => rfl
  | cons b l ih =>
    refine (ih (regsWf_setReg h)).trans ?_
    by_cases hl : a ∈ l
    · rw [if_pos hl, if_pos (List.mem_cons_of_mem b hl)]
    · rw [if_neg hl]
      by_cases hb : a = b
      · rw [if_pos (hb ▸ List.mem_cons_self), hb, getReg_setReg_self h]
      · rw [if_neg (List.not_mem_cons_of_ne_of_not_mem hb hl), getReg_setReg_other h hb]

end Sys2Proof.Machine

open Sys2Proof Sys2Proof.Machine

theorem accessCodes_bitwise : Claims.AccessCodes := by
  unfold Claims.AccessCodes
  intro s r b v i hs hi apart
  exact ⟨getReg_regPut_bit (regsWf_of_sound hs) hi apart, fun a ha => getReg_regPut_other (regsWf_of_sound hs) ha⟩

theorem fieldWriteFrame : Claims.FieldWriteFrame := by
  unfold Claims.FieldWriteFrame
  intro s f g v hs hf
  exact ⟨rd_wr_self (regsWf_of_sound hs) hf, rd_wr_other (regsWf_of_sound hs) hf, keeps_sound (wr_keeps (keeps_refl s)) hs⟩

/-- Settles O4 (R13, Table 0-5). -/
theorem accessCodes : Obligations.AccessCodes := ⟨accessCodes_bitwise, fieldWriteFrame⟩

/-- Settles O6 (R362), by induction on the bytes of the write. -/
theorem bar2WriteFrame : Obligations.Bar2WriteFrame := by
  unfold Obligations.Bar2WriteFrame
  intro s a l c hs
  have hw := hbmWf_of_sound hs
  refine ⟨fun b => hbmByte_bar2Write_enabled a l hw, hbmByte_bar2Write_other a l hw, hbmByte_beyond, ?_, ?_, ?_⟩ <;> rw [bar2Write_frame]

theorem counterClears_zero : Claims.CounterClears := by
  unfold Claims.CounterClears
  intro s b l hs hopen idle hl
  have cleared : ∀ {x}, counterClear b s = zeroRegs x s → l = x →
      ∃ t, exec (.counterClearGo b) s = .next t ∧ (∀ a ∈ l, getReg t a = 0) ∧ (∀ a, a ∉ l → getReg t a = getReg s a) ∧ t = { s with regs := t.regs } := fun hx e => by
    subst e
    refine ⟨zeroRegs l s, ?_, fun a ha => ?_, fun a ha => ?_, zeroRegs_frame l s⟩
    · exact (onHost_next hopen hx).trans (congrArg _ (finish_idle (by rw [zeroRegs_frame, idle])))
    · rw [getReg_zeroRegs (regsWf_of_sound hs), if_pos ha]
    · rw [getReg_zeroRegs (regsWf_of_sound hs), if_neg ha]
  cases b with
  | pxe => exact hl.elim
  | lane | frm | mlk | dlv | hep | tth => exact cleared rfl hl

theorem pxeCounterClear : Claims.PxeCounterClear := by
  unfold Claims.PxeCounterClear
  intro s st hs hopen idle
  let l := [0x24, 0x2C].map (0x100000 + 0x100 * st.val + ·)
  have hz : regsWf (zeroRegs l s) = true := regsWf_zeroRegs (regsWf_of_sound hs)
  have lag : ∀ a ∈ l, a ≠ (PXE_STR_LAG_MAX st).a := by
    simp only [l, List.map_cons, List.map_nil, List.mem_cons, List.not_mem_nil, or_false, PXE_STR_LAG_MAX]
    omega
  have zero : ∀ a ∈ l, getReg (wr (zeroRegs l s) (PXE_STR_LAG_MAX st) 0) a = 0 := fun a ha => by
    rw [wr, getReg_setReg_other hz (lag a ha), getReg_zeroRegs (regsWf_of_sound hs), if_pos ha]
  have fits : (PXE_STR_LAG_MAX st).lo + (PXE_STR_LAG_MAX st).w ≤ 64 := Nat.le_of_ble_eq_true rfl
  refine ⟨wr (zeroRegs l s) (PXE_STR_LAG_MAX st) 0, ?_, ?_, ?_, ?_, fun g h24 h2C hg => ?_, ?_⟩
  · have noWork : (wr (zeroRegs l s) (PXE_STR_LAG_MAX st) 0).todo = [] := by rw [wr_todo, zeroRegs_frame, idle]
    exact (onHost_next hopen rfl).trans (congrArg _ (finish_idle noWork))
  · exact zero _ (by simp only [l, List.map_cons, List.mem_cons]; omega)
  · exact zero _ (by simp only [l, List.map_cons, List.mem_cons]; omega)
  · exact rd_wr_self hz fits
  · rw [rd_wr_other hz fits hg]
    unfold rd
    rw [getReg_zeroRegs (regsWf_of_sound hs), if_neg (by simp only [l, List.map_cons, List.map_nil, List.mem_cons, List.not_mem_nil, or_false]; omega)]
  · rw [wr, setReg, zeroRegs_frame]

/-- Settles O9 (R190, Table 10-16): every counter clear is a list of registers set to 0, but for the PXE block's, which also clears a field. -/
theorem counterClears : Obligations.CounterClears := ⟨counterClears_zero, pxeCounterClear⟩
end

section
/-! SUPPORT. An edge of an encoder (R68, R70): the count it moves to, away from the limits and at one. -/

namespace Sys2Proof.Machine

/-- An edge away from the limits moves the trail to the boundary it names. -/
theorem countEdge_inside {s : State} {x : Trail} {neg : Bool} (preset : x.presetAt ≠ some (s.now / 2)) (free : x.satDir = none)
    (low : x.limMin ≤ if neg then trlCount x * 256 else (trlCount x + 1) * 256) (high : (if neg then trlCount x * 256 else (trlCount x + 1) * 256) ≤ x.limMax) :
    countEdge s x neg = ({ x with base := if neg then trlCount x * 256 else (trlCount x + 1) * 256, neg := neg, edgeAt := motNow s, barred := false }, 0, false) := by
  have inside : ¬ ((decide ((if neg then trlCount x * 256 else (trlCount x + 1) * 256) < x.limMin) ||
      decide (x.limMax < if neg then trlCount x * 256 else (trlCount x + 1) * 256)) = true) := by
    rw [Bool.or_eq_true, decide_eq_true_iff, decide_eq_true_iff]
    omega
  unfold countEdge
  rw [if_neg preset, free]
  exact if_neg inside

/-- At a held limit an edge further out is discarded and owed to the shadow. -/
theorem countEdge_heldLimit {s : State} {x : Trail} {neg : Bool} (preset : x.presetAt ≠ some (s.now / 2)) (held : x.satDir = some neg) :
    countEdge s x neg = (x, if neg then 1 else -1, false) := by
  unfold countEdge
  rw [if_neg preset, held]
  cases neg <;> rfl

/-- The count at a boundary that an edge has reached. -/
theorem trlCount_boundary {x : Trail} {c : Int} (hb : x.base = if x.neg then c * 256 else (c + 1) * 256) : trlCount x = c + if x.neg then -1 else 1 := by
  unfold trlCount floorDiv
  rw [hb]
  cases x.neg with
  | true => simp [Int.sub_eq_add_neg]
  | false => simp

end Sys2Proof.Machine

open Sys2Proof Sys2Proof.Machine

/-- Settles O13 (R68, R70): the boundary that an edge reaches lies one count on in its direction. -/
theorem edgeMovesOneCount : Obligations.EdgeMovesOneCount := by
  unfold Obligations.EdgeMovesOneCount
  refine fun s x neg preset => ⟨?_, countEdge_heldLimit preset⟩
  intro free b low high
  rw [countEdge_inside preset free low high]
  exact ⟨trlCount_boundary (x := { x with base := b, neg := neg, edgeAt := motNow s, barred := false }) rfl, rfl, rfl, rfl⟩
end

section
/-! SUPPORT. The mark-lock loop (R231, R232): a mark that is missed, and one that is found where it was predicted. -/

open Sys2Proof Sys2Proof.Machine

/-- A missed mark on the loop of the old recipe, which reports to nobody. -/
theorem missedMark_advances : Claims.MissedMark := by
  unfold Claims.MissedMark
  refine fun s u l hl => ⟨fun locked => ?_, fun coasting within => ?_⟩
  · simp [markMissed, hl, locked, onlyIf]
  · simp [markMissed, hl, coasting, onlyIf, within]

/-- Without an error there is nothing for the gains to correct. -/
theorem markOnTime_advances : Claims.MarkOnTime := by
  unfold Claims.MarkOnTime
  intro s u old sg l
  simp [loopMark, floorDiv]

/-- Settles O25 (R231, R232; that positions run with the sign of travel is log 24). -/
theorem loopOnMarks : Obligations.LoopOnMarks := ⟨missedMark_advances, markOnTime_advances⟩
end

section
/-! SUPPORT. The step (log 1), the edge (log 2), and the host's accesses while it does not reach the device (R384, R506). -/

namespace Sys2Proof.Machine

/-- With nothing waiting a step is a tick. -/
theorem step_idle {s : State} (h : s.pending = []) : step s = .next (tick s) := by
  unfold step
  rw [h]

/-- An edge with which nothing falls due brings nothing of its own. -/
theorem edgeWork_idle {s : State} (h : s.due = []) : edgeWork s = s := by
  unfold edgeWork
  rw [h]
  rfl

end Sys2Proof.Machine

open Sys2Proof Sys2Proof.Machine

theorem emptyQueueTicks : Claims.EmptyQueueTicks := by
  unfold Claims.EmptyQueueTicks
  intro s idle
  have kept := edgeWork_keeps (keeps_refl s)
  refine ⟨tick s, step_idle idle, rfl, kept.pendingEq.trans idle, kept.outMore, fun nothingDue => ?_⟩
  unfold tick
  rw [edgeWork_idle nothingDue]

theorem hostShutOut : Claims.HostShutOut := by
  unfold Claims.HostShutOut
  intro s shut
  have nothing : ∀ f, (Host.Outcome.next (onHost f s) : Host.Outcome State Fault Refusal) = .next s := fun f => congrArg _ (onHost_shut shut)
  exact ⟨fun _ _ _ => nothing _, fun _ => nothing _, fun _ => nothing _, fun _ => nothing _, fun _ => nothing _, fun _ => nothing _⟩

/-- Settles O1. That an empty queue is a tick is log 2; that a host's access does nothing while a reset waits for its flush, beyond R384 and R506, is log 11. -/
theorem stepTakesTheQueue : Obligations.StepTakesTheQueue :=
  ⟨fun s c rest h => by unfold step; rw [h], emptyQueueTicks, fun _ h => finish_idle h, hostShutOut⟩
end

section
/-! SUPPORT. Memory and configuration requests (R355, R361 to R365), by what serves them. -/

namespace Sys2Proof.Machine

/-- What ends before the next Read Completion Boundary is one piece. -/
theorem pieces_one {f size a n : Nat} (hn : 0 < n) (h : a % size + n ≤ size) : pieces (f + 1) size a n = [(a, n)] := by
  have nothing : pieces f size (a + n) 0 = [] := by cases f <;> rfl
  have whole : min n (size - a % size) = n := by omega
  simp only [pieces, if_neg (show ¬ n = 0 by omega), whole, Nat.sub_self, nothing]

/-- Data that fits in one completion goes in one. -/
theorem sendCpl_one {s : State} {st : CplStatus} {off : Nat} {data : List Byte} (hd : 0 < data.length) (h : off % mps s + data.length ≤ mps s) :
    sendCpl s st off data = send s (.completion st data) := by
  have something : data.isEmpty = false := by
    rw [List.isEmpty_eq_false_iff]
    exact List.length_pos_iff.mp hd
  rw [sendCpl, something, if_neg Bool.false_ne_true, pieces_one hd h]
  simp [each]

theorem sendCpl_empty (s : State) (st : CplStatus) (off : Nat) : sendCpl s st off [] = send s (.completion st []) := rfl

theorem length_hbmRead (s : State) (a n : Nat) : (hbmRead s a n).length = n := by simp [hbmRead]

/-- A served read of BAR2 without an error in HBM. -/
theorem memoryRead_bar2 {s : State} {r : ReadReq} (hr : r.space = .bar2) (good : r.ecc = .none) (hs : served s .bar2 r.off.toNat r.len = true) :
    memoryRead r s = sendCpl s .ok r.off.toNat (hbmRead s (bar2Addr s r.off.toNat) r.len) := by
  simp only [memoryRead, hr, good, hs, Bool.not_true, Bool.false_eq_true, if_false, ite_self]

/-- A served read of the Expansion ROM. -/
theorem memoryRead_rom {s : State} {r : ReadReq} (hr : r.space = .rom) (hs : served s .rom r.off.toNat r.len = true) :
    memoryRead r s = sendCpl s .ok r.off.toNat ((List.range r.len).map (fun i => romByte s (r.off.toNat + i))) := by
  simp only [memoryRead, hr, hs, Bool.not_true, Bool.false_eq_true, if_false]

/-- A read that is not served. -/
theorem memoryRead_unserved {s : State} {r : ReadReq} (h : served s r.space r.off.toNat r.len = false) : memoryRead r s = unsupported s false (readHead s r) := by
  simp only [memoryRead, h, Bool.not_false, if_true]

/-- A served write, by its space and whether it is poisoned. -/
theorem memoryWrite_bar2 {s : State} {w : WriteReq} (hw : w.space = .bar2) (good : w.poisoned = false) (hs : served s .bar2 w.off.toNat w.data.length = true) :
    memoryWrite w s = bar2Write (bar2Addr s w.off.toNat) w.data s := by
  simp only [memoryWrite, hw, good, hs, Bool.not_true, Bool.false_eq_true, if_false]

theorem memoryWrite_rom {s : State} {w : WriteReq} (hw : w.space = .rom) (hs : served s .rom w.off.toNat w.data.length = true) : memoryWrite w s = s := by
  simp only [memoryWrite, hw, hs, Bool.not_true, Bool.false_eq_true, if_false]

theorem memoryWrite_poisoned {s : State} {w : WriteReq} (hw : w.space = .bar2 ∨ w.space = .bar0) (bad : w.poisoned = true)
    (hs : served s w.space w.off.toNat w.data.length = true) : memoryWrite w s = poisonedTlp s false (writeHead s w) := by
  rcases hw with hw | hw <;> rw [hw] at hs <;> simp only [memoryWrite, hw, hs, bad, Bool.not_true, Bool.false_eq_true, if_false, if_true]

theorem memoryWrite_unserved {s : State} {w : WriteReq} (h : served s w.space w.off.toNat w.data.length = false) : memoryWrite w s = unsupported s true (writeHead s w) := by
  simp only [memoryWrite, h, Bool.not_false, if_true]

/-- A configuration write that allows no requests, of a dword that none depend on. -/
theorem cfgWrite_quiet {s : State} {o be v : Nat} (closed : mayIssue s = false) (apart : o ∉ [0x04, 0x44, 0x50, 0x60, 0xB0]) :
    cfgWrite s o be v = if 0x248 ≤ o ∧ o < 0x288 then marginRun (laterOnce (cfgPut s o be v) .pump) o else laterOnce (cfgPut s o be v) .pump := by
  have other : ¬ (o = 0x04 ∨ o = 0x44 ∨ o = 0x50 ∨ o = 0x60 ∨ o = 0xB0) := by simpa using apart
  unfold cfgWrite
  simp only [closed, Bool.false_and, Bool.false_eq_true, if_false, Bool.or_eq_true, decide_eq_true_eq]
  rw [if_neg (by tauto)]

end Sys2Proof.Machine

open Sys2Proof Sys2Proof.Machine

theorem memoryRequests_served : Claims.MemoryRequests := by
  unfold Claims.MemoryRequests
  intro s hopen
  refine ⟨fun r hr good hs hpos hfit => ?_, fun r hr good hs hlen => ?_, fun r hr hs hpos hfit => ?_, fun r hs => onHost_next hopen (memoryRead_unserved hs),
    fun w hw good hs => onHost_next hopen (memoryWrite_bar2 hw good hs), fun w hw hs => onHost_next hopen (memoryWrite_rom hw hs),
    fun w hw bad hs => onHost_next hopen (memoryWrite_poisoned hw bad hs), fun w hs => onHost_next hopen (memoryWrite_unserved hs)⟩
  · refine onHost_next hopen ((memoryRead_bar2 hr good hs).trans (sendCpl_one ?_ ?_)) <;> rw [length_hbmRead] <;> assumption
  · refine onHost_next hopen ?_
    rcases hr with hr | hr <;> rw [hr] at hs
    · rw [memoryRead_bar2 hr good hs, hlen]
      exact sendCpl_empty s _ _
    · rw [memoryRead_rom hr hs, hlen]
      exact sendCpl_empty s _ _
  · refine onHost_next hopen ((memoryRead_rom hr hs).trans (sendCpl_one ?_ ?_)) <;> rw [List.length_map, List.length_range] <;> assumption

theorem configRequests_answered : Claims.ConfigRequests := by
  unfold Claims.ConfigRequests
  intro s c hopen
  refine ⟨fun type1 => onHost_next hopen ?_, fun type0 loading => onHost_next hopen ?_, fun type0 loaded read => onHost_next hopen ?_,
    fun type0 loaded write closed apart => onHost_next hopen ?_⟩
  · simp only [configRequest, type1, if_true]
  · simp only [configRequest, type0, loading, Bool.false_eq_true, if_false, Bool.not_false, if_true]
  · simp only [configRequest, type0, loaded, read, Bool.false_eq_true, if_false, Bool.not_true]
  · simp only [configRequest, type0, loaded, write, Bool.false_eq_true, if_false, Bool.not_true, if_true, cfgWrite_quiet closed apart]

/-- Settles O5. The header logs and the AER bits (R365) rest on logs 28 and 29, as lane margining does. -/
theorem hostRequests : Obligations.HostRequests := ⟨memoryRequests_served, configRequests_answered⟩
end

section
/-! SUPPORT. Power of the host's link (R369, R371 to R373, R382). -/

open Sys2Proof Sys2Proof.Machine

theorem masterEnableAndMasks : Claims.MasterEnableAndMasks := by
  unfold Claims.MasterEnableAndMasks
  intro s hopen
  refine ⟨fun may => ⟨onHost_next hopen ?_, onHost_next hopen ?_⟩, fun closed => onHost_next hopen ?_, fun v msix => onHost_next hopen ?_, fun v msi => onHost_next hopen ?_⟩
  · simp only [busMasterClear, setBme, may, b2n, Bool.true_and, Bool.false_eq_true, if_false, Nat.mul_zero, Nat.add_zero]
    cases mayIssue (cfgSet s 4 (cfgDw s 4 - Nat.land (cfgDw s 4) 4)) <;> rfl
  · simp only [powerState, may, b2n, Bool.true_and, if_true, Nat.mul_one]
    cases mayIssue (cfgSet s 0x44 (cfgDw s 0x44 - cfgDw s 0x44 % 4 + 3)) <;> rfl
  · simp only [powerState, closed, Bool.false_and, Bool.false_eq_true, if_false]
    rfl
  · simp only [vectorUnmask, msix]
    rfl
  · simp only [vectorUnmask, msi, if_true]

theorem linkPower : Claims.LinkPower := by
  unfold Claims.LinkPower
  intro s runs
  refine ⟨fun aspm noFlit l0 => onMain_next runs ?_, fun off => onMain_next runs ?_, fun aspm state idle => onMain_next runs ?_, fun off => onMain_next runs ?_⟩
  · simp [l0sIdle, aspm, noFlit, l0]
  · rcases off with off | flit
    · simp [l0sIdle, off]
    · simp [l0sIdle, flit]
  · have awake : (rd s HEP_LINK_LTSSM == 3 || rd s HEP_LINK_LTSSM == 4) = true := by simpa using state
    rcases idle with noWork | ⟨notAcquiring, notDraining⟩
    · simp only [l1Idle, aspm, awake, noWork, Bool.and_false, Bool.or_false, Bool.not_true, Bool.false_eq_true, if_false]
    · simp only [l1Idle, aspm, awake, notAcquiring, beq_false_of_ne notDraining, Bool.false_and, Bool.or_false, Bool.not_true, Bool.false_eq_true, if_false]
  · rcases off with off | ⟨work, active⟩
    · simp [l1Idle, off]
    · simp [l1Idle, work, active]

/-- Settles O7 (R369, R371 to R373, R382). -/
theorem hostPower : Obligations.HostPower := ⟨masterEnableAndMasks, linkPower⟩
end

section
/-! SUPPORT. Enables by the state of their block (Table 2-4). -/

namespace Sys2Proof.Machine

/-- A write of EN = 1 to a DISABLED block is an enable attempt. -/
theorem enableWrite_on {s : State} {b : Block} (free : enLocked s b = false) (disabled : enState s (enAddr b) = 0) :
    enableWrite b true s = enAttempt (wrB s (enEN b) true) b := by
  simp only [enableWrite, free, disabled, Bool.false_eq_true, if_false, if_true]

/-- An attempt whose checks pass, and one whose checks fail. -/
theorem enAttempt_good {s : State} {b : Block} (h : enRefused s b = false) : enAttempt s b = enLoad (wr (enVerdict s false b) (enSTATE b) 1) b := by
  simp only [enAttempt, h, Bool.false_eq_true, if_false]

theorem enAttempt_bad {s : State} {b : Block} (h : enRefused s b = true) : enAttempt s b = enVerdict s true b := by
  simp only [enAttempt, h, if_true]

end Sys2Proof.Machine

open Sys2Proof Sys2Proof.Machine

theorem enableWrites_byState : Claims.EnableWrites := by
  unfold Claims.EnableWrites
  intro s b hopen free
  refine ⟨fun disabled good => onHost_next hopen ?_, fun disabled bad => onHost_next hopen ?_, fun disabled => onHost_next hopen ?_,
    fun quiescing en => onHost_next hopen ?_, fun running => ⟨onHost_next hopen ?_, onHost_next hopen ?_⟩⟩
  · rw [enableWrite_on free disabled, enAttempt_good good]
  · rw [enableWrite_on free disabled, enAttempt_bad bad]
  · simp [enableWrite, free, disabled]
  · simp [enableWrite, free, quiescing]
  · rcases running with h | h <;> simp [enableWrite, free, h]
  · rcases running with h | h <;> simp [enableWrite, free, h]

theorem enableStates_end : Claims.EnableStates := by
  unfold Claims.EnableStates
  intro s b runs
  refine ⟨fun enabling notCamp => onMain_next runs ?_, fun quiescing idle => onMain_next runs ?_⟩
  · cases b with
    | camp c => exact absurd rfl (notCamp c)
    | _ => exact if_pos enabling
  · simp [quiesceComplete, quiescing, idle]

/-- Settles O8 (R58, R572, Tables 2-4 and 2-6). -/
theorem enables : Obligations.Enables := ⟨enableWrites_byState, enableStates_end⟩
end

section
/-! SUPPORT. Stops, drains, the HOLD limit and the routines of CALIBRATE (R46, R48, R410, R571). -/

namespace Sys2Proof.Machine

/-- In DRAIN the first instant at which all has stopped is only marked. -/
theorem stopNow_drain {s : State} (h : mode s = 8) : stopNow s = { s with modeCtl := { s.modeCtl with stopped := true } } := by
  have other : ¬ mode { s with modeCtl := { s.modeCtl with stopped := true } } = 10 := fun e => absurd (h.symm.trans e) (by decide)
  exact if_neg other

/-- Where neither what completed nor what failed is the tether's, the tether takes no part. -/
theorem tether_idle {want d f : Nat} (hd : d.testBit 2 = false) (hf : f.testBit 2 = false) : bitOf (Nat.land want (Nat.lor d f)) 2 = false := by
  have none : (want &&& (d ||| f)).testBit 2 = false := by rw [Nat.testBit_and, Nat.testBit_or, hd, hf, Bool.or_self, Bool.and_false]
  rw [Nat.testBit_eq_decide_div_mod_eq] at none
  exact none

theorem leaveCalibrate_eq {s : State} (h : mode s = 9) : leaveCalibrate s = modeEnter s s.modeCtl.cameFrom mcDone := if_pos h

end Sys2Proof.Machine

open Sys2Proof Sys2Proof.Machine

theorem stopAndDrain_ends : Claims.StopAndDrain := by
  unfold Claims.StopAndDrain
  intro s runs
  refine ⟨fun drain going met => onMain_next runs ?_, fun hold going met => onMain_next runs ?_, fun drain stopped done => onMain_next runs ?_,
    fun drain stopped notDone => onMain_next runs ?_⟩
  · simp [stopReached, drain, going, met, stopNow_drain drain]
  · simp [stopReached, hold, going, met]
  · simp [drainComplete, drain, stopped, done]
  · simp [drainTimeout, drain, stopped, notDone]

theorem holdLimit_cutsShort : Claims.HoldLimit := by
  unfold Claims.HoldLimit
  intro s st runs
  refine ⟨fun finishing begun => onMain_next runs ?_, fun idle => onMain_next runs ?_⟩
  · rcases begun with going | image
    · simp [holdLimit, finishing, going]
    · simp [holdLimit, finishing, image]
  · simp [holdLimit, idle]

theorem calibrateEnds : Claims.CalibrateEnds := by
  intro s done failed m ab runs
  refine ⟨fun cal hd hf x hx => onMain_next runs ?_, fun cal hx hd hf => onMain_next runs ?_, fun other => onMain_next runs ?_⟩
  · have quiet := tether_idle (want := x.cmd.num 0 4) hd hf
    simp only [calibrateRoutineEnd, cal, hx, quiet, bne_self_eq_false, Bool.false_and, Bool.false_eq_true, if_false, onlyIf]
  · subst hd hf
    simp [calibrateRoutineEnd, cal, hx, onlyIf, bitOf, Nat.land, Nat.lor, leaveCalibrate_eq cal]
  · simp [calibrateRoutineEnd, other]

/-- Settles O11 (R46, R48, R165, R410, R571). A CALIBRATE that no command asked for is left at its first row, and the results that the flat-field routine leaves are choices of log 13; the
drain's details are log 14. -/
theorem stopAndDrain : Obligations.StopAndDrain := ⟨stopAndDrain_ends, holdLimit_cutsShort, calibrateEnds⟩
end

section
/-! SUPPORT. Edges and line breaks of an encoder port (R61, R64 to R66, R68). -/

open Sys2Proof Sys2Proof.Machine

theorem pairNum_ne_z {pair : Pair} (h : pair ≠ .z) : pair.num ≠ 2 := by
  cases pair with
  | z => exact absurd rfl h
  | a | b => decide

/-- Settles O12 (R61, R64 to R66, R68). -/
theorem encoderPorts : Obligations.EncoderPorts := by
  intro s p runs
  refine ⟨fun a b counts whole => ⟨fun n0 one decoded => atPort_next runs ?_, fun both => atPort_next runs ?_⟩,
    fun whole pair notZ => atPort_next runs ?_, fun watched whole => atPort_next runs ?_, atPort_next runs rfl, fun pair notZ broken => atPort_next runs ?_⟩
  · have notBoth : (a != rdB s (TRL_PIN_A p) && b != rdB s (TRL_PIN_B p)) = false := by
      revert one
      cases (a != rdB s (TRL_PIN_A p)) <;> cases (b != rdB s (TRL_PIN_B p)) <;> decide
    have notNone : (a == rdB s (TRL_PIN_A p) && b == rdB s (TRL_PIN_B p)) = false := by
      revert one
      cases a <;> cases b <;> cases rdB s (TRL_PIN_A p) <;> cases rdB s (TRL_PIN_B p) <;> decide
    simp only [encoderEdge, counts, whole, notBoth, notNone, decoded, bne_self_eq_false, Bool.or_self, Bool.false_eq_true, if_false, onlyIf]
  · simp only [encoderEdge, counts, whole, both, bne_self_eq_false, Bool.or_self, Bool.false_eq_true, if_false, if_true]
  · simp only [lineBreakEnter, if_neg (pairNum_ne_z notZ), whole, Bool.false_eq_true, if_false]
  · simp only [lineBreakEnter, Pair.num, watched, whole, Bool.not_false, Bool.and_self, if_true]
  · simp only [lineBreakClear, if_neg (pairNum_ne_z notZ), broken, Bool.true_and]
    cases lineBroken (wr s (if pair.num = 0 then TRL_PIN_A_LB p else TRL_PIN_B_LB p) 0) p <;> rfl
end

section
/-! SUPPORT. Index edges, speed windows, standstill and serial ports (R67, R76, R77, R80 to R86). -/

namespace Sys2Proof.Machine

/-- A trail that stands still, once it has a state. -/
theorem trlStill_eq {s : State} {t : Nat} (h : (trl (trlOpen s t) t).mst ≠ .none) :
    trlStill s t = trlMoved (setTrl (serialSettle (trlOpen s t) t
      (let m := move16 (trlOpen s t) t (trlDue (motNow (trlOpen s t)) (trl (trlOpen s t) t)); signBy m.2 (m.1 : Int))) t
      { trl (trlOpen s t) t with st := .still, mst := .still, spd := 0, upds := [], edges := [], winN := 0, lastIv := 0 }) t := if_neg h

/-- A port without samples reads its count from the word and TRL_ABS_OFFSET. -/
theorem serialCount_first {s : State} {p w cw : Nat} (h : (mget ({} : SerialPort) s.ser p).hist = []) :
    serialCount s p w cw = floorDiv (rdI s (TRL_ABS_OFFSET_OFFSET p)) 256 + cw := by
  unfold serialCount
  simp only [h]
  split
  · next h' => cases h'
  · rfl

theorem serialState_first {x : Trail} {q : SerialPort} {moved : Bool} (h : q.hist = []) : serialState x q moved = .starting := by
  unfold serialState
  rw [h]
  rfl

end Sys2Proof.Machine

open Sys2Proof Sys2Proof.Machine

theorem speedAndIndex : Claims.SpeedAndIndex := by
  intro s runs
  refine ⟨fun p => onMain_next runs rfl, fun p => ⟨fun unwatched => onMain_next runs ?_, fun watched first noHome => onMain_next runs ?_⟩,
    fun t ht inc => onMain_next runs ?_, fun t ht some moving => onMain_next runs ?_, fun t some => trlStill_eq some⟩
  · simp only [zIndexEdge, unwatched, Bool.not_true, Bool.not_false, Bool.or_true, if_true]
  · simp only [zIndexEdge, watched, first, noHome, Bool.not_true, Bool.or_self, Bool.false_eq_true, if_false, each, List.foldl_nil]
  · have port : (decide (t.val < 8) && portMode s t == 1) = true := by simp [ht, inc]
    simp only [speedWindowEnd, port, Bool.not_true, Bool.false_eq_true, if_false]
    exact (apply_ite (setTrl (trlSync s t) t) _ _ _).symm
  · have some' : ((trl s t).mst != .none) = true := by simpa using some
    have moving' : ((trl s t).mst != .still) = true := by simpa using moving
    simp only [standstill, ht, some', moving', decide_true, Bool.and_self, if_true]

theorem serialPorts : Claims.SerialPorts := by
  intro s p runs
  refine ⟨fun serial free => onMain_next runs ?_, fun busy => onMain_next runs ?_, fun serial broken w ok ne => onMain_next runs ?_,
    fun w biss whole crc => onMain_next runs ?_, fun w ok biss whole => onMain_next runs ?_, fun serial busy => onMain_next runs ?_,
    fun w ok ne ssi whole gray noHist invalid => onMain_next runs ?_⟩
  · simp only [serialFrameStart, free, Nat.not_lt.mpr serial, decide_false, Option.isSome_none, Bool.or_self, Bool.false_eq_true, if_false]
  · simp only [serialFrameStart, busy, Bool.or_true, if_true]
  · simp only [serialSample, Nat.not_lt.mpr serial, broken, if_false, if_true]
  · simp [serialSample, biss, whole, crc]
  · simp [serialSample, biss, whole]
  · simp only [serialStartTimeout, serial, busy, decide_true, Bool.and_self, if_true]
  · simp [serialSample, ssi, whole, gray, noHist, invalid, serialCount_first, serialState_first, onlyIf]

/-- Settles O14 (R67, R76, R77, R80 to R86). That WORD_BITS and FRAC_BITS are limited to 8..48 and 8, and what a serial trail keeps when it is STILL, are choices of log 16. -/
theorem speedAndSerial : Obligations.SpeedAndSerial := ⟨speedAndIndex, serialPorts⟩
end

section
/-! SUPPORT. Presets, port modes, home and limit inputs, corrections and dividers (R72, R80, R87, R88, R91, R94, R96). -/

namespace Sys2Proof.Machine

/-- Opening a trail to change it lets no time pass. -/
theorem trlOpen_now (s : State) (t : Nat) : (trlOpen s t).now = s.now := (trlOpen_keeps (keeps_refl s)).nowEq

theorem motNow_trlOpen (s : State) (t : Nat) : motNow (trlOpen s t) = motNow s := congrArg (· / 2 * 2) (trlOpen_now s t)

/-- The trail of a port is no ratio of another trail. -/
theorem ratioOn_port (s : State) {t : Nat} (ht : t < 8) : ratioOn s t = false := by
  simp only [ratioOn, isVirtual, decide_eq_false (Nat.not_le.mpr ht), Bool.false_and]

/-- A position within the soft limits is not limited. -/
theorem limited_inside {x : Trail} {p : Int} (low : x.limMin ≤ p) (high : p ≤ x.limMax) : limited x p = p := by
  unfold limited
  rw [if_neg (Int.not_lt.mpr low), if_neg (Int.not_lt.mpr high)]

/-- A preset within the limits of the trail of an incremental port. -/
theorem presetTrail_inside {s : State} {t : Nat} {value : Int} (ht : t < 8) (low : (trl (trlOpen s t) t).limMin ≤ floorDiv value 256 * 256)
    (high : floorDiv value 256 * 256 ≤ (trl (trlOpen s t) t).limMax) (inc : portMode (lanMarkClear (wr (trlOpen s t) (TRL_STATUS_UNTRUSTED t) 0) t) t = 1) :
    presetTrail t value s =
      (let x := trl (trlOpen s t) t
       let y : Trail := { x with base := floorDiv value 256 * 256, neg := x.dir, edgeAt := motNow s, satDir := none, zPrev := none, barred := false, presetAt := some (s.now / 2) }
       later (virtSync (sendCorrection (setTrl (lanMarkClear (wr (trlOpen s t) (TRL_STATUS_UNTRUSTED t) 0) t) t y) t (trlCount y - trlCount x))) (.posStep t)) := by
  have real : (decide (12 ≤ t) || ratioOn s t) = false := by rw [ratioOn_port s ht, decide_eq_false (by omega), Bool.or_self]
  have now : (lanMarkClear (wr (trlOpen s t) (TRL_STATUS_UNTRUSTED t) 0) t).now = s.now := trlOpen_now s t
  have cycle : motNow (lanMarkClear (wr (trlOpen s t) (TRL_STATUS_UNTRUSTED t) 0) t) = motNow s := motNow_trlOpen s t
  simp only [presetTrail, real, ht, decide_true, limited_inside low high, if_neg (Int.not_lt.mpr low), if_neg (Int.not_lt.mpr high), onlyIf, inc, now, cycle, Option.isSome_none,
    Bool.false_eq_true, if_false, if_true, Nat.not_ofNat_le_one, decide_false, Bool.and_false, beq_self_eq_true]

/-- The clear of a trail's mark. -/
theorem untrustedClear_eq {s : State} {t : Nat} (ht : t < 12) (free : ratioOn s t = false) :
    untrustedClear t s = if t < 8 then lanMarkClear (wr s (TRL_STATUS_UNTRUSTED t) 0) t else wr s (TRL_STATUS_UNTRUSTED t) 0 := by
  simp only [untrustedClear, free, decide_eq_false (Nat.not_le.mpr ht), Bool.or_self, Bool.false_eq_true, if_false]

/-- A write of TRL_PORT_CFG that does not begin to watch Z, by what it makes of MODE. -/
theorem portCfgWrite_eq {s : State} {p v : Nat}
    (zEn : rdB s (TRL_PORT_CFG_Z_EN p) = true ∨ rdB (wr (trlOpen s p) ⟨0x41000 + 0x40 * p, 0, 14⟩ v) (TRL_PORT_CFG_Z_EN p) = false) :
    portCfgWrite p v s =
      (let w := wr (trlOpen s p) ⟨0x41000 + 0x40 * p, 0, 14⟩ v
       let u := if rdB w (TRL_PORT_CFG_Z_EN p) then w else wr w (TRL_PIN_Z_LB p) 0
       if portMode w p = portMode s p then u
       else if portMode w p = 0 then trlMoved (setTrl u p { trl u p with base := posNow (trlOpen s p) p, st := .none, mst := .none, spd := 0, upds := [], edges := [] }) p
       else if portMode w p = 1 then
         let x := trl u p
         let c := floorDiv (posNow (trlOpen s p) p) 256
         let s := setTrl u p { x with base := c * 256, neg := false, edgeAt := motNow u, st := .still, mst := .still, spd := 0, upds := [], edges := [], windowM := false, winN := 0, satDir := none }
         let s := wr (wr s (TRL_STATUS_UNTRUSTED p) 1) (LAN_PORT_STATUS_UNTRUSTED p) 1
         trlMoved (sendCorrection s p (c - (rdI s (LAN_SHADOW_SHADOW p) + corrInFlight s p))) p
       else trlMoved (serialStart u p) p) := by
  have notBegun : (!rdB s (TRL_PORT_CFG_Z_EN p) && rdB (wr (trlOpen s p) ⟨0x41000 + 0x40 * p, 0, 14⟩ v) (TRL_PORT_CFG_Z_EN p)) = false := by
    rcases zEn with h | h <;> simp [h]
  simp only [portCfgWrite, notBegun, onlyIf, Bool.false_eq_true, if_false, Bool.not_eq_true']
  cases rdB (wr (trlOpen s p) ⟨0x41000 + 0x40 * p, 0, 14⟩ v) (TRL_PORT_CFG_Z_EN p) <;> rfl

/-- A correction that keeps the shadow within its range is applied whole. -/
theorem shadowTo_inside {s : State} {p : Nat} {v : Int} (high : v ≤ 2 ^ 55 - 1) (low : -(2 ^ 55) ≤ v) : shadowTo s p v = wrI s (LAN_SHADOW_SHADOW p) v := by
  have same : clampInt (-(2 ^ 55)) (2 ^ 55 - 1) v = v := by
    unfold clampInt
    rw [if_neg (Int.not_lt.mpr low), if_neg (Int.not_lt.mpr high)]
  simp only [shadowTo, same, if_true]

/-- A divider whose debt is within its limit drops none of it. -/
theorem divDrop_inside {s : State} {d : Nat} (small : (divTarget s d - (mget ({} : DividerS) s.div d).emitted).natAbs ≤ 65535) : divDrop s d = s := by
  simp only [divDrop, if_neg (Nat.not_lt.mpr small), ite_self]

/-! The limit bits (R88). -/

/-- A limit input's function in TRL_HOME_CFG: 2 the lower limit, 3 the upper. -/
def limitField (x : Nat × Nat) : FRef := if x.2 = 2 then TRL_STATUS_LIMIT_MIN x.1 else TRL_STATUS_LIMIT_MAX x.1

/-- One limit bit of one trail brought to the level of its inputs. -/
def limitStep (s : State) (x : Nat × Nat) : State :=
  let act := limitActive s x.1 x.2
  let s1 := if act = rdB s (limitField x) then s else wrB s (limitField x) act
  if act && !rdB s (limitField x) then later s1 (.gyl (144 + 2 * x.1 + (x.2 - 2)) 0) else s1

/-- The limit bits of all trails, in the order in which they are brought up. -/
def limitBits : List (Nat × Nat) := (List.range 12).flatMap (fun t => [(t, 2), (t, 3)])

theorem limitsFollow_eq (s : State) : limitsFollow s = each limitBits limitStep s := by
  unfold limitBits each
  rw [List.foldl_flatMap]
  rfl

theorem mem_limitBits {x : Nat × Nat} : x ∈ limitBits ↔ x.1 < 12 ∧ (x.2 = 2 ∨ x.2 = 3) := by
  obtain ⟨t, f⟩ := x
  simp only [limitBits, List.mem_flatMap, List.mem_range, List.mem_cons, List.not_mem_nil, or_false, Prod.mk.injEq]
  constructor
  · rintro ⟨a, ha, ⟨rfl, rfl⟩ | ⟨rfl, rfl⟩⟩ <;> omega
  · rintro ⟨ht, rfl | rfl⟩
    · exact ⟨t, ht, .inl ⟨rfl, rfl⟩⟩
    · exact ⟨t, ht, .inr ⟨rfl, rfl⟩⟩

theorem nodup_limitBits : limitBits.Nodup := by decide

theorem limitField_width (x : Nat × Nat) : (limitField x).w = 1 ∧ (limitField x).lo + (limitField x).w ≤ 64 := by
  unfold limitField
  split <;> exact ⟨rfl, Nat.le_of_ble_eq_true rfl⟩

/-- A limit bit's register lies below the home configurations. -/
theorem limitField_low {x : Nat × Nat} (hx : x.1 < 12) : (limitField x).a < 0x41000 := by
  unfold limitField TRL_STATUS_LIMIT_MIN TRL_STATUS_LIMIT_MAX
  split <;> dsimp only <;> omega

/-- Different limit bits do not overlap. -/
theorem limitField_apart {x y : Nat × Nat} (hx : x ∈ limitBits) (hy : y ∈ limitBits) (hxy : x ≠ y) :
    (limitField y).a ≠ (limitField x).a ∨ (limitField y).lo + (limitField y).w ≤ (limitField x).lo ∨ (limitField x).lo + (limitField x).w ≤ (limitField y).lo := by
  obtain ⟨t, f⟩ := x
  obtain ⟨t', f'⟩ := y
  obtain ⟨-, hf⟩ := mem_limitBits.mp hx
  obtain ⟨-, hf'⟩ := mem_limitBits.mp hy
  dsimp only at hf hf'
  have apart : t' ≠ t ∨ f ≠ f' := by
    by_contra h
    push Not at h
    exact hxy (by rw [h.1, h.2])
  rcases hf with rfl | rfl <;> rcases hf' with rfl | rfl <;> simp [limitField, TRL_STATUS_LIMIT_MIN, TRL_STATUS_LIMIT_MAX] <;> omega

/-- A limit bit after its own write. -/
theorem rdB_wrB_self {s : State} {f : FRef} {b : Bool} (h : regsWf s = true) (width : f.w = 1) (fits : f.lo + f.w ≤ 64) : rdB (wrB s f b) f = b := by
  unfold rdB wrB
  rw [rd_wr_self h fits, width]
  cases b <;> rfl

/-- What bringing one limit bit up does to the registers: it writes that bit or nothing. -/
theorem limitStep_regs (s : State) (x : Nat × Nat) :
    (rdB s (limitField x) = limitActive s x.1 x.2 ∧ (limitStep s x).regs = s.regs) ∨ (limitStep s x).regs = (wrB s (limitField x) (limitActive s x.1 x.2)).regs := by
  unfold limitStep
  cases hb : rdB s (limitField x) <;> cases ha : limitActive s x.1 x.2
  · exact .inl ⟨rfl, rfl⟩
  · exact .inr rfl
  · exact .inr rfl
  · exact .inl ⟨rfl, rfl⟩

theorem limitStep_homeLv (s : State) (x : Nat × Nat) : (limitStep s x).homeLv = s.homeLv := by
  unfold limitStep
  cases rdB s (limitField x) <;> cases limitActive s x.1 x.2 <;> rfl

theorem limitStep_todo (s : State) (x : Nat × Nat) : s.todo <+: (limitStep s x).todo := by
  unfold limitStep
  cases rdB s (limitField x) <;> cases limitActive s x.1 x.2
  · exact List.prefix_rfl
  · exact List.prefix_append _ _
  · exact List.prefix_rfl
  · exact List.prefix_rfl

/-- The guyline event of a limit that becomes active. -/
theorem limitStep_event {s : State} {x : Nat × Nat} (now : limitActive s x.1 x.2 = true) (was : rdB s (limitField x) = false) :
    .gyl (144 + 2 * x.1 + (x.2 - 2)) 0 ∈ (limitStep s x).todo := by
  unfold limitStep
  rw [now, was]
  exact List.mem_append_right _ (List.mem_singleton.mpr rfl)

theorem rd_congr {s t : State} (h : t.regs = s.regs) (f : FRef) : rd t f = rd s f := by
  unfold rd getReg
  rw [h]

theorem regsWf_limitStep {s : State} {x : Nat × Nat} (h : regsWf s = true) : regsWf (limitStep s x) = true := by
  rcases limitStep_regs s x with ⟨-, same⟩ | written
  · unfold regsWf
    rw [same]
    exact h
  · unfold regsWf
    rw [written]
    exact regsWf_wr h

/-- A field that the bit does not overlap reads as before. -/
theorem rd_limitStep_apart {s : State} {x : Nat × Nat} {g : FRef} (h : regsWf s = true)
    (hg : g.a ≠ (limitField x).a ∨ g.lo + g.w ≤ (limitField x).lo ∨ (limitField x).lo + (limitField x).w ≤ g.lo) : rd (limitStep s x) g = rd s g := by
  rcases limitStep_regs s x with ⟨-, same⟩ | written
  · exact rd_congr same g
  · exact (rd_congr written g).trans (rd_wr_other h (limitField_width x).2 hg)

/-- The bit itself reads as its inputs say. -/
theorem rdB_limitStep_self {s : State} {x : Nat × Nat} (h : regsWf s = true) : rdB (limitStep s x) (limitField x) = limitActive s x.1 x.2 := by
  rcases limitStep_regs s x with ⟨already, same⟩ | written
  · exact (congrArg (· != 0) (rd_congr same _)).trans already
  · exact (congrArg (· != 0) (rd_congr written _)).trans (rdB_wrB_self h (limitField_width x).1 (limitField_width x).2)

/-- No limit bit tells the home inputs apart. -/
theorem limitActive_limitStep {s : State} {x : Nat × Nat} (h : regsWf s = true) (hx : x ∈ limitBits) (t f : Nat) : limitActive (limitStep s x) t f = limitActive s t f := by
  have low := limitField_low (mem_limitBits.mp hx).1
  have same : ∀ g : FRef, 0x42000 ≤ g.a → rd (limitStep s x) g = rd s g := fun g hg => rd_limitStep_apart h (.inl (by omega))
  unfold limitActive rdB
  rw [limitStep_homeLv]
  simp only [same (TRL_HOME_CFG_TRAIL _) (Nat.le_add_right _ _), same (TRL_HOME_CFG_FUNC _) (Nat.le_add_right _ _), same (TRL_HOME_CFG_POL _) (Nat.le_add_right _ _)]

/-- All the bits of a list brought up, one after another. -/
theorem each_limitStep {l : List (Nat × Nat)} {s : State} (h : regsWf s = true) (hl : ∀ x ∈ l, x ∈ limitBits) (once : l.Nodup) :
    s.todo <+: (each l limitStep s).todo ∧
    (∀ x ∈ limitBits, x ∉ l → rdB (each l limitStep s) (limitField x) = rdB s (limitField x)) ∧
    (∀ x ∈ l, rdB (each l limitStep s) (limitField x) = limitActive s x.1 x.2 ∧
      (limitActive s x.1 x.2 = true → rdB s (limitField x) = false → .gyl (144 + 2 * x.1 + (x.2 - 2)) 0 ∈ (each l limitStep s).todo)) := by
  induction l generalizing s with
  | nil => exact ⟨List.prefix_rfl, fun _ _ _ => rfl, fun _ hx => absurd hx List.not_mem_nil⟩
  | cons y l ih =>
    obtain ⟨hy, hl⟩ := List.forall_mem_cons.mp hl
    obtain ⟨fresh, once⟩ := List.nodup_cons.mp once
    obtain ⟨more, others, own⟩ := ih (regsWf_limitStep h) hl once
    have apart : ∀ x ∈ limitBits, x ≠ y → rdB (limitStep s y) (limitField x) = rdB s (limitField x) := fun x hx hxy =>
      congrArg (· != 0) (rd_limitStep_apart h (limitField_apart hy hx (Ne.symm hxy)))
    refine ⟨(limitStep_todo s y).trans more, fun x hx hxl => ?_, fun x hx => ?_⟩
    · obtain ⟨hxy, hxl⟩ := not_or.mp (mt List.mem_cons.mpr hxl)
      exact (others x hx hxl).trans (apart x hx hxy)
    · by_cases hxy : x = y
      · subst hxy
        exact ⟨(others x hy fresh).trans (rdB_limitStep_self h), fun now was => more.subset (limitStep_event now was)⟩
      · have hxl : x ∈ l := (List.mem_cons.mp hx).resolve_left hxy
        obtain ⟨level, event⟩ := own x hxl
        rw [limitActive_limitStep h hy] at level event
        rw [apart x (hl x hxl) hxy] at event
        exact ⟨level, event⟩

end Sys2Proof.Machine

open Sys2Proof Sys2Proof.Machine

theorem presetsAndPortModes : Claims.PresetsAndPortModes := by
  intro s
  refine ⟨fun t hi hopen ht inc low high => onHost_next hopen (presetTrail_inside ht low high inc), fun t hopen ht free => onHost_next hopen ?_,
    fun t hopen ht free => onHost_next hopen ?_, fun p v hopen zEn => ⟨fun same => onHost_next hopen ?_, fun off was => onHost_next hopen ?_, fun serial changed => onHost_next hopen ?_⟩⟩
  · exact (untrustedClear_eq t.isLt free).trans (if_pos ht)
  · exact (untrustedClear_eq t.isLt free).trans (if_neg (Nat.not_lt.mpr ht))
  · exact (portCfgWrite_eq zEn).trans (if_pos same)
  · exact (portCfgWrite_eq zEn).trans ((if_neg (fun same => was (same.symm.trans off))).trans (if_pos off))
  · exact (portCfgWrite_eq zEn).trans ((if_neg changed).trans ((if_neg (by omega)).trans (if_neg (by omega))))

theorem homesAndDividers : Claims.HomesAndDividers := by
  intro s
  refine ⟨fun i runs home armed real => ⟨fun free => onMain_next runs ?_, fun gated fresh => onMain_next runs ?_⟩, fun i level runs => onMain_next runs rfl,
    fun t hs => ?_, fun p aon high low => onAon_next aon (shadowTo_inside high low), fun d runs on good free debt small gap => onMain_next runs ?_⟩
  · have trail : ¬ 12 ≤ rd s (TRL_HOME_CFG_TRAIL i) := Nat.not_le.mpr real
    have atHome : (decide (rd s (TRL_HOME_CFG_FUNC i) = 1) && rdB s (TRL_HOME_CFG_ARM i) && decide (rd s (TRL_HOME_CFG_TRAIL i) < 12)) = true := by simp [home, armed, real]
    exact (if_pos atHome).trans ((if_neg (by rw [Bool.not_eq_true]; exact free)).trans (if_neg trail))
  · have atHome : (decide (rd s (TRL_HOME_CFG_FUNC i) = 1) && rdB s (TRL_HOME_CFG_ARM i) && decide (rd s (TRL_HOME_CFG_TRAIL i) < 12)) = true := by simp [home, armed, real]
    have new : (trl s (rd s (TRL_HOME_CFG_TRAIL i))).homeZ.contains i.val = false := by simpa using fresh
    refine (if_pos atHome).trans ((if_pos gated).trans ?_)
    exact congrArg (fun z => setTrl _ _ { trl s (rd s (TRL_HOME_CFG_TRAIL i)) with homeZ := z }) (if_neg (by rw [Bool.not_eq_true]; exact new))
  · have h := regsWf_of_sound hs
    obtain ⟨-, -, own⟩ := each_limitStep h (fun _ hx => hx) nodup_limitBits
    rw [limitsFollow_eq]
    obtain ⟨lowLevel, lowEvent⟩ := own (t, 2) (mem_limitBits.mpr ⟨t.isLt, .inl rfl⟩)
    obtain ⟨highLevel, highEvent⟩ := own (t, 3) (mem_limitBits.mpr ⟨t.isLt, .inr rfl⟩)
    refine ⟨lowLevel, highLevel, lowEvent, fun now was => ?_⟩
    have event := highEvent now was
    rwa [show 144 + 2 * (t.val, 3).1 + ((t.val, 3).2 - 2) = 145 + 2 * t.val by dsimp only; omega] at event
  · have works : (!enabled s (0x43000 + 0x10 * d) || divRatioErr s d || divHeld s (mget ({} : DividerS) s.div d)) = false := by rw [on, good, free]; rfl
    have owes : decide (divTarget s d - (mget ({} : DividerS) s.div d).emitted = 0) = false := decide_eq_false debt
    cases last : (mget ({} : DividerS) s.div d).lastAt with
    | none => simp only [dividerEdge, works, divDrop_inside small, owes, last, Bool.or_self, Bool.false_eq_true, if_false]
    | some t =>
      have due : decide (s.now < t + 2 * max 4 (rdC s (TRL_DIV_CFG_MINSP d))) = false := decide_eq_false (Nat.not_lt.mpr (gap t last))
      simp only [dividerEdge, works, divDrop_inside small, owes, last, due, Bool.or_self, Bool.false_eq_true, if_false]

/-- Settles O15 (R72, R80, R87, R88, R91, R94, R96). -/
theorem presetsHomesAndDividers : Obligations.PresetsHomesAndDividers := ⟨presetsAndPortModes, homesAndDividers⟩
end

section
/-! SUPPORT. Time domains and their discipline (R100 to R115), transmit stamps (R117, R118) and pulse generators (R120 to R124). -/

namespace Sys2Proof.Machine

/-- A LOCKED domain that takes a sample it may take, within four times LOCK_NS, from another source than PTP. -/
theorem offsetCore_locked {s : State} {d tau : Nat} {theta : Int} (src : rd s (TMB_DOM_CFG_SRC d) ≠ 0) (notPtp : rd s (TMB_DOM_CFG_SRC d) ≠ 1)
    (good : rdB s (TMB_DOM_STATUS_SRC_ERR d) = false) (locked : rd (wrI s (TMB_DOM_OFFSET_OFFSET d) (satSigned 32 theta)) (TMB_DOM_STATUS_STATE d) = 2)
    (near : theta.natAbs ≤ 4 * (orOne (rd (wrI s (TMB_DOM_OFFSET_OFFSET d) (satSigned 32 theta)) (TMB_DOM_SERVO_LOCK_NS d)) * 256)) :
    offsetCore d theta tau false s =
      (let v := loopStep (wrI s (TMB_DOM_OFFSET_OFFSET d) (satSigned 32 theta)) d theta tau
       setDom v d { domS v d with unlockN := 0 }) := by
  have stays : ¬ 4 * (orOne (rd (wrI s (TMB_DOM_OFFSET_OFFSET d) (satSigned 32 theta)) (TMB_DOM_SERVO_LOCK_NS d)) * 256) < theta.natAbs := Nat.not_lt.mpr near
  simp [offsetCore, src, notPtp, good, locked, stays]

/-- A suspect path holds the loop: the offset shows and nothing else happens. -/
theorem offsetCore_suspect {s : State} {d tau : Nat} {theta : Int} (src : rd s (TMB_DOM_CFG_SRC d) = 1) (good : rdB s (TMB_DOM_STATUS_SRC_ERR d) = false)
    (suspect : rdB s (TMB_PORT_STATUS_PATH_SUSPECT (rd s (TMB_DOM_CFG_PORT d))) = true) :
    offsetCore d theta tau false s = wrI s (TMB_DOM_OFFSET_OFFSET d) (satSigned 32 theta) := by
  simp [offsetCore, src, good, suspect]

end Sys2Proof.Machine

open Sys2Proof Sys2Proof.Machine

theorem domainWrites : Claims.DomainWrites := by
  intro s d hopen
  refine ⟨fun hi => onHost_next hopen rfl, fun hi => onHost_next hopen rfl, fun v => ⟨fun none => onHost_next hopen ?_, fun some refused => onHost_next hopen ?_⟩⟩
  · simp only [domainSrcWrite, none, if_true]
  · simp only [domainSrcWrite, if_neg some, refused, Bool.false_eq_true, if_false]

theorem domainStep : Claims.DomainStep := by
  intro s d raw loop
  refine ⟨fun stepped => ?_, fun fresh => ?_⟩
  · simp only [domStep, onlyIf, stepped, Bool.not_true, Bool.false_eq_true, if_false]
  · simp only [domStep, onlyIf, fresh, Bool.not_false, if_true]

/-- Settles O17 (R100, R101, R103, R106, R107). That a step stands from this edge on, where R101 says the next TIM edge, is log 17. -/
theorem domainWritesAndSteps : Obligations.DomainWritesAndSteps := ⟨domainWrites, domainStep⟩

theorem discipline : Claims.Discipline := by
  intro s d runs
  refine ⟨fun x same src notPtp good locked near => onMain_next runs ?_, fun x same ptp good noDelay => ⟨fun notSlave => onMain_next runs ?_, fun slave suspect => onMain_next runs ?_⟩,
    fun x ptm bme' d0 far => onMain_next runs ?_, fun x ptm bme' d0 near => onMain_next runs ?_, fun state => onMain_next runs ?_, fun n suspect => onMain_next runs (if_pos suspect)⟩
  · simp only [offsetSample, if_neg notPtp, same]
    exact offsetCore_locked src notPtp good locked near
  · have other : (portState s (rd s (TMB_DOM_CFG_PORT d)) == 2) = false := beq_false_of_ne notSlave
    simp only [offsetSample, ptp, noDelay, other, Bool.false_eq_true, if_false, if_true]
  · simp only [offsetSample, ptp, noDelay, slave, same, beq_self_eq_true, if_true]
    exact offsetCore_suspect ptp good suspect
  · simp only [ptmDialogue, ptm, bme', d0, bne_self_eq_false, Bool.not_true, Bool.or_self, Bool.false_eq_true, if_false]
    exact if_pos far
  · simp only [ptmDialogue, ptm, bme', d0, bne_self_eq_false, Bool.not_true, Bool.or_self, Bool.false_eq_true, if_false]
    exact if_neg (Nat.not_lt.mpr near)
  · exact if_pos (by simpa using state)

theorem transmitStamps : Claims.TransmitStamps := by
  intro s n
  refine ⟨fun hopen eth e q queue => onHost_next hopen ?_, fun hopen empty => onHost_next hopen ?_, fun ty seq runs eth en fw up small => ⟨fun may => onMain_next runs ?_, fun mayNot => onMain_next runs ?_⟩⟩
  · simp only [txqRead, eth, if_true, txqIdRead, txqHead, queue]
  · cases eth : ethMode s n with
    | false => simp only [txqRead, eth, Bool.false_eq_true, if_false]
    | true =>
      have queue := empty.resolve_right (by rw [eth]; decide)
      simp only [txqRead, eth, if_true, txqIdRead, txqHead, queue]
  · have ptp : (!ptpRuns s n || decide (4 ≤ ty.toNat)) = false := by simp [ptpRuns, eth, en, fw, up, small]
    simp only [ptpEventTransmit, ptp, Bool.false_eq_true, if_false, onlyIf, decide_eq_true_eq]
    exact if_pos may
  · have ptp : (!ptpRuns s n || decide (4 ≤ ty.toNat)) = false := by simp [ptpRuns, eth, en, fw, up, small]
    simp only [ptpEventTransmit, ptp, Bool.false_eq_true, if_false, onlyIf, decide_eq_true_eq]
    exact if_neg (by rw [Bool.not_eq_true]; exact mayNot)

/-- Settles O18 (R107, R108, R113 to R118; the loop's steering, a held loop and the PTM mean rest on log 17). -/
theorem disciplineAndStamps : Obligations.DisciplineAndStamps := ⟨discipline, transmitStamps⟩

/-- Settles O19 (R120 to R124). -/
theorem generators : Obligations.Generators := by
  intro s g
  refine ⟨fun runs on noTask => ⟨fun single armed onTime due => onMain_next runs ?_, fun single armed late => onMain_next runs ?_,
      fun periodic due => ⟨fun goes => onMain_next runs ?_, fun some done => onMain_next runs ?_⟩, fun periodic notDue => onMain_next runs ?_⟩,
    fun hi hopen => ⟨fun disabled => onHost_next hopen (if_pos disabled), fun on single => onHost_next hopen ?_, fun busy => onHost_next hopen ?_⟩⟩
  · simp only [tpgFire, on, noTask, single, armed, onTime, due, Bool.not_true, Bool.false_eq_true, if_false, Bool.or_true, Bool.and_self, if_true]
  · simp only [tpgFire, on, noTask, single, armed, late, Bool.not_true, Bool.false_eq_true, if_false, Bool.true_or, Bool.and_self, if_true]
  · simp only [tpgFire, on, noTask, periodic, due, Bool.not_true, Bool.false_eq_true, if_false, if_true]
    refine if_neg ?_
    simp only [Bool.and_eq_true, bne_iff_ne, decide_eq_true_eq]
    omega
  · simp only [tpgFire, on, noTask, periodic, due, Bool.not_true, Bool.false_eq_true, if_false, if_true]
    refine if_pos ?_
    simp only [Bool.and_eq_true, bne_iff_ne, decide_eq_true_eq]
    exact ⟨some, done⟩
  · simp only [tpgFire, on, noTask, periodic, notDue, Bool.not_true, Bool.false_eq_true, if_false, if_true]
  · simp only [tpgStartHigh, tpgStartWrite, on, single]
    rfl
  · rcases busy with h | h <;> simp only [tpgStartHigh, tpgStartWrite, h] <;> rfl
end

section
/-! SUPPORT. Stakes: what a firing and a seek do, by the stake's state (R134 to R139, R157). -/

namespace Sys2Proof.Machine

/-- An armed stake that compares fires, is fired late, is skipped, or waits. -/
theorem stakeFire_compares {s : State} {n : Nat} {reads : List MemEcc} (armed : rd s (STK_STATUS_WALK n) = 2) (on : enabled s (stkEn n) = true)
    (real : rd s (STK_CTRL_TRAIL n) < 12) (going : stkBarred s (rd s (STK_CTRL_TRAIL n)) = false) (compares : stkCompares s n = true) :
    stakeFire n reads s =
      (let e := (stk s n).entry.getD (stkEntry s n (stk s n).idx)
       if stkPassed s n then (if rdB s (STK_CTRL_LATE_FIRE n) then stkFire s n e true reads else stkMove (stkSkip s n) n reads)
       else if atOrPast (rdB s (STK_CTRL_DIR n)) (cmp16 s n e.noLead) (rdI s (STK_ARMED_TGT_TGT n)) then stkFire s n e false reads else s) := by
  simp only [stakeFire, armed, on, going, compares, decide_eq_false (Nat.not_le.mpr real), bne_self_eq_false, Bool.not_true, Bool.or_self, Bool.false_eq_true, if_false]

/-- A stake that is not steered, in a region that does not repeat, has no cycle to add. -/
theorem steerVals_free {s : State} {n : Nat} (free : steered s n = false) (once : rd s (STK_CYCLE_CYCLE n) = 0) : steerVals s n = (0, 0) := by
  simp only [steerVals, free, once, Bool.false_eq_true, if_false]

/-- The seek of such a stake, by the first firing ahead. -/
theorem stakeSeekComplete_eq {s : State} {n : Nat} {reads : List MemEcc} (seeking : rd s (STK_STATUS_WALK n) = 1) (on : enabled s (stkEn n) = true)
    (free : steered s n = false) (once : rd s (STK_CYCLE_CYCLE n) = 0) :
    stakeSeekComplete n reads s =
      match seekIn s n (rdB s (STK_CTRL_DIR n)) (if rdB s (STK_CTRL_DIR n) then -rdI s (STK_OFFSET_OFFSET n) else rdI s (STK_OFFSET_OFFSET n)) (cmp16 s n false) (cmp16 s n true)
        (rd s (STK_TBL_LEN_LEN n)) 0 with
      | some (i, k, e) => stkReads n reads (armAt (wrI s (STK_OFFSET_NOW_OFFSET_NOW n) (rdI s (STK_OFFSET_OFFSET n))) n i k e 0 0)
      | none => stkDone s n := by
  have twice : ∀ v : Int, (if rdB s (STK_CTRL_DIR n) = true then -(if rdB s (STK_CTRL_DIR n) = true then -v else v) else if rdB s (STK_CTRL_DIR n) = true then -v else v) = v := by
    intro v
    split <;> simp
  simp only [stakeSeekComplete, seeking, on, free, steerVals_free free once, bne_self_eq_false, Bool.not_true, Bool.or_self, Bool.false_eq_true, if_false, Nat.cast_zero, Int.mul_zero,
    Int.add_zero, Int.sub_zero, twice] <;> rfl

end Sys2Proof.Machine

open Sys2Proof Sys2Proof.Machine

theorem stakeFires : Claims.StakeFires := by
  intro s n
  refine ⟨fun runs null reads => onMain_next runs ?_, fun runs armed on real reads => ⟨fun still => onMain_next runs ?_, fun going compares =>
    ⟨fun ahead met => onMain_next runs ?_, fun ahead short => onMain_next runs ?_, fun passed late => onMain_next runs ?_, fun passed skip => onMain_next runs ?_⟩⟩,
    fun hopen done on => onHost_next hopen ?_⟩
  · simp only [stakeFire, decide_eq_true null, Bool.true_or, if_true, ite_self]
  · rcases still with barred | quiet
    · simp only [stakeFire, barred, Bool.or_true, Bool.true_or, if_true, ite_self]
    · simp only [stakeFire, quiet, Bool.not_false, Bool.or_true, if_true, ite_self]
  · simp only [stakeFire_compares armed on real going compares, ahead, Bool.false_eq_true, if_false]
    exact if_pos met
  · simp only [stakeFire_compares armed on real going compares, ahead, Bool.false_eq_true, if_false]
    exact if_neg (by rw [Bool.not_eq_true]; exact short)
  · simp only [stakeFire_compares armed on real going compares, passed, late, if_true]
  · simp only [stakeFire_compares armed on real going compares, passed, skip, Bool.false_eq_true, if_false, if_true]
    rfl
  · simp only [stakeRearm, done, on]
    rfl

theorem stakeSeeks : Claims.StakeSeeks := by
  intro s n runs seeking on free once
  refine ⟨fun i k e found => ⟨onMain_next runs ?_, fun a xs => onMain_next runs ?_⟩, fun reads none => onMain_next runs ?_⟩
  · rw [stakeSeekComplete_eq seeking on free once, found]
    rfl
  · rw [stakeSeekComplete_eq seeking on free once, found]
    rfl
  · rw [stakeSeekComplete_eq seeking on free once, none]
    rfl

/-- Settles O20 (R134 to R139, R157). -/
theorem stakes : Obligations.Stakes := ⟨stakeFires, stakeSeeks⟩
end

section
/-! SUPPORT. The trigger table's window, trigger pins and CoaXPress triggers (R143, R147, R155, R156, R186). -/

namespace Sys2Proof.Machine

/-- A trigger packet whose time has come, with its delay field in the lane's unit. -/
theorem cxpSend_due {s : State} {n tx : Nat} {rising : Bool} (due : tx ≤ 8 * s.now) :
    cxpSend s n rising tx =
      (let d := 125 * (8 * s.now - tx) / orOne (Config.cxpUnitPs (laneMode s n)).toNat
       let v := send s (.cxpTrigger n rising d)
       addWrap (wr v (STK_CXP_LASTDLY_DELAY n) (delayNs v n d)) (STK_CXP_STATUS_SENT n) 1) := by
  simp only [cxpSend, delayField, onlyIf, decide_eq_false (Nat.not_lt.mpr due), Bool.false_eq_true, if_false, if_neg (Nat.not_lt.mpr due)]

end Sys2Proof.Machine

open Sys2Proof Sys2Proof.Machine

theorem triggerTable : Claims.TriggerTable := by
  intro s hopen
  exact ⟨fun v => onHost_next hopen rfl, fun v => onHost_next hopen rfl, onHost_next hopen rfl⟩

theorem pinsAndUplinks : Claims.PinsAndUplinks := by
  intro s runs
  refine ⟨fun p active fresh => onMain_next runs ?_, fun p v active waits => onMain_next runs ?_, fun n x has low up due => onMain_next runs ?_, fun n x has high up due => onMain_next runs ?_,
    fun n down => ⟨onMain_next runs ?_, onMain_next runs ?_⟩⟩
  · simp only [pinPulseEnd, active, Bool.not_true, Bool.false_eq_true, if_false]
    rw [show (pinS (wr s (STK_TRG_STATUS_ACTIVE p) 0) p).cfgWait = none from fresh]
  · simp only [pinPulseEnd, active, Bool.not_true, Bool.false_eq_true, if_false]
    rw [show (pinS (wr s (STK_TRG_STATUS_ACTIVE p) 0) p).cfgWait = some v from waits]
  · simp only [cxpTriggerSend, has, low, up, Bool.not_true, Bool.or_self, Bool.false_eq_true, if_false, cxpSend_due due]
    rfl
  · simp only [cxpFallSend, has, high, up, decide_eq_true due, Bool.and_self, if_true, cxpSend_due (le_trans (Nat.le_add_right _ _) due)]
    rfl
  · unfold cxpTriggerSend
    split
    · simp only [down, Bool.not_false, Bool.or_true, if_true]
    · rfl
  · unfold cxpFallSend
    split
    · simp only [down, Bool.and_false, Bool.false_eq_true, if_false]
    · rfl

/-- Settles O21 (R143, R147, R155, R156, R186). The delay field's unit, the crossing's lag and the packet kept on a lane that is not UP are choices of log 18. -/
theorem triggerTableAndPins : Obligations.TriggerTableAndPins := ⟨triggerTable, pinsAndUplinks⟩
end

section
/-! SUPPORT. The lanes, the control window of a camera and the raw path (R163 to R187). -/

namespace Sys2Proof.Machine

/-- The cause of a link loss as its record shows it. -/
def lossCode : LossCause → Nat
  | .signal => 0
  | .clock => 1
  | _ => 2

/-- A loss of signal, clock or alignment takes a lane that is UP down (Table 6-2). -/
theorem laneLinkLoss_down {s : State} {n : Nat} {cause : LossCause} (other : cause ≠ .highBer) (t : train s (masterOf s n) = 4) :
    laneLinkLoss n cause s =
      linkErrors (laneDown (addSat (laneAgain s (masterOf s n)) (CAM_CNT_ALIGN_COUNT (masterOf s n)) 1) (masterOf s n) (lossCode cause)) (masterOf s n) 1 := by
  unfold laneLinkLoss
  cases cause with
  | highBer => exact absurd rfl other
  | _ => simp only [lossCode, t, bne_self_eq_false, reduceCtorEq, Bool.false_eq_true, if_false]

/-- An accepted command of the control window (R167). -/
theorem camCtl_accepted {s : State} {n len : Nat} (write : Bool) (idle : rdB s (CAM_CTL_STATUS_BUSY n) = false) (short : 4 ≤ len) (long : len ≤ 256) (dwords : len % 4 = 0)
    (up : rdB s (CAM_LANE_STATUS_UP n) = true) (single : rdB s (CAM_LANE_STATUS_MEMBER n) = false) (cxp : ethMode s n = false) :
    camCtl n write len s =
      (let a := rd s (CAM_CTL_ADDR_ADDR n) % 2 ^ 32
       let u := wr (wr s (CAM_CTL_STATUS_BUSY n) 1) (CAM_CTL_STATUS_ERR n) 0
       let v := setLane u n { lane u n with ctl := some ⟨write, a, len⟩ }
       send v (.camCommand n write a len (if write then ramBytes v (ctlBuf n) len else []))) := by
  simp only [camCtl, idle, up, single, cxp, dwords, decide_eq_false (Nat.not_lt.mpr short), decide_eq_false (Nat.not_lt.mpr long), bne_self_eq_false, Bool.not_true, Bool.or_self,
    Bool.false_and, Bool.false_eq_true, if_false]

/-- A good frame for the port on a running lane is classified (Table 6-5). -/
theorem ethFrameReceive_good {s : State} {n : Nat} {x : EthFrame} (eth : ethMode s n = true) (takes : laneTakes s n = true) (clean : x.codeErrs = 0)
    (mine : macAccepts s n x.dst.toNat = true) (good : x.fcsOk = true) (fits : x.data.length ≤ 9018) (frame : x.kind ≠ .pause) : ethFrameReceive n x s = ethClassify s n x := by
  have none : x.codeErrs.toNat = 0 := by rw [clean]; rfl
  simp only [ethFrameReceive, eth, takes, none, mine, good, frame, decide_eq_false (Nat.not_lt.mpr fits), bne_self_eq_false, onlyIf, Bool.not_true, Bool.or_self, decide_false,
    Bool.false_eq_true, if_false]

end Sys2Proof.Machine

open Sys2Proof Sys2Proof.Machine

theorem laneTraining : Claims.LaneTraining := by
  intro s n runs
  refine ⟨fun t => ⟨fun done disc => onMain_next runs ?_, fun must => onMain_next runs ?_, fun d must fits => onMain_next runs ?_⟩, fun u => rfl, fun t => onMain_next runs ?_,
    fun t free clean => ⟨fun many => onMain_next runs ?_, fun alone => onMain_next runs ?_⟩, fun t eth high => onMain_next runs ?_, fun t => onMain_next runs ?_,
    fun skews t far => onMain_next runs ?_, fun skews t near => onMain_next runs ?_, fun t cause other => onMain_next runs ?_, fun t eth => onMain_next runs ?_, fun t => onMain_next runs ?_⟩
  · simp only [laneSignalDetect, t, done]
    rfl
  · simp only [laneSignalDetect, t, must]
    rfl
  · simp only [laneSignalDetect, t, must, fits]
    rfl
  · simp only [laneNoSignal, t]
    rfl
  · have ready : (ethMode s (masterOf s n) && rdB s (CAM_LANE_STATUS_HIGH_BER (masterOf s n))) = false := by rcases clean with h | h <;> simp [h]
    simp only [laneAligned, t, free, ready, bne_self_eq_false, Bool.or_self, Bool.false_eq_true, if_false, if_pos many]
  · have ready : (ethMode s (masterOf s n) && rdB s (CAM_LANE_STATUS_HIGH_BER (masterOf s n))) = false := by rcases clean with h | h <;> simp [h]
    simp only [laneAligned, t, free, ready, bne_self_eq_false, Bool.or_self, Bool.false_eq_true, if_false, if_neg (Nat.not_lt.mpr alone)]
  · simp only [laneAligned, eth, high, Bool.and_self, Bool.or_true, if_true]
  · simp only [laneAlignTimeout, t]
    rfl
  · have bad : (skews.map BitVec.toNat).all (fun k => decide (k ≤ 4000)) = false := by
      obtain ⟨k, hk, far⟩ := far
      simp only [List.all_eq_false, List.mem_map, decide_eq_true_eq, Nat.not_le]
      exact ⟨_, ⟨k, hk, rfl⟩, far⟩
    simp only [laneDeskewDone, t, bad]
    rfl
  · have good : (skews.map BitVec.toNat).all (fun k => decide (k ≤ 4000)) = true := by
      simp only [List.all_eq_true, List.mem_map, decide_eq_true_eq, forall_exists_index, and_imp]
      rintro _ k hk rfl
      exact near k hk
    simp only [laneDeskewDone, t, good]
    rfl
  · rw [laneLinkLoss_down other t]
    cases cause with
    | highBer => exact absurd rfl other
    | _ => simp only [lossCode]
  · unfold laneLinkLoss
    simp only [eth, decide_eq_true t, Bool.and_self, if_true]
  · simp only [laneRetrainDone, t, if_true]

theorem cameraControl : Claims.CameraControl := by
  intro s n
  refine ⟨fun len hopen idle short long dwords up single cxp => ⟨onHost_next hopen (camCtl_accepted false idle short long dwords up single cxp),
    onHost_next hopen (camCtl_accepted true idle short long dwords up single cxp)⟩, fun len hopen busy => onHost_next hopen ?_, fun code x runs bad up => onMain_next runs ?_,
    fun c code x runs good has => ⟨fun refused => onMain_next runs ?_, fun taken write => onMain_next runs ?_, fun taken read => onMain_next runs ?_, onMain_next runs ?_⟩⟩
  · simp only [camCtl, busy, if_true]
  · simp only [camCtlAnswer, bad, up, Bool.not_false, Bool.and_self, if_true, crcError]
  · simp only [camCtlAnswer, good, has, refused, Bool.not_true, Bool.false_and, Bool.false_eq_true, if_false, if_true]
  · simp only [camCtlAnswer, good, has, taken, write, onlyIf, Bool.not_true, Bool.false_and, Bool.false_eq_true, if_false]
  · simp only [camCtlAnswer, good, has, taken, read, onlyIf, Bool.not_true, Bool.not_false, Bool.false_and, Bool.false_eq_true, if_false, if_true]
  · simp only [camCtlTimeout, has]

theorem rawPath : Claims.RawPath := by
  intro s n
  refine ⟨fun data runs cxp takes => ⟨fun single going => onMain_next runs ?_, fun stops => onMain_next runs ?_, onMain_next runs ?_⟩, fun e q hopen has => onHost_next hopen ?_,
    fun len hopen => ⟨fun free short long eth up other => onHost_next hopen ?_, fun why => onHost_next hopen ?_⟩,
    fun runs => ⟨fun held => onMain_next runs ?_, fun none => onMain_next runs ?_⟩,
    fun x ip runs eth takes clean stops mine good fits arp => onMain_next runs ?_,
    fun x runs eth takes clean going => ⟨fun other good => onMain_next runs ?_, fun mine bad => onMain_next runs ?_, fun mine good fits =>
      ⟨fun ip arp off => onMain_next runs ?_, fun ip arp on own => onMain_next runs ?_, fun ip port p st udp own found => onMain_next runs ?_⟩⟩⟩
  · simp only [cxpEventPacket, cxp, takes, single, going, Bool.not_true, Bool.or_self, Bool.false_eq_true, if_false]
  · simp only [cxpEventPacket, cxp, takes, stops, Bool.not_true, Bool.or_self, Bool.or_true, Bool.false_eq_true, if_false, if_true]
  · simp only [cxpEventPacket, cxp, takes, Bool.not_true, Bool.not_false, Bool.or_self, Bool.false_eq_true, if_false, if_true]
  · simp only [rawRxPop, has, List.drop_succ_cons, List.drop_zero]
  · simp only [rawTxSend, free, eth, up, other, decide_eq_false (Nat.not_lt.mpr short), decide_eq_false (Nat.not_lt.mpr long), Option.isSome_none, Bool.not_true, Bool.or_self,
      Bool.false_eq_true, if_false]
  · refine if_pos ?_
    simp only [Bool.or_eq_true, decide_eq_true_eq, Bool.not_eq_true', or_assoc, Option.isSome_iff_ne_none]
    exact why
  · simp only [gvcpHeartbeat, held, if_true]
  · simp only [gvcpHeartbeat, none, Bool.false_eq_true, if_false]
  · rw [ethFrameReceive_good eth takes clean mine good fits (by rw [arp]; exact fun h => nomatch h)]
    simp only [ethClassify, arp, stops, onlyIf, Bool.not_true, Bool.and_false, Bool.false_eq_true, if_false, if_true, ite_self]
  · have none : x.codeErrs.toNat = 0 := by rw [clean]; rfl
    simp only [ethFrameReceive, eth, takes, none, other, good, onlyIf, bne_self_eq_false, Bool.not_true, Bool.not_false, Bool.or_self, Bool.false_eq_true, if_false, if_true]
  · have none : x.codeErrs.toNat = 0 := by rw [clean]; rfl
    simp only [ethFrameReceive, eth, takes, none, mine, bad, onlyIf, bne_self_eq_false, Bool.not_true, Bool.not_false, Bool.or_self, Bool.false_eq_true, if_false, if_true]
  · rw [ethFrameReceive_good eth takes clean mine good fits (by rw [arp]; exact fun h => nomatch h)]
    simp only [ethClassify, arp, off, going, Bool.false_eq_true, if_false]
  · rw [ethFrameReceive_good eth takes clean mine good fits (by rw [arp]; exact fun h => nomatch h)]
    simp only [ethClassify, arp, on, own, going, onlyIf, beq_self_eq_true, Bool.not_false, Bool.and_self, if_true]
  · rw [ethFrameReceive_good eth takes clean mine good fits (by rw [udp]; exact fun h => nomatch h)]
    simp only [ethClassify, udp, own, if_true, found]

/-- Settles O22 (R163 to R187, Tables 6-2 and 6-5). The FCS as CRC-32, the time of a frame on the wire and the one discovery message are choices of log 19. -/
theorem lanesAndCameraControl : Obligations.LanesAndCameraControl := ⟨laneTraining, cameraControl, rawPath⟩
end

section
/-! SUPPORT. Packets of a stream and the pairing of its lines (R165 to R195). -/

namespace Sys2Proof.Machine

/-- A good packet of a bound stream on a lane alone is delivered at once (R165). -/
theorem cxpStreamPacket_good {s : State} {n st : Nat} {x : CxpPacket} (cxp : cxpMode s n = true) (takes : laneTakes s n = true) (good : x.crcOk = true) (clean : x.codeErrs = 0)
    (known : x.body ≠ .other) (bound : (streamsOf s (masterOf s n)).find? (fun st => rd s (CAM_STR_BIND_SRC_ID st) == x.sid.toNat) = some st) (rec_ : receiving s = true)
    (room : ingressFill s n + x.size.toNat ≤ 65536) (alone : (members s (masterOf s n)).length ≤ 1) : cxpStreamPacket n x s = cxpDeliver s st ⟨n, s.now, true, x⟩ := by
  have none : x.codeErrs.toNat = 0 := by rw [clean]; rfl
  simp only [cxpStreamPacket, cxp, takes, good, none, if_neg known, bound, rec_, decide_eq_true room, if_pos alone, bne_self_eq_false, onlyIf, Bool.not_true, Bool.or_self, Bool.and_self,
    Bool.false_eq_true, if_false, if_true]

/-- A sample within both bounds is at the head of the queue still (R28). -/
theorem dropStale_fresh {x : StreamS} {mx t : Nat} {h : TagSample} {l : List TagSample} (has : x.samples = h :: l) (young : mx = 0 ∨ t - h.at_ ≤ mx * 1000)
    (near : t - h.at_ ≤ 2 * 2 ^ 31) : dropStale mx t x = x := by
  have keep : ((mx != 0 && decide (mx * 1000 < t - h.at_)) || decide (2 * 2 ^ 31 < t - h.at_)) = false := by
    rw [decide_eq_false (Nat.not_lt.mpr near), Bool.or_false]
    rcases young with zero | young
    · rw [zero]; rfl
    · rw [decide_eq_false (Nat.not_lt.mpr young), Bool.and_false]
  simp only [dropStale, has, List.takeWhile_cons, keep, Bool.false_eq_true, if_false, List.getLast?_nil]

/-- A line of a stream without its own strobe has none, whatever its mode. -/
theorem lineStrobe_none {s : State} {st : Nat} (other : rd s (FRM_STR_BIND_SAMPLER st) ≠ 2) : lineStrobe s st = (s, none) := if_pos (bne_iff_ne.mpr other)

/-- A line whose trigger number is known takes that number's sample (R194). -/
theorem lineTake_next {x : StreamS} (open_ : x.nextSeq ≠ x.seq) :
    lineTake x none = (x.samples.find? (fun y => y.seq == x.nextSeq), { x with samples := x.samples.filter (fun y => y.seq != x.nextSeq), nextSeq := (x.nextSeq + 1) % 65536 }) := by
  simp only [lineTake, if_neg open_]

/-- A line of a line-mode stream whose assembly runs, paired where a sample is found or others wait (R194, R195). -/
theorem pairLine_next {s : State} {st : Nat} {r : RxLine} (rec_ : receiving s = true) (act : strActive s st = true) (runs : enState s (frmEn st) = 2) (line : rdB s (CAM_STR_BIND_LINE st) = true)
    (noStrobe : r.strobe = none) :
    let o := staleDrop s st r.at_
    let x := strS o st
    let u := setStr o st { x with samples := x.samples.filter (fun y => y.seq != x.nextSeq), nextSeq := (x.nextSeq + 1) % 65536 }
    x.nextSeq ≠ x.seq → ((x.samples.find? (fun y => y.seq == x.nextSeq)).isNone && (x.samples.filter (fun y => y.seq != x.nextSeq)).isEmpty) = false →
      pairLine s st r = laterOnce (linePass u st r (x.samples.find? (fun y => y.seq == x.nextSeq))) (.judge st) := by
  intro o x u open_ some_
  have mode : lineMode s st = true := line
  simp only [pairLine, rec_, act, runs, mode, noStrobe, lineTake_next open_, x, o, u, beq_self_eq_true, Bool.not_true, Bool.true_or, Bool.false_and, Bool.or_self, Bool.false_eq_true, if_false]
  refine if_neg ?_
  rw [show (_ && _) = false from some_, Bool.false_and]
  exact Bool.false_ne_true

end Sys2Proof.Machine

open Sys2Proof Sys2Proof.Machine

theorem streamPackets : Claims.StreamPackets := by
  intro s runs
  refine ⟨fun n x st cxp takes good clean => ⟨fun other => onMain_next runs ?_, fun bound rec_ room alone =>
    ⟨fun w h head stops => onMain_next runs ?_, fun w h head going => onMain_next runs ?_, fun b data => onMain_next runs ?_⟩⟩,
    fun st b eth has => onMain_next runs ?_, fun st b bs has => onMain_next runs ?_⟩
  · have none : x.codeErrs.toNat = 0 := by rw [clean]; rfl
    simp only [cxpStreamPacket, cxp, takes, good, none, other, bne_self_eq_false, onlyIf, Bool.not_true, Bool.or_self, Bool.false_eq_true, if_false, if_true]
  · rw [cxpStreamPacket_good cxp takes good clean (by rw [head]; exact fun h => nomatch h) bound rec_ room alone]
    simp only [cxpDeliver, head, stops, if_true]
  · rw [cxpStreamPacket_good cxp takes good clean (by rw [head]; exact fun h => nomatch h) bound rec_ room alone]
    simp only [cxpDeliver, head, going, Bool.false_eq_true, if_false]
  · rw [cxpStreamPacket_good cxp takes good clean (by rw [data]; exact fun h => nomatch h) bound rec_ room alone]
    simp only [cxpDeliver, data]
  · simp only [gvspResendWait, eth, has, Bool.not_true, Bool.false_eq_true, if_false]
    rfl
  · simp only [gvspBlockTimeout, has]

theorem linePairing : Claims.LinePairing := by
  intro s st runs
  refine ⟨fun l rec_ act running line other open_ => ⟨fun h found => onMain_next runs ?_, fun some_ none => onMain_next runs ?_⟩, fun x mx t h l has young near => dropStale_fresh has young near,
    fun r y here good line => ?_, fun r rs has => onMain_next runs ?_, fun none => onMain_next runs ?_⟩
  · simp only [cameraLine, lineStrobe_none other, ite_self]
    exact (pairLine_next (r := { lane := rd s (CAM_STR_BIND_LANE st), line := l, at_ := s.now }) rec_ act running line rfl open_ (by rw [found]; rfl)).trans (by rw [found])
  · have absent : (strS (staleDrop s st s.now) st).samples.find? (fun y => y.seq == (strS (staleDrop s st s.now) st).nextSeq) = Option.none :=
      List.find?_eq_none.mpr fun y hy => by rw [beq_iff_eq]; exact none y hy
    have all : (strS (staleDrop s st s.now) st).samples.filter (fun y => y.seq != (strS (staleDrop s st s.now) st).nextSeq) = (strS (staleDrop s st s.now) st).samples :=
      List.filter_eq_self.mpr fun y hy => bne_iff_ne.mpr (none y hy)
    simp only [cameraLine, lineStrobe_none other, ite_self]
    refine (pairLine_next (r := { lane := rd s (CAM_STR_BIND_LANE st), line := l, at_ := s.now }) rec_ act running line rfl open_ ?_).trans (by rw [absent])
    rw [all, List.isEmpty_eq_false_iff.mpr some_, Bool.and_false]
  · have mode : ∀ v : StreamS, lineMode (setStr s st v) st = true := fun _ => line
    simp only [linePass, here, good, mode, onlyIf, Bool.or_self, Bool.or_false, Bool.false_and, Bool.not_true, Bool.not_false, Bool.or_true, Option.isNone_some, Bool.false_eq_true, if_false]
  · simp only [cameraLine, has]
  · simp only [cameraLine, none]

/-- Settles O23 (R28, R165, R166, R175, R182, R185, R194, R195). The oldest block of a stream, the one that a time-out closes, is log 20's. -/
theorem streamLines : Obligations.StreamLines := ⟨streamPackets, linePairing⟩
end

section
/-! Lines reach the cutter, mark reports the motion plane (R193 to R203, R227, R239, R261). -/

namespace Sys2Proof.Machine

/-- A key reads as what was last written to it, in a map of any form, where the value is not the one that is left out. -/
theorem mget_mput_marked {α : Type} [DecidableEq α] (d e : α) (m : List (Nat × α)) {k : Nat} {v : α} (hv : v ≠ e) : mget d (mput e m k v) k = v := by
  induction m with
  | nil => simp only [mput, if_neg hv, mget, if_true]
  | cons y m ih =>
    obtain ⟨a, w⟩ := y
    unfold mput
    split
    · simp only [mget, if_true]
    · next other =>
      split
      · simp only [mget, if_true]
      · next later_ => simp only [mget, if_neg other, if_neg later_, ih]

/-- A stream with a conjunction reads as it was set. -/
theorem frm_setFrm_conj {s : State} {st : Nat} {x : FrmS} {c : ConjS} : frm (setFrm s st { x with conj := some c }) st = { x with conj := some c } :=
  mget_mput_marked _ _ _ fun same => nomatch congrArg FrmS.conj same

end Sys2Proof.Machine

open Sys2Proof Sys2Proof.Machine

/-- Settles O24 (R193, R195, R203, R227, R239, R261). Old lines that wait for the lead copy are a choice of log 21. -/
theorem linesMarksAndLeads : Obligations.LinesMarksAndLeads := by
  intro s runs
  refine ⟨fun st l ls y has sample running line alone young => onMain_next runs ?_, fun u r rs has => onMain_next runs ?_,
    fun st cj h has lead fresh none hat => onMain_next runs ?_, fun st cj xh h has lead fresh at_ hat free => onMain_next runs ?_⟩
  · have en : ∀ v : StreamS, enState (setStr s st v) (frmEn st) = 2 := fun _ => running
    have mode : ∀ v : StreamS, rdB (setStr s st v) (CAM_STR_BIND_LINE st) = true := fun _ => line
    have noConj : ∀ v : StreamS, (frm (setStr s st v) st).conj = none := fun _ => alone
    have fine : ∀ v : StreamS, sampleOld (setStr s st v) (some y) = false := fun _ => young
    simp only [lineAssemble, has, sample, en, mode, noConj, fine, routeLine, onlyIf, beq_self_eq_true, Bool.true_or, Bool.not_true, Bool.false_and, Option.isNone_some, Bool.false_eq_true, if_false]
    rfl
  · simp only [markReportArrive, has] <;> rfl
  · simp only [leadCopyComplete, has, lead, fresh, none, hat, Bool.not_true, Bool.or_self, Bool.false_eq_true, if_false]
  · have free' : ∀ c, (frm (setFrm s st { frm s st with conj := some c }) st).freedX = Option.none := fun c => by rw [frm_setFrm_conj]; exact free
    simp only [leadCopyComplete, has, lead, fresh, at_, hat, free', onlyIf, Bool.not_true, Bool.or_self, Bool.false_eq_true, if_false]
    rfl
end

section
/-! SUPPORT. Commits, withdrawals and hand-overs (R31, R247 to R264, Tables 9-3 and 9-4). -/

namespace Sys2Proof.Machine

/-- Freeing slots leaves the shadow store as it is. -/
theorem shadow_freeSlots (s : State) (st : Nat) : (freeSlots s st).shadow = s.shadow := by
  unfold freeSlots
  exact (apply_ite State.shadow _ _ _).trans (ite_self s.shadow)

theorem shadow_each_freeSlots (l : List Nat) (s : State) : (each l freeSlots s).shadow = s.shadow := by
  unfold each
  induction l generalizing s with
  | nil => rfl
  | cons st l ih => exact (ih _).trans (shadow_freeSlots s st)

/-- A commit that is not late arms the sequencer (R248). -/
theorem armOrLate_inTime {s : State} {a : Armed} (h : isLate s a = false) : armOrLate s a = (arm s a a.kind, true) := by
  simp only [armOrLate, h, Bool.not_false, if_true]

/-- A commit neither of a chain nor following, on a loaded slot with nothing armed, is taken by the mode (Table 9-3). -/
theorem chgCommit_taken {s : State} {v : Nat} (low : 2 ≤ mode s) (high : mode s ≤ 6) (free : rd s CHG_STATUS_PHASE = 0) (kind : bitsOf v 2 1 ≠ 3)
    (loaded : rd s (CHG_RCP_STATE_STATE (rdShadow s CHG_RCP_SLOT)) = 2 ∨ rd s (CHG_RCP_STATE_STATE (rdShadow s CHG_RCP_SLOT)) = 3) (chain : bitOf v 3 = false) (follow : bitOf v 4 = false)
    (fits : commitBudget s = none) :
    let a := captured s (bitsOf v 2 1) false false
    let u := { s with chg := { s.chg with lead := rd s CHG_CONJ_LEAD_LEAD, trail := rd s CHG_CONJ_TRAIL_TRAIL } }
    chgCommit v s = if mode s = 2 ∨ mode s = 3 then handOverNow (arm u a (bitsOf v 2 1)) a (bitsOf v 2 1) else (armOrLate u a).1 := by
  intro a u
  have good : (rd s (CHG_RCP_STATE_STATE (rdShadow s CHG_RCP_SLOT)) == 2 || rd s (CHG_RCP_STATE_STATE (rdShadow s CHG_RCP_SLOT)) == 3) = true := by
    rw [Bool.or_eq_true, beq_iff_eq, beq_iff_eq]
    exact loaded
  simp only [chgCommit, decide_eq_false (show ¬ mode s < 2 by omega), decide_eq_false (show ¬ 8 ≤ mode s by omega), if_neg (show mode s ≠ 7 by omega), free, kind, good, chain, follow, fits,
    bne_self_eq_false, Bool.not_true, decide_false, Bool.or_self, Bool.false_and, Bool.and_false, Bool.false_eq_true, if_false, ite_self, onlyIf, Bool.or_eq_true, decide_eq_true_eq]
  split
  · rfl
  · split <;> rfl

/-- The end of the copy where no write waits (R252, R254). -/
theorem shadowCopyComplete_settled {s : State} (copy : rd s CHG_STATUS_PHASE = 2) (none : s.chg.waiting = []) :
    shadowCopyComplete s =
      if !s.chg.conj then chgDone (mlkConjEnd (framesConjEnd s))
      else if mode s = 4 || mode s = 5 || mode s = 6 then modeEnter (wr { s with modeCtl := { s.modeCtl with cameFrom := mode s } } CHG_STATUS_PHASE 3) 7 mcConj
      else if mode s = 8 || mode s = 10 then wr s CHG_STATUS_PHASE 3
      else chgDone (mlkConjEnd (framesConjEnd s)) := by
  have same : { s with chg := { s.chg with waiting := [] } } = s := by rw [← none]
  unfold shadowCopyComplete
  rw [same, none, copy]
  rfl

end Sys2Proof.Machine

open Sys2Proof Sys2Proof.Machine

theorem commits : Claims.Commits := by
  intro s v hopen
  refine ⟨fun barred => onHost_next hopen ?_, fun conj => onHost_next hopen ?_, fun low high busy => onHost_next hopen ?_, fun low high free bad => onHost_next hopen ?_,
    fun free kind loaded chain follow fits => ⟨fun idle => onHost_next hopen ?_, fun low high inTime => onHost_next hopen ?_⟩⟩
  · refine if_pos ?_
    rw [Bool.or_eq_true, decide_eq_true_eq, decide_eq_true_eq]
    exact barred
  · simp only [chgCommit, conj]
    rfl
  · simp only [chgCommit, decide_eq_false (show ¬ mode s < 2 by omega), decide_eq_false (show ¬ 8 ≤ mode s by omega), if_neg (show mode s ≠ 7 by omega), bne_iff_ne.mpr busy, Bool.or_self,
      Bool.false_eq_true, if_false, if_true]
    rfl
  · have refused : (decide (bitsOf v.toNat 2 1 = 3)
        || !(rd s (CHG_RCP_STATE_STATE (rdShadow s CHG_RCP_SLOT)) == 2 || rd s (CHG_RCP_STATE_STATE (rdShadow s CHG_RCP_SLOT)) == 3)) = true := by
      rw [Bool.or_eq_true, Bool.not_eq_true', ← Bool.not_eq_true, Bool.or_eq_true, beq_iff_eq, beq_iff_eq, decide_eq_true_eq]
      exact bad
    simp only [chgCommit, decide_eq_false (show ¬ mode s < 2 by omega), decide_eq_false (show ¬ 8 ≤ mode s by omega), if_neg (show mode s ≠ 7 by omega), free, refused, bne_self_eq_false,
      Bool.or_self, Bool.false_eq_true, if_false, if_true]
    rfl
  · exact (chgCommit_taken (by omega) (by omega) free kind loaded chain follow fits).trans (if_pos idle)
  · exact ((chgCommit_taken (by omega) high free kind loaded chain follow fits).trans (if_neg (by omega))).trans (by rw [armOrLate_inTime inTime]; rfl)

theorem withdrawals : Claims.Withdrawals := by
  intro s hopen
  refine ⟨fun armed => ⟨onHost_next hopen (if_pos armed), shadow_each_freeSlots _ _⟩, fun late => onHost_next hopen ?_⟩
  refine (if_neg (by omega)).trans (if_pos ?_)
  rw [Bool.or_eq_true, bne_iff_ne, beq_iff_eq]
  rcases late with h | ⟨-, h⟩
  · exact Or.inl (by omega)
  · exact Or.inr h

/-- Settles O26 (R247 to R249, Tables 9-3 and 9-4). -/
theorem commitsAndWithdrawals : Obligations.CommitsAndWithdrawals := ⟨commits, withdrawals⟩

/-- Settles O27 (R31, R251 to R254, R264, Table 9-4). -/
theorem handOvers : Obligations.HandOvers := by
  intro s runs
  refine ⟨fun a armed due => onMain_next runs ?_, fun a armed early => onMain_next runs ?_, fun copy none conj acq => onMain_next runs ?_, fun copy none plain => onMain_next runs ?_,
    fun conj done => onMain_next runs ?_, fun conj open_ => onMain_next runs ?_⟩
  · simp only [handoverCycle, armed, due, if_true]
  · simp only [handoverCycle, armed, early, Bool.false_eq_true, if_false]
  · have acquires : (mode s = 4 || mode s = 5 || mode s = 6) = true := by simpa [or_assoc] using acq
    simp only [shadowCopyComplete_settled copy none, conj, acquires, Bool.not_true, Bool.false_eq_true, if_false, if_true]
  · simp only [shadowCopyComplete_settled copy none, plain, Bool.not_false, if_true]
  · simp only [conjunctionEnd, conj, done, decide_true, Bool.and_self, if_true]
  · simp only [conjunctionLimit, conj, open_, decide_true, Bool.not_false, Bool.and_self, if_true]
end

section
/-! SUPPORT. Chains, rates, watchdogs and self-tests of the pixel engines (R270 to R273, R286 to R290). -/

namespace Sys2Proof.Machine

theorem bitOf_eq_testBit (v k : Nat) : bitOf v k = v.testBit k := by
  rw [bitOf, Nat.testBit_eq_decide_div_mod_eq]
  rfl

end Sys2Proof.Machine

open Sys2Proof Sys2Proof.Machine

/-- Settles O28 (R270 to R273, R286 to R290). That a CHAIN_LINE_PROCESS counts a line, and that a frame's kernels run when its chain is complete, are choices of log 22. -/
theorem chains : Obligations.Chains := by
  intro s runs
  refine ⟨fun st f has on free => onMain_next runs ?_, fun st f x has barred => onMain_next runs ?_, fun st f k has slot => onMain_next runs ?_,
    fun st => ⟨fun within => onMain_next runs ?_, fun above was => onMain_next runs ?_⟩, fun e up => onMain_next runs ?_, fun c failed testing => ⟨_, onMain_next runs ?_, rfl⟩⟩
  · simp only [chainLineProcess, has, on, free, Bool.not_true, Bool.or_self, Bool.false_eq_true, if_false]
  · have stays : (!enabled s (campEn f.cfg.camp) || campWaits s f.cfg.camp) = true := by rcases barred with h | h <;> simp [h]
    simp only [chainLineProcess, has, stays, if_true]
  · simp only [frameChainComplete, has, slot]
  · exact if_neg (Nat.not_lt.mpr within)
  · refine (if_pos above).trans ?_
    simp only [onlyIf, was, Bool.not_true, Bool.false_eq_true, if_false]
  · refine if_pos ?_
    rw [Bool.or_eq_true, beq_iff_eq, beq_iff_eq]
    exact up
  · simp only [campSelfTest, testing, bne_self_eq_false, Bool.false_eq_true, if_false, bitOf_eq_testBit, BitVec.testBit_toNat]
end

section
/-! SUPPORT. Items: where an offer, an admission and a drop end, by the queue's context (R295, R305 to R310). -/

namespace Sys2Proof.Machine

/-- An access without an error only brings the context into the cache (R320). -/
theorem ctxAccess_none (s : State) (q : Nat) : ctxAccess s q .none = (touchCtx s q, false) := by
  unfold ctxAccess
  cases (cached s (qKey s q)).isSome <;> rfl

/-- An offer of an event in a mode with delivery (Table 2-2). -/
theorem mayOffer_event {s : State} (low : 2 ≤ mode s) (on : mode s ≠ 11) : mayOffer s true = true := by
  simp only [mayOffer, decide_eq_false (show mode s ≠ 0 by omega), decide_eq_false (show mode s ≠ 1 by omega), decide_eq_false on, Bool.or_self, Bool.false_eq_true, if_false, ite_self]

/-- An offer of a camp in a mode with acquisition or service (Table 2-2). -/
theorem mayOffer_camp {s : State} (low : 3 ≤ mode s) (on : mode s ≠ 11) : mayOffer s false = true := by
  simp only [mayOffer, decide_eq_false (show mode s ≠ 0 by omega), decide_eq_false (show mode s ≠ 1 by omega), decide_eq_false on, if_neg (show mode s ≠ 2 by omega), Bool.or_self,
    Bool.false_eq_true, if_false]

theorem itemOffer_event {s : State} {o : Offer} {l : List Offer} {e : CtxEcc} (has : s.dlv.ev = o :: l) (low : 2 ≤ mode s) (on : mode s ≠ 11) :
    itemOffer none e s = offerItem { s with dlv := { s.dlv with ev := l } } o e := by
  simp only [itemOffer, has, mayOffer_event low on, Bool.not_true, Bool.false_eq_true, if_false]

theorem itemOffer_camp {s : State} {k : Nat} {o : Offer} {l : List Offer} {e : CtxEcc} (has : mget ([] : List Offer) s.dlv.camp k = o :: l) (low : 3 ≤ mode s) (on : mode s ≠ 11) :
    itemOffer (some k) e s =
      each (List.range 64) (fun s st => if (frm s st).frames.any (fun f => f.complete) then later s (.handOver st) else s)
        (offerItem { s with dlv := { s.dlv with camp := mput [] s.dlv.camp k l } } o e) := by
  simp only [itemOffer, has, mayOffer_camp low on, Bool.not_true, Bool.false_eq_true, if_false]

/-- The items of one queue after its context has been accessed. -/
theorem offerItem_inactive {s : State} {o : Offer} (off : queueActive (touchCtx s o.qid) (queueOf (touchCtx s o.qid) o.qid).ctx = false) :
    offerItem s o .none = releaseItem (addSat (touchCtx s o.qid) DLV_CNT_INACTIVE_COUNT 1) o := by
  simp only [offerItem, ctxAccess_none, off, Bool.not_false, if_true]

theorem offerItem_long {s : State} {o : Offer} (on : queueActive (touchCtx s o.qid) (queueOf (touchCtx s o.qid) o.qid).ctx = true) (long : 0xFFFFFFC0 < o.len) :
    offerItem s o .none = dropItem (touchCtx s o.qid) o.qid o 4 := by
  simp only [offerItem, ctxAccess_none, on, decide_eq_true long, Bool.not_true, Bool.false_eq_true, if_false, if_true]

/-- The buffers that an item asks of its queue (R306): none for an event, and none to be had in a queue without buffers. -/
def bufsFor (x : Queue) (o : Offer) : Option (List (Nat × Nat)) :=
  if !(o.kind != 3) then some [] else if x.ctx.noBuf then none else takeBufs o.len x.descs

/-- The entries that an item and what waits before it need in the ring (R305). -/
def needed (x : Queue) : Nat := 1 + b2n x.gap.isSome + b2n x.flu.isSome

theorem bufsFor_data {x : Queue} {o : Offer} {r : Option (List (Nat × Nat))} (data : o.kind ≠ 3) (buf : x.ctx.noBuf = false) (takes : takeBufs o.len x.descs = r) :
    bufsFor x o = r := by
  simp only [bufsFor, bne_iff_ne.mpr data, buf, takes, Bool.not_true, Bool.false_eq_true, if_false]

section
variable {s : State} {o : Offer} (on : queueActive (touchCtx s o.qid) (queueOf (touchCtx s o.qid) o.qid).ctx = true) (fits : o.len ≤ 0xFFFFFFC0)
include on fits

/-- An item with its buffers, offered to an active queue that does not overwrite (R307, R308). -/
theorem offerItem_takes {l : List (Nat × Nat)} (plain : (queueOf (touchCtx s o.qid) o.qid).ctx.overwrite = false) (takes : bufsFor (queueOf (touchCtx s o.qid) o.qid) o = some l)
    (count : l.length ≤ 65535) :
    let t := touchCtx s o.qid
    let x := queueOf t o.qid
    offerItem s o .none = if freeEntries x < needed x then dropItem t o.qid o 1 else admitItem t o.qid o (some l) := by
  unfold bufsFor at takes
  simp only [offerItem, ctxAccess_none, on, decide_eq_false (Nat.not_lt.mpr fits), plain, takes, if_neg (Nat.not_lt.mpr count), Bool.not_true, Bool.false_eq_true, if_false]
  rfl

/-- An item without its buffers (R308). -/
theorem offerItem_short (plain : (queueOf (touchCtx s o.qid) o.qid).ctx.overwrite = false) (none : bufsFor (queueOf (touchCtx s o.qid) o.qid) o = none)
    (small : (!(queueOf (touchCtx s o.qid) o.qid).ctx.noBuf
      && decide (min (2 ^ (queueOf (touchCtx s o.qid) o.qid).ctx.bqLog) 65535 ≤ (queueOf (touchCtx s o.qid) o.qid).descs.length)) = false) :
    let t := touchCtx s o.qid
    let x := queueOf t o.qid
    offerItem s o .none = dropItem t o.qid o (2 + b2n (!decide (needed x ≤ freeEntries x))) := by
  unfold bufsFor at none
  have room : ∀ a b : Nat, (!decide (a ≤ b)) = decide (b < a) := fun a b => by rw [← decide_not, decide_eq_decide, Nat.not_le]
  simp only [offerItem, ctxAccess_none, on, decide_eq_false (Nat.not_lt.mpr fits), plain, none, small, room, Bool.not_true, Bool.false_eq_true, if_false]
  rfl

/-- An item that fits, offered to an active overwrite queue (R310). -/
theorem offerItem_over (over_ : (queueOf (touchCtx s o.qid) o.qid).ctx.overwrite = true) :
    let t := touchCtx s o.qid
    let x := queueOf t o.qid
    offerItem s o .none =
      if x.flu.isSome && freeEntries x = 0 then dropItem t o.qid o 1
      else if !(o.kind != 3) then admitItem t o.qid o (some [])
      else if x.ctx.noBuf then dropItem t o.qid o 2
      else fetchOwn (admitItem t o.qid o none) o.qid x.ctx.item := by
  simp only [offerItem, ctxAccess_none, on, decide_eq_false (Nat.not_lt.mpr fits), over_, Bool.not_true, Bool.false_eq_true, if_false, if_true]

end

end Sys2Proof.Machine

open Sys2Proof Sys2Proof.Machine

theorem admission : Claims.Admission := by
  intro s runs
  refine ⟨fun o l has low on_ => ⟨fun off => onMain_next runs ?_, fun on long => onMain_next runs ?_,
    fun on fits plain => ⟨fun event room => onMain_next runs ?_, fun event room => onMain_next runs ?_, fun data none => onMain_next runs ?_,
      fun bufs data buf takes count => ⟨fun room => onMain_next runs ?_, fun room => onMain_next runs ?_⟩, fun data buf short small => onMain_next runs ?_⟩,
    fun on fits over_ => ⟨fun flu full => onMain_next runs ?_, fun flu event => onMain_next runs ?_, fun flu data none => onMain_next runs ?_, fun flu data buf => onMain_next runs ?_⟩⟩,
    fun k o l has low on_ => onMain_next runs ?_⟩
  rotate_right
  · exact itemOffer_camp has low on_
  all_goals refine (itemOffer_event has low on_).trans ?_
  · exact offerItem_inactive off
  · exact offerItem_long on long
  · exact (offerItem_takes on fits plain (if_pos (by rw [event]; rfl)) (Nat.zero_le _)).trans (if_neg (Nat.not_lt.mpr (of_decide_eq_true room)))
  · exact (offerItem_takes on fits plain (if_pos (by rw [event]; rfl)) (Nat.zero_le _)).trans (if_pos (Nat.not_le.mp (of_decide_eq_false room)))
  · exact offerItem_short on fits plain ((if_neg (by rw [bne_iff_ne.mpr data]; exact Bool.false_ne_true)).trans (if_pos none)) (by rw [none]; rfl)
  · exact (offerItem_takes on fits plain (bufsFor_data data buf takes) count).trans (if_neg (Nat.not_lt.mpr (of_decide_eq_true room)))
  · exact (offerItem_takes on fits plain (bufsFor_data data buf takes) count).trans (if_pos (Nat.not_le.mp (of_decide_eq_false room)))
  · exact offerItem_short on fits plain (bufsFor_data data buf short) (by rw [decide_eq_false (Nat.not_le.mpr small), Bool.and_false])
  · exact (offerItem_over on fits over_).trans (if_pos (by rw [flu, decide_eq_true full]; rfl))
  · exact (offerItem_over on fits over_).trans ((if_neg (by rw [flu]; exact Bool.false_ne_true)).trans (if_pos (by rw [event]; rfl)))
  · exact (offerItem_over on fits over_).trans ((if_neg (by rw [flu]; exact Bool.false_ne_true)).trans
      ((if_neg (by rw [bne_iff_ne.mpr data]; exact Bool.false_ne_true)).trans (if_pos none)))
  · exact (offerItem_over on fits over_).trans ((if_neg (by rw [flu]; exact Bool.false_ne_true)).trans
      ((if_neg (by rw [bne_iff_ne.mpr data]; exact Bool.false_ne_true)).trans (if_neg (by rw [buf]; exact Bool.false_ne_true))))

theorem gapsAreNumbered : Claims.GapsAreNumbered := by
  intro s q o
  refine fun plain flu => ⟨fun reason => ⟨fun gap => ?_, fun n f r gap => ?_⟩, fun bufs n f r gap => ?_⟩
  · simp only [dropItem, flu, plain, gap, countDrop, onlyIf, Bool.false_eq_true, if_false]
  · simp only [dropItem, flu, plain, gap, countDrop, onlyIf, Bool.false_eq_true, if_false]
  · simp only [admitItem, flu, gap, Option.map_some, Option.getD_some, List.nil_append, List.append_assoc, List.cons_append]

/-- Settles O29 (R295, R305 to R310). The drop behind a FLUSHED entry of an overwrite queue, BCI at admission and the late read of an own descriptor are choices of log 25. -/
theorem admissionAndGaps : Obligations.AdmissionAndGaps := ⟨admission, gapsAreNumbered⟩

theorem frontEntriesAreWritten : Claims.EntriesAreWritten := by
  intro s q runs on
  refine ⟨fun o num bufs idx rest has fits => onMain_next runs ?_, fun y plain => ?_, fun y num data plain => ?_, fun o num bufs idx rest a has => onMain_next runs ?_,
    ⟨fun miss => onMain_next runs ?_, fun w a hit => onMain_next runs ?_⟩,
    fun n f r rest plain has => onMain_next runs ?_, fun n f r plain none gap up room => onMain_next runs ?_, fun n f b cut rest has => onMain_next runs ?_,
    fun n f b cut none flu room => onMain_next runs ?_⟩
  · simp only [itemWritten, itemWrite, on, has, fits, Bool.not_true, Bool.false_eq_true, if_false]
  · simp only [skipDropped, plain, Bool.false_eq_true, if_false]
  · simp only [overItem, plain, Bool.false_and, Bool.false_eq_true, if_false]
  · simp only [itemWritten, itemReady, on, has, Bool.and_self, if_true]
  · simp only [itemWritten, ctxAccess, miss, Option.isSome_none, contextFault]
  · simp only [itemWritten, ctxAccess, hit, Option.isSome_some, contextFault]
  · simp only [ellipsisWrite, on, plain, has, Bool.not_true, Bool.or_self, Bool.false_eq_true, if_false]
  · simp only [ellipsisWrite, on, plain, none, gap, up, decide_eq_true room, decide_true, Bool.and_self, Bool.not_true, Bool.or_self, Bool.false_eq_true, if_false, if_true]
  · simp only [flushedWrite, on, has, Bool.not_true, Bool.false_eq_true, if_false]
  · simp only [flushedWrite, on, none, flu, if_pos room, Bool.not_true, Bool.false_eq_true, if_false]

theorem entryAtProducerIndex : Claims.EntryAtProducerIndex := by
  intro s q
  refine ⟨fun pos k entry => ⟨fun quiet => ?_, fun armed => ?_⟩, fun x k => rfl, fun plain => ⟨fun o num nbuf idx => ?_, fun n f b cut => ?_⟩, fun n f r => rfl⟩
  · exact if_neg (by rw [quiet]; exact Bool.false_ne_true)
  · exact if_pos armed
  · simp only [writeItemEntry, plain, Bool.false_eq_true, if_false]
  · simp only [writeFlushed, plain, Bool.false_eq_true, if_false]

/-- Settles O30 (R299, R300, R308 to R314, R323, Table 11-3). The fault of a context or staging-page error in any state, and the address its record names, are choices of log 25. -/
theorem entriesAreWritten : Obligations.EntriesAreWritten := ⟨frontEntriesAreWritten, entryAtProducerIndex⟩
end

section
/-! SUPPORT. The queue-context window's commands, and doorbells (R294, R297, R298, R312, R313, R320). -/

namespace Sys2Proof.Machine

/-- A command on a context that is read without an error runs on it. -/
theorem qcmdOn_none (s : State) (q : Nat) (f : State → State) : qcmdOn s q .none f = f (touchCtx s q) := by
  simp only [qcmdOn, ctxAccess_none, Bool.false_eq_true, if_false]

/-- A command on a context that cannot be read ends with RESULT 2. -/
theorem qcmdOn_failed {s : State} {q : Nat} {e : CtxEcc} (failed : (ctxAccess s q e).2 = true) (f : State → State) : qcmdOn s q e f = qcmdEnd (ctxAccess s q e).1 2 := if_pos failed

end Sys2Proof.Machine

open Sys2Proof Sys2Proof.Machine

theorem queueCommands : Claims.QueueCommands := by
  intro s q hopen
  refine ⟨onHost_next hopen (qcmdOn_none ..), onHost_next hopen (qcmdOn_none ..), onHost_next hopen (qcmdOn_none ..), fun busy => onHost_next hopen ((qcmdOn_none ..).trans ?_),
    fun off pin full => onHost_next hopen ((qcmdOn_none ..).trans ?_), fun off fits => onHost_next hopen ((qcmdOn_none ..).trans ?_),
    fun quits => onHost_next hopen ((qcmdOn_none ..).trans ?_), fun on other => onHost_next hopen ((qcmdOn_none ..).trans ?_), fun off bad => onHost_next hopen ((qcmdOn_none ..).trans ?_),
    fun off good pin full => onHost_next hopen ((qcmdOn_none ..).trans ?_), fun off good fits => onHost_next hopen ((qcmdOn_none ..).trans ?_),
    fun e failed => ⟨onHost_next hopen (qcmdOn_failed failed _), onHost_next hopen (qcmdOn_failed failed _), onHost_next hopen (qcmdOn_failed failed _),
      onHost_next hopen (qcmdOn_failed failed _), onHost_next hopen (qcmdOn_failed failed _)⟩⟩
  · exact if_pos (bne_iff_ne.mpr busy)
  · simp only [off, pin, full, bne_self_eq_false, Bool.and_self, Bool.false_eq_true, if_false, if_true]
  · have free : ((ctxOf (fun i => rd (touchCtx s q) (DLV_QWIN_DATA i))).pin && pinFull (touchCtx s q) q) = false := by rcases fits with h | h <;> simp [h]
    simp only [off, free, bne_self_eq_false, Bool.false_eq_true, if_false]
  · exact if_pos quits
  · exact (if_neg other).trans (if_pos (bne_iff_ne.mpr on))
  · simp only [off, bad, bne_self_eq_false, Bool.false_eq_true, if_false, if_true, OfNat.zero_ne_ofNat]
  · simp only [off, good, pin, full, bne_self_eq_false, Bool.and_self, Bool.false_eq_true, if_false, if_true, OfNat.zero_ne_ofNat]
  · have free : ((queueOf (touchCtx s q) q).ctx.pin && pinFull (touchCtx s q) q) = false := by rcases fits with h | h <;> simp [h]
    simp only [off, good, free, bne_self_eq_false, Bool.false_eq_true, if_false, OfNat.zero_ne_ofNat]

theorem doorbells : Claims.Doorbells := by
  intro s
  refine ⟨fun q lo hi hopen => ⟨fun fresh room => onHost_next hopen ?_, fun fresh full => onHost_next hopen ?_, fun waits => onHost_next hopen ?_⟩, fun runs none => onMain_next runs ?_,
    fun b l runs has good => ⟨fun off => onMain_next runs ?_, fun on => onMain_next runs ?_⟩⟩
  · cases lo <;> cases hi <;> simp only [queueDoorbell, fresh, if_pos room, Bool.false_eq_true, if_false, Option.map]
  · cases lo <;> cases hi <;> simp only [queueDoorbell, fresh, if_neg (Nat.not_lt.mpr full), Bool.false_eq_true, if_false, Option.map]
  · cases lo <;> cases hi <;> simp only [queueDoorbell, waits, if_true, Option.map]
  · simp only [doorbellApply, none]
  · simp only [doorbellApply, has, applyBell, good, ctxAccess_none, bne_iff_ne.mpr off, if_true]
  · simp only [doorbellApply, has, applyBell, good, ctxAccess_none, on, bne_self_eq_false, Bool.false_eq_true, if_false] <;> rfl

/-- Settles O31 (R294, R297, R298, R312, R313, R320, Table 11-6). That a full FIFO applies its oldest doorbell first is log 26's. -/
theorem queueCommandsAndDoorbells : Obligations.QueueCommandsAndDoorbells := ⟨queueCommands, doorbells⟩
end

section
/-! SUPPORT. Notification FIFOs, DMA channels and completions (R316 to R347, R377 to R381). -/

namespace Sys2Proof.Machine

/-- Where the drain of the reads is shown, no channel's work changes. -/
theorem dma_drainShow (s : State) (c : Nat) : dma (drainShow s) c = dma s c := by
  unfold drainShow
  split <;> rfl

theorem dma_laterOnce (s : State) (t : Todo) (c : Nat) : dma (laterOnce s t) c = dma s c := by
  unfold laterOnce
  split <;> rfl

/-- The end of a descriptor whose bytes have been moved, by what its reads of memory showed (R332, R346). -/
theorem dmaComplete_clean {s : State} {c : DmaIx} {st : Bool} {addr : Nat} (moved : dmaMoved s c = true) :
    dmaComplete ⟨c, .none⟩ .none st addr s =
      if (dma s c).barrier && !inHbm (dma s c).dst && (dma s c).bytes != 0 then
        wantRead (setDma s c { dma s c with stage := 4 }) (.dmaBarrier c) (lowAddr (dma s c).dst + (dma s c).bytes - 1) 0
      else dmaFinish s c .none := by
  simp only [dmaComplete, moved, Bool.not_true, Bool.false_eq_true, if_false, ite_self]

end Sys2Proof.Machine

open Sys2Proof Sys2Proof.Machine

/-- Settles O33 (R316, R317, R324). -/
theorem groupsAndResume : Obligations.GroupsAndResume := by
  intro s g
  refine ⟨fun hopen q l has => onHost_next hopen ?_, fun hopen none => onHost_next hopen ?_, fun runs none => onMain_next runs ?_, fun runs quiet => onMain_next runs ?_,
    fun runs waits => onMain_next runs ?_, fun hopen barred => onHost_next hopen ?_, fun hopen may held => onHost_next hopen ?_⟩
  · simp only [groupRead, groupFifoRead, groupFifoWord, has, List.isEmpty_cons, List.drop_succ_cons, List.drop_zero, Bool.false_eq_true, if_false]
  · simp only [groupRead, groupFifoRead, groupFifoWord, none, List.isEmpty_nil, if_true]
  · simp only [groupHoldoffEnd, none]
  · simp only [groupHoldoffEnd, quiet, Bool.false_eq_true, if_false]
  · simp only [groupHoldoffEnd, waits, if_true]
  · have stays : (!mayIssue s || s.dlv.resumed) = true := by rcases barred with h | h <;> simp [h]
    simp only [deliveryResume, stays, if_true]
  · simp only [deliveryResume, may, held, Bool.not_true, Bool.or_self, Bool.false_eq_true, if_false] <;> rfl

theorem channelControl : Claims.ChannelControl := by
  intro s c hopen
  refine ⟨fun on idle free => onHost_next hopen ?_, fun off => onHost_next hopen ?_, fun on idle blocked => onHost_next hopen ?_, fun on active => onHost_next hopen ?_,
    fun on parked free => onHost_next hopen ?_, fun on halted => onHost_next hopen ?_, fun v => ⟨fun on takes => onHost_next hopen ?_, fun refused => onHost_next hopen ?_⟩,
    fun stopped on drained may => onHost_next hopen ?_, fun refused => onHost_next hopen ?_, fun drained => onHost_next hopen ?_, fun drains => onHost_next hopen ?_⟩
  · simp only [dmaDoorbell, on, idle, free, Bool.not_true, Bool.false_eq_true, if_false]
  · simp only [dmaDoorbell, off, Bool.not_false, if_true]
  · simp only [dmaDoorbell, on, idle, blocked, Bool.not_true, Bool.false_eq_true, if_false, if_true]
  · simp only [dmaDoorbell, on, active, Bool.not_true, Bool.false_eq_true, if_false]
  · simp only [dmaDoorbell, on, parked, free, Bool.not_true, Bool.false_eq_true, if_false]
  · simp only [dmaDoorbell, on, Bool.not_true, Bool.false_eq_true, if_false]
    split
    · omega
    · omega
    · omega
    · rfl
  · refine if_pos ?_
    rw [Bool.and_eq_true, Bool.or_eq_true, Bool.or_eq_true, beq_iff_eq, beq_iff_eq, beq_iff_eq, or_assoc]
    exact ⟨on, takes⟩
  · refine if_neg ?_
    rw [Bool.and_eq_true, Bool.or_eq_true, Bool.or_eq_true, beq_iff_eq, beq_iff_eq, beq_iff_eq, or_assoc]
    rintro ⟨on, takes⟩
    have takes : rd s (DMA_CH_STATUS_RUN c) = 0 ∨ rd s (DMA_CH_STATUS_RUN c) = 3 ∨ rd s (DMA_CH_STATUS_RUN c) = 4 := takes
    rcases refused with off | active | parked
    · exact Bool.false_ne_true (off.symm.trans on)
    · omega
    · omega
  · refine if_pos ?_
    simpa [on, drained, may] using stopped
  · refine if_neg ?_
    rw [Bool.and_eq_true, Bool.and_eq_true, Bool.and_eq_true, Bool.or_eq_true, beq_iff_eq, beq_iff_eq, Bool.not_eq_true']
    rintro ⟨⟨⟨stopped, -⟩, drained⟩, may⟩
    rcases refused with ⟨n3, n4⟩ | drains | off
    · exact stopped.elim n3 n4
    · exact Bool.false_ne_true (drained.symm.trans drains)
    · exact Bool.false_ne_true (off.symm.trans may)
  · simp only [engineHaltClear, drained, Bool.false_eq_true, if_false]
  · simp only [engineHaltClear, drains, if_true]

theorem descriptorsComplete : Claims.DescriptorsComplete := by
  intro s c runs
  refine ⟨fun addr st moved plain => ⟨onMain_next runs ?_, fun reads => onMain_next runs ?_, fun moves => onMain_next runs ?_⟩, fun addr st moved barrier host moves => onMain_next runs ?_,
    fun tag r has who keep stage => onMain_next runs ?_⟩
  · refine (dmaComplete_clean moved).trans (if_neg ?_)
    rcases plain with h | h | h <;> simp [h]
  · simp only [dmaComplete, moved, reads, Bool.not_true, Bool.false_eq_true, if_false]
  · simp only [dmaComplete, moved, beq_eq_false_iff_ne.mpr moves, Bool.not_true, Bool.false_eq_true, if_false, if_true]
  · refine (dmaComplete_clean moved).trans (if_pos ?_)
    rw [barrier, host, bne_iff_ne.mpr moves]
    rfl
  · have found : s.hep.tags.find? (fun p => p.2.who == .dmaBarrier c) = some (tag, r) := by rw [has, List.find?_cons_of_pos (by rw [who]; exact beq_self_eq_true _)]
    have gone : s.hep.tags.filter (fun p => p.1 != tag) = [] := by rw [has, List.filter_cons_of_neg (by simp), List.filter_nil]
    have same : ∀ h : Endpoint, (dma { s with hep := h } c).stage = 4 := fun _ => stage
    simp only [barrierComplete, found, keep, gone, dmaBarrierDone, dma_drainShow, dma_laterOnce, same, Bool.false_eq_true, if_false, if_true]

/-- Settles O34 (R332 to R347, Table 12-3; log 27). -/
theorem dmaChannels : Obligations.DmaChannels := ⟨channelControl, descriptorsComplete⟩

/-- Settles O35 (R323, R344, R377 to R381). The bits of the error registers and what the header log holds are log 28's. -/
theorem completions : Obligations.Completions := by
  intro s tag runs
  refine ⟨fun x r has => ⟨fun ok whole => onMain_next runs ?_, fun ok piece => onMain_next runs ?_, fun ur => onMain_next runs ?_, fun ab => onMain_next runs ?_,
    fun bad => onMain_next runs ?_, onMain_next runs ?_⟩, fun x none => ⟨fun fresh => onMain_next runs ?_, fun late => onMain_next runs ?_⟩, onMain_next runs rfl⟩
  · simp only [completionReceive, has, ok, if_pos whole]
  · simp only [completionReceive, has, ok, if_neg (Nat.not_le.mpr piece)]
  · simp only [completionReceive, has, ur]
  · simp only [completionReceive, has, ab]
  · simp only [completionReceive, has, bad]
  · simp only [completionTimeout, has]
  · simp only [completionReceive, none, strayCompletion, fresh, Bool.false_eq_true, if_false]
  · simp only [completionReceive, none, strayCompletion, late, if_true]
end

section
/-! Resets and boot (R383, R506, R530 to R533). -/

open Sys2Proof Sys2Proof.Machine

theorem resets : Claims.Resets := by
  intro s
  refine ⟨fun runs free => ⟨anyTime_next (if_neg ?_), anyTime_next ?_, anyTime_next ?_⟩, fun aon main reset good => ⟨fun up hold => anyTime_next ?_, fun role wid free => anyTime_next ?_⟩,
    fun role wid running => anyTime_next (if_neg ?_)⟩
  · rw [show mainRuns { s with pwr := { s.pwr with perst := true } } = true from runs, free]
    exact Bool.false_ne_true
  · refine (if_pos runs).trans (if_neg ?_)
    rw [show mainRuns { s with pwr := { s.pwr with hold := true } } = true from runs, free]
    exact Bool.false_ne_true
  · refine (if_pos runs).trans ((if_pos runs).trans (if_neg ?_))
    rw [show mainRuns { wr s HEP_LINK_DL_UP 0 with pwr := { (wr s HEP_LINK_DL_UP 0).pwr with hold := true } } = true from runs, show (wr s HEP_LINK_DL_UP 0).modeCtl = s.modeCtl from rfl, free]
    exact Bool.false_ne_true
  · simp only [resetHoldEnd, tryBoot, aon, main, reset, good, up, hold, Bool.and_self, Bool.not_false, if_true]
  · simp only [perstDeassert, tryBoot, aon, main, reset, good, free, Bool.and_self, Bool.not_false, if_true]
  · simp only [running, Bool.and_false, Bool.false_and, Bool.false_eq_true, not_false_eq_true]

theorem boots : Claims.Boots := by
  intro s runs
  refine ⟨fun x up stopped => onMain_next runs ?_, fun boot going => ⟨fun x fresh => onMain_next runs ?_, fun a b e => onMain_next runs ?_⟩, fun boot held rom => onMain_next runs ?_⟩
  · simp only [bootComplete, fwStopped, runs, decide_eq_true up, stopped, Bool.not_false, Bool.and_self, if_true, servesNow]
  · simp only [bootComplete, fwStopped, bootReady, runs, boot, going, decide_eq_true fresh, Nat.not_ofNat_le_one, decide_false, Bool.and_false, Bool.false_and, beq_self_eq_true, Bool.not_false,
      Bool.not_true, Bool.and_self, Bool.false_eq_true, if_false, servesNow]
  · simp only [bootFail, runs, boot, going, beq_self_eq_true, Bool.not_false, Bool.not_true, Bool.and_self, Bool.false_eq_true, if_false]
  · simp only [qspiRelease, held, rom, Bool.and_self, if_true]

/-- Settles O37 (R383, R506, R530 to R533; log 30). -/
theorem resetAndBoot : Obligations.ResetAndBoot := ⟨resets, boots⟩
end

section
/-! SUPPORT. Mailbox doorbells, what the MP checks of a command, and responses (R387 to R404, R419). -/

namespace Sys2Proof.Machine

/-- The MP with its first doorbell taken. -/
def mpPop (s : State) (rest : List Nat) : State := { s with mp := { s.mp with order := rest } }

/-- What the MP does with the command of a mailbox whose doorbell it has taken. -/
def mpNext (s : State) (m : Nat) (sig : Option SigFact) : State :=
  match headerFault s m with
  | some o => respond s (cmdOf s m) 2 o []
  | none =>
    if m = 6 && isManager s && !rdB s MBX_FW_STATUS_ROM then forward s (cmdOf s m) else
    match opInfo (cmdOf s m).op with
    | none => respond s (cmdOf s m) 1 0 []
    | some (cls, needs) =>
      if rdB s MBX_FW_STATUS_ROM && !romOp (cmdOf s m).op then respond s (cmdOf s m) stNotAllowed (mode s) []
      else checkCommand s (cmdOf s m) cls needs sig

/-- The MP takes the first mailbox in doorbell order (R395). -/
theorem mpTake_next {s : State} {sig : Option SigFact} {m : Nat} {rest : List Nat} (ready : rdB s MBX_FW_STATUS_READY = true) (free : s.mp.cur = none) (has : s.mp.order = m :: rest) :
    mpTake sig s = mpNext (mpPop s rest) m sig := by
  refine (if_neg (by rw [ready, free]; exact Bool.false_ne_true)).trans ?_
  rw [has]
  rfl

theorem mpNext_badHeader {s : State} {m o : Nat} {sig : Option SigFact} (bad : headerFault s m = some o) : mpNext s m sig = respond s (cmdOf s m) 2 o [] := by
  simp only [mpNext, bad]

section
variable {s : State} {m : Nat} {sig : Option SigFact} (good : headerFault s m = none) (here : m ≠ 6 ∨ isManager s = false ∨ rdB s MBX_FW_STATUS_ROM = true)
include good here

theorem mpNext_unknown (none : opInfo (cmdOf s m).op = none) : mpNext s m sig = respond s (cmdOf s m) 1 0 [] := by
  have own : (decide (m = 6) && isManager s && !rdB s MBX_FW_STATUS_ROM) = false := by rcases here with h | h | h <;> simp [h]
  simp only [mpNext, good, own, none, Bool.false_eq_true, if_false]

theorem mpNext_known {cls : Nat} {needs : Bool} (known : opInfo (cmdOf s m).op = some (cls, needs)) :
    mpNext s m sig = if rdB s MBX_FW_STATUS_ROM && !romOp (cmdOf s m).op then respond s (cmdOf s m) stNotAllowed (mode s) [] else checkCommand s (cmdOf s m) cls needs sig := by
  have own : (decide (m = 6) && isManager s && !rdB s MBX_FW_STATUS_ROM) = false := by rcases here with h | h | h <;> simp [h]
  simp only [mpNext, good, own, known, Bool.false_eq_true, if_false]

theorem mpNext_checked {cls : Nat} {needs : Bool} (known : opInfo (cmdOf s m).op = some (cls, needs)) (may : rdB s MBX_FW_STATUS_ROM = false ∨ romOp (cmdOf s m).op = true) :
    mpNext s m sig = checkCommand s (cmdOf s m) cls needs sig := by
  refine (mpNext_known good here known).trans (if_neg ?_)
  rcases may with h | h <;> simp [h]

end

section
variable {s : State} {c : MpCmd} {cls : Nat} {needs : Bool} {sig : Option SigFact} (may : serves c.m cls = true) (manages : c.op ≠ 0x0600 ∨ isManager s = true)
include may manages

/-- A command that its mailbox may carry, without a signature (R401). -/
theorem checkCommand_unsigned (unsigned : bitOf (atBytes (cmdHeader s c.m) 6 2) 0 = false) :
    checkCommand s c cls needs sig =
      if needs then respond s c 6 0 []
      else if modeForbids s c.op then respond s c stNotAllowed (mode s) []
      else if c.par.length != lengthOf c then respond s c 3 (lengthOf c) []
      else { s with mp := { s.mp with cur := some { c with key := 2 ^ 32 } } } := by
  have own : (decide (c.op = 0x0600) && !isManager s) = false := by
    rcases manages with h | h
    · rw [decide_eq_false h]; rfl
    · rw [h, Bool.not_true, Bool.and_false]
  cases needs <;>
    simp only [checkCommand, authenticate, may, own, unsigned, Bool.not_true, Bool.not_false, Bool.false_and, Bool.false_eq_true, if_false, if_true, Nat.add_zero]

/-- A signed command meets the lock first, then what its signature shows (R402 to R404). -/
theorem checkCommand_signed (signed : bitOf (atBytes (cmdHeader s c.m) 6 2) 0 = true) (room : 104 ≤ atBytes (cmdHeader s c.m) 4 2) :
    let plen := atBytes (cmdHeader s c.m) 4 2
    let key := atBytes (ramBytes s (cmdBuf c.m) (16 + plen)) (16 + plen - 104) 4
    let v := { s with mp := { s.mp with nonces := mput none s.mp.nonces c.m none } }
    let w := { v with mp := { v.mp with fails := 0, lock := none } }
    checkCommand s c cls needs sig =
      if lockedMs s != 0 then respond v c 8 (lockedMs s) []
      else if authDetail s c.m key sig != 0 then respond (authFailed v c.m c.op (authDetail s c.m key sig)) c 7 (authDetail s c.m key sig) []
      else if modeForbids w c.op then respond w c stNotAllowed (mode w) []
      else if c.par.length != lengthOf c then respond w c 3 (lengthOf c + 104) []
      else { w with mp := { w.mp with cur := some { c with key := key } } } := by
  intro plen key v w
  have own : (decide (c.op = 0x0600) && !isManager s) = false := by
    rcases manages with h | h
    · rw [decide_eq_false h]; rfl
    · rw [h, Bool.not_true, Bool.and_false]
  simp only [checkCommand, authenticate, may, own, signed, decide_eq_true room, Bool.not_true, Bool.and_self, Bool.false_eq_true, if_false, if_true]
  by_cases lock : (lockedMs s != 0) = true
  · rw [if_pos lock, if_pos lock]
  · rw [if_neg lock, if_neg lock]
    by_cases fails : (authDetail s c.m key sig != 0) = true
    · rw [if_pos fails, if_pos fails]
    · rw [if_neg fails, if_neg fails]

end

end Sys2Proof.Machine

open Sys2Proof Sys2Proof.Machine

theorem mailboxDoorbells : Claims.MailboxDoorbells := by
  intro s m hopen
  refine ⟨fun own idle => onHost_next hopen ?_, fun refused => onHost_next hopen ?_, fun own busy other => onHost_next hopen ?_, fun w q own busy six fwd => onHost_next hopen ?_,
    fun w q => rfl, fun foreign => onHost_next hopen ?_, fun own done => onHost_next hopen ?_, fun refused => onHost_next hopen ?_⟩
  · simp only [mbxGo, own, beq_eq_false_iff_ne.mpr idle, Bool.not_true, Bool.or_self, Bool.false_eq_true, if_false, mbxRing]
  · refine if_pos ?_
    rw [Bool.or_eq_true, Bool.not_eq_true', beq_iff_eq]
    exact refused
  · have still : (wr s (MBX_STATUS_ABORTING m) 1).mp.fwd = s.mp.fwd := rfl
    simp only [mbxAbort, abortAsk, own, busy, Bool.not_true, Bool.false_eq_true, if_false, if_true, still]
    rcases other with none | other
    · rw [none]
    · split
      · simp only [onlyIf, beq_eq_false_iff_ne.mpr other, Bool.false_eq_true, if_false]
      · rfl
  · have still : (wr s (MBX_STATUS_ABORTING m) 1).mp.fwd = s.mp.fwd := rfl
    simp only [mbxAbort, abortAsk, own, busy, Bool.not_true, Bool.false_eq_true, if_false, if_true, still, fwd, onlyIf, beq_iff_eq.mpr six]
  · simp only [mbxAbort, foreign, Bool.not_false, if_true]
  · simp only [mbxAck, own, done, decide_true, Bool.and_self, if_true]
  · refine if_neg ?_
    rw [Bool.and_eq_true, decide_eq_true_eq]
    rintro ⟨own, done⟩
    rcases refused with foreign | other
    · exact Bool.false_ne_true (foreign.symm.trans own)
    · exact other done

theorem mpTakes : Claims.MpTakes := by
  intro s sig m rest runs ready free has
  have next := mpTake_next (sig := sig) ready free has
  refine ⟨fun o bad => onMain_next runs (next.trans (mpNext_badHeader bad)), fun good here => ⟨fun none => onMain_next runs (next.trans (mpNext_unknown good here none)),
    fun cls needs known rom not_ => onMain_next runs (next.trans ((mpNext_known good here known).trans (if_pos ?_))),
    fun cls needs known may not_ => onMain_next runs (next.trans ((mpNext_checked good here known may).trans ?_)),
    fun cls needs known may serves_ manages => ?_⟩⟩
  · exact Bool.and_eq_true_iff.mpr ⟨rom, (Bool.not_eq_true' _).mpr not_⟩
  · exact if_pos ((Bool.not_eq_true' _).mpr not_)
  have checked := next.trans (mpNext_checked good here known may)
  refine ⟨fun plain needs_ => onMain_next runs ((checked.trans (checkCommand_unsigned serves_ manages plain)).trans (if_pos needs_)),
    fun plain free_ forbids => onMain_next runs ((checked.trans (checkCommand_unsigned serves_ manages plain)).trans ?_),
    fun plain free_ allows length => onMain_next runs ((checked.trans (checkCommand_unsigned serves_ manages plain)).trans ?_),
    fun plain free_ allows length => onMain_next runs ((checked.trans (checkCommand_unsigned serves_ manages plain)).trans ?_),
    fun signed room => ⟨fun lock => onMain_next runs ((checked.trans (checkCommand_signed serves_ manages signed room)).trans (if_pos (bne_iff_ne.mpr lock))),
      fun unlocked fails => onMain_next runs ((checked.trans (checkCommand_signed serves_ manages signed room)).trans ?_),
      fun unlocked good_ allows length => onMain_next runs ((checked.trans (checkCommand_signed serves_ manages signed room)).trans ?_)⟩⟩
  · exact (if_neg (by rw [free_]; exact Bool.false_ne_true)).trans (if_pos forbids)
  · exact (if_neg (by rw [free_]; exact Bool.false_ne_true)).trans ((if_neg (ne_true_of_eq_false allows)).trans (if_pos (bne_iff_ne.mpr length)))
  · exact (if_neg (by rw [free_]; exact Bool.false_ne_true)).trans ((if_neg (ne_true_of_eq_false allows)).trans (if_neg (by rw [bne_iff_ne]; exact not_not_intro length)))
  · exact (if_neg (by rw [bne_iff_ne]; exact not_not_intro unlocked)).trans (if_pos (bne_iff_ne.mpr fails))
  · exact (if_neg (by rw [bne_iff_ne]; exact not_not_intro unlocked)).trans ((if_neg (by rw [bne_iff_ne]; exact not_not_intro good_)).trans
      ((if_neg (ne_true_of_eq_false allows)).trans (if_neg (by rw [bne_iff_ne]; exact not_not_intro length))))

theorem responses : Claims.Responses := by
  intro s c status detail data
  refine ⟨fun quiet => if_pos quiet, fun loud host => ?_⟩
  simp only [respond, mbxDone, respBytes, onlyIf, loud, decide_eq_true (show c.m < 7 by omega), beq_eq_false_iff_ne.mpr (show c.m ≠ 6 by omega), Bool.false_and, Bool.false_eq_true, if_false, if_true]

/-- Settles O40 (R387 to R404, R419; log 31). -/
theorem mailboxes : Obligations.Mailboxes := ⟨mailboxDoorbells, mpTakes, responses⟩
end

section
/-! SUPPORT. The commands of the mailbox that change state (R244, R396, R410 to R417, R504, R511, R534 to R536). -/

namespace Sys2Proof.Machine

section
variable {s : State} {c : MpCmd} {op m : Nat} {f : MpCmd → State → State} (has : s.mp.cur = some c) (mine : c.m = m) (isOp : c.op = op)
include has mine isOp

/-- The command that the MP holds runs where the mode allows it, and a stage that has begun goes on in any mode. -/
theorem runOp_allowed (allowed : (modeForbids s op && s.mp.stage.isNone) = false) : runOp op m f s = f c s := by
  simp only [runOp, has, if_pos (And.intro mine isOp), allowed, Bool.false_eq_true, if_false]

theorem runOp_forbidden (fresh : s.mp.stage = none) (forbids : modeForbids s c.op = true) : runOp op m f s = respond s c stNotAllowed (mode s) [] := by
  rw [isOp] at forbids
  simp only [runOp, has, if_pos (And.intro mine isOp), forbids, fresh, Option.isNone_none, Bool.and_self, if_true]

end

/-- A command that the mode allows. -/
theorem allowed_of_mode {s : State} {op : Nat} (h : modeForbids s op = false) : (modeForbids s op && s.mp.stage.isNone) = false := by rw [h, Bool.false_and]

/-- The commands of a recipe are barred in SERVICE alone (Table 14-5). -/
theorem recipe_allowed {s : State} {op : Nat} (h : op = 0x0300 ∨ op = 0x0301 ∨ op = 0x0302) (other : mode s ≠ 11) : (modeForbids s op && s.mp.stage.isNone) = false := by
  refine allowed_of_mode ?_
  rcases h with rfl | rfl | rfl <;> exact beq_eq_false_iff_ne.mpr other

section
variable {s : State} {c : MpCmd} {r : RecipeImage} {upto : Option Nat} (fresh : s.mp.stage = none) (slot : c.num 0 1 < 64)
  (loaded : slotState s (c.num 0 1) = 2 ∨ slotState s (c.num 0 1) = 3) (idle : rd s CHG_STATUS_PHASE = 0) (image : (rcpSlot s (c.num 0 1)).image = some r) (free : regionClash s r = none)
include fresh slot loaded idle image free

/-- A stage of a loaded slot whose image cannot be read leaves the slot EMPTY (Table 19-5). -/
theorem edRecipeStage_lost {a : BitVec 35} : edRecipeStage (.uncorrectable a) upto c s = imageLost s c (c.num 0 1) a.toNat := by
  have here : (slotState s (c.num 0 1) != 2 && slotState s (c.num 0 1) != 3) = false := by rcases loaded with h | h <;> rw [h] <;> rfl
  simp only [edRecipeStage, fresh, image, if_neg (Nat.not_le.mpr slot), if_neg (show slotState s (c.num 0 1) ≠ 1 by omega), idle, here, free, bne_self_eq_false, Bool.false_eq_true, if_false]

/-- A stage of a loaded slot whose image fails the budget of the pixel engines. -/
theorem edRecipeStage_refused {w : Nat} (fails : stageBudget (stageStore s (stageWrites (c.num 0 1) r)) = some w) :
    edRecipeStage .none upto c s =
      respond (setChk (setRcp s (c.num 0 1) { rcpSlot s (c.num 0 1) with chk := w }) w) c 0x12 w (leBytes 4 w ++ leBytes 4 (rd s CHG_COUNT_COUNT)) := by
  have here : (slotState s (c.num 0 1) != 2 && slotState s (c.num 0 1) != 3) = false := by rcases loaded with h | h <;> rw [h] <;> rfl
  have clean : (MemEcc.none == MemEcc.corrected) = false := rfl
  simp only [edRecipeStage, fresh, image, if_neg (Nat.not_le.mpr slot), if_neg (show slotState s (c.num 0 1) ≠ 1 by omega), idle, here, free, clean, fails, bne_self_eq_false,
    Bool.false_eq_true, if_false]

/-- A stage of a loaded slot whose image fits runs from its first write. -/
theorem edRecipeStage_runs (fits : stageBudget (stageStore s (stageWrites (c.num 0 1) r)) = none) :
    edRecipeStage .none upto c s = stageRun s { slot := c.num 0 1, done := 0, raced := false } r upto c := by
  have here : (slotState s (c.num 0 1) != 2 && slotState s (c.num 0 1) != 3) = false := by rcases loaded with h | h <;> rw [h] <;> rfl
  have clean : (MemEcc.none == MemEcc.corrected) = false := rfl
  simp only [edRecipeStage, fresh, image, if_neg (Nat.not_le.mpr slot), if_neg (show slotState s (c.num 0 1) ≠ 1 by omega), idle, here, free, clean, fits, bne_self_eq_false,
    Bool.false_eq_true, if_false]

end

end Sys2Proof.Machine

open Sys2Proof Sys2Proof.Machine

/-- Settles O42 (R244, R396, R399, R410 to R417, R504, R511, R534 to R536; log 33). -/
theorem eduskActions : Obligations.EduskActions := by
  intro s m c runs has mine
  refine ⟨fun fresh forbids => ⟨fun op => onMain_next runs (runOp_forbidden has mine op fresh forbids), fun op => onMain_next runs (runOp_forbidden has mine op fresh forbids),
      fun op => onMain_next runs (runOp_forbidden has mine op fresh forbids), fun op => onMain_next runs (runOp_forbidden has mine op fresh forbids),
      fun op x => onMain_next runs (runOp_forbidden has mine op fresh forbids), fun op => onMain_next runs (runOp_forbidden has mine op fresh forbids)⟩,
    fun op none idle => onMain_next runs ((runOp_allowed has mine op (allowed_of_mode (by rw [modeForbids, idle]; rfl))).trans ?_),
    fun op none stop => onMain_next runs ((runOp_allowed has mine op (allowed_of_mode (by rw [modeForbids, stop]; rfl))).trans ?_),
    fun op service dest => onMain_next runs ((runOp_allowed has mine op (allowed_of_mode (by rw [modeForbids, service]; rfl))).trans ?_),
    fun op service dest => onMain_next runs ((runOp_allowed has mine op (allowed_of_mode (by rw [modeForbids, service]; rfl))).trans ?_),
    fun op at_ none small => onMain_next runs ((runOp_allowed has mine op (allowed_of_mode (by rcases at_ with h | h <;> rw [modeForbids, h] <;> rfl))).trans ?_),
    fun es n op low high entries => ⟨fun i f bad => onMain_next runs ((runOp_allowed has mine op rfl).trans ?_), fun good => onMain_next runs ((runOp_allowed has mine op rfl).trans ?_)⟩,
    fun op other none slot => ⟨fun open_ => onMain_next runs ((runOp_allowed has mine op (recipe_allowed (by simp) other)).trans ?_),
      fun locked => onMain_next runs ((runOp_allowed has mine op (recipe_allowed (by simp) other)).trans ?_)⟩,
    fun r op other fresh slot loaded idle image free => ⟨fun a => onMain_next runs ((runOp_allowed has mine op (recipe_allowed (by simp) other)).trans ?_),
      fun w fails => onMain_next runs ((runOp_allowed has mine op (recipe_allowed (by simp) other)).trans ?_),
      fun fits => ⟨onMain_next runs ((runOp_allowed has mine op (recipe_allowed (by simp) other)).trans ?_),
        fun n short => onMain_next runs ((runOp_allowed has mine op (recipe_allowed (by simp) other)).trans ?_)⟩⟩,
    fun r g x op goes image => onMain_next runs ((runOp_allowed has mine op (by rw [goes, Option.isNone_some, Bool.and_false])).trans ?_),
    fun u g r => ⟨fun quiet => ?_, fun raced => ?_⟩,
    fun op other result => onMain_next runs ((runOp_allowed has mine op (recipe_allowed (by simp) other)).trans ?_),
    fun op slot idle open_ => onMain_next runs ((runOp_allowed has mine op rfl).trans ?_), fun op slot locked => onMain_next runs ((runOp_allowed has mine op rfl).trans ?_),
    fun op none => onMain_next runs ((runOp_allowed has mine op rfl).trans ?_), fun op none => onMain_next runs ((runOp_allowed has mine op rfl).trans ?_),
    fun op none => onMain_next runs ((runOp_allowed has mine op rfl).trans ?_),
    fun op none bank good => ⟨fun old => onMain_next runs ((runOp_allowed has mine op rfl).trans ?_), fun fresh => onMain_next runs ((runOp_allowed has mine op rfl).trans ?_)⟩,
    fun op some_ fits => onMain_next runs ((runOp_allowed has mine op rfl).trans ?_)⟩
  · simp only [edServiceEnter, none, idle, Nat.reduceEqDiff, if_false]
  · simp only [edServiceEnter, none, stop, if_true]
  · exact if_pos dest
  · exact (if_neg (by omega)).trans (if_pos dest)
  · simp only [edCalibrate, none, if_neg (Nat.not_le.mpr small)]
  · have some_ : (decide (c.num 0 2 = 0) || decide (255 < c.num 0 2)) = false := by rw [decide_eq_false (by omega), decide_eq_false (by omega)]; rfl
    simp only [edParamSet, some_, entries, mine, bad, Bool.false_eq_true, if_false]
  · have some_ : (decide (c.num 0 2 = 0) || decide (255 < c.num 0 2)) = false := by rw [decide_eq_false (by omega), decide_eq_false (by omega)]; rfl
    simp only [edParamSet, some_, entries, mine, good, Bool.false_eq_true, if_false]
  · simp only [edRecipeLoad, none, if_neg (Nat.not_le.mpr slot), if_neg (Nat.not_le.mpr open_)]
  · simp only [edRecipeLoad, none, if_neg (Nat.not_le.mpr slot), if_pos locked]
  · exact edRecipeStage_lost fresh slot loaded idle image free
  · exact edRecipeStage_refused fresh slot loaded idle image free fails
  · exact edRecipeStage_runs fresh slot loaded idle image free fits
  · refine (edRecipeStage_runs fresh slot loaded idle image free fits).trans ?_
    simp only [stageRun, List.drop_zero, if_neg (Nat.not_le.mpr short), Nat.zero_add]
  · simp only [edRecipeStage, goes, image, stageRun]
  · simp only [stageEnd, quiet, Bool.false_eq_true, if_false]
  · simp only [stageEnd, raced, if_true]
  · simp only [edRecipeCommit, decide_eq_false (Nat.not_le.mpr result), Bool.and_false, Bool.false_and, Bool.false_eq_true, if_false]
  · simp only [edRecipeFree, if_neg (Nat.not_le.mpr slot), if_neg idle, if_neg (Nat.not_le.mpr open_)]
  · simp only [edRecipeFree, if_neg (Nat.not_le.mpr slot), if_neg (show slotState s (c.num 0 1) ≠ 1 by omega), if_pos locked]
  · simp only [edRecFlush, none, Option.isSome_none, Bool.false_eq_true, if_false]
  · simp only [edRecClear, none]
  · simp only [edFwWrite, none]
  · simp only [edFwSelect, none, if_neg (Nat.not_lt.mpr bank), good, bne_self_eq_false, Bool.false_eq_true, if_false, if_pos old]
  · simp only [edFwSelect, none, if_neg (Nat.not_lt.mpr bank), good, bne_self_eq_false, Bool.false_eq_true, if_false, if_neg (Nat.not_lt.mpr fresh)]
  · simp only [edBoardWrite, if_neg (show c.num 4 4 ≠ 0 by omega), if_neg (Nat.not_lt.mpr fits)]
end

section
/-! SUPPORT. Ends of long commands, and Guyline events, relays and task inputs (R395 to R411, R422 to R434). -/

namespace Sys2Proof.Machine

/-- What the owner of a channel sets is its new enables, but for slots 1 and 3 of an OPEN channel (R432). -/
theorem gylSetEn_put {s : State} {c v : Nat} (may : rdB s (GYL_CH_CFG_SEC c) = true ∨ v.testBit 1 = false ∧ v.testBit 3 = false) : gylSetEn s c v = enPut s c v := by
  refine if_neg ?_
  rw [bitOf_eq_testBit, bitOf_eq_testBit]
  rcases may with sec | ⟨h1, h3⟩
  · rw [sec]; exact Bool.false_ne_true
  · rw [h1, h3, Bool.or_self, Bool.and_false]; exact Bool.false_ne_true

/-- The host's write of the enables of a channel it owns. -/
theorem gylChEnWrite_host {s : State} {c v : Nat} (own : rd s (GYL_CH_CFG_OWNER c) = 0) : gylChEnWrite 0 c v s = gylSetEn s c v := by
  simp only [gylChEnWrite, own, if_true, OfNat.zero_ne_ofNat, decide_false, Bool.false_and, Bool.false_eq_true, if_false]

/-- Enables that are set in a cycle hold from the next one on. -/
theorem enNow_enPut (s : State) (c v : Nat) : enNow (enPut s c v) c = enNow s c := by
  have was : mget ((0, 0) : Nat × Nat) (enPut s c v).gyl.enWas c = (s.now / 2 + 1, enNow s c) := mget_mput_marked _ _ _ fun same => nomatch congrArg Prod.fst same
  unfold enNow
  rw [was]
  exact if_pos rfl

end Sys2Proof.Machine

open Sys2Proof Sys2Proof.Machine

/-- Settles O43 (R395, R398, R408, R411, R511, R535; log 33). -/
theorem longCommandsEnd : Obligations.LongCommandsEnd := by
  intro s m runs
  refine ⟨fun l has => ⟨fun img sig body op read => ⟨fun good => onMain_next runs ?_, fun d bad => onMain_next runs ?_⟩,
      fun img sig op read => ⟨fun good => onMain_next runs ?_, fun d bad => onMain_next runs ?_⟩, fun op => onMain_next runs ?_⟩,
    fun mem ready => onMain_next runs ?_, fun w q fwd => onMain_next runs ?_⟩
  · simp only [longComplete, has, op, read, good, recipeLoaded, bne_self_eq_false, Bool.not_true, Bool.or_self, Bool.false_eq_true, if_false]
  · simp only [longComplete, has, op, read, bad, bne_self_eq_false, Bool.not_true, Bool.or_self, Bool.false_eq_true, if_false]
  · simp only [longComplete, has, op, read, good, bne_self_eq_false, Bool.not_true, Bool.or_self, Bool.false_eq_true, if_false]
  · simp only [longComplete, has, op, read, bad, bne_self_eq_false, Bool.not_true, Bool.or_self, Bool.false_eq_true, if_false]
  · simp only [longComplete, has, op, Nat.reduceEqDiff, if_false, if_true]
  · cases mem <;> simp only [fwWatchdog, ready, Bool.not_true, Bool.false_eq_true, if_false]
  · simp only [tetherMbxTimeout, fwd]
    rfl

theorem frontGuylines : Claims.Guylines := by
  intro s runs
  refine ⟨fun ch hop idle => exec_guylineEvent_runs ch hop runs idle, fun r t hop has early => onMain_next runs ?_, fun r t hop has due => onMain_next runs ?_,
    fun ch v => ⟨enNow_enPut s ch v.toNat, fun own sec => onMain_next runs ?_, fun own open_ h1 h3 => onMain_next runs ?_, fun foreign fresh => onMain_next runs ?_⟩,
    fun slot dir hop has up both => onMain_next runs ?_⟩
  · simp only [relayExpire, relayEnd, has, if_pos early]
  · simp only [relayExpire, relayEnd, has, if_neg (Nat.not_lt.mpr due)]
  · exact (gylChEnWrite_host own).trans (gylSetEn_put (Or.inl sec))
  · exact (gylChEnWrite_host own).trans (gylSetEn_put (Or.inr ⟨h1, h3⟩))
  · refine (if_neg foreign).trans ((if_pos rfl).trans (if_neg ?_))
    rw [fresh]
    exact Bool.false_ne_true
  · have up' : portUp { s with gyl := { s.gyl with fwd := none } } true = true := up
    have down : bitOf 2 0 = false := rfl
    have upward : bitOf 2 1 = true := rfl
    simp only [tthFwdSend, has, both, down, upward, onlyIf, Bool.false_and, Bool.true_and, Bool.false_eq_true, if_false]
    exact if_pos up'

theorem mergesAndOverruns : Claims.MergesAndOverruns := by
  intro s t c h
  refine ⟨fun new => ⟨fun free => ?_, fun busy => ?_, fun c' h' free => ?_⟩, fun same merged ran => ?_, fun loops => gylAccept_looped s c loops, fun fine => ?_⟩
  · have free : (decide (2000 * (s.now / 2) < (mget ({} : TaskIn) s.gyl.ins t).full) || taskBusy s t) = false := free
    simp only [taskEvents, beq_eq_false_iff_ne.mpr new, free, onlyIf, List.foldl_nil, List.isEmpty_nil, List.length_singleton, Bool.not_true, Bool.not_false, Bool.or_self, Bool.false_and,
      Bool.false_eq_true, if_false]
  · have busy : (decide (2000 * (s.now / 2) < (mget ({} : TaskIn) s.gyl.ins t).full) || taskBusy s t) = true := busy
    simp only [taskEvents, beq_eq_false_iff_ne.mpr new, busy, onlyIf, List.isEmpty_nil, Bool.not_true, Bool.or_self, Bool.false_and, Bool.false_eq_true, if_false, if_true]
  · have free : (decide (2000 * (s.now / 2) < (mget ({} : TaskIn) s.gyl.ins t).full) || taskBusy s t) = false := free
    simp only [taskEvents, beq_eq_false_iff_ne.mpr new, free, onlyIf, List.foldl_cons, List.foldl_nil, List.isEmpty_cons, Bool.not_false, Bool.or_true, Bool.false_and, Bool.and_self,
      Bool.false_eq_true, if_false, if_true]
    rfl
  · simp only [taskEvents, beq_iff_eq.mpr same, merged, ran, onlyIf, List.foldl_nil, List.length_singleton, Bool.true_or, Bool.and_self, Bool.not_true, Bool.and_false, Bool.false_eq_true,
      if_false, if_true]
  · rw [gylAccept, if_neg (Nat.not_le.mpr fine)]

/-- Settles O44 (R422 to R434; log 35). -/
theorem guylines : Obligations.Guylines := ⟨frontGuylines, mergesAndOverruns⟩
end

section
/-! SUPPORT. What a tether port receives and sends: GUYLINE and HEARTBEAT, TIME, HANDOVER, MGMT and CAL messages (R404 to R466). -/

namespace Sys2Proof.Machine

/-- A fragment that is the first and the last of its message is the message (R464). -/
theorem mgmtJoin_whole (s : State) (dest seq : Nat) (data : List Byte) : mgmtJoin s dest seq 0 true data = ({ s with tth := { s.tth with mgmt := none } }, some data) := by
  simp only [mgmtJoin, if_true]

end Sys2Proof.Machine

open Sys2Proof Sys2Proof.Machine

/-- Settles O47 (R450, R451, R459 to R461, R465; log 37). -/
theorem tetherEvents : Obligations.TetherEvents := by
  intro s down runs up
  refine ⟨fun x c good foreign => onMain_next runs ?_, fun x bad => onMain_next runs ?_, fun side other => onMain_next runs ?_,
    fun x side => ⟨fun bad => onMain_next runs ?_, fun c good => ⟨fun upper mgr wrk => onMain_next runs ?_, fun lower wrk mgr => onMain_next runs ?_, fun own => onMain_next runs ?_⟩⟩,
    fun on wrk => onMain_next runs ?_, fun w on mgr there => onMain_next runs ?_⟩
  · simp only [guylineMessage, up, good, foreign, onlyIf, Bool.not_true, Bool.not_false, Bool.false_eq_true, if_false, if_true]
  · simp only [guylineMessage, up, bad, Bool.not_true, Bool.false_eq_true, if_false]
  · simp only [heartbeatSend, up, ← side, if_neg other, bne_self_eq_false, Bool.not_true, Bool.or_self, Bool.false_eq_true, if_false]
  · simp only [heartbeatReceive, side, up, bad, Bool.not_true, Bool.false_eq_true, if_false]
  · subst upper
    simp only [heartbeatReceive, side, up, good, mgr, wrk, Bool.not_true, Bool.not_false, Bool.and_self, Bool.false_eq_true, if_false, if_true]
  · subst lower
    simp only [heartbeatReceive, side, up, good, mgr, wrk, Bool.not_true, Bool.not_false, Bool.false_and, Bool.and_self, Bool.false_eq_true, if_false, if_true]
  · simp only [heartbeatReceive, side, up, good, own, Bool.not_true, Bool.not_and_self, Bool.and_not_self, Bool.false_and, Bool.false_eq_true, if_false]
  · simp only [heartbeatLoss, on, wrk, Option.map_none, Bool.not_true, Bool.false_eq_true, if_false, if_true]
  · simp only [heartbeatLoss, chainChange, on, mgr, there, onlyIf, Option.map_some, Bool.not_true, Bool.not_false, Bool.and_self, Bool.false_eq_true, if_false, if_true]
    rfl

/-- Settles O48 (R267, R406, R449 to R451, R457, R463, R464, R466; log 37). -/
theorem tetherMessages : Obligations.TetherMessages := by
  intro s runs
  refine ⟨fun d up mgr on => onMain_next runs ?_,
    fun x up => ⟨fun bad => onMain_next runs ?_, fun h c good goes => ⟨fun other => onMain_next runs ?_, fun src valid => onMain_next runs ?_⟩⟩,
    fun h has up mgr => onMain_next runs ?_,
    fun x up wrk => ⟨fun bad => onMain_next runs ?_, fun h c good goes => ⟨fun seen => onMain_next runs ?_, fun new => onMain_next runs ?_⟩⟩,
    fun x up wrk => ⟨fun bad => onMain_next runs ?_, fun h c good => ⟨fun goes other => onMain_next runs ?_, fun here mine run first last => onMain_next runs ?_⟩⟩,
    fun x up mgr h c good here first last w fwd => onMain_next runs ?_,
    fun x up wrk h c good idle => onMain_next runs ?_⟩
  · simp only [timeMessageSend, up, mgr, on, Bool.and_self, if_true]
    rfl
  · simp only [timeMessageReceive, up, bad, Bool.not_true, Bool.false_eq_true, if_false]
  · have stays : (rd s (TMB_DOM_CFG_SRC (atBytes h 4 1 % 4)) == 3 && bitOf (atBytes h 4 1) 2) = false := by rcases other with h | h <;> simp [h]
    simp only [timeMessageReceive, up, good, goes, stays, onlyIf, Bool.not_true, Bool.false_eq_true, if_false, if_true]
  · simp only [timeMessageReceive, up, good, goes, src, valid, onlyIf, beq_self_eq_true, Bool.and_self, Bool.not_true, Bool.false_eq_true, if_false, if_true]
  · have up' : ∀ t : Tether, portUp { s with tth := t } true = true := fun _ => up
    have mgr' : ∀ t : Tether, isManager { s with tth := t } = true := fun _ => mgr
    simp only [handoverMessageSend, has, up', mgr', onlyIf, Bool.and_self, if_true]
  · simp only [handoverMessageReceive, up, wrk, bad, Bool.not_true, Bool.or_self, Bool.false_eq_true, if_false]
  · simp only [handoverMessageReceive, up, wrk, good, goes, seen, onlyIf, beq_self_eq_true, Bool.not_true, Bool.or_self, Bool.false_eq_true, if_false, if_true]
  · simp only [handoverMessageReceive, up, wrk, good, goes, beq_eq_false_iff_ne.mpr new, onlyIf, Bool.not_true, Bool.or_self, Bool.false_eq_true, if_false, if_true]
  · simp only [mgmtFragment, up, wrk, bad, Bool.not_true, Bool.or_self, Bool.false_eq_true, if_false]
  · have away : ((fragOf h c).destMgr || (fragOf h c).dest != rd s MODE_STATUS_WORKER_ID) = true := by rw [Bool.or_eq_true, bne_iff_ne]; exact other
    simp only [mgmtFragment, up, wrk, good, away, goes, onlyIf, Bool.not_true, Bool.or_self, Bool.false_eq_true, if_false, if_true]
  · simp only [mgmtFragment, up, wrk, good, here, mine, run, first, last, mgmtJoin_whole, bne_self_eq_false, Bool.not_true, Bool.or_self, Bool.false_eq_true, if_false]
    rfl
  · simp only [mgmtResponse, up, mgr, good, here, first, last, mgmtJoin_whole, fwd, Bool.not_true, Bool.false_eq_true, if_false, if_true]
    rfl
  · have now : (mode s == 2 || mode s == 3 || mode s == 9) = true := by simpa [or_assoc] using idle
    simp only [calMessageReceive, up, wrk, good, now, Bool.not_true, Bool.or_self, Bool.false_eq_true, if_false, if_true]
end

section
/-! SUPPORT. Lantern's clocks, rails and PWRFAIL_N (R481 to R490, R507, R553 to R556). -/

namespace Sys2Proof.Machine

/-- What every step of a list leaves as it was, the list does. -/
theorem each_same {α β : Type} {g : State → β} {f : State → α → State} (l : List α) (s : State) (h : ∀ u, ∀ a ∈ l, g (f u a) = g u) : g (each l f s) = g s := by
  unfold each
  induction l generalizing s with
  | nil => rfl
  | cons a l ih => exact (ih _ (fun u b hb => h u b (List.mem_cons_of_mem a hb))).trans (h s a List.mem_cons_self)

theorem tryBoot_held {u : State} (held : u.pwr.reset = false ∨ u.pwr.main = false ∨ u.pwr.aon = false ∨ u.pwr.perst = true ∨ u.pwr.hold = true ∨ u.pwr.fail = true) : tryBoot u = u := by
  have stays : (u.pwr.aon && u.pwr.main && u.pwr.reset && !u.pwr.perst && !u.pwr.hold && !u.pwr.fail) = false := by rcases held with h | h | h | h | h | h <;> simp [h]
  refine if_neg ?_
  rw [stays]
  exact Bool.false_ne_true

/-- An event of a source touches its status bit, and what the request changes. -/
theorem raise_frame (s : State) (src : Nat) : raise s src = { s with regs := (raise s src).regs, hep := (raise s src).hep, out := (raise s src).out } := by
  unfold raise
  dsimp only
  split
  · split
    · rw [requestSrc_frame]; rfl
    · rfl
  · rfl

/-- Between these states only the registers, the recorder and what its alarms request have changed. -/
def OnlyRecorder (s t : State) : Prop := ∃ regs hep out rcd, t = { s with regs := regs, hep := hep, out := out, rcd := rcd }

theorem onlyRecorder_refl (s : State) : OnlyRecorder s s := ⟨_, _, _, _, rfl⟩

theorem OnlyRecorder.trans {s t u : State} (h : OnlyRecorder s t) (k : OnlyRecorder t u) : OnlyRecorder s u := by
  obtain ⟨_, _, _, _, rfl⟩ := h
  obtain ⟨_, _, _, _, rfl⟩ := k
  exact ⟨_, _, _, _, rfl⟩

theorem OnlyRecorder.wr {s t : State} (h : OnlyRecorder s t) (f : FRef) (v : Nat) : OnlyRecorder s (wr t f v) := h.trans ⟨_, _, _, _, rfl⟩

theorem OnlyRecorder.addWrap {s t : State} (h : OnlyRecorder s t) (f : FRef) (n : Nat) : OnlyRecorder s (addWrap t f n) := h.trans ⟨_, _, _, _, rfl⟩

theorem OnlyRecorder.raise {s t : State} (h : OnlyRecorder s t) (src : Nat) : OnlyRecorder s (raise t src) := h.trans ⟨_, _, _, _, raise_frame t src⟩

theorem OnlyRecorder.recFlag {s t : State} (h : OnlyRecorder s t) (f : FRef) : OnlyRecorder s (recFlag t f) := by
  unfold Machine.recFlag
  split
  · exact h
  · exact (h.wr _ _).raise _

theorem OnlyRecorder.cursorFix {s t : State} (h : OnlyRecorder s t) : OnlyRecorder s (cursorFix t) := by
  unfold Machine.cursorFix
  dsimp only
  split
  · exact ((h.wr _ _).wr _ _).recFlag _
  · exact h

theorem OnlyRecorder.markFix {s t : State} (h : OnlyRecorder s t) : OnlyRecorder s (markFix t) := by
  unfold Machine.markFix
  split
  · exact (h.trans (u := { Machine.wr t REC_STATUS_MARK_VALID 0 with rcd := { t.rcd with markLost := true } }) ⟨_, _, _, _, rfl⟩).recFlag _
  · exact h

/-- The next place of the circulating area is the recorder's alone, with its alarms. -/
theorem OnlyRecorder.circNext {s t : State} (h : OnlyRecorder s t) (r : Option Rec) : OnlyRecorder s (circNext t r) := by
  unfold Machine.circNext
  refine OnlyRecorder.markFix ?_
  have put : ∀ x : Recorder, OnlyRecorder s { t with rcd := x } := fun x => h.trans ⟨_, _, _, _, rfl⟩
  have placed : ∀ (u : State) (c : Prop) [Decidable c] (f : FRef) (v : Nat), OnlyRecorder s u → OnlyRecorder s (if c then Machine.wr u f v else u) := fun u c _ f v hu => by
    split
    · exact hu.wr f v
    · exact hu
  have moved : ∀ (u : State) (c : Prop) [Decidable c], OnlyRecorder s u → OnlyRecorder s (if c then Machine.cursorFix u else u) := fun u c _ hu => by
    split
    · exact hu.cursorFix
    · exact hu
  exact moved _ _ (placed _ _ _ _ ((put _).wr _ _))

theorem OnlyRecorder.firstStore {s t : State} (h : OnlyRecorder s t) (r : Rec) : OnlyRecorder s (firstStore t r) := by
  unfold Machine.firstStore
  split
  · exact h.trans ⟨_, _, _, _, rfl⟩
  · exact h

theorem OnlyRecorder.mramAppend {s t : State} (h : OnlyRecorder s t) (r : Rec) : OnlyRecorder s (mramAppend t r 0) :=
  ((h.circNext (some r)).addWrap _ _).firstStore r

/-- A record of Lantern's is the recorder's alone, with its alarms. -/
theorem onlyRecorder_lanternDirect (s : State) (code : Nat) (payload : List Byte) : OnlyRecorder s (lanternDirect s code payload) :=
  OnlyRecorder.mramAppend (⟨_, _, _, _, rfl⟩ : OnlyRecorder s (takeSeq s).2) _

theorem lanternDirect_pwr (s : State) (code : Nat) (payload : List Byte) : (lanternDirect s code payload).pwr = s.pwr := by
  obtain ⟨_, _, _, _, same⟩ := onlyRecorder_lanternDirect s code payload
  rw [same]

theorem keyCut_pwr (s : State) : (keyCut s).pwr = s.pwr := by
  unfold keyCut
  split <;> rfl

theorem firmwareCut_pwr (s : State) (l : LongCmd) : (firmwareCut s l).pwr = s.pwr := by
  unfold firmwareCut
  split <;> rfl

/-- A conventional reset puts the main domain in reset, and leaves the supplies as they are. -/
theorem resetMain_pwr (s : State) : (resetMain s).pwr = { s.pwr with reset := true } := by
  have cut : (each s.mp.long firmwareCut (keyCut s)).pwr = s.pwr := (each_same (g := State.pwr) _ _ fun u l _ => firmwareCut_pwr u l).trans (keyCut_pwr s)
  rw [← cut]
  rfl

end Sys2Proof.Machine

open Sys2Proof Sys2Proof.Machine

theorem lanternClocks : Claims.LanternClocks := by
  intro s
  refine ⟨fun aon ok => ⟨onAon_next aon ?_, onAon_next aon ?_⟩, fun aon out => onAon_next aon ?_, fun aon same => onAon_next aon (if_pos same), fun aon new => onAon_next aon (if_neg new),
    fun d off main dead => anyTime_next ?_, fun aon main => anyTime_next ?_, fun aon main run => anyTime_next ?_⟩
  · simp only [xtalFail, ok, Bool.not_true, Bool.false_eq_true, if_false]
    rfl
  · simp only [rcTrim, ok, if_true]
  · simp only [xtalGood, out, Bool.false_eq_true, if_false]
  · refine (if_neg (by rw [off]; exact Bool.false_ne_true)).trans ?_
    rw [dead]
    exact tryBoot_held (Or.inr (Or.inl (by rw [lanternDirect_pwr]; exact main)))
  · simp only [vddAonLoss, aon, main, Bool.not_true, Bool.false_and, Bool.false_eq_true, if_false]
  · simp only [vddAonLoss, aon, main, run, Bool.not_true, Bool.not_false, Bool.and_self, Bool.false_eq_true, if_false, if_true]

theorem rails : Claims.Rails := by
  intro s
  refine ⟨fun off aon => anyTime_next ?_, fun main aon => anyTime_next ?_, fun good runs => anyTime_next ?_, anyTime_next rfl, fun u held => tryBoot_held held⟩
  · simp only [mainRailsUp, off, aon, Bool.not_true, Bool.or_self, Bool.false_eq_true, if_false]
  · refine (if_neg (by rw [main]; exact Bool.false_ne_true)).trans (if_pos ?_)
    show (resetMain s).pwr.aon = true
    rw [resetMain_pwr]
    exact aon
  · have on : mainRuns { s with pwr := { s.pwr with fail := true } } = true := runs
    simp only [pwrfailFall, good, on, Bool.not_true, Bool.false_eq_true, if_false]

/-- Settles O51 (R481 to R483, R490, R507, R553 to R556). That a checkpoint is written once for each multiple, whenever the row comes, is a choice of log 2. -/
theorem clocksAndRails : Obligations.ClocksAndRails := ⟨lanternClocks, rails⟩
end

section
/-! SUPPORT. The recorder: offers, flushes and its window (R499 to R515), and the machine at reset. -/

namespace Sys2Proof.Machine

/-- With no lost record to report and an empty latch, the record of the first port that waits is taken, stamped (R500). -/
theorem recordAccept_port {s u : State} {p : Nat} {w : WaitRec} (none : s.rcd.drop = none) (empty : s.rcd.latch = []) (has : nextPort s = some (p, w))
    (taken : ringAccept { s with rcd := { s.rcd with ports := s.rcd.ports.filter (fun x => x.1 != p) } } { w with r := stampRec s w.r } = (u, true)) : recordAccept s = u := by
  have wait : nextWait s = some (p, w) := by rw [nextWait, empty]; exact has
  simp only [none, empty] at taken
  simp only [recordAccept, none, wait, empty, List.map_nil, taken, if_true]

/-- A write of the cursor within the area's bounds is taken as it is (R513). -/
theorem recCursorWrite_within {s : State} {v : Nat} (small : v < 2 ^ 32) (within : idxDist (areaBounds s (recArea s)).1 v ≤ idxDist (areaBounds s (recArea s)).1 (areaBounds s (recArea s)).2) :
    recCursorWrite v s = wr s REC_CURSOR_CURSOR v := by
  simp only [recCursorWrite, Nat.mod_eq_of_lt small, if_pos within]

end Sys2Proof.Machine

open Sys2Proof Sys2Proof.Machine

theorem recordsAreTaken : Claims.RecordsAreTaken := by
  intro s runs
  refine ⟨fun p r main => ⟨fun free => ?_, fun busy => ?_⟩, fun w rest u none has first taken => onMain_next runs ?_,
    fun p w u none empty has taken => onMain_next runs (recordAccept_port none empty has taken), fun none empty idle => onMain_next runs ?_⟩
  · refine (congrArg (fun b => Host.Outcome.next (onAonIf b (recordOffer p r) s)) (decide_eq_false main)).trans (onMain_next runs ?_)
    simp only [recordOffer, record, offerRec, runs, free, Bool.not_true, Bool.and_false, Bool.false_eq_true, if_false]
  · refine (congrArg (fun b => Host.Outcome.next (onAonIf b (recordOffer p r) s)) (decide_eq_false main)).trans (onMain_next runs ?_)
    simp only [recordOffer, record, offerRec, runs, busy, Bool.not_true, Bool.and_false, Bool.false_eq_true, if_false, if_true]
  · have wait : nextWait s = Option.none := by rw [nextWait, has]; simp only [first, Option.bind_none]
    simp only [recordAccept, none, wait, has, taken, if_true]
  · have wait : nextWait s = Option.none := by rw [nextWait, empty]; simp only [nextPort, idle, List.find?_nil, List.findSome?_eq_none_iff, implies_true]
    simp only [recordAccept, none, wait, empty]

theorem flushes : Claims.Flushes := by
  intro s
  refine ⟨fun r l fails x aon has => onAon_next aon ?_, fun f q rest fails aon none has todo => ⟨onAon_next aon ?_, fun a => onAon_next aon ?_⟩,
    fun f runs has done quiet up quiet' up' pend => onMain_next runs ?_, fun hopen busy => onHost_next hopen (if_pos busy), fun hopen idle => onHost_next hopen ?_⟩
  · simp only [mramRecordWrite, has]
  · simp only [mramRecordWrite, none, has, todo, flushNext]
  · simp only [mramRecordWrite, none, has, todo, flushNext]
  · simp only [flushComplete, has, done, quiet', up', pend, List.isEmpty_nil, Bool.not_true, Bool.false_eq_true, if_false]
  · simp only [flushTrigger, idle, Option.isSome_none, Bool.false_eq_true, if_false]

/-- Settles O52 (R499 to R505, R508, Table 19-5; log 39). -/
theorem records : Obligations.Records := ⟨recordsAreTaken, flushes⟩

/-- Settles O54 (R512, R513, R515). -/
theorem recorderWindow : Obligations.RecorderWindow := by
  intro s hopen
  refine ⟨fun circ valid => onHost_next hopen ?_, fun other => onHost_next hopen (if_pos (bne_iff_ne.mpr other)), fun v => onHost_next hopen rfl,
    fun v => ⟨fun same => onHost_next hopen (if_pos same), fun new => onHost_next hopen (if_neg new)⟩,
    fun v within => onHost_next hopen (recCursorWrite_within v.isLt within), fun off len fits => onHost_next hopen ?_⟩
  · simp only [recRewind, circ, valid, bne_self_eq_false, Bool.false_eq_true, if_false, if_true]
  · simp only [recWindowRead, Nat.min_eq_left (show len ≤ 1024 - off.val by omega)]

/-- Settles O58 (R14, R384, R509, R530): the contents of memory and the straps at reset are choices of logs 3 and 5. -/
theorem resetState : Obligations.ResetState := by
  refine ⟨by decide +kernel, rfl, rfl, rfl, rfl, rfl, rfl, by decide +kernel, by decide +kernel, by decide +kernel, by decide +kernel, fun a => rfl, by decide +kernel, by decide +kernel⟩
end

section
/-! SUPPORT. What an operation leaves of the registers, followed through its steps. -/

namespace Sys2Proof.Machine

/-- From s to t the registers stay canonical, and those that `keep` marks stay as they are. -/
def RegsKept (keep : Nat → Prop) (s t : State) : Prop := regsWf s = true → regsWf t = true ∧ ∀ a, keep a → getReg t a = getReg s a

section
variable {keep : Nat → Prop} {s t u : State}

theorem regsKept_refl (keep : Nat → Prop) (s : State) : RegsKept keep s s := fun h => ⟨h, fun _ _ => rfl⟩

theorem RegsKept.trans (h : RegsKept keep s t) (k : RegsKept keep t u) : RegsKept keep s u := fun wf =>
  ⟨(k (h wf).1).1, fun a ha => ((k (h wf).1).2 a ha).trans ((h wf).2 a ha)⟩

/-- An operation that leaves the registers leaves them as they were kept. -/
theorem RegsKept.same (h : RegsKept keep s t) (same : u.regs = t.regs) : RegsKept keep s u := fun wf =>
  ⟨(congrArg (mwf regReset) same).trans (h wf).1, fun a ha => (congrArg (fun m => mget (regReset a) m a) same).trans ((h wf).2 a ha)⟩

theorem RegsKept.wr (h : RegsKept keep s t) (f : FRef) (v : Nat) (other : ¬ keep f.a) : RegsKept keep s (wr t f v) := fun wf =>
  ⟨regsWf_wr (h wf).1, fun a ha => (getReg_setReg_other (h wf).1 (fun same : a = f.a => other (same ▸ ha))).trans ((h wf).2 a ha)⟩

theorem RegsKept.wrB (h : RegsKept keep s t) (f : FRef) (b : Bool) (other : ¬ keep f.a) : RegsKept keep s (wrB t f b) := h.wr f _ other

theorem RegsKept.addSat (h : RegsKept keep s t) (f : FRef) (n : Nat) (other : ¬ keep f.a) : RegsKept keep s (addSat t f n) := h.wr f _ other

theorem RegsKept.addWrap (h : RegsKept keep s t) (f : FRef) (n : Nat) (other : ¬ keep f.a) : RegsKept keep s (addWrap t f n) := h.wr f _ other

theorem RegsKept.onlyIf {f : State → State} (h : RegsKept keep s t) (b : Bool) (hf : b = true → RegsKept keep t (f t)) : RegsKept keep s (onlyIf b f t) := by
  unfold Machine.onlyIf
  split
  · next on => exact h.trans (hf on)
  · exact h

theorem RegsKept.each {α : Type} {f : State → α → State} {l : List α} (h : RegsKept keep s t) (hf : ∀ v, ∀ a ∈ l, RegsKept keep v (f v a)) : RegsKept keep s (each l f t) := by
  unfold Machine.each
  induction l generalizing t with
  | nil => exact h
  | cons a l ih => exact ih (h.trans (hf t a List.mem_cons_self)) (fun v b hb => hf v b (List.mem_cons_of_mem a hb))

theorem RegsKept.raise (h : RegsKept keep s t) (src : Nat) (other : ¬ keep (statusField src).a) : RegsKept keep s (raise t src) := by
  unfold Machine.raise
  dsimp only
  split
  · split
    · rw [requestSrc_frame]
      exact (h.wr (statusField src) 1 other).same rfl
    · exact h.wr _ _ other
  · exact h

/-- A record that is offered writes no register but the counts of what is lost, and SEQ for one that Lantern keeps (R499 to R502). -/
theorem RegsKept.record (h : RegsKept keep s t) (port source sev code : Nat) (payload : List Byte) (lost : ¬ keep REC_CNT_LOST_COUNT.a) (log : ¬ keep LAN_CNT_LOGLOST_COUNT.a)
    (seq : ¬ keep REC_SEQ_SEQ.a) : RegsKept keep s (record t port source sev code payload) := by
  unfold Machine.record offerRec
  split
  · unfold lanternHold
    split
    · exact (h.addWrap REC_SEQ_SEQ 1 seq).same rfl
    · exact h.addSat _ _ log
  · split
    · unfold toLatch
      split
      · exact h.same rfl
      · exact (h.same rfl).addSat _ _ lost
    · exact h.same rfl

/-- A field of a kept register reads as it did. -/
theorem RegsKept.rd (h : RegsKept keep s t) (wf : regsWf s = true) {g : FRef} (hg : keep g.a) : rd t g = rd s g := by
  unfold Machine.rd
  rw [(h wf).2 g.a hg]

end

end Sys2Proof.Machine
end

section
/-! SUPPORT. Scrubs, heat, link events, ageing, refresh and key operations (R385, R526, R527, R538 to R544, R565). -/

namespace Sys2Proof.Machine

theorem toSigned_ofSigned16 {d : Int} (low : -32768 ≤ d) (high : d < 32768) : toSigned 16 (ofSigned 16 d % 2 ^ 16) = d := by
  unfold toSigned ofSigned
  norm_num
  split <;> omega

/-- An island's measurement, shown. -/
def ageShown (s : State) (i : Nat) (d : Int) : State := wr (wrI s (AGE_ISLAND_DRIFT i) d) (AGE_ISLAND_STATE i) (ageState i (ageRank d))

/-- The derating of a PIX island after it. -/
def ageStepped (s : State) (i : Nat) (d : Int) : State := onlyIf (isPix i) (fun s => wr s (AGE_ISLAND_STEP i) (max (rd s (AGE_ISLAND_STEP i)) (ageRank d - 1))) (ageShown s i d)

/-- What follows only sounds the alarm and keeps a record. -/
theorem ageOne_kept {keep : Nat → Prop} {s : State} {i : Nat} {d : Int} (alarm : ¬ keep (statusField srcAgeing).a) (lost : ¬ keep REC_CNT_LOST_COUNT.a) (log : ¬ keep LAN_CNT_LOGLOST_COUNT.a)
    (seq : ¬ keep REC_SEQ_SEQ.a) : RegsKept keep (ageStepped s i d) (ageOne s i d) :=
  (((regsKept_refl keep _).onlyIf _ fun _ => (regsKept_refl keep _).raise _ alarm).onlyIf _ fun _ => (regsKept_refl keep _).record _ _ _ _ _ lost log seq).onlyIf _
    fun _ => (regsKept_refl keep _).record _ _ _ _ _ lost log seq

section
variable {s : State} {i : Nat} {d : Int} (wf : regsWf s = true)
include wf

theorem regsWf_ageStepped : regsWf (ageStepped s i d) = true := by
  unfold ageStepped onlyIf
  split
  · exact regsWf_wr (regsWf_wr (regsWf_wr wf))
  · exact regsWf_wr (regsWf_wr wf)

/-- Of a measurement the island's own register alone is left as it stands. -/
theorem rd_ageOne {g : FRef} (own : g.a = (AGE_ISLAND_DRIFT i).a) : rd (ageOne s i d) g = rd (ageStepped s i d) g := by
  have clear : ∀ r, r < 0x170300 → ¬ r = 0x170300 + 0x4 * i := fun r hr same => by omega
  exact (ageOne_kept (keep := (· = 0x170300 + 0x4 * i)) (clear _ (by decide)) (clear _ (by decide)) (clear _ (by decide)) (clear _ (by decide))).rd (regsWf_ageStepped wf) own

theorem rd_ageShown_drift : rd (ageShown s i d) (AGE_ISLAND_DRIFT i) = ofSigned 16 d % 2 ^ 16 :=
  (rd_wr_other (regsWf_wr wf) (Nat.le_of_ble_eq_true rfl) (Or.inr (Or.inl (Nat.le_of_ble_eq_true rfl)))).trans (rd_wr_self wf (Nat.le_of_ble_eq_true rfl))

theorem rd_ageShown_state : rd (ageShown s i d) (AGE_ISLAND_STATE i) = ageState i (ageRank d) := by
  refine (rd_wr_self (regsWf_wr wf) (Nat.le_of_ble_eq_true rfl)).trans (Nat.mod_eq_of_lt ?_)
  unfold ageState
  split
  · exact Nat.two_pow_pos 2
  · split
    · exact Nat.lt_of_lt_of_le (Nat.lt_succ_self _) (Nat.le_of_ble_eq_true rfl)
    · exact Nat.lt_of_lt_of_le (Nat.lt_succ_self _) (Nat.le_of_ble_eq_true rfl)

theorem rd_ageShown_step : rd (ageShown s i d) (AGE_ISLAND_STEP i) = rd s (AGE_ISLAND_STEP i) :=
  (rd_wr_other (regsWf_wr wf) (Nat.le_of_ble_eq_true rfl) (Or.inr (Or.inr (Nat.le_of_ble_eq_true rfl)))).trans
    (rd_wr_other wf (Nat.le_of_ble_eq_true rfl) (Or.inr (Or.inr (Nat.le_of_ble_eq_true rfl))))

/-- The derating leaves the other fields of the island's register. -/
theorem rd_ageStepped {g : FRef} (below : g.lo + g.w ≤ 18) : rd (ageStepped s i d) g = rd (ageShown s i d) g := by
  unfold ageStepped onlyIf
  split
  · exact rd_wr_other (regsWf_wr (regsWf_wr wf)) (Nat.le_of_ble_eq_true rfl) (Or.inr (Or.inl below))
  · rfl

end

theorem runs_of_open {s : State} (hopen : hostOpen s = true) : mainRuns s = true := (Bool.and_eq_true_iff.mp hopen).1

/-- A key operation that starts takes the key and is BUSY (R538). -/
theorem keyGo_idle {s : State} {slot op : Nat} {recipe command : Bool} (runs : mainRuns s = true) (idle : rdB s SEC_KEY_RESULT_BUSY = false) :
    keyGo slot op recipe command s =
      (let key := ramBytes s 0x170480 97
       wr { s with mp := { s.mp with keyOp := some (slot, op, b2n recipe + 2 * b2n command, keyResult s slot op key, key) } } SEC_KEY_RESULT_BUSY 1) := by
  simp only [keyGo, runs, idle, Bool.not_true, Bool.or_self, Bool.false_eq_true, if_false]

/-- The junction temperature at which the device warns. -/
def warnAt (s : State) : Int := match paramOf 0x4111 with | some d => toSigned 32 (paramVal s d false) | none => 100000

/-- A junction reading is shown, and at the limit warns once (R565). -/
theorem thermalSense_above {s : State} {mC : Int} (fw : firmwareUp s = true) (above : warnAt (setParam s 0x4110 (ofSigned 32 mC)) - 3000 < mC) :
    let u := setParam s 0x4110 (ofSigned 32 mC)
    thermalSense mC s =
      if warnAt u ≤ mC ∧ u.mp.warned = false then record (raise { u with mp := { u.mp with warned := true } } srcThermal) rpMp 0x15 svWarning 0x0030 (leBytes 4 (ofSigned 32 mC)) else u := by
  intro u
  have quiet : onlyIf (decide (mC ≤ warnAt u - 3000)) (fun s => { s with mp := { s.mp with warned := false } }) u = u := if_neg (by rw [decide_eq_true_eq]; exact Int.not_le.mpr above)
  refine (if_neg (by rw [fw]; exact Bool.false_ne_true)).trans ?_
  refine (congrArg (fun v => if decide (warnAt u ≤ mC) && !v.mp.warned then
    record (raise { v with mp := { v.mp with warned := true } } srcThermal) rpMp 0x15 svWarning 0x0030 (leBytes 4 (ofSigned 32 mC)) else v) quiet).trans ?_
  simp only [Bool.and_eq_true, decide_eq_true_eq, Bool.not_eq_true']

theorem ageRank_le (d : Int) : ageRank d ≤ 3 := by
  unfold ageRank
  split
  · omega
  · split
    · omega
    · split <;> omega

end Sys2Proof.Machine

open Sys2Proof Sys2Proof.Machine

theorem deratingNeverReverses : Claims.DeratingNeverReverses := by
  intro s i d sound small low high
  have wf := regsWf_of_sound sound
  refine ⟨?_, (rd_ageOne wf (g := AGE_ISLAND_STATE i) rfl).trans ((rd_ageStepped wf (Nat.le_of_ble_eq_true rfl)).trans (rd_ageShown_state wf)), ?_, fun plain => (rd_ageOne wf (g := AGE_ISLAND_STEP i) rfl).trans ?_⟩
  · have drift : rd (ageOne s i d) (AGE_ISLAND_DRIFT i) = ofSigned 16 d % 2 ^ 16 :=
      (rd_ageOne wf rfl).trans ((rd_ageStepped wf (Nat.le_of_ble_eq_true rfl)).trans (rd_ageShown_drift wf))
    exact (congrArg (toSigned 16) drift).trans (toSigned_ofSigned16 low high)
  · rw [rd_ageOne wf (g := AGE_ISLAND_STEP i) rfl, ageStepped, onlyIf]
    split
    · have bound : rd s (AGE_ISLAND_STEP i) < 2 ^ 2 := Nat.mod_lt _ (Nat.two_pow_pos 2)
      have rank := ageRank_le d
      have shown : regsWf (ageShown s i d) = true := regsWf_wr (regsWf_wr wf)
      rw [rd_wr_self shown (f := AGE_ISLAND_STEP i) (Nat.le_of_ble_eq_true rfl), rd_ageShown_step wf, show (AGE_ISLAND_STEP i).w = 2 from rfl, Nat.mod_eq_of_lt (by omega)]
      exact Nat.le_max_left _ _
    · exact (rd_ageShown_step wf).ge
  · rw [ageStepped, plain]
    exact rd_ageShown_step wf

theorem scrubHeatAndLink : Claims.ScrubHeatAndLink := by
  intro s
  refine ⟨fun addr runs => ⟨fun low => onMain_next runs ?_, fun end_ => onMain_next runs ?_, fun low => onMain_next runs ?_⟩,
    fun mC runs fw => ⟨fun above below_ => onMain_next runs ?_, fun hot fresh => onMain_next runs ?_, fun hot warned => onMain_next runs ?_⟩, fun main => anyTime_next (if_pos main),
    fun sp w flit lt runs => onMain_next runs ?_, fun sp w flit lt runs speed width live => ?_⟩
  · exact if_neg (Nat.not_le.mpr low)
  · exact if_pos end_
  · exact if_neg (Nat.not_le.mpr low)
  · have above : warnAt (setParam s 0x4110 (ofSigned 32 mC)) - 3000 < mC := above
    have below_ : mC < warnAt (setParam s 0x4110 (ofSigned 32 mC)) := below_
    exact (thermalSense_above fw above).trans (if_neg fun ⟨hot, _⟩ => absurd hot (Int.not_le.mpr below_))
  · have hot : warnAt (setParam s 0x4110 (ofSigned 32 mC)) ≤ mC := hot
    exact (thermalSense_above fw (by omega)).trans (if_pos ⟨hot, fresh⟩)
  · have hot : warnAt (setParam s 0x4110 (ofSigned 32 mC)) ≤ mC := hot
    exact (thermalSense_above fw (by omega)).trans (if_neg fun ⟨_, fresh⟩ => Bool.false_ne_true (fresh.symm.trans warned))
  · simp only [linkEvent, Bool.not_true, Bool.and_false, Bool.false_eq_true, if_false]
  · simp only [linkState, speed, width, beq_eq_false_iff_ne.mpr live, bne_self_eq_false, onlyIf, Bool.false_and, Bool.false_eq_true, if_false]

theorem ageingAndRefresh : Claims.AgeingAndRefresh := by
  intro s runs fw
  refine ⟨fun drifts => onMain_next runs (if_pos fw), ⟨fun mid => onMain_next runs ?_, fun start => onMain_next runs ?_⟩,
    fun running idle => ⟨fun short => onMain_next runs ?_, fun last => onMain_next runs ?_⟩, fun flush => onMain_next runs ?_⟩
  · simp only [poweredHour, fw, if_neg mid, Bool.not_true, Bool.false_eq_true, if_false]
  · simp only [poweredHour, fw, if_pos start, Bool.not_true, Bool.false_eq_true, if_false]
  · simp only [refreshUnit, fw, running, idle, if_pos short, Option.isSome_none, Bool.not_true, Bool.or_self, Bool.false_eq_true, if_false]
  · simp only [refreshUnit, fw, running, idle, if_neg (Nat.not_lt.mpr last), Option.isSome_none, Bool.not_true, Bool.or_self, Bool.false_eq_true, if_false]
  · simp only [refreshUnit, flush, Bool.or_true, if_true]

theorem keyOperations : Claims.KeyOperations := by
  intro s slot
  refine ⟨fun recipe command hopen idle => ⟨onHost_next hopen (keyGo_idle (runs_of_open hopen) idle), onHost_next hopen (keyGo_idle (runs_of_open hopen) idle),
      onHost_next hopen (keyGo_idle (runs_of_open hopen) idle)⟩, fun recipe command hopen busy => onHost_next hopen ?_,
    fun k op roles res key runs has => ⟨fun ok => onMain_next runs ?_, fun bad other => onMain_next runs ?_, fun ok program => onMain_next runs ?_⟩⟩
  · simp only [keyGo, busy, Bool.or_true, if_true]
  · simp only [keyDone, has, ok, Bool.false_and, Bool.false_eq_true, if_false, OfNat.zero_ne_ofNat, bne_self_eq_false]
  · simp only [keyDone, has, bne_iff_ne.mpr bad, if_neg other, Bool.false_and, Bool.false_eq_true, if_false, if_true]
  · simp only [keyDone, has, ok, program, beq_self_eq_true, Nat.ofNat_pos, decide_true, Bool.and_self, if_true]

/-- Settles O57 (R385, R526, R527, R538 to R544, R565; logs 34 and 41). -/
theorem maintenance : Obligations.Maintenance := ⟨scrubHeatAndLink, ageingAndRefresh, keyOperations, deratingNeverReverses⟩
end

section
/-! SUPPORT. Lantern's shadow counts and its rules (R472 to R489). -/

namespace Sys2Proof.Machine

/-- A filtered edge on an unbroken port of mode INCREMENTAL, without another half a microsecond before (R472 to R475). -/
theorem lanternEdge_one {s : State} {p : Nat} {a b n0 : Bool} (counts : rd s (TRL_PORT_CFG_MODE p) = 1) (whole : lanBroken s p = false)
    (one : (a ≠ bitOf (mget 0 s.lan.levels p) 0 ∧ b = bitOf (mget 0 s.lan.levels p) 1) ∨ (a = bitOf (mget 0 s.lan.levels p) 0 ∧ b ≠ bitOf (mget 0 s.lan.levels p) 1))
    (edge : decodeEdge (rd s (TRL_PORT_CFG_DECODE p)) (a != bitOf (mget 0 s.lan.levels p) 0) a b = some n0) (slow : mget none s.lan.edgeAt p = none) :
    let u := { s with lan := { s.lan with levels := mput 0 s.lan.levels p (b2n a + 2 * b2n b) } }
    let v := frontNote u p 0
    lanternEdge p a b s =
      shadowTo { v with lan := { v.lan with edgeAt := mput none v.lan.edgeAt p (some v.now) } } p (rdI v (LAN_SHADOW_SHADOW p) + if n0 = rdB s (TRL_PORT_CFG_INVERT p) then 1 else -1) := by
  intro u v
  have both : (a != bitOf (mget 0 s.lan.levels p) 0 && b != bitOf (mget 0 s.lan.levels p) 1) = false := by
    rcases one with ⟨-, same⟩ | ⟨same, -⟩
    · rw [same, bne_self_eq_false, Bool.and_false]
    · rw [same, bne_self_eq_false, Bool.false_and]
  have some_ : (a == bitOf (mget 0 s.lan.levels p) 0 && b == bitOf (mget 0 s.lan.levels p) 1) = false := by
    rcases one with ⟨other, -⟩ | ⟨-, other⟩
    · rw [beq_eq_false_iff_ne.mpr other, Bool.false_and]
    · rw [beq_eq_false_iff_ne.mpr other, Bool.and_false]
  have counts' : rd u (TRL_PORT_CFG_MODE p) = 1 := counts
  have whole' : lanBroken u p = false := whole
  have edge' : decodeEdge (rd u (TRL_PORT_CFG_DECODE p)) (a != bitOf (mget 0 s.lan.levels p) 0) a b = some n0 := edge
  have slow' : mget none u.lan.edgeAt p = none := slow
  have sign : (if n0 != rdB u (TRL_PORT_CFG_INVERT p) then (-1 : Int) else 1) = if n0 = rdB s (TRL_PORT_CFG_INVERT p) then 1 else -1 := by
    rw [show rdB u (TRL_PORT_CFG_INVERT p) = rdB s (TRL_PORT_CFG_INVERT p) from rfl]
    by_cases same : n0 = rdB s (TRL_PORT_CFG_INVERT p)
    · rw [if_pos same, same, bne_self_eq_false, if_neg Bool.false_ne_true]
    · rw [if_neg same, if_pos (bne_iff_ne.mpr same)]
  rw [← sign]
  simp only [lanternEdge, u] at *
  simp only [counts', whole', both, some_, edge', slow', onlyIf, bne_self_eq_false, Bool.or_self, Bool.false_eq_true, if_false]
  rfl

end Sys2Proof.Machine

open Sys2Proof Sys2Proof.Machine

theorem lanternCounts : Claims.LanternCounts := by
  intro s p a b aon
  refine ⟨fun other => onAon_next aon ?_, fun counts whole na nb => onAon_next aon ?_, fun n0 counts whole one edge slow => onAon_next aon (lanternEdge_one counts whole one edge slow),
    fun pair ab => ⟨onAon_next aon ?_, onAon_next aon ?_⟩⟩
  · refine if_pos (Bool.or_eq_true_iff.mpr (Or.inl (bne_iff_ne.mpr ?_)))
    exact other
  · refine (if_neg ?_).trans (if_pos ?_)
    · rw [Bool.or_eq_true, bne_iff_ne]
      rintro (other | broken)
      · exact other counts
      · exact Bool.false_ne_true (whole.symm.trans broken)
    · rw [bne_iff_ne.mpr na, bne_iff_ne.mpr nb]
      rfl
  · exact if_neg (Nat.not_le.mpr ab)
  · exact if_neg (Nat.not_le.mpr ab)

theorem lanternRules : Claims.LanternRules := by
  intro s
  refine ⟨fun homes aon => onAon_next aon rfl, fun i hopen => ⟨fun idle => onHost_next hopen ?_, fun busy => onHost_next hopen ?_, onHost_next hopen rfl⟩, fun mask hopen => onHost_next hopen rfl⟩
  · exact if_pos idle
  · exact if_neg busy

theorem ruleStates : Claims.RuleStates := by
  intro s i sound small
  have wf := regsWf_of_sound sound
  refine ⟨fun idle => if_pos idle, fun on quiet => ?_, fun fired holds => ?_⟩
  · have tick : ruleTick s i = wr (setRule s i (ruleCount (rule s i) (ruleHolds s i) (rd s (LAN_RULE_TIME_T_W i)))) (LAN_RULE_STATUS_STATE i) 1 :=
      (if_neg on).trans (if_neg (by rw [quiet]; exact Bool.false_ne_true))
    rw [tick]
    exact ⟨rd_wr_self wf (Nat.le_of_ble_eq_true rfl), rfl, fun f other => rd_wr_apart wf other⟩
  · exact (if_neg (by omega)).trans ((if_pos holds).trans (if_neg (by omega)))

/-- Settles O50 (R472 to R489, Table 17-3; log 38). -/
theorem lanternCountsAndRules : Obligations.LanternCountsAndRules := ⟨lanternCounts, lanternRules, ruleStates⟩
end

section
/-! SUPPORT. Accepting a record into the ring (R496, R501). -/

namespace Sys2Proof.Machine

/-- Where no route of events is enabled, a record leaves no event (R496). -/
theorem eventCopy_none {s : State} (quiet : ∀ i < 4, rdB s (DLV_EVT_ROUTE_EN i) = false) (r : Rec) : eventCopy s r = s := by
  have fixed : ∀ l : List Nat, (∀ i ∈ l, i < 4) → ∀ f : State → Nat → State, (∀ i < 4, f s i = s) → each l f s = s := by
    intro l small f same
    unfold each
    induction l with
    | nil => rfl
    | cons i l ih =>
      rw [List.foldl_cons, same i (small i List.mem_cons_self)]
      exact ih fun j hj => small j (List.mem_cons_of_mem i hj)
  refine fixed (List.range 4) (fun i hi => List.mem_range.mp hi) _ fun i hi => if_neg ?_
  rw [quiet i hi, Bool.false_and, Bool.false_and]
  exact Bool.false_ne_true

/-- A ring with a place free gives none up for the next record. -/
theorem ringFree_room {s : State} (room : s.rcd.ring.length < 4096) : ringFree s = s := by
  unfold ringFree
  split
  · exact if_neg (Nat.not_le.mpr room)
  · rfl

theorem recArea_of_regs {s t : State} (same : rd t REC_CFG_AREA = rd s REC_CFG_AREA) : recArea t = recArea s := by
  unfold recArea
  rw [same]

/-- A record pushed into a ring with room takes the next SEQ and stands last. -/
theorem ringPush_room {s : State} (wf : regsWf s = true) (room : s.rcd.ring.length < 4096) (area : recArea s ≠ 2) (r : Rec) :
    ringPush s r = { addWrap s REC_SEQ_SEQ 1 with rcd := { s.rcd with ring := s.rcd.ring ++ [{ r := { r with seq := rd s REC_SEQ_SEQ } }] } } := by
  have free : ringFree (addWrap s REC_SEQ_SEQ 1) = addWrap s REC_SEQ_SEQ 1 := ringFree_room room
  have apart : rd (addWrap s REC_SEQ_SEQ 1) REC_CFG_AREA = rd s REC_CFG_AREA := rd_wr_apart wf (by decide)
  simp only [ringPush, ringAdd, takeSeq, free]
  exact if_neg fun same => area ((recArea_of_regs apart).symm.trans same)

section
variable {s : State} (wf : regsWf s = true) (room : s.rcd.ring.length < 4096) (area : recArea s ≠ 2) (r : Rec)
include wf room area

theorem ring_ringPush : (ringPush s r).rcd.ring = s.rcd.ring ++ [{ r := { r with seq := rd s REC_SEQ_SEQ } }] := by rw [ringPush_room wf room area]

theorem regsWf_ringPush : regsWf (ringPush s r) = true := by
  rw [ringPush_room wf room area]
  exact regsWf_wr wf

theorem rd_ringPush_seq : rd (ringPush s r) REC_SEQ_SEQ = (rd s REC_SEQ_SEQ + 1) % 2 ^ 32 := by
  rw [ringPush_room wf room area]
  exact rd_wr_self (f := REC_SEQ_SEQ) wf (by decide)

end

/-- The ring with its last record grown to l. -/
def ringGrown (s : State) (l : Rec) : State :=
  { s with rcd := { s.rcd with ring := s.rcd.ring.dropLast ++ (s.rcd.ring.getLast?.toList.map (fun x => { x with r := l, grown := x.circ.isSome })) } }

section
variable {s : State} {w : WaitRec} {x : RingRec} {pre : List RingRec} (has : s.rcd.ring = pre ++ [x]) (mild : w.r.sev < 5) (quiet : ∀ i < 4, rdB s (DLV_EVT_ROUTE_EN i) = false)
include has mild quiet

/-- A record identical to the last of the ring, within the largest count, adds its count to it (R501). -/
theorem ringAccept_coalesces (same : sameRec x.r w.r = true) (fits : x.r.rep + w.r.rep ≤ 65535) (open_ : x.r.rep < 65535) :
    ∃ l : Rec, l.rep = x.r.rep + w.r.rep ∧ ringAccept s w = (recShow (ringGrown s l), true) := by
  refine ⟨{ x.r with rep := x.r.rep + w.r.rep, lastDt := max x.r.lastDt (min (2 ^ 32 - 1) (w.last - x.r.duc)) }, rfl, ?_⟩
  have last : s.rcd.ring.getLast? = some x := by rw [has, List.getLast?_concat]
  have one : coalesce x.r w = some ({ x.r with rep := x.r.rep + w.r.rep, lastDt := max x.r.lastDt (min (2 ^ 32 - 1) (w.last - x.r.duc)) }, none) := by
    simp only [coalesce, same, decide_eq_true open_, Bool.and_self, if_true, if_pos fits]
  have none_ : ∀ y : Recorder, eventCopy { s with rcd := y } w.r = { s with rcd := y } := fun y => eventCopy_none (s := { s with rcd := y }) quiet w.r
  simp only [ringAccept, last, one, none_, ringGrown, onlyIf, decide_eq_false (Nat.not_le.mpr mild), Bool.false_eq_true, if_false]

/-- A record that is not identical takes the next SEQ and stands last (R501). -/
theorem ringAccept_next (wf : regsWf s = true) (other : sameRec x.r w.r = false) (fits : w.r.rep ≤ 65535) (room : s.rcd.ring.length < 4096) (area : recArea s ≠ 2) :
    ringAccept s w = (recShow (ringPush s { w.r with lastDt := min (2 ^ 32 - 1) (w.last - w.r.duc) }), true) := by
  have last : s.rcd.ring.getLast? = some x := by rw [has, List.getLast?_concat]
  have none_ : coalesce x.r w = none := by simp only [coalesce, other, Bool.false_and, Bool.false_eq_true, if_false]
  have free : ringRoom s = true := by rw [ringRoom, decide_eq_true room, Bool.true_or]
  have still : ∀ i < 4, rdB (ringPush s { w.r with lastDt := min (2 ^ 32 - 1) (w.last - w.r.duc) }) (DLV_EVT_ROUTE_EN i) = false := fun i hi => by
    have apart : (DLV_EVT_ROUTE_EN i).a ≠ REC_SEQ_SEQ.a := by simp only [DLV_EVT_ROUTE_EN, REC_SEQ_SEQ]; omega
    rw [ringPush_room wf room area]
    exact (congrArg (· != 0) (rd_wr_apart wf apart)).trans (quiet i hi)
  simp only [ringAccept, last, none_, ringPushAll, free, if_pos fits, eventCopy_none still, onlyIf, decide_eq_false (Nat.not_le.mpr mild), Bool.not_true, Bool.false_eq_true, if_false]

end

/-- Showing the ring's levels leaves every field of another register. -/
theorem rd_recShow {s : State} (wf : regsWf s = true) {g : FRef} (other : g.a ≠ 0x16001C) : rd (recShow s) g = rd s g :=
  (rd_wr_apart (regsWf_wr wf) other).trans (rd_wr_apart wf other)

end Sys2Proof.Machine

open Sys2Proof Sys2Proof.Machine

/-- Settles O53 (R496, R501). -/
theorem recordsCoalesce : Obligations.RecordsCoalesce := by
  intro s w x pre sound has mild area quiet
  have wf := regsWf_of_sound sound
  refine ⟨fun same fits open_ => ?_, fun other fits room => ?_⟩
  · obtain ⟨l, count, eq⟩ := ringAccept_coalesces has mild quiet same fits open_
    have ring : (recShow (ringGrown s l)).rcd.ring = pre ++ [{ x with r := l, grown := x.circ.isSome }] := by
      show s.rcd.ring.dropLast ++ _ = _
      rw [has, List.dropLast_concat, List.getLast?_concat]
      rfl
    rw [eq]
    refine ⟨rfl, ?_, ?_, rd_recShow (s := ringGrown s l) (g := REC_SEQ_SEQ) wf (by decide)⟩
    · rw [ring, has, List.length_append, List.length_append]
      rfl
    · rw [ring, List.getLast?_concat, Option.map_some, count]
  · have ring := ring_ringPush wf room area { w.r with lastDt := min (2 ^ 32 - 1) (w.last - w.r.duc) }
    rw [ringAccept_next has mild quiet wf other fits room area]
    refine ⟨rfl, ?_, ?_, (rd_recShow (g := REC_SEQ_SEQ) (regsWf_ringPush wf room area _) (by decide)).trans (rd_ringPush_seq wf room area _)⟩
    · exact (congrArg List.length ring).trans List.length_append
    · refine (congrArg (fun l : List RingRec => l.getLast?.map (fun y => y.r.seq)) ring).trans ?_
      rw [List.getLast?_concat]
      rfl
end

section
/-! SUPPORT. What a conventional reset leaves of the registers (R384). -/

namespace Sys2Proof.Machine

theorem mixReset_none (a : Nat) (v : DWord) : mixReset a v 0 = regReset a := by
  unfold mixReset
  simp [Nat.land]

theorem mixReset_all (a : Nat) (v : DWord) : mixReset a v (2 ^ 64 - 1) = v := by
  have whole : ∀ x : DWord, Nat.land x.toNat (2 ^ 64 - 1) = x.toNat := fun x => (Nat.and_two_pow_sub_one_eq_mod x.toNat 64).trans (Nat.mod_eq_of_lt x.isLt)
  unfold mixReset
  rw [whole, whole, Nat.add_sub_cancel, BitVec.ofNat_toNat, BitVec.setWidth_eq]

theorem mixReset_reset (a keep : Nat) : mixReset a (regReset a) keep = regReset a := by
  unfold mixReset
  rw [Nat.add_comm, Nat.add_sub_cancel, BitVec.ofNat_toNat, BitVec.setWidth_eq]

/-- Going through the listed registers, each takes the bits kept of its value; one that is not listed stays as it was. -/
theorem mget_foldl_mixReset {keep : Nat → Nat} {a : Nat} (l m : List (Nat × DWord)) (hl : mwf regReset l = true) (hm : mwf regReset m = true) :
    mget (regReset a) (l.foldl (fun m p => mput (regReset p.1) m p.1 (mixReset p.1 p.2 (keep p.1))) m) a =
      if mget (regReset a) l a = regReset a then mget (regReset a) m a else mixReset a (mget (regReset a) l a) (keep a) := by
  induction l generalizing m with
  | nil => exact (if_pos rfl).symm
  | cons p l ih =>
    obtain ⟨k, v⟩ := p
    obtain ⟨listed, rising, rest⟩ := (mwf_cons regReset k v l).1 hl
    rw [List.foldl_cons, ih _ rest (mput_wf regReset m k _ hm)]
    by_cases here : a = k
    · subst here
      rw [mget_below _ l a rising, if_pos rfl, mget_mput_self regReset m a _ hm, mget, if_pos rfl, if_neg listed]
    · have found : mget (regReset a) ((k, v) :: l) a = mget (regReset a) l a := by
        rw [mget, if_neg here]
        split
        · exact (mget_below _ l a (fun x hx => Nat.lt_trans ‹a < k› (rising x hx))).symm
        · rfl
      rw [found, mget_mput_other _ _ regReset m k a _ here hm]

/-- A reset leaves of each register the bits it keeps, and of the others their reset values. -/
theorem mget_regsKeep {s : State} (h : regsWf s = true) (keep : Nat → Nat) (a : Nat) : mget (regReset a) (regsKeep s keep) a = mixReset a (getReg s a) (keep a) := by
  refine (mget_foldl_mixReset s.regs [] h rfl).trans ?_
  split
  · rename_i listed
    rw [show getReg s a = regReset a from listed, mixReset_reset]
    rfl
  · rfl

/-- With no key operation and no long command, a reset has nothing to cut off. -/
theorem resetCut_idle {s : State} (idle : s.mp.keyOp = none) (none_ : s.mp.long = []) : each s.mp.long firmwareCut (keyCut s) = s := by
  rw [none_]
  exact show keyCut s = s by simp only [keyCut, idle]

/-- With no key operation and no long command, a reset leaves every register but the recorder's cursor and status as the bits it keeps. -/
theorem getReg_resetMain {s : State} {a : Nat} (sound : Sound s) (idle : s.mp.keyOp = none) (none_ : s.mp.long = []) (cursor : a ≠ 0x160010) (status : a ≠ 0x160004) :
    getReg (resetMain s) a = mixReset a (getReg s a) (keepMask a) := by
  unfold resetMain
  rw [resetCut_idle idle none_]
  have kept : ∀ u : State, u.regs = regsKeep s keepMask → regsWf u = true := fun u same => (congrArg (mwf regReset) same).trans (regsKeep_wf s keepMask)
  refine (getReg_setReg_other (regsWf_wr (kept _ rfl)) status).trans ((getReg_setReg_other (kept _ rfl) cursor).trans ?_)
  exact mget_regsKeep (regsWf_of_sound sound) keepMask a

end Sys2Proof.Machine

open Sys2Proof Sys2Proof.Machine

/-- Settles O38 (R384). -/
theorem resetClearsMain : Obligations.ResetClearsMain := by
  intro s sound idle none_
  refine ⟨fun a gone cursor status => ?_, fun a kept => ?_, ?_, ?_, ?_, rfl, rfl⟩
  · rw [getReg_resetMain sound idle none_ cursor status, gone, mixReset_none]
  · have cursor : a ≠ 0x160010 := fun h => absurd (h ▸ kept) (by decide +kernel)
    have status : a ≠ 0x160004 := fun h => absurd (h ▸ kept) (by decide +kernel)
    rw [getReg_resetMain sound idle none_ cursor status, kept, mixReset_all]
  all_goals
    unfold resetMain
    rw [resetCut_idle idle none_]
    rfl
end

section
/-! SUPPORT. Queues and their contexts behind the cache (R292 to R295, R320): what an access finds, and what one that is set reads as. -/

namespace Sys2Proof.Machine

/-- Bytes written one after the other are a write through BAR2 with every byte enabled. -/
theorem hbmWrite_eq_bar2Write (s : State) (a : Nat) (l : List Byte) : hbmWrite s a l = bar2Write a (l.map some) s := by
  induction l generalizing s a with
  | nil => rfl
  | cons b l ih => exact ih (hbmSet s a b) (a + 1)

theorem hbmWrite_frame (s : State) (a : Nat) (l : List Byte) : hbmWrite s a l = { s with hbm := (hbmWrite s a l).hbm } := by
  rw [hbmWrite_eq_bar2Write]
  exact bar2Write_frame a (l.map some) s

/-- Bytes that are written below 24 GB read back. -/
theorem hbmRead_hbmWrite {s : State} {a : Nat} {l : List Byte} (wf : hbmWf s = true) (room : a + l.length ≤ hbmSize) : hbmRead (hbmWrite s a l) a l.length = l := by
  refine List.ext_getElem (by simp [hbmRead]) fun i hi hl => ?_
  have read : (hbmRead (hbmWrite s a l) a l.length)[i] = hbmByte (hbmWrite s a l) (a + i) := by simp [hbmRead]
  rw [read, hbmWrite_eq_bar2Write]
  refine hbmByte_bar2Write_enabled a (l.map some) wf (Nat.le_add_right a i) ?_ (by omega)
  rw [Nat.add_sub_cancel_left, List.getElem?_map, List.getElem?_eq_getElem hl]
  rfl

section
variable (s : State) (key : Nat)

/-- An access through the cache changes the cache, the memory that a context goes back to, and the count of misses. -/
theorem touchKey_frame : ∃ regs hbm cache, touchKey s key = { s with regs := regs, hbm := hbm, dlv := { s.dlv with cache := cache } } := by
  unfold touchKey
  dsimp only
  split
  · exact ⟨_, _, _, rfl⟩
  · split
    · exact ⟨_, _, _, rfl⟩
    · split
      · unfold onlyIf
        split
        · exact ⟨_, _, _, hbmWrite_frame _ _ _⟩
        · exact ⟨_, _, _, rfl⟩
      · exact ⟨_, _, _, rfl⟩

/-- The only register that an access writes is the count of misses. -/
theorem touchKey_regs : RegsKept (· ≠ 0x1200D0) s (touchKey s key) := by
  have counted : RegsKept (· ≠ 0x1200D0) s (addWrap s DLV_CNT_MISS_COUNT 1) := (regsKept_refl _ s).addWrap DLV_CNT_MISS_COUNT 1 (fun h => h rfl)
  unfold touchKey
  dsimp only
  split
  · exact (regsKept_refl _ s).same rfl
  · split
    · exact counted.same rfl
    · split
      · refine RegsKept.trans (t := setCache (addWrap s DLV_CNT_MISS_COUNT 1) key _) (counted.same rfl) ((regsKept_refl _ _).onlyIf _ fun _ => ?_)
        unfold ctxStore
        rw [hbmWrite_frame]
        exact (regsKept_refl _ _).same rfl
      · exact counted

theorem cacheSet_setCache {l : List CacheWay} (some_ : l ≠ []) : cacheSet (setCache s key l) key = l := mget_mput_marked _ _ _ some_

/-- After an access the context stands first in its set, as it stood before. -/
theorem cacheSet_touchKey : ∃ d l, cacheSet (touchKey s key) key = { key := key, ctx := ctxAt s key, dirty := d } :: l := by
  unfold touchKey
  dsimp only
  split
  · next w found =>
    have mine : w.key = key := beq_iff_eq.mp (List.find?_some (p := fun w : CacheWay => w.key == key) found)
    have same : w = { key := key, ctx := ctxAt s key, dirty := w.dirty } := by
      unfold ctxAt cached
      rw [found, ← mine]
    exact ⟨w.dirty, _, (cacheSet_setCache s key (List.cons_ne_nil _ _)).trans (congrArg (· :: _) same)⟩
  · next missed =>
    have new : ctxAt s key = ctxLoad s key := by
      unfold ctxAt cached
      rw [missed]
    rw [new]
    split
    · exact ⟨false, _, cacheSet_setCache _ key (List.cons_ne_nil _ _)⟩
    · next full =>
      split
      · next v _ =>
        unfold onlyIf
        split
        · refine ⟨false, (cacheSet s key).filter (fun x => x.key != v.key), ?_⟩
          unfold ctxStore
          beta_reduce
          rw [hbmWrite_frame]
          exact cacheSet_setCache _ key (List.cons_ne_nil _ _)
        · exact ⟨false, _, cacheSet_setCache _ key (List.cons_ne_nil _ _)⟩
      · next none_ =>
        have empty : cacheSet s key = [] := List.getLast?_eq_none_iff.mp (Option.or_eq_none_iff.mp none_).2
        exact absurd (show (cacheSet s key).length < 8 by rw [empty]; decide) full

end

/-- A queue stands so, with its context in the cache, first in its set. -/
def HasQueue (s : State) (q : Nat) (x : Queue) : Prop :=
  regsWf s = true ∧ (mget none s.dlv.qs (qKey s q)).getD {} = x.toQueueW ∧ ∃ d l, cacheSet s (qKey s q) = { key := qKey s q, ctx := x.ctx, dirty := d } :: l

section
variable {s t : State} {q : Nat} {x : Queue}

theorem HasQueue.wf (h : HasQueue s q x) : regsWf s = true := h.1

theorem HasQueue.eq (h : HasQueue s q x) : queueOf s q = x := by
  obtain ⟨-, beside, d, l, first⟩ := h
  have ctx : ctxAt s (qKey s q) = x.ctx := by
    unfold ctxAt cached
    rw [first, List.find?_cons_of_pos (p := fun w : CacheWay => w.key == qKey s q) (beq_self_eq_true _)]
  unfold queueOf
  rw [beside, ctx]

/-- What leaves the cache, the queues and the base of the contexts leaves a queue standing. -/
theorem HasQueue.kept (h : HasQueue s q x) (qs : t.dlv.qs = s.dlv.qs) (cache : t.dlv.cache = s.dlv.cache) (regs : RegsKept (· = 0x120008) s t) : HasQueue t q x := by
  obtain ⟨wf, beside, first⟩ := h
  have key : qKey t q = qKey s q := by
    unfold qKey
    rw [regs.rd wf rfl]
  unfold HasQueue cacheSet
  rw [key, qs, cache]
  exact ⟨(regs wf).1, beside, first⟩

/-- An access leaves the place of the contexts. -/
theorem qKey_touchKey (wf : regsWf s = true) (key : Nat) : qKey (touchKey s key) q = qKey s q := by
  unfold qKey
  rw [(touchKey_regs s key).rd wf (g := DLV_QCTX_BASE_BASE) (by decide)]

/-- An access to a queue's context leaves the queue as it stood, and puts its context in the cache (R320). -/
theorem hasQueue_touchCtx (wf : regsWf s = true) (q : Nat) : HasQueue (touchCtx s q) q (queueOf s q) := by
  obtain ⟨regs, hbm, cache, frame⟩ := touchKey_frame s (qKey s q)
  have qs : (touchKey s (qKey s q)).dlv.qs = s.dlv.qs := by rw [frame]
  unfold HasQueue touchCtx
  rw [qKey_touchKey wf, qs]
  exact ⟨(touchKey_regs s _ wf).1, rfl, cacheSet_touchKey s _⟩

/-- A queue that is set stands as it was set, what its context shows of its pending entries apart. -/
theorem hasQueue_setQueue (wf : regsWf s = true) (q : Nat) (x : Queue) : HasQueue (setQueue s q x) q { x with ctx := showPending x.ctx x.toQueueW } := by
  let u : State := { s with dlv := { s.dlv with qs := mput none s.dlv.qs (qKey s q) (some x.toQueueW) } }
  obtain ⟨regs, hbm, cache, frame⟩ := touchKey_frame u (qKey s q)
  obtain ⟨d, l, first⟩ := cacheSet_touchKey u (qKey s q)
  have key : qKey (setQueue s q x) q = qKey s q := qKey_touchKey (s := u) wf (qKey s q)
  have qs : (touchKey u (qKey s q)).dlv.qs = u.dlv.qs := by rw [frame]
  refine ⟨(touchKey_regs u (qKey s q) wf).1, ?_, true, l.map (fun w => if w.key = qKey s q then { w with ctx := showPending x.ctx x.toQueueW, dirty := true } else w), ?_⟩
  · rw [key]
    show (mget none (touchKey u (qKey s q)).dlv.qs (qKey s q)).getD {} = x.toQueueW
    rw [qs, mget_mput_marked _ _ _ (Option.some_ne_none _)]
    rfl
  · rw [key]
    have set : setQueue s q x = setCache (touchKey u (qKey s q)) (qKey s q)
        ((cacheSet (touchKey u (qKey s q)) (qKey s q)).map (fun w => if w.key = qKey s q then { w with ctx := showPending x.ctx x.toQueueW, dirty := true } else w)) := rfl
    rw [set, first, List.map_cons, if_pos rfl, cacheSet_setCache _ _ (List.cons_ne_nil _ _)]

/-- Setting a queue changes the queues, the cache, the memory that a context goes back to and the count of misses. -/
theorem setQueue_frame (s : State) (q : Nat) (x : Queue) : ∃ regs hbm qs cache, setQueue s q x = { s with regs := regs, hbm := hbm, dlv := { s.dlv with qs := qs, cache := cache } } := by
  obtain ⟨regs, hbm, cache, frame⟩ := touchKey_frame { s with dlv := { s.dlv with qs := mput none s.dlv.qs (qKey s q) (some x.toQueueW) } } (qKey s q)
  unfold setQueue putCtx
  rw [frame]
  exact ⟨_, _, _, _, rfl⟩

theorem setQueue_regs (s : State) (q : Nat) (x : Queue) : RegsKept (· ≠ 0x1200D0) s (setQueue s q x) :=
  (((regsKept_refl _ s).same rfl).trans (touchKey_regs { s with dlv := { s.dlv with qs := mput none s.dlv.qs (qKey s q) (some x.toQueueW) } } (qKey s q))).same rfl

end

/-- Between these states delivery's work stands still, but for holdoffs that begin; the reads under way and the place of the contexts are as they were. -/
def Steady (s t : State) : Prop :=
  (∃ hold, t.dlv = { s.dlv with hold := hold }) ∧ (t.hep.tags = s.hep.tags ∧ t.hep.quar = s.hep.quar) ∧ RegsKept (· = 0x120008) s t

section
variable {s t u : State}

theorem steady_refl (s : State) : Steady s s := ⟨⟨_, rfl⟩, ⟨rfl, rfl⟩, regsKept_refl _ s⟩

theorem Steady.trans (h : Steady s t) (k : Steady t u) : Steady s u := by
  obtain ⟨⟨a, ha⟩, ⟨tags, quar⟩, regs⟩ := h
  obtain ⟨⟨b, hb⟩, ⟨tags', quar'⟩, regs'⟩ := k
  exact ⟨⟨b, by rw [hb, ha]⟩, ⟨tags'.trans tags, quar'.trans quar⟩, regs.trans regs'⟩

theorem Steady.same (h : Steady s t) (regs : u.regs = t.regs) (dlv : ∃ hold, u.dlv = { t.dlv with hold := hold }) (tags : u.hep.tags = t.hep.tags) (quar : u.hep.quar = t.hep.quar) : Steady s u :=
  h.trans ⟨dlv, ⟨tags, quar⟩, (regsKept_refl _ t).same regs⟩

theorem Steady.wr (h : Steady s t) (f : FRef) (v : Nat) (other : f.a ≠ 0x120008) : Steady s (wr t f v) :=
  h.trans ⟨⟨_, rfl⟩, ⟨rfl, rfl⟩, (regsKept_refl _ t).wr f v other⟩

theorem Steady.onlyIf {f : State → State} (h : Steady s t) (b : Bool) (hf : Steady t (f t)) : Steady s (onlyIf b f t) := by
  unfold Machine.onlyIf
  split
  · exact h.trans hf
  · exact h

theorem Steady.each {α : Type} {f : State → α → State} {l : List α} (h : Steady s t) (hf : ∀ v, ∀ a ∈ l, Steady v (f v a)) : Steady s (each l f t) := by
  unfold Machine.each
  induction l generalizing t with
  | nil => exact h
  | cons a l ih => exact ih (h.trans (hf t a List.mem_cons_self)) (fun v b hb => hf v b (List.mem_cons_of_mem a hb))

theorem Steady.has {q : Nat} {x : Queue} (h : Steady s t) (stands : HasQueue s q x) : HasQueue t q x := by
  obtain ⟨⟨hold, dlv⟩, -, regs⟩ := h
  exact stands.kept (by rw [dlv]) (by rw [dlv]) regs

theorem statusField_apart (src : Nat) {a : Nat} (odd : a % 16 ≠ 0) : (statusField src).a ≠ a := by
  intro same
  have : 0x20000 + 0x10 * (src / 32) = a := same
  omega

theorem requestSrc_reads (s : State) (src : Nat) : (requestSrc s src).hep.tags = s.hep.tags ∧ (requestSrc s src).hep.quar = s.hep.quar := by
  have vector : ∀ v, (requestVector s v).hep.tags = s.hep.tags ∧ (requestVector s v).hep.quar = s.hep.quar := fun v => by
    unfold requestVector sendMessage
    dsimp only
    split
    · exact ⟨rfl, rfl⟩
    · split <;> exact ⟨rfl, rfl⟩
  unfold requestSrc
  split
  · unfold updateInta
    dsimp only
    split <;> exact ⟨rfl, rfl⟩
  · split
    · exact vector _
    · exact vector _

/-- An event of a source is none of delivery's. -/
theorem Steady.raise (h : Steady s t) (src : Nat) : Steady s (raise t src) := by
  have flag : Steady s (Machine.wr t (statusField src) 1) := h.wr _ _ (statusField_apart src (by decide))
  unfold Machine.raise
  dsimp only
  split
  · split
    · obtain ⟨tags, quar⟩ := requestSrc_reads (Machine.wr t (statusField src) 1) src
      refine flag.same ?_ ?_ tags quar
      · rw [requestSrc_frame]
      · rw [requestSrc_frame]
        exact ⟨_, rfl⟩
    · exact flag
  · exact h

/-- A record that is offered is none of delivery's. -/
theorem Steady.offerRec (h : Steady s t) (port : Nat) (r : Rec) : Steady s (offerRec t port r) := by
  unfold Machine.offerRec
  split
  · unfold lanternHold
    split
    · exact (h.wr REC_SEQ_SEQ (rd t REC_SEQ_SEQ + 1) (by decide)).same rfl ⟨_, rfl⟩ rfl rfl
    · exact h.wr LAN_CNT_LOGLOST_COUNT _ (by decide)
  · split
    · unfold toLatch
      split
      · exact h.same rfl ⟨_, rfl⟩ rfl rfl
      · exact (h.same (u := { t with rcd := _ }) rfl ⟨_, rfl⟩ rfl rfl).wr REC_CNT_LOST_COUNT _ (by decide)
    · exact h.same rfl ⟨_, rfl⟩ rfl rfl

theorem Steady.record (h : Steady s t) (port source sev code : Nat) (payload : List Byte) : Steady s (record t port source sev code payload) := h.offerRec _ _

theorem Steady.groupCause (h : Steady s t) (g : Nat) : Steady s (groupCause t g) := by
  unfold Machine.groupCause
  split
  · exact h.same rfl ⟨_, rfl⟩ rfl rfl
  · dsimp only
    split
    · exact h.raise _
    · exact (h.raise _).same rfl ⟨_, rfl⟩ rfl rfl

theorem Steady.groupFlag (h : Steady s t) (g : Nat) (f : FRef) (other : f.a ≠ 0x120008) : Steady s (groupFlag t g f) := by
  unfold Machine.groupFlag
  split
  · exact h
  · exact (h.wr f 1 other).groupCause g

/-- Levels and watermarks are shown; no queue changes (R318). -/
theorem Steady.updateGroup (h : Steady s t) (g : Nat) : Steady s (updateGroup t g) := by
  unfold Machine.updateGroup
  extract_lets lv n a0 f0 a f t1 t2 t3
  have shown : Steady s t2 :=
    ((((h.wr (DLV_GRP_LEVEL_LEVEL g) lv (by simp [DLV_GRP_LEVEL_LEVEL]; omega)).wr (DLV_GRP_FIFO_LEVEL_LEVEL g) n (by simp [DLV_GRP_FIFO_LEVEL_LEVEL]; omega)).wr
      (DLV_GRP_STATUS_ABOVE g) (b2n a) (by simp [DLV_GRP_STATUS_ABOVE]; omega)).wr (DLV_GRP_STATUS_FIFO_ABOVE g) (b2n f) (by simp [DLV_GRP_STATUS_FIFO_ABOVE]; omega)).wr
      (DLV_GRP_STATUS_NOTIFY g) (b2n (n != 0)) (by simp [DLV_GRP_STATUS_NOTIFY]; omega)
  have caused : Steady s t3 := shown.onlyIf _ ((steady_refl t2).groupCause g)
  split
  · exact caused
  · exact caused.each fun v n _ => (steady_refl v).wr (DLV_XOFF_CFG_ACTIVE n) _ (by simp [DLV_XOFF_CFG_ACTIVE]; omega)

/-- A slot that is released is none of delivery's (R309). -/
theorem Steady.releaseItem (h : Steady s t) (o : Offer) : Steady s (releaseItem t o) := by
  unfold Machine.releaseItem
  split
  · exact h
  · next f _ =>
    split
    · exact h
    · have slots : ∀ v : State, Steady v (freeSlots v f.1) := fun v => by
        unfold freeSlots
        extract_lets x hold lead keep gone kept lost far
        split
        · exact steady_refl v
        · unfold showFree
          exact (((steady_refl v).same (u := setFrm v f.1 _) rfl ⟨_, rfl⟩ rfl rfl).wr (FRM_SLOT_COUNT_FREE f.1) _ (by simp [FRM_SLOT_COUNT_FREE]; omega))
      unfold releaseSlot laterOnce
      dsimp only
      have freed : ∀ x, Steady s (freeSlots (setFrm t f.1 x) f.1) := fun x => (h.same (u := setFrm t f.1 x) rfl ⟨_, rfl⟩ rfl rfl).trans (slots _)
      split
      · exact freed _
      · exact (freed _).same rfl ⟨_, rfl⟩ rfl rfl

end

/-- Between these states only queues, their contexts, notifications and holdoffs of delivery have changed, and the place of the contexts is as it was. -/
def QueueWork (s t : State) : Prop :=
  (∃ hold qs cache fifo, t.dlv = { s.dlv with hold := hold, qs := qs, cache := cache, fifo := fifo }) ∧ RegsKept (· = 0x120008) s t

section
variable {s t u : State}

theorem QueueWork.trans (h : QueueWork s t) (k : QueueWork t u) : QueueWork s u := by
  obtain ⟨⟨a, b, c, d, ha⟩, regs⟩ := h
  obtain ⟨⟨a', b', c', d', hb⟩, regs'⟩ := k
  exact ⟨⟨a', b', c', d', by rw [hb, ha]⟩, regs.trans regs'⟩

theorem Steady.work (h : Steady s t) : QueueWork s t := by
  obtain ⟨⟨hold, dlv⟩, -, regs⟩ := h
  exact ⟨⟨hold, _, _, _, dlv⟩, regs⟩

theorem queueWork_refl (s : State) : QueueWork s s := (steady_refl s).work

theorem queueWork_touchCtx (s : State) (q : Nat) : QueueWork s (touchCtx s q) := by
  obtain ⟨regs, hbm, cache, frame⟩ := touchKey_frame s (qKey s q)
  refine ⟨⟨s.dlv.hold, s.dlv.qs, cache, s.dlv.fifo, ?_⟩, fun wf => ⟨(touchKey_regs s _ wf).1, fun a ha => (touchKey_regs s _ wf).2 a (by rw [ha]; decide)⟩⟩
  unfold touchCtx
  rw [frame]

theorem queueWork_setQueue (s : State) (q : Nat) (x : Queue) : QueueWork s (setQueue s q x) := by
  obtain ⟨regs, hbm, qs, cache, frame⟩ := setQueue_frame s q x
  refine ⟨⟨s.dlv.hold, qs, cache, s.dlv.fifo, ?_⟩, fun wf => ⟨(setQueue_regs s q x wf).1, fun a ha => (setQueue_regs s q x wf).2 a (by rw [ha]; decide)⟩⟩
  rw [frame]

theorem QueueWork.wf (h : QueueWork s t) (wf : regsWf s = true) : regsWf t = true := (h.2 wf).1

end

section
variable {s : State} {q : Nat} {x : Queue}

/-- A queue that stands and is set again stands as it is set. -/
theorem HasQueue.set (h : HasQueue s q x) (y : Queue) : HasQueue (setQueue s q y) q { y with ctx := showPending y.ctx y.toQueueW } := hasQueue_setQueue h.wf q y

/-- What is not written leaves the queue, its buffers go back (R312, R323). -/
theorem HasQueue.clear (h : HasQueue s q x) : ∃ descs bci, HasQueue (clearQueue s q).1 q
    { x with ents := [], descs := descs, flu := none, gap := none
             ctx := showPending { x.ctx with bci := bci } { x.toQueueW with ents := [], descs := descs, flu := none, gap := none } } := by
  unfold clearQueue
  rw [h.eq]
  extract_lets y c items bufs first t
  exact ⟨_, _, ((steady_refl t).each fun v p _ => (steady_refl v).releaseItem p.1).has (h.set _)⟩

end

/-- Taking what is not written out of a queue leaves the reads under way. -/
theorem clearQueue_reads (s : State) (q : Nat) : (clearQueue s q).1.hep.tags = s.hep.tags ∧ (clearQueue s q).1.hep.quar = s.hep.quar := by
  unfold clearQueue
  extract_lets x c items bufs first t
  obtain ⟨regs, hbm, qs, cache, frame⟩ := setQueue_frame s q { x with ents := [], descs := bufs ++ x.descs, flu := none, gap := none, ctx := { c with bci := (c.bci + 2 ^ 24 - bufs.length % 2 ^ 24) % 2 ^ 24 } }
  have same : t.hep = s.hep := by rw [show t = _ from frame]
  obtain ⟨-, ⟨tags, quar⟩, -⟩ := (steady_refl t).each (l := items) fun v p _ => (steady_refl v).releaseItem p.1
  exact ⟨tags.trans (by rw [same]), quar.trans (by rw [same])⟩

theorem queueWork_clearQueue (s : State) (q : Nat) : QueueWork s (clearQueue s q).1 := by
  unfold clearQueue
  extract_lets x c items bufs first t
  exact (queueWork_setQueue s q _).trans ((steady_refl t).each fun v p _ => (steady_refl v).releaseItem p.1).work

end Sys2Proof.Machine
end

section
/-! SUPPORT. Where a channel's work ends (R332, R333, R338, R339, R347). -/

namespace Sys2Proof.Machine

/-- A read that is asked for changes the endpoint's queue and what is left to do, nothing else. -/
theorem wantRead_frame (s : State) (who : Requester) (addr len : Nat) : ∃ hep todo, wantRead s who addr len = { s with hep := hep, todo := todo } := by
  unfold wantRead
  extract_lets ps t
  have once : ∃ hep todo, t = { s with hep := hep, todo := todo } := by
    show ∃ hep todo, laterOnce s .pump = { s with hep := hep, todo := todo }
    unfold laterOnce
    split
    · exact ⟨_, _, rfl⟩
    · exact ⟨_, _, rfl⟩
  clear_value t ps
  unfold each
  induction ps generalizing t with
  | nil => exact once
  | cons p ps ih =>
    obtain ⟨hep, todo, rfl⟩ := once
    exact ih _ ⟨_, _, rfl⟩

section
variable {s : State} {c : DmaIx} (wf : regsWf s = true)
include wf

theorem dmaBlocked_wr {f : FRef} {v : Nat} (other : f.a ≠ 0x170200) : dmaBlocked (wr s f v) = dmaBlocked s := by
  have same : mode (wr s f v) = mode s := rd_wr_apart wf (Ne.symm other)
  simp only [dmaBlocked, same]

theorem dmaRuns_wr {f : FRef} {v : Nat} (other : f.a ≠ 0x131000 + 0x40 * c) : dmaRuns (wr s f v) c = dmaRuns s c := by
  have same : getReg (wr s f v) (dmaEn c) = getReg s (dmaEn c) := getReg_setReg_other wf (Ne.symm other)
  simp only [dmaRuns, enabled, enState, same]

/-- A channel that starts at a descriptor in host memory asks for its read (R332). -/
theorem dmaStart_host {a : Nat} (free : dmaBlocked s = false) (plain : rd s (DMA_CH_CPL_BASE_BASE c) = 0) (host : a < 2 ^ 63) :
    let u := wr (wr s (DMA_CH_CUR_CUR c) a) (DMA_CH_STATUS_RUN c) 1
    dmaStart s c a = wantRead (setDma u c { dma u c with stage := 1 }) (.dmaDesc c) (lowAddr a) 64 ∧ rd u (DMA_CH_STATUS_RUN c) = 1 ∧ rd u (DMA_CH_CUR_CUR c) = a := by
  intro u
  have wf' : regsWf (wr s (DMA_CH_CUR_CUR c) a) = true := regsWf_wr wf
  have apart : (DMA_CH_CUR_CUR c).a ≠ (DMA_CH_STATUS_RUN c).a := by simp [DMA_CH_CUR_CUR, DMA_CH_STATUS_RUN]
  have cur : rd u (DMA_CH_CUR_CUR c) = a := (rd_wr_apart wf' apart).trans ((rd_wr_self (f := DMA_CH_CUR_CUR c) wf (Nat.le_refl 64)).trans (Nat.mod_eq_of_lt (show a < 2 ^ 64 by omega)))
  have blocked : dmaBlocked u = false := by
    rw [dmaBlocked_wr wf' (by simp [DMA_CH_STATUS_RUN]; omega), dmaBlocked_wr wf (by simp [DMA_CH_CUR_CUR]; omega), free]
  have none_ : rd u (DMA_CH_CPL_BASE_BASE c) = 0 :=
    (rd_wr_apart wf' (by simp [DMA_CH_CPL_BASE_BASE, DMA_CH_STATUS_RUN])).trans ((rd_wr_apart wf (by simp [DMA_CH_CPL_BASE_BASE, DMA_CH_CUR_CUR])).trans plain)
  have inHost : inHbm a = false := by
    unfold inHbm bitOf
    rw [Nat.div_eq_of_lt host]
    rfl
  have full : cplFull u c = false := by
    unfold cplFull
    rw [none_]
    rfl
  refine ⟨?_, (rd_wr_self wf' (Nat.le_of_ble_eq_true rfl)).trans rfl, cur⟩
  show (if dmaBlocked u || cplFull u c then _ else dmaFetch u c) = _
  rw [blocked, full, Bool.or_self, if_neg Bool.false_ne_true]
  unfold dmaFetch
  rw [cur]
  exact if_neg (by rw [inHost]; exact Bool.false_ne_true)

/-- What a descriptor that stops its channel leaves, its end without an interrupt and without an entry (R338, R347). -/
theorem dmaFinish_parks {ecc : EccResult} (runs : dmaRuns s c = true) (stops : (dma s c).fullStop = true) (silent : (dma s c).irq = false)
    (free : rdB s (DMA_CH_STATUS_DB_PEND c) = false) (plain : rd s (DMA_CH_CPL_BASE_BASE c) = 0) :
    rd (dmaFinish s c ecc) (DMA_CH_STATUS_RUN c) = 2 ∧ rd (dmaFinish s c ecc) (DMA_CH_DONE_DONE c) = (rd s (DMA_CH_DONE_DONE c) + 1) % 2 ^ 32 ∧ (dmaFinish s c ecc).hep = s.hep := by
  let v := addWrap s (DMA_CH_DONE_DONE c) 1
  let w := addWrap v (DMA_CH_BYTES_BYTES c) (dma s c).bytes
  have wfv : regsWf v = true := regsWf_wr wf
  have wfw : regsWf w = true := regsWf_wr wfv
  have other : ∀ g : FRef, g.a ≠ (DMA_CH_DONE_DONE c).a → g.a ≠ (DMA_CH_BYTES_BYTES c).a → rd w g = rd s g := fun g hd hb => (rd_wr_apart wfv hb).trans (rd_wr_apart wf hd)
  have count : dmaCount s c (dma s c) = w := by
    have none_ : rd w (DMA_CH_CPL_BASE_BASE c) = 0 := (other _ (by simp [DMA_CH_CPL_BASE_BASE, DMA_CH_DONE_DONE]) (by simp [DMA_CH_CPL_BASE_BASE, DMA_CH_BYTES_BYTES])).trans plain
    show onlyIf (dma s c).irq _ (if rd w (DMA_CH_CPL_BASE_BASE c) = 0 then w else _) = w
    rw [silent, if_pos none_]
    rfl
  have done : rd w (DMA_CH_DONE_DONE c) = (rd s (DMA_CH_DONE_DONE c) + 1) % 2 ^ 32 :=
    (rd_wr_apart wfv (by simp [DMA_CH_DONE_DONE, DMA_CH_BYTES_BYTES])).trans (rd_wr_self wf (Nat.le_of_ble_eq_true rfl))
  have on : dmaRuns w c = true :=
    (dmaRuns_wr wfv (f := DMA_CH_BYTES_BYTES c) (by simp [DMA_CH_BYTES_BYTES])).trans ((dmaRuns_wr wf (f := DMA_CH_DONE_DONE c) (by simp [DMA_CH_DONE_DONE])).trans runs)
  let p := setDma w c { dma s c with stage := 0, desc := [] }
  let q := wr (setDma p c { dma p c with stage := 0 }) (DMA_CH_STATUS_RUN c) 2
  have wfp : regsWf (setDma p c { dma p c with stage := 0 }) = true := wfw
  have still : rdB q (DMA_CH_STATUS_DB_PEND c) = false := by
    have same : rd q (DMA_CH_STATUS_DB_PEND c) = rd s (DMA_CH_STATUS_DB_PEND c) :=
      (rd_wr_other (f := DMA_CH_STATUS_RUN c) (g := DMA_CH_STATUS_DB_PEND c) wfp (Nat.le_of_ble_eq_true rfl) (Or.inr (Or.inr (Nat.le_refl 3)))).trans (other _ (by simp [DMA_CH_STATUS_DB_PEND, DMA_CH_DONE_DONE]) (by simp [DMA_CH_STATUS_DB_PEND, DMA_CH_BYTES_BYTES]))
    unfold rdB at free ⊢
    rw [same, free]
  have parks : dmaFinish s c ecc = q := by
    unfold dmaFinish
    dsimp only
    rw [count, if_neg (by rw [show dmaRuns (setDma w c { dma s c with stage := 0, desc := [] }) c = true from on]; exact Bool.false_ne_true), if_pos stops]
    show (if rdB q (DMA_CH_STATUS_DB_PEND c) && !dmaBlocked q && dmaRuns q c then _ else q) = q
    rw [still, Bool.false_and, Bool.false_and, if_neg Bool.false_ne_true]
  rw [parks]
  exact ⟨(rd_wr_self wfp (Nat.le_of_ble_eq_true rfl)).trans rfl, (rd_wr_apart wfp (by simp [DMA_CH_DONE_DONE, DMA_CH_STATUS_RUN])).trans done, rfl⟩

end

/-- Where a read's tag has gone, only the drain of the reads is shown (R344). -/
theorem drained_kept {keep : Nat → Prop} {s : State} {hep : Endpoint} {t : Todo} (other : ¬ keep 0x130000) : RegsKept keep s (drainShow (laterOnce { s with hep := hep } t)) := by
  have once : RegsKept keep s (laterOnce { s with hep := hep } t) := by
    unfold laterOnce
    split
    · exact (regsKept_refl keep s).same rfl
    · exact (regsKept_refl keep s).same rfl
  unfold drainShow
  split
  · exact once.wr DMA_STATUS_DRAINING 0 other
  · exact once

theorem drained_hep {s : State} {hep : Endpoint} {t : Todo} : (drainShow (laterOnce { s with hep := hep } t)).hep = hep := by
  unfold drainShow laterOnce
  split <;> split <;> rfl

end Sys2Proof.Machine

open Sys2Proof Sys2Proof.Machine

theorem channelResults : Claims.ChannelResults := by
  intro s c sound on
  have wf := regsWf_of_sound sound
  refine ⟨fun hopen idle free plain low => ?_, fun runs stops silent bell plain => ⟨fun moved noBarrier addr st => ?_, fun tag r has who keep stage => ?_⟩⟩
  · have host : 64 * rd s (DMA_CH_HEAD_HEAD c) < 2 ^ 63 := by omega
    obtain ⟨starts, run, cur⟩ := dmaStart_host (c := c) wf free plain host
    let u := wr (wr s (DMA_CH_CUR_CUR c) (64 * rd s (DMA_CH_HEAD_HEAD c))) (DMA_CH_STATUS_RUN c) 1
    obtain ⟨hep, todo, asks⟩ := wantRead_frame (setDma u c { dma u c with stage := 1 }) (.dmaDesc c) (lowAddr (64 * rd s (DMA_CH_HEAD_HEAD c))) 64
    have ends : dmaStart s c (64 * rd s (DMA_CH_HEAD_HEAD c)) = { setDma u c { dma u c with stage := 1 } with hep := hep, todo := todo } := starts.trans asks
    refine ⟨dmaStart s c (64 * rd s (DMA_CH_HEAD_HEAD c)), onHost_next hopen ?_, ?_⟩
    · simp only [dmaDoorbell, on, idle, free, Bool.not_true, Bool.false_eq_true, if_false]
    · rw [ends]
      exact ⟨run, cur, congrArg DmaS.stage (mget_mput_marked _ _ _ (fun same => absurd (congrArg DmaS.stage same) (Nat.one_ne_zero)))⟩
  · obtain ⟨run, done, -⟩ := dmaFinish_parks (ecc := .none) wf on stops silent bell plain
    refine ⟨_, onMain_next runs (s := s) (f := dmaComplete ⟨c, .none⟩ .none st addr.toNat) ?_, run, done⟩
    refine (dmaComplete_clean moved).trans (if_neg ?_)
    rw [noBarrier, Bool.false_and, Bool.false_and]
    exact Bool.false_ne_true
  · let v := drainShow (laterOnce { s with hep := { s.hep with tags := [] } } .pump)
    have found : s.hep.tags.find? (fun p => p.2.who == .dmaBarrier c) = some (tag, r) := by rw [has, List.find?_cons_of_pos (by rw [who]; exact beq_self_eq_true _)]
    have gone : s.hep.tags.filter (fun p => p.1 != tag) = [] := by rw [has, List.filter_cons_of_neg (by simp), List.filter_nil]
    have same : dma v c = dma s c := by rw [show dma v c = _ from dma_drainShow _ c, dma_laterOnce]; rfl
    have kept : RegsKept (fun a => a ≠ 0x130000) s v := drained_kept (fun h => h rfl)
    have reads : ∀ g : FRef, g.a ≠ 0x130000 → rd v g = rd s g := fun g hg => kept.rd wf hg
    have on' : dmaRuns v c = true := by
      have reg : getReg v (dmaEn c) = getReg s (dmaEn c) := (kept wf).2 _ (by simp [dmaEn]; omega)
      simpa only [dmaRuns, enabled, enState, reg] using on
    obtain ⟨run, done, hep⟩ := dmaFinish_parks (ecc := .none) (kept wf).1 on' (by rw [same, stops]) (by rw [same, silent])
      (by unfold rdB at bell ⊢; rw [reads _ (by simp [DMA_CH_STATUS_DB_PEND]; omega), bell]) ((reads _ (by simp [DMA_CH_CPL_BASE_BASE]; omega)).trans plain)
    refine ⟨dmaFinish v c .none, onMain_next runs (s := s) (f := barrierComplete c .none) ?_, ⟨run, done.trans ?_⟩, ?_⟩
    · simp only [barrierComplete, found, keep, gone, dmaBarrierDone, Bool.false_eq_true, if_false]
      exact if_pos (by rw [show (dma v c).stage = 4 from same ▸ stage])
    · rw [reads _ (by simp [DMA_CH_DONE_DONE]; omega)]
    · rw [hep, show v.hep = _ from drained_hep]
end

section
/-! SUPPORT. Where a read ends (R332, R377, R378, R381). -/

namespace Sys2Proof.Machine

section
variable {s t : State}

theorem Steady.later (h : Steady s t) (x : Todo) : Steady s (later t x) := h.same rfl ⟨_, rfl⟩ rfl rfl

theorem Steady.ite {c : Prop} [Decidable c] {u : State} (h : Steady s t) (k : Steady s u) : Steady s (if c then t else u) := by
  split
  · exact h
  · exact k

/-- An error of the link is none of delivery's (R379). -/
theorem steady_uncorrectable (s : State) (bit : Nat) : Steady s (uncorrectable s bit none) := by
  have logged : ∀ v : State, Steady v (logError v bit none) := fun v => by
    unfold logError cfgOr cfgSet
    dsimp only
    split <;> exact (steady_refl v).same rfl ⟨_, rfl⟩ rfl rfl
  have or_ : ∀ (v : State) (o m : Nat), Steady v (cfgOr v o m) := fun v o m => (steady_refl v).same rfl ⟨_, rfl⟩ rfl rfl
  unfold uncorrectable
  extract_lets fatal u serr
  have first : Steady s u := (logged s).trans (or_ _ _ _)
  exact Steady.ite first (Steady.same (Steady.ite (first.trans (or_ _ _ _)) first) rfl ⟨_, rfl⟩ rfl rfl)

theorem Steady.toLatch (h : Steady s t) (w : WaitRec) : Steady s (toLatch t w) := by
  unfold Machine.toLatch
  split
  · exact h.same rfl ⟨_, rfl⟩ rfl rfl
  · exact (h.same (u := { t with rcd := _ }) rfl ⟨_, rfl⟩ rfl rfl).wr REC_CNT_LOST_COUNT _ (by decide)

theorem Steady.offerInOrder (h : Steady s t) (port : Nat) (a b : Rec) : Steady s (offerInOrder t port a b) := by
  have held : ∀ (v : State) (r : Rec), Steady v (lanternHold v r) := fun v r => by
    unfold lanternHold
    split
    · exact ((steady_refl v).wr REC_SEQ_SEQ (rd v REC_SEQ_SEQ + 1) (by decide)).same rfl ⟨_, rfl⟩ rfl rfl
    · exact (steady_refl v).wr LAN_CNT_LOGLOST_COUNT _ (by decide)
  unfold Machine.offerInOrder
  split
  · exact (h.trans (held _ _)).trans (held _ _)
  · exact (h.offerRec _ _).toLatch _

theorem Steady.windowAct (h : Steady s t) (w : Nat) : Steady s (windowAct t w) := by
  unfold Machine.windowAct
  extract_lets act u
  have raised : Steady s u := h.onlyIf _ ((steady_refl t).raise _)
  clear_value u act
  split
  · exact raised.later _
  · exact raised.later _
  · exact raised.later _
  · exact raised

theorem Steady.windowRecord (h : Steady s t) (w n : Nat) : Steady s (windowRecord t w n) := by
  unfold Machine.windowRecord
  split
  · exact h
  · exact h.offerRec _ _

theorem Steady.windowEscalate (h : Steady s t) (w count n : Nat) : Steady s (windowEscalate t w count n) := by
  unfold Machine.windowEscalate
  extract_lets act t1 t2 t3 sev pl t4
  have recorded : Steady s t4 :=
    (((h.wr (INT_FW_STATUS_STATE w) 2 (by simp [INT_FW_STATUS_STATE]; omega)).wr (INT_FW_STATUS_ESCALATED w) 1 (by simp [INT_FW_STATUS_ESCALATED]; omega)).wr
      (INT_FW_STATUS_ESC_CNT w) _ (by simp [INT_FW_STATUS_ESC_CNT]; omega)).offerInOrder _ _ _
  split
  · exact recorded.same rfl ⟨_, rfl⟩ rfl rfl
  · exact recorded.windowAct w

/-- A fault window that counts is none of delivery's (R521 to R523). -/
theorem Steady.windowInc (h : Steady s t) (w n : Nat) : Steady s (windowInc t w n) := by
  unfold Machine.windowInc
  split
  · exact h
  · extract_lets t1 x c k st t2 j
    have total : Steady s t1 := h.wr (INT_FW_TOTAL_TOTAL w) _ (by simp [INT_FW_TOTAL_TOTAL]; omega)
    have counted : Steady s t2 := (total.same (u := { t1 with fw := _ }) rfl ⟨_, rfl⟩ rfl rfl).wr (INT_FW_COUNT_COUNT w) _ (by simp [INT_FW_COUNT_COUNT]; omega)
    split
    · exact total
    · split
      · exact counted.windowRecord w n
      · split
        · exact (counted.wr (INT_FW_STATUS_STATE w) 1 (by simp [INT_FW_STATUS_STATE]; omega)).windowRecord w n
        · exact (counted.windowEscalate w _ _).windowRecord w _

end

/-- What waits does not change what else a context shows. -/
theorem showPending_frame (c : QCtx) (x : QueueW) : ∃ ell drops dfirst dreason flu, showPending c x = { c with ellPend := ell, drops := drops, dfirst := dfirst, dreason := dreason, fluPend := flu } := by
  unfold showPending
  dsimp only
  split
  · exact ⟨_, _, _, _, _, rfl⟩
  · split <;> exact ⟨_, _, _, _, _, rfl⟩

/-- Where a queue's fault leaves it: DISABLED, with FAULT, and its reads discarded (R323). -/
theorem queueFault_leaves {s : State} (wf : regsWf s = true) (idle : s.hep.tags = []) (q addr cause : Nat) :
    let u := queueFault s q addr cause
    u.hep.tags = [] ∧ u.hep.quar = s.hep.quar ∧ (queueOf u q).ctx.fault = true ∧ (queueOf u q).ctx.state = 0 := by
  unfold queueFault
  extract_lets v x g c w w1 w2 z
  obtain ⟨tags, quar⟩ := clearQueue_reads s q
  have gone : v.hep.tags = [] := tags.trans idle
  let y : Queue := { x with descs := [], reading := 0, ctx := { x.ctx with fault := true, state := 0, en := false, enPending := false } }
  have stands : HasQueue w q { y with ctx := showPending y.ctx y.toQueueW } := hasQueue_setQueue (s := cancelReads v q) ((queueWork_clearQueue s q).wf wf) q y
  obtain ⟨regs, hbm, qs, cache, frame⟩ := setQueue_frame (cancelReads v q) q y
  have none_ : w.hep.tags = [] := by
    rw [show w = _ from frame]
    show v.hep.tags.map _ = []
    rw [gone]
    rfl
  have others : Steady w (updateGroup w2 g) := ((((steady_refl w).groupFlag g (DLV_GRP_STATUS_QFAULT g) (by simp [DLV_GRP_STATUS_QFAULT]; omega)).record _ _ _ _ _).updateGroup g)
  obtain ⟨restTags, restQuar⟩ := others.2.1
  obtain ⟨ell, drops, dfirst, dreason, flu, shows⟩ := showPending_frame y.ctx y.toQueueW
  refine ⟨restTags.trans none_, restQuar.trans ?_, ?_, ?_⟩
  · rw [show w = _ from frame]
    exact quar
  · rw [(others.has stands).eq, shows]
  · rw [(others.has stands).eq, shows]

end Sys2Proof.Machine

open Sys2Proof Sys2Proof.Machine

theorem readsEnd : Claims.ReadResults := by
  intro s tag r runs sound has
  have wf := regsWf_of_sound sound
  have found : s.hep.tags.find? (fun p => p.1 == tag.val) = some (tag.val, r) := by rw [has, List.find?_cons_of_pos (by exact beq_self_eq_true _)]
  refine ⟨fun c dst d who keep idle good fresh whole some_ room => ?_, fun q who keep => ?_, ⟨_, onMain_next runs rfl, ?_⟩⟩
  · let r' : ReadReqS := { r with got := d }
    have got : (r.got ++ d).take r.len = d := by rw [fresh, List.nil_append, ← whole, List.take_length]
    let v := drainShow (dropTag s tag)
    have hep : v.hep = { s.hep with tags := [] } := by
      refine (drained_hep (t := .pump)).trans ?_
      rw [has, List.filter_cons_of_neg (by simp), List.filter_nil]
    have work : dma v c = dma s c := (dma_drainShow _ c).trans (dma_laterOnce _ _ c)
    let w : State := { v with hep := { v.hep with ready := [] } }
    have memory : hbmWf v = hbmWf s := by
      show hbmWf (drainShow (laterOnce { s with hep := _ } .pump)) = hbmWf s
      unfold drainShow laterOnce
      split <;> split <;> rfl
    have quiet : badCheck (hbmWrite w dst d) c = hbmWrite w dst d := by
      refine if_neg ?_
      rw [show dma (hbmWrite w dst d) c = dma s c by rw [hbmWrite_frame]; exact work, good, Bool.false_and]
      exact Bool.false_ne_true
    have ends : readDone s tag r' = hbmWrite w dst d := by
      have first : deliverReady 1 { v with hep := { v.hep with ready := [r'] } } = deliverRead w r' := by
        have none_ : v.hep.tags = [] := congrArg Endpoint.tags hep
        unfold deliverReady
        dsimp only
        rw [List.find?_cons_of_pos (by rw [none_]; simp)]
        unfold deliverReady
        dsimp only
        rw [show ([r'] : List ReadReqS).filter (fun x => x.id != r'.id) = [] by simp]
      have ready : v.hep.ready = [] := (congrArg Endpoint.ready hep).trans idle
      show (if r.discard then v else deliverReady (v.hep.ready ++ [r']).length { v with hep := { v.hep with ready := v.hep.ready ++ [r'] } }) = _
      rw [keep, if_neg Bool.false_ne_true, ready]
      refine first.trans ?_
      unfold deliverRead
      rw [show r'.who = .dmaData c dst from who]
      exact quiet
    refine ⟨hbmWrite w dst d, onMain_next runs ?_, ?_, ?_⟩
    · simp only [completionReceive, found, got]
      rw [if_pos whole.ge]
      exact ends
    · rw [← whole]
      exact hbmRead_hbmWrite (memory.trans (hbmWf_of_sound sound)) (by omega)
    · rw [hbmWrite_frame]
      exact congrArg Endpoint.tags hep
  · let v := windowInc (addSat (uncorrectable s 14 none) HEP_CNT_CPL_TO_COUNT 1) 83 1
    let w := dropTag { v with hep := { v.hep with quar := v.hep.quar ++ [tag.val] } } tag.val
    obtain ⟨-, ⟨tags, quar⟩, regs⟩ : Steady s v := ((steady_uncorrectable s 14).wr HEP_CNT_CPL_TO_COUNT _ (by decide)).windowInc 83 1
    have once : ∀ (u : State) (x : Todo), (laterOnce u x).hep = u.hep ∧ (laterOnce u x).regs = u.regs := fun u x => by
      unfold laterOnce
      split <;> exact ⟨rfl, rfl⟩
    obtain ⟨sameHep, sameRegs⟩ := once { v with hep := { v.hep with quar := v.hep.quar ++ [tag.val], tags := v.hep.tags.filter (fun p => p.1 != tag.val) } } .pump
    have wfw : regsWf w = true := (congrArg (mwf regReset) sameRegs).trans (regs wf).1
    have gone : w.hep.tags = [] := by
      refine (congrArg Endpoint.tags sameHep).trans ?_
      show v.hep.tags.filter (fun p => p.1 != tag.val) = []
      rw [tags, has, List.filter_cons_of_neg (by simp), List.filter_nil]
    obtain ⟨none_, late, fault, state⟩ := queueFault_leaves wfw gone q r.addr 4
    refine ⟨queueFault w q r.addr 4, onMain_next runs ?_, none_, late.trans ?_, fault, state⟩
    · simp only [completionTimeout, found, readFailed, who, keep, Bool.false_and, Bool.false_eq_true, if_false]
      rfl
    · refine (congrArg Endpoint.quar sameHep).trans ?_
      show v.hep.quar ++ [tag.val] = s.hep.quar ++ [tag.val]
      rw [quar]
  · have out_ : (s.hep.quar.filter (· != tag.val)).contains tag.val = false := by simp
    show (laterOnce { s with hep := { s.hep with quar := s.hep.quar.filter (· != tag.val) } } .pump).hep.quar.contains tag.val = false
    unfold laterOnce
    split
    · exact out_
    · exact out_

/-- Settles O36 (R332 to R347, R377 to R381; log 27). -/
theorem readResults : Obligations.ReadResults := ⟨channelResults, readsEnd⟩
end

section
/-! SUPPORT. What delivery's operations leave of a queue that stands (R296, R299, R312 to R314). -/

namespace Sys2Proof.Machine

section
variable {s t : State}

theorem Steady.send (h : Steady s t) (o : Out) : Steady s (send t o) := h.same rfl ⟨_, rfl⟩ rfl rfl

/-- A write to host memory is sent, and nothing else. -/
theorem Steady.hostWrite (h : Steady s t) (addr : Nat) (data : List Byte) (ro : Bool) : Steady s (hostWrite t addr data ro) :=
  h.each fun v _ _ => (steady_refl v).send _

/-- A read that is asked for waits for its tag. -/
theorem Steady.wantRead (h : Steady s t) (who : Requester) (addr len : Nat) : Steady s (wantRead t who addr len) := by
  unfold Machine.wantRead
  extract_lets ps u
  have once : Steady s u := by
    show Steady s (laterOnce t .pump)
    unfold laterOnce
    split
    · exact h
    · exact h.later _
  exact once.each fun v _ _ => (steady_refl v).same rfl ⟨_, rfl⟩ rfl rfl

/-- A drop counts (R307). -/
theorem Steady.countDrop (h : Steady s t) (c : QCtx) : Steady s (countDrop t c) := by
  unfold Machine.countDrop
  exact ((h.wr DLV_CNT_DROP_COUNT _ (by decide)).wr (DLV_GRP_CNT_DROP_COUNT c.group) _ (by simp [DLV_GRP_CNT_DROP_COUNT]; omega)).onlyIf _
    ((steady_refl _).wr (DLV_GRP_CNT_LOST_COUNT c.group) _ (by simp [DLV_GRP_CNT_LOST_COUNT]; omega))

theorem Steady.qcmdEnd (h : Steady s t) (r : Nat) : Steady s (qcmdEnd t r) := (h.wr DLV_QCMD_STATUS_RESULT r (by decide)).wr DLV_QCMD_STATUS_DONE 1 (by decide)

theorem Steady.wf (h : Steady s t) (wf : regsWf s = true) : regsWf t = true := h.work.wf wf

/-- The end of a queue command, as the host reads it (Table 11-6). -/
theorem rd_qcmdEnd (wf : regsWf s = true) (r : Nat) : rd (qcmdEnd s r) DLV_QCMD_STATUS_RESULT = r % 8 ∧ rdB (qcmdEnd s r) DLV_QCMD_STATUS_DONE = true := by
  have wf' : regsWf (wr s DLV_QCMD_STATUS_RESULT r) = true := regsWf_wr wf
  refine ⟨(rd_wr_other wf' (by decide) (Or.inr (Or.inr (by decide)))).trans (rd_wr_self wf (by decide)), ?_⟩
  unfold rdB
  rw [show rd (qcmdEnd s r) DLV_QCMD_STATUS_DONE = 1 from rd_wr_self wf' (by decide)]
  rfl

end

/-- What a context shows of its pending entries, it shows already. -/
theorem showPending_again (c : QCtx) (x : QueueW) : showPending (showPending c x) x = showPending c x := by
  unfold showPending
  extract_lets flu
  by_cases over_ : c.overwrite = true
  · have same : ({ c with fluPend := flu } : QCtx).overwrite = true := over_
    rw [if_pos over_, if_pos same]
  · rw [if_neg over_]
    cases oldestGap x with
    | none => exact (if_neg over_).trans rfl
    | some g => exact (if_neg over_).trans rfl

theorem showPending_reading (c : QCtx) (x : QueueW) (n : Nat) : showPending c { x with reading := n } = showPending c x := rfl

section
variable {s : State} {q : Nat} {x : Queue}

/-- Reading descriptors ahead changes how many are being read, and nothing else that stands (R296). -/
theorem HasQueue.fetch (h : HasQueue s q x) (shown : showPending x.ctx x.toQueueW = x.ctx) : ∃ n, HasQueue (fetchDescs s q) q { x with reading := n } := by
  unfold fetchDescs
  rw [h.eq]
  extract_lets y c left i a n
  clear_value left n a i
  split
  · exact ⟨x.reading, h⟩
  · have again : HasQueue (setQueue s q { x with reading := n }) q { x with reading := n } := by
      have set := h.set { x with reading := n }
      dsimp only at set
      rw [showPending_reading, shown] at set
      exact set
    exact ⟨n, ((steady_refl _).wantRead _ _ _).has again⟩

/-- A queue that is set and then fetched for. -/
theorem hasQueue_setFetch (wf : regsWf s = true) (q : Nat) (y : Queue) : ∃ n, HasQueue (fetchDescs (setQueue s q y) q) q { y with reading := n, ctx := showPending y.ctx y.toQueueW } :=
  (hasQueue_setQueue wf q y).fetch (showPending_again y.ctx y.toQueueW)

/-- A notification leaves the queues standing (R314). -/
theorem HasQueue.notifyPush (h : HasQueue s q x) (g p : Nat) : HasQueue (notifyPush s g p) q x := by
  unfold Machine.notifyPush
  dsimp only
  split
  · have pushed : ∀ l, HasQueue { s with dlv := { s.dlv with fifo := l } } q x := fun l => h.kept rfl rfl ((regsKept_refl _ s).same rfl)
    exact (((steady_refl _).onlyIf _ ((steady_refl _).groupCause g)).updateGroup g).has (pushed _)
  · exact (((steady_refl s).wr (DLV_GRP_STATUS_FIFO_OVF g) 1 (by simp [DLV_GRP_STATUS_FIFO_OVF]; omega)).wr (DLV_GRP_STATUS_RESCAN g) 1 (by simp [DLV_GRP_STATUS_RESCAN]; omega)).has h

theorem HasQueue.setCtx (h : HasQueue s q x) (f : QCtx → QCtx) : HasQueue (setCtx s q f) q { x with ctx := showPending (f x.ctx) x.toQueueW } := by
  unfold Machine.setCtx
  rw [h.eq]
  exact h.set { x with ctx := f x.ctx }

end

/-- A queue stands in a state of Table 2-4, with nothing to be written but a gap or a FLUSHED entry that is pending. -/
def EmptyAt (s : State) (q st : Nat) : Prop := ∃ x, HasQueue s q x ∧ x.ents = [] ∧ x.ctx.state = st

section
variable {s t : State} {q st : Nat}

theorem EmptyAt.steady (h : EmptyAt s q st) (k : Steady s t) : EmptyAt t q st := by
  obtain ⟨x, stands, rest⟩ := h
  exact ⟨x, k.has stands, rest⟩

theorem state_showPending (c : QCtx) (x : QueueW) : (showPending c x).state = c.state := by
  obtain ⟨_, _, _, _, _, shows⟩ := showPending_frame c x
  rw [shows]

theorem en_showPending (c : QCtx) (x : QueueW) : (showPending c x).en = c.en := by
  obtain ⟨_, _, _, _, _, shows⟩ := showPending_frame c x
  rw [shows]

theorem emptyAt_setQueue (wf : regsWf s = true) {y : Queue} (none_ : y.ents = []) (state : y.ctx.state = st) : EmptyAt (setQueue s q y) q st :=
  ⟨_, hasQueue_setQueue wf q y, none_, (state_showPending _ _).trans state⟩

/-- An entry that is written leaves the queue in its state. -/
theorem EmptyAt.writeEntry (h : EmptyAt s q st) (pos k : Nat) (entry : List Byte) : EmptyAt (writeEntry s q pos k entry) q st := by
  obtain ⟨x, stands, none_, state⟩ := h
  unfold Machine.writeEntry
  rw [stands.eq]
  extract_lets c u v
  have sent : HasQueue u q x := ((steady_refl s).hostWrite _ _ _).has stands
  have moved : EmptyAt v q st := by
    show EmptyAt (setQueue u q (advancePi (queueOf u q) k)) q st
    rw [sent.eq]
    exact emptyAt_setQueue sent.wf none_ state
  split
  · obtain ⟨y, standsY, noneY, stateY⟩ := moved
    exact ⟨_, (standsY.setCtx _).notifyPush _ _, noneY, (state_showPending _ _).trans stateY⟩
  · exact moved

/-- A queue that does not quiesce goes on as it is (R313). -/
theorem EmptyAt.quiesce (h : EmptyAt s q 2) (g : Nat) : EmptyAt (updateGroup (fetchDescs (quiesced s q) q) g) q 2 := by
  obtain ⟨x, stands, none_, state⟩ := h
  have quiet := stands.setCtx (fun c => if c.state = 3 then { c with state := if c.enPending then 2 else 0, en := c.enPending, enPending := false } else c)
  rw [if_neg (show x.ctx.state ≠ 3 by omega)] at quiet
  obtain ⟨n, fetched⟩ := quiet.fetch (showPending_again x.ctx x.toQueueW)
  exact ⟨_, ((steady_refl _).updateGroup g).has fetched, none_, (state_showPending _ _).trans state⟩

/-- With nothing before it, a FLUSHED entry is written, or nothing is (R312). -/
theorem flushedWrite_empty (none_ : (queueOf s q).ents = []) :
    flushedWrite q s = s ∨ ∃ n f b p, flushedWrite q s =
      updateGroup (fetchDescs (quiesced (writeFlushed (setQueue s q { queueOf s q with flu := none }) q n f b p) q) q) (queueOf s q).ctx.group := by
  unfold flushedWrite
  generalize queueOf s q = x at *
  dsimp only
  rw [none_]
  split
  · exact Or.inl rfl
  · cases x.flu with
    | none => exact Or.inl rfl
    | some g =>
      obtain ⟨n, f, b, p⟩ := g
      by_cases room : 1 ≤ freeEntries x
      · exact Or.inr ⟨n, f, b, p, if_pos room⟩
      · exact Or.inl (if_neg room)

/-- A pending FLUSHED entry that is written leaves an ENABLED queue ENABLED (R312). -/
theorem EmptyAt.flushedWrite (h : EmptyAt s q 2) : EmptyAt (flushedWrite q s) q 2 := by
  obtain ⟨x, stands, none_, state⟩ := h
  rcases flushedWrite_empty (s := s) (q := q) (by rw [stands.eq, none_]) with same | ⟨n, f, b, p, writes⟩
  · rw [same]
    exact ⟨x, stands, none_, state⟩
  · rw [writes, stands.eq]
    exact (EmptyAt.writeEntry (emptyAt_setQueue (y := { x with flu := none }) stands.wf none_ state) _ _ _).quiesce _

/-- A flush empties an ENABLED queue, which stays ENABLED (R312). -/
theorem emptyAt_flushRange {x : Queue} (stands : HasQueue s q x) (on : x.ctx.state = 2) (cut : Bool) : EmptyAt (flushRange s q cut) q 2 := by
  unfold flushRange
  extract_lets r y u
  obtain ⟨descs, bci, cleared⟩ := stands.clear
  have pending : EmptyAt u q 2 := by
    show EmptyAt (setQueue r.1 q { queueOf r.1 q with flu := some (r.2.1, r.2.2, (queueOf r.1 q).ctx.bci, cut) }) q 2
    rw [show queueOf r.1 q = _ from cleared.eq]
    exact emptyAt_setQueue cleared.wf rfl ((state_showPending _ _).trans on)
  exact pending.flushedWrite.steady ((steady_refl _).updateGroup _)

end
end Sys2Proof.Machine
end

section
/-! SUPPORT. Where the commands of the queue window end (R294, R312, R313, R320, Table 11-6). -/

namespace Sys2Proof.Machine

section
variable {s : State} {q : Nat} {x : Queue}

/-- Reads that are no longer wanted are none of the queue's (R312). -/
theorem HasQueue.cancelReads (h : HasQueue s q x) (p : Nat) : HasQueue (cancelReads s p) q x := h.kept rfl rfl ((regsKept_refl _ s).same rfl)

/-- A disable empties an ENABLED queue, which is DISABLED, or waits for its FLUSHED entry (R313). -/
theorem disableQueue_empties (h : HasQueue s q x) (on : x.ctx.state = 2) :
    ∃ y, HasQueue (disableQueue q s) q y ∧ y.ents = [] ∧ y.ctx.en = false ∧ (y.ctx.state = 0 ∨ y.ctx.state = 3) := by
  obtain ⟨z, stands, none_, -⟩ := emptyAt_flushRange h on false
  have cancelled := stands.cancelReads q
  unfold disableQueue
  rw [h.eq]
  dsimp only
  rw [if_neg (show x.ctx.state ≠ 0 by omega), if_neg (show x.ctx.state ≠ 3 by omega), cancelled.eq]
  split
  · exact ⟨_, ((steady_refl _).updateGroup _).has (cancelled.set _), none_, en_showPending _ _, Or.inr (state_showPending _ _)⟩
  · exact ⟨_, ((steady_refl _).updateGroup _).has (cancelled.set _), none_, en_showPending _ _, Or.inl (state_showPending _ _)⟩

/-- Bytes for buffers in host memory are sent. -/
theorem steady_writeBufs {t : State} (h : Steady s t) (ro : Bool) (d : List Byte) (bufs : List (Nat × Nat)) : Steady s (writeBufs t ro d bufs) := by
  induction bufs generalizing t d with
  | nil =>
    unfold writeBufs
    exact h
  | cons b bs ih =>
    unfold writeBufs
    exact ih (h.hostWrite _ _ _) _

/-- Where a flush cuts the front item, its queue keeps its state (R312). -/
theorem cutFront_leaves (h : HasQueue s q x) : ∃ y, HasQueue (cutFront s q).1 q y ∧ y.ctx.state = x.ctx.state := by
  have over_ : ∀ (u : State) (num : Nat) (data : Bool), HasQueue u q x → ∃ y, HasQueue (overItem u q num data) q y ∧ y.ctx.state = x.ctx.state := fun u num data hu => by
    unfold overItem
    rw [hu.eq]
    dsimp only
    split
    · have counted : HasQueue (addSat u (DLV_GRP_CNT_LOST_COUNT x.ctx.group) 1) q x := ((steady_refl u).wr (DLV_GRP_CNT_LOST_COUNT x.ctx.group) _ (by simp [DLV_GRP_CNT_LOST_COUNT]; omega)).has hu
      exact ⟨_, ((steady_refl _).onlyIf _ ((steady_refl _).hostWrite _ _ _)).has (counted.setCtx _), state_showPending _ _⟩
    · exact ⟨x, hu, rfl⟩
  have here : ∃ y, HasQueue s q y ∧ y.ctx.state = x.ctx.state := ⟨x, h, rfl⟩
  have freed : HasQueue (freeNext s) q x := h.kept rfl rfl ((regsKept_refl _ s).same rfl)
  unfold cutFront
  rw [h.eq]
  dsimp only
  split
  · split
    · exact here
    · split
      · exact ⟨x, freed, rfl⟩
      · obtain ⟨y, stands, state⟩ := over_ _ _ true freed
        exact ⟨y, (steady_writeBufs (steady_refl _) _ _ _).has stands, state⟩
  · exact here

/-- A flush empties an ENABLED queue, which stays ENABLED (R312). -/
theorem emptyAt_flushQueue (h : HasQueue s q x) (on : x.ctx.state = 2) : EmptyAt (flushQueue q s) q 2 := by
  obtain ⟨y, stands, state⟩ := cutFront_leaves h
  unfold flushQueue
  rw [h.eq]
  dsimp only
  rw [if_neg (by rw [on]; decide)]
  exact emptyAt_flushRange stands (state.trans on) _

end

/-- A context is spelt by sixteen words. -/
theorem ctxOf_congr {v w : Nat → Nat} (same : ∀ i < 16, v i = w i) : ctxOf v = ctxOf w := by
  unfold ctxOf
  rw [same 0 (by decide), same 1 (by decide), same 2 (by decide), same 3 (by decide), same 4 (by decide), same 5 (by decide), same 6 (by decide), same 7 (by decide),
    same 8 (by decide), same 9 (by decide), same 10 (by decide), same 11 (by decide), same 12 (by decide), same 13 (by decide), same 14 (by decide), same 15 (by decide)]

section
variable {s : State}

/-- Words shown in the window leave those before them. -/
theorem rd_window_before (wf : regsWf s = true) (l : List Nat) (k j : Nat) (before : j < k) :
    rd (each (l.zipIdx k) (fun s p => wr s (DLV_QWIN_DATA p.2) p.1) s) (DLV_QWIN_DATA j) = rd s (DLV_QWIN_DATA j) := by
  unfold each
  induction l generalizing s k with
  | nil => rfl
  | cons w l ih =>
    rw [List.zipIdx_cons, List.foldl_cons, ih (regsWf_wr wf) (k + 1) (by omega)]
    exact rd_wr_apart wf (by simp [DLV_QWIN_DATA]; omega)

/-- Words shown in the window read back, cut to 32 bits (R294). -/
theorem rd_window (wf : regsWf s = true) (l : List Nat) (k i w : Nat) (has : l[i]? = some w) :
    rd (each (l.zipIdx k) (fun s p => wr s (DLV_QWIN_DATA p.2) p.1) s) (DLV_QWIN_DATA (k + i)) = w % 2 ^ 32 := by
  induction l generalizing s k i with
  | nil => exact absurd has (by simp)
  | cons v l ih =>
    cases i with
    | zero =>
      rw [List.getElem?_cons_zero, Option.some.injEq] at has
      subst has
      exact (rd_window_before (regsWf_wr wf) l (k + 1) k (Nat.lt_succ_self k)).trans (rd_wr_self wf (Nat.le_of_ble_eq_true rfl))
    | succ i =>
      rw [List.getElem?_cons_succ] at has
      have next := ih (s := wr s (DLV_QWIN_DATA k) v) (regsWf_wr wf) (k + 1) i has
      rwa [show k + 1 + i = k + (i + 1) by omega] at next

end

/-- A state that a WRITE set goes on in the context alone (Table 2-4). -/
theorem stateSettled_frame (x : Queue) : ∃ st en p, stateSettled x = { x with ctx := { x.ctx with state := st, en := en, enPending := p } } := by
  unfold stateSettled
  split
  · exact ⟨_, _, _, rfl⟩
  · split
    · exact ⟨_, _, _, rfl⟩
    · exact ⟨_, _, _, rfl⟩

/-- A DISABLED context with nothing pending is taken as the window has it (R294). -/
theorem showPending_windowQueue {c : QCtx} (gap : c.ellPend = false) (flu : c.fluPend = false) : showPending c (windowQueue c).toQueueW = c := by
  have none_ : oldestGap (windowQueue c).toQueueW = none := by simp [oldestGap, windowQueue, gap]
  have quiet : (windowQueue c).flu = none := by simp [windowQueue, flu]
  have ents : (windowQueue c).ents = [] := rfl
  unfold showPending
  rw [quiet, ents, none_]
  obtain ⟨_, _, _, _, _, _, _, _, _, _, _, _, _, _, _, _, _, _, _, _⟩ := c
  subst gap flu
  simp

/-- A command that sets a queue, fetches for it and shows its group leaves it as set (R294, R296, R318). -/
theorem hasQueue_commandSets {s : State} (wf : regsWf s = true) (q g r : Nat) (y : Queue) :
    ∃ n, HasQueue (qcmdEnd (updateGroup (fetchDescs (setQueue s q y) q) g) r) q { y with reading := n, ctx := showPending y.ctx y.toQueueW } := by
  obtain ⟨n, fetched⟩ := hasQueue_setFetch wf q y
  exact ⟨n, (((steady_refl _).updateGroup g).qcmdEnd r).has fetched⟩

/-- The end of a command that leaves the registers canonical. -/
theorem rd_updateGroup_end {s : State} (wf : regsWf s = true) (g r : Nat) :
    rd (qcmdEnd (updateGroup s g) r) DLV_QCMD_STATUS_RESULT = r % 8 ∧ rdB (qcmdEnd (updateGroup s g) r) DLV_QCMD_STATUS_DONE = true :=
  rd_qcmdEnd (((steady_refl s).updateGroup g).wf wf) r

end Sys2Proof.Machine

open Sys2Proof Sys2Proof.Machine

theorem queueCommandsEnd : Claims.QueueCommandResults := by
  intro s q hopen sound
  have wf := regsWf_of_sound sound
  let x := queueOf s q
  have at_ : HasQueue (touchCtx s q) q x := hasQueue_touchCtx wf q
  have sameQueue : queueOf (touchCtx s q) q = x := at_.eq
  obtain ⟨read, disable, flush, busy, -, write, -, -, bad, -, enable, -⟩ := queueCommands s q hopen
  rw [sameQueue] at read busy write bad enable
  have wft : regsWf (touchCtx s q) = true := at_.wf
  have window : ctxOf (fun i => rd (touchCtx s q) (DLV_QWIN_DATA i)) = ctxOf (fun i => rd s (DLV_QWIN_DATA i)) :=
    ctxOf_congr fun i hi => (touchKey_regs s _).rd wf (g := DLV_QWIN_DATA i) (by simp [DLV_QWIN_DATA]; omega)
  have qs : (touchCtx s q).dlv.qs = s.dlv.qs := by
    obtain ⟨regs, hbm, cache, frame⟩ := touchKey_frame s (qKey s q)
    unfold touchCtx
    rw [frame]
  rw [window] at write
  refine ⟨⟨_, read, ?_⟩, fun off pin => ⟨_, write off (Or.inl pin), ?_⟩, fun on => ⟨_, busy on, rd_qcmdEnd wft 1, ?_⟩,
    fun off good pin => ⟨_, enable off good (Or.inl pin), ?_⟩, fun off broken => ⟨_, bad off broken, rd_qcmdEnd wft 2, ?_⟩, fun on => ?_, fun on => ?_⟩
  · have shown : Steady (touchCtx s q) (each (ctxWords x.ctx).zipIdx (fun s p => wr s (DLV_QWIN_DATA p.2) p.1) (touchCtx s q)) :=
      (steady_refl _).each fun v p _ => (steady_refl v).wr (DLV_QWIN_DATA p.2) p.1 (by simp [DLV_QWIN_DATA]; omega)
    have wfs := shown.wf wft
    refine ⟨rd_qcmdEnd wfs 0, congrArg Queue.ctx ((shown.qcmdEnd 0).has at_).eq, fun i w has => ?_⟩
    have few : i < 16 := (List.getElem?_eq_some_iff.mp has).1
    have last : ∀ (v : State) (f : FRef) (n : Nat), regsWf v = true → f.a = 0x120024 → rd (wr v f n) (DLV_QWIN_DATA i) = rd v (DLV_QWIN_DATA i) := fun v f n hv hf =>
      rd_wr_apart hv (by rw [hf]; simp [DLV_QWIN_DATA]; omega)
    refine (last _ _ _ (regsWf_wr wfs) rfl).trans ((last _ _ _ wfs rfl).trans ?_)
    have reads := rd_window wft (ctxWords x.ctx) 0 i w has
    rwa [Nat.zero_add] at reads
  · generalize ctxOf (fun i => rd s (DLV_QWIN_DATA i)) = w at *
    obtain ⟨n, stands⟩ := hasQueue_commandSets wft q w.group 0 (stateSettled (windowQueue w))
    obtain ⟨_, fetched⟩ := hasQueue_setFetch wft q (stateSettled (windowQueue w))
    obtain ⟨st, en, p, settled⟩ := stateSettled_frame (windowQueue w)
    obtain ⟨_, _, _, _, _, shows⟩ := showPending_frame (stateSettled (windowQueue w)).ctx (stateSettled (windowQueue w)).toQueueW
    refine ⟨rd_updateGroup_end fetched.wf _ 0, ?_, fun off ell flu => ?_, ?_⟩
    · rw [stands.eq, settled]
      rfl
    · have still : stateSettled (windowQueue w) = windowQueue w := by
        have s0 : (windowQueue w).ctx.state = 0 := off
        simp only [stateSettled, s0, OfNat.zero_ne_ofNat, zero_ne_one, decide_false, Bool.false_and, Bool.false_eq_true, if_false]
      rw [stands.eq, still]
      exact showPending_windowQueue ell flu
    · dsimp only
      rw [stands.eq, shows, settled]
      exact ⟨rfl, rfl, rfl, rfl, rfl, rfl, rfl, rfl, rfl, rfl, rfl, rfl⟩
  · exact ⟨congrArg Queue.ctx (((steady_refl _).qcmdEnd 1).has at_).eq, qs⟩
  · obtain ⟨n, stands⟩ := hasQueue_commandSets wft q x.ctx.group 0 { x with ctx := { x.ctx with state := 2, en := true } }
    obtain ⟨_, fetched⟩ := hasQueue_setFetch wft q { x with ctx := { x.ctx with state := 2, en := true } }
    have set : setCtx (touchCtx s q) q (fun c => { c with state := 2, en := true }) = setQueue (touchCtx s q) q { x with ctx := { x.ctx with state := 2, en := true } } := by
      unfold setCtx
      rw [sameQueue]
    rw [set]
    exact ⟨rd_updateGroup_end fetched.wf _ 0, congrArg Queue.ctx stands.eq⟩
  · exact ⟨congrArg Queue.ctx (((steady_refl _).qcmdEnd 2).has at_).eq, qs⟩
  · obtain ⟨y, stands, none_, en, state⟩ := disableQueue_empties at_ on
    have same := (((steady_refl _).qcmdEnd 0).has stands).eq
    exact ⟨_, disable, rd_qcmdEnd stands.wf 0, by rw [same, none_], by rw [same, en], by rw [same]; exact state⟩
  · obtain ⟨y, stands, none_, state⟩ := emptyAt_flushQueue at_ on
    have same := (((steady_refl _).qcmdEnd 0).has stands).eq
    exact ⟨_, flush, rd_qcmdEnd stands.wf 0, by rw [same, none_], by rw [same, state]⟩

end

section
/-! SUPPORT. The cache of contexts is transparent, and a context reads back as it is spelt (R320, Table 11-1). -/

namespace Sys2Proof.Machine

/-- The flags of a context's sixth word read back. -/
theorem flagsWord (st : Nat) (small : st < 4) (p en armed fault ell flu : Bool) :
    let v := st + 4 * b2n p + 8 * b2n en + 16 * b2n armed + 32 * b2n fault + 64 * b2n ell + 128 * b2n flu
    bitsOf v 1 0 = st ∧ bitOf v 2 = p ∧ bitOf v 3 = en ∧ bitOf v 4 = armed ∧ bitOf v 5 = fault ∧ bitOf v 6 = ell ∧ bitOf v 7 = flu := by
  have bit : ∀ b : Bool, b2n b ≤ 1 ∧ (b2n b == 1) = b := by decide
  intro v
  obtain ⟨p1, pe⟩ := bit p
  obtain ⟨en1, ene⟩ := bit en
  obtain ⟨a1, ae⟩ := bit armed
  obtain ⟨f1, fe⟩ := bit fault
  obtain ⟨l1, le⟩ := bit ell
  obtain ⟨u1, ue⟩ := bit flu
  unfold bitsOf bitOf
  refine ⟨by omega, ?_, ?_, ?_, ?_, ?_, ?_⟩
  · rw [show v / 2 ^ 2 % 2 = b2n p by omega, pe]
  · rw [show v / 2 ^ 3 % 2 = b2n en by omega, ene]
  · rw [show v / 2 ^ 4 % 2 = b2n armed by omega, ae]
  · rw [show v / 2 ^ 5 % 2 = b2n fault by omega, fe]
  · rw [show v / 2 ^ 6 % 2 = b2n ell by omega, le]
  · rw [show v / 2 ^ 7 % 2 = b2n flu by omega, ue]

theorem bitsOf_low (v hi : Nat) : bitsOf (bitsOf v hi 0) hi 0 = bitsOf v hi 0 := by
  unfold bitsOf
  simp

/-- A context that sixteen words spell has their words (Table 11-1). -/
theorem ctxOf_ctxWords (w : Nat → Nat) : ctxOf (fun i => (ctxWords (ctxOf w)).getD i 0) = ctxOf w := by
  have pair : ∀ i j, (w i + 2 ^ 32 * w j) % 2 ^ 32 + 2 ^ 32 * ((w i + 2 ^ 32 * w j) / 2 ^ 32) = w i + 2 ^ 32 * w j := fun i j => Nat.mod_add_div _ _
  obtain ⟨st, p, en, armed, fault, ell, flu⟩ := flagsWord (bitsOf (w 5) 1 0) (Nat.mod_lt _ (by decide)) (bitOf (w 5) 2) (bitOf (w 5) 3) (bitOf (w 5) 4) (bitOf (w 5) 5) (bitOf (w 5) 6) (bitOf (w 5) 7)
  unfold ctxWords ctxOf
  simp only [List.getD_cons_zero, List.getD_cons_succ, pair, bitsOf_low, st, p, en, armed, fault, ell, flu]

end Sys2Proof.Machine

open Sys2Proof Sys2Proof.Machine

theorem contextCacheIsTransparent : Claims.ContextCacheIsTransparent := by
  intro s q sound
  have wf := regsWf_of_sound sound
  obtain ⟨d, l, first⟩ := cacheSet_touchKey s (qKey s q)
  have found : cached (touchCtx s q) (qKey s q) = some { key := qKey s q, ctx := ctxAt s (qKey s q), dirty := d } := by
    unfold cached touchCtx
    rw [first, List.find?_cons_of_pos (p := fun w : CacheWay => w.key == qKey s q) (beq_self_eq_true _)]
  refine ⟨?_, by rw [found]; rfl, fun x => ?_, fun w small => ⟨rfl, ?_, rfl, ctxOf_ctxWords w⟩⟩
  · unfold ctxAt
    rw [found]
    rfl
  · rw [(hasQueue_setQueue wf q x).eq]
    exact ⟨rfl, rfl⟩
  · show (w 0 + 2 ^ 32 * w 1) % 2 ^ 32 = w 0
    have := small 0
    omega
end

section
/-! SUPPORT. Where a doorbell ends (R297, R298, R314). -/

namespace Sys2Proof.Machine

section
variable {s t : State}

theorem QueueWork.steady {u : State} (h : QueueWork s t) (k : Steady t u) : QueueWork s u := h.trans k.work

theorem QueueWork.same {u : State} (h : QueueWork s t) (dlv : u.dlv = t.dlv) (regs : u.regs = t.regs) : QueueWork s u :=
  h.trans ⟨⟨_, _, _, _, dlv⟩, (regsKept_refl _ t).same regs⟩

/-- An uncorrectable error is reported, and is none of delivery's (Table 19-5). -/
theorem steady_eccUncorrectable (s : State) (array camp addr : Nat) : Steady s (eccUncorrectable s array camp addr) := by
  unfold eccUncorrectable
  extract_lets u v w
  have counted : Steady s u := Steady.ite (((steady_refl s).wr INT_ECC_HBM_UNC_COUNT _ (by decide)).raise _) (((steady_refl s).wr INT_ECC_SRAM_UNC_COUNT _ (by decide)).raise _)
  have camps : Steady s v := counted.onlyIf _ ((steady_refl u).wr (PXE_CNT_ECC_UNC_COUNT camp) _ (by simp [PXE_CNT_ECC_UNC_COUNT]; omega))
  exact ((camps.wr INT_ECC_LAST_ADDR addr (by decide)).wr INT_ECC_LAST_ARRAY array (by decide)).record _ _ _ _ _

theorem queueWork_queueFault (s : State) (q addr cause : Nat) : QueueWork s (queueFault s q addr cause) := by
  unfold queueFault
  extract_lets v x g c w
  have cancelled : QueueWork s (cancelReads v q) := (queueWork_clearQueue s q).same rfl rfl
  exact (cancelled.trans (queueWork_setQueue _ q _)).steady ((((steady_refl _).groupFlag g _ (by simp [DLV_GRP_STATUS_QFAULT]; omega)).record _ _ _ _ _).updateGroup g)

theorem queueWork_ctxAccess (s : State) (q : Nat) (e : CtxEcc) : QueueWork s (ctxAccess s q e).1 := by
  have faults : ∀ a addr, QueueWork s (contextFault (touchCtx s q) q a addr) := fun a addr =>
    (((queueWork_touchCtx s q).steady (steady_eccUncorrectable _ a 0 addr)).trans (queueWork_queueFault _ q _ 5)).steady ((steady_refl _).wr DLV_STATUS_QCTX_ECC 1 (by decide))
  unfold ctxAccess
  dsimp only
  split
  · exact faults 0 _
  · exact faults 5 _
  · exact queueWork_touchCtx s q

theorem queueWork_fetchDescs (s : State) (q : Nat) : QueueWork s (fetchDescs s q) := by
  unfold fetchDescs
  extract_lets x c left i a n
  clear_value left n a i
  split
  · exact queueWork_refl s
  · exact (queueWork_setQueue s q _).steady ((steady_refl _).wantRead _ _ _)

theorem queueWork_notifyPush (s : State) (g q : Nat) : QueueWork s (notifyPush s g q) := by
  unfold notifyPush
  dsimp only
  split
  · have pushed : ∀ l, QueueWork s { s with dlv := { s.dlv with fifo := l } } := fun l => ⟨⟨_, _, _, l, rfl⟩, (regsKept_refl _ s).same rfl⟩
    exact (pushed _).steady (((steady_refl _).onlyIf _ ((steady_refl _).groupCause g)).updateGroup g)
  · exact (((steady_refl s).wr (DLV_GRP_STATUS_FIFO_OVF g) 1 (by simp [DLV_GRP_STATUS_FIFO_OVF]; omega)).wr (DLV_GRP_STATUS_RESCAN g) 1 (by simp [DLV_GRP_STATUS_RESCAN]; omega)).work

theorem queueWork_setCtx (s : State) (q : Nat) (f : QCtx → QCtx) : QueueWork s (setCtx s q f) := queueWork_setQueue s q _

theorem dbErr_apart (g : Nat) : (DLV_GRP_STATUS_DB_ERR g).a ≠ 0x120008 := by
  simp [DLV_GRP_STATUS_DB_ERR]
  omega

theorem queueWork_bellCi (s : State) (q v : Nat) : QueueWork s (bellCi s q v) := by
  unfold bellCi
  generalize queueOf s q = x
  dsimp only
  split
  · exact ((steady_refl s).groupFlag _ _ (dbErr_apart _)).work
  · exact queueWork_setQueue s q _

theorem queueWork_bellBpi (s : State) (q v : Nat) : QueueWork s (bellBpi s q v) := by
  unfold bellBpi
  generalize (queueOf s q).ctx = c
  dsimp only
  split
  · exact ((steady_refl s).groupFlag _ _ (dbErr_apart _)).work
  · exact (queueWork_setCtx s q _).trans (queueWork_fetchDescs _ q)

theorem queueWork_bellArm (s : State) (q : Nat) : QueueWork s (bellArm s q) := by
  unfold bellArm
  generalize queueOf s q = x
  dsimp only
  split
  · exact queueWork_refl s
  · split
    · exact (queueWork_setCtx s q _).trans (queueWork_notifyPush _ _ _)
    · exact queueWork_setCtx s q _

/-- A doorbell that is applied leaves those that wait (R298). -/
theorem queueWork_applyBell (s : State) (b : Bell) : QueueWork s (applyBell s b) := by
  unfold applyBell
  extract_lets t c u v
  have accessed : QueueWork s t := queueWork_ctxAccess s b.q b.ecc
  have ci : QueueWork t u := by
    show QueueWork t (match b.ci with | none => t | some v => bellCi t b.q v)
    cases b.ci with
    | none => exact queueWork_refl t
    | some n => exact queueWork_bellCi t b.q n
  have bpi : QueueWork u v := by
    show QueueWork u (match b.bpi with | none => u | some v => bellBpi u b.q v)
    cases b.bpi with
    | none => exact queueWork_refl u
    | some n => exact queueWork_bellBpi u b.q n
  split
  · exact accessed
  · refine ((accessed.trans ci).trans (bpi.trans ?_)).steady ((steady_refl _).updateGroup _)
    split
    · exact queueWork_bellArm v b.q
    · exact queueWork_refl v

theorem QueueWork.bells (h : QueueWork s t) : t.dlv.bells = s.dlv.bells := by
  obtain ⟨⟨_, _, _, _, dlv⟩, -⟩ := h
  rw [dlv]

end

theorem showPending_unread (c : QCtx) (x : QueueW) (n : Nat) : showPending c { x with unread := n } = showPending c x := rfl

section
variable {s : State} {q : Nat} {x : Queue} (stands : HasQueue s q x)
include stands

/-- A CI no more than the ring behind PI is taken (R297). -/
theorem bellCi_takes {v : Nat} (within : (x.ctx.pi + 2 ^ 24 - v) % 2 ^ 24 ≤ x.ctx.ring) : ∃ n, HasQueue (bellCi s q v) q { x with unread := n, ctx := showPending { x.ctx with ci := v } x.toQueueW } := by
  have takes : bellCi s q v = setQueue s q { x with unread := (x.ctx.pi + 2 ^ 24 - v) % 2 ^ 24, ctx := { x.ctx with ci := v } } := by
    unfold bellCi
    rw [stands.eq]
    dsimp only
    rw [if_neg (Nat.not_lt.mpr within)]
  have set := stands.set { x with unread := (x.ctx.pi + 2 ^ 24 - v) % 2 ^ 24, ctx := { x.ctx with ci := v } }
  dsimp only at set
  rw [showPending_unread] at set
  rw [takes]
  exact ⟨_, set⟩

/-- Another sets DB_ERR and changes nothing. -/
theorem bellCi_refuses {v : Nat} (beyond_ : x.ctx.ring < (x.ctx.pi + 2 ^ 24 - v) % 2 ^ 24) : bellCi s q v = groupFlag s x.ctx.group (DLV_GRP_STATUS_DB_ERR x.ctx.group) := by
  unfold bellCi
  rw [stands.eq]
  dsimp only
  rw [if_pos beyond_]

/-- A BPI no more than the ring ahead of BCI is taken (R297). -/
theorem bellBpi_takes {v : Nat} (within : (v + 2 ^ 24 - x.ctx.bci) % 2 ^ 24 ≤ 2 ^ x.ctx.bqLog) : ∃ n, HasQueue (bellBpi s q v) q { x with reading := n, ctx := showPending { x.ctx with bpi := v } x.toQueueW } := by
  have takes : bellBpi s q v = fetchDescs (setCtx s q (fun c => { c with bpi := v })) q := by
    unfold bellBpi
    rw [stands.eq]
    dsimp only
    rw [if_neg (Nat.not_lt.mpr within)]
  rw [takes]
  exact (stands.setCtx _).fetch (showPending_again _ _)

end
end Sys2Proof.Machine
end

section
/-! SUPPORT. What a doorbell leaves of its queue, its group and the FIFOs (R297, R298, R314). -/

namespace Sys2Proof.Machine

section
variable {s t : State}

theorem RegsKept.groupCause {keep : Nat → Prop} (h : RegsKept keep s t) (g : Nat) (other : ¬ keep (statusField (srcGroup g)).a) : RegsKept keep s (groupCause t g) := by
  unfold Machine.groupCause
  split
  · exact h.same rfl
  · dsimp only
    split
    · exact h.raise _ other
    · exact (h.raise _ other).same rfl

/-- DB_ERR of a group, once it is set, is set (R297). -/
theorem rdB_groupFlag_dbErr (wf : regsWf s = true) (g : Nat) : rdB (groupFlag s g (DLV_GRP_STATUS_DB_ERR g)) (DLV_GRP_STATUS_DB_ERR g) = true := by
  unfold groupFlag
  split
  · assumption
  · have fits : (DLV_GRP_STATUS_DB_ERR g).lo + (DLV_GRP_STATUS_DB_ERR g).w ≤ 64 := Nat.le_of_ble_eq_true rfl
    have set : rd (wr s (DLV_GRP_STATUS_DB_ERR g) 1) (DLV_GRP_STATUS_DB_ERR g) = 1 := rd_wr_self wf fits
    have kept : RegsKept (· = (DLV_GRP_STATUS_DB_ERR g).a) (wr s (DLV_GRP_STATUS_DB_ERR g) 1) (groupCause (wr s (DLV_GRP_STATUS_DB_ERR g) 1) g) :=
      (regsKept_refl _ _).groupCause g (statusField_apart _ (by simp [DLV_GRP_STATUS_DB_ERR]; omega))
    unfold rdB
    rw [kept.rd (regsWf_wr wf) rfl, set]
    rfl

/-- Levels and watermarks that are shown leave DB_ERR (R318). -/
theorem rd_updateGroup_dbErr (wf : regsWf s = true) (g : Nat) : rd (updateGroup s g) (DLV_GRP_STATUS_DB_ERR g) = rd s (DLV_GRP_STATUS_DB_ERR g) := by
  unfold updateGroup
  extract_lets lv n a0 f0 a f t1 t2 t3
  let l1 := wr s (DLV_GRP_LEVEL_LEVEL g) lv
  let b1 := wrB t1 (DLV_GRP_STATUS_ABOVE g) a
  let b2 := wrB b1 (DLV_GRP_STATUS_FIFO_ABOVE g) f
  have wfl : regsWf l1 = true := regsWf_wr wf
  have wf1 : regsWf t1 = true := regsWf_wr wfl
  have wfb1 : regsWf b1 = true := regsWf_wr wf1
  have wfb2 : regsWf b2 = true := regsWf_wr wfb1
  have wf2 : regsWf t2 = true := regsWf_wr wfb2
  have bit : ∀ (u : State) (b : FRef) (v : Nat), regsWf u = true → b.lo + b.w ≤ 3 → rd (wr u b v) (DLV_GRP_STATUS_DB_ERR g) = rd u (DLV_GRP_STATUS_DB_ERR g) := fun u b v hu low =>
    rd_wr_other hu (by omega) (Or.inr (Or.inr (show b.lo + b.w ≤ 6 by omega)))
  have levels : rd t1 (DLV_GRP_STATUS_DB_ERR g) = rd s (DLV_GRP_STATUS_DB_ERR g) :=
    (rd_wr_apart (f := DLV_GRP_FIFO_LEVEL_LEVEL g) wfl (by simp [DLV_GRP_FIFO_LEVEL_LEVEL, DLV_GRP_STATUS_DB_ERR])).trans
      (rd_wr_apart (f := DLV_GRP_LEVEL_LEVEL g) wf (by simp [DLV_GRP_LEVEL_LEVEL, DLV_GRP_STATUS_DB_ERR]))
  have flags : rd t2 (DLV_GRP_STATUS_DB_ERR g) = rd t1 (DLV_GRP_STATUS_DB_ERR g) :=
    (bit b2 (DLV_GRP_STATUS_NOTIFY g) _ wfb2 (Nat.le_of_ble_eq_true rfl)).trans ((bit b1 (DLV_GRP_STATUS_FIFO_ABOVE g) _ wfb1 (Nat.le_of_ble_eq_true rfl)).trans
      (bit t1 (DLV_GRP_STATUS_ABOVE g) _ wf1 (Nat.le_of_ble_eq_true rfl)))
  have caused : RegsKept (· = (DLV_GRP_STATUS_DB_ERR g).a) t2 t3 :=
    (regsKept_refl _ t2).onlyIf _ fun _ => (regsKept_refl _ t2).groupCause g (statusField_apart _ (by simp [DLV_GRP_STATUS_DB_ERR]; omega))
  split
  · exact (caused.rd wf2 rfl).trans (flags.trans levels)
  · have pins : RegsKept (· = (DLV_GRP_STATUS_DB_ERR g).a) t2 (xoffUpdate t3) :=
      caused.each fun v n hn => (regsKept_refl _ v).wrB (DLV_XOFF_CFG_ACTIVE n) _ (by have := List.mem_range.mp hn; simp [DLV_XOFF_CFG_ACTIVE, DLV_GRP_STATUS_DB_ERR]; omega)
    exact (pins.rd wf2 rfl).trans (flags.trans levels)

/-- A queue that is notified stands last in its group's FIFO, while that has room (R314, R315). -/
theorem fifo_notifyPush {g q : Nat} (room : (mget ([] : List Nat) s.dlv.fifo g).length < 64) :
    mget ([] : List Nat) (notifyPush s g q).dlv.fifo g = mget [] s.dlv.fifo g ++ [q] := by
  unfold notifyPush
  dsimp only
  rw [if_pos room]
  have steady : ∀ u : State, Steady u (updateGroup (onlyIf (mget ([] : List Nat) s.dlv.fifo g).isEmpty (fun s => groupCause s g) u) g) := fun u =>
    ((steady_refl u).onlyIf _ ((steady_refl u).groupCause g)).updateGroup g
  obtain ⟨⟨hold, dlv⟩, -, -⟩ := steady { s with dlv := { s.dlv with fifo := mput [] s.dlv.fifo g (mget ([] : List Nat) s.dlv.fifo g ++ [q]) } }
  rw [dlv]
  exact mget_mput_marked _ _ _ (List.append_ne_nil_of_right_ne_nil _ (List.cons_ne_nil _ _))

theorem fifo_setCtx (s : State) (q : Nat) (f : QCtx → QCtx) : (setCtx s q f).dlv.fifo = s.dlv.fifo := by
  obtain ⟨_, _, _, _, frame⟩ := setQueue_frame s q { queueOf s q with ctx := f (queueOf s q).ctx }
  rw [show setCtx s q f = _ from frame]

theorem fifo_touchCtx (s : State) (q : Nat) : (touchCtx s q).dlv.fifo = s.dlv.fifo := by
  obtain ⟨_, _, _, frame⟩ := touchKey_frame s (qKey s q)
  unfold touchCtx
  rw [frame]

end

/-- Merging a doorbell touches that of its queue alone (R298). -/
theorem map_merge_rest {q : Nat} {rest : List Bell} (none_ : rest.any (fun y => y.q == q) = false) (f : Bell → Bell) : rest.map (fun x => if x.q = q then f x else x) = rest := by
  have others : ∀ y ∈ rest, (if y.q = q then f y else y) = y := fun y hy => if_neg (fun same => by simpa [same] using List.any_eq_false.mp none_ y hy)
  exact (List.map_congr_left others).trans (List.map_id rest)

section
variable {s : State} {b : Bell} {x : Queue} (good : b.ecc = .none) (at_ : HasQueue (touchCtx s b.q) b.q x) (on : x.ctx.state = 2)
include good at_ on

/-- A doorbell of CI alone. -/
theorem applyBell_ci {v : Nat} (ci : b.ci = some v) (bpi : b.bpi = none) (arm : b.arm = false) : applyBell s b = updateGroup (bellCi (touchCtx s b.q) b.q v) x.ctx.group := by
  simp only [applyBell, good, ctxAccess_none, at_.eq, on, ci, bpi, arm, bne_self_eq_false, Bool.false_eq_true, if_false]

/-- A doorbell of BPI alone. -/
theorem applyBell_bpi {v : Nat} (ci : b.ci = none) (bpi : b.bpi = some v) (arm : b.arm = false) : applyBell s b = updateGroup (bellBpi (touchCtx s b.q) b.q v) x.ctx.group := by
  simp only [applyBell, good, ctxAccess_none, at_.eq, on, ci, bpi, arm, bne_self_eq_false, Bool.false_eq_true, if_false]

/-- A doorbell of ARM alone. -/
theorem applyBell_arm (ci : b.ci = none) (bpi : b.bpi = none) (arm : b.arm = true) : applyBell s b = updateGroup (bellArm (touchCtx s b.q) b.q) x.ctx.group := by
  simp only [applyBell, good, ctxAccess_none, at_.eq, on, ci, bpi, arm, bne_self_eq_false, Bool.false_eq_true, if_false, if_true]

end

end Sys2Proof.Machine

open Sys2Proof Sys2Proof.Machine

theorem doorbellResults : Claims.DoorbellResults := by
  intro s sound
  have wf := regsWf_of_sound sound
  refine ⟨fun q lo hi b rest hopen has mine none_ => ?_, fun q lo hi hopen fresh full => ?_, fun b rest runs has small good on => ?_⟩
  · have waits : s.dlv.bells.any (fun y => y.q == q.val) = true := by rw [has, List.any_cons, mine, beq_self_eq_true, Bool.true_or]
    refine ((doorbells s).1 q lo hi hopen).2.2 waits |>.trans ?_
    rw [has, List.map_cons, if_pos mine, map_merge_rest none_]
  · have joins := ((doorbells s).1 q lo hi hopen).2.1 fresh full
    refine ⟨_, joins, congrArg (· ++ _) ?_⟩
    cases has : s.dlv.bells with
    | nil => exact absurd full (by rw [has]; decide)
    | cons b rest =>
      have applied : doorbellApply s = applyBell { s with dlv := { s.dlv with bells := rest } } b := by simp only [doorbellApply, has]
      rw [applied]
      exact (queueWork_applyBell _ b).bells
  · let s' : State := { s with dlv := { s.dlv with bells := rest } }
    let x := queueOf s b.q
    have at_ : HasQueue (touchCtx s' b.q) b.q x := hasQueue_touchCtx (s := s') wf b.q
    have applies : exec .doorbellApply s = .next (finish (applyBell s' b)) := onMain_next runs (by simp only [doorbellApply, has]; rfl)
    have bells : (applyBell s' b).dlv.bells = rest := (queueWork_applyBell s' b).bells
    have shown : ∀ {u : State} {y : Queue} (g : Nat), HasQueue u b.q y → queueOf (updateGroup u g) b.q = y := fun g h => (((steady_refl _).updateGroup g).has h).eq
    refine ⟨fun v ci bpi arm within => ⟨_, applies, bells, ?_⟩, fun v ci bpi arm beyond_ group => ⟨_, applies, bells, ?_⟩, fun v ci bpi arm within => ⟨_, applies, bells, ?_⟩,
      fun ci bpi arm notify used => ⟨_, applies, bells, ?_⟩, fun ci bpi arm notify used room => ⟨_, applies, bells, ?_⟩⟩
    · obtain ⟨n, taken⟩ := bellCi_takes at_ within
      rw [applyBell_ci good at_ on ci bpi arm, shown _ taken]
    · have refused := bellCi_refuses at_ beyond_
      have flagged : Steady (touchCtx s' b.q) (groupFlag (touchCtx s' b.q) x.ctx.group (DLV_GRP_STATUS_DB_ERR x.ctx.group)) := (steady_refl _).groupFlag _ _ (dbErr_apart _)
      rw [applyBell_ci good at_ on ci bpi arm, refused]
      refine ⟨congrArg Queue.ctx (shown _ (flagged.has at_)), ?_⟩
      have set := rdB_groupFlag_dbErr at_.wf x.ctx.group
      unfold rdB at set ⊢
      rw [rd_updateGroup_dbErr (flagged.wf at_.wf), set]
    · obtain ⟨n, taken⟩ := bellBpi_takes at_ within
      rw [applyBell_bpi good at_ on ci bpi arm, shown _ taken]
    · have armed : bellArm (touchCtx s' b.q) b.q = setCtx (touchCtx s' b.q) b.q (fun c => { c with armed := true }) := by
        unfold bellArm
        rw [at_.eq]
        dsimp only
        rw [notify, used]
        rfl
      rw [applyBell_arm good at_ on ci bpi arm, armed]
      exact congrArg Queue.ctx (shown _ (at_.setCtx _))
    · have notified : bellArm (touchCtx s' b.q) b.q = notifyPush (setCtx (touchCtx s' b.q) b.q (fun c => { c with armed := false })) x.ctx.group b.q := by
        unfold bellArm
        rw [at_.eq]
        dsimp only
        rw [notify, Bool.not_true, if_neg Bool.false_ne_true, if_pos (bne_iff_ne.mpr used)]
      have fifo : (setCtx (touchCtx s' b.q) b.q (fun c => { c with armed := false })).dlv.fifo = s.dlv.fifo := (fifo_setCtx _ _ _).trans (fifo_touchCtx s' b.q)
      obtain ⟨⟨hold, dlv⟩, -, -⟩ := (steady_refl (notifyPush (setCtx (touchCtx s' b.q) b.q (fun c => { c with armed := false })) x.ctx.group b.q)).updateGroup x.ctx.group
      rw [applyBell_arm good at_ on ci bpi arm, notified]
      refine ⟨congrArg Queue.ctx (shown _ ((at_.setCtx _).notifyPush _ _)), ?_⟩
      rw [dlv]
      refine (fifo_notifyPush (by rw [fifo]; exact room)).trans ?_
      rw [fifo]
end

section
/-! SUPPORT. Where an offered item ends (R295, R305 to R308). -/

namespace Sys2Proof.Machine

/-- Where only items wait, the oldest gap is the one that the next item closes (R308). -/
theorem oldestGap_items {w : QueueW} (items : w.ents.all QEnt.isItem = true) : oldestGap w = w.gap := by
  unfold oldestGap
  refine (congrArg (Option.or · w.gap) (List.findSome?_eq_none_iff.mpr fun e he => ?_)).trans Option.none_or
  have item := List.all_eq_true.mp items e he
  cases e with
  | item => rfl
  | gap => exact absurd item Bool.false_ne_true
  | flushed => rfl

section
variable {s : State} {q : Nat} {x : Queue} (stands : HasQueue s q x) (gap : x.gap = none) (flu : x.flu = none)
include stands gap flu

/-- An item that is admitted where nothing is pending takes the next number and stands last, with its buffers (R307). -/
theorem HasQueue.takes (o : Offer) (l : List (Nat × Nat)) :
    ∃ y, HasQueue (admitItem s q o (some l)) q y ∧ y.ents = x.ents ++ [.item o x.ctx.item (some l) x.ctx.bci] ∧ y.descs = x.descs.drop l.length ∧
      y.ctx.item = (x.ctx.item + 1) % 2 ^ 32 ∧ y.ctx.bci = (x.ctx.bci + l.length) % 2 ^ 24 := by
  unfold admitItem
  rw [stands.eq]
  dsimp only
  rw [flu, gap]
  simp only [List.append_nil, Option.map_some, Option.getD_some]
  let y : Queue := { x with ents := x.ents ++ [.item o x.ctx.item (some l) x.ctx.bci], descs := x.descs.drop l.length, flu := none, gap := none
                            ctx := { x.ctx with item := (x.ctx.item + 1) % 2 ^ 32, bci := (x.ctx.bci + l.length) % 2 ^ 24 } }
  obtain ⟨_, _, _, _, _, shows⟩ := showPending_frame y.ctx y.toQueueW
  have set := ((steady_refl _).updateGroup x.ctx.group).has (stands.set y)
  rw [shows] at set
  exact ⟨_, set, rfl, rfl, rfl, rfl⟩

/-- An item that is dropped where nothing is pending takes the next number and opens a gap (R307, R308). -/
theorem HasQueue.drop (plain : x.ctx.overwrite = false) (items : x.ents.all QEnt.isItem = true) (o : Offer) (reason : Nat) :
    ∃ y, HasQueue (dropItem s q o reason) q y ∧ y.ents = x.ents ∧ y.gap = some (1, x.ctx.item, reason) ∧ y.ctx.item = (x.ctx.item + 1) % 2 ^ 32 ∧ y.ctx.ellPend = true ∧ y.ctx.drops = 1 ∧
      y.ctx.dfirst = x.ctx.item ∧ y.ctx.dreason = reason ∧ y.ctx.dropTotal = min (x.ctx.dropTotal + 1) (2 ^ 32 - 1) := by
  let y : Queue := { x with ctx := { x.ctx with item := (x.ctx.item + 1) % 2 ^ 32, dropTotal := min (x.ctx.dropTotal + 1) (2 ^ 32 - 1) }, gap := some (1, x.ctx.item, reason) }
  have oldest : oldestGap y.toQueueW = some (1, x.ctx.item, reason) := oldestGap_items items
  have numbered := ((gapsAreNumbered s q o (by rw [stands.eq]; exact plain) (by rw [stands.eq]; exact flu)).1 reason).1 (by rw [stands.eq]; exact gap)
  rw [stands.eq] at numbered
  have counted : Steady s (addSat (addSat s DLV_CNT_DROP_COUNT 1) (DLV_GRP_CNT_DROP_COUNT x.ctx.group) 1) :=
    ((steady_refl s).wr DLV_CNT_DROP_COUNT _ (by decide)).wr (DLV_GRP_CNT_DROP_COUNT x.ctx.group) _ (by simp [DLV_GRP_CNT_DROP_COUNT]; omega)
  have set := ((steady_refl _).releaseItem o).has ((counted.has stands).set y)
  have over_ : ¬ y.ctx.overwrite = true := fun h => Bool.false_ne_true (plain.symm.trans h)
  unfold showPending at set
  rw [if_neg over_, oldest] at set
  rw [numbered]
  exact ⟨_, set, rfl, rfl, rfl, rfl, rfl, rfl, rfl, rfl⟩

end

theorem queueWork_admitItem (s : State) (q : Nat) (o : Offer) (bufs : Option (List (Nat × Nat))) : QueueWork s (admitItem s q o bufs) := by
  unfold admitItem
  generalize queueOf s q = x
  dsimp only
  exact (queueWork_setQueue s q _).steady ((steady_refl _).updateGroup _)

theorem queueWork_dropItem (s : State) (q : Nat) (o : Offer) (reason : Nat) : QueueWork s (dropItem s q o reason) := by
  unfold dropItem
  extract_lets x c c1 y
  exact ((((steady_refl s).countDrop c).work).trans (queueWork_setQueue _ q y)).steady ((steady_refl _).releaseItem o)

theorem queueActive_touchCtx {s : State} (wf : regsWf s = true) (q : Nat) (c : QCtx) : queueActive (touchCtx s q) c = queueActive s c := by
  have reg : getReg (touchCtx s q) (grpEn c.group) = getReg s (grpEn c.group) := (touchKey_regs s _ wf).2 _ (by simp [grpEn]; omega)
  simp only [queueActive, enabled, enState, reg]

end Sys2Proof.Machine

open Sys2Proof Sys2Proof.Machine

theorem itemResults : Claims.ItemResults := by
  intro s o l runs sound low on_ fits qid x c active plain gap flu items dropped
  have wf := regsWf_of_sound sound
  have one : needed x = 1 := by rw [needed, gap, flu]; rfl
  have steps : ∀ u : State, Steady u (each (List.range 64) (fun s st => if (frm s st).frames.any (fun f => f.complete) then later s (.handOver st) else s) u) := fun u =>
    (steady_refl u).each fun v st _ => Steady.ite ((steady_refl v).later _) (steady_refl v)
  refine ⟨fun has event => ?_, fun k has data buf => ?_⟩
  · let s' : State := { s with dlv := { s.dlv with ev := l } }
    have at_ : HasQueue (touchCtx s' o.qid) o.qid x := hasQueue_touchCtx (s := s') wf o.qid
    have same : queueOf (touchCtx s' o.qid) o.qid = x := at_.eq
    have on : queueActive (touchCtx s' o.qid) (queueOf (touchCtx s' o.qid) o.qid).ctx = true := by rw [same, queueActive_touchCtx (s := s') wf]; exact active
    have offered := itemOffer_event (e := .none) has (show 2 ≤ mode s by omega) on_
    have takes := offerItem_takes (s := s') (l := []) on fits (by rw [same]; exact plain) (if_pos (by rw [event]; rfl)) (Nat.zero_le _)
    dsimp only at takes
    rw [same, one] at takes
    have ev : ∀ u, QueueWork s' u → u.dlv.ev = l := fun u h => by
      obtain ⟨⟨_, _, _, _, dlv⟩, -⟩ := h
      rw [dlv]
    refine ⟨fun room => ?_, fun full => ?_⟩
    · obtain ⟨y, stands, ents, -, item, -⟩ := at_.takes gap flu o []
      rw [if_neg (Nat.not_lt.mpr room)] at takes
      refine ⟨_, onMain_next runs (offered.trans takes), ev _ ((queueWork_touchCtx s' o.qid).trans (queueWork_admitItem _ _ _ _)), ?_⟩
      rw [stands.eq]
      exact ⟨ents, item⟩
    · obtain ⟨y, stands, rest⟩ := at_.drop gap flu plain items o 1
      rw [if_pos (show freeEntries x < 1 by omega)] at takes
      refine ⟨_, onMain_next runs (offered.trans takes), ev _ ((queueWork_touchCtx s' o.qid).trans (queueWork_dropItem _ _ _ _)), ?_⟩
      dsimp only [dropped]
      rw [stands.eq]
      exact rest
  · let s' : State := { s with dlv := { s.dlv with camp := mput [] s.dlv.camp k l } }
    have at_ : HasQueue (touchCtx s' o.qid) o.qid x := hasQueue_touchCtx (s := s') wf o.qid
    have same : queueOf (touchCtx s' o.qid) o.qid = x := at_.eq
    have on : queueActive (touchCtx s' o.qid) (queueOf (touchCtx s' o.qid) o.qid).ctx = true := by rw [same, queueActive_touchCtx (s := s') wf]; exact active
    have offered := itemOffer_camp (e := .none) has low on_
    refine ⟨fun bufs got count room => ?_, fun short ring small room => ?_⟩
    · have takes := offerItem_takes (s := s') on fits (by rw [same]; exact plain) (bufsFor_data data (by rw [same]; exact buf) (by rw [same]; exact got)) count
      dsimp only at takes
      rw [same, one, if_neg (Nat.not_lt.mpr room)] at takes
      obtain ⟨y, stands, ents, descs, item, bci⟩ := at_.takes gap flu o bufs
      rw [← takes] at stands
      have ends := ((steps _).has stands).eq
      exact ⟨_, onMain_next runs offered, by rw [ends, ents], by rw [ends, descs], by rw [ends, item], by rw [ends, bci]⟩
    · have drops := offerItem_short (s := s') on fits (by rw [same]; exact plain) (bufsFor_data data (by rw [same]; exact buf) (by rw [same]; exact short))
        (by rw [same, decide_eq_false (Nat.not_le.mpr (Nat.lt_min.mpr ⟨ring, small⟩)), Bool.and_false])
      dsimp only at drops
      rw [same, one, decide_eq_true room] at drops
      obtain ⟨y, stands, rest⟩ := at_.drop gap flu plain items o 2
      rw [← show offerItem s' o .none = dropItem (touchCtx s' o.qid) o.qid o 2 from drops] at stands
      have ends := ((steps _).has stands).eq
      refine ⟨_, onMain_next runs offered, ?_⟩
      dsimp only [dropped]
      rw [ends]
      exact rest

/-- Settles O32 (R294 to R298, R305 to R308, R312, R313, R320, Table 11-6; logs 25 and 26). -/
theorem deliveryResults : Obligations.DeliveryResults := ⟨queueCommandsEnd, contextCacheIsTransparent, doorbellResults, itemResults⟩
end

section
/-! SUPPORT. Beats, beat lock, anchors, lost beats and stale slots (R442 to R454). -/

namespace Sys2Proof.Machine

/-- What no trail below a bound has, none is picked for. -/
theorem below_none {n : Nat} {p : Nat → Bool} (none_ : ∀ t < n, p t = false) : below n p = [] :=
  List.filter_eq_nil_iff.mpr fun t ht h => Bool.false_ne_true ((none_ t (List.mem_range.mp ht)).symm.trans h)

/-- The lock of TTH_UP, where it changes (R446). -/
theorem portLock_gains {s : State} (off : rdB s TTH_STATUS_UP_LOCK = false) : portLock s false true = raise (wrB s TTH_STATUS_UP_LOCK true) srcTthLink := by
  simp only [portLock, upLock, off, Bool.not_false, if_true, Bool.false_eq_true, if_false]

theorem portLock_loses {s : State} (on : rdB s TTH_STATUS_UP_LOCK = true) :
    portLock s false false = each (List.range 4) slotFreeze (raise (wrB s TTH_STATUS_UP_LOCK false) srcTthLink) := by
  simp only [portLock, upLock, on, Bool.not_false, if_true, Bool.true_eq_false, Bool.false_eq_true, if_false]

section
variable {s : State} (runs : tthOn s = true)
include runs

/-- A change of a port's block lock (R444, R446). -/
theorem blockLockChange_eq {down lock : Bool} (side : down = true ∨ isWorker s = true) (changes : (lockOf s down).block = !lock) :
    blockLockChange down lock s =
      let u := portLock (setLock s down { block := lock }) down false
      if down then u else if lock then { u with tth := { u.tth with recovered := true } } else ownClock { u with tth := { u.tth with half := false } } := by
  have may : (!down && !isWorker s) = false := by rcases side with h | h <;> simp [h]
  have differs : ((lockOf s down).block == lock) = false := by rw [changes]; cases lock <;> rfl
  simp only [blockLockChange, runs, may, differs, Bool.not_true, Bool.or_self, Bool.false_eq_true, if_false]

/-- A good delta part at TTH_DN (R446). -/
theorem positionDelta_upstream {x : DeltaPart} {w : Nat} (down : x.down = true) (block : s.tth.dn.block = true) (good : deltaOf x = some w) :
    positionDelta x s = beatLock s true (seqGood s.tth.dn (some w)) (some (w % 16)) := by
  simp only [positionDelta, deltaUpstream, runs, down, block, good, onlyIf, Option.isNone_some, Option.map_some, Bool.and_false, Bool.not_true, Bool.false_eq_true, if_false, if_true]

section
variable (worker : isWorker s = true) (block : s.tth.up.block = true)
include worker block

/-- A delta part at TTH_UP (R446, R451). -/
theorem positionDelta_worker {x : DeltaPart} (down : x.down = false) : positionDelta x s = deltaDown x (virtSync (beatRest s idlePart)) := by
  simp only [positionDelta, runs, down, worker, block, Bool.not_true, Bool.or_self, Bool.false_eq_true, if_false]

/-- An anchor whose CRC fails (R450, R454). -/
theorem positionAnchor_bad {x : AnchorPart} (bad : anchorOf x = none) :
    let u := beatRest (tthCrc s false) idlePart
    let here := (s.tth.up.expect.getD 0 + 15) % 4
    positionAnchor x s = if rdB s TTH_STATUS_UP_LOCK then
      { u with tth := { u.tth with slots := mput {} u.tth.slots here { mget ({} : TthSlot) s.tth.slots here with stale := true } } } else u := by
  simp only [positionAnchor, runs, worker, block, bad, onlyIf, Option.any_none, Option.isNone_none, Bool.false_and, Bool.not_true, Bool.or_self, Bool.false_eq_true, if_false, if_true]
  cases rdB s TTH_STATUS_UP_LOCK <;> rfl

/-- An anchor with another slot's number (R450). -/
theorem positionAnchor_other {x : AnchorPart} {w : Nat} (good : anchorOf x = some w) (other : w % 4 ≠ (s.tth.up.expect.getD 0 + 15) % 4) : positionAnchor x s = beatRest s idlePart := by
  simp only [positionAnchor, runs, worker, block, good, beq_eq_false_iff_ne.mpr other, onlyIf, Option.any_some, Option.isNone_some, Bool.false_and, Bool.not_true, Bool.not_false, Bool.true_or, Bool.or_self,
    Bool.false_eq_true, if_false, if_true, ite_self]

/-- An anchor in its turn, on a slot whose delta part was valid (R448, R452). -/
theorem positionAnchor_good {x : AnchorPart} {w : Nat} (lock : rdB s TTH_STATUS_UP_LOCK = true) (short : rdB s TTH_STATUS_CHAIN_LONG = false) (good : anchorOf x = some w)
    (turn : w % 4 = (s.tth.up.expect.getD 0 + 15) % 4) (valid : (mget ({} : TthSlot) s.tth.slots (w % 4)).valid = true) :
    positionAnchor x s = slotAnchor (virtSync (beatRest s [x.b0, x.b1])) (w % 4) w := by
  rw [turn] at valid
  simp only [positionAnchor, runs, worker, block, good, lock, short, turn, valid, onlyIf, Option.any_some, Option.isNone_some, beq_self_eq_true, Bool.not_true, Bool.not_false, Bool.and_self, Bool.or_self,
    Bool.false_eq_true, if_false, if_true]

end
end

/-- A good delta part in its turn, whose HOP is not the last (R442, R446, R452). -/
theorem deltaDown_good {u : State} {x : DeltaPart} {w : Nat} (good : deltaOf x = some w) (turn : u.tth.up.expect = some (w % 16)) (lock : rdB u TTH_STATUS_UP_LOCK = true) (short : bitsOf w 7 4 ≠ 15) :
    let h := hopTake (beatLock u false true (some (w % 16))) (bitsOf w 7 4)
    let v := { h with tth := { h.tth with beatAt := 8 * h.now + x.phase.toNat } }
    deltaDown x u = beatsSend (onlyIf (rdB v TTH_STATUS_UP_LOCK) (fun s => each (List.range 4) (fun s j => slotDeltaIn s w j) s) v) (some w) := by
  have seq : seqGood u.tth.up (some w) = true := by simp only [seqGood, turn, beq_self_eq_true]
  have hop : (bitsOf w 7 4 == 15) = false := beq_eq_false_iff_ne.mpr short
  unfold deltaDown
  rw [good]
  simp only [seq, lock, hop, onlyIf, Option.isNone_some, Option.any_some, Option.map_some, Bool.and_false, Bool.not_true, Bool.true_and, Bool.false_eq_true, if_false]

/-- The beats that follow it (R442). -/
theorem beatsSend_good {s : State} {w : Nat} (short : bitsOf w 7 4 ≠ 15) :
    beatsSend s (some w) =
      let part := partBlocks 0xE1 (deltaWord (w % 16) (bitsOf w 7 4 + 1) (bitsOf w 19 8) (bitsOf w 40 20) (bitsOf w 61 41) (bitsOf w 82 62) (bitsOf w 103 83))
      let d := blocksSend { s with tth := { s.tth with seq := w % 16, half := true } } true part
      tthDrain 3 (blocksSend d false (partBlocks 0xE1 (deltaWord (w % 16) (rd d TTH_STATUS_HOP) 0 0 0 0 0))) false := by
  simp only [beatsSend, if_neg short]

/-- An anchor that agrees with its slot sets its speed and ends what it held (R452, R454). -/
theorem slotAnchor_agrees {s : State} {j w : Nat} (agrees : (mget ({} : TthSlot) s.tth.slots j).s = toSigned 64 (bitsOf w 111 48) * 256 + bitsOf w 47 40)
    (still : (mget ({} : TthSlot) s.tth.slots j).step = false) (none_ : ∀ t < 12, tetherOn s t = false) :
    slotAnchor s j w = { s with tth := { s.tth with slots := mput {} s.tth.slots j { mget ({} : TthSlot) s.tth.slots j with
      rxAt := s.tth.beatAt, spd := toSigned 32 (bitsOf w 39 8), st := speedOfCode (bitsOf w 3 2), frozen := none, stale := false, step := false } } } := by
  have apart : ∀ l : List (Nat × TthSlot), below 12 (fun t => tetherOn { s with tth := { s.tth with slots := l } } t && rdC { s with tth := { s.tth with slots := l } } (TRL_VCFG_MGR_TRAIL (t - 8)) == j) = [] := fun l =>
    below_none fun t ht => by rw [show tetherOn { s with tth := { s.tth with slots := l } } t = false from none_ t ht, Bool.false_and]
  unfold slotAnchor
  rw [← agrees]
  simp only [bne_self_eq_false, onlyIf, Bool.false_eq_true, if_false, still, apart]
  rfl

end Sys2Proof.Machine

open Sys2Proof Sys2Proof.Machine

theorem beatsAndAnchors : Claims.BeatsAndAnchors := by
  intro s runs on
  refine ⟨fun manager => ⟨freeNat s % 8, Nat.mod_lt _ (by decide), onMain_next runs ?_⟩, fun off => rfl, fun off j unsent => ?_, fun x worker block => ⟨fun bad => onMain_next runs ?_, fun w good other => onMain_next runs ?_⟩,
    fun j worker stale => onMain_next runs ?_, fun lock changes => onMain_next runs ?_, fun worker changes => onMain_next runs ?_, fun worker changes => onMain_next runs ?_⟩
  · simp only [beatTransmit, on, manager, Bool.not_true, Bool.or_self, Bool.false_eq_true, if_false]
  · simp only [anchorSent, unsent, Bool.false_eq_true, if_false]
  · exact positionAnchor_bad on worker block bad
  · exact positionAnchor_other on worker block good other
  · simp only [slotStaleExpire, on, worker, stale, Bool.and_self, if_true]
  · exact blockLockChange_eq on (Or.inl rfl) changes
  · exact blockLockChange_eq on (Or.inr worker) changes
  · exact blockLockChange_eq on (Or.inr worker) changes

theorem beatLocks : Claims.BeatLock := by
  intro s n
  have reads : ∀ l, rdB (setLock s false l) TTH_STATUS_UP_LOCK = rdB s TTH_STATUS_UP_LOCK := fun _ => rfl
  refine ⟨fun off => ⟨fun few => ?_, fun eighth => ?_⟩, fun on => ⟨?_, fun few => ?_, fun fourth => ?_⟩⟩
  · simp only [beatLock, lockOf, off, Bool.false_eq_true, if_false, if_true, if_neg (Nat.not_le.mpr few)]
  · simp only [beatLock, lockOf, off, Bool.false_eq_true, if_false, if_true, if_pos eighth]
    exact portLock_gains ((reads _).trans off)
  · simp only [beatLock, lockOf, on, Bool.false_eq_true, if_false, if_true, if_neg (show ¬ 4 ≤ 0 by decide)]
  · simp only [beatLock, lockOf, on, Bool.false_eq_true, if_false, if_true, if_neg (Nat.not_le.mpr few)]
  · simp only [beatLock, lockOf, on, Bool.false_eq_true, if_false, if_true, if_pos fourth]
    exact portLock_loses ((reads _).trans on)

theorem lostBeats : Claims.LostBeats := by
  intro s x runs on
  refine ⟨fun down worker block bad => onMain_next runs ?_, fun down block => ⟨fun w good => onMain_next runs ?_, fun bad present => onMain_next runs ?_⟩⟩
  · refine (positionDelta_worker on worker block down).trans ?_
    simp only [deltaDown, bad, seqGood, beatsSend, onlyIf, Option.isNone_none, Option.any_none, Option.map_none, Bool.and_true, Bool.not_false, Bool.false_eq_true, if_false]
  · exact positionDelta_upstream on down block good
  · simp only [positionDelta, deltaUpstream, on, down, block, bad, present, seqGood, onlyIf, Option.isNone_none, Option.map_none, Bool.and_true, Bool.not_true, Bool.false_eq_true, if_false, if_true]

theorem goodBeat : Claims.GoodBeat := by
  intro s x w runs on down worker block good short u turn lock h v still
  refine onMain_next runs ((positionDelta_worker on worker block down).trans ?_)
  refine (deltaDown_good good turn lock short).trans ?_
  rw [show rdB _ TTH_STATUS_UP_LOCK = true from still]
  exact beatsSend_good short

theorem goodAnchor : Claims.GoodAnchor := by
  intro s x w runs on worker block lock short j u y good turn valid still agrees none_
  refine onMain_next runs ((positionAnchor_good on worker block lock short good turn valid).trans ?_)
  exact slotAnchor_agrees agrees still none_

/-- Settles O46 (R442 to R454; log 36). -/
theorem beats : Obligations.Beats := ⟨beatsAndAnchors, beatLocks, lostBeats, goodBeat, goodAnchor⟩
end

section
/-! SUPPORT. What is written as a part or a message of the tether reads back as it (R449, Tables 16-3 to 16-6). -/

namespace Sys2Proof.Machine

/-! Bytes and the numbers they spell. -/

theorem leBytes_leNat (l : List Byte) : leBytes l.length (leNat l) = l := by
  induction l with
  | nil => rfl
  | cons b l ih =>
    have low : BitVec.ofNat 8 (b.toNat + 256 * leNat l) = b := BitVec.eq_of_toNat_eq (by rw [BitVec.toNat_ofNat]; have := b.isLt; omega)
    have high : (b.toNat + 256 * leNat l) / 256 = leNat l := by have := b.isLt; omega
    show BitVec.ofNat 8 (b.toNat + 256 * leNat l) :: leBytes l.length ((b.toNat + 256 * leNat l) / 256) = b :: l
    rw [low, high, ih]

theorem leNat_lt (l : List Byte) : leNat l < 256 ^ l.length := by
  induction l with
  | nil => exact Nat.one_pos
  | cons b l ih =>
    have := b.isLt
    have grows : leNat (b :: l) = b.toNat + 256 * leNat l := rfl
    rw [List.length_cons, Nat.pow_succ, grows]
    omega

theorem leNat_leBytes_one (v : Nat) (small : v < 256) : leNat (leBytes 1 v) = v := by
  show (BitVec.ofNat 8 v).toNat + 256 * 0 = v
  rw [BitVec.toNat_ofNat]
  omega

/-- Each step of a CRC keeps its width. -/
theorem crcStepMsb_lt {w poly : Nat} (small : poly < 2 ^ w) (crc : Nat) (b : Byte) : crcStepMsb w poly crc b < 2 ^ w := by
  have step : ∀ c : Nat, (if 2 ^ (w - 1) ≤ c then Nat.xor (c * 2 % 2 ^ w) poly else c * 2 % 2 ^ w) < 2 ^ w := fun c => by
    have cut : c * 2 % 2 ^ w < 2 ^ w := Nat.mod_lt _ (Nat.two_pow_pos w)
    split
    · exact Nat.xor_lt_two_pow cut small
    · exact cut
  unfold crcStepMsb
  dsimp only
  rw [List.range_succ, List.foldl_append]
  exact step _

theorem crc_lt {w poly init : Nat} (small : poly < 2 ^ w) (start : init < 2 ^ w) (l : List Byte) : l.foldl (crcStepMsb w poly) init < 2 ^ w := by
  induction l generalizing init with
  | nil => exact start
  | cons b l ih => exact ih (crcStepMsb_lt small init b)

theorem crc8_lt (l : List Byte) : crc8 l < 2 ^ 8 := crc_lt (by decide) (by decide) l

theorem crc16_lt (l : List Byte) : crc16 l < 2 ^ 16 := crc_lt (by decide) (by decide) l

/-! Single-block messages. -/

/-- The eight bytes of a control block read back. -/
theorem blockBytes_ctlBlock {l : List Byte} (eight : l.length = 8) : blockBytes (ctlBlock l) = l := by
  have small : leNat l < 2 ^ 64 := by
    have := leNat_lt l
    rwa [eight] at this
  unfold blockBytes ctlBlock
  dsimp only
  rw [BitVec.toNat_ofNat, Nat.mod_eq_of_lt small, ← eight]
  exact leBytes_leNat l

theorem singleOf_single {kind : Nat} {c : List Byte} (small : kind < 256) (six : c.length = 6) : singleOf kind [single kind c] = some c := by
  have content : (c ++ leBytes 6 0).take 6 = c := by rw [← six, List.take_left]
  let b : List Byte := leBytes 1 kind ++ c
  have seven : b.length = 7 := by simp [b, leBytes, six]
  have bytes : blockBytes (single kind c) = b ++ leBytes 1 (crc8 b) := by
    unfold single
    rw [content]
    exact blockBytes_ctlBlock (by simp [leBytes, six])
  have body : (b ++ leBytes 1 (crc8 b)).take 7 = b := by rw [← seven, List.take_left]
  have first : atBytes (b ++ leBytes 1 (crc8 b)) 0 1 = kind := leNat_leBytes_one kind small
  have last : atBytes (b ++ leBytes 1 (crc8 b)) 7 1 = crc8 b := by
    unfold atBytes
    rw [← seven, List.drop_left]
    exact leNat_leBytes_one _ (crc8_lt b)
  have inner : ((b ++ leBytes 1 (crc8 b)).drop 1).take 6 = c := by
    show (c ++ leBytes 1 (crc8 b)).take 6 = c
    rw [← six, List.take_left]
  unfold singleOf
  dsimp only
  rw [bytes, body, first, last, inner]
  simp [single, ctlBlock]

/-! Parts of a beat. -/

/-- A word of 120 bits that is put in two blocks reads back. -/
theorem partWord_partBlocks {ty w : Nat} (small : ty < 256) (fits : w < 2 ^ 120) :
    partWord ty ⟨true, BitVec.ofNat 64 (ty + 256 * w)⟩ ⟨false, BitVec.ofNat 64 (w / 2 ^ 56)⟩ = some w := by
  unfold partWord
  simp only [BitVec.toNat_ofNat]
  have kind : (ty + 256 * w) % 2 ^ 64 % 256 = ty := by omega
  have word : (ty + 256 * w) % 2 ^ 64 / 256 + 2 ^ 56 * (w / 2 ^ 56 % 2 ^ 64) = w := by omega
  rw [kind, word]
  simp

/-- A message's content is padded to six bytes. -/
theorem singleOf_padded {kind : Nat} (small : kind < 256) (l : List Byte) : singleOf kind [single kind l] = some ((l ++ leBytes 6 0).take 6) := by
  have six : ((l ++ leBytes 6 0).take 6).length = 6 := by simp [leBytes]
  have same : single kind l = single kind ((l ++ leBytes 6 0).take 6) := by
    unfold single
    rw [List.take_left' six]
  rw [same]
  exact singleOf_single small six

/-- The flags of a HEARTBEAT's second byte read back (Table 16-5). -/
theorem heartbeatFlags (id : Nat) (small : id < 16) (mgr ready nf miss : Bool) :
    let v := id % 16 + 16 * b2n mgr + 32 * b2n ready + 64 * b2n nf + 128 * b2n miss
    v < 256 ∧ v % 16 = id ∧ bitOf v 4 = mgr ∧ bitOf v 5 = ready ∧ bitOf v 6 = nf ∧ bitOf v 7 = miss := by
  have bit : ∀ b : Bool, b2n b ≤ 1 ∧ (b2n b == 1) = b := by decide
  intro v
  obtain ⟨m1, me⟩ := bit mgr
  obtain ⟨r1, re⟩ := bit ready
  obtain ⟨n1, ne⟩ := bit nf
  obtain ⟨i1, ie⟩ := bit miss
  unfold bitOf
  refine ⟨by omega, by omega, ?_, ?_, ?_, ?_⟩
  · rw [show v / 2 ^ 4 % 2 = b2n mgr by omega, me]
  · rw [show v / 2 ^ 5 % 2 = b2n ready by omega, re]
  · rw [show v / 2 ^ 6 % 2 = b2n nf by omega, ne]
  · rw [show v / 2 ^ 7 % 2 = b2n miss by omega, ie]

/-- A byte of a message reads back. -/
theorem leNat_byte {v : Nat} (small : v < 256) : leNat [BitVec.ofNat 8 v] = v := leNat_leBytes_one v small

/-- A HEARTBEAT's content gives its fields (Table 16-5). -/
theorem heartbeatOf_content {h : Heartbeat} {cause : Nat} (mode : h.mode < 16) (target : h.target < 16) (id : h.id < 16) (hop : h.hop < 16) (hoId : h.hoId < 256) (small : cause < 8) :
    heartbeatOf [BitVec.ofNat 8 (h.mode % 16 + 16 * (h.target % 16)), BitVec.ofNat 8 (h.id % 16 + 16 * b2n h.mgr + 32 * b2n h.ready + 64 * b2n h.notFollowing + 128 * b2n h.hoMiss),
      BitVec.ofNat 8 (cause % 8 + 16 * (h.hop % 16)), BitVec.ofNat 8 h.hoId, 0, 0] = h := by
  obtain ⟨byte, worker, mgr, ready, nf, miss⟩ := heartbeatFlags h.id id h.mgr h.ready h.notFollowing h.hoMiss
  unfold heartbeatOf atBytes
  simp only [List.drop_zero, List.drop_succ_cons, List.take_succ_cons, List.take_zero]
  rw [leNat_byte (show h.mode % 16 + 16 * (h.target % 16) < 256 by omega), leNat_byte byte, leNat_byte (show cause % 8 + 16 * (h.hop % 16) < 256 by omega), leNat_byte hoId, worker, mgr, ready, nf, miss,
    show (h.mode % 16 + 16 * (h.target % 16)) % 16 = h.mode by omega, show (h.mode % 16 + 16 * (h.target % 16)) / 16 = h.target by omega, show (cause % 8 + 16 * (h.hop % 16)) / 16 = h.hop by omega]

/-- A delta part that a device makes, with its CRC (Table 16-3). -/
theorem deltaOf_deltaWord {seq hop flags d0 d1 d2 d3 : Nat} (h0 : d0 < 2 ^ 21) (h1 : d1 < 2 ^ 21) (h2 : d2 < 2 ^ 21) (h3 : d3 < 2 ^ 21) (phase : BitVec 3) (down : Bool) :
    let w := deltaWord seq hop flags d0 d1 d2 d3
    deltaOf { down := down, present := true, b0 := ⟨true, BitVec.ofNat 64 (0xE1 + 256 * w)⟩, b1 := ⟨false, BitVec.ofNat 64 (w / 2 ^ 56)⟩, phase := phase } = some w := by
  intro w
  let v := seq % 16 + 2 ^ 4 * (hop % 16) + 2 ^ 8 * (flags % 4096) + 2 ^ 20 * d0 + 2 ^ 41 * d1 + 2 ^ 62 * d2 + 2 ^ 83 * d3
  have crc := crc16_lt (leBytes 13 v)
  have word : w = v + 2 ^ 104 * crc16 (leBytes 13 v) := rfl
  have low : v < 2 ^ 104 := by omega
  have fits : w < 2 ^ 120 := by omega
  have check : bitsOf w 119 104 = crc16 (leBytes 13 (w % 2 ^ 104)) := by
    rw [show w % 2 ^ 104 = v by omega]
    show w / 2 ^ 104 % 2 ^ 16 = crc16 (leBytes 13 v)
    omega
  unfold deltaOf
  dsimp only
  rw [partWord_partBlocks (by decide) fits, Option.bind_some, check, beq_self_eq_true]
  rfl

/-- An anchor part that a device makes, with its CRC (Table 16-4). -/
theorem anchorOf_anchorWord {slot state spd fine pos : Nat} {method : Bool} (hs : spd < 2 ^ 32) (hf : fine < 2 ^ 8) (hp : pos < 2 ^ 64) :
    let w := anchorWord slot state method spd fine pos
    anchorOf { b0 := ⟨true, BitVec.ofNat 64 (0xE2 + 256 * w)⟩, b1 := ⟨false, BitVec.ofNat 64 (w / 2 ^ 56)⟩ } = some w := by
  intro w
  have one : b2n method ≤ 1 := by cases method <;> decide
  let v := slot % 4 + 4 * (state % 4) + 16 * b2n method + 2 ^ 8 * spd + 2 ^ 40 * fine + 2 ^ 48 * pos
  have crc := crc8_lt (leBytes 14 v)
  have word : w = v + 2 ^ 112 * crc8 (leBytes 14 v) := rfl
  have low : v < 2 ^ 112 := by omega
  have fits : w < 2 ^ 120 := by omega
  have check : bitsOf w 119 112 = crc8 (leBytes 14 (w % 2 ^ 112)) := by
    rw [show w % 2 ^ 112 = v by omega]
    show w / 2 ^ 112 % 2 ^ 8 = crc8 (leBytes 14 v)
    omega
  unfold anchorOf
  dsimp only
  rw [partWord_partBlocks (by decide) fits, Option.bind_some, check, beq_self_eq_true]
  rfl

end Sys2Proof.Machine

open Sys2Proof Sys2Proof.Machine

theorem tetherMessagesReadBack : Claims.TetherMessagesReadBack := by
  refine ⟨fun kind c small six => singleOf_single small six, fun h cause mode target id hop hoId small => ⟨_, singleOf_padded (by decide) _, heartbeatOf_content mode target id hop hoId small⟩,
    fun seq hop flags d0 d1 d2 d3 hseq hhop hflags h0 h1 h2 h3 => ?_, fun slot state spd fine pos method hslot hstate hs hf hp => ?_⟩
  · refine ⟨⟨_, _, rfl, fun phase down => deltaOf_deltaWord h0 h1 h2 h3 phase down⟩, ?_⟩
    have word : deltaWord seq hop flags d0 d1 d2 d3 = seq % 16 + 2 ^ 4 * (hop % 16) + 2 ^ 8 * (flags % 4096) + 2 ^ 20 * d0 + 2 ^ 41 * d1 + 2 ^ 62 * d2 + 2 ^ 83 * d3 + 2 ^ 104 * crc16 _ := rfl
    rw [word]
    generalize crc16 _ = crc
    unfold bitsOf
    exact ⟨by omega, by omega, by omega, by omega, by omega, by omega, by omega⟩
  · refine ⟨⟨_, _, rfl, anchorOf_anchorWord hs hf hp⟩, ?_⟩
    have bit : b2n method ≤ 1 ∧ (b2n method == 1) = method := by cases method <;> decide
    obtain ⟨one, same⟩ := bit
    have word : anchorWord slot state method spd fine pos = slot % 4 + 4 * (state % 4) + 16 * b2n method + 2 ^ 8 * spd + 2 ^ 40 * fine + 2 ^ 48 * pos + 2 ^ 112 * crc8 _ := rfl
    rw [word]
    generalize crc8 _ = crc
    generalize b2n method = m at *
    unfold bitsOf bitOf
    refine ⟨by omega, by omega, ?_, by omega, by omega, by omega⟩
    rw [show (slot % 4 + 4 * (state % 4) + 16 * m + 2 ^ 8 * spd + 2 ^ 40 * fine + 2 ^ 48 * pos + 2 ^ 112 * crc) / 2 ^ 4 % 2 = m by omega, same]
end

section
/-! SUPPORT. Where the tether's receptions end (R406, R446, R452, R454, R460, R462, R464). -/

namespace Sys2Proof.Machine

/-! The slots of the tether: what a step does to one of them. -/

/-- A step that changes slot `i` and nothing else of the tether. -/
def OneSlot (i : Nat) (s t : State) : Prop :=
  ∃ l, t.tth = { s.tth with slots := l } ∧ (mwf (fun _ => ({} : TthSlot)) s.tth.slots = true →
    mwf (fun _ => ({} : TthSlot)) l = true ∧ ∀ j, j ≠ i → mget ({} : TthSlot) l j = mget ({} : TthSlot) s.tth.slots j)

section
variable {i : Nat} {s t u : State}

theorem OneSlot.same (same : t.tth = s.tth) : OneSlot i s t := ⟨_, same, fun wf => ⟨wf, fun _ _ => rfl⟩⟩

theorem OneSlot.trans (h : OneSlot i s t) (k : OneSlot i t u) : OneSlot i s u := by
  obtain ⟨l, first, keeps⟩ := h
  obtain ⟨m, second, keeps'⟩ := k
  rw [first] at second keeps'
  exact ⟨m, second, fun wf => ⟨(keeps' (keeps wf).1).1, fun j other => ((keeps' (keeps wf).1).2 j other).trans ((keeps wf).2 j other)⟩⟩

theorem oneSlot_put (s : State) (i : Nat) (y : TthSlot) : OneSlot i s { s with tth := { s.tth with slots := mput {} s.tth.slots i y } } :=
  ⟨_, rfl, fun wf => ⟨mput_wf _ _ _ _ wf, fun _ other => mget_mput_other _ _ _ _ _ _ _ other wf⟩⟩

theorem OneSlot.wf (h : OneSlot i s t) (wf : mwf (fun _ => ({} : TthSlot)) s.tth.slots = true) : mwf (fun _ => ({} : TthSlot)) t.tth.slots = true := by
  obtain ⟨l, put, keeps⟩ := h
  rw [put]
  exact (keeps wf).1

theorem OneSlot.other (h : OneSlot i s t) (wf : mwf (fun _ => ({} : TthSlot)) s.tth.slots = true) {j : Nat} (other : j ≠ i) :
    mget ({} : TthSlot) t.tth.slots j = mget ({} : TthSlot) s.tth.slots j := by
  obtain ⟨l, put, keeps⟩ := h
  rw [put]
  exact (keeps wf).2 j other

theorem OneSlot.up (h : OneSlot i s t) : t.tth.up = s.tth.up := by
  obtain ⟨l, put, -⟩ := h
  rw [put]

end

/-- Marking the virtual trails that take a slot leaves the tether. -/
theorem slotUntrusted_tth (s : State) (j : Nat) : (slotUntrusted s j).tth = s.tth := each_same (g := State.tth) _ s fun _ _ _ => rfl

theorem slotFreeze_tth {s : State} {j : Nat} (moving : (mget ({} : TthSlot) s.tth.slots j).frozen = none) :
    let x := mget ({} : TthSlot) s.tth.slots j
    (slotFreeze s j).tth = { s.tth with slots := mput {} s.tth.slots j { x with frozen := some (slotNow s x), stale := true } } := by
  intro x
  unfold slotFreeze
  simp only [moving, Option.isSome_none, Bool.false_eq_true, if_false]
  exact each_same (g := State.tth) _ _ fun _ _ _ => rfl

theorem oneSlot_slotFreeze (s : State) (j : Nat) : OneSlot j s (slotFreeze s j) := by
  cases frozen : (mget ({} : TthSlot) s.tth.slots j).frozen with
  | some v =>
    have still : slotFreeze s j = s := by simp only [slotFreeze, frozen, Option.isSome_some, if_true]
    rw [still]
    exact OneSlot.same rfl
  | none => exact (oneSlot_put s j _).trans (OneSlot.same (slotFreeze_tth frozen))

theorem oneSlot_slotDeltaIn (s : State) (w j : Nat) : OneSlot j s (slotDeltaIn s w j) := by
  have mark : ∀ (t : State) (b : Bool), OneSlot j t (onlyIf b (fun s => slotUntrusted s j) t) := fun t b => by
    cases b
    · exact OneSlot.same rfl
    · exact OneSlot.same (slotUntrusted_tth t j)
  unfold slotDeltaIn
  dsimp only
  split
  · exact (oneSlot_put s j _).trans (oneSlot_slotFreeze _ j)
  · split
    · exact (oneSlot_put s j _).trans (mark _ _)
    · exact (oneSlot_put s j _).trans (mark _ _)

/-- A valid slot moves by its DELTA (R446). -/
theorem slotDeltaIn_moves {s : State} {w j : Nat} (wf : mwf (fun _ => ({} : TthSlot)) s.tth.slots = true) (valid : bitOf w (8 + 3 * j) = true)
    (moves : bitsOf w (40 + 21 * j) (20 + 21 * j) ≠ 0x100000) :
    (mget ({} : TthSlot) (slotDeltaIn s w j).tth.slots j).s = (mget ({} : TthSlot) s.tth.slots j).s + toSigned 21 (bitsOf w (40 + 21 * j) (20 + 21 * j)) := by
  have shown : bitOf (bitsOf w (10 + 3 * j) (8 + 3 * j)) 0 = true := by
    have width : 10 + 3 * j + 1 - (8 + 3 * j) = 3 := by omega
    simp only [bitOf, bitsOf, width, beq_iff_eq] at valid ⊢
    omega
  have tth : ∀ (t : State) (b : Bool), (onlyIf b (fun s => slotUntrusted s j) t).tth = t.tth := fun t b => by
    cases b
    · rfl
    · exact slotUntrusted_tth t j
  unfold slotDeltaIn
  simp only [shown, if_neg moves, Bool.not_true, Bool.false_eq_true, if_false, tth]
  rw [mget_mput_self (fun _ => ({} : TthSlot)) _ _ _ wf]

/-- One pass over a list meets each of its members once: what only the step at `j` changes is changed by that step alone. -/
theorem each_once {β : Type} {g : State → β} {P : State → Prop} {f : State → Nat → State} {h : β → β} {j : Nat} (inv : ∀ u a, P u → P (f u a)) (other : ∀ u a, P u → j ≠ a → g (f u a) = g u)
    (own : ∀ u, P u → g (f u j) = h (g u)) {l : List Nat} (once : l.Nodup) {s : State} (hs : P s) : g (each l f s) = if j ∈ l then h (g s) else g s := by
  induction l generalizing s with
  | nil => rfl
  | cons a l ih =>
    obtain ⟨fresh, rest⟩ := List.nodup_cons.mp once
    have tail : g (each (a :: l) f s) = if j ∈ l then h (g (f s a)) else g (f s a) := ih rest (inv s a hs)
    rw [tail]
    by_cases here : j = a
    · subst here
      rw [if_neg fresh, own s hs, if_pos List.mem_cons_self]
    · rw [other s a hs here]
      simp only [List.mem_cons, here, false_or]

/-! The register that shows TTH_UP's lock and HOP. -/

/-- TTH_STATUS stays as it is. -/
abbrev TthStatusKept (s t : State) : Prop := RegsKept (fun a => a = TTH_STATUS_HOP.a) s t

theorem trlStatus_other {t : Nat} (small : t < 12) : 0x4000C + 0x100 * t ≠ 0x140020 := by omega

theorem below_lt {n : Nat} {p : Nat → Bool} {t : Nat} (h : t ∈ below n p) : t < n := List.mem_range.mp (List.mem_filter.mp h).1

theorem tthStatusKept_slotUntrusted (s : State) (j : Nat) : TthStatusKept s (slotUntrusted s j) :=
  (regsKept_refl _ s).each fun v _ ht => (regsKept_refl _ v).wr _ _ (trlStatus_other (below_lt ht))

theorem tthStatusKept_slotFreeze (s : State) (j : Nat) : TthStatusKept s (slotFreeze s j) := by
  unfold slotFreeze
  dsimp only
  split
  · exact regsKept_refl _ s
  · have held : ∀ (v : State) (t : Nat), t < 12 → TthStatusKept v (trlBar (wr (wr v (TRL_STATUS_LB_SEEN t) 1) (TRL_STATUS_UNTRUSTED t) 1) t) := fun v t small =>
      (((regsKept_refl _ v).wr _ _ (trlStatus_other small)).wr _ _ (trlStatus_other small)).same rfl
    refine ((regsKept_refl _ s).same ?_).each fun v t ht => held v t (below_lt ht)
    rfl

theorem tthStatusKept_slotDeltaIn (s : State) (w j : Nat) : TthStatusKept s (slotDeltaIn s w j) := by
  have put : ∀ (l : List (Nat × TthSlot)), TthStatusKept s { s with tth := { s.tth with slots := l } } := fun l => (regsKept_refl _ s).same rfl
  unfold slotDeltaIn
  dsimp only
  split
  · exact (put _).trans (tthStatusKept_slotFreeze _ j)
  · split
    · exact (put _).onlyIf _ fun _ => tthStatusKept_slotUntrusted _ j
    · exact (put _).onlyIf _ fun _ => tthStatusKept_slotUntrusted _ j

theorem tthStatusKept_virtSync (s : State) : TthStatusKept s (virtSync s) :=
  (regsKept_refl _ s).each fun v t ht => by
    unfold trlSync
    exact ((regsKept_refl _ v).same (u := setTrl v t _) rfl).onlyIf _ fun _ => (regsKept_refl _ _).wr _ _ (trlStatus_other (below_lt ht))

theorem virtSync_tth (s : State) : (virtSync s).tth = s.tth :=
  each_same (g := State.tth) _ s fun u t _ => by
    unfold trlSync onlyIf
    dsimp only
    split <;> rfl

/-! What goes out on a port leaves the slots, the lock and the registers. -/

/-- The registers, the slots and TTH_UP stay as they are. -/
def LineOnly (s t : State) : Prop := t.regs = s.regs ∧ t.tth.slots = s.tth.slots ∧ t.tth.up = s.tth.up

theorem LineOnly.refl (s : State) : LineOnly s s := ⟨rfl, rfl, rfl⟩

theorem LineOnly.trans {s t u : State} (h : LineOnly s t) (k : LineOnly t u) : LineOnly s u :=
  ⟨k.1.trans h.1, k.2.1.trans h.2.1, k.2.2.trans h.2.2⟩

theorem lineOnly_blockSend (s : State) (down : Bool) (b : TthBlock) : LineOnly s (blockSend s down b) := by
  cases down
  · exact ⟨rfl, rfl, rfl⟩
  · exact ⟨rfl, rfl, rfl⟩

theorem lineOnly_blocksSend (s : State) (down : Bool) (l : List TthBlock) : LineOnly s (blocksSend s down l) := by
  unfold blocksSend each
  induction l generalizing s with
  | nil => exact LineOnly.refl s
  | cons b l ih => exact (lineOnly_blockSend s down b).trans (ih _)

theorem lineOnly_tthDrain (n : Nat) (s : State) (down : Bool) : LineOnly s (tthDrain n s down) := by
  induction n generalizing s with
  | zero => exact LineOnly.refl s
  | succ n ih =>
    unfold tthDrain
    dsimp only
    split
    · exact (lineOnly_blockSend s down idleBlock).trans (ih _)
    · have taken : ∀ l, LineOnly s { s with tth := if down then { s.tth with relayDn := l } else { s.tth with relayUp := l } } := fun l => by
        cases down
        · exact ⟨rfl, rfl, rfl⟩
        · exact ⟨rfl, rfl, rfl⟩
      exact ((taken _).trans (lineOnly_blockSend _ down _)).trans (ih _)

theorem lineOnly_beatsSend {s : State} {w : Nat} (short : bitsOf w 7 4 ≠ 15) : LineOnly s (beatsSend s (some w)) := by
  rw [beatsSend_good short]
  have begun : LineOnly s { s with tth := { s.tth with seq := w % 16, half := true } } := ⟨rfl, rfl, rfl⟩
  exact ((begun.trans (lineOnly_blocksSend _ true _)).trans (lineOnly_blocksSend _ false _)).trans (lineOnly_tthDrain 3 _ false)

/-! A good delta part in lock. -/

/-- Its HOP is taken, and the lock stays (R442). -/
theorem hopTake_short {s : State} {hop : Nat} (wf : regsWf s = true) (short : hop < 15) :
    regsWf (hopTake s hop) = true ∧ (hopTake s hop).tth = s.tth ∧ rd (hopTake s hop) TTH_STATUS_HOP = hop + 1 ∧ rdB (hopTake s hop) TTH_STATUS_UP_LOCK = rdB s TTH_STATUS_UP_LOCK := by
  have taken : hopTake s hop = wr (wrB s TTH_STATUS_CHAIN_LONG false) TTH_STATUS_HOP (hop + 1) := by
    simp only [hopTake, beq_eq_false_iff_ne.mpr (Nat.ne_of_lt short), onlyIf, Bool.false_and, Bool.false_eq_true, if_false]
  have wf1 : regsWf (wrB s TTH_STATUS_CHAIN_LONG false) = true := regsWf_wr wf
  rw [taken]
  refine ⟨regsWf_wr wf1, rfl, ?_, ?_⟩
  · rw [rd_wr_self wf1 (by decide)]
    exact Nat.mod_eq_of_lt (Nat.succ_lt_succ short)
  · unfold rdB
    rw [rd_wr_other (f := TTH_STATUS_HOP) (g := TTH_STATUS_UP_LOCK) wf1 (by decide) (Or.inr (Or.inr (by decide)))]
    exact congrArg (· != 0) (rd_wr_other (f := TTH_STATUS_CHAIN_LONG) (g := TTH_STATUS_UP_LOCK) wf (by decide) (Or.inr (Or.inl (by decide))))

/-- Where a good delta part in lock leaves the slots, the lock and HOP. -/
theorem deltaDown_result {u : State} {x : DeltaPart} {w j : Nat} (wf : regsWf u = true) (slots : mwf (fun _ => ({} : TthSlot)) u.tth.slots = true) (lock : rdB u TTH_STATUS_UP_LOCK = true)
    (good : deltaOf x = some w) (turn : u.tth.up.expect = some (w % 16)) (short : bitsOf w 7 4 ≠ 15) (small : j < 4) (valid : bitOf w (8 + 3 * j) = true)
    (moves : bitsOf w (40 + 21 * j) (20 + 21 * j) ≠ 0x100000) :
    (mget ({} : TthSlot) (deltaDown x u).tth.slots j).s = (mget ({} : TthSlot) u.tth.slots j).s + toSigned 21 (bitsOf w (40 + 21 * j) (20 + 21 * j)) ∧
      (deltaDown x u).tth.up.expect = some ((w % 16 + 1) % 16) ∧ rd (deltaDown x u) TTH_STATUS_HOP = bitsOf w 7 4 + 1 := by
  have hop : bitsOf w 7 4 < 15 := Nat.lt_of_le_of_ne (Nat.le_of_lt_succ (Nat.mod_lt _ (by decide))) short
  have locked := ((beatLocks u (w % 16)).2 lock).1
  rw [deltaDown_good good turn lock short, locked]
  generalize hl : setLock u false _ = l
  have lwf : regsWf l = true := by rw [← hl]; exact wf
  have lslots : l.tth.slots = u.tth.slots := by rw [← hl]; rfl
  have lup : l.tth.up.expect = some ((w % 16 + 1) % 16) := by rw [← hl]; rfl
  have llock : rdB l TTH_STATUS_UP_LOCK = true := by rw [← hl]; exact lock
  obtain ⟨hwf, htth, hhop, hlock⟩ := hopTake_short lwf hop
  generalize hopTake l (bitsOf w 7 4) = h at hwf htth hhop hlock
  dsimp only
  generalize hv : ({ h with tth := { h.tth with beatAt := 8 * h.now + x.phase.toNat } } : State) = v
  have vwf : regsWf v = true := by rw [← hv]; exact hwf
  have vslots : v.tth.slots = u.tth.slots := by rw [← hv]; exact (congrArg (·.slots) htth).trans lslots
  have vup : v.tth.up.expect = some ((w % 16 + 1) % 16) := by rw [← hv]; exact (congrArg (·.up.expect) htth).trans lup
  have vhop : rd v TTH_STATUS_HOP = bitsOf w 7 4 + 1 := by rw [← hv]; exact hhop
  have vlock : rdB v TTH_STATUS_UP_LOCK = true := by rw [← hv]; exact hlock.trans llock
  simp only [vlock, onlyIf, if_true]
  obtain ⟨regs, slots', up⟩ := lineOnly_beatsSend (s := each (List.range 4) (fun s i => slotDeltaIn s w i) v) short
  have kept : TthStatusKept v (each (List.range 4) (fun s i => slotDeltaIn s w i) v) := (regsKept_refl _ v).each fun t i _ => tthStatusKept_slotDeltaIn t w i
  refine ⟨?_, ?_, ?_⟩
  · rw [slots', ← vslots]
    have once := each_once (g := fun t => (mget ({} : TthSlot) t.tth.slots j).s) (P := fun t => mwf (fun _ => ({} : TthSlot)) t.tth.slots = true) (f := fun s i => slotDeltaIn s w i)
      (h := fun p => p + toSigned 21 (bitsOf w (40 + 21 * j) (20 + 21 * j))) (j := j) (fun t i tw => (oneSlot_slotDeltaIn t w i).wf tw)
      (fun t i tw other => congrArg (·.s) ((oneSlot_slotDeltaIn t w i).other tw other)) (fun t tw => slotDeltaIn_moves tw valid moves) (List.nodup_range (n := 4)) (s := v)
      (by rw [vslots]; exact slots)
    exact once.trans (if_pos (List.mem_range.mpr small))
  · rw [up]
    exact (congrArg (·.expect) (each_same (g := fun t : State => t.tth.up) _ v fun t i _ => (oneSlot_slotDeltaIn t w i).up)).trans vup
  · rw [rd_congr regs]
    exact (kept.rd vwf rfl).trans vhop

/-! A HEARTBEAT of a worker at its manager. -/

/-- A bit joined to a field of 16 stands there. -/
theorem bitOf_lor_pow (v k : Nat) : bitOf (Nat.lor v (2 ^ k)) k = true := by
  rw [bitOf_eq_testBit]
  exact (Nat.testBit_or v (2 ^ k) k).trans (by rw [Nat.testBit_two_pow_self, Bool.or_true])

/-- Setting or clearing one bit of a field of 16 reads back. -/
theorem bitOf_rd_wr_bit {s : State} {f : FRef} {k : Nat} (wf : regsWf s = true) (fits : f.lo + f.w ≤ 64) (width : f.w = 16) (small : k < 16) (r : Nat) (b : Bool) :
    bitOf (rd (wr s f (if b then Nat.lor r (2 ^ k) else r - Nat.land r (2 ^ k))) f) k = b := by
  rw [rd_wr_self wf fits, width, bitOf_eq_testBit, Nat.testBit_mod_two_pow, decide_eq_true small, Bool.true_and]
  cases b
  · rw [if_neg Bool.false_ne_true, testBit_sub_land, Nat.testBit_two_pow_self, Bool.not_true, Bool.and_false]
  · rw [if_pos rfl, ← bitOf_eq_testBit, bitOf_lor_pow]

/-- A record leaves the tether. -/
theorem record_tth (s : State) (port source sev code : Nat) (payload : List Byte) : (record s port source sev code payload).tth = s.tth := by
  unfold record offerRec
  split
  · unfold lanternHold
    split <;> rfl
  · split
    · unfold toLatch
      split <;> rfl
    · rfl

theorem raise_tth (s : State) (src : Nat) : (raise s src).tth = s.tth := by rw [raise_frame]

/-- A worker that comes is shown, and what is told of it leaves the tether (R460). -/
theorem chainChange_comes {s : State} {w : Nat} (wf : regsWf s = true) (small : w < 16) :
    regsWf (chainChange s w true) = true ∧ bitOf (rd (chainChange s w true) TTH_PRESENT_PRESENT) w = true ∧ (chainChange s w true).tth = s.tth := by
  have comes : chainChange s w true = raise (record (wr s TTH_PRESENT_PRESENT (Nat.lor (rd s TTH_PRESENT_PRESENT) (2 ^ w))) rpControl 0x12 svWarning 0x7001 (leBytes 1 w ++ leBytes 1 (b2n true))) srcTthChain := rfl
  rw [comes]
  have bit := bitOf_rd_wr_bit (f := TTH_PRESENT_PRESENT) wf (by decide) rfl small (rd s TTH_PRESENT_PRESENT) true
  have same : (wr s TTH_PRESENT_PRESENT (Nat.lor (rd s TTH_PRESENT_PRESENT) (2 ^ w))).tth = s.tth := rfl
  have wf' : regsWf (wr s TTH_PRESENT_PRESENT (Nat.lor (rd s TTH_PRESENT_PRESENT) (2 ^ w))) = true := regsWf_wr wf
  rw [if_pos rfl] at bit
  generalize wr s TTH_PRESENT_PRESENT (Nat.lor (rd s TTH_PRESENT_PRESENT) (2 ^ w)) = u at bit same wf'
  have kept : RegsKept (fun a => a = TTH_PRESENT_PRESENT.a) u (raise (record u rpControl 0x12 svWarning 0x7001 (leBytes 1 w ++ leBytes 1 (b2n true))) srcTthChain) :=
    ((regsKept_refl _ u).record _ _ _ _ _ (by decide) (by decide) (by decide)).raise _ (by decide)
  refine ⟨(kept wf').1, ?_, (raise_tth _ _).trans ((record_tth u _ _ _ _ _).trans same)⟩
  rw [kept.rd wf' rfl]
  exact bit

/-- A new worker's HEARTBEAT at its manager (R460, R464). -/
theorem heartbeatUp_result {s : State} {x : Heartbeat} (wf : regsWf s = true) (workers : mwf (fun _ => ({} : WorkerS)) s.tth.workers = true) (unjudged : s.tth.hAt = none) (small : x.id < 16)
    (running : x.mode ≠ 10) (single : bitOf (rd s TTH_PRESENT_DUP) x.id = false) (new : bitOf (rd s TTH_PRESENT_PRESENT) x.id = false) :
    bitOf (rd (heartbeatUp s x) TTH_PRESENT_PRESENT) x.id = true ∧ bitOf (rd (heartbeatUp s x) CHG_CHAIN_READY) x.id = x.ready ∧
      (mget ({} : WorkerS) (heartbeatUp s x).tth.workers x.id).hop = x.hop := by
  unfold heartbeatUp
  simp only [single, new, running, onlyIf, Bool.not_false, Bool.false_and, decide_false, Bool.false_eq_true, if_false, if_true]
  generalize hp : ({ s with tth := { s.tth with workers := mput {} s.tth.workers x.id _ } } : State) = p
  have pwf : regsWf p = true := by rw [← hp]; exact wf
  have phat : p.tth.hAt = none := by rw [← hp]; exact unjudged
  have phop : (mget ({} : WorkerS) p.tth.workers x.id).hop = x.hop := by
    rw [← hp]
    exact congrArg (·.hop) (mget_mput_self (fun _ => ({} : WorkerS)) _ _ _ workers)
  obtain ⟨cwf, bit, tth⟩ := chainChange_comes pwf small
  generalize chainChange p x.id true = c at cwf bit tth
  have still : ∀ v, judgeHandover (wr c CHG_CHAIN_READY v) x.id x.hoMiss x.hoId = wr c CHG_CHAIN_READY v := fun v => by
    have none_ : (wr c CHG_CHAIN_READY v).tth.hAt = none := (congrArg (·.hAt) tth).trans phat
    unfold judgeHandover
    rw [none_]
  rw [still]
  refine ⟨?_, bitOf_rd_wr_bit cwf (by decide) rfl small _ _, ?_⟩
  · rw [rd_wr_apart cwf (by decide)]
    exact bit
  · exact (congrArg (fun y => (mget ({} : WorkerS) y.workers x.id).hop) tth).trans phop

/-! A HANDOVER that a worker cannot follow, a tunnelled command and a stale slot. -/

/-- A relay that joins, or drops a message, leaves the hand-over of the device (R451). -/
theorem followReady_tthRelay {s : State} (wf : regsWf s = true) (down : Bool) (kind : Nat) (blocks : List TthBlock) : followReady (tthRelay s down kind blocks) = followReady s := by
  have same : ∀ t : State, t.chg = s.chg → rd t CHG_STATUS_PHASE = rd s CHG_STATUS_PHASE → followReady t = followReady s := fun t chg phase => by
    unfold followReady
    rw [chg, phase]
  unfold tthRelay
  dsimp only
  generalize (if down = true then s.tth.relayDn else s.tth.relayUp).filter (fun m => !m.own) = l
  split
  · rfl
  · split
    · have kept : RegsKept (fun a => a = CHG_STATUS_PHASE.a) s (tthErr (addSat s TTH_CNT_MSG_DROP_COUNT 1)) := ((regsKept_refl _ s).addSat _ _ (by decide)).raise _ (by decide)
      exact same _ (by unfold tthErr; rw [raise_frame]; rfl) (kept.rd wf rfl)
    · exact same _ rfl rfl

/-- A HANDOVER that a worker cannot follow is noted as a miss (R464). -/
theorem handoverFollow_misses {s : State} {x : HoMsg} (cannot : followReady s = false) : handoverFollow s x = { s with tth := { s.tth with hoSeen := some x.id, hoMiss := true } } := by
  have cannot' : followReady { s with tth := { s.tth with hoSeen := some x.id } } = false := cannot
  simp only [handoverFollow, cannot', Bool.not_false, if_true]

/-- Storing in a mailbox's RAM leaves the registers, the mailboxes' order and the tether. -/
theorem ramStore_frame (s : State) (a : Nat) (l : List Byte) : (ramStore s a l).regs = s.regs ∧ (ramStore s a l).mp = s.mp ∧ (ramStore s a l).tth = s.tth :=
  ⟨each_same (g := State.regs) _ s fun _ _ _ => rfl, each_same (g := State.mp) _ s fun _ _ _ => rfl, each_same (g := State.tth) _ s fun _ _ _ => rfl⟩

/-- A tunnelled command rings mailbox 6 (R406). -/
theorem tunnelled_rings {s : State} {l : List Byte} (wf : regsWf s = true) (free : rd s (MBX_STATUS_STATE 6) ≠ 1) :
    rd (tunnelled s l) (MBX_STATUS_STATE 6) = 1 ∧ (tunnelled s l).mp.order = s.mp.order ++ [6] ∧ (tunnelled s l).tth = s.tth := by
  obtain ⟨regs, mp, tth⟩ := ramStore_frame s (cmdBuf 6) l
  have swf : regsWf (ramStore s (cmdBuf 6) l) = true := (congrArg (mwf regReset) regs).trans wf
  unfold tunnelled
  rw [if_neg free]
  generalize ramStore s (cmdBuf 6) l = t at swf mp tth
  refine ⟨?_, congrArg (fun m : MpS => m.order ++ [6]) mp, tth⟩
  have wf1 : regsWf (wr t (MBX_STATUS_STATE 6) 1) = true := regsWf_wr swf
  have wf2 : regsWf (wr (wr t (MBX_STATUS_STATE 6) 1) (MBX_STATUS_DONE 6) 0) = true := regsWf_wr wf1
  refine (rd_wr_other (f := MBX_STATUS_SEQ 6) (g := MBX_STATUS_STATE 6) wf2 (by decide) (Or.inr (Or.inl (by decide)))).trans ?_
  refine (rd_wr_other (f := MBX_STATUS_DONE 6) (g := MBX_STATUS_STATE 6) wf1 (by decide) (Or.inr (Or.inl (by decide)))).trans ?_
  exact rd_wr_self (f := MBX_STATUS_STATE 6) swf (by decide)

end Sys2Proof.Machine

open Sys2Proof Sys2Proof.Machine

theorem tetherReceptionsEnd : Claims.TetherResults := by
  intro s runs sound on slots workers
  have wf := regsWf_of_sound sound
  refine ⟨fun x w j down worker block half lock good turn short valid moves => ?_, fun x c down good manager up unjudged lower running single_ new => ?_,
    fun x h c good worker up unseen cannot => ?_, fun x h c good worker up here mine run first last free => ?_, fun j worker stale moving => ?_⟩
  · have rest : beatRest s idlePart = s := by simp only [beatRest, half, Bool.not_false, if_true]
    have tth := virtSync_tth s
    have lock' : rdB (virtSync s) TTH_STATUS_UP_LOCK = true := (congrArg (· != 0) ((tthStatusKept_virtSync s).rd wf (g := TTH_STATUS_UP_LOCK) rfl)).trans lock
    refine ⟨deltaDown x (virtSync s), onMain_next runs ((positionDelta_worker on worker block down).trans (by rw [rest])), ?_⟩
    have result := deltaDown_result (x := x) (j := j.val) ((tthStatusKept_virtSync s) wf).1 (by rw [tth]; exact slots) lock' good (by rw [tth]; exact turn) short j.isLt valid moves
    rw [tth] at result
    exact result
  · have idle : isWorker s = false := by
      have : role s = 1 := eq_of_beq manager
      simp only [isWorker, this]
      rfl
    have still : tthRelay s (!true) 0xE9 x.blocks = s := by simp only [tthRelay, idle, Bool.not_false, Bool.true_or, if_true]
    obtain ⟨-, -, -, beats, -, -⟩ := tetherEvents s true runs up
    obtain ⟨-, takes, -⟩ := (beats x down).2 c good
    rw [still] at takes
    exact ⟨_, takes rfl lower manager, heartbeatUp_result wf workers unjudged (Nat.mod_lt _ (by decide)) running single_ new⟩
  · have unseen' : (s.tth.hoSeen == some (handoverOf h c).id) = false := beq_eq_false_iff_ne.mpr unseen
    refine ⟨handoverFollow (onlyIf (relayable h) (fun s => tthRelay s true 2 x.blocks) s) (handoverOf h c), onMain_next runs ?_, ?_⟩
    · simp only [handoverMessageReceive, up, worker, good, unseen', Bool.not_true, Bool.or_self, Bool.false_eq_true, if_false]
    · have cannot' : followReady (onlyIf (relayable h) (fun s => tthRelay s true 2 x.blocks) s) = false := by
        cases relayable h
        · exact cannot
        · exact (followReady_tthRelay wf true 2 x.blocks).trans cannot
      rw [handoverFollow_misses cannot']
      exact ⟨rfl, rfl⟩
  · obtain ⟨-, -, -, -, fragments, -, -⟩ := tetherMessages s runs
    obtain ⟨state, order, tth⟩ := tunnelled_rings (s := { s with tth := { s.tth with mgmt := none } }) (l := eduskBytes c) wf free
    exact ⟨_, ((fragments x up worker).2 h c good).2 here mine run first last, state, order, congrArg (·.mgmt) tth⟩
  · refine ⟨slotFreeze s j, onMain_next runs ?_, ?_⟩
    · simp only [slotStaleExpire, on, worker, stale, Bool.and_self, if_true]
    · rw [slotFreeze_tth moving]
      exact congrArg (·.frozen) (mget_mput_self (fun _ => ({} : TthSlot)) _ _ _ slots)

/-- Settles O49 (R406, R446, R449, R452, R454, R460, R462, R464, Tables 16-3 to 16-6; logs 36 and 37). -/
theorem tetherResults : Obligations.TetherResults := ⟨tetherReceptionsEnd, tetherMessagesReadBack⟩
end

section
/-! SUPPORT. MODE_STATUS and the worklist: from a device that shows a MODE and a ROLE, no entry of the worklist comes to one that shows MODE 0, but by a reset or a hand-over, and both are counted.
The entries name trails, streams, channels and slots by any number, so that an array of registers may be written far past its end: what is used is that no such array stands at MODE_STATUS but the
enables and a few more that the worklist writes at bounded indexes alone, and the seen bits of the channels, which it only sets. -/

namespace Sys2Proof.Machine

/-- The offset of MODE_STATUS. -/
abbrev modeAt : Nat := 0x170200

/-- MODE and ROLE of a value of MODE_STATUS are not 0. -/
def ModeWord (x : DWord) : Prop := x.toNat / 2 ^ 0 % 2 ^ 4 ≠ 0 ∧ x.toNat / 2 ^ 13 % 2 ^ 2 ≠ 0

/-- A reset or a hand-over has come, or MODE_STATUS is listed with a MODE and a ROLE. -/
def AliveParts (epoch count : Nat) (regs : List (Nat × DWord)) : Prop := 0 < epoch ∨ 0 < count ∨ ModeWord (mget 0 regs modeAt)

/-- What no entry of the worklist ends. -/
def Alive (s : State) : Prop := AliveParts s.epoch s.chg.count s.regs

/-- A key that is found stays found when another is written, in whatever order the pairs stand. -/
theorem mget_mput_found {m : List (Nat × DWord)} {d : DWord} {k j : Nat} {v : DWord} (other : k ≠ j) (found : mget 0 m j ≠ 0) : mget 0 (mput d m k v) j = mget 0 m j := by
  have other' : j ≠ k := Ne.symm other
  induction m with
  | nil => exact absurd rfl found
  | cons y m ih =>
    obtain ⟨a, w⟩ := y
    by_cases here : j = a
    · subst here
      rw [mput, if_neg other]
      split
      · split
        · rfl
        · next below_ _ => rw [mget, if_neg other', if_neg (Nat.lt_asymm below_)]
      · rw [mget, mget]
        simp only [if_true]
    · have above : ¬ j < a := fun low => found (by rw [mget, if_neg here, if_pos low])
      rw [mget, if_neg here, if_neg above] at found ⊢
      rw [mput]
      split
      · split
        · rfl
        · rw [mget, if_neg other', if_neg (by omega)]
      · split
        · split
          · rw [mget, if_neg here, if_neg above]
          · rw [mget, if_neg other', if_neg (by omega), mget, if_neg here, if_neg above]
        · rw [mget, if_neg here, if_neg above]
          exact ih found

theorem ModeWord.ne_zero {x : DWord} (h : ModeWord x) : x ≠ 0 := fun e => h.1 (by rw [e]; rfl)

theorem setReg_alive {a : Nat} {v : DWord} {s : State} (other : a ≠ modeAt) (h : Alive s) : Alive (setReg s a v) := by
  obtain h | h | h := h
  · exact Or.inl h
  · exact Or.inr (Or.inl h)
  · refine Or.inr (Or.inr ?_)
    rw [show mget 0 (setReg s a v).regs modeAt = mget 0 s.regs modeAt from mget_mput_found other h.ne_zero]
    exact h

/-- Two offsets that differ as numbers are compared. -/
theorem elsewhere {a : Nat} (other : (a == modeAt) = false) : a ≠ modeAt := ne_of_beq_false other

theorem wr_alive {f : FRef} {v : Nat} {s : State} (other : f.a ≠ modeAt) (h : Alive s) : Alive (wr s f v) := setReg_alive other h

/-! Through the forms that definitions are built from. -/

theorem alive_cut {t : State} (v : State) (h : Alive v) (k : Alive v → Alive t) : Alive t := k h
theorem alive_cut1 {α : Type} {t : State} (v : State × α) (h : Alive v.1) (k : Alive v.1 → Alive t) : Alive t := k h
theorem alive_cut2 {α : Type} {t : State} (v : α × State) (h : Alive v.2) (k : Alive v.2 → Alive t) : Alive t := k h
theorem alive_cutF {t : State} (v : State → State) (h : ∀ u, Alive u → Alive (v u)) (k : (∀ u, Alive u → Alive (v u)) → Alive t) : Alive t := k h
theorem alive_rec {t : State} (_ : Recorder) (h : Alive t) : Alive t := h

theorem alive_mk {s : State} {x_now : Nat} {x_free : Nat} {x_pending : List Instr} {x_todo : List Todo} {x_out : List Out} {x_shadow : List (Nat × DWord)} {x_old : List (Nat × DWord)} {x_held : List (Nat × Word)} {x_latch : List (Nat × Option Word)} {x_loaded : List (Nat × Option DWord)} {x_ram : List (Nat × Option Word)} {x_hbm : List Host.Cell} {x_powerOns : Nat} {x_sram : List (Nat × Option (BitVec 128))} {x_ducBase : Nat} {x_ducAt : Nat} {x_rcd : Recorder} {x_fw : List (Nat × Window)} {x_gyl : Guyline} {x_hep : Endpoint} {x_modeCtl : ModeCtl} {x_trl : List (Nat × Trail)} {x_ser : List (Nat × SerialPort)} {x_div : List (Nat × DividerS)} {x_corr : List (Nat × CorrS)} {x_homeLv : List (Nat × Bool)} {x_dom : List (Nat × DomainS)} {x_path : List (Nat × PathS)} {x_txq : List (Nat × List TxStamp)} {x_tpg : List (Nat × TpgS)} {x_stk : List (Nat × StakeS)} {x_due : List DueWork} {x_pins : List (Nat × PinS)} {x_cxp : List (Nat × Option CxpTrig)} {x_mlk : List (Nat × MlkUnit)} {x_str : List (Nat × StreamS)} {x_frm : List (Nat × FrmS)} {x_lane : List (Nat × LaneS)} {x_pxe : List (Nat × PxeS)} {x_dlv : Delivery} {x_derate : List (Nat × Nat)} {x_posMark : List (Nat × Nat)} {x_tth : Tether} {x_lan : Lantern} {x_chg : Changeover} {x_pwr : Power} {x_mp : MpS} {x_dma : List (Nat × DmaS)} (hc : x_chg.count = s.chg.count) :
    (Alive (State.mk x_now x_free s.epoch x_pending x_todo x_out s.regs x_shadow x_old x_held x_latch x_loaded x_ram x_hbm x_powerOns x_sram x_ducBase x_ducAt x_rcd x_fw x_gyl x_hep x_modeCtl x_trl x_ser x_div x_corr x_homeLv x_dom x_path x_txq x_tpg x_stk x_due x_pins x_cxp x_mlk x_str x_frm x_lane x_pxe x_dlv x_derate x_posMark x_tth x_lan x_chg x_pwr x_mp x_dma) ↔ Alive s) := by
  unfold Alive
  simp only [hc]

theorem each_alive {α : Type} {l : List α} {f : State → α → State} {s : State} (hf : ∀ u a, Alive u → Alive (f u a)) (h : Alive s) : Alive (each l f s) := by
  unfold each
  induction l generalizing s with
  | nil => exact h
  | cons a l ih => exact ih (hf s a h)

theorem onlyIf_alive {b : Bool} {f : State → State} {s : State} (hf : ∀ u, Alive u → Alive (f u)) (h : Alive s) : Alive (onlyIf b f s) := by
  unfold onlyIf; split
  · exact hf s h
  · exact h

theorem send_alive {o : Out} {s : State} (h : Alive s) : Alive (send s o) := h

theorem hbmSet_alive {a : Nat} {b : Byte} {s : State} (h : Alive s) : Alive (hbmSet s a b) := by
  unfold hbmSet; split
  · exact h
  · exact h

theorem setChk_alive {w : Nat} {s : State} (h : Alive s) : Alive (setChk s w) := setReg_alive (by decide) h

theorem each_alive_mem {α : Type} {l : List α} {f : State → α → State} {s : State} (hf : ∀ u, ∀ a ∈ l, Alive u → Alive (f u a)) (h : Alive s) : Alive (each l f s) := by
  unfold each
  induction l generalizing s with
  | nil => exact h
  | cons a l ih => exact ih (fun u b hb => hf u b (List.mem_cons_of_mem a hb)) (hf s a List.mem_cons_self h)

theorem alive_todo {s : State} {l : List Todo} (h : Alive s) : Alive { s with todo := l } := h

/-! MODE_STATUS itself. -/

/-- What a listed key is written with, where it is not what an unlisted key reads as, stands there. -/
theorem mget_mput_listed {m : List (Nat × DWord)} {d : DWord} {j : Nat} {v : DWord} (shown : v ≠ d) : mget 0 (mput d m j v) j = v := mget_mput_marked 0 d m shown

/-- A key that does not read as what an unlisted key does is listed, and reads the same whatever an unlisted key reads as. -/
theorem mget_listed {m : List (Nat × DWord)} {d e : DWord} {k : Nat} (listed : mget d m k ≠ d) : mget e m k = mget d m k := by
  induction m with
  | nil => exact absurd rfl listed
  | cons y m ih =>
    obtain ⟨a, w⟩ := y
    rw [mget] at listed
    rw [mget, mget]
    split
    · rfl
    · next other =>
      rw [if_neg other] at listed
      split
      · next low => exact absurd (if_pos low) listed
      · next high =>
        rw [if_neg high] at listed
        exact ih listed

/-- MODE_STATUS as it is listed is what it reads as. -/
theorem getReg_listed {s : State} (listed : mget 0 s.regs modeAt ≠ 0) : getReg s modeAt = mget 0 s.regs modeAt := mget_listed listed

/-- A value of MODE_STATUS with a ROLE is none that its reset leaves. -/
theorem ModeWord.listed {x : DWord} (h : ModeWord x) : x ≠ regReset modeAt := fun e => h.2 (by rw [e]; decide)

/-- A write of MODE_STATUS that leaves a MODE and the ROLE. -/
theorem setReg_mode_alive {v : DWord} {s : State} (good : ModeWord (getReg s modeAt) → ModeWord v) (h : Alive s) : Alive (setReg s modeAt v) := by
  obtain h | h | h := h
  · exact Or.inl h
  · exact Or.inr (Or.inl h)
  · have word : ModeWord v := good (by rw [getReg_listed h.ne_zero]; exact h)
    exact Or.inr (Or.inr (by
      show ModeWord (mget 0 (mput (regReset modeAt) s.regs modeAt v) modeAt)
      rw [mget_mput_listed word.listed]
      exact word))

/-- A field of MODE_STATUS between MODE and ROLE. -/
theorem wr_status_alive {f : FRef} {v : Nat} {s : State} (here : f.a = modeAt) (low : 4 ≤ f.lo) (high : f.lo + f.w ≤ 13) (h : Alive s) : Alive (wr s f v) := by
  unfold wr
  rw [here]
  refine setReg_mode_alive (fun word => ?_) h
  obtain ⟨mode_, role_⟩ := word
  have fits : f.lo + f.w ≤ 64 := Nat.le_trans high (by decide)
  exact ⟨(putField_other _ f.lo f.w v 0 4 fits (Or.inl low)).symm ▸ mode_, (putField_other _ f.lo f.w v 13 2 fits (Or.inr high)).symm ▸ role_⟩

theorem wr_mode_alive {m : Nat} {s : State} (some_ : m % 16 ≠ 0) (h : Alive s) : Alive (wr s MODE_STATUS_MODE m) := by
  refine setReg_mode_alive (fun word => ?_) h
  exact ⟨(putField_self _ 0 4 m (by decide)).symm ▸ some_, (putField_other _ 0 4 m 13 2 (by decide) (Or.inr (by decide))).symm ▸ word.2⟩

/-- A field that is not 0 has a bit that is set, and one that is 0 has none. -/
theorem field_bit {x lo w : Nat} (shown : x / 2 ^ lo % 2 ^ w ≠ 0) : ∃ i, i < w ∧ x.testBit (lo + i) = true := by
  obtain ⟨i, set⟩ := Nat.exists_testBit_of_ne_zero shown
  rw [Nat.testBit_mod_two_pow, Nat.testBit_div_two_pow, Bool.and_eq_true, decide_eq_true_eq] at set
  exact ⟨i, set.1, by rw [Nat.add_comm]; exact set.2⟩

theorem field_no_bit {x lo w i : Nat} (none_ : x / 2 ^ lo % 2 ^ w = 0) (inside : i < w) : x.testBit (lo + i) = false := by
  have clear : (x / 2 ^ lo % 2 ^ w).testBit i = false := by rw [none_, Nat.zero_testBit]
  rw [Nat.testBit_mod_two_pow, Nat.testBit_div_two_pow, decide_eq_true inside, Bool.true_and] at clear
  rw [Nat.add_comm]
  exact clear

/-- A channel that is seen sets a bit and clears none, wherever its word stands. -/
theorem seen_alive {j k : Nat} {s : State} (small : k < 32) (h : Alive s) : Alive (wr s (GYL_SEEN_SEEN j) (Nat.lor (rd s (GYL_SEEN_SEEN j)) (2 ^ k))) := by
  by_cases here : (GYL_SEEN_SEEN j).a = modeAt
  · unfold wr rd
    rw [here]
    refine setReg_mode_alive (fun word => ?_) h
    generalize getReg s modeAt = x at word
    obtain ⟨mode_, role_⟩ := word
    have whole : x.toNat / 2 ^ 0 % 2 ^ 32 = x.toNat % 2 ^ 32 := by rw [Nat.pow_zero, Nat.div_one]
    have joined : (putField x 0 32 (Nat.lor (x.toNat / 2 ^ 0 % 2 ^ 32) (2 ^ k))).toNat % 2 ^ 32 = Nat.lor (x.toNat % 2 ^ 32) (2 ^ k) := by
      rw [whole]
      have field := putField_self x 0 32 (Nat.lor (x.toNat % 2 ^ 32) (2 ^ k)) (by decide)
      rw [Nat.pow_zero, Nat.div_one] at field
      exact field.trans (Nat.mod_eq_of_lt (Nat.or_lt_two_pow (Nat.mod_lt _ (by decide)) (Nat.pow_lt_pow_right (by decide) small)))
    have keeps : ∀ lo w, lo + w ≤ 32 → x.toNat / 2 ^ lo % 2 ^ w ≠ 0 → (putField x 0 32 (Nat.lor (x.toNat / 2 ^ 0 % 2 ^ 32) (2 ^ k))).toNat / 2 ^ lo % 2 ^ w ≠ 0 := fun lo w fits shown => by
      obtain ⟨i, inside, set⟩ := field_bit shown
      intro none_
      have clear := field_no_bit none_ inside
      have bit : (Nat.lor (x.toNat % 2 ^ 32) (2 ^ k)).testBit (lo + i) = true := by
        refine (Nat.testBit_or _ _ _).trans ?_
        rw [Nat.testBit_mod_two_pow, decide_eq_true (by omega), set]
        rfl
      rw [← joined, Nat.testBit_mod_two_pow, clear, Bool.and_false] at bit
      exact Bool.false_ne_true bit
    exact ⟨keeps 0 4 (by decide) mode_, keeps 13 2 (by decide) role_⟩
  · exact wr_alive here h

/-! Registers, time and the worklist. -/

theorem wrB_alive {f : FRef} {b : Bool} {s : State} (other : f.a ≠ modeAt) (h : Alive s) : Alive (wrB s f b) := wr_alive other h

theorem wrI_alive {f : FRef} {i : Int} {s : State} (other : f.a ≠ modeAt) (h : Alive s) : Alive (wrI s f i) := wr_alive other h

theorem addSat_alive {f : FRef} {n : Nat} {s : State} (other : f.a ≠ modeAt) (h : Alive s) : Alive (addSat s f n) := wr_alive other h

theorem addWrap_alive {f : FRef} {n : Nat} {s : State} (other : f.a ≠ modeAt) (h : Alive s) : Alive (addWrap s f n) := wr_alive other h

theorem later_alive {t : Todo} {s : State} (hk : Alive s) : Alive (later s t) := by
  unfold later
  repeat' first
    | with_reducible assumption
    | simp only [↓alive_mk]

theorem laterOnce_alive {t : Todo} {s : State} (hk : Alive s) : Alive (laterOnce s t) := by
  unfold laterOnce
  repeat' first
    | with_reducible assumption
    | with_reducible apply later_alive
    | split

theorem freeNext_alive {s : State} (hk : Alive s) : Alive (freeNext s) := by
  unfold freeNext
  repeat' first
    | with_reducible assumption
    | simp only [↓alive_mk]

theorem hbmWrite_alive {a : Nat} {l : List Byte} {s : State} (hk : Alive s) : Alive (hbmWrite s a l) := by
  induction l generalizing a s with
  | nil => exact hk
  | cons b bs ih => exact ih (hbmSet_alive hk)

/-! Records. -/

theorem dropRec_alive {n : Nat} {s : State} (hk : Alive s) : Alive (dropRec s n) := by
  unfold dropRec
  repeat' first
    | with_reducible assumption
    | exact elsewhere rfl
    | with_reducible apply addSat_alive
    | simp only [↓alive_mk]

theorem toLatch_alive {w : WaitRec} {s : State} (hk : Alive s) : Alive (toLatch s w) := by
  unfold toLatch
  repeat' first
    | with_reducible assumption
    | with_reducible apply dropRec_alive
    | split
    | simp only [↓alive_mk]

theorem takeSeq_alive {s : State} (hk : Alive s) : Alive (takeSeq s).2 := by
  unfold takeSeq
  repeat' first
    | with_reducible assumption
    | exact elsewhere rfl
    | with_reducible apply addWrap_alive

theorem lanternRec_alive {r : Rec} {s : State} (hk : Alive s) : Alive (lanternRec s r).2 := by
  unfold lanternRec
  repeat' first
    | with_reducible assumption
    | with_reducible apply takeSeq_alive

theorem lanternHold_alive {r : Rec} {s : State} (hk : Alive s) : Alive (lanternHold s r) := by
  unfold lanternHold
  repeat' first
    | with_reducible assumption
    | exact elsewhere rfl
    | with_reducible apply lanternRec_alive
    | with_reducible apply addSat_alive
    | split
    | simp only [↓alive_mk]

theorem offerRec_alive {port : Nat} {r : Rec} {s : State} (hk : Alive s) : Alive (offerRec s port r) := by
  unfold offerRec
  repeat' first
    | with_reducible assumption
    | with_reducible apply lanternHold_alive
    | with_reducible apply toLatch_alive
    | split
    | simp only [↓alive_mk]

theorem offerInOrder_alive {port : Nat} {a b : Rec} {s : State} (hk : Alive s) : Alive (offerInOrder s port a b) := by
  unfold offerInOrder
  repeat' first
    | with_reducible assumption
    | with_reducible apply lanternHold_alive
    | with_reducible apply offerRec_alive
    | with_reducible apply toLatch_alive
    | split

theorem record_alive {port source sev code : Nat} {payload : List Byte} {s : State} (hk : Alive s) : Alive (record s port source sev code payload) := by
  unfold record
  repeat' first
    | with_reducible assumption
    | with_reducible apply offerRec_alive

/-! Interrupts and fault windows. -/

theorem sendMessage_alive {v : Nat} {s : State} (hk : Alive s) : Alive (sendMessage s v) := by
  unfold sendMessage
  repeat' first
    | with_reducible assumption
    | with_reducible apply send_alive
    | split

theorem requestVector_alive {v0 : Nat} {s : State} (hk : Alive s) : Alive (requestVector s v0) := by
  unfold requestVector
  repeat' first
    | with_reducible assumption
    | with_reducible apply sendMessage_alive
    | split
    | simp only [↓alive_mk]

theorem updateInta_alive {s : State} (hk : Alive s) : Alive (updateInta s) := by
  unfold updateInta
  repeat' first
    | with_reducible assumption
    | with_reducible apply send_alive
    | split
    | simp only [↓alive_mk]

theorem requestSrc_alive {src : Nat} {s : State} (hk : Alive s) : Alive (requestSrc s src) := by
  unfold requestSrc
  repeat' first
    | with_reducible assumption
    | with_reducible apply updateInta_alive
    | with_reducible apply requestVector_alive
    | split

theorem raise_alive {src : Nat} {s : State} (hk : Alive s) : Alive (raise s src) := by
  unfold raise
  dsimp only
  split
  · next told =>
    have small : src < 1536 := by simp only [srcAssigned, Bool.and_eq_true, decide_eq_true_eq] at told; omega
    have told : Alive (wr s (statusField src) 1) := wr_alive (by dsimp only [statusField, modeAt]; omega) hk
    split
    · exact requestSrc_alive told
    · exact told
  · exact hk

theorem setWindow_alive {w : Nat} {x : Window} {s : State} (hk : Alive s) : Alive (setWindow s w x) := by
  unfold setWindow
  repeat' first
    | with_reducible assumption
    | (dsimp only [INT_FW_COUNT_COUNT, modeAt]; omega)
    | with_reducible apply wr_alive
    | simp only [↓alive_mk]

theorem windowRecord_alive {w n : Nat} {s : State} (hk : Alive s) : Alive (windowRecord s w n) := by
  unfold windowRecord
  repeat' first
    | with_reducible assumption
    | with_reducible apply offerRec_alive
    | split

theorem windowAct_alive {w : Nat} {s : State} (hk : Alive s) : Alive (windowAct s w) := by
  unfold windowAct
  repeat' first
    | with_reducible assumption
    | (extract_lets +onlyGivenNames lx; first | (refine alive_cut lx ?_ (fun _ => ?_); rotate_left; clear_value lx; revert lx; intro y hy; rotate_right; subst lx) | (clear_value lx; revert lx; intro y))
    | with_reducible apply onlyIf_alive
    | with_reducible apply raise_alive
    | with_reducible apply later_alive
    | split

theorem windowEscalate_alive {w count n : Nat} {s : State} (hk : Alive s) : Alive (windowEscalate s w count n) := by
  unfold windowEscalate
  repeat' first
    | with_reducible assumption
    | (dsimp only [INT_FW_STATUS_ESCALATED, INT_FW_STATUS_ESC_CNT, INT_FW_STATUS_STATE, modeAt]; omega)
    | with_reducible apply wr_alive
    | with_reducible apply addSat_alive
    | with_reducible apply offerInOrder_alive
    | with_reducible apply windowAct_alive
    | split
    | simp only [↓alive_mk]

theorem windowInc_alive {w n : Nat} {s : State} (hk : Alive s) : Alive (windowInc s w n) := by
  unfold windowInc
  repeat' first
    | with_reducible assumption
    | (dsimp only [INT_FW_STATUS_STATE, INT_FW_TOTAL_TOTAL, modeAt]; omega)
    | (extract_lets +onlyGivenNames lx; first | (refine alive_cut lx ?_ (fun _ => ?_); rotate_left; clear_value lx; revert lx; intro y hy; rotate_right; subst lx) | (clear_value lx; revert lx; intro y))
    | with_reducible apply addSat_alive
    | with_reducible apply setWindow_alive
    | with_reducible apply windowRecord_alive
    | with_reducible apply wr_alive
    | with_reducible apply windowEscalate_alive
    | split

theorem eccCorrected_alive {array camp : Nat} {s : State} (hk : Alive s) : Alive (eccCorrected s array camp) := by
  unfold eccCorrected
  repeat' first
    | with_reducible assumption
    | (dsimp only [PXE_CNT_ECC_CORR_COUNT, modeAt]; omega)
    | exact elsewhere rfl
    | with_reducible apply windowInc_alive
    | with_reducible apply raise_alive
    | with_reducible apply addSat_alive
    | split

theorem eccUncorrectable_alive {array camp addr : Nat} {s : State} (hk : Alive s) : Alive (eccUncorrectable s array camp addr) := by
  unfold eccUncorrectable
  repeat' first
    | with_reducible assumption
    | (dsimp only [PXE_CNT_ECC_UNC_COUNT, modeAt]; omega)
    | exact elsewhere rfl
    | (intro)
    | with_reducible apply raise_alive
    | with_reducible apply addSat_alive
    | with_reducible apply onlyIf_alive
    | with_reducible apply wr_alive
    | with_reducible apply record_alive
    | split

/-! Trails. -/

theorem setTrl_alive {t : Nat} {x : Trail} {s : State} (hk : Alive s) : Alive (setTrl s t x) := by
  unfold setTrl
  repeat' first
    | with_reducible assumption
    | simp only [↓alive_mk]

theorem trlBar_alive {t : Nat} {s : State} (hk : Alive s) : Alive (trlBar s t) := by
  unfold trlBar
  repeat' first
    | with_reducible assumption
    | with_reducible apply setTrl_alive

theorem divDrop_alive {d : Nat} {s : State} (hk : Alive s) : Alive (divDrop s d) := by
  unfold divDrop
  repeat' first
    | with_reducible assumption
    | (dsimp only [TRL_DIV_STATUS_LAG, modeAt]; omega)
    | with_reducible apply wr_alive
    | split
    | simp only [↓alive_mk]

theorem dividersFollow_alive {t : Nat} {s : State} (hk : Alive s) : Alive (dividersFollow s t) := by
  unfold dividersFollow
  repeat' first
    | with_reducible assumption
    | (intro)
    | with_reducible apply each_alive
    | with_reducible apply divDrop_alive

theorem dividersHold_alive {s : State} (hk : Alive s) : Alive (dividersHold s) := by
  unfold dividersHold
  repeat' first
    | with_reducible assumption
    | (intro)
    | with_reducible apply each_alive
    | with_reducible apply onlyIf_alive
    | simp only [↓alive_mk]

/-! Time domains. -/

theorem ptpRestart_alive {p : Nat} {s : State} (hk : Alive s) : Alive (ptpRestart s p) := by
  unfold ptpRestart
  repeat' first
    | with_reducible assumption
    | (dsimp only [TMB_PORT_STATUS_PORT_STATE, modeAt]; omega)
    | with_reducible apply wr_alive
    | simp only [↓alive_mk]

/-! Stakes, pins and generators. -/

theorem setMlk_alive {u : Nat} {x : MlkUnit} {s : State} (hk : Alive s) : Alive (setMlk s u x) := by
  unfold setMlk
  repeat' first
    | with_reducible assumption
    | simp only [↓alive_mk]

theorem setStr_alive {st : Nat} {x : StreamS} {s : State} (hk : Alive s) : Alive (setStr s st x) := by
  unfold setStr
  repeat' first
    | with_reducible assumption
    | simp only [↓alive_mk]

theorem countMissing_alive {st : Nat} {s : State} (hk : Alive s) : Alive (countMissing s st) := by
  unfold countMissing
  repeat' first
    | with_reducible assumption
    | (dsimp only [CAM_CNT_MISSING_COUNT, modeAt]; omega)
    | with_reducible apply raise_alive
    | with_reducible apply addSat_alive

theorem stopLook_alive {st : Nat} {s : State} (hk : Alive s) : Alive (stopLook s st) := by
  unfold stopLook
  repeat' first
    | with_reducible assumption
    | with_reducible apply laterOnce_alive
    | split

theorem giveSample_alive {st mot stamp : Nat} {predicted late : Bool} {s : State} (hk : Alive s) : Alive (giveSample s st mot stamp predicted late) := by
  unfold giveSample
  repeat' first
    | with_reducible assumption
    | (dsimp only [FRM_CNT_LOSTSAMP_COUNT, modeAt]; omega)
    | (extract_lets +onlyGivenNames lx; first | (refine alive_cut lx ?_ (fun _ => ?_); rotate_left; clear_value lx; revert lx; intro y hy; rotate_right; subst lx) | (clear_value lx; revert lx; intro y))
    | with_reducible apply setStr_alive
    | with_reducible apply stopLook_alive
    | with_reducible apply countMissing_alive
    | with_reducible apply addSat_alive
    | split

theorem setPin_alive {p : Nat} {x : PinS} {s : State} (hk : Alive s) : Alive (setPin s p x) := by
  unfold setPin
  repeat' first
    | with_reducible assumption
    | simp only [↓alive_mk]

theorem firePin_alive {p : Nat} {at8 width : Nat} {genPol : Bool} {s : State} (hk : Alive s) : Alive (firePin s p at8 width genPol).1 := by
  unfold firePin
  repeat' first
    | with_reducible assumption
    | (dsimp only [STK_TRG_STATUS_ACTIVE, STK_TRG_STATUS_OVR, STK_TRG_STATUS_OVR_CNT, modeAt]; omega)
    | with_reducible apply addSat_alive
    | with_reducible apply wr_alive
    | with_reducible apply setPin_alive
    | split

theorem fireCxp_alive {n tx : Nat} {s : State} (hk : Alive s) : Alive (fireCxp s n tx).1 := by
  unfold fireCxp
  repeat' first
    | with_reducible assumption
    | (dsimp only [STK_CXP_STATUS_OVR, modeAt]; omega)
    | with_reducible apply wr_alive
    | with_reducible apply freeNext_alive
    | split
    | simp only [↓alive_mk]

theorem stkSeek_alive {n : Nat} {s : State} (hk : Alive s) : Alive (stkSeek s n) := by
  unfold stkSeek
  repeat' first
    | with_reducible assumption
    | (dsimp only [STK_OFFSET_NOW_OFFSET_NOW, STK_STATUS_WALK, modeAt]; omega)
    | with_reducible apply wr_alive
    | with_reducible apply wrI_alive

theorem stkHold_alive {n : Nat} {s : State} (hk : Alive s) : Alive (stkHold s n) := by
  unfold stkHold
  repeat' first
    | with_reducible assumption
    | (dsimp only [STK_STATUS_WALK, modeAt]; omega)
    | with_reducible apply wr_alive

theorem stakesStop_alive {s : State} (hk : Alive s) : Alive (stakesStop s) := by
  unfold stakesStop
  repeat' first
    | with_reducible assumption
    | (intro)
    | with_reducible apply each_alive
    | with_reducible apply stkHold_alive

theorem stakesHandover_alive {s : State} (hk : Alive s) : Alive (stakesHandover s) := by
  unfold stakesHandover
  repeat' first
    | with_reducible assumption
    | (intro)
    | with_reducible apply each_alive
    | with_reducible apply stkSeek_alive

theorem stakesPosStep_alive {t : Nat} {s : State} (hk : Alive s) : Alive (stakesPosStep s t) := by
  unfold stakesPosStep
  repeat' first
    | with_reducible assumption
    | (dsimp only [STK_STATUS_RESEEK, modeAt]; omega)
    | (intro)
    | with_reducible apply each_alive
    | with_reducible apply wr_alive
    | with_reducible apply stkSeek_alive

theorem stakeRearm_alive {n : Nat} {s : State} (hk : Alive s) : Alive (stakeRearm n s) := by
  unfold stakeRearm
  repeat' first
    | with_reducible assumption
    | with_reducible apply stkSeek_alive
    | split

theorem setTpg_alive {g : Nat} {x : TpgS} {s : State} (hk : Alive s) : Alive (setTpg s g x) := by
  unfold setTpg
  repeat' first
    | with_reducible assumption
    | simp only [↓alive_mk]

theorem tpgFlag_alive {g : Nat} {f : FRef} {s : State} (other : f.a ≠ modeAt) (hk : Alive s) : Alive (tpgFlag s g f) := by
  unfold tpgFlag
  split
  · exact hk
  · exact raise_alive (wr_alive other hk)

theorem tpgFinish_alive {g : Nat} {s : State} (small : g < 16) (hk : Alive s) : Alive (tpgFinish s g) :=
  wr_alive (by dsimp only [TPG_EN_STATE, modeAt]; omega) (wr_alive (by dsimp only [TPG_EN_EN, modeAt]; omega) hk)

theorem tpgCounted_alive {g : Nat} {s : State} (small : g < 16) (hk : Alive s) : Alive (tpgCounted s g) := by
  unfold tpgCounted
  dsimp only
  split
  · exact tpgFinish_alive small hk
  · exact hk

theorem tpgEmit_alive {g hop fr : Nat} {s : State} (hk : Alive s) : Alive (tpgEmit s g hop fr) := by
  unfold tpgEmit
  repeat' first
    | with_reducible assumption
    | (dsimp only [TPG_FIRED_COUNT, modeAt]; omega)
    | (intro)
    | with_reducible apply addWrap_alive
    | with_reducible apply later_alive
    | with_reducible apply setTpg_alive
    | with_reducible apply each_alive
    | with_reducible apply firePin_alive
    | with_reducible apply fireCxp_alive
    | with_reducible apply giveSample_alive
    | split
    | simp only [↓alive_mk]

theorem tpgDomStep_alive {d : Nat} {fwd : Bool} {s : State} (hk : Alive s) : Alive (tpgDomStep s d fwd) := by
  refine each_alive_mem (fun u g hg hu => ?_) hk
  have small : g < 16 := below_lt hg
  dsimp only
  split
  · split
    · exact tpgCounted_alive small (addSat_alive (by dsimp only [TPG_SKIPPED_COUNT, modeAt]; omega) (setTpg_alive hu))
    · exact setTpg_alive hu
  · split
    · exact tpgEmit_alive (setTpg_alive (tpgFlag_alive (by dsimp only [TPG_STATUS_FIRED_LATE, modeAt]; omega) hu))
    · exact hu

/-! Lanes and streams. -/

theorem setLane_alive {n : Nat} {x : LaneS} {s : State} (hk : Alive s) : Alive (setLane s n x) := by
  unfold setLane
  repeat' first
    | with_reducible assumption
    | simp only [↓alive_mk]

theorem setTrain_alive {m st : Nat} {s : State} (hk : Alive s) : Alive (setTrain s m st) := by
  unfold setTrain
  repeat' first
    | with_reducible assumption
    | (dsimp only [CAM_LANE_STATUS_TRAIN, CAM_LANE_STATUS_UP, modeAt]; omega)
    | (intro)
    | with_reducible apply each_alive
    | with_reducible apply wr_alive

theorem laneDown_alive {m cause : Nat} {s : State} (hk : Alive s) : Alive (laneDown s m cause) := by
  unfold laneDown
  repeat' first
    | with_reducible assumption
    | (dsimp only [CAM_LANE_STATUS_UPLINK_UP, modeAt]; omega)
    | (intro)
    | with_reducible apply record_alive
    | with_reducible apply ptpRestart_alive
    | with_reducible apply setLane_alive
    | with_reducible apply each_alive
    | with_reducible apply raise_alive
    | with_reducible apply wr_alive

theorem laneRetrain_alive {n : Nat} {s : State} (hk : Alive s) : Alive (laneRetrain n s) := by
  unfold laneRetrain
  repeat' first
    | with_reducible assumption
    | (dsimp only [CAM_LANE_STATUS_RETRAINS, modeAt]; omega)
    | (intro)
    | (extract_lets +onlyGivenNames lx; first | (refine alive_cut lx ?_ (fun _ => ?_); rotate_left; clear_value lx; revert lx; intro y hy; rotate_right; subst lx) | (clear_value lx; revert lx; intro y))
    | with_reducible apply each_alive
    | with_reducible apply addSat_alive
    | with_reducible apply setTrain_alive
    | with_reducible apply raise_alive
    | with_reducible apply laneDown_alive
    | split

/-! Compass units. -/

theorem mlkShow_alive {u : Nat} {s : State} (hk : Alive s) : Alive (mlkShow s u) := by
  unfold mlkShow
  repeat' first
    | with_reducible assumption
    | (dsimp only [MLK_PRED_P, MLK_RHAT_R, MLK_STATUS_CFG_ERR, MLK_STATUS_EVER_LOCKED, MLK_STATUS_GOOD, MLK_STATUS_GRACE, MLK_STATUS_INHERITED, MLK_STATUS_MISS, MLK_STATUS_STATE, MLK_TRIM_TRIM, modeAt]; omega)
    | with_reducible apply wr_alive
    | with_reducible apply wrB_alive
    | with_reducible apply wrI_alive

theorem setLoop_alive {u : Nat} {old : Bool} {l : Loop} {s : State} (hk : Alive s) : Alive (setLoop s u old l) := by
  unfold setLoop
  repeat' first
    | with_reducible assumption
    | with_reducible apply setMlk_alive
    | with_reducible apply mlkShow_alive
    | split

theorem setMot_alive {u : Nat} {l : Loop} {s : State} (hk : Alive s) : Alive (setMot s u l) := by
  unfold setMot
  repeat' first
    | with_reducible assumption
    | with_reducible apply setMlk_alive

theorem toMot_alive {u : Nat} {s : State} (hk : Alive s) : Alive (toMot s u) := by
  unfold toMot
  repeat' first
    | with_reducible assumption
    | with_reducible apply setMot_alive
    | with_reducible apply setMlk_alive

theorem toSearch_alive {u : Nat} {old loss : Bool} {s : State} (hk : Alive s) : Alive (toSearch s u old loss) := by
  unfold toSearch
  repeat' first
    | with_reducible assumption
    | (dsimp only [MLK_STATUS_LOSS, modeAt]; omega)
    | (intro)
    | with_reducible apply setLoop_alive
    | with_reducible apply onlyIf_alive
    | with_reducible apply later_alive
    | with_reducible apply wr_alive
    | with_reducible apply toMot_alive
    | split

theorem mlkLoss_alive {u : Nat} {old : Bool} {s : State} (hk : Alive s) : Alive (mlkLoss s u old) := by
  unfold mlkLoss
  repeat' first
    | with_reducible assumption
    | with_reducible apply toSearch_alive

theorem mlkPosStep_alive {t : Nat} {s : State} (hk : Alive s) : Alive (mlkPosStep s t) := by
  unfold mlkPosStep
  repeat' first
    | with_reducible assumption
    | (intro)
    | with_reducible apply each_alive
    | with_reducible apply mlkLoss_alive

theorem mlkHandover_alive {acq : Bool} {s : State} (hk : Alive s) : Alive (mlkHandover s acq) := by
  unfold mlkHandover
  repeat' first
    | with_reducible assumption
    | (intro)
    | with_reducible apply each_alive
    | with_reducible apply toMot_alive
    | with_reducible apply mlkShow_alive
    | with_reducible apply setMlk_alive

/-! Frame assembly. -/

theorem setFrm_alive {st : Nat} {x : FrmS} {s : State} (hk : Alive s) : Alive (setFrm s st x) := by
  unfold setFrm
  repeat' first
    | with_reducible assumption
    | simp only [↓alive_mk]

theorem setFrame_alive {st id : Nat} {g : Frame → Frame} {s : State} (hk : Alive s) : Alive (setFrame s st id g) := by
  unfold setFrame
  repeat' first
    | with_reducible assumption
    | with_reducible apply setFrm_alive

theorem removeFrame_alive {st id : Nat} {s : State} (hk : Alive s) : Alive (removeFrame s st id) := by
  unfold removeFrame
  repeat' first
    | with_reducible assumption
    | with_reducible apply laterOnce_alive
    | with_reducible apply setFrm_alive

theorem showLag_alive {st : Nat} {s : State} (hk : Alive s) : Alive (showLag s st) := by
  unfold showLag
  repeat' first
    | with_reducible assumption
    | (dsimp only [PXE_STR_LAG_LAG, PXE_STR_LAG_MAX, PXE_STR_STATUS_CATCHUP, modeAt]; omega)
    | with_reducible apply wr_alive

theorem showFree_alive {st : Nat} {s : State} (hk : Alive s) : Alive (showFree s st) := by
  unfold showFree
  repeat' first
    | with_reducible assumption
    | (dsimp only [FRM_SLOT_COUNT_FREE, modeAt]; omega)
    | with_reducible apply wr_alive

theorem freeSlots_alive {st : Nat} {s : State} (hk : Alive s) : Alive (freeSlots s st) := by
  unfold freeSlots
  repeat' first
    | with_reducible assumption
    | (extract_lets +onlyGivenNames lx; clear_value lx; revert lx; intro y)
    | with_reducible apply showFree_alive
    | with_reducible apply setFrm_alive
    | split

theorem releaseSlot_alive {st k : Nat} {s : State} (hk : Alive s) : Alive (releaseSlot s st k) := by
  unfold releaseSlot
  repeat' first
    | with_reducible assumption
    | with_reducible apply laterOnce_alive
    | with_reducible apply freeSlots_alive
    | with_reducible apply setFrm_alive

theorem discardFrame_alive {st id : Nat} {s : State} (hk : Alive s) : Alive (discardFrame s st id) := by
  unfold discardFrame
  repeat' first
    | with_reducible assumption
    | with_reducible apply removeFrame_alive
    | with_reducible apply showLag_alive
    | with_reducible apply releaseSlot_alive
    | split

theorem closeFrame_alive {st id flags : Nat} {s : State} (hk : Alive s) : Alive (closeFrame s st id flags) := by
  unfold closeFrame
  repeat' first
    | with_reducible assumption
    | (dsimp only [FRM_CNT_FRAMES_COUNT, FRM_STR_SEQ_SEQ, modeAt]; omega)
    | with_reducible apply setFrm_alive
    | with_reducible apply addWrap_alive
    | with_reducible apply setFrame_alive
    | with_reducible apply onlyIf_alive
    | with_reducible apply later_alive
    | with_reducible apply record_alive
    | with_reducible apply removeFrame_alive
    | split

theorem setCut_alive {st : Nat} {old : Bool} {c : Cutter} {s : State} (hk : Alive s) : Alive (setCut s st old c) := by
  unfold setCut
  repeat' first
    | with_reducible assumption
    | (dsimp only [FRM_OPEN_BOUND_BOUND, FRM_STR_STATUS_TAIL, modeAt]; omega)
    | with_reducible apply setFrm_alive
    | with_reducible apply wrI_alive
    | with_reducible apply wrB_alive
    | split

theorem imageCut_alive {st : Nat} {s : State} (hk : Alive s) : Alive (imageCut s st) := by
  unfold imageCut
  repeat' first
    | with_reducible assumption
    | with_reducible apply closeFrame_alive
    | with_reducible apply setFrm_alive
    | split

theorem checkStream_alive {st : Nat} {s : State} (hk : Alive s) : Alive (checkStream s st) := by
  unfold checkStream
  repeat' first
    | with_reducible assumption
    | with_reducible apply later_alive
    | split
    | simp only [↓alive_mk]

theorem cutFinish_alive {st : Nat} {old : Bool} {s : State} (hk : Alive s) : Alive (cutFinish s st old) := by
  unfold cutFinish
  repeat' first
    | with_reducible assumption
    | with_reducible apply setCut_alive
    | with_reducible apply discardFrame_alive
    | split

theorem streamJudge_alive {st : Nat} {s : State} (hk : Alive s) : Alive (streamJudge s st) := by
  unfold streamJudge
  repeat' first
    | with_reducible assumption
    | (extract_lets +onlyGivenNames lx; clear_value lx; revert lx; intro y)
    | with_reducible apply checkStream_alive
    | with_reducible apply cutFinish_alive
    | with_reducible apply setFrm_alive
    | split

theorem streamFinish_alive {st : Nat} {s : State} (hk : Alive s) : Alive (streamFinish s st) := by
  unfold streamFinish
  repeat' first
    | with_reducible assumption
    | with_reducible apply streamJudge_alive
    | with_reducible apply setFrm_alive

theorem streamStart_alive {st : Nat} {s : State} (hk : Alive s) : Alive (streamStart s st) := by
  unfold streamStart
  repeat' first
    | with_reducible assumption
    | with_reducible apply imageCut_alive
    | with_reducible apply setStr_alive
    | with_reducible apply setFrm_alive
    | with_reducible apply showFree_alive
    | with_reducible apply setCut_alive
    | simp only [↓alive_mk]

theorem triggerEnd_alive {st : Nat} {s : State} (hk : Alive s) : Alive (triggerEnd st s) := by
  unfold triggerEnd
  repeat' first
    | with_reducible assumption
    | with_reducible apply later_alive
    | split
    | simp only [↓alive_mk]

theorem framesHandover_alive {s : State} (hk : Alive s) : Alive (framesHandover s) := by
  unfold framesHandover
  repeat' first
    | with_reducible assumption
    | (intro)
    | with_reducible apply each_alive
    | with_reducible apply setFrm_alive
    | with_reducible apply setCut_alive
    | split

theorem framesRefresh_alive {s : State} (hk : Alive s) : Alive (framesRefresh s) := by
  unfold framesRefresh
  repeat' first
    | with_reducible assumption
    | (intro)
    | with_reducible apply each_alive
    | with_reducible apply streamStart_alive

/-! What goes to the host. -/

theorem issueRead_alive {r : ReadReqS} {s : State} (hk : Alive s) : Alive (issueRead s r) := by
  unfold issueRead
  repeat' first
    | with_reducible assumption
    | with_reducible apply send_alive
    | split
    | simp only [↓alive_mk]

theorem noteServed_alive {w : Requester} {s : State} (hk : Alive s) : Alive (noteServed s w) := by
  unfold noteServed
  repeat' first
    | with_reducible assumption
    | split
    | simp only [↓alive_mk]

theorem issueAll_alive {a1 : List Requester} {a2 : List ReadReqS} {s : State} (hk : Alive s) : Alive (issueAll s a1 a2).1 := by
  induction a2 generalizing s a1 with
  | nil => exact hk
  | cons e l ih =>
    unfold issueAll
    repeat' first
      | with_reducible assumption
      | with_reducible apply ih
      | with_reducible apply issueRead_alive
      | with_reducible apply noteServed_alive
      | split

theorem pumpOnce_alive {s : State} (hk : Alive s) : Alive (pumpOnce s) := by
  unfold pumpOnce
  repeat' first
    | with_reducible assumption
    | with_reducible apply issueAll_alive
    | simp only [↓alive_mk]

theorem pumpReads_alive {a0 : Nat} {s : State} (hk : Alive s) : Alive (pumpReads a0 s) := by
  induction a0 generalizing s with
  | zero => exact hk
  | succ n ih =>
    unfold pumpReads
    repeat' first
      | with_reducible assumption
      | (extract_lets +onlyGivenNames lx; refine alive_cut lx ?_ (fun _ => ?_); rotate_left; clear_value lx; revert lx; intro y hy; rotate_right; subst lx)
      | with_reducible apply ih
      | with_reducible apply pumpOnce_alive
      | split

theorem serveReads_alive {s : State} (hk : Alive s) : Alive (serveReads s) := by
  unfold serveReads
  repeat' first
    | with_reducible assumption
    | exact elsewhere rfl
    | (intro)
    | with_reducible apply pumpReads_alive
    | with_reducible apply onlyIf_alive
    | with_reducible apply addWrap_alive

theorem wantRead_alive {who : Requester} {addr len : Nat} {s : State} (hk : Alive s) : Alive (wantRead s who addr len) := by
  unfold wantRead
  repeat' first
    | with_reducible assumption
    | (intro)
    | with_reducible apply laterOnce_alive
    | with_reducible apply each_alive
    | simp only [↓alive_mk]

/-! Pixel engines. -/

theorem setPxe_alive {st : Nat} {x : PxeS} {s : State} (hk : Alive s) : Alive (setPxe s st x) := by
  unfold setPxe
  repeat' first
    | with_reducible assumption
    | simp only [↓alive_mk]

theorem chainRefresh_alive {st : Nat} {s : State} (hk : Alive s) : Alive (chainRefresh s st) := by
  unfold chainRefresh
  repeat' first
    | with_reducible assumption
    | (dsimp only [PXE_STR_STATUS_CHAIN_ERR, PXE_STR_STATUS_ERR_KIDX, PXE_STR_STATUS_NO_ENGINE, modeAt]; omega)
    | (extract_lets +onlyGivenNames lx; first | (refine alive_cut lx ?_ (fun _ => ?_); rotate_left; clear_value lx; revert lx; intro y hy; rotate_right; subst lx) | (clear_value lx; revert lx; intro y))
    | with_reducible apply wr_alive
    | with_reducible apply wrB_alive
    | with_reducible apply setPxe_alive
    | with_reducible apply setChk_alive
    | split

theorem chainsActive_alive {s : State} (hk : Alive s) : Alive (chainsActive s) := by
  unfold chainsActive
  repeat' first
    | with_reducible assumption
    | (intro)
    | with_reducible apply each_alive
    | with_reducible apply chainRefresh_alive

theorem dropClosed_alive {st : Nat} {f : Frame} {cause : Nat} {s : State} (hk : Alive s) : Alive (dropClosed s st f cause) := by
  unfold dropClosed
  repeat' first
    | with_reducible assumption
    | (dsimp only [PXE_CNT_DROP_COUNT, PXE_STR_STATUS_DROP, modeAt]; omega)
    | with_reducible apply wr_alive
    | with_reducible apply addSat_alive
    | with_reducible apply record_alive
    | with_reducible apply raise_alive
    | with_reducible apply removeFrame_alive
    | with_reducible apply releaseSlot_alive
    | with_reducible apply later_alive
    | with_reducible apply showLag_alive
    | split

theorem campDrop_alive {st id cause : Nat} {s : State} (hk : Alive s) : Alive (campDrop s st id cause) := by
  unfold campDrop
  repeat' first
    | with_reducible assumption
    | with_reducible apply dropClosed_alive
    | with_reducible apply showLag_alive
    | with_reducible apply setFrame_alive
    | split

theorem frameClosed_alive {st id : Nat} {s : State} (hk : Alive s) : Alive (frameClosed s st id) := by
  unfold frameClosed
  repeat' first
    | with_reducible assumption
    | (dsimp only [PXE_STR_STATUS_CHAIN_ERR, PXE_STR_STATUS_ERR_KIDX, modeAt]; omega)
    | (intro)
    | with_reducible apply onlyIf_alive
    | with_reducible apply wr_alive
    | with_reducible apply campDrop_alive
    | split

theorem lagAbandon_alive {a0 : Nat} {a2 : Nat} {s : State} (hk : Alive s) : Alive (lagAbandon a0 s a2) := by
  induction a0 generalizing s a2 with
  | zero => exact hk
  | succ n ih =>
    unfold lagAbandon
    repeat' first
      | with_reducible assumption
      | with_reducible apply ih
      | with_reducible apply campDrop_alive
      | split

theorem substitute_alive {st : Nat} {s : State} (hk : Alive s) : Alive (substitute s st) := by
  unfold substitute
  split
  · exact hk
  · extract_lets c mask x s1 s2 s3 s4
    have camp : c < 16 := Nat.mod_lt _ (Nat.two_pow_pos 4)
    have h1 : Alive s1 := setPxe_alive hk
    split
    · exact h1
    · have h2 : Alive s2 := by
        refine each_alive (fun u k hu => ?_) h1
        extract_lets named
        split
        · next j found =>
          have engine : j < 16 := below_lt (List.mem_of_find?_eq_some found)
          exact wr_alive (by dsimp only [PXE_CAMP_FAILED_STANDIN, modeAt]; omega)
            (wr_alive (by dsimp only [PXE_ENG_STATUS_FOR, modeAt]; omega) (wr_alive (by dsimp only [PXE_ENG_STATUS_STATE, modeAt]; omega) hu))
        · exact hu
      have h3 : Alive s3 := each_alive (fun u t hu => chainRefresh_alive hu) h2
      split
      · exact setChk_alive (wr_alive (by dsimp only [PXE_STR_STATUS_ERR_KIDX, modeAt]; omega) (wr_alive (by dsimp only [PXE_STR_STATUS_CHAIN_ERR, modeAt]; omega)
          (wr_alive (by dsimp only [PXE_STR_STATUS_NO_ENGINE, modeAt]; omega) h3)))
      · exact h3

theorem campStopped_alive {c : Nat} {s : State} (hk : Alive s) : Alive (campStopped s c) := by
  unfold campStopped
  repeat' first
    | with_reducible assumption
    | (intro)
    | with_reducible apply each_alive
    | with_reducible apply chainRefresh_alive
    | with_reducible apply campDrop_alive

/-! Delivery. -/

theorem handOver_alive {a0 : Nat} {a2 : Nat} {s : State} (hk : Alive s) : Alive (handOver a0 s a2) := by
  induction a0 generalizing s a2 with
  | zero => exact hk
  | succ n ih =>
    unfold handOver
    repeat' first
      | with_reducible assumption
      | with_reducible apply ih
      | with_reducible apply hbmWrite_alive
      | with_reducible apply setFrm_alive
      | with_reducible apply removeFrame_alive
      | with_reducible apply onlyIf_alive
      | with_reducible apply releaseSlot_alive
      | split
      | simp only [↓alive_mk]

/-! Entering a mode. -/

theorem ltrSend_alive {m : Nat} {s : State} (hk : Alive s) : Alive (ltrSend s m) := by
  unfold ltrSend
  repeat' first
    | with_reducible assumption
    | with_reducible apply send_alive
    | split

theorem derateApply_alive {s : State} (hk : Alive s) : Alive (derateApply s) := by
  unfold derateApply
  repeat' first
    | with_reducible assumption
    | (intro)
    | with_reducible apply each_alive
    | with_reducible apply chainRefresh_alive
    | split
    | simp only [↓alive_mk]

theorem padApply_alive {s : State} (hk : Alive s) : Alive (padApply s) := by
  unfold padApply
  repeat' first
    | with_reducible assumption
    | exact elsewhere rfl
    | with_reducible apply wr_alive
    | split
    | simp only [↓alive_mk]

theorem showTarget_alive {s : State} (hk : Alive s) : Alive (showTarget s) :=
  laterOnce_alive (wr_status_alive rfl (by decide) (by decide) (wr_status_alive rfl (by decide) (by decide) hk))

theorem modeEnter_alive {m cause : Nat} {s : State} (some_ : m % 16 ≠ 0) (hk : Alive s) : Alive (modeEnter s m cause) := by
  unfold modeEnter
  dsimp only
  have told : Alive (ltrSend (raise (record (showTarget (wr (wr s MODE_STATUS_PREV (mode s)) MODE_STATUS_MODE m)) rpMp 0x15 (if m = 10 then svFault else svNotice) 0x0010
      (leBytes 1 (mode s) ++ leBytes 1 m ++ leBytes 4 cause)) srcMode) m) :=
    ltrSend_alive (raise_alive (record_alive (showTarget_alive (wr_mode_alive some_ (wr_status_alive rfl (by decide) (by decide) hk)))))
  split
  · exact padApply_alive (derateApply_alive told)
  · exact told

/-! The changeover. -/

theorem oldSlots_alive {s : State} (hk : Alive s) : Alive (oldSlots s) :=
  each_alive_mem (fun u k hm hu => wr_alive (by have := below_lt hm; dsimp only [CHG_RCP_STATE_STATE, modeAt]; omega) hu) hk

theorem chgResult_alive {r : Nat} {s : State} (hk : Alive s) : Alive (chgResult s r) := by
  unfold chgResult
  repeat' first
    | with_reducible assumption
    | exact elsewhere rfl
    | with_reducible apply wr_alive

theorem arm_alive {a : Armed} {shown : Nat} {s : State} (hk : Alive s) : Alive (arm s a shown) := by
  have armed : Alive { s with chg := { s.chg with armed := some a } } := hk
  exact laterOnce_alive (wr_alive (by decide) (wr_alive (by decide) (wr_alive (by decide) (wr_alive (by decide) armed))))

theorem disarm_alive {r : Nat} {s : State} (hk : Alive s) : Alive (disarm s r) := by
  have free : Alive { s with chg := { s.chg with armed := none } } := hk
  exact laterOnce_alive (each_alive (fun u k hu => freeSlots_alive hu) (wr_alive (by decide) (wr_alive (by decide) free)))

theorem armOrLate_alive {a : Armed} {s : State} (hk : Alive s) : Alive (armOrLate s a).1 := by
  unfold armOrLate
  repeat' first
    | with_reducible assumption
    | exact elsewhere rfl
    | with_reducible apply arm_alive
    | with_reducible apply chgResult_alive
    | with_reducible apply wr_alive
    | split

theorem chainMessage_alive {a : Armed} {s : State} (hk : Alive s) : Alive (chainMessage s a) := by
  unfold chainMessage
  repeat' first
    | with_reducible assumption
    | simp only [↓alive_mk]

/-- A hand-over is counted. -/
theorem handOverNow_alive {a : Armed} {shown : Nat} {s : State} : Alive (handOverNow s a shown) := by
  unfold handOverNow
  extract_lets acq oldSlot newSlot s0 c0 s1 s2 s3 s5 s6 s7 s8 s9 s10 c1 s11
  have counted : ∀ (u : State) (old new : Nat) (b : Bool), (slotsHandover u old new b).chg = u.chg := fun u old new b => by
    unfold slotsHandover
    dsimp only
    split <;> rfl
  have h5 : Alive s5 := Or.inr (Or.inl (by
    show 0 < (slotsHandover _ _ _ _).chg.count
    rw [counted]
    exact Nat.succ_pos _))
  clear_value s5
  have h6 : Alive s6 := stakesHandover_alive h5
  have h7 : Alive s7 := mlkHandover_alive h6
  have h8 : Alive s8 := by
    show Alive (if acq then framesHandover s7 else framesRefresh s7)
    split
    · exact framesHandover_alive h7
    · exact framesRefresh_alive h7
  have h9 : Alive s9 := chainsActive_alive h8
  have h10 : Alive s10 := record_alive h9
  have h11 : Alive s11 := h10
  exact laterOnce_alive (laterOnce_alive (later_alive (later_alive (raise_alive h11))))

theorem chgCommit_alive {v : Nat} {s : State} (hk : Alive s) : Alive (chgCommit v s) := by
  unfold chgCommit
  extract_lets kind chain follow m stt a was t armed told r
  have ht : Alive t := hk
  have hr : Alive r.1 := armOrLate_alive ht
  clear_value t r
  split
  · exact chgResult_alive hk
  · split
    · exact chgResult_alive hk
    · split
      · exact chgResult_alive hk
      · split
        · exact chgResult_alive hk
        · split
          · exact chgResult_alive hk
          · split
            · exact chgResult_alive hk
            · split
              · exact chgResult_alive (setChk_alive hk)
              · split
                · exact handOverNow_alive
                · split
                  · exact arm_alive ht
                  · split
                    · exact onlyIf_alive (fun u hu => chainMessage_alive hu) hr
                    · exact hr

theorem chgWithdraw_alive {s : State} (hk : Alive s) : Alive (chgWithdraw s) := by
  unfold chgWithdraw
  repeat' first
    | with_reducible assumption
    | (extract_lets +onlyGivenNames lx; clear_value lx; revert lx; intro y)
    | with_reducible apply disarm_alive
    | with_reducible apply chgResult_alive
    | split

theorem chgWrite_alive {v : Nat} {s : State} (hk : Alive s) : Alive (chgWrite v s) := by
  unfold chgWrite
  repeat' first
    | with_reducible assumption
    | with_reducible apply chgWithdraw_alive
    | with_reducible apply chgCommit_alive
    | split
    | simp only [↓alive_mk]

theorem modeWithdraw_alive {s : State} (hk : Alive s) : Alive (modeWithdraw s) := by
  unfold modeWithdraw
  repeat' first
    | with_reducible assumption
    | with_reducible apply disarm_alive
    | split

theorem chgMark_alive {u : Nat} {s : State} (hk : Alive s) : Alive (chgMark s u) := by
  unfold chgMark
  repeat' first
    | with_reducible assumption
    | split
    | simp only [↓alive_mk]

theorem handoverCycle_alive {s : State} (hk : Alive s) : Alive (handoverCycle s) := by
  unfold handoverCycle
  repeat' first
    | with_reducible assumption
    | with_reducible apply handOverNow_alive
    | split

theorem chgDomStep_alive {d : Nat} {s : State} (hk : Alive s) : Alive (chgDomStep s d) := by
  unfold chgDomStep
  repeat' first
    | with_reducible assumption
    | with_reducible apply handoverCycle_alive
    | split

/-! Stops and HOLD. -/

theorem beginStop_alive {s : State} (hk : Alive s) : Alive (beginStop s) := by
  unfold beginStop
  repeat' first
    | with_reducible assumption
    | (intro)
    | with_reducible apply modeWithdraw_alive
    | with_reducible apply onlyIf_alive
    | with_reducible apply stakesStop_alive
    | with_reducible apply each_alive
    | with_reducible apply streamFinish_alive
    | simp only [↓alive_mk]

theorem stopNow_alive {s : State} (hk : Alive s) : Alive (stopNow s) := by
  unfold stopNow
  repeat' first
    | with_reducible assumption
    | with_reducible apply dividersHold_alive
    | split
    | simp only [↓alive_mk]

theorem stakesCheck_alive {s : State} (hk : Alive s) : Alive (stakesCheck s) := by
  unfold stakesCheck
  repeat' first
    | with_reducible assumption
    | with_reducible apply stakesStop_alive
    | split

theorem enterHold_alive {src idx : Nat} {disable : Bool} {s : State} (hk : Alive s) : Alive (enterHold s src idx disable) := by
  unfold enterHold
  extract_lets was halted s1 s2 m s3 s4 s5 s6
  split
  · exact hk
  · have h2 : Alive s2 := beginStop_alive (wr_alive (by decide) (wr_alive (by decide) (wr_alive (by decide) hk)))
    have h3 : Alive s3 := h2
    have h5 : Alive s5 := later_alive (modeEnter_alive (by decide) h3)
    exact onlyIf_alive (fun u hu => stopNow_alive hu) (onlyIf_alive (fun u hu => later_alive hu) h5)

theorem lockCheck_alive {s : State} (hk : Alive s) : Alive (lockCheck s) := by
  unfold lockCheck
  split
  · exact modeEnter_alive (by decide) hk
  · split
    · exact modeEnter_alive (by decide) hk
    · exact hk

theorem lockDrop_alive {s : State} (hk : Alive s) : Alive (lockDrop s) := by
  refine later_alive ?_
  split
  · exact modeEnter_alive (by decide) hk
  · exact hk

/-! Guyline events. -/

theorem gylFlag_alive {f : FRef} {s : State} (other : f.a ≠ modeAt) (hk : Alive s) : Alive (gylFlag s f) := by
  unfold gylFlag
  split
  · exact hk
  · exact raise_alive (wr_alive other hk)

theorem gylAccept_alive {c hop : Nat} {s : State} (hk : Alive s) : Alive (gylAccept s c hop).1 := by
  unfold gylAccept
  split
  · exact gylFlag_alive (by dsimp only [GYL_CH_STATUS_LOOP, modeAt]; omega) (addSat_alive (by decide) hk)
  · refine wr_alive (by dsimp only [GYL_CH_STATUS_LAST_HOP, modeAt]; omega) (addWrap_alive (by dsimp only [GYL_CNT_COUNT, modeAt]; omega) ?_)
    have seen : Alive (wr s (GYL_SEEN_SEEN (c / 32)) (Nat.lor (rd s (GYL_SEEN_SEEN (c / 32))) (2 ^ (c % 32)))) := seen_alive (Nat.mod_lt _ (by decide)) hk
    dsimp only [onlyIf]
    split
    · split
      · exact raise_alive seen
      · exact seen
    · exact hk

theorem gylAcceptAll_alive {l : List (Nat × Nat)} {s : State} (hk : Alive s) : Alive (gylAcceptAll s l).1 := by
  induction l generalizing s with
  | nil => exact hk
  | cons e l ih => exact ih (gylAccept_alive hk)

theorem relayEnd_alive {r : Nat} {s : State} (hk : Alive s) : Alive (relayEnd s r) := by
  unfold relayEnd
  repeat' first
    | with_reducible assumption
    | with_reducible apply later_alive
    | split
    | simp only [↓alive_mk]

theorem taskRun_alive {t c hop n : Nat} {s : State} (hk : Alive s) : Alive (taskRun s t c hop n) := by
  unfold taskRun
  repeat' first
    | with_reducible assumption
    | with_reducible apply stakeRearm_alive
    | with_reducible apply relayEnd_alive
    | with_reducible apply chgWrite_alive
    | split
    | simp only [↓alive_mk]

theorem taskMerge_alive {t c hop n : Nat} {s : State} (hk : Alive s) : Alive (taskMerge s t c hop n) := by
  unfold taskMerge
  repeat' first
    | with_reducible assumption
    | split
    | simp only [↓alive_mk]

theorem taskFill_alive {t : Nat} {s : State} (hk : Alive s) : Alive (taskFill s t) := by
  unfold taskFill
  repeat' first
    | with_reducible assumption
    | with_reducible apply freeNext_alive
    | split
    | simp only [↓alive_mk]

theorem taskEvents_alive {t : Nat} {evs : List (Nat × Nat)} {s : State} (small : t < 100) (hk : Alive s) : Alive (taskEvents s t evs) := by
  unfold taskEvents
  split
  · exact hk
  · next e l =>
    extract_lets x same merged hop busy s1 g s2 c
    have h1 : Alive s1 := onlyIf_alive (fun u hu => gylFlag_alive (by dsimp only [GYL_TASK_STATUS_MERGED, modeAt]; omega) (addSat_alive (by dsimp only [GYL_TASK_CNT_MERGES, modeAt]; omega) hu)) hk
    have h2 : Alive s2 := h1
    split
    · exact onlyIf_alive (fun u hu => taskMerge_alive hu) h2
    · split
      · exact gylFlag_alive (by dsimp only [GYL_TASK_STATUS_OVERRUN, modeAt]; omega) (addSat_alive (by dsimp only [GYL_TASK_STATUS_OVR_CNT, modeAt]; omega) h2)
      · exact taskRun_alive (addWrap_alive (by dsimp only [GYL_TASK_CNT_ACT, modeAt]; omega) (taskFill_alive h2))

theorem gylCycle_alive {evs : List (Nat × Nat)} {s : State} (hk : Alive s) : Alive (gylCycle s evs) :=
  each_alive_mem (fun _ _ ht hu => taskEvents_alive (below_lt ht) hu) (gylAcceptAll_alive hk)

/-! The tether. -/

theorem tthJoin_alive {down : Bool} {m : TthMsg} {s : State} (hk : Alive s) : Alive (tthJoin s down m) := by
  unfold tthJoin
  repeat' first
    | with_reducible assumption
    | simp only [↓alive_mk]

theorem tthOwn_alive {down : Bool} {kind : Nat} {blocks : List TthBlock} {s : State} (hk : Alive s) : Alive (tthOwn s down kind blocks) := by
  unfold tthOwn
  repeat' first
    | with_reducible assumption
    | with_reducible apply tthJoin_alive

theorem slotFreeze_alive {j : Nat} {s : State} (hk : Alive s) : Alive (slotFreeze s j) := by
  unfold slotFreeze
  repeat' first
    | with_reducible assumption
    | (dsimp only [TRL_STATUS_LB_SEEN, TRL_STATUS_UNTRUSTED, modeAt]; omega)
    | (intro)
    | with_reducible apply each_alive
    | with_reducible apply trlBar_alive
    | with_reducible apply wr_alive
    | split
    | simp only [↓alive_mk]

theorem upLock_alive {lock : Bool} {s : State} (hk : Alive s) : Alive (upLock s lock) := by
  unfold upLock
  repeat' first
    | with_reducible assumption
    | exact elsewhere rfl
    | (intro)
    | with_reducible apply raise_alive
    | with_reducible apply wrB_alive
    | with_reducible apply each_alive
    | with_reducible apply slotFreeze_alive
    | split

theorem portLock_alive {down lock : Bool} {s : State} (hk : Alive s) : Alive (portLock s down lock) := by
  unfold portLock
  repeat' first
    | with_reducible assumption
    | exact elsewhere rfl
    | with_reducible apply upLock_alive
    | with_reducible apply raise_alive
    | with_reducible apply wrB_alive
    | split
    | simp only [↓alive_mk]

theorem setLock_alive {down : Bool} {l : PortLock} {s : State} (hk : Alive s) : Alive (setLock s down l) := by
  unfold setLock
  repeat' first
    | with_reducible assumption
    | simp only [↓alive_mk]

theorem heartbeatSend_alive {down : Bool} {s : State} (hk : Alive s) : Alive (heartbeatSend down s) := by
  unfold heartbeatSend
  repeat' first
    | with_reducible assumption
    | with_reducible apply tthOwn_alive
    | split
    | simp only [↓alive_mk]

theorem heartbeatCheck_alive {s : State} (hk : Alive s) : Alive (heartbeatCheck s) := by
  unfold heartbeatCheck
  repeat' first
    | with_reducible assumption
    | with_reducible apply heartbeatSend_alive
    | split

/-! Mailboxes. -/

theorem setResp_alive {m : Nat} {l : List Byte} {s : State} (hk : Alive s) : Alive (setResp s m l) := by
  unfold setResp
  repeat' first
    | with_reducible assumption
    | simp only [↓alive_mk]

theorem mgmtSend_alive {down : Bool} {dest : Nat} {toMgr : Bool} {seq : Nat} {l : List Byte} {s : State} (hk : Alive s) : Alive (mgmtSend s down dest toMgr seq l) := by
  unfold mgmtSend
  repeat' first
    | with_reducible assumption
    | (intro)
    | with_reducible apply onlyIf_alive
    | with_reducible apply each_alive
    | with_reducible apply tthOwn_alive

theorem mbxCount_alive {m seq status : Nat} {s : State} (hk : Alive s) : Alive (mbxCount s m seq status) := by
  unfold mbxCount
  repeat' first
    | with_reducible assumption
    | (dsimp only [MBX_CNT_DONE, MBX_CNT_NOTOK, MBX_LAST_SEQ, MBX_LAST_STATUS, MBX_STATUS_ABORTING, modeAt]; omega)
    | (intro)
    | with_reducible apply addWrap_alive
    | with_reducible apply onlyIf_alive
    | with_reducible apply addSat_alive
    | with_reducible apply wr_alive
    | simp only [↓alive_mk]

theorem mbxDone_alive {m seq : Nat} {l : List Byte} {s : State} (hk : Alive s) : Alive (mbxDone s m seq l) := by
  unfold mbxDone
  repeat' first
    | with_reducible assumption
    | (dsimp only [MBX_STATUS_DONE, MBX_STATUS_STATE, modeAt]; omega)
    | (intro)
    | with_reducible apply wr_alive
    | with_reducible apply setResp_alive
    | with_reducible apply onlyIf_alive
    | with_reducible apply raise_alive
    | with_reducible apply mgmtSend_alive

theorem respond_alive {c : MpCmd} {status detail : Nat} {data : List Byte} {s : State} (hk : Alive s) : Alive (respond s c status detail data) := by
  unfold respond
  repeat' first
    | with_reducible assumption
    | (dsimp only [MBX_STATUS_STATE, modeAt]; omega)
    | with_reducible apply mbxCount_alive
    | with_reducible apply wr_alive
    | with_reducible apply mbxDone_alive
    | split

theorem respondOk_alive {c : MpCmd} {data : List Byte} {s : State} (hk : Alive s) : Alive (respondOk s c data) := by
  unfold respondOk
  repeat' first
    | with_reducible assumption
    | with_reducible apply respond_alive

/-! Commands of the MP. -/

theorem calAbort_alive {s : State} (hk : Alive s) : Alive (calAbort s) := by
  unfold calAbort
  repeat' first
    | with_reducible assumption
    | with_reducible apply respond_alive
    | with_reducible apply freeNext_alive
    | split

theorem recFlushed_alive {n written : Nat} {s : State} (hk : Alive s) : Alive (recFlushed s n written) := by
  unfold recFlushed
  repeat' first
    | with_reducible assumption
    | with_reducible apply respondOk_alive
    | split
    | simp only [↓alive_mk]

/-! DMA. -/

theorem setDma_alive {c : Nat} {x : DmaS} {s : State} (hk : Alive s) : Alive (setDma s c x) := by
  unfold setDma
  repeat' first
    | with_reducible assumption
    | simp only [↓alive_mk]

theorem dropReads_alive {p : Nat → Bool} {s : State} (hk : Alive s) : Alive (dropReads s p) := by
  unfold dropReads
  repeat' first
    | with_reducible assumption
    | with_reducible apply laterOnce_alive
    | simp only [↓alive_mk]

theorem dmaStop_alive {c run : Nat} {s : State} (hk : Alive s) : Alive (dmaStop s c run) := by
  unfold dmaStop
  repeat' first
    | with_reducible assumption
    | (dsimp only [DMA_CH_STATUS_RUN, modeAt]; omega)
    | with_reducible apply wr_alive
    | with_reducible apply setDma_alive
    | with_reducible apply raise_alive

theorem haltCh_alive {c cause : Nat} {s : State} (hk : Alive s) : Alive (haltCh s c cause) := by
  unfold haltCh
  repeat' first
    | with_reducible assumption
    | (dsimp only [DMA_CH_STATUS_CAUSE, modeAt]; omega)
    | with_reducible apply wr_alive
    | with_reducible apply dmaStop_alive
    | with_reducible apply dropReads_alive

theorem dmaPull_alive {c src dst n : Nat} {s : State} (hk : Alive s) : Alive (dmaPull s c src dst n) := by
  unfold dmaPull
  repeat' first
    | with_reducible assumption
    | (intro)
    | with_reducible apply each_alive
    | with_reducible apply wantRead_alive

theorem dmaPush_alive {c src dst n : Nat} {s : State} (hk : Alive s) : Alive (dmaPush s c src dst n) := by
  unfold dmaPush
  repeat' first
    | with_reducible assumption
    | with_reducible apply laterOnce_alive
    | simp only [↓alive_mk]

theorem dmaMove_alive {c src dst n : Nat} {s : State} (hk : Alive s) : Alive (dmaMove s c src dst n) := by
  unfold dmaMove
  repeat' first
    | with_reducible assumption
    | with_reducible apply dmaPull_alive
    | with_reducible apply hbmWrite_alive
    | with_reducible apply dmaPush_alive
    | split

theorem badCheck_alive {c : Nat} {s : State} (hk : Alive s) : Alive (badCheck s c) := by
  unfold badCheck
  repeat' first
    | with_reducible assumption
    | with_reducible apply haltCh_alive
    | split

theorem issueWrites_alive {a0 : Nat} {a2 : Nat} {s : State} (hk : Alive s) : Alive (issueWrites a0 s a2) := by
  induction a0 generalizing s a2 with
  | zero => exact hk
  | succ n ih =>
    unfold issueWrites
    repeat' first
      | with_reducible assumption
      | with_reducible apply ih
      | with_reducible apply send_alive
      | split
      | simp only [↓alive_mk]

theorem writeTurn_alive {c : Nat} {s : State} (hk : Alive s) : Alive (writeTurn s c) := by
  unfold writeTurn
  repeat' first
    | with_reducible assumption
    | with_reducible apply issueWrites_alive
    | with_reducible apply badCheck_alive
    | split
    | simp only [↓alive_mk]

theorem pumpWrites_alive {a0 : Nat} {s : State} (hk : Alive s) : Alive (pumpWrites a0 s) := by
  induction a0 generalizing s with
  | zero => exact hk
  | succ n ih =>
    unfold pumpWrites
    repeat' first
      | with_reducible assumption
      | (intro)
      | with_reducible apply ih
      | with_reducible apply each_alive
      | with_reducible apply writeTurn_alive
      | split

theorem serveHost_alive {s : State} (hk : Alive s) : Alive (serveHost s) := by
  unfold serveHost
  repeat' first
    | with_reducible assumption
    | with_reducible apply serveReads_alive
    | with_reducible apply pumpWrites_alive

theorem askIndex_alive {a0 : Nat} {a2 : Nat} {s : State} (hk : Alive s) : Alive (askIndex a0 s a2) := by
  induction a0 generalizing s a2 with
  | zero => exact hk
  | succ n ih =>
    unfold askIndex
    repeat' first
      | with_reducible assumption
      | (extract_lets +onlyGivenNames lx; clear_value lx; revert lx; intro y)
      | with_reducible apply ih
      | with_reducible apply wantRead_alive
      | with_reducible apply setDma_alive
      | split

theorem moveElems_alive {a0 : Nat} {a2 : Nat} {s : State} (hk : Alive s) : Alive (moveElems a0 s a2) := by
  induction a0 generalizing s a2 with
  | zero => exact hk
  | succ n ih =>
    unfold moveElems
    repeat' first
      | with_reducible assumption
      | (extract_lets +onlyGivenNames lx; clear_value lx; revert lx; intro y)
      | with_reducible apply ih
      | with_reducible apply setDma_alive
      | with_reducible apply dmaMove_alive
      | split

theorem dmaGather_alive {c : Nat} {s : State} (hk : Alive s) : Alive (dmaGather s c) := by
  unfold dmaGather
  repeat' first
    | with_reducible assumption
    | with_reducible apply moveElems_alive
    | with_reducible apply badCheck_alive
    | with_reducible apply askIndex_alive
    | split

theorem dmaLoad_alive {c : Nat} {bytes : List Byte} {s : State} (hk : Alive s) : Alive (dmaLoad s c bytes) := by
  unfold dmaLoad
  repeat' first
    | with_reducible assumption
    | (extract_lets +onlyGivenNames lx; first | (refine alive_cut lx ?_ (fun _ => ?_); rotate_left; clear_value lx; revert lx; intro y hy; rotate_right; subst lx) | (clear_value lx; revert lx; intro y))
    | with_reducible apply haltCh_alive
    | with_reducible apply setDma_alive
    | with_reducible apply dmaGather_alive
    | with_reducible apply dmaMove_alive
    | split

theorem dmaFetch_alive {c : Nat} {s : State} (hk : Alive s) : Alive (dmaFetch s c) := by
  unfold dmaFetch
  repeat' first
    | with_reducible assumption
    | (extract_lets +onlyGivenNames lx; clear_value lx; revert lx; intro y)
    | with_reducible apply haltCh_alive
    | with_reducible apply dmaLoad_alive
    | with_reducible apply wantRead_alive
    | with_reducible apply setDma_alive
    | split

theorem dmaStart_alive {c a : Nat} {s : State} (hk : Alive s) : Alive (dmaStart s c a) := by
  unfold dmaStart
  repeat' first
    | with_reducible assumption
    | (dsimp only [DMA_CH_CUR_CUR, DMA_CH_STATUS_RUN, modeAt]; omega)
    | (extract_lets +onlyGivenNames lx; refine alive_cut lx ?_ (fun _ => ?_); rotate_left; clear_value lx; revert lx; intro y hy; rotate_right; subst lx)
    | with_reducible apply wr_alive
    | with_reducible apply setDma_alive
    | with_reducible apply dmaFetch_alive
    | split

theorem dmaFollow_alive {c a : Nat} {s : State} (hk : Alive s) : Alive (dmaFollow s c a) := by
  unfold dmaFollow
  repeat' first
    | with_reducible assumption
    | with_reducible apply haltCh_alive
    | with_reducible apply dmaStart_alive
    | split

theorem dmaRefetch_alive {c : Nat} {ecc : EccResult} {s : State} (hk : Alive s) : Alive (dmaRefetch s c ecc) := by
  unfold dmaRefetch
  repeat' first
    | with_reducible assumption
    | (dsimp only [DMA_CH_STATUS_DB_PEND, DMA_CH_STATUS_RUN, modeAt]; omega)
    | with_reducible apply wr_alive
    | with_reducible apply setDma_alive
    | with_reducible apply dmaFollow_alive
    | with_reducible apply wantRead_alive
    | with_reducible apply eccCorrected_alive
    | with_reducible apply haltCh_alive
    | with_reducible apply eccUncorrectable_alive
    | with_reducible apply hF
    | split
    | dsimp only

theorem dmaTry_alive {c : Nat} {s : State} (hk : Alive s) : Alive (dmaTry s c) := by
  unfold dmaTry
  repeat' first
    | with_reducible assumption
    | with_reducible apply dmaFetch_alive
    | split

theorem dmaWake_alive {s : State} (hk : Alive s) : Alive (dmaWake s) := by
  unfold dmaWake
  repeat' first
    | with_reducible assumption
    | (intro)
    | (extract_lets +onlyGivenNames lx; clear_value lx; revert lx; intro y)
    | with_reducible apply each_alive
    | with_reducible apply dmaStart_alive
    | with_reducible apply setDma_alive
    | with_reducible apply dmaTry_alive
    | with_reducible apply dmaRefetch_alive
    | split

/-! The endpoint. -/

theorem linkRetrain_alive {s : State} (hk : Alive s) : Alive (linkRetrain s) := by
  unfold linkRetrain
  repeat' first
    | with_reducible assumption
    | with_reducible apply send_alive

/-! Resets: the number of them, which nothing of a start changes. -/

theorem raise_epoch (s : State) (src : Nat) : (raise s src).epoch = s.epoch := by rw [raise_frame]

theorem lanternHold_epoch (s : State) (r : Rec) : (lanternHold s r).epoch = s.epoch := by
  unfold lanternHold
  split <;> rfl

theorem toLatch_epoch (s : State) (w : WaitRec) : (toLatch s w).epoch = s.epoch := by
  unfold toLatch
  split <;> rfl

theorem offerRec_epoch (s : State) (port : Nat) (r : Rec) : (offerRec s port r).epoch = s.epoch := by
  unfold offerRec
  split
  · exact lanternHold_epoch s r
  · split
    · exact toLatch_epoch s _
    · rfl

theorem offerInOrder_epoch (s : State) (port : Nat) (a b : Rec) : (offerInOrder s port a b).epoch = s.epoch := by
  unfold offerInOrder
  split
  · exact (lanternHold_epoch _ _).trans (lanternHold_epoch _ _)
  · exact (toLatch_epoch _ _).trans (offerRec_epoch _ _ _)

theorem windowAct_epoch (s : State) (w : Nat) : (windowAct s w).epoch = s.epoch := by
  unfold windowAct
  extract_lets act u
  have raised : u.epoch = s.epoch := by
    show (onlyIf (act != 0) (fun s => raise s (srcWindow w)) s).epoch = s.epoch
    unfold onlyIf
    split
    · exact raise_epoch _ _
    · rfl
  clear_value u act
  split <;> exact raised

theorem windowRecord_epoch (s : State) (w n : Nat) : (windowRecord s w n).epoch = s.epoch := by
  unfold windowRecord
  split
  · rfl
  · exact offerRec_epoch _ _ _

theorem windowEscalate_epoch (s : State) (w count n : Nat) : (windowEscalate s w count n).epoch = s.epoch := by
  unfold windowEscalate
  extract_lets act s1 s2 s3 sev pl s4
  have logged : s4.epoch = s.epoch := offerInOrder_epoch s3 _ _ _
  clear_value s4
  split
  · exact logged
  · exact (windowAct_epoch _ _).trans logged

theorem windowInc_epoch (s : State) (w n : Nat) : (windowInc s w n).epoch = s.epoch := by
  unfold windowInc
  split
  · rfl
  · dsimp only
    split
    · rfl
    · split
      · exact windowRecord_epoch _ _ _
      · split
        · exact windowRecord_epoch _ _ _
        · exact (windowRecord_epoch _ _ _).trans (windowEscalate_epoch _ _ _ _)

theorem trlSync_epoch (s : State) (t : Nat) : (trlSync s t).epoch = s.epoch := by
  unfold trlSync onlyIf
  dsimp only
  split <;> rfl

theorem virtSync_epoch (s : State) : (virtSync s).epoch = s.epoch := each_same (g := State.epoch) _ s fun u t _ => trlSync_epoch u t

theorem serialSettle_epoch (s : State) (p : Nat) (ext : Int) : (serialSettle s p ext).epoch = s.epoch := by
  unfold serialSettle
  split <;> rfl

theorem lineBreakEnter_epoch (p pair : Nat) (s : State) : (lineBreakEnter p pair s).epoch = s.epoch := by
  unfold lineBreakEnter
  split
  · split <;> rfl
  · extract_lets f was t hold u x v w y z
    have opened : u.epoch = s.epoch := (virtSync_epoch _).trans (trlSync_epoch s p)
    have settled : v.epoch = s.epoch := (serialSettle_epoch u p 0).trans opened
    clear_value u v
    split
    · exact opened
    · exact ((virtSync_epoch _).trans (windowInc_epoch _ _ _)).trans settled

theorem seedTrail_epoch (s : State) (p : Nat) : (seedTrail s p).epoch = s.epoch := by
  have only : ∀ (b : Bool) (f : State → State) (u : State), (f u).epoch = u.epoch → (onlyIf b f u).epoch = u.epoch := fun b f u same => by
    cases b
    · rfl
    · exact same
  unfold seedTrail
  extract_lets m q s1 s2 s3 s4
  have quiet : s2.epoch = s.epoch := only _ _ _ rfl
  have mode_ : s4.epoch = s.epoch := by
    show (if m = 1 then _ else if m = 0 then s else serialStart s p).epoch = s.epoch
    split
    · exact quiet
    · split <;> rfl
  exact (only _ _ _ rfl).trans mode_

theorem rebreak_epoch (s : State) (p : Nat) : (rebreak s p).epoch = s.epoch := by
  have breaks : ∀ (b : Bool) (pair : Nat) (u : State), (onlyIf b (lineBreakEnter p pair) u).epoch = u.epoch := fun b pair u => by
    cases b
    · rfl
    · exact lineBreakEnter_epoch p pair u
  exact (breaks _ 2 _).trans ((breaks _ 1 _).trans (breaks _ 0 _))

theorem gylSetEn_epoch (s : State) (c v : Nat) : (gylSetEn s c v).epoch = s.epoch := by
  have flag : ∀ (u : State) (f : FRef), (gylFlag u f).epoch = u.epoch := fun u f => by
    unfold gylFlag
    split
    · rfl
    · exact raise_epoch _ _
  unfold gylSetEn
  split
  · exact flag _ _
  · rfl

/-- A start of the main domain leaves the number of its resets. -/
theorem bootStart_epoch (s : State) : (bootStart s).epoch = s.epoch := by
  unfold bootStart
  extract_lets l p s1 s2 s3 s5 s6 s7
  have start : s1.epoch = s.epoch := wrB_epoch _ _ _
  clear_value s1
  have shown : s2.epoch = s1.epoch := (wr_epoch _ _ _).trans ((wr_epoch _ _ _).trans (wr_epoch _ _ _))
  clear_value s2
  have boxes : s3.epoch = s2.epoch := (wrB_epoch _ _ _).trans (wr_epoch _ _ _)
  clear_value s3
  have slot : s5.epoch = s3.epoch := wr_epoch _ _ _
  clear_value s5
  have trails : s6.epoch = s5.epoch := each_same (g := State.epoch) _ s5 fun u p _ => (rebreak_epoch _ _).trans (seedTrail_epoch u p)
  have enables : s7.epoch = s.epoch := (each_same (g := State.epoch) _ s6 fun u p _ => gylSetEn_epoch u _ _).trans (trails.trans (slot.trans (boxes.trans (shown.trans start))))
  clear_value s6 s7
  split
  · exact enables
  · exact enables

/-- A reset is counted. -/
theorem enterReset_alive {s : State} : Alive (enterReset s) := by
  have reset : 0 < (resetMain s).epoch := by
    unfold resetMain
    extract_lets u r s1 s2 s3 p
    have counted : 0 < s1.epoch := Nat.succ_pos _
    have second : s2.epoch = s1.epoch := wr_epoch _ _ _
    clear_value s1
    have third : s3.epoch = s2.epoch := wrB_epoch _ _ _
    clear_value s2 s3
    rw [← second, ← third] at counted
    exact counted
  have main : Alive (resetMain s) := Or.inl reset
  unfold enterReset tryBoot
  dsimp only
  split
  · exact each_alive (fun u w hu => windowAct_alive hu) (Or.inl (by rw [bootStart_epoch]; exact reset))
  · exact main

/-! Enables. -/

/-- The enable of a lane, a camp or the tether that is taken away. -/
theorem enableWrite_off_alive {b : Block} {s : State} (other : enAddr b ≠ modeAt) (quits : ∀ u, Alive u → Alive (enQuit u b)) (hk : Alive s) : Alive (enableWrite b false s) := by
  have off : Alive (wrB s (enEN b) false) := wrB_alive other hk
  unfold enableWrite
  dsimp only
  split
  · exact hk
  · split
    · exact off
    · split
      · exact wrB_alive other off
      · exact quits _ off

theorem enableWrite_lane_alive {n : Fin 32} {s : State} (hk : Alive s) : Alive (enableWrite (.lane n) false s) := by
  have other : enAddr (.lane n) ≠ modeAt := by dsimp only [enAddr, laneEn, modeAt]; omega
  have quit : ∀ u, enQuit u (.lane n) = wr u (enSTATE (.lane n)) 3 := fun _ => rfl
  exact enableWrite_off_alive other (fun u hu => by rw [quit]; exact wr_alive other hu) hk

theorem enableWrite_camp_alive {c : Fin 16} {s : State} (hk : Alive s) : Alive (enableWrite (.camp c) false s) := by
  have other : enAddr (.camp c) ≠ modeAt := by dsimp only [enAddr, campEn, modeAt]; omega
  have quit : ∀ u, enQuit u (.camp c) = campStopped (wr u (enSTATE (.camp c)) 3) c := fun _ => rfl
  exact enableWrite_off_alive other (fun u hu => by rw [quit]; exact campStopped_alive (wr_alive other hu)) hk

theorem enableWrite_tether_alive {s : State} (hk : Alive s) : Alive (enableWrite .tether false s) := by
  have quit : ∀ u, enQuit u .tether = wr u (enSTATE .tether) 3 := fun _ => rfl
  exact enableWrite_off_alive (by decide) (fun u hu => by rw [quit]; exact wr_alive (by decide) hu) hk

theorem disableUnit_alive {w : Nat} {s : State} (hk : Alive s) : Alive (disableUnit w s) := by
  unfold disableUnit
  split
  · exact enableWrite_lane_alive hk
  · split
    · exact enableWrite_camp_alive hk
    · split
      · exact enableWrite_tether_alive hk
      · exact hk

theorem retrainUnit_alive {w : Nat} {s : State} (hk : Alive s) : Alive (retrainUnit w s) := by
  unfold retrainUnit
  repeat' first
    | with_reducible assumption
    | (intro)
    | with_reducible apply laneRetrain_alive
    | with_reducible apply linkRetrain_alive
    | with_reducible apply each_alive
    | with_reducible apply portLock_alive
    | with_reducible apply setLock_alive
    | split

/-! The worklist. -/

theorem posStepDone_alive {t : Nat} {s : State} (hk : Alive s) : Alive (posStepDone t s) := by
  unfold posStepDone
  repeat' first
    | with_reducible assumption
    | (intro)
    | with_reducible apply mlkPosStep_alive
    | with_reducible apply stakesPosStep_alive
    | with_reducible apply dividersFollow_alive
    | with_reducible apply each_alive
    | with_reducible apply setFrm_alive
    | simp only [↓alive_mk]

/-- No entry of the worklist ends it. -/
theorem todoStep_alive {t : Todo} {s : State} (hk : Alive s) : Alive (todoStep t s) := by
  cases t with
  | gyl c h => exact gylCycle_alive hk
  | posStep t => exact posStepDone_alive hk
  | moved t => exact dividersFollow_alive hk
  | domStep d old new => exact chgDomStep_alive (tpgDomStep_alive hk)
  | retrain w => exact retrainUnit_alive hk
  | disableUnit w => exact disableUnit_alive hk
  | hold src idx disable => exact enterHold_alive hk
  | lockCheck => exact lockCheck_alive hk
  | lockDrop => exact lockDrop_alive hk
  | chgMark u => exact chgMark_alive hk
  | campDrop st id cause => exact campDrop_alive hk
  | frameClosed st id => exact frameClosed_alive hk
  | handOver st => exact handOver_alive hk
  | judge st => exact triggerEnd_alive (streamJudge_alive hk)
  | boundary st => exact substitute_alive hk
  | stakesCheck => exact stakesCheck_alive hk
  | lagCheck st => exact lagAbandon_alive hk
  | calAbort => exact calAbort_alive hk
  | recFlushed n written => exact recFlushed_alive hk
  | enterReset => exact enterReset_alive
  | dmaWake => exact dmaWake_alive hk
  | oldSlots => exact oldSlots_alive hk
  | pump => exact serveHost_alive hk
  | heartbeat => exact heartbeatCheck_alive hk

theorem settle_alive {n : Nat} {s : State} (hk : Alive s) : Alive (settle n s) := by
  induction n generalizing s with
  | zero => exact hk
  | succ n ih =>
    unfold settle
    split
    · exact hk
    · exact ih (gylCycle_alive (alive_todo hk))
    · exact ih (todoStep_alive (alive_todo hk))

end Sys2Proof.Machine
end

section
/-! SUPPORT. A start of the main domain that does not end in BOOT (R54, R384). -/

namespace Sys2Proof.Machine

/-- A device with a MODE and a ROLE is one whose MODE_STATUS is listed with them. -/
theorem alive_of_mode {s : State} (mode_ : mode s ≠ 0) (role_ : role s ≠ 0) : Alive s := by
  have word : ModeWord (getReg s modeAt) := ⟨mode_, role_⟩
  have listed : mget 0 s.regs modeAt = getReg s modeAt := mget_listed word.listed
  exact Or.inr (Or.inr (by rw [listed]; exact word))

theorem finish_alive {s : State} (h : Alive s) : Alive (finish s) := settle_alive h

/-- The main domain waits in reset for PERST#, and Lantern holds an enable of a channel far past the last: its GYL_CH_EN register would stand at MODE_STATUS. -/
def strayEnable : State := { State.reset with pwr := { reset := true }, lan := { chanEn := [(81744, 0)] } }

theorem strayEnable_channel : (GYL_CH_EN_EN (208 + 81744)).a = MODE_STATUS_MODE.a := rfl

/-- Its start hands that enable back, and MODE with it: it is 0 where BOOT is 1, with no reset and no hand-over counted. -/
theorem strayEnable_dead : ¬ Alive (finish (perstDeassert 1 0 strayEnable)) := by
  have still : (finish (perstDeassert 1 0 strayEnable)).epoch = 0 := by decide +kernel
  have none_ : (finish (perstDeassert 1 0 strayEnable)).chg.count = 0 := by decide +kernel
  have word : mget 0 (finish (perstDeassert 1 0 strayEnable)).regs modeAt = 0x3F00 := by decide +kernel
  rintro (reset | counted | ⟨mode_, -⟩)
  · exact absurd still (Nat.ne_of_gt reset)
  · exact absurd none_ (Nat.ne_of_gt counted)
  · rw [word] at mode_
    exact absurd rfl mode_

end Sys2Proof.Machine

open Sys2Proof Sys2Proof.Machine

/-- Refutes O39 (R54, R384; logs 30 and 39): its clause on the end of PERST# speaks of every sound state, and soundness does not bound the channels whose enables Lantern holds. In `strayEnable`
one of them is a channel whose enable register is MODE_STATUS itself, so that the start, which writes BOOT and then hands the enables back, ends with MODE 0. No state with MODE 1 and that ROLE has
the same end: no entry of the worklist clears a MODE but by a reset or a hand-over, and both are counted. No state that a run reaches holds such an enable. -/
theorem not_resetAndRecordResults : ¬ Obligations.ResetAndRecordResults := by
  rintro ⟨resets, -⟩
  obtain ⟨-, starts⟩ := resets strayEnable
  obtain ⟨-, release⟩ := starts (by decide +kernel) rfl rfl rfl rfl rfl
  obtain ⟨u, ends, mode_, -, role_, -⟩ := release 1 0 rfl
  have same : finish (perstDeassert 1 0 strayEnable) = finish u := Host.Outcome.next.inj ends
  have alive : Alive u := alive_of_mode (by rw [mode_]; decide) (by rw [role_]; decide)
  have dead : ¬ Alive (finish (perstDeassert 1 0 strayEnable)) := strayEnable_dead
  rw [same] at dead
  exact dead (finish_alive alive)
end
